-- ==== Sys2Proof/Word.lean ====
section
/-!
DEFINITION. The word types of the model and the plainest arithmetic on them: bytes, little-endian numbers and
bit fields of natural numbers. Registers are held as natural numbers below 2^width, as the spec counts with them.
-/
namespace Sys2Proof

/-- One byte. -/
abbrev Byte := BitVec 8

/-- The `w` bits of `n` that start at bit `lo`. -/
def bits (n lo w : Nat) : Nat := n / 2 ^ lo % 2 ^ w

/-- Bit `i` of `n`. -/
def bit (n i : Nat) : Bool := n / 2 ^ i % 2 == 1

/-- `n` with bit `i` set. -/
def setBit (n i : Nat) : Nat := if bit n i then n else n + 2 ^ i

/-- `n` with bit `i` cleared. -/
def clrBit (n i : Nat) : Nat := if bit n i then n - 2 ^ i else n

/-- 1 for true, 0 for false: a one-bit field. -/
def b2n (b : Bool) : Nat := if b then 1 else 0

/-- The `k` bytes of `n`, least significant first. -/
def leBytes : Nat → Nat → List Byte
  | 0, _ => []
  | k + 1, n => BitVec.ofNat 8 (n % 256) :: leBytes k (n / 256)

/-- The number that bytes spell, least significant first. -/
def ofLE : List Byte → Nat
  | [] => 0
  | b :: t => b.toNat + 256 * ofLE t

/-- `n` read as a two's-complement number of `w` bits. -/
def toSigned (w n : Nat) : Int := if n % 2 ^ w < 2 ^ (w - 1) then (n % 2 ^ w : Nat) else (n % 2 ^ w : Nat) - (2 ^ w : Nat)

/-- The `w`-bit two's-complement code of an integer. -/
def ofSigned (w : Nat) (i : Int) : Nat := (i % (2 ^ w : Nat)).toNat

/-- The bytes at offset `o`, `k` of them, zero where the list ends. -/
def takeAt (l : List Byte) (o k : Nat) : List Byte := (l.drop o).take k

/-- The little-endian number of `k` bytes at offset `o`. -/
def leAt (l : List Byte) (o k : Nat) : Nat := ofLE (takeAt l o k)

/-- Smallest multiple of `m` that is at least `n` (`m` positive). -/
def roundUp (n m : Nat) : Nat := (n + m - 1) / m * m

/-- Ceiling of `n / m`. -/
def ceilDiv (n m : Nat) : Nat := (n + m - 1) / m

/-- The positions below `w` at which `n` has a 1. -/
def onesOf (w n : Nat) : List Nat := (List.range w).filter (fun i => bit n i)

/-- The number whose 1 bits are the listed positions. -/
def ofOnes (l : List Nat) : Nat := l.foldl setBit 0

end Sys2Proof
end

