-- ==== Sys2Proof/Syntax.lean ====
section
/-!
DEFINITION. The commands of the block: one constructor of `Instr` per row of spec/opcode_table.json, with the row's operands.
A command is a register write, an event on a pin or link, or one event of an engine of the device's own. Operands are the
addresses and values of a write, the unit that an event happens at, and what the event brings from outside the model.
-/
namespace Sys2Proof

/-- Who writes a register: the PF of host port `x`, VF `f` of it (0 its PF's own page), a PLAN command of partition `x`, or JTAG. -/
inductive Issuer where
  | pf (x : Fin 4)
  | vf (x : Fin 4) (f : Fin 17)
  | plan (x : Fin 4)
  | jtag
  deriving DecidableEq, Repr

/-- A memory access of a host: a write of bytes, or a read of `n` bytes. -/
inductive HostAcc where
  | write (bytes : List (BitVec 8))
  | read (n : Nat)
  deriving DecidableEq, Repr

/-- Bytes of an access. -/
def HostAcc.len : HostAcc → Nat
  | .write l => l.length
  | .read n => n

/-- An ingress engine: port engine `e` or fabric engine `e` of port die `p`, or capstan `c` of yard `y` (R14, R15). -/
inductive Source where
  | port (p : Fin 8) (e : Fin 32)
  | engine (p : Fin 8) (e : Fin 4)
  | capstan (y : Fin 4) (c : Fin 17)
  deriving DecidableEq, Repr

/-- A scratchpad bank: of a sail die, or of a base die. -/
inductive Bank where
  | sail (s : Fin 4) (b : Fin 80)
  | base (n : Fin 8) (b : Fin 16)
  deriving DecidableEq, Repr

/-- A register of the protection set-up that has no row of its own (R136). -/
inductive ProtReg where
  | key (p : Fin 8) (e : Fin 32) (i : Fin 64)
  | queueMap (i : Fin 26)
  | range (x : Fin 4)
  deriving DecidableEq, Repr

/-- How a host port comes into reset (R109). -/
inductive HostReset where
  | perst | hot | linkDown | flr
  deriving DecidableEq, Repr

/-- What starts a capstan's self-test (R336): 65,536 stage completions, or a write of CPS_ST_CTRL.RUN. -/
inductive TestCause where
  | due
  | run (iss : Issuer)
  deriving DecidableEq, Repr

/-- What the codeword search of a lane circuit finds (R154): the circuit, and by how many bits its boundary moved. -/
structure LaneFound where
  lane : Fin 132
  slip : Fin 2720
  deriving DecidableEq, Repr

/-- What PORT_UP measures (R157): latency, skew and phase of each lane of the set, and the period lag to the peer. -/
structure PortMeasure where
  lat : List (BitVec 16 × BitVec 8 × BitVec 8)
  lag : Fin 256
  deriving DecidableEq, Repr

/-- A port engine, and the pipeline cycles since the present entry of its gate list began (R264). -/
structure GatePos where
  e : Fin 32
  since : Nat
  deriving DecidableEq, Repr

/-- When a flit slot begins: pipeline cycles since the present gate entry began, and symbol periods since the frame start (R64, R264). -/
structure SlotTime where
  since : Nat
  sym : Fin 17000
  deriving DecidableEq, Repr

/-- What host software has set in the functions' configuration space (R115): the VFs enabled, and the functions in D3hot. -/
structure FnSetup where
  vfs : Fin 17
  d3hot : List (Fin 17)
  deriving DecidableEq, Repr

/-- Why a lane fault is declared (R160). -/
inductive LaneCause where
  | lossOfSignal | ucwRun | ucwLimit | refDrift | wakeBurst | islandReset
  deriving DecidableEq, Repr

/-- Why a unit leaves service by itself (R473). -/
inductive OutCause where
  | lockLost | restartFailed | poolPtr | stackFatal | stackTest | selftest
  deriving DecidableEq, Repr

/-- A checked control structure, by the rows of R464. -/
inductive Ctrl where
  /-- A single-bit error in a structure of die `n`, corrected in place; `owners`: in its cleat registers or its copy of the owner map
  (R349). -/
  | corrected (n : Nat) (owners : Bool)
  /-- Credit counts or replay pointers of a port engine. -/
  | portState (p e : Nat)
  /-- The control entry of cell `i` of flight `id`, in yard `y`. -/
  | cell (y id i : Nat)
  /-- A free-list head or tail of yard `y`. -/
  | freeList (y : Nat)
  /-- The notice or descriptor of a packet at die `n`: flight; `desc`: a packet descriptor, which is retired. -/
  | packet (n id : Nat) (desc : Bool)
  | fairlead (p dim c : Nat)
  | gateList (p e : Nat)
  | multicastCopy (y g : Nat)
  | multicastMaster (g : Nat)
  | flow (f : Nat)
  | collective (y id : Nat)
  | ringSlot (x f r slot : Nat)
  | commandRing (x f r : Nat)
  | recordRing (x f q : Nat)
  | tensorDesc (h : Nat)
  | collDesc (i : Nat)
  | flowTemplate (k : Nat)
  | section_ (i : Nat)
  /-- Work queues, scoreboard, stream programs, counters or execution state of a tackle. -/
  | tackle (t : Nat)
  | cleat (sail : Bool) (die b : Nat)
  | ownerMap (o : Nat)
  /-- Any other control structure in island `g`. -/
  | other (g : Nat)
  deriving DecidableEq, Repr

/-- The commands, in the order of the opcode table. -/
inductive Instr where
  /-- REGISTER_WRITE (R7): an access of BAR0 at offset `off`; the table has no other row for a BAR0 read (R5). -/
  | registerWrite (x : Fin 4) (f : Fin 17) (off : Nat) (acc : HostAcc)
  /-- STOPPED_ISLAND_ACCESS_RESUME (R58). -/
  | stoppedIslandAccessResume (g : Fin 1520)
  /-- POWER_ON_RESET (R94). -/
  | powerOnReset (inOrder : Bool)
  /-- RESET_N_PULSE (R95). -/
  | resetNPulse
  /-- RESET_N_RELEASE (R95). -/
  | resetNRelease (sysref : Bool) (helm : Fin 4) (vsail : BitVec 16)
  /-- BROWNOUT (R97). -/
  | brownout (good : BitVec 11)
  /-- RAILS_GOOD_RESTART (R97). -/
  | railsGoodRestart (sysref : Bool) (helm : Fin 4) (vsail : BitVec 16)
  /-- SYSREF_LOSS (R47); with SYSREF absent, its edges arrive (R68, R96). -/
  | sysrefLoss
  /-- PLL_LOCK (R61). -/
  | pllLock (n : Fin 25)
  /-- PLL_TIMEOUT (R62). -/
  | pllTimeout (n : Fin 25)
  /-- HOIST_SYNC (R61). -/
  | hoistSync
  /-- ISLAND_RESET_RELEASE (R61). -/
  | islandResetRelease (miss : List (Fin 25 × Nat))
  /-- HOIST_DONE (R61). -/
  | hoistDone
  /-- HOIST_SYNC_MARK (R63). -/
  | hoistSyncMark (slips : List (Fin 25))
  /-- RESET_INDICATOR_ASSERT (R55). -/
  | resetIndicatorAssert (n : Fin 25) (g : Fin 1520) (k : Nat)
  /-- ISLAND_CLOCK_STOP (R58). -/
  | islandClockStop (g : Fin 1520)
  /-- CLK_HOLD_WRITE (R59). -/
  | clkHoldWrite (iss : Issuer) (i : Fin 48) (v : BitVec 32)
  /-- HOLD_LONG (R60). -/
  | holdLong
  /-- FAB_STEP_WRITE (R72). -/
  | fabStepWrite (iss : Issuer) (v : BitVec 64)
  /-- FABRIC_TIME_STEP (R65). -/
  | fabricTimeStep
  /-- TIMEX_REQUEST_SEND (R66), with the EXCH_ID that the port chooses (R190). -/
  | timexRequestSend (p : Fin 8) (e : Fin 32) (exch : BitVec 16)
  /-- TIMEX_REQUEST_RECEIVE (R189): the codeword that carries byte 0 arrived `ago` frames before this one, `sym` symbol periods into its
  frame. -/
  | timexRequestReceive (p : Fin 8) (e : Fin 32) (block : List (BitVec 8)) (ago : Fin 64) (sym : Fin 17000)
  /-- TIMEX_REPLY_RECEIVE (R66); `rx`: frames since the codeword's arrival, and symbol periods into that frame. -/
  | timexReplyReceive (p : Fin 8) (e : Fin 32) (block : List (BitVec 8)) (rx : Fin 64 × Fin 17000)
  /-- TIMEX_LOST (R189). -/
  | timexLost (p : Fin 8) (e : Fin 32)
  /-- AUTO_STEP_ALIGN (R67). -/
  | autoStepAlign
  /-- DET_ANCHOR_WRITE (R74). -/
  | detAnchorWrite (iss : Issuer) (v : BitVec 64)
  /-- ANCHOR_RELEASE (R74). -/
  | anchorRelease
  /-- DET_CLR (R93). -/
  | detClr (iss : Issuer) (v : BitVec 32)
  /-- SECURE_BOOT (R100). -/
  | secureBoot (errA : Bool) (errB : Bool)
  /-- RECOVERY_GO (R101). -/
  | recoveryGo (iss : Issuer)
  /-- RECOVERY_WINDOW_WRITE (R101). -/
  | recoveryWindowWrite (iss : Issuer) (w : Fin 1048576) (v : BitVec 32)
  /-- FUNCTION_READY (R102). -/
  | functionReady (f : Fin 37)
  /-- STACK_TRAIN_TEST (R350). -/
  | stackTrainTest (n : Fin 8) (pass : Bool)
  /-- RST_REQ_DEVICE (R104). -/
  | rstReqDevice (iss : Issuer) (key : BitVec 8)
  /-- RST_REQ_DIE (R107). -/
  | rstReqDie (iss : Issuer) (key : BitVec 8) (target : BitVec 16)
  /-- RST_REQ_ISLAND (R107). -/
  | rstReqIsland (iss : Issuer) (key : BitVec 8) (target : BitVec 16)
  /-- RST_REQ_TACKLE (R108). -/
  | rstReqTackle (iss : Issuer) (key : BitVec 8) (target : BitVec 16) (flush : Bool)
  /-- PARTIAL_RESET_RELEASE (R107). -/
  | partialResetRelease
  /-- HOST_PORT_RESET (R133). -/
  | hostPortReset (x : Fin 4) (kind : HostReset) (f : Fin 17)
  /-- RAISE_SEC_VER (R113). -/
  | raiseSecVer (iss : Issuer) (arg : BitVec 8) (confirm : BitVec 16)
  /-- REVOKE_KEY (R113). -/
  | revokeKey (iss : Issuer) (arg : BitVec 8) (confirm : BitVec 16)
  /-- DEBUG_CLOSE (R112). -/
  | debugClose (iss : Issuer) (arg : BitVec 8) (confirm : BitVec 16)
  /-- FUSE_PROG_DONE (R113). -/
  | fuseProgDone
  /-- MST_LOCK_WRITE (R119). -/
  | mstLockWrite (iss : Issuer) (v : BitVec 32)
  /-- APERTURE_READ (R121). -/
  | apertureRead (x : Fin 4) (off : Nat) (n : Nat)
  /-- APERTURE_WRITE (R121). -/
  | apertureWrite (x : Fin 4) (off : Nat) (bytes : List (BitVec 8))
  /-- IND_ACCESS_GO (R122). -/
  | indAccessGo (iss : Issuer) (x : Fin 4) (write : Bool) (size64 : Bool)
  /-- IND_ACCESS_COMPLETE (R122). -/
  | indAccessComplete (x : Fin 4)
  /-- IND_ACCESS_ABORT (R122). -/
  | indAccessAbort (iss : Issuer) (x : Fin 4)
  /-- CMD_RING_ARM (R124). -/
  | cmdRingArm (iss : Issuer) (x : Fin 4) (f : Fin 17) (r : Fin 32)
  /-- CMD_RING_DISARM (R128). -/
  | cmdRingDisarm (iss : Issuer) (x : Fin 4) (f : Fin 17) (r : Fin 32)
  /-- CMD_RING_CFG_WRITE (R124). -/
  | cmdRingCfgWrite (iss : Issuer) (x : Fin 4) (f : Fin 17) (r : Fin 32) (v : BitVec 32)
  /-- PUSH_WRITE (R125): an access of a push window; the table has no other row for its reads. -/
  | pushWrite (x : Fin 4) (f : Fin 17) (r : Fin 32) (off : Nat) (acc : HostAcc)
  /-- PUSH_WRITE_RELEASE (R125). -/
  | pushWriteRelease (x : Fin 4)
  /-- DOORBELL (R126). -/
  | doorbell (iss : Issuer) (x : Fin 4) (f : Fin 17) (r : Fin 32) (producer : BitVec 64)
  /-- RECORD_RING_ARM (R130). -/
  | recordRingArm (iss : Issuer) (x : Fin 4) (f : Fin 17) (q : Fin 16)
  /-- RECORD_RING_DISARM (R130). -/
  | recordRingDisarm (iss : Issuer) (x : Fin 4) (f : Fin 17) (q : Fin 16)
  /-- RECORD_RELEASE (R131). -/
  | recordRelease (iss : Issuer) (x : Fin 4) (f : Fin 17) (q : Fin 16) (v : BitVec 64)
  /-- RECORD_WRITE (R129). -/
  | recordWrite (ring : Fin 2048) (src : Fin 26)
  /-- PROT_SETUP_WRITE (R136). -/
  | protSetupWrite (iss : Issuer) (item : ProtReg) (v : BitVec 32)
  /-- PROT_DRAINED (R136). -/
  | protDrained
  /-- PORT_CFG_WRITE (R150). -/
  | portCfgWrite (iss : Issuer) (p : Fin 8) (e : Fin 32) (v : BitVec 32)
  /-- LANE_DETECT (R153). -/
  | laneDetect (p : Fin 8) (l : Fin 132)
  /-- LANE_TRAIN_DONE (R153). -/
  | laneTrainDone (p : Fin 8) (l : Fin 132) (taps : BitVec 30) (ctle : BitVec 5) (gain : BitVec 5) (precode : Bool)
  /-- LANE_LOCK_DONE (R154). -/
  | laneLockDone (p : Fin 8) (found : LaneFound)
  /-- LANE_STATE_TIMEOUT (R153). -/
  | laneStateTimeout (p : Fin 8) (l : Fin 132)
  /-- CAPS_RECEIVE (R156). -/
  | capsReceive (p : Fin 8) (l : Fin 132) (block : List (BitVec 8)) (ack : Bool) (phaseOk : Bool)
  /-- PORT_UP (R157). -/
  | portUp (p : Fin 8) (e : Fin 32) (m : PortMeasure)
  /-- LANE_FAULT (R160). -/
  | laneFault (p : Fin 8) (l : Fin 132) (cause : LaneCause)
  /-- LANE_SELFTEST_DONE (R162). -/
  | laneSelftestDone (p : Fin 8) (l : Fin 132) (pass : Bool)
  /-- NARROW_RETRY (R162). -/
  | narrowRetry (p : Fin 8) (l : Fin 132)
  /-- LANE_SET_ANNOUNCE (R148). -/
  | laneSetAnnounce (p : Fin 8) (e : Fin 32)
  /-- SWITCH_POINT (R148). -/
  | switchPoint (p : Fin 8) (e : Fin 32) (tx : Bool)
  /-- RX_DROP (R148). -/
  | rxDrop (p : Fin 8) (e : Fin 32) (i : Fin 16)
  /-- RX_ADD (R148). -/
  | rxAdd (p : Fin 8) (e : Fin 32) (i : Fin 16)
  /-- RX_DROP_REQ (R148). -/
  | rxDropReq (p : Fin 8) (e : Fin 32) (i : Fin 16)
  /-- RX_RESERVED_CTRL (R146). -/
  | rxReservedCtrl (p : Fin 8) (l : Fin 132)
  /-- PORT_LOSS_OF_SIGNAL (R161). -/
  | portLossOfSignal (p : Fin 8) (e : Fin 32)
  /-- LANE_RETRAIN (R169). -/
  | laneRetrain (iss : Issuer) (p : Fin 8) (l : Fin 132) (v : BitVec 32)
  /-- LANE_SELFTEST_CMD (R169). -/
  | laneSelftestCmd (iss : Issuer) (p : Fin 8) (l : Fin 132) (v : BitVec 32)
  /-- LANE_BITSLIP (R154). -/
  | laneBitslip (iss : Issuer) (p : Fin 8) (l : Fin 132) (v : BitVec 32)
  /-- TXEQ_WRITE (R158). -/
  | txeqWrite (iss : Issuer) (p : Fin 8) (l : Fin 132) (v : BitVec 32)
  /-- EYE_MEASURE (R159). -/
  | eyeMeasure (iss : Issuer) (p : Fin 8) (l : Fin 132) (v : BitVec 32)
  /-- EYE_MEASURE_DONE (R159). -/
  | eyeMeasureDone (p : Fin 8) (l : Fin 132) (height : BitVec 8) (width : BitVec 8) (snr : BitVec 8)
  /-- REEF_REQ_SEND (R164). -/
  | reefReqSend (p : Fin 8) (e : Fin 32) (idle : Nat) (since : Nat)
  /-- RX_REEF_REQ (R164). -/
  | rxReefReq (p : Fin 8) (e : Fin 32) (since : Nat)
  /-- RX_REEF_ACK (R165). -/
  | rxReefAck (p : Fin 8) (e : Fin 32)
  /-- RX_REEF_NAK (R164). -/
  | rxReefNak (p : Fin 8) (e : Fin 32)
  /-- REEF_NO_ANSWER (R164). -/
  | reefNoAnswer (p : Fin 8) (e : Fin 32)
  /-- REEF_ENTRY_DONE (R165). -/
  | reefEntryDone (p : Fin 8) (e : Fin 32)
  /-- REEF_WAKE (R166). -/
  | reefWake (p : Fin 8) (w : GatePos)
  /-- WAKE_BURST_DETECT (R166). -/
  | wakeBurstDetect (p : Fin 8) (e : Fin 32)
  /-- RX_IDLE_FLIT (R174). -/
  | rxIdleFlit (p : Fin 8) (e : Fin 32) (flit : List (BitVec 8))
  /-- RX_DATA_FLIT (R183). -/
  | rxDataFlit (p : Fin 8) (e : Fin 32) (flit : List (BitVec 8))
  /-- RX_BAD_FLIT (R176). -/
  | rxBadFlit (p : Fin 8) (e : Fin 32) (flit : List (BitVec 8)) (marked : Bool)
  /-- RX_ABORT_FLIT (R180). -/
  | rxAbortFlit (p : Fin 8) (e : Fin 32) (flit : List (BitVec 8))
  /-- RX_NAK_FLIT (R184). -/
  | rxNakFlit (p : Fin 8) (e : Fin 32) (flit : List (BitVec 8))
  /-- RX_TIMEX_FLIT (R190). -/
  | rxTimexFlit (p : Fin 8) (e : Fin 32) (flit : List (BitVec 8))
  /-- RX_RESERVED_FLIT (R174). -/
  | rxReservedFlit (p : Fin 8) (e : Fin 32) (flit : List (BitVec 8))
  /-- ACK_TIMEOUT (R184). -/
  | ackTimeout (p : Fin 8) (e : Fin 32)
  /-- PORT_DOWN (R219). -/
  | portDown (p : Fin 8) (e : Fin 32)
  /-- PORT_FLUSH_DONE (R219). -/
  | portFlushDone (p : Fin 8) (e : Fin 32)
  /-- FAIRLEAD_EN_CLEAR (R231). -/
  | fairleadEnClear (q : Fin 8) (id : Fin 256)
  /-- PACKET_HEAD_PARSE (R228). -/
  | packetHeadParse (src : Source) (vc : Fin 4)
  /-- MAST_PACKET_DELIVER (R202). -/
  | mastPacketDeliver (id : Nat)
  /-- ADMISSION_GRANT (R206). -/
  | admissionGrant (y : Fin 4) (cls : Fin 5)
  /-- CELL_WRITE (R202). -/
  | cellWrite (id : Nat)
  /-- VOID_NOTICE (R218). -/
  | voidNotice (id : Nat)
  /-- RESEQUENCER_RELEASE (R212). -/
  | resequencerRelease (n : Fin 25) (src : Source) (vc : Fin 4)
  /-- GAP_TIMEOUT (R213). -/
  | gapTimeout (n : Fin 25) (src : Source) (vc : Fin 4)
  /-- EGRESS_FLIT_SLOT (R254). -/
  | egressFlitSlot (p : Fin 8) (e : Fin 32) (w : SlotTime)
  /-- CELL_FREE (R208). -/
  | cellFree (y : Fin 4) (id : Nat) (i : Nat)
  /-- MULTICAST_COPY_DONE (R216). -/
  | multicastCopyDone (id : Nat) (p : Fin 8) (e : Fin 32)
  /-- LEAK_AUDIT_PASS (R210). -/
  | leakAuditPass (y : Fin 4)
  /-- POOL_CFG_WRITE (R204). -/
  | poolCfgWrite (iss : Issuer) (y : Fin 4) (v : BitVec 32)
  /-- SPRAY_EPOCH_CHANGE (R203). -/
  | sprayEpochChange
  /-- FABADDR_APPLY (R227). -/
  | fabaddrApply
  /-- FAIRLEAD_COMMIT (R232). -/
  | fairleadCommit (iss : Issuer) (p : Fin 8) (dim : Fin 3) (c : Fin 16) (v : BitVec 32)
  /-- MC_GROUP_COMMIT (R238). -/
  | mcGroupCommit (iss : Issuer) (g : Fin 4096) (v : BitVec 32)
  /-- MC_GROUP_APPLY (R238). -/
  | mcGroupApply
  /-- RATE_DECREASE (R243). -/
  | rateDecrease (f : Fin 262144)
  /-- RATE_INCREASE (R243). -/
  | rateIncrease (f : Fin 262144)
  /-- RATE_PROFILE_CLAMP (R250). -/
  | rateProfileClamp (p : Fin 8) (k : Fin 8)
  /-- CMAP_SAMPLE (R245). -/
  | cmapSample (p : Fin 8)
  /-- CMAP_SNAPSHOT (R246). -/
  | cmapSnapshot (p : Fin 8)
  /-- SHAPER_REFILL (R259). -/
  | shaperRefill (p : Fin 8) (e : Fin 32)
  /-- GATE_ENTRY_ADVANCE (R263). -/
  | gateEntryAdvance (p : Fin 8) (e : Fin 32)
  /-- GATE_TAKEOVER (R265). -/
  | gateTakeover (p : Fin 8) (e : Fin 32)
  /-- SCH_TCQ_WRITE (R255). -/
  | schTcqWrite (iss : Issuer) (p : Fin 8) (e : Fin 32) (v : BitVec 32)
  /-- FRESH_WRITE (R258). -/
  | freshWrite (iss : Issuer) (p : Fin 8) (e : Fin 32) (q : Fin 13) (v : BitVec 32)
  /-- PUT_RECEIVE (R194). -/
  | putReceive (n : Fin 25)
  /-- GET_RECEIVE (R195). -/
  | getReceive (n : Fin 25)
  /-- NOTIFY_RECEIVE (R192). -/
  | notifyReceive (n : Fin 25)
  /-- NOTICE_RECEIVE (R198). -/
  | noticeReceive (n : Fin 25)
  /-- PUT_ACK_RECEIVE (R389). -/
  | putAckReceive (n : Fin 25)
  /-- GET_DATA_RECEIVE (R195). -/
  | getDataReceive (n : Fin 25)
  /-- REFUSE_NOTICE_RECEIVE (R442). -/
  | refuseNoticeReceive (n : Fin 25)
  /-- FLOW_RESPONSE_TIMEOUT (R111). -/
  | flowResponseTimeout (f : Fin 262144) (tag : Fin 4096)
  /-- CHUNK_INTAKE (R316). -/
  | chunkIntake (y : Fin 4)
  /-- GRANT_RECEIVE (R312). -/
  | grantReceive (y : Fin 4)
  /-- UP_GRANT_ISSUE (R311). -/
  | upGrantIssue (id : Nat) (st : Fin 4) (y : Fin 4)
  /-- RETURN_GRANT_ISSUE (R313). -/
  | returnGrantIssue (id : Nat) (st : Fin 4) (y : Fin 4)
  /-- STAGE_COMPLETE (R324). -/
  | stageComplete (id : Nat) (n : Nat) (st : Fin 4)
  /-- STAGE_OUTPUT_SEND (R324). -/
  | stageOutputSend (id : Nat) (n : Nat) (st : Fin 4)
  /-- ROOT_FINAL (R325). -/
  | rootFinal (id : Nat) (n : Nat)
  /-- FINAL_COPY_DOWN (R326). -/
  | finalCopyDown (id : Nat) (n : Nat) (st : Fin 4) (i : Fin 32)
  /-- T_DELIVERY (R327). -/
  | tDelivery (id : Nat) (n : Nat)
  /-- CHUNK_SIGNAL (R328). -/
  | chunkSignal (id : Nat) (n : Nat)
  /-- CHUNK_TIMEOUT (R332). -/
  | chunkTimeout (id : Nat) (n : Nat)
  /-- CONTEXT_END (R310). -/
  | contextEnd (id : Nat)
  /-- CAPSTAN_SELFTEST (R336). -/
  | capstanSelftest (y : Fin 4) (c : Fin 17) (cause : TestCause)
  /-- CAPSTAN_SELFTEST_DONE (R336). -/
  | capstanSelftestDone (y : Fin 4) (c : Fin 17) (pass : Bool)
  /-- CAPSTAN_SPARE_SWAP (R333). -/
  | capstanSpareSwap (y : Fin 4) (c : Fin 17)
  /-- COLL_OVF_WRITE (R338). -/
  | collOvfWrite (iss : Issuer) (y : Fin 4) (v : BitVec 64)
  /-- CLEAT_OWNER_WRITE (R356). -/
  | cleatOwnerWrite (iss : Issuer) (b : Bank) (v : BitVec 32)
  /-- CLEAT_CLAIM_RESOLVE (R357). -/
  | cleatClaimResolve (b : Bank)
  /-- OWNER_MAP_WRITE (R358). -/
  | ownerMapWrite (iss : Issuer) (o : Fin 112) (v : BitVec 32)
  /-- BANK_RETENTION_ENTRY (R359). -/
  | bankRetentionEntry (b : Bank)
  /-- BANK_WAKE (R359). -/
  | bankWake (b : Bank)
  /-- STACK_SELF_REFRESH_ENTRY (R360). -/
  | stackSelfRefreshEntry (n : Fin 8)
  /-- STACK_SELF_REFRESH_EXIT (R360). -/
  | stackSelfRefreshExit (n : Fin 8)
  /-- STACK_CA_RETRY (R349). -/
  | stackCaRetry (n : Fin 8) (ok : Bool)
  /-- COMMAND_DEQUEUE (R367). -/
  | commandDequeue (t : Fin 65536) (q : Fin 4)
  /-- COMMAND_DISPATCH (R379). -/
  | commandDispatch (t : Fin 65536)
  /-- COMMAND_COMPLETE (R393). -/
  | commandComplete (t : Fin 65536) (k : Nat)
  /-- QUEUE_RESUME (R369). -/
  | queueResume (iss : Issuer) (t : Fin 65536) (q : Fin 4)
  /-- SEQ_CTR_WRITE (R381). -/
  | seqCtrWrite (iss : Issuer) (t : Fin 65536) (c : Fin 16) (v : BitVec 32)
  /-- NOP (R369). -/
  | nop (t : Fin 65536) (q : Fin 4)
  /-- FENCE (R369). -/
  | fence (t : Fin 65536) (q : Fin 4)
  /-- WAIT (R383). -/
  | wait (t : Fin 65536) (q : Fin 4)
  /-- WAIT_TIMEOUT (R383). -/
  | waitTimeout (t : Fin 65536) (q : Fin 4)
  /-- SIGNAL (R382). -/
  | signal (t : Fin 65536) (q : Fin 4)
  /-- MARK (R409). -/
  | mark (t : Fin 65536) (q : Fin 4)
  /-- HALT (R369). -/
  | halt (t : Fin 65536) (q : Fin 4)
  /-- HANDOVER (R356). -/
  | handover (t : Fin 65536) (k : Nat)
  /-- DIGEST_OPEN (R82). -/
  | digestOpen (t : Fin 65536) (k : Nat)
  /-- DIGEST_RANGE (R82). -/
  | digestRange (t : Fin 65536) (k : Nat)
  /-- DIGEST_CLOSE (R85). -/
  | digestClose (t : Fin 65536) (k : Nat)
  /-- DIGEST_HASH (R82). -/
  | digestHash (t : Fin 65536) (k : Nat)
  /-- DIGEST_WINDOW_CLOSE (R85). -/
  | digestWindowClose (no : Nat)
  /-- SEQLOAD (R417). -/
  | seqload (t : Fin 65536) (k : Nat)
  /-- EMIT (R386). -/
  | emit (t : Fin 65536) (k : Nat)
  /-- WAITC (R386). -/
  | waitc (t : Fin 65536) (k : Nat)
  /-- SKIP (R386). -/
  | skip (t : Fin 65536) (k : Nat)
  /-- INC (R386). -/
  | inc (t : Fin 65536) (k : Nat)
  /-- CLR (R386). -/
  | clr (t : Fin 65536) (k : Nat)
  /-- END (R386). -/
  | end_ (t : Fin 65536) (k : Nat)
  /-- MOVE (R419). -/
  | move (t : Fin 65536) (k : Nat)
  /-- GATHER (R420). -/
  | gather (t : Fin 65536) (k : Nat)
  /-- SCATTER (R420). -/
  | scatter (t : Fin 65536) (k : Nat)
  /-- FILL (R422). -/
  | fill (t : Fin 65536) (k : Nat)
  /-- SEALCHK (R423). -/
  | sealchk (t : Fin 65536) (k : Nat)
  /-- MMA (R425). -/
  | mma (t : Fin 65536) (k : Nat)
  /-- GMMA (R426). -/
  | gmma (t : Fin 65536) (k : Nat)
  /-- VOP (R428). -/
  | vop (t : Fin 65536) (k : Nat)
  /-- CVT (R431). -/
  | cvt (t : Fin 65536) (k : Nat)
  /-- VRED (R432). -/
  | vred (t : Fin 65536) (k : Nat)
  /-- UPDATE (R433). -/
  | update (t : Fin 65536) (k : Nat)
  /-- ATTN (R436). -/
  | attn (t : Fin 65536) (k : Nat)
  /-- PUT (R439). -/
  | put (t : Fin 65536) (k : Nat)
  /-- GET (R440). -/
  | get (t : Fin 65536) (k : Nat)
  /-- NOTIFY (R441). -/
  | notify (t : Fin 65536) (k : Nat)
  /-- COLL_OPEN (R308). -/
  | collOpen (t : Fin 65536) (k : Nat)
  /-- COLL_START (R340). -/
  | collStart (t : Fin 65536) (k : Nat)
  /-- COLL_ABORT (R310). -/
  | collAbort (t : Fin 65536) (k : Nat)
  /-- COLLJOIN (R309). -/
  | colljoin (t : Fin 65536) (k : Nat)
  /-- PLAN_LOAD (R447). -/
  | planLoad (t : Fin 65536) (k : Nat)
  /-- PLAN_DROP (R447). -/
  | planDrop (t : Fin 65536) (k : Nat)
  /-- GATE (R265). -/
  | gate (t : Fin 65536) (k : Nat)
  /-- CONTROL_CHECK_ERROR (R464). -/
  | controlCheckError (c : Ctrl)
  /-- FAULT_PULSE_END (R469). -/
  | faultPulseEnd
  /-- FAULT_PULSED_CLEAR (R469). -/
  | faultPulsedClear (iss : Issuer)
  /-- FAULT_HOLD_WRITE (R470). -/
  | faultHoldWrite (iss : Issuer) (v : BitVec 32)
  /-- UNIT_OUT_OF_SERVICE (R472). -/
  | unitOutOfService (t : Fin 65536) (cause : OutCause)
  /-- MAST_LOST (R475). -/
  | mastLost
  /-- TAKE_OUT (R479). -/
  | takeOut
  /-- HALT_QUEUES (R479). -/
  | haltQueues
  /-- RESUME_QUEUES (R479). -/
  | resumeQueues
  /-- SIDEBAND_SCAN (R485). -/
  | sidebandScan (present : BitVec 128) (int : BitVec 128)
  /-- MODULE_INSERT (R486). -/
  | moduleInsert (m : Fin 128) (ok : Bool)
  /-- MODULE_ANSWER (R486). -/
  | moduleAnswer (m : Fin 128) (vendor : List (BitVec 8)) (part : List (BitVec 8)) (serial : List (BitVec 8)) (app : Bool) (dur : Nat) (ok : Bool)
  /-- MODULE_POLL_TIMEOUT (R486). -/
  | modulePollTimeout (m : Fin 128)
  /-- MODULE_READY (R487). -/
  | moduleReady (m : Fin 128)
  /-- MODULE_READY_TIMEOUT (R487). -/
  | moduleReadyTimeout (m : Fin 128)
  /-- MODULE_REMOVE (R495). -/
  | moduleRemove (m : Fin 128) (ok : Bool)
  /-- MODULE_INT (R494). -/
  | moduleInt (m : Fin 128) (fault : Bool) (los : Bool)
  /-- LASER_MINUTE (R490). -/
  | laserMinute (m : Fin 128) (ok : Bool)
  /-- BIAS_DRIFT_SAMPLE (R490). -/
  | biasDriftSample (m : Fin 128) (bias : List (BitVec 16)) (ok : Bool)
  /-- LEDGER_HOURLY_WRITE (R491). -/
  | ledgerHourlyWrite (ok : Bool)
  /-- OPM_FLUSH (R491). -/
  | opmFlush (ok : Bool)
  /-- OPM_DUMP (R494). -/
  | opmDump (iss : Issuer) (v : BitVec 32)
  /-- OPM_REINIT (R488). -/
  | opmReinit (iss : Issuer) (m : Fin 128) (v : BitVec 32)
  /-- OPM_MANUAL_WRITE (R496). -/
  | opmManualWrite (iss : Issuer) (m : Fin 128) (v : BitVec 32)
  /-- OPM_PASS_GO (R496). -/
  | opmPassGo (iss : Issuer) (v : BitVec 32)
  /-- OPM_PASS_DONE (R496). -/
  | opmPassDone (nack : Bool) (v : BitVec 8)
  /-- TRACE_BUFFER_ENTER (R501). -/
  | traceBufferEnter (n : Fin 25)
  /-- COUNTER_SET_SAMPLE (R505). -/
  | counterSetSample (k : Fin 8)
  /-- SNAP_GO (R508). -/
  | snapGo (iss : Issuer) (v : BitVec 32)
  /-- SNAP_AT (R508). -/
  | snapAt
  /-- SNAP_CUT (R509). -/
  | snapCut
  /-- SNAP_COLLECT (R511). -/
  | snapCollect
  /-- JTAG_EXTEST (R512). -/
  | jtagExtest (tdi : List Bool)
  /-- JTAG_SAMPLE_PRELOAD (R512). -/
  | jtagSamplePreload (tdi : List Bool)
  /-- JTAG_IDCODE (R512). -/
  | jtagIdcode
  /-- JTAG_CLAMP (R512). -/
  | jtagClamp (tdi : List Bool)
  /-- JTAG_HIGHZ (R512). -/
  | jtagHighz (tdi : List Bool)
  /-- JTAG_REG_ACCESS (R513). -/
  | jtagRegAccess (w : BitVec 120)
  /-- JTAG_MEM_ACCESS (R513). -/
  | jtagMemAccess (w : BitVec 120)
  /-- JTAG_TRACE_EXPORT (R514). -/
  | jtagTraceExport (tdi : List Bool)
  /-- JTAG_SCAN (R512). -/
  | jtagScan (tdi : List Bool)
  /-- JTAG_BYPASS (R512). -/
  | jtagBypass (tdi : List Bool)
  /-- TRST_N_ASSERT (R513). -/
  | trstNAssert
  /-- SAIL_RATIO_WRITE (R520). -/
  | sailRatioWrite (iss : Issuer) (k : Fin 4) (v : BitVec 32)
  /-- SAIL_RATIO_RELOCK (R520). -/
  | sailRatioRelock (k : Fin 4)
  /-- SENSOR_CONVERSION (R524). -/
  | sensorConversion (codes : List (BitVec 16)) (ohmsA : Nat) (ohmsB : Nat) (vsail : BitVec 16)
  /-- THROTTLE_FORCE_WRITE (R522). -/
  | throttleForceWrite (iss : Issuer) (k : Fin 4) (v : BitVec 32)
  /-- THERMISTOR_OPEN (R526). -/
  | thermistorOpen (x : Fin 2)
  /-- THERMISTOR_CLOSE (R526). -/
  | thermistorClose (x : Fin 2)
  /-- THERMAL_TRIP (R528). -/
  | thermalTrip (n : Fin 25)
  /-- VDD_AON_FALL (R94). -/
  | vddAonFall
  /-- HOST_PORT_RESET_RELEASE (R102). -/
  | hostPortResetRelease (x : Fin 4)
  /-- PCIE_LINK_UP (R102). -/
  | pcieLinkUp (x : Fin 4) (rate : BitVec 3) (width : BitVec 4) (flit : Bool) (fns : FnSetup)
  deriving DecidableEq, Repr

end Sys2Proof
end

