-- ==== Sys2Proof/Machine/Hash.lean ====
section
/-!
DEFINITION. The checks and digests the spec names: CRC-32C and CRC-16 (R175, R197), SHA-256 and SHA-384
(FIPS 180-4; R82, R98), ECDSA P-384 verification (FIPS 186-5; R99).
-/
namespace Sys2Proof.Machine

/-- One step of a reflected CRC-32C: polynomial 0x1EDC6F41. -/
def crc32cStep : Nat → Nat → Nat
  | 0, c => c
  | k + 1, c => crc32cStep k (if c % 2 = 1 then (c / 2) ^^^ 0x82F63B78 else c / 2)

/-- CRC-32C of bytes: initial value and final XOR all ones. -/
def crc32c (l : List Byte) : Nat :=
  (l.foldl (fun c b => crc32cStep 8 (c ^^^ b.toNat)) 0xFFFFFFFF) ^^^ 0xFFFFFFFF

/-- One step of CRC-16 with polynomial 0x1021, most significant bit first. -/
def crc16Step : Nat → Nat → Nat
  | 0, c => c
  | k + 1, c => crc16Step k (if c / 32768 % 2 = 1 then (c * 2 % 65536) ^^^ 0x1021 else c * 2 % 65536)

/-- CRC-16 of bytes with initial value `init`. -/
def crc16 (init : Nat) (l : List Byte) : Nat := l.foldl (fun c b => crc16Step 8 (c ^^^ (b.toNat * 256))) init

/-! ## SHA-2 over words of `w` bits, as natural numbers -/

/-- Rotate right by `r` in a word of `w` bits. -/
def rotr (w r x : Nat) : Nat := x / 2 ^ r + x % 2 ^ r * 2 ^ (w - r)

/-- What sets one SHA-2 size apart: word width, rounds of a block, and the rotation counts of the four functions. -/
structure Sha where
  w : Nat
  rounds : Nat
  bs0 : Nat × Nat × Nat
  bs1 : Nat × Nat × Nat
  ss0 : Nat × Nat × Nat
  ss1 : Nat × Nat × Nat

/-- The primes up to 409, the eightieth: FIPS 180-4 takes every SHA-2 constant from their roots. No number below 441
is composite without a divisor below 21. -/
def shaPrimes : List Nat := (List.range 410).filter (fun p => 2 ≤ p ∧ ((List.range 21).all fun q => q < 2 ∨ q = p ∨ p % q ≠ 0))

/-- The largest number of at most `k` further binary digits over `r` whose `e`-th power does not exceed `n`. -/
def rootBits (e n : Nat) : Nat → Nat → Nat
  | 0, r => r
  | k + 1, r => rootBits e n k (if (r + 2 ^ k) ^ e ≤ n then r + 2 ^ k else r)

/-- The first `w` bits of the fractional part of the `e`-th root of `p` (a root below 32). -/
def rootFrac (e w p : Nat) : Nat := rootBits e (p * 2 ^ (e * w)) (w + 5) 0 % 2 ^ w

/-- The round constants: fractional parts of the cube roots of the first primes, one for each round (FIPS 180-4, 4.2.2 and 4.2.3). -/
def Sha.k (s : Sha) : List Nat := (shaPrimes.take s.rounds).map (rootFrac 3 s.w)

/-- Σ: three rotations. -/
def shaBig (s : Sha) (r : Nat × Nat × Nat) (x : Nat) : Nat := rotr s.w r.1 x ^^^ rotr s.w r.2.1 x ^^^ rotr s.w r.2.2 x

/-- σ: two rotations and a shift. -/
def shaSmall (s : Sha) (r : Nat × Nat × Nat) (x : Nat) : Nat := rotr s.w r.1 x ^^^ rotr s.w r.2.1 x ^^^ x / 2 ^ r.2.2

/-- The message schedule, newest word first: `n` further words. -/
def shaSched (s : Sha) : Nat → List Nat → List Nat
  | 0, l => l
  | n + 1, l =>
    shaSched s n (((shaSmall s s.ss1 (l.getD 1 0) + l.getD 6 0 + shaSmall s s.ss0 (l.getD 14 0) + l.getD 15 0) % 2 ^ s.w) :: l)

/-- The eight working variables. -/
structure ShaV where
  a : Nat
  b : Nat
  c : Nat
  d : Nat
  e : Nat
  f : Nat
  g : Nat
  h : Nat

/-- One round with word `wk.1` and constant `wk.2`. -/
def shaRound (s : Sha) (v : ShaV) (wk : Nat × Nat) : ShaV :=
  let t1 := v.h + shaBig s s.bs1 v.e + ((v.e &&& v.f) ^^^ ((2 ^ s.w - 1 - v.e) &&& v.g)) + wk.2 + wk.1
  let t2 := shaBig s s.bs0 v.a + ((v.a &&& v.b) ^^^ (v.a &&& v.c) ^^^ (v.b &&& v.c))
  ⟨(t1 + t2) % 2 ^ s.w, v.a, v.b, v.c, (v.d + t1) % 2 ^ s.w, v.e, v.f, v.g⟩

/-- Process one block of sixteen words. -/
def shaBlock (s : Sha) (h : List Nat) (m : List Nat) : List Nat :=
  let ws := (shaSched s (s.rounds - 16) m.reverse).reverse
  let v := (ws.zip s.k).foldl (shaRound s)
    ⟨h.getD 0 0, h.getD 1 0, h.getD 2 0, h.getD 3 0, h.getD 4 0, h.getD 5 0, h.getD 6 0, h.getD 7 0⟩
  (h.zip [v.a, v.b, v.c, v.d, v.e, v.f, v.g, v.h]).map (fun p => (p.1 + p.2) % 2 ^ s.w)

/-- The big-endian number of bytes. -/
def ofBE (l : List Byte) : Nat := l.foldl (fun n b => n * 256 + b.toNat) 0

/-- The `k` bytes of `n`, most significant first. -/
def beBytes (k n : Nat) : List Byte := (leBytes k n).reverse

/-- Cut bytes into words of `k` bytes, at most `fuel` of them. -/
def wordsOf (k : Nat) : Nat → List Byte → List Nat
  | 0, _ => []
  | f + 1, l => ofBE (l.take k) :: wordsOf k f (l.drop k)

/-- Fold the blocks of a padded message. -/
def shaBlocks (s : Sha) : Nat → List Nat → List Byte → List Nat
  | 0, h, _ => h
  | f + 1, h, l => shaBlocks s f (shaBlock s h (wordsOf (s.w / 8) 16 (l.take (2 * s.w)))) (l.drop (2 * s.w))

/-- Padding: a 1 bit, zeros, and the bit length in two words. -/
def shaPad (s : Sha) (l : List Byte) : List Byte :=
  let b := 2 * s.w
  let z := (b - (l.length + 1 + s.w / 4) % b) % b
  l ++ [0x80#8] ++ List.replicate z 0#8 ++ beBytes (s.w / 4) (8 * l.length)

/-- The state after the whole message. -/
def shaRun (s : Sha) (h : List Nat) (l : List Byte) : List Nat :=
  shaBlocks s ((shaPad s l).length / (2 * s.w)) h (shaPad s l)

/-- The sizes of SHA-256 (FIPS 180-4, 4.1.2). -/
def sha256Par : Sha := { w := 32, rounds := 64, bs0 := (2, 13, 22), bs1 := (6, 11, 25), ss0 := (7, 18, 3), ss1 := (17, 19, 10) }

/-- SHA-256 of bytes: its initial value is the square roots of the first eight primes (FIPS 180-4, 5.3.3). -/
def sha256 (l : List Byte) : List Byte :=
  ((shaRun sha256Par ((shaPrimes.take 8).map (rootFrac 2 32)) l).map (beBytes 4)).flatten

/-- The sizes of SHA-384 (FIPS 180-4, 4.1.3). -/
def sha384Par : Sha := { w := 64, rounds := 80, bs0 := (28, 34, 39), bs1 := (14, 18, 41), ss0 := (1, 8, 7), ss1 := (19, 61, 6) }

/-- SHA-384 of bytes: its initial value is the square roots of the ninth to the sixteenth prime, and six words of the
result count (FIPS 180-4, 5.3.4 and 6.5). -/
def sha384 (l : List Byte) : List Byte :=
  (((shaRun sha384Par (((shaPrimes.drop 8).take 8).map (rootFrac 2 64)) l).take 6).map (beBytes 8)).flatten

/-! ## ECDSA P-384 (FIPS 186-5) -/

/-- The field prime of P-384. -/
def p384 : Nat := 2 ^ 384 - 2 ^ 128 - 2 ^ 96 + 2 ^ 32 - 1
/-- The group order of P-384. -/
def n384 : Nat := 0xFFFFFFFFFFFFFFFFFFFFFFFFFFFFFFFFFFFFFFFFFFFFFFFFC7634D81F4372DDF581A0DB248B0A77AECEC196ACCC52973
/-- The curve's b. -/
def b384 : Nat := 0xB3312FA7E23EE7E4988E056BE3F82D19181D9C6EFE8141120314088F5013875AC656398D8A2ED19D2A85C8EDD3EC2AEF
/-- The base point. -/
def g384 : Nat × Nat :=
  (0xAA87CA22BE8B05378EB1C71EF320AD746E1D3B628BA79B9859F741E082542A385502F25DBF55296C3A545E3872760AB7,
   0x3617DE4A96262C6F5D9E98BF9292DC29F8F41DBD289A147CE9DA3113B5F0B8C00A60B1CE1D7E819D7A431D7C90EA0E5F)

/-- `b ^ e mod m` by `k` binary digits of `e`. -/
def powMod (m : Nat) : Nat → Nat → Nat → Nat
  | 0, _, _ => 1 % m
  | k + 1, b, e => if e % 2 = 1 then b * powMod m k (b * b % m) (e / 2) % m else powMod m k (b * b % m) (e / 2)

/-- Inverse modulo a prime below 2^384. -/
def invMod (m x : Nat) : Nat := powMod m 384 (x % m) (m - 2)

/-- Addition of curve points; `none` is the point at infinity. -/
def ecAdd (a b : Option (Nat × Nat)) : Option (Nat × Nat) :=
  match a, b with
  | none, q => q
  | q, none => q
  | some (x1, y1), some (x2, y2) =>
    if x1 = x2 ∧ (y1 + y2) % p384 = 0 then none
    else
      let l := if x1 = x2 then (3 * x1 * x1 + (p384 - 3)) * invMod p384 (2 * y1) % p384
        else (y2 + p384 - y1) * invMod p384 (x2 + p384 - x1) % p384
      let x3 := (l * l + 2 * p384 - x1 - x2) % p384
      some (x3, (l * (x1 + p384 - x3) + p384 - y1) % p384)

/-- Scalar multiplication over `k` binary digits. -/
def ecMul : Nat → Nat → Option (Nat × Nat) → Option (Nat × Nat)
  | 0, _, _ => none
  | k + 1, n, q => if n % 2 = 1 then ecAdd q (ecMul k (n / 2) (ecAdd q q)) else ecMul k (n / 2) (ecAdd q q)

/-- A point lies on P-384. -/
def onCurve (x y : Nat) : Bool :=
  x < p384 && y < p384 && y * y % p384 == (x * x * x + (p384 - 3) * x + b384) % p384

/-- ECDSA P-384 verification of signature `(r, s)` over the digest `h` (384 bits) with public key `(x, y)`. -/
def ecdsaVerify (x y r s h : Nat) : Bool :=
  onCurve x y && 0 < r && r < n384 && 0 < s && s < n384 &&
    (let w := invMod n384 s
     match ecAdd (ecMul 384 (h * w % n384) (some g384)) (ecMul 384 (r * w % n384) (some (x, y))) with
     | none => false
     | some (px, _) => px % n384 == r)

end Sys2Proof.Machine
end

