-- ==== Sys2Proof/Config.lean ====
section
/-!
DEFINITION. What the spec leaves open: values with no body (free values), and the few constants of an
implementation. Nothing can be proved about what a free value is.
-/
namespace Sys2Proof.Config

/-- A byte the spec leaves undefined; the argument is the step's free counter plus a position (log 5). -/
opaque freeByte : Nat → BitVec 8

/-- A number the spec leaves open; the argument is the step's free counter plus a position (log 5). -/
opaque freeNat : Nat → Nat

/-- The byte at an address whose contents a reset made undefined; the first argument counts the resets (log 4). -/
opaque lostByte : Nat → Nat → BitVec 8

/-- The board's SYSREF is spread: what the device sends in REF.SPREAD (R155); a constant of the board (log 41). -/
opaque spreading : Bool

/-- How many crossings die `d` has: the spec gives no number (R63 counts them in FREE_XING; log 6). -/
opaque crossings : Nat → Nat

/-- What a field holds of a number too large for it, where no rule says; the argument is the number (log 45) (DEDUCED, log
48). -/
opaque wide : Nat → Nat

/-- The JEP106 manufacturer identity in the IDCODE, for which the spec gives no number (R512) (PRESUMED, log 25). -/
opaque jep106 : Nat

end Sys2Proof.Config
end

