-- ==== Sys2Proof/Machine/Map.lean ====
section
/-!
DEFINITION. Sparse tables as lists of key and value pairs in rising key order, where an absent key holds a default.
The laws of `get` and `put` need no hypothesis on the list (Laws/Map.lean).
-/
namespace Sys2Proof.Machine

/-- Lexicographic order of number lists, the order of a table's keys. -/
def lexLt : List Nat → List Nat → Bool
  | [], [] => false
  | [], _ :: _ => true
  | _ :: _, [] => false
  | a :: s, b :: t => if a < b then true else if a = b then lexLt s t else false

/-- The value at key `k`, `dflt` where the table lists none. -/
def tget {κ α : Type} [DecidableEq κ] (dflt : α) : List (κ × α) → κ → α
  | [], _ => dflt
  | (j, v) :: t, k => if j = k then v else tget dflt t k

/-- Insert or replace the value at key `k`, keeping key order. -/
def tins {κ α : Type} [DecidableEq κ] (lt : κ → κ → Bool) (k : κ) (v : α) : List (κ × α) → List (κ × α)
  | [] => [(k, v)]
  | (j, w) :: t => if lt k j then (k, v) :: (j, w) :: t else if j = k then (k, v) :: t else (j, w) :: tins lt k v t

/-- Remove key `k`. -/
def tdel {κ α : Type} [DecidableEq κ] (k : κ) : List (κ × α) → List (κ × α)
  | [] => []
  | (j, w) :: t => if j = k then tdel k t else (j, w) :: tdel k t

/-- Write key `k`: writing the default removes the entry. -/
def tput {κ α : Type} [DecidableEq κ] [DecidableEq α] (lt : κ → κ → Bool) (dflt : α) (k : κ) (v : α)
    (m : List (κ × α)) : List (κ × α) :=
  if v = dflt then tdel k m else tins lt k v m

/-- A table keyed by number lists (a unit's indices). -/
abbrev NMap (α : Type) := List (List Nat × α)

/-- Read an index table. -/
def nget {α : Type} (dflt : α) (m : NMap α) (k : List Nat) : α := tget dflt m k

/-- Write an index table; the default removes the entry. -/
def nput {α : Type} [DecidableEq α] (dflt : α) (m : NMap α) (k : List Nat) (v : α) : NMap α := tput lexLt dflt k v m

/-- Read an index table whose entries may be absent. -/
def nget? {α : Type} (m : NMap α) (k : List Nat) : Option α :=
  match m with
  | [] => none
  | (j, v) :: t => if j = k then some v else nget? t k

/-- Set an entry of an index table. -/
def nset {α : Type} (m : NMap α) (k : List Nat) (v : α) : NMap α := tins lexLt k v m

/-- Remove an entry of an index table. -/
def ndel {α : Type} (m : NMap α) (k : List Nat) : NMap α := tdel k m

end Sys2Proof.Machine
end

