-- ==== Sys2Proof/Machine/RegName.lean ====
section
/-!
DEFINITION. The names of the registers that the spec's register tables give the device, one constructor per
register or register array, and the two small types that a register's field is described by.
-/
namespace Sys2Proof.Machine

/-- The device's registers, named as the spec names them; an array such as `MST_CLKON_i` is one name, and its
indices stand in the key. `SAL_`/`BSE_` pairs that share one table keep one name each. -/
inductive RegName where
  | MST_IDENT
  | MST_UNITS
  | MST_CLK_STAT
  | MST_PLL_LOCK
  | MST_HOIST_STAT
  | MST_CLKON
  | MST_CLK_HOLD
  | FAB_TIME
  | FAB_STEP
  | FAB_CTRL
  | FAB_STAT
  | FAB_PEER_OFS
  | FAB_PEER_DLY
  | FAB_ASYM
  | MST_DET_CTRL
  | MST_DET_ANCHOR
  | MST_DET_STAT
  | MST_TDC_TOTAL
  | MST_TDC_FIRST
  | MST_TDC_FIRST_SRC
  | MST_TDC_CNT
  | MST_PLAN_DIGEST
  | MST_DIG_STAT
  | MST_READY
  | MST_READY_STACK
  | MST_BOOT_STAT
  | MST_BOOT_CTRL
  | MST_SEC_FUSE
  | MST_FUSE_PROG
  | MST_RST_REQ
  | MST_RST_STAT
  | MST_RST_CAUSE
  | MST_HELM
  | MST_PROT_GEN
  | MST_PROT_DRAINED
  | MST_PROT_STAT
  | MST_LOCK
  | MST_QMAP
  | MST_PROT_APER
  | HST_PORT_STAT
  | HST_PORT_ERR
  | HST_APER_BASE
  | HST_IND_ADDR
  | HST_IND_DATA
  | HST_IND_CTRL
  | HST_IND_STAT
  | HST_CR_CFG
  | HST_CR_CTRL
  | HST_CR_STAT
  | HST_CR_COUNT
  | HST_CR_DB
  | HST_RR_BASE
  | HST_RR_CFG
  | HST_RR_CTRL
  | HST_RR_STAT
  | HST_RR_COUNT
  | HST_RR_DISCARD
  | LNE_CTRL
  | LNE_STAT
  | LNE_LAT
  | LNE_TXEQ
  | LNE_RXEQ
  | LNE_EYE_CTRL
  | LNE_EYE
  | LNE_FEC_CW
  | LNE_FEC_CORR
  | LNE_FEC_UCW
  | LNE_UCW_LIMIT
  | LNE_CTRL_RSVD
  | LNE_FEC_HIST
  | LNE_CAPS_PEER
  | LNE_SPARE
  | PRT_PORT_CFG
  | PRT_PORT_STAT
  | PRT_PORT_LIVE
  | PRT_PORT_REEF
  | PRT_LNK_CFG
  | PRT_LNK_STAT
  | PRT_LNK_CR0
  | PRT_LNK_CR1
  | PRT_LNK_ERR
  | PRT_LNK_REPLAY
  | PRT_LNK_NAK_TX
  | PRT_LNK_BAD
  | PRT_LNK_DUP
  | PRT_LNK_ABORT_RX
  | PRT_LNK_ABORT_TX
  | PRT_LNK_MALFORMED
  | PRT_LNK_LOST
  | PRT_LNK_TIMEX_LOST
  | YRD_POOL_CFG
  | YRD_POOL_RSV
  | YRD_POOL_FREE_S
  | YRD_POOL_FREE_L
  | YRD_POOL_STAT
  | YRD_FALLBACK_CNT
  | YRD_STALL_CNT
  | YRD_AUDIT_CTRL
  | YRD_AUDIT_SEL
  | YRD_AUDIT_CNT
  | YRD_AUDIT_PASS
  | YRD_AUDIT_LEAK
  | YRD_AUDIT_FIRST
  | YRD_ORPHAN_FREED
  | PRT_SPRAY
  | PRT_CUT_CFG
  | PRT_RSQ_CFG
  | PRT_RSQ_STAT
  | PRT_RSQ_LOST
  | PRT_RSQ_DROP
  | PRT_DESC_FREE
  | PRT_SW_CUT
  | PRT_SW_STORE
  | PRT_FLUSH_PKTS
  | PRT_FLUSH_CELLS
  | PRT_FLUSH_STAT
  | PRT_DOWN_DROP
  | MST_FABADDR
  | MST_MC_STAT
  | MST_MC_CTL
  | MST_MC_LOCAL
  | MST_MC_PEER
  | PRT_RT_PORT
  | PRT_RT_LOCAL
  | PRT_RT_NOROUTE
  | PRT_RT_DETOUR
  | PRT_RT_TRANSIT
  | PRT_RT_MISROUTE
  | PRT_FL_CTL
  | PRT_FL_PORTS
  | PRT_FL_SEL_LO
  | PRT_FL_SEL_HI
  | PRT_PKEY
  | PRT_PKEY_STAT
  | PRT_PKEY_DROP
  | PRT_PKEY_REFUSE
  | PRT_CM_THRESH
  | PRT_CM_MARKED
  | PRT_RC_PROF
  | PRT_RC_PROF2
  | PRT_FLOW_RATE
  | PRT_CMAP_CTRL
  | PRT_CMAP_STAT
  | PRT_CMAP_AT
  | PRT_CMAP_TAKEN
  | PRT_CMAP
  | PRT_SCH_CFG
  | PRT_SCH_TCQ
  | PRT_SCH_STAT
  | PRT_GATE_AT
  | PRT_GATE_LEN
  | PRT_POL_CFG
  | PRT_SCH_AGE
  | PRT_SCH_AGED
  | PRT_POL_REMARK
  | PRT_GATE_TAKE
  | PRT_SCH_WQ
  | PRT_SHP_Q
  | PRT_SHP_QTOK
  | PRT_SHP_C
  | PRT_SHP_CTOK
  | PRT_POL
  | PRT_GATE
  | MST_MH_STAT
  | YRD_COLL_OVF
  | YRD_COLL_STAT
  | YRD_COLL_OPEN
  | YRD_COLL_STG_FREE
  | YRD_COLL_PROM_FREE
  | YRD_COLL_PROM_RESUME
  | YRD_COLL_STRAY
  | YRD_COLL_SEAL_FAIL
  | YRD_COLL_TIMEOUT
  | YRD_COLL_OVF_CNT
  | YRD_CPS_MAP
  | CPS_STAT
  | CPS_CHUNKS
  | CPS_PROMOTED
  | CPS_ST_RUNS
  | CPS_ST_CTRL
  | CPS_LATE
  | SAL_CLEAT
  | SAL_CLEAT_STATUS
  | SAL_BANK_PWR
  | SAL_BANK_WAKES
  | SAL_OWNER_DROP
  | BSE_CLEAT
  | BSE_CLEAT_STATUS
  | BSE_BANK_PWR
  | BSE_BANK_WAKES
  | BSE_OWNER_DROP
  | MST_OWNER_MAP
  | BSE_STK_CTRL
  | BSE_STK_STAT
  | BSE_STK_CA_RETRY
  | BSE_STK_SR_EXITS
  | BSE_STK_RD_BYTES
  | BSE_STK_WR_BYTES
  | BSE_CLEAT_ECC
  | TCK_STAT
  | TCK_ERR
  | TCK_ERR_FIRST
  | TCK_ERR_INDEX
  | TCK_IRQ_EN
  | TCK_DONE
  | TCK_QCFG
  | TCK_QCTL
  | TCK_ARITH
  | TCK_QIDX
  | SEQ_CTR
  | SEQ_STAT
  | SEQ_STREAMS
  | MST_FLOW_TMPL
  | MST_FLOW_TMPL1
  | MST_FLOW_TMPL2
  | SAL_CORE_OK
  | SAL_VEC_OK
  | SAL_MERGE_CNT
  | SAL_CORE_BUSY
  | SAL_VEC_BUSY
  | BSE_VEC_OK
  | BSE_ATTN_CNT
  | BSE_ATTN_WAIT
  | BSE_VEC_BUSY
  | FLT_STAT
  | FLT_IRQ_EN
  | FLT_FATAL_EN
  | FLT_MERGED
  | FLT_COR_CNT
  | XING_DISCARD
  | MST_FAULT_STAT
  | MST_FAULT_HOLD
  | MST_FAULT_TIME
  | MST_MGMT_CMD
  | MST_MGMT_STAT
  | OPM_CTRL
  | OPM_STAT
  | OPM_BUS_CFG
  | OPM_LIFE_CFG
  | OPM_LIFE_DEF
  | OPM_ALLOW
  | OPM_ALLOW2
  | OPM_SLOT_STAT
  | OPM_SLOT_CFG
  | OPM_SLOT_MIN
  | OPM_SLOT_ID
  | OPM_PASS_CTRL
  | OPM_PASS_DATA
  | TRC_Q
  | TRC_STAT
  | TRC_RECS
  | TRC_STALL
  | TRC_DISCARD
  | PRT_DROP_CFG
  | PRT_DROP_CNT
  | MST_TEL_CFG
  | MST_TEL_STAT
  | MST_TEL_SKIPPED
  | MST_TEL_ADDR
  | MST_SNAP_CTRL
  | MST_SNAP_AT
  | MST_SNAP_STAT
  | MST_SNAP_MISSED
  | MST_SNAP_TIME
  | SNS_TEMP
  | SNS_REM
  | SNS_REM_CFG
  | SNS_REM_RES
  | SNS_STAT
  | SNS_LIMITS
  | SNS_SAIL_THR
  | SNS_TRIP_SRC
  | PWR_RAIL_STAT
  | PWR_VSAIL
  | PWR_SAIL_CTRL
  | PWR_SAIL_STAT
  | PWR_SAIL_THR_CNT
  | PWR_SAIL_RATIO_CNT
  | MST_COLL_DESC
  | MST_DESC
  | MST_RECOVERY
  deriving DecidableEq, Repr

/-- The Type column of a register table (R7). -/
inductive FType where
  | ro | rw | wo | w1c | w1s | rwl
  deriving DecidableEq, Repr

/-- Who may write a register beyond R7's types (R118 and the chapters' own words): `gen` is the rule of R118 for
every host PF; `helm` the helm host's PF and PLAN; `helmOnly` the helm host's PF alone; `port` the port page's own
PF; `fn` the function page's own function or its port's PF; `qcfg`, `ret` and `recovery` as R397, R359 and R101 say. -/
inductive Writer where
  | gen | helm | helmOnly | port | fn | qcfg | ret | recovery
  deriving DecidableEq, Repr

/-- The block a register lies in: the Mast, a yard, a port die, a sail, a base die, the same offset in every die
(indexed by die number 0–24), or a tackle's face (indexed by tackle id). -/
inductive RegBlock where
  | mast | yard | port | sail | base | anyDie | face
  deriving DecidableEq, Repr

/-- One field of a register table: its register, lowest bit, width, type and the table's Reset column
(`Field.reset` gives the value where that column depends on an index). -/
structure Field where
  reg : RegName
  lo  : Nat
  w   : Nat
  ty  : FType
  rst : Nat
  deriving DecidableEq, Repr

/-- The home of one field's value: register, lowest bit, and the register's indices (die index first). -/
structure RegKey where
  reg : RegName
  lo  : Nat
  idx : List Nat
  deriving DecidableEq, Repr

/-- Where a register lies: its block, offset in the block, index dimensions (count, stride, first index), width in
bits and who may write it. -/
structure RegDesc where
  reg    : RegName
  blk    : RegBlock
  base   : Nat
  dims   : List (Nat × Nat × Nat)
  width  : Nat
  writer : Writer
  deriving DecidableEq, Repr

end Sys2Proof.Machine
end

