-- ==== Sys2Proof/Machine/RegMap.lean ====
section
/-!
DEFINITION. The register tables of the spec as data: one constant per field (bits, type, reset value), the fields of
each register, and where each register lies. Written from the tables of R32 to R532; each constant's register names
its table.
-/
namespace Sys2Proof.Machine.F

/-! R32 -/
def MST_IDENT_PART : Field := ⟨.MST_IDENT, 16, 16, .ro, 9472⟩
def MST_IDENT_STEPPING : Field := ⟨.MST_IDENT, 8, 8, .ro, 176⟩
def MST_IDENT_MAKER : Field := ⟨.MST_IDENT, 0, 8, .ro, 84⟩
def MST_UNITS_YARD_OK : Field := ⟨.MST_UNITS, 0, 4, .ro, 15⟩
def MST_UNITS_SAIL_OK : Field := ⟨.MST_UNITS, 4, 4, .ro, 15⟩
def MST_UNITS_PORT_OK : Field := ⟨.MST_UNITS, 8, 8, .ro, 255⟩
def MST_UNITS_BASE_OK : Field := ⟨.MST_UNITS, 16, 8, .ro, 255⟩
/-! R68 -/
def MST_CLK_STAT_REF_PRESENT : Field := ⟨.MST_CLK_STAT, 0, 1, .ro, 0⟩
def MST_CLK_STAT_REF_LOST : Field := ⟨.MST_CLK_STAT, 1, 1, .w1c, 0⟩
def MST_CLK_STAT_FRAME_SLIP : Field := ⟨.MST_CLK_STAT, 2, 1, .w1c, 0⟩
def MST_CLK_STAT_AO_BACKUP : Field := ⟨.MST_CLK_STAT, 3, 1, .ro, 0⟩
def MST_CLK_STAT_HOLD_LONG : Field := ⟨.MST_CLK_STAT, 4, 1, .w1c, 0⟩
def MST_CLK_STAT_SLIP_DIE : Field := ⟨.MST_CLK_STAT, 8, 5, .ro, 0⟩
/-! R69 -/
def MST_PLL_LOCK_MAST : Field := ⟨.MST_PLL_LOCK, 0, 1, .ro, 0⟩
def MST_PLL_LOCK_YARD : Field := ⟨.MST_PLL_LOCK, 1, 4, .ro, 0⟩
def MST_PLL_LOCK_PORT : Field := ⟨.MST_PLL_LOCK, 5, 8, .ro, 0⟩
def MST_PLL_LOCK_SAIL : Field := ⟨.MST_PLL_LOCK, 13, 4, .ro, 0⟩
def MST_PLL_LOCK_BASE : Field := ⟨.MST_PLL_LOCK, 17, 8, .ro, 0⟩
/-! R70 -/
def MST_HOIST_STAT_DONE : Field := ⟨.MST_HOIST_STAT, 0, 1, .ro, 0⟩
def MST_HOIST_STAT_FAIL : Field := ⟨.MST_HOIST_STAT, 1, 3, .ro, 0⟩
def MST_HOIST_STAT_FAIL_DIE : Field := ⟨.MST_HOIST_STAT, 8, 5, .ro, 0⟩
def MST_HOIST_STAT_FREE_XING : Field := ⟨.MST_HOIST_STAT, 16, 16, .ro, 0⟩
/-! R71 -/
def MST_CLKON_ON : Field := ⟨.MST_CLKON, 0, 32, .ro, 0⟩
def MST_CLK_HOLD_HOLD : Field := ⟨.MST_CLK_HOLD, 0, 32, .rw, 0⟩
/-! R72 -/
def FAB_TIME_TIME : Field := ⟨.FAB_TIME, 0, 64, .ro, 0⟩
def FAB_STEP_STEP : Field := ⟨.FAB_STEP, 0, 64, .wo, 0⟩
def FAB_CTRL_ROOT : Field := ⟨.FAB_CTRL, 0, 1, .rwl, 0⟩
def FAB_CTRL_PARENT_VALID : Field := ⟨.FAB_CTRL, 1, 1, .rwl, 0⟩
def FAB_CTRL_AUTO_STEP : Field := ⟨.FAB_CTRL, 2, 1, .rwl, 1⟩
def FAB_CTRL_PARENT_DIE : Field := ⟨.FAB_CTRL, 8, 3, .rwl, 0⟩
def FAB_CTRL_PARENT_ENG : Field := ⟨.FAB_CTRL, 11, 5, .rwl, 0⟩
def FAB_STAT_ALIGNED : Field := ⟨.FAB_STAT, 0, 1, .ro, 0⟩
def FAB_STAT_DRIFT : Field := ⟨.FAB_STAT, 1, 1, .w1c, 0⟩
def FAB_STAT_STEP_CNT : Field := ⟨.FAB_STAT, 16, 16, .ro, 0⟩
def FAB_PEER_OFS_OFS : Field := ⟨.FAB_PEER_OFS, 0, 64, .ro, 0⟩
def FAB_PEER_DLY_DLY : Field := ⟨.FAB_PEER_DLY, 0, 32, .ro, 0⟩
def FAB_ASYM_ASYM : Field := ⟨.FAB_ASYM, 0, 32, .rw, 0⟩
/-! R93 -/
def MST_DET_CTRL_ANCHOR_EN : Field := ⟨.MST_DET_CTRL, 0, 1, .rw, 0⟩
def MST_DET_CTRL_CLR : Field := ⟨.MST_DET_CTRL, 1, 1, .wo, 0⟩
def MST_DET_ANCHOR_ANCHOR : Field := ⟨.MST_DET_ANCHOR, 0, 64, .rw, 0⟩
def MST_DET_STAT_TDC_ANY : Field := ⟨.MST_DET_STAT, 0, 1, .ro, 0⟩
def MST_DET_STAT_ANCHOR_PASSED : Field := ⟨.MST_DET_STAT, 1, 1, .ro, 0⟩
def MST_DET_STAT_HELD_START : Field := ⟨.MST_DET_STAT, 2, 1, .ro, 0⟩
def MST_TDC_TOTAL_TOTAL : Field := ⟨.MST_TDC_TOTAL, 0, 64, .ro, 0⟩
def MST_TDC_FIRST_TIME : Field := ⟨.MST_TDC_FIRST, 0, 64, .ro, 0⟩
def MST_TDC_FIRST_SRC_CAUSE : Field := ⟨.MST_TDC_FIRST_SRC, 0, 4, .ro, 0⟩
def MST_TDC_FIRST_SRC_TACKLE : Field := ⟨.MST_TDC_FIRST_SRC, 16, 16, .ro, 0⟩
def MST_TDC_CNT_COUNT : Field := ⟨.MST_TDC_CNT, 0, 32, .ro, 0⟩
def MST_PLAN_DIGEST_DIGEST : Field := ⟨.MST_PLAN_DIGEST, 0, 32, .ro, 0⟩
def MST_DIG_STAT_OPEN_WIN : Field := ⟨.MST_DIG_STAT, 0, 5, .ro, 0⟩
def MST_DIG_STAT_BACKLOG : Field := ⟨.MST_DIG_STAT, 16, 13, .ro, 0⟩
/-! R114 -/
def MST_READY_MAST : Field := ⟨.MST_READY, 0, 1, .ro, 0⟩
def MST_READY_HOST : Field := ⟨.MST_READY, 1, 4, .ro, 0⟩
def MST_READY_YARD : Field := ⟨.MST_READY, 5, 4, .ro, 0⟩
def MST_READY_SAIL : Field := ⟨.MST_READY, 9, 4, .ro, 0⟩
def MST_READY_PORT : Field := ⟨.MST_READY, 13, 8, .ro, 0⟩
def MST_READY_BASE : Field := ⟨.MST_READY, 21, 8, .ro, 0⟩
def MST_READY_STACK_STACK : Field := ⟨.MST_READY_STACK, 0, 8, .ro, 0⟩
def MST_BOOT_STAT_RESULT : Field := ⟨.MST_BOOT_STAT, 0, 4, .ro, 0⟩
def MST_BOOT_STAT_FAIL_A : Field := ⟨.MST_BOOT_STAT, 4, 4, .ro, 0⟩
def MST_BOOT_STAT_FAIL_B : Field := ⟨.MST_BOOT_STAT, 8, 4, .ro, 0⟩
def MST_BOOT_STAT_FAIL_REC : Field := ⟨.MST_BOOT_STAT, 12, 4, .ro, 0⟩
def MST_BOOT_STAT_SEC_VER : Field := ⟨.MST_BOOT_STAT, 16, 8, .ro, 0⟩
def MST_BOOT_STAT_KEY_SLOT : Field := ⟨.MST_BOOT_STAT, 24, 2, .ro, 0⟩
def MST_BOOT_CTRL_GO : Field := ⟨.MST_BOOT_CTRL, 0, 1, .wo, 0⟩
def MST_SEC_FUSE_KEY_REVOKED : Field := ⟨.MST_SEC_FUSE, 0, 4, .ro, 0⟩
def MST_SEC_FUSE_SEC_VER_MIN : Field := ⟨.MST_SEC_FUSE, 4, 7, .ro, 0⟩
def MST_SEC_FUSE_DEBUG_CLOSED : Field := ⟨.MST_SEC_FUSE, 16, 1, .ro, 0⟩
def MST_SEC_FUSE_PROG_BUSY : Field := ⟨.MST_SEC_FUSE, 17, 1, .ro, 0⟩
def MST_SEC_FUSE_PROG_FAIL : Field := ⟨.MST_SEC_FUSE, 18, 1, .w1c, 0⟩
def MST_FUSE_PROG_OP : Field := ⟨.MST_FUSE_PROG, 0, 4, .wo, 0⟩
def MST_FUSE_PROG_ARG : Field := ⟨.MST_FUSE_PROG, 4, 8, .wo, 0⟩
def MST_FUSE_PROG_CONFIRM : Field := ⟨.MST_FUSE_PROG, 16, 16, .wo, 0⟩
def MST_RST_REQ_SCOPE : Field := ⟨.MST_RST_REQ, 0, 3, .wo, 0⟩
def MST_RST_REQ_FLUSH : Field := ⟨.MST_RST_REQ, 3, 1, .wo, 0⟩
def MST_RST_REQ_KEY : Field := ⟨.MST_RST_REQ, 8, 8, .wo, 0⟩
def MST_RST_REQ_TARGET : Field := ⟨.MST_RST_REQ, 16, 16, .wo, 0⟩
def MST_RST_STAT_BUSY : Field := ⟨.MST_RST_STAT, 0, 1, .ro, 0⟩
def MST_RST_STAT_REJECTED : Field := ⟨.MST_RST_STAT, 1, 1, .w1c, 0⟩
def MST_RST_STAT_REASON : Field := ⟨.MST_RST_STAT, 8, 8, .ro, 0⟩
def MST_RST_STAT_LAST_TARGET : Field := ⟨.MST_RST_STAT, 16, 16, .ro, 0⟩
def MST_RST_CAUSE_POWER_ON : Field := ⟨.MST_RST_CAUSE, 0, 1, .w1c, 1⟩
def MST_RST_CAUSE_PIN : Field := ⟨.MST_RST_CAUSE, 1, 1, .w1c, 0⟩
def MST_RST_CAUSE_SOFTWARE : Field := ⟨.MST_RST_CAUSE, 2, 1, .w1c, 0⟩
def MST_RST_CAUSE_BROWNOUT : Field := ⟨.MST_RST_CAUSE, 3, 1, .w1c, 0⟩
def MST_RST_CAUSE_THERMTRIP : Field := ⟨.MST_RST_CAUSE, 4, 1, .w1c, 0⟩
def MST_RST_CAUSE_COUNT : Field := ⟨.MST_RST_CAUSE, 16, 16, .ro, 0⟩
/-! R139 -/
def MST_HELM_HELM : Field := ⟨.MST_HELM, 0, 2, .ro, 0⟩
def MST_PROT_GEN_GEN : Field := ⟨.MST_PROT_GEN, 0, 32, .ro, 0⟩
def MST_PROT_DRAINED_DRAINED : Field := ⟨.MST_PROT_DRAINED, 0, 32, .ro, 0⟩
def MST_PROT_STAT_PENDING : Field := ⟨.MST_PROT_STAT, 0, 5, .ro, 0⟩
def MST_LOCK_LOCK : Field := ⟨.MST_LOCK, 0, 5, .w1s, 0⟩
def MST_QMAP_Q0 : Field := ⟨.MST_QMAP, 0, 3, .rw, 0⟩
def MST_QMAP_Q1 : Field := ⟨.MST_QMAP, 4, 3, .rw, 1⟩
def MST_QMAP_Q2 : Field := ⟨.MST_QMAP, 8, 3, .rw, 2⟩
def MST_QMAP_Q3 : Field := ⟨.MST_QMAP, 12, 3, .rw, 3⟩
def MST_PROT_APER_LO_GIB : Field := ⟨.MST_PROT_APER, 0, 9, .rw, 0⟩
def MST_PROT_APER_HI_GIB : Field := ⟨.MST_PROT_APER, 16, 9, .rw, 0⟩
def MST_PROT_APER_EN : Field := ⟨.MST_PROT_APER, 31, 1, .rw, 0⟩
/-! R140 -/
def HST_PORT_STAT_LINK_UP : Field := ⟨.HST_PORT_STAT, 0, 1, .ro, 0⟩
def HST_PORT_STAT_RATE : Field := ⟨.HST_PORT_STAT, 1, 3, .ro, 0⟩
def HST_PORT_STAT_WIDTH : Field := ⟨.HST_PORT_STAT, 4, 4, .ro, 0⟩
def HST_PORT_STAT_FLIT : Field := ⟨.HST_PORT_STAT, 8, 1, .ro, 0⟩
def HST_PORT_STAT_HELM : Field := ⟨.HST_PORT_STAT, 9, 1, .ro, 0⟩
def HST_PORT_STAT_NUM_VF : Field := ⟨.HST_PORT_STAT, 16, 5, .ro, 0⟩
def HST_PORT_ERR_ACCESS_ERR : Field := ⟨.HST_PORT_ERR, 0, 1, .w1c, 0⟩
def HST_PORT_ERR_REJECTED_WR : Field := ⟨.HST_PORT_ERR, 1, 1, .w1c, 0⟩
def HST_PORT_ERR_OWNER_ERR : Field := ⟨.HST_PORT_ERR, 2, 1, .w1c, 0⟩
def HST_PORT_ERR_RING_CHECK : Field := ⟨.HST_PORT_ERR, 3, 1, .w1c, 0⟩
def HST_PORT_ERR_IND_ABORT : Field := ⟨.HST_PORT_ERR, 4, 1, .w1c, 0⟩
def HST_APER_BASE_BASE : Field := ⟨.HST_APER_BASE, 36, 12, .rw, 0⟩
def HST_IND_ADDR_ADDR : Field := ⟨.HST_IND_ADDR, 0, 48, .rw, 0⟩
def HST_IND_DATA_DATA : Field := ⟨.HST_IND_DATA, 0, 64, .rw, 0⟩
def HST_IND_CTRL_GO : Field := ⟨.HST_IND_CTRL, 0, 1, .wo, 0⟩
def HST_IND_CTRL_WRITE : Field := ⟨.HST_IND_CTRL, 1, 1, .wo, 0⟩
def HST_IND_CTRL_SIZE64 : Field := ⟨.HST_IND_CTRL, 2, 1, .wo, 0⟩
def HST_IND_CTRL_ABORT : Field := ⟨.HST_IND_CTRL, 3, 1, .wo, 0⟩
def HST_IND_STAT_BUSY : Field := ⟨.HST_IND_STAT, 0, 1, .ro, 0⟩
def HST_IND_STAT_STATUS : Field := ⟨.HST_IND_STAT, 8, 8, .ro, 0⟩
/-! R141 -/
def HST_CR_CFG_SIZE_LOG2 : Field := ⟨.HST_CR_CFG, 0, 4, .rw, 0⟩
def HST_CR_CFG_IRQ_EN : Field := ⟨.HST_CR_CFG, 4, 1, .rw, 0⟩
def HST_CR_CFG_VECTOR : Field := ⟨.HST_CR_CFG, 8, 6, .rw, 0⟩
def HST_CR_CFG_TACKLE : Field := ⟨.HST_CR_CFG, 16, 16, .rw, 0⟩
def HST_CR_CTRL_ARM : Field := ⟨.HST_CR_CTRL, 0, 1, .wo, 0⟩
def HST_CR_CTRL_DISARM : Field := ⟨.HST_CR_CTRL, 1, 1, .wo, 0⟩
def HST_CR_STAT_STATE : Field := ⟨.HST_CR_STAT, 0, 2, .ro, 0⟩
def HST_CR_STAT_DB_RANGE : Field := ⟨.HST_CR_STAT, 2, 1, .w1c, 0⟩
def HST_CR_STAT_CHECK : Field := ⟨.HST_CR_STAT, 3, 1, .w1c, 0⟩
def HST_CR_STAT_STATUS : Field := ⟨.HST_CR_STAT, 8, 8, .ro, 0⟩
def HST_CR_STAT_QUEUE : Field := ⟨.HST_CR_STAT, 16, 2, .ro, 0⟩
def HST_CR_COUNT_CONSUMED : Field := ⟨.HST_CR_COUNT, 0, 32, .ro, 0⟩
def HST_CR_COUNT_PRODUCED : Field := ⟨.HST_CR_COUNT, 32, 32, .ro, 0⟩
def HST_CR_DB_PRODUCER : Field := ⟨.HST_CR_DB, 0, 32, .wo, 0⟩
def HST_RR_BASE_BASE : Field := ⟨.HST_RR_BASE, 0, 64, .rw, 0⟩
def HST_RR_CFG_SIZE_LOG2 : Field := ⟨.HST_RR_CFG, 0, 5, .rw, 0⟩
def HST_RR_CTRL_ARM : Field := ⟨.HST_RR_CTRL, 0, 1, .wo, 0⟩
def HST_RR_CTRL_DISARM : Field := ⟨.HST_RR_CTRL, 1, 1, .wo, 0⟩
def HST_RR_STAT_STATE : Field := ⟨.HST_RR_STAT, 0, 2, .ro, 0⟩
def HST_RR_STAT_CHECK : Field := ⟨.HST_RR_STAT, 2, 1, .w1c, 0⟩
def HST_RR_STAT_STATUS : Field := ⟨.HST_RR_STAT, 8, 8, .ro, 0⟩
def HST_RR_COUNT_PRODUCED : Field := ⟨.HST_RR_COUNT, 0, 32, .ro, 0⟩
def HST_RR_COUNT_RELEASED : Field := ⟨.HST_RR_COUNT, 32, 32, .rw, 0⟩
def HST_RR_DISCARD_COUNT : Field := ⟨.HST_RR_DISCARD, 0, 32, .ro, 0⟩
/-! R169 -/
def LNE_CTRL_EN : Field := ⟨.LNE_CTRL, 0, 1, .rwl, 1⟩
def LNE_CTRL_AUTO_ALIGN : Field := ⟨.LNE_CTRL, 1, 1, .rwl, 1⟩
def LNE_CTRL_AUTO_EQ : Field := ⟨.LNE_CTRL, 2, 1, .rwl, 1⟩
def LNE_CTRL_PRECODE_ALLOW : Field := ⟨.LNE_CTRL, 3, 1, .rwl, 1⟩
def LNE_CTRL_RETRAIN : Field := ⟨.LNE_CTRL, 4, 1, .wo, 0⟩
def LNE_CTRL_SELFTEST : Field := ⟨.LNE_CTRL, 5, 1, .wo, 0⟩
def LNE_CTRL_BITSLIP : Field := ⟨.LNE_CTRL, 8, 8, .wo, 0⟩
def LNE_STAT_STATE : Field := ⟨.LNE_STAT, 0, 4, .ro, 0⟩
def LNE_STAT_MISMATCH : Field := ⟨.LNE_STAT, 4, 4, .ro, 0⟩
def LNE_STAT_SYNC_OK : Field := ⟨.LNE_STAT, 8, 1, .ro, 0⟩
def LNE_STAT_PRECODE : Field := ⟨.LNE_STAT, 9, 1, .ro, 0⟩
def LNE_STAT_FAULT_CIRCUIT : Field := ⟨.LNE_STAT, 10, 1, .w1c, 0⟩
def LNE_STAT_FAULT_CHANNEL : Field := ⟨.LNE_STAT, 11, 1, .w1c, 0⟩
def LNE_STAT_REF_DRIFT : Field := ⟨.LNE_STAT, 12, 1, .w1c, 0⟩
def LNE_STAT_TRAIN_FAIL : Field := ⟨.LNE_STAT, 13, 1, .w1c, 0⟩
def LNE_STAT_EQ_REJECT : Field := ⟨.LNE_STAT, 14, 1, .w1c, 0⟩
def LNE_STAT_POSITION : Field := ⟨.LNE_STAT, 16, 8, .ro, 255⟩
def LNE_STAT_LOGICAL : Field := ⟨.LNE_STAT, 24, 4, .ro, 0⟩
def LNE_LAT_LATENCY : Field := ⟨.LNE_LAT, 0, 16, .ro, 0⟩
def LNE_LAT_SKEW : Field := ⟨.LNE_LAT, 16, 8, .ro, 0⟩
def LNE_LAT_PHASE : Field := ⟨.LNE_LAT, 24, 8, .ro, 0⟩
def LNE_TXEQ_C_M3 : Field := ⟨.LNE_TXEQ, 0, 6, .rwl, 0⟩
def LNE_TXEQ_C_M2 : Field := ⟨.LNE_TXEQ, 6, 6, .rwl, 0⟩
def LNE_TXEQ_C_M1 : Field := ⟨.LNE_TXEQ, 12, 6, .rwl, 56⟩
def LNE_TXEQ_C_0 : Field := ⟨.LNE_TXEQ, 18, 6, .rwl, 48⟩
def LNE_TXEQ_C_P1 : Field := ⟨.LNE_TXEQ, 24, 6, .rwl, 60⟩
def LNE_RXEQ_CTLE : Field := ⟨.LNE_RXEQ, 0, 5, .rwl, 12⟩
def LNE_RXEQ_GAIN : Field := ⟨.LNE_RXEQ, 8, 5, .rwl, 16⟩
def LNE_RXEQ_FREEZE : Field := ⟨.LNE_RXEQ, 16, 1, .rwl, 0⟩
def LNE_EYE_CTRL_START : Field := ⟨.LNE_EYE_CTRL, 0, 1, .wo, 0⟩
def LNE_EYE_CTRL_BUSY : Field := ⟨.LNE_EYE_CTRL, 1, 1, .ro, 0⟩
def LNE_EYE_CTRL_EYE : Field := ⟨.LNE_EYE_CTRL, 2, 2, .rw, 1⟩
def LNE_EYE_HEIGHT : Field := ⟨.LNE_EYE, 0, 8, .ro, 0⟩
def LNE_EYE_WIDTH : Field := ⟨.LNE_EYE, 8, 8, .ro, 0⟩
def LNE_EYE_SNR : Field := ⟨.LNE_EYE, 16, 8, .ro, 0⟩
def LNE_FEC_CW_COUNT : Field := ⟨.LNE_FEC_CW, 0, 64, .ro, 0⟩
def LNE_FEC_CORR_COUNT : Field := ⟨.LNE_FEC_CORR, 0, 64, .ro, 0⟩
def LNE_FEC_UCW_COUNT : Field := ⟨.LNE_FEC_UCW, 0, 32, .ro, 0⟩
def LNE_UCW_LIMIT_LIMIT : Field := ⟨.LNE_UCW_LIMIT, 0, 16, .rwl, 16⟩
def LNE_CTRL_RSVD_COUNT : Field := ⟨.LNE_CTRL_RSVD, 0, 32, .ro, 0⟩
def LNE_FEC_HIST_COUNT : Field := ⟨.LNE_FEC_HIST, 0, 32, .ro, 0⟩
def LNE_CAPS_PEER_BYTES : Field := ⟨.LNE_CAPS_PEER, 0, 32, .ro, 0⟩
/-! R170 -/
def LNE_SPARE_POS : Field := ⟨.LNE_SPARE, 0, 7, .ro, 0⟩
def LNE_SPARE_IN_USE : Field := ⟨.LNE_SPARE, 31, 1, .ro, 0⟩
/-! R171 -/
def PRT_PORT_CFG_BASE_POS : Field := ⟨.PRT_PORT_CFG, 0, 7, .rw, 0⟩
def PRT_PORT_CFG_WIDTH_LOG2 : Field := ⟨.PRT_PORT_CFG, 7, 3, .rw, 0⟩
def PRT_PORT_CFG_MODE : Field := ⟨.PRT_PORT_CFG, 10, 2, .rw, 0⟩
def PRT_PORT_CFG_MIN_LIVE : Field := ⟨.PRT_PORT_CFG, 12, 5, .rw, 1⟩
def PRT_PORT_CFG_EN : Field := ⟨.PRT_PORT_CFG, 17, 1, .rw, 0⟩
def PRT_PORT_CFG_REEF_EN : Field := ⟨.PRT_PORT_CFG, 18, 1, .rw, 0⟩
def PRT_PORT_CFG_RETRY_S : Field := ⟨.PRT_PORT_CFG, 20, 8, .rw, 1⟩
def PRT_PORT_STAT_UP : Field := ⟨.PRT_PORT_STAT, 0, 1, .ro, 0⟩
def PRT_PORT_STAT_REEFED : Field := ⟨.PRT_PORT_STAT, 1, 1, .ro, 0⟩
def PRT_PORT_STAT_NARROWED : Field := ⟨.PRT_PORT_STAT, 2, 1, .w1c, 0⟩
def PRT_PORT_STAT_CHANGE_PENDING : Field := ⟨.PRT_PORT_STAT, 3, 1, .ro, 0⟩
def PRT_PORT_STAT_CFG_REJECT : Field := ⟨.PRT_PORT_STAT, 4, 1, .w1c, 0⟩
def PRT_PORT_STAT_LIVE_TX : Field := ⟨.PRT_PORT_STAT, 5, 5, .ro, 0⟩
def PRT_PORT_STAT_LIVE_RX : Field := ⟨.PRT_PORT_STAT, 10, 5, .ro, 0⟩
def PRT_PORT_LIVE_TX_MASK : Field := ⟨.PRT_PORT_LIVE, 0, 16, .ro, 0⟩
def PRT_PORT_LIVE_RX_MASK : Field := ⟨.PRT_PORT_LIVE, 16, 16, .ro, 0⟩
def PRT_PORT_REEF_IDLE : Field := ⟨.PRT_PORT_REEF, 0, 16, .rw, 256⟩
def PRT_PORT_REEF_GUARD : Field := ⟨.PRT_PORT_REEF, 16, 16, .rw, 40⟩
/-! R199 -/
def PRT_LNK_CFG_REPLAY_LIMIT : Field := ⟨.PRT_LNK_CFG, 0, 4, .rw, 8⟩
def PRT_LNK_CFG_ACK_TIMEOUT : Field := ⟨.PRT_LNK_CFG, 8, 8, .rw, 20⟩
def PRT_LNK_STAT_TX_NEXT : Field := ⟨.PRT_LNK_STAT, 0, 16, .ro, 0⟩
def PRT_LNK_STAT_RX_EXPECT : Field := ⟨.PRT_LNK_STAT, 16, 16, .ro, 0⟩
def PRT_LNK_CR0_REQ : Field := ⟨.PRT_LNK_CR0, 0, 16, .ro, 0⟩
def PRT_LNK_CR0_RSP : Field := ⟨.PRT_LNK_CR0, 16, 16, .ro, 0⟩
def PRT_LNK_CR1_COL : Field := ⟨.PRT_LNK_CR1, 0, 16, .ro, 0⟩
def PRT_LNK_CR1_ESC : Field := ⟨.PRT_LNK_CR1, 16, 16, .ro, 0⟩
def PRT_LNK_ERR_REPLAY_LIMIT : Field := ⟨.PRT_LNK_ERR, 0, 1, .w1c, 0⟩
def PRT_LNK_ERR_CREDIT_ERR : Field := ⟨.PRT_LNK_ERR, 1, 1, .w1c, 0⟩
def PRT_LNK_ERR_MALFORMED : Field := ⟨.PRT_LNK_ERR, 2, 1, .w1c, 0⟩
def PRT_LNK_REPLAY_COUNT : Field := ⟨.PRT_LNK_REPLAY, 0, 32, .ro, 0⟩
def PRT_LNK_NAK_TX_COUNT : Field := ⟨.PRT_LNK_NAK_TX, 0, 32, .ro, 0⟩
def PRT_LNK_BAD_COUNT : Field := ⟨.PRT_LNK_BAD, 0, 32, .ro, 0⟩
def PRT_LNK_DUP_COUNT : Field := ⟨.PRT_LNK_DUP, 0, 32, .ro, 0⟩
def PRT_LNK_ABORT_RX_COUNT : Field := ⟨.PRT_LNK_ABORT_RX, 0, 32, .ro, 0⟩
def PRT_LNK_ABORT_TX_COUNT : Field := ⟨.PRT_LNK_ABORT_TX, 0, 32, .ro, 0⟩
def PRT_LNK_MALFORMED_COUNT : Field := ⟨.PRT_LNK_MALFORMED, 0, 32, .ro, 0⟩
def PRT_LNK_LOST_COUNT : Field := ⟨.PRT_LNK_LOST, 0, 32, .ro, 0⟩
def PRT_LNK_TIMEX_LOST_COUNT : Field := ⟨.PRT_LNK_TIMEX_LOST, 0, 32, .ro, 0⟩
/-! R225 -/
def YRD_POOL_CFG_LARGE_MIB : Field := ⟨.YRD_POOL_CFG, 0, 6, .rw, 8⟩
def YRD_POOL_RSV_RSP : Field := ⟨.YRD_POOL_RSV, 0, 8, .rw, 16⟩
def YRD_POOL_RSV_COL : Field := ⟨.YRD_POOL_RSV, 8, 8, .rw, 16⟩
def YRD_POOL_RSV_ESC : Field := ⟨.YRD_POOL_RSV, 16, 8, .rw, 8⟩
def YRD_POOL_RSV_TC0 : Field := ⟨.YRD_POOL_RSV, 24, 8, .rw, 8⟩
def YRD_POOL_FREE_S_FREE : Field := ⟨.YRD_POOL_FREE_S, 0, 20, .ro, 327680⟩
def YRD_POOL_FREE_L_FREE : Field := ⟨.YRD_POOL_FREE_L, 0, 16, .ro, 8192⟩
def YRD_POOL_STAT_FALLBACK : Field := ⟨.YRD_POOL_STAT, 0, 1, .w1c, 0⟩
def YRD_POOL_STAT_EXHAUST : Field := ⟨.YRD_POOL_STAT, 1, 1, .w1c, 0⟩
def YRD_POOL_STAT_FREE_ERR : Field := ⟨.YRD_POOL_STAT, 2, 1, .w1c, 0⟩
def YRD_POOL_STAT_PTR_CHECK : Field := ⟨.YRD_POOL_STAT, 3, 1, .w1c, 0⟩
def YRD_POOL_STAT_LEAK : Field := ⟨.YRD_POOL_STAT, 4, 1, .w1c, 0⟩
def YRD_POOL_STAT_CFG_REJECT : Field := ⟨.YRD_POOL_STAT, 5, 1, .w1c, 0⟩
def YRD_FALLBACK_CNT_COUNT : Field := ⟨.YRD_FALLBACK_CNT, 0, 32, .ro, 0⟩
def YRD_STALL_CNT_COUNT : Field := ⟨.YRD_STALL_CNT, 0, 32, .ro, 0⟩
def YRD_AUDIT_CTRL_AGE_LIMIT : Field := ⟨.YRD_AUDIT_CTRL, 0, 16, .rw, 1024⟩
def YRD_AUDIT_CTRL_ORPHAN_FREE : Field := ⟨.YRD_AUDIT_CTRL, 16, 1, .rw, 1⟩
def YRD_AUDIT_SEL_OWNER : Field := ⟨.YRD_AUDIT_SEL, 0, 13, .rw, 0⟩
def YRD_AUDIT_CNT_CELLS : Field := ⟨.YRD_AUDIT_CNT, 0, 20, .ro, 0⟩
def YRD_AUDIT_CNT_OLDEST : Field := ⟨.YRD_AUDIT_CNT, 32, 16, .ro, 0⟩
def YRD_AUDIT_PASS_COUNT : Field := ⟨.YRD_AUDIT_PASS, 0, 32, .ro, 0⟩
def YRD_AUDIT_LEAK_CELLS : Field := ⟨.YRD_AUDIT_LEAK, 0, 20, .ro, 0⟩
def YRD_AUDIT_FIRST_OWNER : Field := ⟨.YRD_AUDIT_FIRST, 0, 13, .ro, 8191⟩
def YRD_ORPHAN_FREED_COUNT : Field := ⟨.YRD_ORPHAN_FREED, 0, 32, .ro, 0⟩
/-! R226 -/
def PRT_SPRAY_OFS : Field := ⟨.PRT_SPRAY, 0, 2, .rw, 0⟩
def PRT_CUT_CFG_CUT_EN : Field := ⟨.PRT_CUT_CFG, 0, 1, .rw, 1⟩
def PRT_RSQ_CFG_TIMEOUT : Field := ⟨.PRT_RSQ_CFG, 0, 16, .rw, 20⟩
def PRT_RSQ_STAT_GAP_TIMEOUT : Field := ⟨.PRT_RSQ_STAT, 0, 1, .w1c, 0⟩
def PRT_RSQ_STAT_YARD_SKIP : Field := ⟨.PRT_RSQ_STAT, 1, 1, .w1c, 0⟩
def PRT_RSQ_LOST_COUNT : Field := ⟨.PRT_RSQ_LOST, 0, 32, .ro, 0⟩
def PRT_RSQ_DROP_COUNT : Field := ⟨.PRT_RSQ_DROP, 0, 32, .ro, 0⟩
def PRT_DESC_FREE_FREE : Field := ⟨.PRT_DESC_FREE, 0, 17, .ro, 65536⟩
def PRT_SW_CUT_COUNT : Field := ⟨.PRT_SW_CUT, 0, 32, .ro, 0⟩
def PRT_SW_STORE_COUNT : Field := ⟨.PRT_SW_STORE, 0, 32, .ro, 0⟩
def PRT_FLUSH_PKTS_COUNT : Field := ⟨.PRT_FLUSH_PKTS, 0, 32, .ro, 0⟩
def PRT_FLUSH_CELLS_COUNT : Field := ⟨.PRT_FLUSH_CELLS, 0, 32, .ro, 0⟩
def PRT_FLUSH_STAT_FLUSHING : Field := ⟨.PRT_FLUSH_STAT, 0, 1, .ro, 0⟩
def PRT_FLUSH_STAT_FLUSHED : Field := ⟨.PRT_FLUSH_STAT, 1, 1, .w1c, 0⟩
def PRT_DOWN_DROP_COUNT : Field := ⟨.PRT_DOWN_DROP, 0, 32, .ro, 0⟩
/-! R247 -/
def MST_FABADDR_HALL : Field := ⟨.MST_FABADDR, 14, 4, .rw, 0⟩
def MST_FABADDR_ROW : Field := ⟨.MST_FABADDR, 10, 4, .rw, 0⟩
def MST_FABADDR_RACK : Field := ⟨.MST_FABADDR, 6, 4, .rw, 0⟩
def MST_FABADDR_VALID : Field := ⟨.MST_FABADDR, 31, 1, .rw, 0⟩
def MST_MC_STAT_REJECT : Field := ⟨.MST_MC_STAT, 0, 1, .w1c, 0⟩
def MST_MC_STAT_REJ_GROUP : Field := ⟨.MST_MC_STAT, 16, 12, .ro, 0⟩
def MST_MC_CTL_DIM : Field := ⟨.MST_MC_CTL, 0, 2, .rw, 0⟩
def MST_MC_CTL_VALID : Field := ⟨.MST_MC_CTL, 31, 1, .rw, 0⟩
def MST_MC_LOCAL_LOCAL : Field := ⟨.MST_MC_LOCAL, 0, 32, .rw, 0⟩
def MST_MC_PEER_PEER : Field := ⟨.MST_MC_PEER, 0, 32, .rw, 0⟩
/-! R248 -/
def PRT_RT_PORT_DIM : Field := ⟨.PRT_RT_PORT, 0, 2, .rw, 0⟩
def PRT_RT_LOCAL_PORT : Field := ⟨.PRT_RT_LOCAL, 0, 8, .rw, 0⟩
def PRT_RT_LOCAL_VALID : Field := ⟨.PRT_RT_LOCAL, 31, 1, .rw, 1⟩
def PRT_RT_NOROUTE_COUNT : Field := ⟨.PRT_RT_NOROUTE, 0, 32, .ro, 0⟩
def PRT_RT_DETOUR_COUNT : Field := ⟨.PRT_RT_DETOUR, 0, 32, .ro, 0⟩
def PRT_RT_TRANSIT_COUNT : Field := ⟨.PRT_RT_TRANSIT, 0, 32, .ro, 0⟩
def PRT_RT_MISROUTE_COUNT : Field := ⟨.PRT_RT_MISROUTE, 0, 32, .ro, 0⟩
def PRT_FL_CTL_EN : Field := ⟨.PRT_FL_CTL, 0, 8, .rw, 0⟩
def PRT_FL_CTL_FORCE_DETOUR : Field := ⟨.PRT_FL_CTL, 8, 1, .rw, 0⟩
def PRT_FL_CTL_DT_COORD : Field := ⟨.PRT_FL_CTL, 16, 4, .rw, 0⟩
def PRT_FL_CTL_DT_VALID : Field := ⟨.PRT_FL_CTL, 20, 1, .rw, 0⟩
def PRT_FL_CTL_VALID : Field := ⟨.PRT_FL_CTL, 31, 1, .rw, 0⟩
def PRT_FL_PORTS_PORTS : Field := ⟨.PRT_FL_PORTS, 0, 32, .rw, 0⟩
def PRT_FL_SEL_LO_SEL : Field := ⟨.PRT_FL_SEL_LO, 0, 30, .rw, 0⟩
def PRT_FL_SEL_HI_SEL : Field := ⟨.PRT_FL_SEL_HI, 0, 18, .rw, 0⟩
/-! R249 -/
def PRT_PKEY_KEY : Field := ⟨.PRT_PKEY, 0, 16, .rw, 0⟩
def PRT_PKEY_LIMIT : Field := ⟨.PRT_PKEY, 16, 12, .rw, 0⟩
def PRT_PKEY_VALID : Field := ⟨.PRT_PKEY, 31, 1, .rw, 0⟩
def PRT_PKEY_STAT_MISMATCH : Field := ⟨.PRT_PKEY_STAT, 0, 1, .w1c, 0⟩
def PRT_PKEY_STAT_REFUSED : Field := ⟨.PRT_PKEY_STAT, 1, 1, .w1c, 0⟩
def PRT_PKEY_STAT_LAST_KEY : Field := ⟨.PRT_PKEY_STAT, 16, 16, .ro, 0⟩
def PRT_PKEY_DROP_COUNT : Field := ⟨.PRT_PKEY_DROP, 0, 32, .ro, 0⟩
def PRT_PKEY_REFUSE_COUNT : Field := ⟨.PRT_PKEY_REFUSE, 0, 32, .ro, 0⟩
/-! R250 -/
def PRT_CM_THRESH_THRESH : Field := ⟨.PRT_CM_THRESH, 0, 16, .rw, 512⟩
def PRT_CM_MARKED_COUNT : Field := ⟨.PRT_CM_MARKED, 0, 32, .ro, 0⟩
def PRT_RC_PROF_MIN : Field := ⟨.PRT_RC_PROF, 0, 16, .rw, 10⟩
def PRT_RC_PROF_MAX : Field := ⟨.PRT_RC_PROF, 16, 16, .rw, 32000⟩
def PRT_RC_PROF2_DEC_SHIFT : Field := ⟨.PRT_RC_PROF2, 0, 3, .rw, 2⟩
def PRT_RC_PROF2_INC_STEP : Field := ⟨.PRT_RC_PROF2, 8, 8, .rw, 50⟩
def PRT_RC_PROF2_PERIOD : Field := ⟨.PRT_RC_PROF2, 16, 8, .rw, 4⟩
def PRT_FLOW_RATE_RATE : Field := ⟨.PRT_FLOW_RATE, 0, 16, .ro, 0⟩
def PRT_FLOW_RATE_PROFILE : Field := ⟨.PRT_FLOW_RATE, 16, 3, .ro, 0⟩
def PRT_FLOW_RATE_PACED : Field := ⟨.PRT_FLOW_RATE, 30, 1, .ro, 0⟩
def PRT_FLOW_RATE_VALID : Field := ⟨.PRT_FLOW_RATE, 31, 1, .ro, 0⟩
/-! R251 -/
def PRT_CMAP_CTRL_SNAP : Field := ⟨.PRT_CMAP_CTRL, 0, 1, .wo, 0⟩
def PRT_CMAP_CTRL_SNAP_AT_EN : Field := ⟨.PRT_CMAP_CTRL, 1, 1, .rw, 0⟩
def PRT_CMAP_CTRL_SAMPLE_LOG2 : Field := ⟨.PRT_CMAP_CTRL, 8, 4, .rw, 2⟩
def PRT_CMAP_STAT_DONE : Field := ⟨.PRT_CMAP_STAT, 0, 1, .w1c, 0⟩
def PRT_CMAP_STAT_SNAPS : Field := ⟨.PRT_CMAP_STAT, 16, 16, .ro, 0⟩
def PRT_CMAP_AT_TIME : Field := ⟨.PRT_CMAP_AT, 0, 64, .rw, 0⟩
def PRT_CMAP_TAKEN_TIME : Field := ⟨.PRT_CMAP_TAKEN, 0, 64, .ro, 0⟩
def PRT_CMAP_COUNT : Field := ⟨.PRT_CMAP, 0, 32, .ro, 0⟩
/-! R273 -/
def PRT_SCH_CFG_OVH : Field := ⟨.PRT_SCH_CFG, 0, 8, .rw, 16⟩
def PRT_SCH_CFG_TC0_CR : Field := ⟨.PRT_SCH_CFG, 8, 7, .rw, 40⟩
def PRT_SCH_CFG_LOOKAHEAD : Field := ⟨.PRT_SCH_CFG, 16, 1, .rw, 1⟩
def PRT_SCH_CFG_GATE_EN : Field := ⟨.PRT_SCH_CFG, 17, 1, .rw, 0⟩
def PRT_SCH_TCQ_TC3 : Field := ⟨.PRT_SCH_TCQ, 0, 6, .rw, 35⟩
def PRT_SCH_TCQ_TC4 : Field := ⟨.PRT_SCH_TCQ, 6, 6, .rw, 39⟩
def PRT_SCH_TCQ_TC5 : Field := ⟨.PRT_SCH_TCQ, 12, 6, .rw, 27⟩
def PRT_SCH_TCQ_TC6 : Field := ⟨.PRT_SCH_TCQ, 18, 6, .rw, 29⟩
def PRT_SCH_TCQ_TC7 : Field := ⟨.PRT_SCH_TCQ, 24, 6, .rw, 15⟩
def PRT_SCH_STAT_CFG_REJECT : Field := ⟨.PRT_SCH_STAT, 0, 1, .w1c, 0⟩
def PRT_SCH_STAT_FRESH_REJECT : Field := ⟨.PRT_SCH_STAT, 1, 1, .w1c, 0⟩
def PRT_SCH_STAT_GATE_STALE : Field := ⟨.PRT_SCH_STAT, 2, 1, .w1c, 0⟩
def PRT_SCH_STAT_GATE_REPLACED : Field := ⟨.PRT_SCH_STAT, 3, 1, .w1c, 0⟩
def PRT_SCH_STAT_ACTIVE : Field := ⟨.PRT_SCH_STAT, 4, 1, .ro, 0⟩
def PRT_SCH_STAT_PENDING : Field := ⟨.PRT_SCH_STAT, 5, 1, .ro, 0⟩
def PRT_GATE_AT_TIME : Field := ⟨.PRT_GATE_AT, 0, 64, .ro, 0⟩
def PRT_GATE_LEN_LEN_A : Field := ⟨.PRT_GATE_LEN, 0, 8, .rw, 0⟩
def PRT_GATE_LEN_LEN_B : Field := ⟨.PRT_GATE_LEN, 8, 8, .rw, 0⟩
def PRT_POL_CFG_REMARK_TC : Field := ⟨.PRT_POL_CFG, 0, 3, .rw, 3⟩
def PRT_SCH_AGE_AGE7 : Field := ⟨.PRT_SCH_AGE, 0, 16, .rw, 100⟩
def PRT_SCH_AGED_COUNT : Field := ⟨.PRT_SCH_AGED, 0, 32, .ro, 0⟩
def PRT_POL_REMARK_COUNT : Field := ⟨.PRT_POL_REMARK, 0, 32, .ro, 0⟩
def PRT_GATE_TAKE_COUNT : Field := ⟨.PRT_GATE_TAKE, 0, 32, .ro, 0⟩
def PRT_SCH_WQ_WEIGHT : Field := ⟨.PRT_SCH_WQ, 0, 8, .rw, 16⟩
def PRT_SCH_WQ_BURST : Field := ⟨.PRT_SCH_WQ, 8, 12, .rw, 64⟩
def PRT_SCH_WQ_FRESH : Field := ⟨.PRT_SCH_WQ, 31, 1, .rw, 0⟩
def PRT_SHP_Q_RATE : Field := ⟨.PRT_SHP_Q, 0, 16, .rw, 0⟩
def PRT_SHP_Q_BURST : Field := ⟨.PRT_SHP_Q, 16, 16, .rw, 16⟩
def PRT_SHP_QTOK_TOKENS : Field := ⟨.PRT_SHP_QTOK, 0, 32, .ro, 4096⟩
def PRT_SHP_C_RATE : Field := ⟨.PRT_SHP_C, 0, 16, .rw, 0⟩
def PRT_SHP_C_BURST : Field := ⟨.PRT_SHP_C, 16, 16, .rw, 16⟩
def PRT_SHP_CTOK_TOKENS : Field := ⟨.PRT_SHP_CTOK, 0, 32, .ro, 4096⟩
def PRT_POL_RATE : Field := ⟨.PRT_POL, 0, 16, .rw, 0⟩
def PRT_POL_BURST : Field := ⟨.PRT_POL, 16, 16, .rw, 16⟩
def PRT_GATE_DURATION : Field := ⟨.PRT_GATE, 0, 24, .rw, 1⟩
def PRT_GATE_MASK : Field := ⟨.PRT_GATE, 24, 8, .rw, 255⟩
/-! R274 -/
def MST_MH_STAT_YARDS : Field := ⟨.MST_MH_STAT, 0, 3, .ro, 4⟩
def MST_MH_STAT_BOUND_NS : Field := ⟨.MST_MH_STAT, 16, 12, .ro, 900⟩
/-! R338 -/
def YRD_COLL_OVF_EN : Field := ⟨.YRD_COLL_OVF, 0, 1, .rw, 0⟩
def YRD_COLL_OVF_BASE : Field := ⟨.YRD_COLL_OVF, 21, 27, .rw, 0⟩
def YRD_COLL_STAT_PROM_STOP : Field := ⟨.YRD_COLL_STAT, 0, 1, .ro, 0⟩
def YRD_COLL_STAT_PROM_FULL : Field := ⟨.YRD_COLL_STAT, 1, 1, .w1c, 0⟩
def YRD_COLL_STAT_OVF_USED : Field := ⟨.YRD_COLL_STAT, 2, 1, .w1c, 0⟩
def YRD_COLL_STAT_STRAY : Field := ⟨.YRD_COLL_STAT, 3, 1, .w1c, 0⟩
def YRD_COLL_STAT_SEAL_FAIL : Field := ⟨.YRD_COLL_STAT, 4, 1, .w1c, 0⟩
def YRD_COLL_STAT_TIMEOUT : Field := ⟨.YRD_COLL_STAT, 5, 1, .w1c, 0⟩
def YRD_COLL_STAT_SELFTEST_FAIL : Field := ⟨.YRD_COLL_STAT, 6, 1, .w1c, 0⟩
def YRD_COLL_STAT_CFG_REJECT : Field := ⟨.YRD_COLL_STAT, 7, 1, .w1c, 0⟩
def YRD_COLL_OPEN_COUNT : Field := ⟨.YRD_COLL_OPEN, 0, 16, .ro, 0⟩
def YRD_COLL_STG_FREE_KIB : Field := ⟨.YRD_COLL_STG_FREE, 0, 17, .ro, 65536⟩
def YRD_COLL_PROM_FREE_FREE : Field := ⟨.YRD_COLL_PROM_FREE, 0, 18, .ro, 174762⟩
def YRD_COLL_PROM_RESUME_RESUME : Field := ⟨.YRD_COLL_PROM_RESUME, 0, 18, .rw, 4096⟩
def YRD_COLL_STRAY_COUNT : Field := ⟨.YRD_COLL_STRAY, 0, 32, .ro, 0⟩
def YRD_COLL_SEAL_FAIL_COUNT : Field := ⟨.YRD_COLL_SEAL_FAIL, 0, 32, .ro, 0⟩
def YRD_COLL_TIMEOUT_COUNT : Field := ⟨.YRD_COLL_TIMEOUT, 0, 32, .ro, 0⟩
def YRD_COLL_OVF_CNT_COUNT : Field := ⟨.YRD_COLL_OVF_CNT, 0, 32, .ro, 0⟩
def YRD_CPS_MAP_PHYS : Field := ⟨.YRD_CPS_MAP, 0, 5, .ro, 0⟩
def YRD_CPS_MAP_FAILED : Field := ⟨.YRD_CPS_MAP, 7, 1, .ro, 0⟩
def YRD_CPS_MAP_MOVED_TO : Field := ⟨.YRD_CPS_MAP, 8, 4, .ro, 0⟩
/-! R339 -/
def CPS_STAT_IN_SERVICE : Field := ⟨.CPS_STAT, 0, 1, .ro, 0⟩
def CPS_STAT_SPARE : Field := ⟨.CPS_STAT, 1, 1, .ro, 0⟩
def CPS_STAT_FAILED : Field := ⟨.CPS_STAT, 2, 1, .ro, 0⟩
def CPS_STAT_ST_FAIL : Field := ⟨.CPS_STAT, 3, 1, .w1c, 0⟩
def CPS_STAT_LOGICAL : Field := ⟨.CPS_STAT, 8, 4, .ro, 0⟩
def CPS_CHUNKS_COUNT : Field := ⟨.CPS_CHUNKS, 0, 64, .ro, 0⟩
def CPS_PROMOTED_COUNT : Field := ⟨.CPS_PROMOTED, 0, 32, .ro, 0⟩
def CPS_ST_RUNS_COUNT : Field := ⟨.CPS_ST_RUNS, 0, 32, .ro, 0⟩
def CPS_ST_CTRL_RUN : Field := ⟨.CPS_ST_CTRL, 0, 1, .wo, 0⟩
def CPS_ST_CTRL_BUSY : Field := ⟨.CPS_ST_CTRL, 1, 1, .ro, 0⟩
def CPS_LATE_COUNT : Field := ⟨.CPS_LATE, 0, 32, .ro, 0⟩
/-! R361 -/
def SAL_CLEAT_OWNER : Field := ⟨.SAL_CLEAT, 0, 8, .rw, 255⟩
def SAL_CLEAT_EPOCH : Field := ⟨.SAL_CLEAT, 16, 8, .ro, 0⟩
def SAL_CLEAT_STATUS_STATUS_A : Field := ⟨.SAL_CLEAT_STATUS, 0, 2, .ro, 0⟩
def SAL_CLEAT_STATUS_STATUS_B : Field := ⟨.SAL_CLEAT_STATUS, 2, 2, .ro, 0⟩
def SAL_CLEAT_STATUS_STATUS_C : Field := ⟨.SAL_CLEAT_STATUS, 4, 2, .ro, 0⟩
def SAL_CLEAT_STATUS_STATUS_D : Field := ⟨.SAL_CLEAT_STATUS, 6, 2, .ro, 0⟩
def SAL_CLEAT_STATUS_WINNER : Field := ⟨.SAL_CLEAT_STATUS, 8, 8, .ro, 255⟩
def SAL_CLEAT_STATUS_PREV : Field := ⟨.SAL_CLEAT_STATUS, 16, 8, .ro, 255⟩
def SAL_BANK_PWR_RET : Field := ⟨.SAL_BANK_PWR, 0, 1, .rw, 0⟩
def SAL_BANK_PWR_IN_RET : Field := ⟨.SAL_BANK_PWR, 1, 1, .ro, 0⟩
def SAL_BANK_WAKES_COUNT : Field := ⟨.SAL_BANK_WAKES, 0, 32, .ro, 0⟩
/-! R362 -/
def SAL_OWNER_DROP_COUNT : Field := ⟨.SAL_OWNER_DROP, 0, 32, .ro, 0⟩
/-! R361 -/
def BSE_CLEAT_OWNER : Field := ⟨.BSE_CLEAT, 0, 8, .rw, 255⟩
def BSE_CLEAT_EPOCH : Field := ⟨.BSE_CLEAT, 16, 8, .ro, 0⟩
def BSE_CLEAT_STATUS_STATUS_A : Field := ⟨.BSE_CLEAT_STATUS, 0, 2, .ro, 0⟩
def BSE_CLEAT_STATUS_STATUS_B : Field := ⟨.BSE_CLEAT_STATUS, 2, 2, .ro, 0⟩
def BSE_CLEAT_STATUS_STATUS_C : Field := ⟨.BSE_CLEAT_STATUS, 4, 2, .ro, 0⟩
def BSE_CLEAT_STATUS_STATUS_D : Field := ⟨.BSE_CLEAT_STATUS, 6, 2, .ro, 0⟩
def BSE_CLEAT_STATUS_WINNER : Field := ⟨.BSE_CLEAT_STATUS, 8, 8, .ro, 255⟩
def BSE_CLEAT_STATUS_PREV : Field := ⟨.BSE_CLEAT_STATUS, 16, 8, .ro, 255⟩
def BSE_BANK_PWR_RET : Field := ⟨.BSE_BANK_PWR, 0, 1, .rw, 0⟩
def BSE_BANK_PWR_IN_RET : Field := ⟨.BSE_BANK_PWR, 1, 1, .ro, 0⟩
def BSE_BANK_WAKES_COUNT : Field := ⟨.BSE_BANK_WAKES, 0, 32, .ro, 0⟩
/-! R362 -/
def BSE_OWNER_DROP_COUNT : Field := ⟨.BSE_OWNER_DROP, 0, 32, .ro, 0⟩
/-! R363 -/
def MST_OWNER_MAP_TACKLE : Field := ⟨.MST_OWNER_MAP, 0, 16, .rw, 0⟩
def MST_OWNER_MAP_VALID : Field := ⟨.MST_OWNER_MAP, 31, 1, .rw, 0⟩
/-! R364 -/
def BSE_STK_CTRL_SR_REQ : Field := ⟨.BSE_STK_CTRL, 0, 1, .rw, 0⟩
def BSE_STK_CTRL_AUTO_SR : Field := ⟨.BSE_STK_CTRL, 1, 1, .rw, 0⟩
def BSE_STK_CTRL_IDLE_US : Field := ⟨.BSE_STK_CTRL, 16, 16, .rw, 100⟩
def BSE_STK_STAT_READY : Field := ⟨.BSE_STK_STAT, 0, 1, .ro, 0⟩
def BSE_STK_STAT_IN_SR : Field := ⟨.BSE_STK_STAT, 1, 1, .ro, 0⟩
def BSE_STK_STAT_CA_RETRY : Field := ⟨.BSE_STK_STAT, 2, 1, .w1c, 0⟩
def BSE_STK_STAT_CA_FATAL : Field := ⟨.BSE_STK_STAT, 3, 1, .w1c, 0⟩
def BSE_STK_STAT_TEST_FAIL : Field := ⟨.BSE_STK_STAT, 4, 1, .w1c, 0⟩
def BSE_STK_CA_RETRY_COUNT : Field := ⟨.BSE_STK_CA_RETRY, 0, 32, .ro, 0⟩
def BSE_STK_SR_EXITS_COUNT : Field := ⟨.BSE_STK_SR_EXITS, 0, 32, .ro, 0⟩
def BSE_STK_RD_BYTES_COUNT : Field := ⟨.BSE_STK_RD_BYTES, 0, 64, .ro, 0⟩
def BSE_STK_WR_BYTES_COUNT : Field := ⟨.BSE_STK_WR_BYTES, 0, 64, .ro, 0⟩
def BSE_CLEAT_ECC_CORRECTED : Field := ⟨.BSE_CLEAT_ECC, 0, 16, .ro, 0⟩
/-! R397 -/
def TCK_STAT_READY : Field := ⟨.TCK_STAT, 0, 1, .ro, 0⟩
def TCK_STAT_BUSY : Field := ⟨.TCK_STAT, 1, 1, .ro, 0⟩
def TCK_STAT_MASKED : Field := ⟨.TCK_STAT, 2, 1, .ro, 0⟩
def TCK_STAT_HALTED : Field := ⟨.TCK_STAT, 4, 4, .ro, 0⟩
def TCK_STAT_WAITING : Field := ⟨.TCK_STAT, 8, 4, .ro, 0⟩
def TCK_STAT_INFLIGHT : Field := ⟨.TCK_STAT, 16, 8, .ro, 0⟩
def TCK_STAT_EPOCH : Field := ⟨.TCK_STAT, 24, 8, .ro, 0⟩
def TCK_ERR_CMD_ERR : Field := ⟨.TCK_ERR, 0, 1, .w1c, 0⟩
def TCK_ERR_REJECT : Field := ⟨.TCK_ERR, 1, 1, .w1c, 0⟩
def TCK_ERR_OWNER : Field := ⟨.TCK_ERR, 2, 1, .w1c, 0⟩
def TCK_ERR_TIMEOUT : Field := ⟨.TCK_ERR, 3, 1, .w1c, 0⟩
def TCK_ERR_SEQ : Field := ⟨.TCK_ERR, 4, 1, .w1c, 0⟩
def TCK_ERR_CTRL_CHECK : Field := ⟨.TCK_ERR, 5, 1, .w1c, 0⟩
def TCK_ERR_FIRST_STATUS : Field := ⟨.TCK_ERR_FIRST, 0, 8, .ro, 0⟩
def TCK_ERR_FIRST_QUEUE : Field := ⟨.TCK_ERR_FIRST, 8, 2, .ro, 0⟩
def TCK_ERR_FIRST_OPCODE : Field := ⟨.TCK_ERR_FIRST, 16, 8, .ro, 0⟩
def TCK_ERR_INDEX_INDEX : Field := ⟨.TCK_ERR_INDEX, 0, 32, .ro, 0⟩
def TCK_IRQ_EN_EN : Field := ⟨.TCK_IRQ_EN, 0, 6, .rw, 32⟩
def TCK_DONE_COUNT : Field := ⟨.TCK_DONE, 0, 64, .ro, 0⟩
def TCK_QCFG_REC_RING : Field := ⟨.TCK_QCFG, 0, 11, .rw, 0⟩
def TCK_QCFG_REC_EN : Field := ⟨.TCK_QCFG, 15, 1, .rw, 0⟩
def TCK_QCFG_STOP_ON_ERR : Field := ⟨.TCK_QCFG, 16, 1, .rw, 0⟩
def TCK_QCTL_RESUME : Field := ⟨.TCK_QCTL, 0, 1, .wo, 0⟩
/-! R299 -/
def TCK_ARITH_FLUSH : Field := ⟨.TCK_ARITH, 0, 1, .w1c, 0⟩
def TCK_ARITH_SAT : Field := ⟨.TCK_ARITH, 1, 1, .w1c, 0⟩
def TCK_ARITH_NAN_IN : Field := ⟨.TCK_ARITH, 2, 1, .w1c, 0⟩
def TCK_ARITH_ANCH_LOW : Field := ⟨.TCK_ARITH, 3, 1, .w1c, 0⟩
def TCK_ARITH_ANCH_HIGH : Field := ⟨.TCK_ARITH, 4, 1, .w1c, 0⟩
def TCK_ARITH_WIRE_INEXACT : Field := ⟨.TCK_ARITH, 5, 1, .w1c, 0⟩
def TCK_ARITH_PROMOTED : Field := ⟨.TCK_ARITH, 6, 1, .w1c, 0⟩
/-! R397 -/
def TCK_QIDX_INDEX : Field := ⟨.TCK_QIDX, 0, 32, .ro, 0⟩
/-! R398 -/
def SEQ_CTR_VALUE : Field := ⟨.SEQ_CTR, 0, 32, .rw, 0⟩
def SEQ_STAT_SLOT_VALID : Field := ⟨.SEQ_STAT, 0, 8, .ro, 0⟩
def SEQ_STAT_SLOT_BUSY : Field := ⟨.SEQ_STAT, 8, 8, .ro, 0⟩
def SEQ_STAT_AG_BUSY : Field := ⟨.SEQ_STAT, 16, 4, .ro, 0⟩
def SEQ_STAT_CMP : Field := ⟨.SEQ_STAT, 24, 8, .ro, 0⟩
def SEQ_STREAMS_COUNT : Field := ⟨.SEQ_STREAMS, 0, 32, .ro, 0⟩
/-! R399 -/
def MST_FLOW_TMPL_PKEY : Field := ⟨.MST_FLOW_TMPL, 0, 16, .rw, 0⟩
def MST_FLOW_TMPL_TC : Field := ⟨.MST_FLOW_TMPL, 16, 3, .rw, 0⟩
def MST_FLOW_TMPL_PROFILE : Field := ⟨.MST_FLOW_TMPL, 20, 3, .rw, 0⟩
def MST_FLOW_TMPL_VALID : Field := ⟨.MST_FLOW_TMPL, 31, 1, .rw, 0⟩
def MST_FLOW_TMPL1_RING : Field := ⟨.MST_FLOW_TMPL1, 0, 11, .rw, 0⟩
def MST_FLOW_TMPL1_RING_EN : Field := ⟨.MST_FLOW_TMPL1, 15, 1, .rw, 0⟩
def MST_FLOW_TMPL1_TIMER : Field := ⟨.MST_FLOW_TMPL1, 16, 16, .rw, 1000⟩
def MST_FLOW_TMPL2_CTR_TACKLE : Field := ⟨.MST_FLOW_TMPL2, 0, 16, .rw, 0⟩
def MST_FLOW_TMPL2_CTR : Field := ⟨.MST_FLOW_TMPL2, 16, 4, .rw, 0⟩
def MST_FLOW_TMPL2_CTR_EN : Field := ⟨.MST_FLOW_TMPL2, 31, 1, .rw, 0⟩
/-! R462 -/
def SAL_CORE_OK_CORES : Field := ⟨.SAL_CORE_OK, 0, 64, .ro, 18446744073709551615⟩
def SAL_VEC_OK_ENG : Field := ⟨.SAL_VEC_OK, 0, 8, .ro, 255⟩
def SAL_MERGE_CNT_COUNT : Field := ⟨.SAL_MERGE_CNT, 0, 64, .ro, 0⟩
def SAL_CORE_BUSY_CYCLES : Field := ⟨.SAL_CORE_BUSY, 0, 64, .ro, 0⟩
def SAL_VEC_BUSY_CYCLES : Field := ⟨.SAL_VEC_BUSY, 0, 64, .ro, 0⟩
/-! R463 -/
def BSE_VEC_OK_ENG : Field := ⟨.BSE_VEC_OK, 0, 16, .ro, 65535⟩
def BSE_ATTN_CNT_COUNT : Field := ⟨.BSE_ATTN_CNT, 0, 32, .ro, 0⟩
def BSE_ATTN_WAIT_CYCLES : Field := ⟨.BSE_ATTN_WAIT, 0, 32, .ro, 0⟩
def BSE_VEC_BUSY_CYCLES : Field := ⟨.BSE_VEC_BUSY, 0, 64, .ro, 0⟩
/-! R480 -/
def FLT_STAT_SRC : Field := ⟨.FLT_STAT, 0, 16, .w1c, 0⟩
def FLT_IRQ_EN_EN : Field := ⟨.FLT_IRQ_EN, 0, 16, .rw, 65535⟩
def FLT_FATAL_EN_EN : Field := ⟨.FLT_FATAL_EN, 0, 16, .rw, 0⟩
def FLT_MERGED_COUNT : Field := ⟨.FLT_MERGED, 0, 32, .ro, 0⟩
def FLT_COR_CNT_COUNT : Field := ⟨.FLT_COR_CNT, 0, 32, .ro, 0⟩
def XING_DISCARD_COUNT : Field := ⟨.XING_DISCARD, 0, 32, .ro, 0⟩
/-! R481 -/
def MST_FAULT_STAT_PULSED : Field := ⟨.MST_FAULT_STAT, 0, 1, .w1c, 0⟩
def MST_FAULT_STAT_ASSERTED : Field := ⟨.MST_FAULT_STAT, 1, 1, .ro, 0⟩
def MST_FAULT_STAT_HEADLESS : Field := ⟨.MST_FAULT_STAT, 2, 1, .ro, 0⟩
def MST_FAULT_STAT_FIRST_DIE : Field := ⟨.MST_FAULT_STAT, 8, 5, .ro, 0⟩
def MST_FAULT_HOLD_HOLD : Field := ⟨.MST_FAULT_HOLD, 0, 1, .rw, 0⟩
def MST_FAULT_TIME_TIME : Field := ⟨.MST_FAULT_TIME, 0, 64, .ro, 0⟩
def MST_MGMT_CMD_TARGET : Field := ⟨.MST_MGMT_CMD, 0, 16, .wo, 0⟩
def MST_MGMT_CMD_EPOCH : Field := ⟨.MST_MGMT_CMD, 16, 8, .wo, 0⟩
def MST_MGMT_CMD_OP : Field := ⟨.MST_MGMT_CMD, 24, 4, .wo, 0⟩
def MST_MGMT_CMD_KEY : Field := ⟨.MST_MGMT_CMD, 32, 8, .wo, 0⟩
def MST_MGMT_STAT_BUSY : Field := ⟨.MST_MGMT_STAT, 0, 1, .ro, 0⟩
def MST_MGMT_STAT_REJECTED : Field := ⟨.MST_MGMT_STAT, 1, 1, .w1c, 0⟩
def MST_MGMT_STAT_STATUS : Field := ⟨.MST_MGMT_STAT, 8, 8, .ro, 0⟩
def MST_MGMT_STAT_EPOCH_SEEN : Field := ⟨.MST_MGMT_STAT, 16, 8, .ro, 0⟩
/-! R497 -/
def OPM_CTRL_EN : Field := ⟨.OPM_CTRL, 0, 1, .rwl, 1⟩
def OPM_CTRL_ALLOW_EN : Field := ⟨.OPM_CTRL, 1, 1, .rwl, 0⟩
def OPM_CTRL_FLUSH : Field := ⟨.OPM_CTRL, 2, 1, .wo, 0⟩
def OPM_CTRL_DUMP : Field := ⟨.OPM_CTRL, 3, 1, .wo, 0⟩
def OPM_CTRL_RING_EN : Field := ⟨.OPM_CTRL, 15, 1, .rwl, 0⟩
def OPM_CTRL_RING : Field := ⟨.OPM_CTRL, 16, 11, .rwl, 0⟩
def OPM_STAT_LEDGER_ERR : Field := ⟨.OPM_STAT, 0, 1, .w1c, 0⟩
def OPM_STAT_PRESENT : Field := ⟨.OPM_STAT, 8, 8, .ro, 0⟩
def OPM_BUS_CFG_MODE : Field := ⟨.OPM_BUS_CFG, 0, 2, .rwl, 0⟩
def OPM_LIFE_CFG_PCT : Field := ⟨.OPM_LIFE_CFG, 0, 8, .rwl, 90⟩
def OPM_LIFE_CFG_DRIFT_LIM : Field := ⟨.OPM_LIFE_CFG, 8, 16, .rwl, 200⟩
def OPM_LIFE_DEF_RATED : Field := ⟨.OPM_LIFE_DEF, 0, 16, .rwl, 500⟩
def OPM_ALLOW_HASH : Field := ⟨.OPM_ALLOW, 0, 32, .rwl, 0⟩
def OPM_ALLOW2_RATED : Field := ⟨.OPM_ALLOW2, 0, 16, .rwl, 0⟩
def OPM_ALLOW2_VALID : Field := ⟨.OPM_ALLOW2, 31, 1, .rwl, 0⟩
def OPM_SLOT_STAT_STATE : Field := ⟨.OPM_SLOT_STAT, 0, 4, .ro, 0⟩
def OPM_SLOT_STAT_PRESENT : Field := ⟨.OPM_SLOT_STAT, 4, 1, .ro, 0⟩
def OPM_SLOT_STAT_INT : Field := ⟨.OPM_SLOT_STAT, 5, 1, .ro, 0⟩
def OPM_SLOT_STAT_LIFE : Field := ⟨.OPM_SLOT_STAT, 6, 1, .w1c, 0⟩
def OPM_SLOT_STAT_BUS_ERR : Field := ⟨.OPM_SLOT_STAT, 7, 1, .w1c, 0⟩
def OPM_SLOT_CFG_MANUAL : Field := ⟨.OPM_SLOT_CFG, 0, 1, .rw, 0⟩
def OPM_SLOT_CFG_REINIT : Field := ⟨.OPM_SLOT_CFG, 1, 1, .wo, 0⟩
def OPM_SLOT_MIN_LASER_MIN : Field := ⟨.OPM_SLOT_MIN, 0, 32, .ro, 0⟩
def OPM_SLOT_ID_PART_HASH : Field := ⟨.OPM_SLOT_ID, 0, 32, .ro, 0⟩
def OPM_PASS_CTRL_SLOT : Field := ⟨.OPM_PASS_CTRL, 0, 7, .rw, 0⟩
def OPM_PASS_CTRL_PAGE : Field := ⟨.OPM_PASS_CTRL, 8, 8, .rw, 0⟩
def OPM_PASS_CTRL_BYTE : Field := ⟨.OPM_PASS_CTRL, 16, 8, .rw, 0⟩
def OPM_PASS_CTRL_WRITE : Field := ⟨.OPM_PASS_CTRL, 24, 1, .rw, 0⟩
def OPM_PASS_CTRL_GO : Field := ⟨.OPM_PASS_CTRL, 25, 1, .wo, 0⟩
def OPM_PASS_DATA_DATA : Field := ⟨.OPM_PASS_DATA, 0, 8, .rw, 0⟩
def OPM_PASS_DATA_BUSY : Field := ⟨.OPM_PASS_DATA, 8, 1, .ro, 0⟩
def OPM_PASS_DATA_STATUS : Field := ⟨.OPM_PASS_DATA, 16, 8, .ro, 0⟩
/-! R515 -/
def TRC_Q_RING : Field := ⟨.TRC_Q, 0, 11, .rwl, 0⟩
def TRC_Q_MARK_EN : Field := ⟨.TRC_Q, 14, 1, .rwl, 0⟩
def TRC_Q_CMD_EN : Field := ⟨.TRC_Q, 15, 1, .rwl, 0⟩
def TRC_STAT_LEVEL : Field := ⟨.TRC_STAT, 0, 13, .ro, 0⟩
def TRC_RECS_COUNT : Field := ⟨.TRC_RECS, 0, 64, .ro, 0⟩
def TRC_STALL_CYCLES : Field := ⟨.TRC_STALL, 0, 32, .ro, 0⟩
def TRC_DISCARD_COUNT : Field := ⟨.TRC_DISCARD, 0, 32, .ro, 0⟩
def PRT_DROP_CFG_RATE_LOG2 : Field := ⟨.PRT_DROP_CFG, 0, 4, .rwl, 0⟩
def PRT_DROP_CFG_EN : Field := ⟨.PRT_DROP_CFG, 15, 1, .rwl, 0⟩
def PRT_DROP_CFG_RING : Field := ⟨.PRT_DROP_CFG, 16, 11, .rwl, 0⟩
def PRT_DROP_CNT_COUNT : Field := ⟨.PRT_DROP_CNT, 0, 32, .ro, 0⟩
/-! R516 -/
def MST_TEL_CFG_PERIOD_LOG2 : Field := ⟨.MST_TEL_CFG, 0, 5, .rwl, 10⟩
def MST_TEL_CFG_COUNT : Field := ⟨.MST_TEL_CFG, 8, 7, .rwl, 1⟩
def MST_TEL_CFG_EN : Field := ⟨.MST_TEL_CFG, 15, 1, .rwl, 0⟩
def MST_TEL_CFG_RING : Field := ⟨.MST_TEL_CFG, 16, 11, .rwl, 0⟩
def MST_TEL_STAT_CFG_REJECT : Field := ⟨.MST_TEL_STAT, 0, 1, .w1c, 0⟩
def MST_TEL_SKIPPED_COUNT : Field := ⟨.MST_TEL_SKIPPED, 0, 32, .ro, 0⟩
def MST_TEL_ADDR_ADDR : Field := ⟨.MST_TEL_ADDR, 0, 48, .rwl, 0⟩
def MST_TEL_ADDR_SIZE64 : Field := ⟨.MST_TEL_ADDR, 48, 1, .rwl, 0⟩
def MST_SNAP_CTRL_GO : Field := ⟨.MST_SNAP_CTRL, 0, 1, .wo, 0⟩
def MST_SNAP_CTRL_AT_EN : Field := ⟨.MST_SNAP_CTRL, 1, 1, .rwl, 0⟩
def MST_SNAP_CTRL_AUTO_FATAL : Field := ⟨.MST_SNAP_CTRL, 2, 1, .rwl, 0⟩
def MST_SNAP_CTRL_HALT_ALL : Field := ⟨.MST_SNAP_CTRL, 3, 1, .rw, 0⟩
def MST_SNAP_CTRL_RING_EN : Field := ⟨.MST_SNAP_CTRL, 15, 1, .rwl, 0⟩
def MST_SNAP_CTRL_RING : Field := ⟨.MST_SNAP_CTRL, 16, 11, .rwl, 0⟩
def MST_SNAP_AT_TIME : Field := ⟨.MST_SNAP_AT, 0, 64, .rwl, 0⟩
def MST_SNAP_STAT_BUSY : Field := ⟨.MST_SNAP_STAT, 0, 1, .ro, 0⟩
def MST_SNAP_STAT_TRUNC : Field := ⟨.MST_SNAP_STAT, 1, 1, .w1c, 0⟩
def MST_SNAP_STAT_SNAPS : Field := ⟨.MST_SNAP_STAT, 16, 16, .ro, 0⟩
def MST_SNAP_MISSED_COUNT : Field := ⟨.MST_SNAP_MISSED, 0, 32, .ro, 0⟩
def MST_SNAP_TIME_TIME : Field := ⟨.MST_SNAP_TIME, 0, 64, .ro, 0⟩
/-! R531 -/
def SNS_TEMP_TEMP : Field := ⟨.SNS_TEMP, 0, 16, .ro, 0⟩
def SNS_TEMP_VALID : Field := ⟨.SNS_TEMP, 16, 1, .ro, 0⟩
def SNS_REM_TEMP : Field := ⟨.SNS_REM, 0, 16, .ro, 0⟩
def SNS_REM_VALID : Field := ⟨.SNS_REM, 16, 1, .ro, 0⟩
def SNS_REM_OPEN_NOW : Field := ⟨.SNS_REM, 17, 1, .ro, 0⟩
def SNS_REM_CFG_R25 : Field := ⟨.SNS_REM_CFG, 0, 16, .rwl, 10000⟩
def SNS_REM_CFG_BETA : Field := ⟨.SNS_REM_CFG, 16, 16, .rwl, 3435⟩
def SNS_REM_RES_OHMS : Field := ⟨.SNS_REM_RES, 0, 20, .ro, 0⟩
def SNS_STAT_OPEN_A : Field := ⟨.SNS_STAT, 0, 1, .w1c, 0⟩
def SNS_STAT_OPEN_B : Field := ⟨.SNS_STAT, 1, 1, .w1c, 0⟩
def SNS_STAT_INLET_HIGH : Field := ⟨.SNS_STAT, 2, 1, .w1c, 0⟩
def SNS_STAT_DIODE_BAD : Field := ⟨.SNS_STAT, 3, 1, .w1c, 0⟩
def SNS_STAT_THROTTLED : Field := ⟨.SNS_STAT, 4, 1, .w1c, 0⟩
def SNS_LIMITS_INLET_MAX : Field := ⟨.SNS_LIMITS, 0, 16, .rwl, 640⟩
def SNS_SAIL_THR_HI : Field := ⟨.SNS_SAIL_THR, 0, 16, .rwl, 1600⟩
def SNS_SAIL_THR_LO : Field := ⟨.SNS_SAIL_THR, 16, 16, .rwl, 1552⟩
def SNS_TRIP_SRC_SENSOR : Field := ⟨.SNS_TRIP_SRC, 0, 7, .ro, 0⟩
/-! R532 -/
def PWR_RAIL_STAT_GOOD : Field := ⟨.PWR_RAIL_STAT, 0, 11, .ro, 0⟩
def PWR_VSAIL_MV : Field := ⟨.PWR_VSAIL, 0, 12, .ro, 0⟩
def PWR_SAIL_CTRL_RATIO : Field := ⟨.PWR_SAIL_CTRL, 0, 4, .rw, 12⟩
def PWR_SAIL_CTRL_FORCE : Field := ⟨.PWR_SAIL_CTRL, 8, 3, .rw, 0⟩
def PWR_SAIL_STAT_RATIO : Field := ⟨.PWR_SAIL_STAT, 0, 4, .ro, 12⟩
def PWR_SAIL_STAT_CHANGING : Field := ⟨.PWR_SAIL_STAT, 4, 1, .ro, 0⟩
def PWR_SAIL_STAT_REJECTED : Field := ⟨.PWR_SAIL_STAT, 5, 1, .w1c, 0⟩
def PWR_SAIL_STAT_LEVEL : Field := ⟨.PWR_SAIL_STAT, 8, 3, .ro, 0⟩
def PWR_SAIL_STAT_HOT : Field := ⟨.PWR_SAIL_STAT, 11, 1, .ro, 0⟩
def PWR_SAIL_THR_CNT_COUNT : Field := ⟨.PWR_SAIL_THR_CNT, 0, 32, .ro, 0⟩
def PWR_SAIL_RATIO_CNT_COUNT : Field := ⟨.PWR_SAIL_RATIO_CNT, 0, 32, .ro, 0⟩
/-! R300 -/
def MST_COLL_DESC_WORD : Field := ⟨.MST_COLL_DESC, 0, 32, .rw, 0⟩
/-! R399 -/
def MST_DESC_WORD : Field := ⟨.MST_DESC, 0, 32, .rw, 0⟩
/-! R101 -/
def MST_RECOVERY_WORD : Field := ⟨.MST_RECOVERY, 0, 32, .rw, 0⟩

end Sys2Proof.Machine.F

namespace Sys2Proof.Machine

/-- The fields of a register, in the order of its table. -/
def fieldsOf : RegName → List Field
  | .MST_IDENT => [F.MST_IDENT_PART, F.MST_IDENT_STEPPING, F.MST_IDENT_MAKER]
  | .MST_UNITS => [F.MST_UNITS_YARD_OK, F.MST_UNITS_SAIL_OK, F.MST_UNITS_PORT_OK, F.MST_UNITS_BASE_OK]
  | .MST_CLK_STAT => [F.MST_CLK_STAT_REF_PRESENT, F.MST_CLK_STAT_REF_LOST, F.MST_CLK_STAT_FRAME_SLIP, F.MST_CLK_STAT_AO_BACKUP, F.MST_CLK_STAT_HOLD_LONG, F.MST_CLK_STAT_SLIP_DIE]
  | .MST_PLL_LOCK => [F.MST_PLL_LOCK_MAST, F.MST_PLL_LOCK_YARD, F.MST_PLL_LOCK_PORT, F.MST_PLL_LOCK_SAIL, F.MST_PLL_LOCK_BASE]
  | .MST_HOIST_STAT => [F.MST_HOIST_STAT_DONE, F.MST_HOIST_STAT_FAIL, F.MST_HOIST_STAT_FAIL_DIE, F.MST_HOIST_STAT_FREE_XING]
  | .MST_CLKON => [F.MST_CLKON_ON]
  | .MST_CLK_HOLD => [F.MST_CLK_HOLD_HOLD]
  | .FAB_TIME => [F.FAB_TIME_TIME]
  | .FAB_STEP => [F.FAB_STEP_STEP]
  | .FAB_CTRL => [F.FAB_CTRL_ROOT, F.FAB_CTRL_PARENT_VALID, F.FAB_CTRL_AUTO_STEP, F.FAB_CTRL_PARENT_DIE, F.FAB_CTRL_PARENT_ENG]
  | .FAB_STAT => [F.FAB_STAT_ALIGNED, F.FAB_STAT_DRIFT, F.FAB_STAT_STEP_CNT]
  | .FAB_PEER_OFS => [F.FAB_PEER_OFS_OFS]
  | .FAB_PEER_DLY => [F.FAB_PEER_DLY_DLY]
  | .FAB_ASYM => [F.FAB_ASYM_ASYM]
  | .MST_DET_CTRL => [F.MST_DET_CTRL_ANCHOR_EN, F.MST_DET_CTRL_CLR]
  | .MST_DET_ANCHOR => [F.MST_DET_ANCHOR_ANCHOR]
  | .MST_DET_STAT => [F.MST_DET_STAT_TDC_ANY, F.MST_DET_STAT_ANCHOR_PASSED, F.MST_DET_STAT_HELD_START]
  | .MST_TDC_TOTAL => [F.MST_TDC_TOTAL_TOTAL]
  | .MST_TDC_FIRST => [F.MST_TDC_FIRST_TIME]
  | .MST_TDC_FIRST_SRC => [F.MST_TDC_FIRST_SRC_CAUSE, F.MST_TDC_FIRST_SRC_TACKLE]
  | .MST_TDC_CNT => [F.MST_TDC_CNT_COUNT]
  | .MST_PLAN_DIGEST => [F.MST_PLAN_DIGEST_DIGEST]
  | .MST_DIG_STAT => [F.MST_DIG_STAT_OPEN_WIN, F.MST_DIG_STAT_BACKLOG]
  | .MST_READY => [F.MST_READY_MAST, F.MST_READY_HOST, F.MST_READY_YARD, F.MST_READY_SAIL, F.MST_READY_PORT, F.MST_READY_BASE]
  | .MST_READY_STACK => [F.MST_READY_STACK_STACK]
  | .MST_BOOT_STAT => [F.MST_BOOT_STAT_RESULT, F.MST_BOOT_STAT_FAIL_A, F.MST_BOOT_STAT_FAIL_B, F.MST_BOOT_STAT_FAIL_REC, F.MST_BOOT_STAT_SEC_VER, F.MST_BOOT_STAT_KEY_SLOT]
  | .MST_BOOT_CTRL => [F.MST_BOOT_CTRL_GO]
  | .MST_SEC_FUSE => [F.MST_SEC_FUSE_KEY_REVOKED, F.MST_SEC_FUSE_SEC_VER_MIN, F.MST_SEC_FUSE_DEBUG_CLOSED, F.MST_SEC_FUSE_PROG_BUSY, F.MST_SEC_FUSE_PROG_FAIL]
  | .MST_FUSE_PROG => [F.MST_FUSE_PROG_OP, F.MST_FUSE_PROG_ARG, F.MST_FUSE_PROG_CONFIRM]
  | .MST_RST_REQ => [F.MST_RST_REQ_SCOPE, F.MST_RST_REQ_FLUSH, F.MST_RST_REQ_KEY, F.MST_RST_REQ_TARGET]
  | .MST_RST_STAT => [F.MST_RST_STAT_BUSY, F.MST_RST_STAT_REJECTED, F.MST_RST_STAT_REASON, F.MST_RST_STAT_LAST_TARGET]
  | .MST_RST_CAUSE => [F.MST_RST_CAUSE_POWER_ON, F.MST_RST_CAUSE_PIN, F.MST_RST_CAUSE_SOFTWARE, F.MST_RST_CAUSE_BROWNOUT, F.MST_RST_CAUSE_THERMTRIP, F.MST_RST_CAUSE_COUNT]
  | .MST_HELM => [F.MST_HELM_HELM]
  | .MST_PROT_GEN => [F.MST_PROT_GEN_GEN]
  | .MST_PROT_DRAINED => [F.MST_PROT_DRAINED_DRAINED]
  | .MST_PROT_STAT => [F.MST_PROT_STAT_PENDING]
  | .MST_LOCK => [F.MST_LOCK_LOCK]
  | .MST_QMAP => [F.MST_QMAP_Q0, F.MST_QMAP_Q1, F.MST_QMAP_Q2, F.MST_QMAP_Q3]
  | .MST_PROT_APER => [F.MST_PROT_APER_LO_GIB, F.MST_PROT_APER_HI_GIB, F.MST_PROT_APER_EN]
  | .HST_PORT_STAT => [F.HST_PORT_STAT_LINK_UP, F.HST_PORT_STAT_RATE, F.HST_PORT_STAT_WIDTH, F.HST_PORT_STAT_FLIT, F.HST_PORT_STAT_HELM, F.HST_PORT_STAT_NUM_VF]
  | .HST_PORT_ERR => [F.HST_PORT_ERR_ACCESS_ERR, F.HST_PORT_ERR_REJECTED_WR, F.HST_PORT_ERR_OWNER_ERR, F.HST_PORT_ERR_RING_CHECK, F.HST_PORT_ERR_IND_ABORT]
  | .HST_APER_BASE => [F.HST_APER_BASE_BASE]
  | .HST_IND_ADDR => [F.HST_IND_ADDR_ADDR]
  | .HST_IND_DATA => [F.HST_IND_DATA_DATA]
  | .HST_IND_CTRL => [F.HST_IND_CTRL_GO, F.HST_IND_CTRL_WRITE, F.HST_IND_CTRL_SIZE64, F.HST_IND_CTRL_ABORT]
  | .HST_IND_STAT => [F.HST_IND_STAT_BUSY, F.HST_IND_STAT_STATUS]
  | .HST_CR_CFG => [F.HST_CR_CFG_SIZE_LOG2, F.HST_CR_CFG_IRQ_EN, F.HST_CR_CFG_VECTOR, F.HST_CR_CFG_TACKLE]
  | .HST_CR_CTRL => [F.HST_CR_CTRL_ARM, F.HST_CR_CTRL_DISARM]
  | .HST_CR_STAT => [F.HST_CR_STAT_STATE, F.HST_CR_STAT_DB_RANGE, F.HST_CR_STAT_CHECK, F.HST_CR_STAT_STATUS, F.HST_CR_STAT_QUEUE]
  | .HST_CR_COUNT => [F.HST_CR_COUNT_CONSUMED, F.HST_CR_COUNT_PRODUCED]
  | .HST_CR_DB => [F.HST_CR_DB_PRODUCER]
  | .HST_RR_BASE => [F.HST_RR_BASE_BASE]
  | .HST_RR_CFG => [F.HST_RR_CFG_SIZE_LOG2]
  | .HST_RR_CTRL => [F.HST_RR_CTRL_ARM, F.HST_RR_CTRL_DISARM]
  | .HST_RR_STAT => [F.HST_RR_STAT_STATE, F.HST_RR_STAT_CHECK, F.HST_RR_STAT_STATUS]
  | .HST_RR_COUNT => [F.HST_RR_COUNT_PRODUCED, F.HST_RR_COUNT_RELEASED]
  | .HST_RR_DISCARD => [F.HST_RR_DISCARD_COUNT]
  | .LNE_CTRL => [F.LNE_CTRL_EN, F.LNE_CTRL_AUTO_ALIGN, F.LNE_CTRL_AUTO_EQ, F.LNE_CTRL_PRECODE_ALLOW, F.LNE_CTRL_RETRAIN, F.LNE_CTRL_SELFTEST, F.LNE_CTRL_BITSLIP]
  | .LNE_STAT => [F.LNE_STAT_STATE, F.LNE_STAT_MISMATCH, F.LNE_STAT_SYNC_OK, F.LNE_STAT_PRECODE, F.LNE_STAT_FAULT_CIRCUIT, F.LNE_STAT_FAULT_CHANNEL, F.LNE_STAT_REF_DRIFT, F.LNE_STAT_TRAIN_FAIL, F.LNE_STAT_EQ_REJECT, F.LNE_STAT_POSITION, F.LNE_STAT_LOGICAL]
  | .LNE_LAT => [F.LNE_LAT_LATENCY, F.LNE_LAT_SKEW, F.LNE_LAT_PHASE]
  | .LNE_TXEQ => [F.LNE_TXEQ_C_M3, F.LNE_TXEQ_C_M2, F.LNE_TXEQ_C_M1, F.LNE_TXEQ_C_0, F.LNE_TXEQ_C_P1]
  | .LNE_RXEQ => [F.LNE_RXEQ_CTLE, F.LNE_RXEQ_GAIN, F.LNE_RXEQ_FREEZE]
  | .LNE_EYE_CTRL => [F.LNE_EYE_CTRL_START, F.LNE_EYE_CTRL_BUSY, F.LNE_EYE_CTRL_EYE]
  | .LNE_EYE => [F.LNE_EYE_HEIGHT, F.LNE_EYE_WIDTH, F.LNE_EYE_SNR]
  | .LNE_FEC_CW => [F.LNE_FEC_CW_COUNT]
  | .LNE_FEC_CORR => [F.LNE_FEC_CORR_COUNT]
  | .LNE_FEC_UCW => [F.LNE_FEC_UCW_COUNT]
  | .LNE_UCW_LIMIT => [F.LNE_UCW_LIMIT_LIMIT]
  | .LNE_CTRL_RSVD => [F.LNE_CTRL_RSVD_COUNT]
  | .LNE_FEC_HIST => [F.LNE_FEC_HIST_COUNT]
  | .LNE_CAPS_PEER => [F.LNE_CAPS_PEER_BYTES]
  | .LNE_SPARE => [F.LNE_SPARE_POS, F.LNE_SPARE_IN_USE]
  | .PRT_PORT_CFG => [F.PRT_PORT_CFG_BASE_POS, F.PRT_PORT_CFG_WIDTH_LOG2, F.PRT_PORT_CFG_MODE, F.PRT_PORT_CFG_MIN_LIVE, F.PRT_PORT_CFG_EN, F.PRT_PORT_CFG_REEF_EN, F.PRT_PORT_CFG_RETRY_S]
  | .PRT_PORT_STAT => [F.PRT_PORT_STAT_UP, F.PRT_PORT_STAT_REEFED, F.PRT_PORT_STAT_NARROWED, F.PRT_PORT_STAT_CHANGE_PENDING, F.PRT_PORT_STAT_CFG_REJECT, F.PRT_PORT_STAT_LIVE_TX, F.PRT_PORT_STAT_LIVE_RX]
  | .PRT_PORT_LIVE => [F.PRT_PORT_LIVE_TX_MASK, F.PRT_PORT_LIVE_RX_MASK]
  | .PRT_PORT_REEF => [F.PRT_PORT_REEF_IDLE, F.PRT_PORT_REEF_GUARD]
  | .PRT_LNK_CFG => [F.PRT_LNK_CFG_REPLAY_LIMIT, F.PRT_LNK_CFG_ACK_TIMEOUT]
  | .PRT_LNK_STAT => [F.PRT_LNK_STAT_TX_NEXT, F.PRT_LNK_STAT_RX_EXPECT]
  | .PRT_LNK_CR0 => [F.PRT_LNK_CR0_REQ, F.PRT_LNK_CR0_RSP]
  | .PRT_LNK_CR1 => [F.PRT_LNK_CR1_COL, F.PRT_LNK_CR1_ESC]
  | .PRT_LNK_ERR => [F.PRT_LNK_ERR_REPLAY_LIMIT, F.PRT_LNK_ERR_CREDIT_ERR, F.PRT_LNK_ERR_MALFORMED]
  | .PRT_LNK_REPLAY => [F.PRT_LNK_REPLAY_COUNT]
  | .PRT_LNK_NAK_TX => [F.PRT_LNK_NAK_TX_COUNT]
  | .PRT_LNK_BAD => [F.PRT_LNK_BAD_COUNT]
  | .PRT_LNK_DUP => [F.PRT_LNK_DUP_COUNT]
  | .PRT_LNK_ABORT_RX => [F.PRT_LNK_ABORT_RX_COUNT]
  | .PRT_LNK_ABORT_TX => [F.PRT_LNK_ABORT_TX_COUNT]
  | .PRT_LNK_MALFORMED => [F.PRT_LNK_MALFORMED_COUNT]
  | .PRT_LNK_LOST => [F.PRT_LNK_LOST_COUNT]
  | .PRT_LNK_TIMEX_LOST => [F.PRT_LNK_TIMEX_LOST_COUNT]
  | .YRD_POOL_CFG => [F.YRD_POOL_CFG_LARGE_MIB]
  | .YRD_POOL_RSV => [F.YRD_POOL_RSV_RSP, F.YRD_POOL_RSV_COL, F.YRD_POOL_RSV_ESC, F.YRD_POOL_RSV_TC0]
  | .YRD_POOL_FREE_S => [F.YRD_POOL_FREE_S_FREE]
  | .YRD_POOL_FREE_L => [F.YRD_POOL_FREE_L_FREE]
  | .YRD_POOL_STAT => [F.YRD_POOL_STAT_FALLBACK, F.YRD_POOL_STAT_EXHAUST, F.YRD_POOL_STAT_FREE_ERR, F.YRD_POOL_STAT_PTR_CHECK, F.YRD_POOL_STAT_LEAK, F.YRD_POOL_STAT_CFG_REJECT]
  | .YRD_FALLBACK_CNT => [F.YRD_FALLBACK_CNT_COUNT]
  | .YRD_STALL_CNT => [F.YRD_STALL_CNT_COUNT]
  | .YRD_AUDIT_CTRL => [F.YRD_AUDIT_CTRL_AGE_LIMIT, F.YRD_AUDIT_CTRL_ORPHAN_FREE]
  | .YRD_AUDIT_SEL => [F.YRD_AUDIT_SEL_OWNER]
  | .YRD_AUDIT_CNT => [F.YRD_AUDIT_CNT_CELLS, F.YRD_AUDIT_CNT_OLDEST]
  | .YRD_AUDIT_PASS => [F.YRD_AUDIT_PASS_COUNT]
  | .YRD_AUDIT_LEAK => [F.YRD_AUDIT_LEAK_CELLS]
  | .YRD_AUDIT_FIRST => [F.YRD_AUDIT_FIRST_OWNER]
  | .YRD_ORPHAN_FREED => [F.YRD_ORPHAN_FREED_COUNT]
  | .PRT_SPRAY => [F.PRT_SPRAY_OFS]
  | .PRT_CUT_CFG => [F.PRT_CUT_CFG_CUT_EN]
  | .PRT_RSQ_CFG => [F.PRT_RSQ_CFG_TIMEOUT]
  | .PRT_RSQ_STAT => [F.PRT_RSQ_STAT_GAP_TIMEOUT, F.PRT_RSQ_STAT_YARD_SKIP]
  | .PRT_RSQ_LOST => [F.PRT_RSQ_LOST_COUNT]
  | .PRT_RSQ_DROP => [F.PRT_RSQ_DROP_COUNT]
  | .PRT_DESC_FREE => [F.PRT_DESC_FREE_FREE]
  | .PRT_SW_CUT => [F.PRT_SW_CUT_COUNT]
  | .PRT_SW_STORE => [F.PRT_SW_STORE_COUNT]
  | .PRT_FLUSH_PKTS => [F.PRT_FLUSH_PKTS_COUNT]
  | .PRT_FLUSH_CELLS => [F.PRT_FLUSH_CELLS_COUNT]
  | .PRT_FLUSH_STAT => [F.PRT_FLUSH_STAT_FLUSHING, F.PRT_FLUSH_STAT_FLUSHED]
  | .PRT_DOWN_DROP => [F.PRT_DOWN_DROP_COUNT]
  | .MST_FABADDR => [F.MST_FABADDR_HALL, F.MST_FABADDR_ROW, F.MST_FABADDR_RACK, F.MST_FABADDR_VALID]
  | .MST_MC_STAT => [F.MST_MC_STAT_REJECT, F.MST_MC_STAT_REJ_GROUP]
  | .MST_MC_CTL => [F.MST_MC_CTL_DIM, F.MST_MC_CTL_VALID]
  | .MST_MC_LOCAL => [F.MST_MC_LOCAL_LOCAL]
  | .MST_MC_PEER => [F.MST_MC_PEER_PEER]
  | .PRT_RT_PORT => [F.PRT_RT_PORT_DIM]
  | .PRT_RT_LOCAL => [F.PRT_RT_LOCAL_PORT, F.PRT_RT_LOCAL_VALID]
  | .PRT_RT_NOROUTE => [F.PRT_RT_NOROUTE_COUNT]
  | .PRT_RT_DETOUR => [F.PRT_RT_DETOUR_COUNT]
  | .PRT_RT_TRANSIT => [F.PRT_RT_TRANSIT_COUNT]
  | .PRT_RT_MISROUTE => [F.PRT_RT_MISROUTE_COUNT]
  | .PRT_FL_CTL => [F.PRT_FL_CTL_EN, F.PRT_FL_CTL_FORCE_DETOUR, F.PRT_FL_CTL_DT_COORD, F.PRT_FL_CTL_DT_VALID, F.PRT_FL_CTL_VALID]
  | .PRT_FL_PORTS => [F.PRT_FL_PORTS_PORTS]
  | .PRT_FL_SEL_LO => [F.PRT_FL_SEL_LO_SEL]
  | .PRT_FL_SEL_HI => [F.PRT_FL_SEL_HI_SEL]
  | .PRT_PKEY => [F.PRT_PKEY_KEY, F.PRT_PKEY_LIMIT, F.PRT_PKEY_VALID]
  | .PRT_PKEY_STAT => [F.PRT_PKEY_STAT_MISMATCH, F.PRT_PKEY_STAT_REFUSED, F.PRT_PKEY_STAT_LAST_KEY]
  | .PRT_PKEY_DROP => [F.PRT_PKEY_DROP_COUNT]
  | .PRT_PKEY_REFUSE => [F.PRT_PKEY_REFUSE_COUNT]
  | .PRT_CM_THRESH => [F.PRT_CM_THRESH_THRESH]
  | .PRT_CM_MARKED => [F.PRT_CM_MARKED_COUNT]
  | .PRT_RC_PROF => [F.PRT_RC_PROF_MIN, F.PRT_RC_PROF_MAX]
  | .PRT_RC_PROF2 => [F.PRT_RC_PROF2_DEC_SHIFT, F.PRT_RC_PROF2_INC_STEP, F.PRT_RC_PROF2_PERIOD]
  | .PRT_FLOW_RATE => [F.PRT_FLOW_RATE_RATE, F.PRT_FLOW_RATE_PROFILE, F.PRT_FLOW_RATE_PACED, F.PRT_FLOW_RATE_VALID]
  | .PRT_CMAP_CTRL => [F.PRT_CMAP_CTRL_SNAP, F.PRT_CMAP_CTRL_SNAP_AT_EN, F.PRT_CMAP_CTRL_SAMPLE_LOG2]
  | .PRT_CMAP_STAT => [F.PRT_CMAP_STAT_DONE, F.PRT_CMAP_STAT_SNAPS]
  | .PRT_CMAP_AT => [F.PRT_CMAP_AT_TIME]
  | .PRT_CMAP_TAKEN => [F.PRT_CMAP_TAKEN_TIME]
  | .PRT_CMAP => [F.PRT_CMAP_COUNT]
  | .PRT_SCH_CFG => [F.PRT_SCH_CFG_OVH, F.PRT_SCH_CFG_TC0_CR, F.PRT_SCH_CFG_LOOKAHEAD, F.PRT_SCH_CFG_GATE_EN]
  | .PRT_SCH_TCQ => [F.PRT_SCH_TCQ_TC3, F.PRT_SCH_TCQ_TC4, F.PRT_SCH_TCQ_TC5, F.PRT_SCH_TCQ_TC6, F.PRT_SCH_TCQ_TC7]
  | .PRT_SCH_STAT => [F.PRT_SCH_STAT_CFG_REJECT, F.PRT_SCH_STAT_FRESH_REJECT, F.PRT_SCH_STAT_GATE_STALE, F.PRT_SCH_STAT_GATE_REPLACED, F.PRT_SCH_STAT_ACTIVE, F.PRT_SCH_STAT_PENDING]
  | .PRT_GATE_AT => [F.PRT_GATE_AT_TIME]
  | .PRT_GATE_LEN => [F.PRT_GATE_LEN_LEN_A, F.PRT_GATE_LEN_LEN_B]
  | .PRT_POL_CFG => [F.PRT_POL_CFG_REMARK_TC]
  | .PRT_SCH_AGE => [F.PRT_SCH_AGE_AGE7]
  | .PRT_SCH_AGED => [F.PRT_SCH_AGED_COUNT]
  | .PRT_POL_REMARK => [F.PRT_POL_REMARK_COUNT]
  | .PRT_GATE_TAKE => [F.PRT_GATE_TAKE_COUNT]
  | .PRT_SCH_WQ => [F.PRT_SCH_WQ_WEIGHT, F.PRT_SCH_WQ_BURST, F.PRT_SCH_WQ_FRESH]
  | .PRT_SHP_Q => [F.PRT_SHP_Q_RATE, F.PRT_SHP_Q_BURST]
  | .PRT_SHP_QTOK => [F.PRT_SHP_QTOK_TOKENS]
  | .PRT_SHP_C => [F.PRT_SHP_C_RATE, F.PRT_SHP_C_BURST]
  | .PRT_SHP_CTOK => [F.PRT_SHP_CTOK_TOKENS]
  | .PRT_POL => [F.PRT_POL_RATE, F.PRT_POL_BURST]
  | .PRT_GATE => [F.PRT_GATE_DURATION, F.PRT_GATE_MASK]
  | .MST_MH_STAT => [F.MST_MH_STAT_YARDS, F.MST_MH_STAT_BOUND_NS]
  | .YRD_COLL_OVF => [F.YRD_COLL_OVF_EN, F.YRD_COLL_OVF_BASE]
  | .YRD_COLL_STAT => [F.YRD_COLL_STAT_PROM_STOP, F.YRD_COLL_STAT_PROM_FULL, F.YRD_COLL_STAT_OVF_USED, F.YRD_COLL_STAT_STRAY, F.YRD_COLL_STAT_SEAL_FAIL, F.YRD_COLL_STAT_TIMEOUT, F.YRD_COLL_STAT_SELFTEST_FAIL, F.YRD_COLL_STAT_CFG_REJECT]
  | .YRD_COLL_OPEN => [F.YRD_COLL_OPEN_COUNT]
  | .YRD_COLL_STG_FREE => [F.YRD_COLL_STG_FREE_KIB]
  | .YRD_COLL_PROM_FREE => [F.YRD_COLL_PROM_FREE_FREE]
  | .YRD_COLL_PROM_RESUME => [F.YRD_COLL_PROM_RESUME_RESUME]
  | .YRD_COLL_STRAY => [F.YRD_COLL_STRAY_COUNT]
  | .YRD_COLL_SEAL_FAIL => [F.YRD_COLL_SEAL_FAIL_COUNT]
  | .YRD_COLL_TIMEOUT => [F.YRD_COLL_TIMEOUT_COUNT]
  | .YRD_COLL_OVF_CNT => [F.YRD_COLL_OVF_CNT_COUNT]
  | .YRD_CPS_MAP => [F.YRD_CPS_MAP_PHYS, F.YRD_CPS_MAP_FAILED, F.YRD_CPS_MAP_MOVED_TO]
  | .CPS_STAT => [F.CPS_STAT_IN_SERVICE, F.CPS_STAT_SPARE, F.CPS_STAT_FAILED, F.CPS_STAT_ST_FAIL, F.CPS_STAT_LOGICAL]
  | .CPS_CHUNKS => [F.CPS_CHUNKS_COUNT]
  | .CPS_PROMOTED => [F.CPS_PROMOTED_COUNT]
  | .CPS_ST_RUNS => [F.CPS_ST_RUNS_COUNT]
  | .CPS_ST_CTRL => [F.CPS_ST_CTRL_RUN, F.CPS_ST_CTRL_BUSY]
  | .CPS_LATE => [F.CPS_LATE_COUNT]
  | .SAL_CLEAT => [F.SAL_CLEAT_OWNER, F.SAL_CLEAT_EPOCH]
  | .SAL_CLEAT_STATUS => [F.SAL_CLEAT_STATUS_STATUS_A, F.SAL_CLEAT_STATUS_STATUS_B, F.SAL_CLEAT_STATUS_STATUS_C, F.SAL_CLEAT_STATUS_STATUS_D, F.SAL_CLEAT_STATUS_WINNER, F.SAL_CLEAT_STATUS_PREV]
  | .SAL_BANK_PWR => [F.SAL_BANK_PWR_RET, F.SAL_BANK_PWR_IN_RET]
  | .SAL_BANK_WAKES => [F.SAL_BANK_WAKES_COUNT]
  | .SAL_OWNER_DROP => [F.SAL_OWNER_DROP_COUNT]
  | .BSE_CLEAT => [F.BSE_CLEAT_OWNER, F.BSE_CLEAT_EPOCH]
  | .BSE_CLEAT_STATUS => [F.BSE_CLEAT_STATUS_STATUS_A, F.BSE_CLEAT_STATUS_STATUS_B, F.BSE_CLEAT_STATUS_STATUS_C, F.BSE_CLEAT_STATUS_STATUS_D, F.BSE_CLEAT_STATUS_WINNER, F.BSE_CLEAT_STATUS_PREV]
  | .BSE_BANK_PWR => [F.BSE_BANK_PWR_RET, F.BSE_BANK_PWR_IN_RET]
  | .BSE_BANK_WAKES => [F.BSE_BANK_WAKES_COUNT]
  | .BSE_OWNER_DROP => [F.BSE_OWNER_DROP_COUNT]
  | .MST_OWNER_MAP => [F.MST_OWNER_MAP_TACKLE, F.MST_OWNER_MAP_VALID]
  | .BSE_STK_CTRL => [F.BSE_STK_CTRL_SR_REQ, F.BSE_STK_CTRL_AUTO_SR, F.BSE_STK_CTRL_IDLE_US]
  | .BSE_STK_STAT => [F.BSE_STK_STAT_READY, F.BSE_STK_STAT_IN_SR, F.BSE_STK_STAT_CA_RETRY, F.BSE_STK_STAT_CA_FATAL, F.BSE_STK_STAT_TEST_FAIL]
  | .BSE_STK_CA_RETRY => [F.BSE_STK_CA_RETRY_COUNT]
  | .BSE_STK_SR_EXITS => [F.BSE_STK_SR_EXITS_COUNT]
  | .BSE_STK_RD_BYTES => [F.BSE_STK_RD_BYTES_COUNT]
  | .BSE_STK_WR_BYTES => [F.BSE_STK_WR_BYTES_COUNT]
  | .BSE_CLEAT_ECC => [F.BSE_CLEAT_ECC_CORRECTED]
  | .TCK_STAT => [F.TCK_STAT_READY, F.TCK_STAT_BUSY, F.TCK_STAT_MASKED, F.TCK_STAT_HALTED, F.TCK_STAT_WAITING, F.TCK_STAT_INFLIGHT, F.TCK_STAT_EPOCH]
  | .TCK_ERR => [F.TCK_ERR_CMD_ERR, F.TCK_ERR_REJECT, F.TCK_ERR_OWNER, F.TCK_ERR_TIMEOUT, F.TCK_ERR_SEQ, F.TCK_ERR_CTRL_CHECK]
  | .TCK_ERR_FIRST => [F.TCK_ERR_FIRST_STATUS, F.TCK_ERR_FIRST_QUEUE, F.TCK_ERR_FIRST_OPCODE]
  | .TCK_ERR_INDEX => [F.TCK_ERR_INDEX_INDEX]
  | .TCK_IRQ_EN => [F.TCK_IRQ_EN_EN]
  | .TCK_DONE => [F.TCK_DONE_COUNT]
  | .TCK_QCFG => [F.TCK_QCFG_REC_RING, F.TCK_QCFG_REC_EN, F.TCK_QCFG_STOP_ON_ERR]
  | .TCK_QCTL => [F.TCK_QCTL_RESUME]
  | .TCK_ARITH => [F.TCK_ARITH_FLUSH, F.TCK_ARITH_SAT, F.TCK_ARITH_NAN_IN, F.TCK_ARITH_ANCH_LOW, F.TCK_ARITH_ANCH_HIGH, F.TCK_ARITH_WIRE_INEXACT, F.TCK_ARITH_PROMOTED]
  | .TCK_QIDX => [F.TCK_QIDX_INDEX]
  | .SEQ_CTR => [F.SEQ_CTR_VALUE]
  | .SEQ_STAT => [F.SEQ_STAT_SLOT_VALID, F.SEQ_STAT_SLOT_BUSY, F.SEQ_STAT_AG_BUSY, F.SEQ_STAT_CMP]
  | .SEQ_STREAMS => [F.SEQ_STREAMS_COUNT]
  | .MST_FLOW_TMPL => [F.MST_FLOW_TMPL_PKEY, F.MST_FLOW_TMPL_TC, F.MST_FLOW_TMPL_PROFILE, F.MST_FLOW_TMPL_VALID]
  | .MST_FLOW_TMPL1 => [F.MST_FLOW_TMPL1_RING, F.MST_FLOW_TMPL1_RING_EN, F.MST_FLOW_TMPL1_TIMER]
  | .MST_FLOW_TMPL2 => [F.MST_FLOW_TMPL2_CTR_TACKLE, F.MST_FLOW_TMPL2_CTR, F.MST_FLOW_TMPL2_CTR_EN]
  | .SAL_CORE_OK => [F.SAL_CORE_OK_CORES]
  | .SAL_VEC_OK => [F.SAL_VEC_OK_ENG]
  | .SAL_MERGE_CNT => [F.SAL_MERGE_CNT_COUNT]
  | .SAL_CORE_BUSY => [F.SAL_CORE_BUSY_CYCLES]
  | .SAL_VEC_BUSY => [F.SAL_VEC_BUSY_CYCLES]
  | .BSE_VEC_OK => [F.BSE_VEC_OK_ENG]
  | .BSE_ATTN_CNT => [F.BSE_ATTN_CNT_COUNT]
  | .BSE_ATTN_WAIT => [F.BSE_ATTN_WAIT_CYCLES]
  | .BSE_VEC_BUSY => [F.BSE_VEC_BUSY_CYCLES]
  | .FLT_STAT => [F.FLT_STAT_SRC]
  | .FLT_IRQ_EN => [F.FLT_IRQ_EN_EN]
  | .FLT_FATAL_EN => [F.FLT_FATAL_EN_EN]
  | .FLT_MERGED => [F.FLT_MERGED_COUNT]
  | .FLT_COR_CNT => [F.FLT_COR_CNT_COUNT]
  | .XING_DISCARD => [F.XING_DISCARD_COUNT]
  | .MST_FAULT_STAT => [F.MST_FAULT_STAT_PULSED, F.MST_FAULT_STAT_ASSERTED, F.MST_FAULT_STAT_HEADLESS, F.MST_FAULT_STAT_FIRST_DIE]
  | .MST_FAULT_HOLD => [F.MST_FAULT_HOLD_HOLD]
  | .MST_FAULT_TIME => [F.MST_FAULT_TIME_TIME]
  | .MST_MGMT_CMD => [F.MST_MGMT_CMD_TARGET, F.MST_MGMT_CMD_EPOCH, F.MST_MGMT_CMD_OP, F.MST_MGMT_CMD_KEY]
  | .MST_MGMT_STAT => [F.MST_MGMT_STAT_BUSY, F.MST_MGMT_STAT_REJECTED, F.MST_MGMT_STAT_STATUS, F.MST_MGMT_STAT_EPOCH_SEEN]
  | .OPM_CTRL => [F.OPM_CTRL_EN, F.OPM_CTRL_ALLOW_EN, F.OPM_CTRL_FLUSH, F.OPM_CTRL_DUMP, F.OPM_CTRL_RING_EN, F.OPM_CTRL_RING]
  | .OPM_STAT => [F.OPM_STAT_LEDGER_ERR, F.OPM_STAT_PRESENT]
  | .OPM_BUS_CFG => [F.OPM_BUS_CFG_MODE]
  | .OPM_LIFE_CFG => [F.OPM_LIFE_CFG_PCT, F.OPM_LIFE_CFG_DRIFT_LIM]
  | .OPM_LIFE_DEF => [F.OPM_LIFE_DEF_RATED]
  | .OPM_ALLOW => [F.OPM_ALLOW_HASH]
  | .OPM_ALLOW2 => [F.OPM_ALLOW2_RATED, F.OPM_ALLOW2_VALID]
  | .OPM_SLOT_STAT => [F.OPM_SLOT_STAT_STATE, F.OPM_SLOT_STAT_PRESENT, F.OPM_SLOT_STAT_INT, F.OPM_SLOT_STAT_LIFE, F.OPM_SLOT_STAT_BUS_ERR]
  | .OPM_SLOT_CFG => [F.OPM_SLOT_CFG_MANUAL, F.OPM_SLOT_CFG_REINIT]
  | .OPM_SLOT_MIN => [F.OPM_SLOT_MIN_LASER_MIN]
  | .OPM_SLOT_ID => [F.OPM_SLOT_ID_PART_HASH]
  | .OPM_PASS_CTRL => [F.OPM_PASS_CTRL_SLOT, F.OPM_PASS_CTRL_PAGE, F.OPM_PASS_CTRL_BYTE, F.OPM_PASS_CTRL_WRITE, F.OPM_PASS_CTRL_GO]
  | .OPM_PASS_DATA => [F.OPM_PASS_DATA_DATA, F.OPM_PASS_DATA_BUSY, F.OPM_PASS_DATA_STATUS]
  | .TRC_Q => [F.TRC_Q_RING, F.TRC_Q_MARK_EN, F.TRC_Q_CMD_EN]
  | .TRC_STAT => [F.TRC_STAT_LEVEL]
  | .TRC_RECS => [F.TRC_RECS_COUNT]
  | .TRC_STALL => [F.TRC_STALL_CYCLES]
  | .TRC_DISCARD => [F.TRC_DISCARD_COUNT]
  | .PRT_DROP_CFG => [F.PRT_DROP_CFG_RATE_LOG2, F.PRT_DROP_CFG_EN, F.PRT_DROP_CFG_RING]
  | .PRT_DROP_CNT => [F.PRT_DROP_CNT_COUNT]
  | .MST_TEL_CFG => [F.MST_TEL_CFG_PERIOD_LOG2, F.MST_TEL_CFG_COUNT, F.MST_TEL_CFG_EN, F.MST_TEL_CFG_RING]
  | .MST_TEL_STAT => [F.MST_TEL_STAT_CFG_REJECT]
  | .MST_TEL_SKIPPED => [F.MST_TEL_SKIPPED_COUNT]
  | .MST_TEL_ADDR => [F.MST_TEL_ADDR_ADDR, F.MST_TEL_ADDR_SIZE64]
  | .MST_SNAP_CTRL => [F.MST_SNAP_CTRL_GO, F.MST_SNAP_CTRL_AT_EN, F.MST_SNAP_CTRL_AUTO_FATAL, F.MST_SNAP_CTRL_HALT_ALL, F.MST_SNAP_CTRL_RING_EN, F.MST_SNAP_CTRL_RING]
  | .MST_SNAP_AT => [F.MST_SNAP_AT_TIME]
  | .MST_SNAP_STAT => [F.MST_SNAP_STAT_BUSY, F.MST_SNAP_STAT_TRUNC, F.MST_SNAP_STAT_SNAPS]
  | .MST_SNAP_MISSED => [F.MST_SNAP_MISSED_COUNT]
  | .MST_SNAP_TIME => [F.MST_SNAP_TIME_TIME]
  | .SNS_TEMP => [F.SNS_TEMP_TEMP, F.SNS_TEMP_VALID]
  | .SNS_REM => [F.SNS_REM_TEMP, F.SNS_REM_VALID, F.SNS_REM_OPEN_NOW]
  | .SNS_REM_CFG => [F.SNS_REM_CFG_R25, F.SNS_REM_CFG_BETA]
  | .SNS_REM_RES => [F.SNS_REM_RES_OHMS]
  | .SNS_STAT => [F.SNS_STAT_OPEN_A, F.SNS_STAT_OPEN_B, F.SNS_STAT_INLET_HIGH, F.SNS_STAT_DIODE_BAD, F.SNS_STAT_THROTTLED]
  | .SNS_LIMITS => [F.SNS_LIMITS_INLET_MAX]
  | .SNS_SAIL_THR => [F.SNS_SAIL_THR_HI, F.SNS_SAIL_THR_LO]
  | .SNS_TRIP_SRC => [F.SNS_TRIP_SRC_SENSOR]
  | .PWR_RAIL_STAT => [F.PWR_RAIL_STAT_GOOD]
  | .PWR_VSAIL => [F.PWR_VSAIL_MV]
  | .PWR_SAIL_CTRL => [F.PWR_SAIL_CTRL_RATIO, F.PWR_SAIL_CTRL_FORCE]
  | .PWR_SAIL_STAT => [F.PWR_SAIL_STAT_RATIO, F.PWR_SAIL_STAT_CHANGING, F.PWR_SAIL_STAT_REJECTED, F.PWR_SAIL_STAT_LEVEL, F.PWR_SAIL_STAT_HOT]
  | .PWR_SAIL_THR_CNT => [F.PWR_SAIL_THR_CNT_COUNT]
  | .PWR_SAIL_RATIO_CNT => [F.PWR_SAIL_RATIO_CNT_COUNT]
  | .MST_COLL_DESC => [F.MST_COLL_DESC_WORD]
  | .MST_DESC => [F.MST_DESC_WORD]
  | .MST_RECOVERY => [F.MST_RECOVERY_WORD]

/-- Registers and where they lie (part 1). -/
def regDescs0 : List RegDesc := [
  ⟨.MST_IDENT, .mast, 0x0, [], 32, .gen⟩,
  ⟨.MST_UNITS, .mast, 0x4, [], 32, .gen⟩,
  ⟨.MST_CLK_STAT, .mast, 0x100, [], 32, .gen⟩,
  ⟨.MST_PLL_LOCK, .mast, 0x104, [], 32, .gen⟩,
  ⟨.MST_HOIST_STAT, .mast, 0x108, [], 32, .gen⟩,
  ⟨.MST_CLKON, .mast, 0x200, [(48, 0x4, 0)], 32, .gen⟩,
  ⟨.MST_CLK_HOLD, .mast, 0x300, [(48, 0x4, 0)], 32, .gen⟩,
  ⟨.FAB_TIME, .mast, 0x400, [], 64, .gen⟩,
  ⟨.FAB_STEP, .mast, 0x408, [], 64, .helm⟩,
  ⟨.FAB_CTRL, .mast, 0x410, [], 32, .gen⟩,
  ⟨.FAB_STAT, .mast, 0x414, [], 32, .gen⟩,
  ⟨.FAB_PEER_OFS, .port, 0x40000, [(32, 0x10, 0)], 64, .gen⟩,
  ⟨.FAB_PEER_DLY, .port, 0x40008, [(32, 0x10, 0)], 32, .gen⟩,
  ⟨.FAB_ASYM, .port, 0x4000c, [(32, 0x10, 0)], 32, .gen⟩,
  ⟨.MST_DET_CTRL, .mast, 0x800, [], 32, .gen⟩,
  ⟨.MST_DET_ANCHOR, .mast, 0x808, [], 64, .gen⟩,
  ⟨.MST_DET_STAT, .mast, 0x810, [], 32, .gen⟩,
  ⟨.MST_TDC_TOTAL, .mast, 0x818, [], 64, .gen⟩,
  ⟨.MST_TDC_FIRST, .mast, 0x820, [], 64, .gen⟩,
  ⟨.MST_TDC_FIRST_SRC, .mast, 0x828, [], 32, .gen⟩,
  ⟨.MST_TDC_CNT, .mast, 0x840, [(16, 0x4, 0)], 32, .gen⟩,
  ⟨.MST_PLAN_DIGEST, .mast, 0x880, [(8, 0x4, 0)], 32, .gen⟩,
  ⟨.MST_DIG_STAT, .mast, 0x8c0, [], 32, .gen⟩,
  ⟨.MST_READY, .mast, 0xa00, [], 32, .gen⟩,
  ⟨.MST_READY_STACK, .mast, 0xa04, [], 32, .gen⟩,
  ⟨.MST_BOOT_STAT, .mast, 0xa10, [], 32, .gen⟩,
  ⟨.MST_BOOT_CTRL, .mast, 0xa14, [], 32, .helm⟩,
  ⟨.MST_SEC_FUSE, .mast, 0xa18, [], 32, .gen⟩,
  ⟨.MST_FUSE_PROG, .mast, 0xa1c, [], 32, .helmOnly⟩,
  ⟨.MST_RST_REQ, .mast, 0xa20, [], 32, .helm⟩,
  ⟨.MST_RST_STAT, .mast, 0xa24, [], 32, .gen⟩,
  ⟨.MST_RST_CAUSE, .mast, 0xa28, [], 32, .gen⟩,
  ⟨.MST_HELM, .mast, 0xc0000, [], 32, .helm⟩,
  ⟨.MST_PROT_GEN, .mast, 0xc0004, [], 32, .gen⟩,
  ⟨.MST_PROT_DRAINED, .mast, 0xc0008, [], 32, .gen⟩,
  ⟨.MST_PROT_STAT, .mast, 0xc000c, [], 32, .gen⟩,
  ⟨.MST_LOCK, .mast, 0xc0010, [], 32, .helmOnly⟩,
  ⟨.MST_QMAP, .mast, 0xc0100, [(26, 0x4, 0)], 32, .helm⟩,
  ⟨.MST_PROT_APER, .mast, 0xc0200, [(4, 0x4, 0)], 32, .helm⟩,
  ⟨.HST_PORT_STAT, .mast, 0x100000, [(4, 0x20000, 0)], 32, .port⟩]

/-- Registers and where they lie (part 2). -/
def regDescs1 : List RegDesc := [
  ⟨.HST_PORT_ERR, .mast, 0x100004, [(4, 0x20000, 0)], 32, .port⟩,
  ⟨.HST_APER_BASE, .mast, 0x100008, [(4, 0x20000, 0)], 64, .port⟩,
  ⟨.HST_IND_ADDR, .mast, 0x100010, [(4, 0x20000, 0)], 64, .port⟩,
  ⟨.HST_IND_DATA, .mast, 0x100018, [(4, 0x20000, 0)], 64, .port⟩,
  ⟨.HST_IND_CTRL, .mast, 0x100020, [(4, 0x20000, 0)], 32, .port⟩,
  ⟨.HST_IND_STAT, .mast, 0x100024, [(4, 0x20000, 0)], 32, .port⟩,
  ⟨.HST_CR_CFG, .mast, 0x101000, [(4, 0x20000, 0), (17, 0x1000, 0), (32, 0x40, 0)], 32, .fn⟩,
  ⟨.HST_CR_CTRL, .mast, 0x101004, [(4, 0x20000, 0), (17, 0x1000, 0), (32, 0x40, 0)], 32, .fn⟩,
  ⟨.HST_CR_STAT, .mast, 0x101008, [(4, 0x20000, 0), (17, 0x1000, 0), (32, 0x40, 0)], 32, .fn⟩,
  ⟨.HST_CR_COUNT, .mast, 0x101010, [(4, 0x20000, 0), (17, 0x1000, 0), (32, 0x40, 0)], 64, .fn⟩,
  ⟨.HST_CR_DB, .mast, 0x101018, [(4, 0x20000, 0), (17, 0x1000, 0), (32, 0x40, 0)], 64, .fn⟩,
  ⟨.HST_RR_BASE, .mast, 0x101800, [(4, 0x20000, 0), (17, 0x1000, 0), (16, 0x40, 0)], 64, .fn⟩,
  ⟨.HST_RR_CFG, .mast, 0x101808, [(4, 0x20000, 0), (17, 0x1000, 0), (16, 0x40, 0)], 32, .fn⟩,
  ⟨.HST_RR_CTRL, .mast, 0x10180c, [(4, 0x20000, 0), (17, 0x1000, 0), (16, 0x40, 0)], 32, .fn⟩,
  ⟨.HST_RR_STAT, .mast, 0x101810, [(4, 0x20000, 0), (17, 0x1000, 0), (16, 0x40, 0)], 32, .fn⟩,
  ⟨.HST_RR_COUNT, .mast, 0x101818, [(4, 0x20000, 0), (17, 0x1000, 0), (16, 0x40, 0)], 64, .fn⟩,
  ⟨.HST_RR_DISCARD, .mast, 0x101820, [(4, 0x20000, 0), (17, 0x1000, 0), (16, 0x40, 0)], 32, .fn⟩,
  ⟨.LNE_CTRL, .port, 0x100000, [(132, 0x100, 0)], 32, .gen⟩,
  ⟨.LNE_STAT, .port, 0x100004, [(132, 0x100, 0)], 32, .gen⟩,
  ⟨.LNE_LAT, .port, 0x100008, [(132, 0x100, 0)], 32, .gen⟩,
  ⟨.LNE_TXEQ, .port, 0x100010, [(132, 0x100, 0)], 32, .gen⟩,
  ⟨.LNE_RXEQ, .port, 0x100014, [(132, 0x100, 0)], 32, .gen⟩,
  ⟨.LNE_EYE_CTRL, .port, 0x100018, [(132, 0x100, 0)], 32, .gen⟩,
  ⟨.LNE_EYE, .port, 0x10001c, [(132, 0x100, 0)], 32, .gen⟩,
  ⟨.LNE_FEC_CW, .port, 0x100020, [(132, 0x100, 0)], 64, .gen⟩,
  ⟨.LNE_FEC_CORR, .port, 0x100028, [(132, 0x100, 0)], 64, .gen⟩,
  ⟨.LNE_FEC_UCW, .port, 0x100030, [(132, 0x100, 0)], 32, .gen⟩,
  ⟨.LNE_UCW_LIMIT, .port, 0x100034, [(132, 0x100, 0)], 32, .gen⟩,
  ⟨.LNE_CTRL_RSVD, .port, 0x100038, [(132, 0x100, 0)], 32, .gen⟩,
  ⟨.LNE_FEC_HIST, .port, 0x100040, [(132, 0x100, 0), (16, 0x4, 0)], 32, .gen⟩,
  ⟨.LNE_CAPS_PEER, .port, 0x100080, [(132, 0x100, 0), (8, 0x4, 0)], 32, .gen⟩,
  ⟨.LNE_SPARE, .port, 0x110000, [(4, 0x4, 0)], 32, .gen⟩,
  ⟨.PRT_PORT_CFG, .port, 0x20000, [(32, 0x20, 0)], 32, .helm⟩,
  ⟨.PRT_PORT_STAT, .port, 0x20004, [(32, 0x20, 0)], 32, .gen⟩,
  ⟨.PRT_PORT_LIVE, .port, 0x20008, [(32, 0x20, 0)], 32, .gen⟩,
  ⟨.PRT_PORT_REEF, .port, 0x2000c, [(32, 0x20, 0)], 32, .helm⟩,
  ⟨.PRT_LNK_CFG, .port, 0x30000, [(32, 0x80, 0)], 32, .helm⟩,
  ⟨.PRT_LNK_STAT, .port, 0x30004, [(32, 0x80, 0)], 32, .gen⟩,
  ⟨.PRT_LNK_CR0, .port, 0x30008, [(32, 0x80, 0)], 32, .gen⟩,
  ⟨.PRT_LNK_CR1, .port, 0x3000c, [(32, 0x80, 0)], 32, .gen⟩]

/-- Registers and where they lie (part 3). -/
def regDescs2 : List RegDesc := [
  ⟨.PRT_LNK_ERR, .port, 0x30010, [(32, 0x80, 0)], 32, .gen⟩,
  ⟨.PRT_LNK_REPLAY, .port, 0x30014, [(32, 0x80, 0)], 32, .gen⟩,
  ⟨.PRT_LNK_NAK_TX, .port, 0x30018, [(32, 0x80, 0)], 32, .gen⟩,
  ⟨.PRT_LNK_BAD, .port, 0x3001c, [(32, 0x80, 0)], 32, .gen⟩,
  ⟨.PRT_LNK_DUP, .port, 0x30020, [(32, 0x80, 0)], 32, .gen⟩,
  ⟨.PRT_LNK_ABORT_RX, .port, 0x30024, [(32, 0x80, 0)], 32, .gen⟩,
  ⟨.PRT_LNK_ABORT_TX, .port, 0x30028, [(32, 0x80, 0)], 32, .gen⟩,
  ⟨.PRT_LNK_MALFORMED, .port, 0x3002c, [(32, 0x80, 0)], 32, .gen⟩,
  ⟨.PRT_LNK_LOST, .port, 0x30030, [(32, 0x80, 0)], 32, .gen⟩,
  ⟨.PRT_LNK_TIMEX_LOST, .port, 0x30034, [(32, 0x80, 0)], 32, .gen⟩,
  ⟨.YRD_POOL_CFG, .yard, 0x10000, [], 32, .helm⟩,
  ⟨.YRD_POOL_RSV, .yard, 0x10004, [], 32, .helm⟩,
  ⟨.YRD_POOL_FREE_S, .yard, 0x10008, [], 32, .gen⟩,
  ⟨.YRD_POOL_FREE_L, .yard, 0x1000c, [], 32, .gen⟩,
  ⟨.YRD_POOL_STAT, .yard, 0x10010, [], 32, .gen⟩,
  ⟨.YRD_FALLBACK_CNT, .yard, 0x10014, [], 32, .gen⟩,
  ⟨.YRD_STALL_CNT, .yard, 0x10018, [], 32, .gen⟩,
  ⟨.YRD_AUDIT_CTRL, .yard, 0x10020, [], 32, .gen⟩,
  ⟨.YRD_AUDIT_SEL, .yard, 0x10024, [], 32, .gen⟩,
  ⟨.YRD_AUDIT_CNT, .yard, 0x10028, [], 64, .gen⟩,
  ⟨.YRD_AUDIT_PASS, .yard, 0x10030, [], 32, .gen⟩,
  ⟨.YRD_AUDIT_LEAK, .yard, 0x10034, [], 32, .gen⟩,
  ⟨.YRD_AUDIT_FIRST, .yard, 0x10038, [], 32, .gen⟩,
  ⟨.YRD_ORPHAN_FREED, .yard, 0x1003c, [], 32, .gen⟩,
  ⟨.PRT_SPRAY, .port, 0x50000, [(36, 0x4, 0)], 32, .helm⟩,
  ⟨.PRT_CUT_CFG, .port, 0x50100, [], 32, .helm⟩,
  ⟨.PRT_RSQ_CFG, .port, 0x50104, [], 32, .gen⟩,
  ⟨.PRT_RSQ_STAT, .port, 0x50108, [], 32, .gen⟩,
  ⟨.PRT_RSQ_LOST, .port, 0x5010c, [], 32, .gen⟩,
  ⟨.PRT_RSQ_DROP, .port, 0x50110, [], 32, .gen⟩,
  ⟨.PRT_DESC_FREE, .port, 0x50114, [], 32, .gen⟩,
  ⟨.PRT_SW_CUT, .port, 0x51000, [(32, 0x20, 0)], 32, .gen⟩,
  ⟨.PRT_SW_STORE, .port, 0x51004, [(32, 0x20, 0)], 32, .gen⟩,
  ⟨.PRT_FLUSH_PKTS, .port, 0x51008, [(32, 0x20, 0)], 32, .gen⟩,
  ⟨.PRT_FLUSH_CELLS, .port, 0x5100c, [(32, 0x20, 0)], 32, .gen⟩,
  ⟨.PRT_FLUSH_STAT, .port, 0x51010, [(32, 0x20, 0)], 32, .gen⟩,
  ⟨.PRT_DOWN_DROP, .port, 0x51014, [(32, 0x20, 0)], 32, .gen⟩,
  ⟨.MST_FABADDR, .mast, 0xc00, [], 32, .helm⟩,
  ⟨.MST_MC_STAT, .mast, 0xc04, [], 32, .helm⟩,
  ⟨.MST_MC_CTL, .mast, 0x200000, [(4096, 0x80, 0)], 32, .helm⟩]

/-- Registers and where they lie (part 4). -/
def regDescs3 : List RegDesc := [
  ⟨.MST_MC_LOCAL, .mast, 0x200004, [(4096, 0x80, 0), (8, 0x4, 0)], 32, .helm⟩,
  ⟨.MST_MC_PEER, .mast, 0x200024, [(4096, 0x80, 0), (8, 0x4, 0)], 32, .helm⟩,
  ⟨.PRT_RT_PORT, .port, 0x60000, [(32, 0x4, 0)], 32, .helm⟩,
  ⟨.PRT_RT_LOCAL, .port, 0x60100, [(32, 0x4, 0)], 32, .helm⟩,
  ⟨.PRT_RT_NOROUTE, .port, 0x60200, [], 32, .gen⟩,
  ⟨.PRT_RT_DETOUR, .port, 0x60204, [], 32, .gen⟩,
  ⟨.PRT_RT_TRANSIT, .port, 0x60208, [], 32, .gen⟩,
  ⟨.PRT_RT_MISROUTE, .port, 0x6020c, [], 32, .gen⟩,
  ⟨.PRT_FL_CTL, .port, 0x61000, [(3, 0x200, 1), (16, 0x20, 0)], 32, .helm⟩,
  ⟨.PRT_FL_PORTS, .port, 0x61004, [(3, 0x200, 1), (16, 0x20, 0), (2, 0x4, 0)], 32, .helm⟩,
  ⟨.PRT_FL_SEL_LO, .port, 0x6100c, [(3, 0x200, 1), (16, 0x20, 0)], 32, .helm⟩,
  ⟨.PRT_FL_SEL_HI, .port, 0x61010, [(3, 0x200, 1), (16, 0x20, 0)], 32, .helm⟩,
  ⟨.PRT_PKEY, .port, 0x70000, [(32, 0x100, 0), (64, 0x4, 0)], 32, .helm⟩,
  ⟨.PRT_PKEY_STAT, .port, 0x72000, [(32, 0x10, 0)], 32, .gen⟩,
  ⟨.PRT_PKEY_DROP, .port, 0x72004, [(32, 0x10, 0)], 32, .gen⟩,
  ⟨.PRT_PKEY_REFUSE, .port, 0x72008, [(32, 0x10, 0)], 32, .gen⟩,
  ⟨.PRT_CM_THRESH, .port, 0x80000, [(32, 0x4, 0)], 32, .helm⟩,
  ⟨.PRT_CM_MARKED, .port, 0x80080, [(32, 0x4, 0)], 32, .gen⟩,
  ⟨.PRT_RC_PROF, .port, 0x80100, [(8, 0x8, 0)], 32, .helm⟩,
  ⟨.PRT_RC_PROF2, .port, 0x80104, [(8, 0x8, 0)], 32, .helm⟩,
  ⟨.PRT_FLOW_RATE, .port, 0x800000, [(32768, 0x4, 0)], 32, .gen⟩,
  ⟨.PRT_CMAP_CTRL, .port, 0x90000, [], 32, .gen⟩,
  ⟨.PRT_CMAP_STAT, .port, 0x90004, [], 32, .gen⟩,
  ⟨.PRT_CMAP_AT, .port, 0x90008, [], 64, .gen⟩,
  ⟨.PRT_CMAP_TAKEN, .port, 0x90010, [], 64, .gen⟩,
  ⟨.PRT_CMAP, .port, 0x91000, [(32, 0x100, 0), (8, 0x20, 0), (8, 0x4, 0)], 32, .gen⟩,
  ⟨.PRT_SCH_CFG, .port, 0xa0000, [(32, 0x400, 0)], 32, .helm⟩,
  ⟨.PRT_SCH_TCQ, .port, 0xa0004, [(32, 0x400, 0)], 32, .helm⟩,
  ⟨.PRT_SCH_STAT, .port, 0xa0008, [(32, 0x400, 0)], 32, .helm⟩,
  ⟨.PRT_GATE_AT, .port, 0xa0010, [(32, 0x400, 0)], 64, .helm⟩,
  ⟨.PRT_GATE_LEN, .port, 0xa0018, [(32, 0x400, 0)], 32, .helm⟩,
  ⟨.PRT_POL_CFG, .port, 0xa0148, [(32, 0x400, 0)], 32, .helm⟩,
  ⟨.PRT_SCH_AGE, .port, 0xa0150, [(32, 0x400, 0)], 32, .helm⟩,
  ⟨.PRT_SCH_AGED, .port, 0xa0160, [(32, 0x400, 0)], 32, .helm⟩,
  ⟨.PRT_POL_REMARK, .port, 0xa0164, [(32, 0x400, 0)], 32, .helm⟩,
  ⟨.PRT_GATE_TAKE, .port, 0xa0168, [(32, 0x400, 0)], 32, .helm⟩,
  ⟨.PRT_SCH_WQ, .port, 0xa0020, [(32, 0x400, 0), (13, 0x4, 3)], 32, .helm⟩,
  ⟨.PRT_SHP_Q, .port, 0xa0080, [(32, 0x400, 0), (16, 0x8, 0)], 32, .helm⟩,
  ⟨.PRT_SHP_QTOK, .port, 0xa0084, [(32, 0x400, 0), (16, 0x8, 0)], 32, .helm⟩,
  ⟨.PRT_SHP_C, .port, 0xa0100, [(32, 0x400, 0), (8, 0x8, 0)], 32, .helm⟩]

/-- Registers and where they lie (part 5). -/
def regDescs4 : List RegDesc := [
  ⟨.PRT_SHP_CTOK, .port, 0xa0104, [(32, 0x400, 0), (8, 0x8, 0)], 32, .helm⟩,
  ⟨.PRT_POL, .port, 0xa0140, [(32, 0x400, 0), (2, 0x4, 0)], 32, .helm⟩,
  ⟨.PRT_GATE, .port, 0xc0000, [(32, 0x800, 0), (2, 0x400, 0), (256, 0x4, 0)], 32, .helm⟩,
  ⟨.MST_MH_STAT, .mast, 0xc20, [], 32, .gen⟩,
  ⟨.YRD_COLL_OVF, .yard, 0x20000, [], 64, .helm⟩,
  ⟨.YRD_COLL_STAT, .yard, 0x20008, [], 32, .gen⟩,
  ⟨.YRD_COLL_OPEN, .yard, 0x2000c, [], 32, .gen⟩,
  ⟨.YRD_COLL_STG_FREE, .yard, 0x20010, [], 32, .gen⟩,
  ⟨.YRD_COLL_PROM_FREE, .yard, 0x20014, [], 32, .gen⟩,
  ⟨.YRD_COLL_PROM_RESUME, .yard, 0x20018, [], 32, .helm⟩,
  ⟨.YRD_COLL_STRAY, .yard, 0x20020, [], 32, .gen⟩,
  ⟨.YRD_COLL_SEAL_FAIL, .yard, 0x20024, [], 32, .gen⟩,
  ⟨.YRD_COLL_TIMEOUT, .yard, 0x20028, [], 32, .gen⟩,
  ⟨.YRD_COLL_OVF_CNT, .yard, 0x2002c, [], 32, .gen⟩,
  ⟨.YRD_CPS_MAP, .yard, 0x20040, [(16, 0x4, 0)], 32, .gen⟩,
  ⟨.CPS_STAT, .yard, 0x30000, [(17, 0x40, 0)], 32, .gen⟩,
  ⟨.CPS_CHUNKS, .yard, 0x30008, [(17, 0x40, 0)], 64, .gen⟩,
  ⟨.CPS_PROMOTED, .yard, 0x30010, [(17, 0x40, 0)], 32, .gen⟩,
  ⟨.CPS_ST_RUNS, .yard, 0x30014, [(17, 0x40, 0)], 32, .gen⟩,
  ⟨.CPS_ST_CTRL, .yard, 0x30018, [(17, 0x40, 0)], 32, .gen⟩,
  ⟨.CPS_LATE, .yard, 0x3001c, [(17, 0x40, 0)], 32, .gen⟩,
  ⟨.SAL_CLEAT, .sail, 0x10000, [(80, 0x10, 0)], 32, .helm⟩,
  ⟨.SAL_CLEAT_STATUS, .sail, 0x10004, [(80, 0x10, 0)], 32, .gen⟩,
  ⟨.SAL_BANK_PWR, .sail, 0x10008, [(80, 0x10, 0)], 32, .ret⟩,
  ⟨.SAL_BANK_WAKES, .sail, 0x1000c, [(80, 0x10, 0)], 32, .gen⟩,
  ⟨.SAL_OWNER_DROP, .sail, 0x11000, [], 32, .gen⟩,
  ⟨.BSE_CLEAT, .base, 0x10000, [(16, 0x10, 0)], 32, .helm⟩,
  ⟨.BSE_CLEAT_STATUS, .base, 0x10004, [(16, 0x10, 0)], 32, .gen⟩,
  ⟨.BSE_BANK_PWR, .base, 0x10008, [(16, 0x10, 0)], 32, .ret⟩,
  ⟨.BSE_BANK_WAKES, .base, 0x1000c, [(16, 0x10, 0)], 32, .gen⟩,
  ⟨.BSE_OWNER_DROP, .base, 0x11000, [], 32, .gen⟩,
  ⟨.MST_OWNER_MAP, .mast, 0xc0400, [(112, 0x4, 16)], 32, .helm⟩,
  ⟨.BSE_STK_CTRL, .base, 0x20000, [], 32, .helm⟩,
  ⟨.BSE_STK_STAT, .base, 0x20004, [], 32, .gen⟩,
  ⟨.BSE_STK_CA_RETRY, .base, 0x20008, [], 32, .gen⟩,
  ⟨.BSE_STK_SR_EXITS, .base, 0x2000c, [], 32, .gen⟩,
  ⟨.BSE_STK_RD_BYTES, .base, 0x20010, [], 64, .gen⟩,
  ⟨.BSE_STK_WR_BYTES, .base, 0x20018, [], 64, .gen⟩,
  ⟨.BSE_CLEAT_ECC, .base, 0x20020, [], 32, .gen⟩,
  ⟨.TCK_STAT, .face, 0x0, [], 32, .gen⟩]

/-- Registers and where they lie (part 6). -/
def regDescs5 : List RegDesc := [
  ⟨.TCK_ERR, .face, 0x4, [], 32, .gen⟩,
  ⟨.TCK_ERR_FIRST, .face, 0x8, [], 32, .gen⟩,
  ⟨.TCK_ERR_INDEX, .face, 0xc, [], 32, .gen⟩,
  ⟨.TCK_IRQ_EN, .face, 0x10, [], 32, .gen⟩,
  ⟨.TCK_DONE, .face, 0x48, [], 64, .gen⟩,
  ⟨.TCK_QCFG, .face, 0x20, [(4, 0x8, 0)], 32, .qcfg⟩,
  ⟨.TCK_QCTL, .face, 0x24, [(4, 0x8, 0)], 32, .qcfg⟩,
  ⟨.TCK_ARITH, .face, 0x40, [], 32, .gen⟩,
  ⟨.TCK_QIDX, .face, 0x50, [(4, 0x4, 0)], 32, .gen⟩,
  ⟨.SEQ_CTR, .face, 0x80, [(16, 0x4, 0)], 32, .gen⟩,
  ⟨.SEQ_STAT, .face, 0xc0, [], 32, .gen⟩,
  ⟨.SEQ_STREAMS, .face, 0xc4, [], 32, .gen⟩,
  ⟨.MST_FLOW_TMPL, .mast, 0xc0600, [(16, 0x10, 0)], 32, .helm⟩,
  ⟨.MST_FLOW_TMPL1, .mast, 0xc0604, [(16, 0x10, 0)], 32, .helm⟩,
  ⟨.MST_FLOW_TMPL2, .mast, 0xc0608, [(16, 0x10, 0)], 32, .helm⟩,
  ⟨.SAL_CORE_OK, .sail, 0x30000, [], 64, .gen⟩,
  ⟨.SAL_VEC_OK, .sail, 0x30008, [], 32, .gen⟩,
  ⟨.SAL_MERGE_CNT, .sail, 0x30010, [], 64, .gen⟩,
  ⟨.SAL_CORE_BUSY, .sail, 0x30100, [(64, 0x8, 0)], 64, .gen⟩,
  ⟨.SAL_VEC_BUSY, .sail, 0x30300, [(8, 0x8, 0)], 64, .gen⟩,
  ⟨.BSE_VEC_OK, .base, 0x30000, [], 32, .gen⟩,
  ⟨.BSE_ATTN_CNT, .base, 0x30008, [], 32, .gen⟩,
  ⟨.BSE_ATTN_WAIT, .base, 0x3000c, [], 32, .gen⟩,
  ⟨.BSE_VEC_BUSY, .base, 0x30100, [(16, 0x8, 0)], 64, .gen⟩,
  ⟨.FLT_STAT, .anyDie, 0xfe0000, [], 32, .gen⟩,
  ⟨.FLT_IRQ_EN, .anyDie, 0xfe0004, [], 32, .gen⟩,
  ⟨.FLT_FATAL_EN, .anyDie, 0xfe0008, [], 32, .helm⟩,
  ⟨.FLT_MERGED, .anyDie, 0xfe000c, [], 32, .gen⟩,
  ⟨.FLT_COR_CNT, .anyDie, 0xfe0010, [], 32, .gen⟩,
  ⟨.XING_DISCARD, .anyDie, 0xfe0014, [], 32, .gen⟩,
  ⟨.MST_FAULT_STAT, .mast, 0xc40, [], 32, .gen⟩,
  ⟨.MST_FAULT_HOLD, .mast, 0xc44, [], 32, .helm⟩,
  ⟨.MST_FAULT_TIME, .mast, 0xc48, [], 64, .gen⟩,
  ⟨.MST_MGMT_CMD, .mast, 0xc50, [], 64, .helm⟩,
  ⟨.MST_MGMT_STAT, .mast, 0xc58, [], 32, .helm⟩,
  ⟨.OPM_CTRL, .mast, 0x500000, [], 32, .helm⟩,
  ⟨.OPM_STAT, .mast, 0x500004, [], 32, .helm⟩,
  ⟨.OPM_BUS_CFG, .mast, 0x500010, [(16, 0x4, 0)], 32, .helm⟩,
  ⟨.OPM_LIFE_CFG, .mast, 0x500060, [], 32, .helm⟩,
  ⟨.OPM_LIFE_DEF, .mast, 0x500064, [], 32, .helm⟩]

/-- Registers and where they lie (part 7). -/
def regDescs6 : List RegDesc := [
  ⟨.OPM_ALLOW, .mast, 0x500100, [(64, 0x8, 0)], 32, .helm⟩,
  ⟨.OPM_ALLOW2, .mast, 0x500104, [(64, 0x8, 0)], 32, .helm⟩,
  ⟨.OPM_SLOT_STAT, .mast, 0x500400, [(128, 0x10, 0)], 32, .helm⟩,
  ⟨.OPM_SLOT_CFG, .mast, 0x500404, [(128, 0x10, 0)], 32, .helm⟩,
  ⟨.OPM_SLOT_MIN, .mast, 0x500408, [(128, 0x10, 0)], 32, .helm⟩,
  ⟨.OPM_SLOT_ID, .mast, 0x50040c, [(128, 0x10, 0)], 32, .helm⟩,
  ⟨.OPM_PASS_CTRL, .mast, 0x500c00, [], 32, .helm⟩,
  ⟨.OPM_PASS_DATA, .mast, 0x500c04, [], 32, .helm⟩,
  ⟨.TRC_Q, .anyDie, 0xfd0000, [(4, 0x4, 0)], 32, .gen⟩,
  ⟨.TRC_STAT, .anyDie, 0xfd0010, [], 32, .gen⟩,
  ⟨.TRC_RECS, .anyDie, 0xfd0018, [], 64, .gen⟩,
  ⟨.TRC_STALL, .anyDie, 0xfd0020, [], 32, .gen⟩,
  ⟨.TRC_DISCARD, .anyDie, 0xfd0024, [], 32, .gen⟩,
  ⟨.PRT_DROP_CFG, .port, 0xfd0040, [], 32, .gen⟩,
  ⟨.PRT_DROP_CNT, .port, 0xfd0044, [], 32, .gen⟩,
  ⟨.MST_TEL_CFG, .mast, 0x600000, [(8, 0x10, 0)], 32, .gen⟩,
  ⟨.MST_TEL_STAT, .mast, 0x600100, [], 32, .gen⟩,
  ⟨.MST_TEL_SKIPPED, .mast, 0x600104, [], 32, .gen⟩,
  ⟨.MST_TEL_ADDR, .mast, 0x601000, [(8, 0x200, 0), (64, 0x8, 0)], 64, .gen⟩,
  ⟨.MST_SNAP_CTRL, .mast, 0x600400, [], 32, .gen⟩,
  ⟨.MST_SNAP_AT, .mast, 0x600408, [], 64, .gen⟩,
  ⟨.MST_SNAP_STAT, .mast, 0x600410, [], 32, .gen⟩,
  ⟨.MST_SNAP_MISSED, .mast, 0x600414, [], 32, .gen⟩,
  ⟨.MST_SNAP_TIME, .mast, 0x600418, [], 64, .gen⟩,
  ⟨.SNS_TEMP, .mast, 0x700000, [(97, 0x4, 0)], 32, .gen⟩,
  ⟨.SNS_REM, .mast, 0x700200, [(2, 0x10, 0)], 32, .gen⟩,
  ⟨.SNS_REM_CFG, .mast, 0x700204, [(2, 0x10, 0)], 32, .gen⟩,
  ⟨.SNS_REM_RES, .mast, 0x700208, [(2, 0x10, 0)], 32, .gen⟩,
  ⟨.SNS_STAT, .mast, 0x700300, [], 32, .gen⟩,
  ⟨.SNS_LIMITS, .mast, 0x700304, [], 32, .gen⟩,
  ⟨.SNS_SAIL_THR, .mast, 0x700308, [], 32, .gen⟩,
  ⟨.SNS_TRIP_SRC, .mast, 0x70030c, [], 32, .gen⟩,
  ⟨.PWR_RAIL_STAT, .mast, 0x700400, [], 32, .gen⟩,
  ⟨.PWR_VSAIL, .mast, 0x700404, [], 32, .gen⟩,
  ⟨.PWR_SAIL_CTRL, .mast, 0x700410, [(4, 0x10, 0)], 32, .helm⟩,
  ⟨.PWR_SAIL_STAT, .mast, 0x700414, [(4, 0x10, 0)], 32, .gen⟩,
  ⟨.PWR_SAIL_THR_CNT, .mast, 0x700418, [(4, 0x10, 0)], 32, .gen⟩,
  ⟨.PWR_SAIL_RATIO_CNT, .mast, 0x70041c, [(4, 0x10, 0)], 32, .gen⟩,
  ⟨.MST_COLL_DESC, .mast, 0x300000, [(2048, 0xc0, 0), (48, 0x4, 0)], 32, .helm⟩,
  ⟨.MST_DESC, .mast, 0x400000, [(4096, 0x40, 0), (16, 0x4, 0)], 32, .helm⟩]

/-- Registers and where they lie (part 8). -/
def regDescs7 : List RegDesc := [
  ⟨.MST_RECOVERY, .mast, 0x800000, [(1048576, 0x4, 0)], 32, .recovery⟩]

/-- Every register of the device. -/
def regDescs : List RegDesc :=
  regDescs0 ++ regDescs1 ++ regDescs2 ++ regDescs3 ++ regDescs4 ++ regDescs5 ++ regDescs6 ++ regDescs7

end Sys2Proof.Machine
end

