-- ==== Sys2Proof/Machine/State.lean ====
section
/-!
DEFINITION. What the machine holds, as plain data: the register file, memory, and for each chapter of the spec the
state its rules speak of that no register table shows. `State` adds the fuses and the queue of waiting commands.
-/
namespace Sys2Proof.Machine

/-- A die number as MST_QMAP and MST_PLL_LOCK number it: 0 Mast, 1–4 yards, 5–12 port dies, 13–16 sails,
17–24 base dies. -/
abbrev DieNo := Nat

/-- The status and reason codes of R471. -/
inductive Status where
  | ok | unitReset | stale | lost | noSlot | noContext | keyMismatch | aged | sealFail | reservedOp | owner
  | noRoute | timeout | aborted | ctrlCheck
  deriving DecidableEq, Repr

/-- Where the device stands between power-up and operation (R61, R62, R94–R97, R47, R528). -/
inductive Phase where
  /-- VDD_AON below its threshold: power-on reset holds everything. -/
  | off
  /-- Device reset held; RESET_N has not been released and taken. -/
  | held
  /-- RESET_N released without SYSREF: REF_ABSENT, no Hoist (R96). -/
  | refAbsent
  /-- Time zero passed; PLLs are locking (step 2). -/
  | locking
  /-- A die's lock was not seen in time (R62). -/
  | pllFailed
  /-- HOIST_SYNC given at T_s (step 4). -/
  | synced
  /-- Islands released (step 6), alignment check running. -/
  | released
  /-- MST_HOIST_STAT.DONE (step 8). -/
  | running
  /-- SYSREF lost (R47): everything but the always-on island stopped. -/
  | refLost
  /-- Thermal trip (R528). -/
  | tripped
  deriving DecidableEq, Repr

/-- How a held or indirect register access came in, and so where its end is reported. -/
inductive Via where
  | mmio
  /-- The indirect window of port `x`. -/
  | ind (x : Nat)
  | plan | jtag
  deriving DecidableEq, Repr

/-- A register access that waits at an island stopped without reset (R58). -/
structure HeldAccess where
  iss   : Issuer
  via   : Via
  write : Bool
  reg   : RegName
  idx   : List Nat
  value : Nat
  deriving DecidableEq, Repr

/-- An aperture access of a host port that waits at island `g`, stopped without reset: device address, bytes to write, or how
many to read. -/
structure HeldAper where
  g     : Nat
  x     : Nat
  /-- MST_PROT_GEN when it was accepted: it completes under that set-up (R136). -/
  gen   : Nat
  addr  : Nat
  write : Bool
  bytes : List Byte
  len   : Nat
  deriving DecidableEq, Repr

/-- One outstanding time exchange of a port (R66, R189). -/
structure Timex where
  exch   : Nat
  t1     : Nat
  sentAt : Nat
  lostAt : Nat
  waiting : Bool
  done   : Bool
  deriving DecidableEq, Repr

/-- Clocks, islands and Hoist (02). -/
structure Clk where
  /-- Reference time since power-up in units of 25 ps (R64's unit), in whole frames. -/
  now : Nat
  /-- Frames since HOIST_SYNC reset the frame counters (R61 step 4). -/
  frame : Nat
  /-- Fabric time advances. -/
  fabRun : Bool
  phase : Phase
  /-- Rails rose out of order at the last power-up, so the start is undefined (R542). -/
  badStart : Bool
  /-- The time zero of R61. -/
  timeZero : Nat
  /-- When the last PLL lock was seen (L). -/
  lastLock : Nat
  /-- Islands stopped without reset (reef, sail ratio change). -/
  stopped : List Nat
  /-- Since when each hold bit of MST_CLK_HOLD is set. -/
  holdSince : NMap Nat
  /-- Register accesses waiting at stopped islands. -/
  held : List HeldAccess
  /-- Aperture accesses waiting there. -/
  heldAper : List HeldAper
  /-- FAB_STEP writes not yet applied. -/
  steps : List Nat
  /-- First accepted parent offset, waiting for the next frame start (AUTO_STEP). -/
  autoStep : Option Nat
  /-- An exchange with the parent has been accepted. -/
  parentSeen : Bool
  timex : NMap Timex
  /-- Ports that have completed an exchange since device reset (port die × 32 + engine). -/
  peers : List Nat
  /-- Free crossings of each die (R53). -/
  freeX : NMap Nat
  /-- A brownout holds the device in reset (R97). -/
  brown : Bool
  /-- SYSREF shows edges. -/
  sysref : Bool
  /-- HELM_SEL as sampled at time zero. -/
  helm : Nat
  deriving DecidableEq, Repr

/-- Boot ROM and Mast firmware (R98–R101). -/
structure Boot where
  /-- The QSPI boot flash, sparse; an unlisted byte reads 0xFF (erased; log 4). -/
  flash : List Host.Cell
  /-- The running image: load offset, entry offset and length. -/
  image : Option (Nat × Nat × Nat)
  /-- The boot ROM has started checking since the last device reset. -/
  started : Bool
  /-- A fuse operation in progress and its value (R113). -/
  prog : Option (Nat × Nat)
  deriving DecidableEq, Repr

/-- One accepted reset request of MST_RST_REQ in progress (R104–R107). -/
structure RstReq where
  scope  : Nat
  target : Nat
  since  : Nat
  deriving DecidableEq, Repr

/-- Resets in progress. -/
structure Rst where
  req : Option RstReq
  /-- Dies held in reset by a die reset, with the time it was accepted. -/
  dies : NMap Nat
  /-- Dies that left service (R472), until a die or device reset returns them. -/
  outDies : List Nat
  /-- Islands held in reset by an island reset. -/
  islands : NMap Nat
  /-- Tackles in reset. -/
  tackles : NMap Nat
  deriving DecidableEq, Repr

/-- A command ring's binding, fixed at ARM (R124); `num` counts the bindings made. -/
structure RingBind where
  tackle : Nat
  queue  : Nat
  size   : Nat
  num    : Nat
  deriving DecidableEq, Repr

/-- A host access that waits in its port's posted-write path. -/
inductive Posted where
  /-- A memory access: function, BAR, offset in it. -/
  | mem (fn bar off : Nat) (acc : HostAcc)
  /-- The register write of a row, which reaches its register through the indirect window where it lies outside the Mast block. -/
  | reg (iss : Issuer) (r : RegName) (idx : List Nat) (v : Nat)
  deriving DecidableEq, Repr

/-- A record waiting for its ring (R129): ring id, bytes, and the tackle that waits for it, if one does. -/
structure Rec where
  ring  : Nat
  bytes : List Byte
  owner : Option Nat
  deriving DecidableEq, Repr

/-- An indirect access in progress (R122): issuer, address, data, direction and size. -/
structure IndAcc where
  iss   : Issuer
  addr  : Nat
  data  : Nat
  write : Bool
  size64 : Bool
  deriving DecidableEq, Repr

/-- A change of the protection set-up that has not drained (R136): its number, its item's PENDING bit, and what was admitted
under the old set-up: doorbells taken (ring, number of its binding, PRODUCED) and packets past the key check (flights). -/
structure ProtChg where
  num   : Nat
  item  : Nat
  rings : List (List Nat × Nat × Nat)
  ids   : List (List Nat)
  deriving DecidableEq, Repr

/-- Host ports, rings and the indirect window (05). -/
structure HostSt where
  /-- PERST_x_N is released. -/
  perst : NMap Bool
  /-- Since when host port x has been out of reset, once it is. -/
  upSince : NMap Nat
  /-- Command-ring slots: port, function, ring, slot. -/
  slots : NMap (List Byte)
  /-- Bindings of rings that are not DISARMED: port, function, ring. -/
  binds : NMap RingBind
  /-- The posted-write path of each port while its first write is held at a busy slot. -/
  posted : NMap (List Posted)
  /-- Indirect access in progress of each port. -/
  ind : NMap IndAcc
  /-- MSI-X table words and pending bits: port, function, word (or vector). -/
  msix : NMap Nat
  msixPend : NMap Bool
  /-- Records not yet in their rings, oldest first. -/
  recs : List Rec
  /-- Fabric time at which RELEASED of each record ring last changed. -/
  relAt : NMap Nat
  /-- Protection changes not yet drained, oldest first. -/
  prot : List ProtChg
  /-- The second copies of the ring pointers (R132): 0 and a command ring, CONSUMED and PRODUCED; 1 and a record ring, PRODUCED
  and RELEASED. -/
  ptr2 : NMap (Nat × Nat)
  /-- Command rings bound so far. -/
  armCount : Nat
  /-- Functions in D3hot: port, function (R115). -/
  d3 : NMap Bool
  deriving DecidableEq, Repr

/-- Fault blocks and FAULT_N (18). -/
structure FltSt where
  /-- When the running FAULT_N pulse began. -/
  pulse : Option Nat
  /-- The Mast is lost: the device is headless (R475) until the next device reset. -/
  lost : Bool
  /-- A management command in progress: target, expected epoch, operation (R479). -/
  mgmt : Option (Nat × Nat × Nat)
  deriving DecidableEq, Repr

/-- What the device sends outside: the model's own field (log 7). -/
inductive Out where
  /-- A PCIe memory write of a record: port, function, host address, bytes. -/
  | hostWrite (port fn addr : Nat) (bytes : List Byte)
  /-- An MSI-X message: port, function, vector. -/
  | msix (port fn vector : Nat)
  /-- Completion data of an MMIO read: port, value, whether it reached its target. -/
  | mmio (port value : Nat)
  /-- A flit on the wire: port die, engine, TYPE, SEQ, payload bytes. -/
  | flit (p e type seq : Nat) (bytes : List Byte)
  /-- A refuse notice or response that the device sends into the fabric: bytes of its packet header and payload. -/
  | packet (bytes : List Byte)
  /-- TDO bits of a JTAG scan. -/
  | jtag (bits : List Bool)
  /-- An access to an optical module: slot, page, byte, value written if any. -/
  | module (slot page byte : Nat) (value : Option Nat)
  /-- A codeword of a lane circuit whose control code is not DATA: port die, circuit, control field, and the flit bytes where the code
  brings its own (CAPS, CAPS_ACK); beside the others run the port's flits. -/
  | codeword (p l field : Nat) (payload : List Byte)
  /-- A wire event of a lane or a pin, by name and number. -/
  | wire (what : String) (n : List Nat)
  deriving DecidableEq, Repr

/-- A command in a work queue or in execution (R367, R374). -/
structure Cmd where
  /-- The 32 bytes. -/
  bytes : List Byte
  /-- TCK_QIDX_q at its dequeue; for a part, that of its group command. -/
  index : Nat
  /-- Host partition of the queue it came through. -/
  hp : Nat
  /-- The command ring that carried it: port, function, ring. -/
  ring : Option (Nat × Nat × Nat)
  /-- Tensor descriptors copied at decode, by operand position (R377). -/
  descs : List (Nat × List Byte)
  /-- For a part: the ranges (start, length) it covers of each dimension of the split operand. -/
  sel : Option (List (List (Nat × Nat)))
  /-- For a part: the group tackle and the number of its group command there. -/
  parent : Option (Nat × Nat)
  /-- Its number on its tackle. -/
  uid : Nat
  /-- Fabric time at which it reached the head of its queue, once it has. -/
  headAt : Option Nat
  /-- When a WAIT or FENCE dispatched: it stays at the head until it completes (R368). -/
  waitAt : Option Nat
  deriving DecidableEq, Repr

/-- A running address stream (R384–R387). -/
structure Stream where
  seq : Nat
  slot : Nat
  /-- The next instruction. -/
  pc : Nat
  /-- How many addresses each of the four generators has emitted. -/
  taken : List Nat
  /-- Pieces emitted and not yet processed, and how many were processed. -/
  pieces : List Nat
  done : Nat
  ended : Bool
  deriving DecidableEq, Repr

/-- A request that a fabric engine has sent and that awaits its answer (R388, R389). -/
structure Req where
  op : Nat
  flow : Nat
  tag : Nat
  pkt : Nat
  land : Nat
  len : Nat
  sentAt : Nat
  status : Option Status
  deriving DecidableEq, Repr

/-- A dispatched command holding one of its tackle's execution slots (R368). -/
structure Run where
  slot : Nat
  queue : Nat
  cmd : Cmd
  startAt : Nat
  /-- Parts placed and not yet completed, and the status codes of those completed. -/
  partsLeft : Nat
  partSts : List Nat
  sat : Nat
  flush : Nat
  nanIn : Bool
  /-- Its status once its effect is done. -/
  status : Option Status
  detail : Nat
  seqErr : Bool
  stream : Option Stream
  /-- GMMA: FP32 accumulators, row by row. SEALCHK: the pieces whose seal failed. -/
  acc : List Nat
  /-- Packets sent, and requests outstanding or answered. -/
  sent : Nat
  reqs : List Req
  /-- Its END trace record: 0 not yet written, 1 waits for the die's buffer, 2 written (R501). -/
  ended : Nat
  /-- PLAN: the winner's owner id of its first claim that lost (R357). -/
  lost : Option Nat
  deriving DecidableEq, Repr

/-- A tackle's queues and slots. -/
structure TckSt where
  queues : List (List Cmd)
  runs : List Run
  /-- The queue that dispatched last. -/
  last : Nat
  nextUid : Nat
  deriving DecidableEq, Repr

/-- One scoreboard entry (R378, R379): the holder's tackle and command, and its interval. -/
structure Claim where
  tackle : Nat
  uid : Nat
  lo : Nat
  hi : Nat
  write : Bool
  deriving DecidableEq, Repr

/-- One stream entry on its way into the digest engine (R86): window, kind (0 command, 1 weight, 2 input, 3 result), tackle, queue,
and its bytes. -/
structure DigEntry where
  win : Nat
  kind : Nat
  tackle : Nat
  queue : Nat
  bytes : List Byte
  deriving DecidableEq, Repr

/-- A provenance window (R82–R91). -/
structure Window where
  scope : Nat
  pmask : Nat
  openMark : Nat
  closeMark : Nat
  ring : Nat
  /-- Fabric time at which the first queue passed the open marker, and MST_TDC_TOTAL and MST_UNITS then. -/
  openTime : Option Nat
  tdcAtOpen : Nat
  units : Nat
  /-- Ranges: class (0 WEIGHT, 1 INPUT, 2 RESULT), base, length. -/
  ranges : List (Nat × Nat × Nat)
  /-- Queues inside the window: tackle, queue; 1 open, 2 closed. -/
  queues : NMap Nat
  /-- Bytes of each stream that the digest engine has taken from its queue: kind (0 command, 1 weight, 2 input, 3 result), tackle,
  queue; the seals or commands. -/
  streams : NMap (List Byte)
  /-- Commands covered and not yet completed: tackle, number. -/
  open_ : List (Nat × Nat)
  /-- Covered commands that a reset of a unit in scope has hit: an aborted window closes once they have completed (R85). -/
  affected : List (Nat × Nat)
  /-- Entries counted but not hashed, by kind (R88). -/
  unhashed : List Nat
  flags : Nat
  closing : Bool
  /-- Fabric time at which the last covered command completed, and MST_TDC_TOTAL then. -/
  lastDone : Nat
  tdcDone : Nat
  deriving DecidableEq, Repr

/-- Engines, queues, scoreboards and programs (15, 16, 03). -/
structure EngSt where
  tck : NMap TckSt
  /-- Scoreboard entries of each sequencer domain. -/
  board : NMap (List Claim)
  /-- Program slots: sequencer, slot. -/
  progs : NMap (List Byte)
  /-- How often the READY bit of each die has changed: part of every face's EPOCH. -/
  readyChg : NMap Nat
  /-- Open digest windows by number. -/
  windows : NMap Window
  /-- The digest engine's queue of stream entries, oldest first, and the base-clock cycles it has left of the frame (R89). -/
  digQ : List DigEntry
  digCyc : Nat
  /-- Seals of each leaf that have not entered that queue: the command's number on the leaf and the entry, in command order (R86). -/
  seals : NMap (List (Nat × DigEntry))
  /-- Plan sections in force: number, bytes. -/
  sections : NMap (List Byte)
  /-- The reference time from which a pending run anchor holds dispatch, and when the anchor was last written or cleared (R74). -/
  anchorFrom : Option Nat
  anchorAt : Nat
  deriving DecidableEq, Repr

/-- A claim on a cleat register waiting to be resolved (R356, R357). -/
structure CleatClaim where
  sail : Bool
  die : Nat
  bank : Nat
  owner : Nat
  /-- Claiming partition, and whether it is the helm host's register write. -/
  part : Nat
  helmWrite : Bool
  tackle : Nat
  /-- The command's tackle and number there, for HANDOVER and PLAN. -/
  run : Option (Nat × Nat)
  deriving DecidableEq, Repr

/-- Banks and stacks (14). -/
structure BankSt where
  claims : List CleatClaim
  /-- When each stack was last accessed. -/
  stackLast : NMap Nat
  /-- Consecutive command-address parity failures of each stack. -/
  caFails : NMap Nat
  /-- Stacks that have passed training and test since the last device reset (R350). -/
  tested : List Nat
  /-- Addresses whose contents a reset has made undefined and nothing has written since: first, end, and which reset
  (R105; log 4). -/
  lost : List (Nat × Nat × Nat)
  /-- Resets of memory so far: what keeps lost contents apart (the model's own field, log 4). -/
  lostGen : Nat
  /-- What an access of the command under way met: 0 islands that run, 1 a stopped one, 2 one in reset (R22, R553); 0 between commands
  (the model's own field, log 80). -/
  met : Nat
  deriving DecidableEq, Repr
/-- A staging entry (R287, R288, R317): the exact sum in units of 2^-201, of which every
permitted contribution is a multiple (for integer and bitwise operations the plain integer), A once it is fixed, the special flags, where the value is held, and for MAX and MIN the extreme so far. -/
structure Entry where
  v : Int
  a : Option Int
  nan : Bool
  pinf : Bool
  ninf : Bool
  /-- 0 compact, 1 in the promotion pool, 2 in the overflow region; and its index there (R317). -/
  held : Nat
  idx : Nat
  /-- An addend other than −0 has been added (R283). -/
  plus : Bool
  /-- MAX and MIN: the current extreme as a binary64 code. -/
  ext : Option Nat
  deriving DecidableEq, Repr

/-- An up slot of one chunk at one stage (R311). -/
structure USlot where
  stage : Nat
  grantAt : Nat
  /-- Frame of the first contribution. -/
  firstAt : Option Nat
  /-- Parts accepted: contributor, part, and for SMERGE and DOWN the bytes and their offset in the slot. -/
  got : List (Nat × Nat × List Byte × Nat)
  entries : List Entry
  /-- Contributors whose seal failed once (R331). -/
  failed : List Nat
  /-- The slot's offset in its yard's staging (R318). -/
  off : Nat
  deriving DecidableEq, Repr

/-- A stage output that waits for the next owner's grant or is being sent (R324). -/
structure StageOut where
  stage : Nat
  doneAt : Nat
  wire : List Byte
  /-- Parts sent. -/
  sent : Nat
  deriving DecidableEq, Repr

/-- One chunk's roles on this device. -/
structure Chunk where
  ups : List USlot
  outs : List StageOut
  /-- Return slots granted: stage, when, and the slot's offset in its yard's staging. -/
  rets : List (Nat × Nat × Nat)
  /-- Grants taken: the stage of the slot that the grant opens, and the grant's SRC. -/
  grants : List (Nat × Nat)
  /-- Return grants taken: stage and granting coordinate. -/
  retGrants : List (Nat × Nat)
  /-- The result and since when it is held. -/
  result : Option (List Byte)
  heldAt : Nat
  /-- FINAL copies sent: stage and coordinate. -/
  copies : List (Nat × Nat)
  /-- T delivery has been started; its packets that have not left. -/
  tStarted : Bool
  tLeft : Nat
  /-- The root's write is visible. -/
  written : Bool
  /-- How the chunk ended on this device. -/
  fin : Option Status
  /-- Its signal is owed. -/
  sigDue : Bool
  deriving DecidableEq, Repr

/-- A join (R309): role, tackle, command number, region base, chunks sent; and the bytes it has read, by chunk from FIRST on, for their
seals (R86). -/
structure Join where
  role : Nat
  tackle : Nat
  uid : Nat
  base : Nat
  sent : List Nat
  moved : NMap (List Byte)
  deriving DecidableEq, Repr

/-- An open collective context (R308). -/
structure Ctx where
  desc : List Byte
  /-- Frame at which its entries exist (R341), and that time in fabric time. -/
  frame : Nat
  openTime : Nat
  started : Bool
  limit : Nat
  /-- The yard that serves each yard's share (R334). -/
  serve : List Nat
  chunks : NMap Chunk
  /-- Next chunk to grant of each stage and yard, up and return. -/
  nextUp : NMap Nat
  nextRet : NMap Nat
  joins : List Join
  /-- Chunks granted to local roles, in order (R309, R340). -/
  granted : List Nat
  doneCnt : Nat
  failCnt : Nat
  firstFail : Option (Nat × Status)
  sat : Nat
  flush : Nat
  sealFail : Nat
  late : Nat
  promoted : Nat
  overflowed : Nat
  flags : Nat
  /-- Capstans (yard, physical) that completed a chunk of this context since their last passed test. -/
  used : List (Nat × Nat)
  deriving DecidableEq, Repr

/-- Collectives (12). -/
structure CollSt where
  ctxs : NMap Ctx
  /-- Stage completions of each capstan since its last test. -/
  since : NMap Nat
  /-- Capstan self-tests in progress. -/
  testing : List (Nat × Nat)
  /-- Failed capstans whose logical index has not moved yet (R333). -/
  failing : List (Nat × Nat)
  deriving DecidableEq, Repr

/-- The packet header (R191), reserved fields included. -/
structure PktHdr where
  dst : Nat
  rsv0 : Nat
  tc : Nat
  sealB : Nat
  op : Nat
  src : Nat
  tag : Nat
  raddr : Nat
  status : Nat
  flow : Nat
  cm : Nat
  ce : Nat
  ackReq : Nat
  mc : Nat
  rsv1 : Nat
  pkey : Nat
  len : Nat
  rsv2 : Nat
  coll : Nat
  stage : Nat
  contrib : Nat
  rsv3 : Nat
  chunk : Nat
  rsv4 : Nat
  deriving DecidableEq, Repr

/-- Who waits for a packet's last flit to leave. -/
inductive Origin where
  | outside
  /-- A refuse notice or response that a port die raised. -/
  | device
  /-- Packet `k` of the fabric command `uid` of a tackle. -/
  | engine (tackle uid k : Nat)
  /-- A capstan: context, chunk; T-delivery packets report their leaving. -/
  | capstan (coll chunk : Nat) (tdel : Bool)
  deriving DecidableEq, Repr

/-- A packet at an ingress engine: arriving from a link, or handed over by a unit of the device. -/
structure InPkt where
  vc : Nat
  tc : Nat
  bytes : List Byte
  /-- Its last flit is in. -/
  complete : Bool
  /-- How it was lost, once it was. -/
  lost : Option Status
  /-- The flight it became after its head was parsed. -/
  flight : Option Nat
  /-- Its head was parsed (a packet discarded at its head swallows its later flits). -/
  parsed : Bool
  origin : Origin
  /-- Flits whose credit is not yet released. -/
  flits : Nat
  deriving DecidableEq, Repr

/-- Where a packet goes inside the device. -/
inductive Dest where
  /-- Port die and egress engine. -/
  | port (p e : Nat)
  /-- Fabric receive of port die `p` (endpoint 37). -/
  | fabric (p : Nat)
  | sail (s : Nat)
  | base (n : Nat)
  | capstan (y : Nat)
  | mast
  deriving DecidableEq, Repr

/-- Where a cell of a packet is held (R204–R206). -/
inductive CellHold where
  /-- Its yard has not granted it. -/
  | none
  /-- A small cell of the shared part, or of the class reserve. -/
  | shared
  | reserve
  /-- In a large cell: the first of its cells, or a further one. -/
  | large
  | follower
  | freed
  deriving DecidableEq, Repr

/-- One cell of a packet in the switch. -/
structure Cell where
  yard : Nat
  hold : CellHold
  /-- OWNER code recorded at its allocation (R209). -/
  owner : Option Nat
  /-- The spray EPOCH it carries, once it is cut (R203). -/
  epoch : Option Nat
  /-- Written into its yard, or its void notice written. -/
  written : Bool
  /-- Read onto the transmit path, taken or discarded: CELL_FREE frees it. -/
  due : Bool
  /-- Allocation time in units of 64 frames (R209). -/
  at_ : Nat
  deriving DecidableEq, Repr

/-- A packet past its head parse. -/
structure Flight where
  /-- Source: port die and engine (32–35 fabric engines), or yard + 8 and logical capstan. -/
  src : Nat × Nat
  vc : Nat
  /-- Admission class: 0 RSP, 1 COL, 2 ESC, 3 TC0, 4 REQ. -/
  cls : Nat
  hdr : PktHdr
  bytes : List Byte
  complete : Bool
  lost : Option Status
  dests : List Dest
  cells : List Cell
  /-- Yards that have not granted their share. -/
  waiting : List Nat
  /-- First CSEQ in each destination die's stream. -/
  cseq : List (Nat × Nat)
  /-- When it was admitted, in frames. -/
  admitted : Nat
  lanes : Nat
  /-- Key entry it counts against: port die, engine, entry. -/
  key : Option (Nat × Nat × Nat)
  origin : Origin
  /-- Multicast: ports that still hold the packet, and those finished or flushed. -/
  pendingPorts : List (Nat × Nat)
  /-- Multicast: ports that have sent their copy or were flushed, and have not given up their claim. -/
  doneCopies : List (Nat × Nat)
  /-- Multicast: a copy has left its egress port whole. -/
  left : Bool
  /-- Cells released in order at each destination die. -/
  released : List (Nat × Nat)
  /-- Destination dies at which it was dropped or lost a cell. -/
  dropped : List Nat
  /-- The bank or stack it writes took its first cell, and granted the write or did not (R355). -/
  granted : Option Bool
  deriving DecidableEq, Repr

/-- A cell in a port–yard ratline queue (R267): its flight and number, whether it has TC0 priority, and whether its transfer was
committed before the TC0 cells that came after it. -/
structure RatCell where
  flight : Nat
  cell : Nat
  tc0 : Bool
  committed : Bool
  deriving DecidableEq, Repr

/-- A cell notice at its destination die. -/
structure NoticeC where
  cseq : Nat
  epoch : Nat
  flight : Nat
  cell : Nat
  void : Bool
  deriving DecidableEq, Repr

/-- A cell stream at its destination: next CSEQ to release, notices that wait, and since when a gap is open. -/
structure Strm where
  next : Nat
  epoch : Nat
  wait : List NoticeC
  gapAt : Option Nat
  deriving DecidableEq, Repr

/-- A packet in an egress queue, with the virtual channel of its sub-queue and whether it is cut through. -/
structure EDesc where
  flight : Nat
  vc : Nat
  cut : Bool
  /-- Its descriptor comes from its class's reserve (R215). -/
  rsv : Bool
  deriving DecidableEq, Repr

/-- A packet in transmission: its descriptor, queue, bytes already sent. -/
structure TxPkt where
  desc : EDesc
  queue : Nat
  sent : Nat
  /-- CM set at its grant (R242). -/
  cm : Bool
  tc : Nat
  deriving DecidableEq, Repr

/-- A sent flit that carries a SEQ and is not yet acknowledged. -/
structure SentFlit where
  seq : Nat
  type : Nat
  vc : Nat
  sop : Nat
  eop : Nat
  tc : Nat
  valid : Nat
  payload : List Byte
  deriving DecidableEq, Repr

/-- The link state of a port engine (R182–R187, R214). -/
structure LinkSt where
  replay : List SentFlit
  /-- Flits to send again, oldest first. -/
  resend : List SentFlit
  /-- SEQ of the last replay's start and how often it was replayed in a row. -/
  lastReplay : Option Nat
  replays : Nat
  /-- When ACK last advanced or the buffer became nonempty. -/
  ackAt : Nat
  /-- ACK field to send: SEQ of the last flit accepted, 0xFFFF before. -/
  ackSeq : Nat
  nakOut : Option Nat
  nakDue : Bool
  /-- Flits consumed of each VC, and credits released to the peer. -/
  used : List Nat
  freed : List Nat
  crNext : Nat
  /-- Time-exchange blocks to send. -/
  timex : List (List Byte)
  /-- Open transmit packets: TC0 and the others. -/
  tx0 : Option TxPkt
  txN : Option TxPkt
  /-- Packets at the ingress, oldest first; the open ones of TC0 and of the other classes by position. -/
  inq : List InPkt
  /-- Egress sub-queues, queue × 4 + VC rank in the order RSP, COL, ESC, REQ. -/
  queues : NMap (List EDesc)
  /-- Virtual time, finish tags and head start tags (R256). -/
  vtime : Nat
  ftag : NMap Nat
  stag : NMap Nat
  /-- Entry of the active gate list. -/
  gateIdx : Nat
  /-- Since when a port-down flush runs, and whether the last one has completed with the port still down (R219, R211). -/
  flushing : Option Nat
  flushed : Bool
  deriving DecidableEq, Repr

/-- An open flow context (R390). -/
structure Flow where
  tc : Nat
  pkey : Nat
  profile : Nat
  ring : Option Nat
  ctr : Option (Nat × Nat)
  timer : Nat
  rate : Nat
  /-- Reference times of the last decrease and of the last change. -/
  lastDec : Option Nat
  lastChg : Nat
  /-- Echoes received and not yet acted on. -/
  echoes : Nat
  /-- When the flow's last packet started, once one has (R243). -/
  lastAt : Option Nat
  /-- PERIOD of its profile as of its last change of RATE (R250). -/
  period : Nat
  outstanding : List Nat
  deriving DecidableEq, Repr

/-- A packet delivered whole at an internal endpoint: the flight it was, and whether its write was granted when its first cell was
taken (R355). -/
structure Arrival where
  at_ : Dest
  id : Nat
  hdr : PktHdr
  bytes : List Byte
  granted : Bool
  deriving DecidableEq, Repr

/-- The switch, links and flows (07–10). -/
structure NetSt where
  links : NMap LinkSt
  flights : NMap Flight
  nextId : Nat
  /-- Next CSEQ of each stream at its source: source pair, destination die, VC. -/
  cseqs : NMap Nat
  streams : NMap Strm
  /-- Yards in use and the spray epoch (R203). -/
  yl : List Nat
  epoch : Nat
  /-- A pending spray change: the yards to use from the next frame start. -/
  sprayDue : Option (List Nat)
  /-- Waiting admission requests of each yard and class: flight numbers in order. -/
  waits : NMap (List Nat)
  /-- Packets whose admission requests wait at their port die for room in its ratline queues, in order; and those queues, by port die
  and yard (R267). -/
  unsent : List Nat
  ratq : NMap (List RatCell)
  /-- The yard has allocated a cell since its last reset. -/
  allocated : List Nat
  arrivals : List Arrival
  flows : NMap Flow
  /-- Per endpoint, source and flow: marked packets not covered by an ECHO yet, one more than the frame of the last ECHO, and
  the PKEY of the last marked packet (R196). -/
  echo : NMap (Nat × Nat × Nat)
  /-- Cells held under key entries: port die, engine, entry. -/
  keyCells : NMap Nat
  /-- Multicast groups applied in the yards: control word, LOCAL words, PEER words; and the commits not yet applied. -/
  groups : NMap (List Nat)
  groupsDue : NMap (List Nat)
  fabDue : Bool
  /-- Fabric address in force at the port dies: HALL, ROW, RACK, VALID. -/
  fabAddr : Nat × Nat × Nat × Bool
  /-- Committed words +0x04 to +0x10 of fairlead entries: die, dimension, coordinate. -/
  fairlead : NMap (List Nat)
  /-- EN bits to clear after a port down: port die that clears, and the port's id. -/
  enDue : List (Nat × Nat)
  /-- Profile writes to apply at the next frame start: die and profile. -/
  profDue : List (Nat × Nat)
  /-- Live congestion bins: die, engine, class, bin; and dies with a snapshot due. -/
  bins : NMap Nat
  snapDue : List Nat
  /-- Shaper tokens (policers too): unit keys. -/
  tokens : NMap Int
  /-- Shaper and policer settings in force since the last refill (R260): rate and burst of queues 0–15, classes at 16–23,
  policers at 24–25. -/
  shapers : NMap (Nat × Nat)
  /-- Control structures whose contents an uncorrectable error has taken, until they are rewritten (R464): a kind and
  indices. 0 fairlead entry: die, dimension, coordinate. 1 gate list: die, engine. 2 multicast yard copy, 3 master: group.
  5 ring slot: port, function, ring, slot. 6 tensor descriptor. 7 collective descriptor. 8 flow template. 9 section. -/
  broken : List (List Nat)
  /-- Cells retired from allocation: yard, 0 small or 1 large; and descriptors of a port die: 9, die (R464). -/
  retired : NMap Nat
  deriving DecidableEq, Repr


/-- What follows a lane's own DROP at its switch point. -/
inductive After where
  /-- The self-test after a lane fault (R162). -/
  | selftest
  /-- The self-test of LNE_CTRL.SELFTEST (R169). -/
  | selfCmd
  /-- DETECT at once, after LNE_CTRL.RETRAIN or an island reset (R162, R169). -/
  | retrain
  deriving DecidableEq, Repr

/-- A lane circuit beyond its registers. -/
structure LaneSt where
  /-- Consecutive retries (R153). -/
  retries : Nat
  /-- It has accepted the peer's capability block and so sends CAPS_ACK; it has received CAPS_ACK (R155, R157). -/
  accepted : Bool
  acked : Bool
  /-- The receive boundary, in symbols of the codeword (R154). -/
  boundary : Nat
  after : Option After
  /-- Its narrowing was counted when its drop reached the switch point. -/
  counted : Bool
  /-- Since when it has been in its state, and when its position was narrowed out. -/
  since : Nat
  /-- Uncorrectable codewords in a row, and within the 1 ms window of number `ucwAt` (R160). -/
  ucwRun : Nat
  ucwWin : Nat
  ucwAt : Nat
  deriving DecidableEq, Repr

/-- Where a port stands in a reef (R164–R167). -/
inductive Reef where
  | none
  /-- REEF_REQ sent; every new flit held. -/
  | asked
  /-- Past the agreement point, entry not complete. -/
  | entering
  | reefed
  /-- Exit runs. -/
  | waking
  deriving DecidableEq, Repr

/-- A port's lane sets and reef beyond its registers. -/
structure PortLn where
  /-- Logical lanes narrowed out of the lane set, as a mask (R152). -/
  narrowed : Nat
  /-- Lane-set changes decided and not yet announced, and the one announced: (is an ADD, logical lane). -/
  queue : List (Bool × Nat)
  announced : Option (Bool × Nat)
  /-- DROP_REQ announcements decided. -/
  dropReqs : List Nat
  /-- The peer's DROP or ADD decoded and not yet at its switch point. -/
  rxChange : Option (Bool × Nat)
  reef : Reef
  /-- A wake trigger came before entry was complete (R167). -/
  wake : Bool
  /-- When REEF_REQ was sent, and from the agreement point on when that was. -/
  reefAt : Nat
  /-- Periods by which the peer's SEQ, as its lanes deliver it, lags behind the device's own; fixed at PORT_UP (R157). -/
  rxLag : Nat
  deriving DecidableEq, Repr

/-- Lanes (06). -/
structure LnSt where
  lanes : NMap LaneSt
  ports : NMap PortLn
  deriving DecidableEq, Repr

/-- A ledger record as held in SRAM (R490–R492). -/
structure LedRec where
  serial : List Byte
  hash : Nat
  mins : Nat
  rated : Nat
  drift : Nat
  slot : Nat
  life : Bool
  denied : Bool
  ins : Nat
  bias : List Nat
  seq : Nat
  /-- Changed since it was last written to flash. -/
  dirty : Bool
  deriving DecidableEq, Repr

/-- A module slot beyond its registers (R485–R487). -/
structure Slot where
  /-- Scans in a row that have read the other presence level. -/
  deb : Nat
  /-- The board's output latches: RESET_N, LPMODE, SEL_N. -/
  resetN : Bool
  lp : Bool
  selN : Bool
  /-- What the next scans shift out. -/
  oReset : Bool
  oLp : Bool
  oSel : Bool
  /-- Scans that RESET_N stays asserted before it is released. -/
  hold : Nat
  /-- A confirmed presence change not yet acted on. -/
  confirmed : Option Bool
  serial : Option (List Byte)
  /-- At least one transmitter enabled. -/
  tx : Bool
  /-- Since when the present step of the bring-up runs, and when its time limit passes. -/
  since : Nat
  limit : Nat
  /-- When its laser minutes and its bias were last taken. -/
  minAt : Nat
  biasAt : Nat
  /-- The slot state to which a cleared MANUAL returns. -/
  prev : Nat
  deriving DecidableEq, Repr

/-- A pass-through access in progress (R496). -/
structure PassAcc where
  slot : Nat
  page : Nat
  byte : Nat
  write : Bool
  data : Nat
  deriving DecidableEq, Repr

/-- Optical modules (19). -/
structure OptSt where
  slots : NMap Slot
  /-- The ledger in SRAM, read from the flash when the firmware starts. -/
  led : List LedRec
  /-- The active record region, its next free copy, and the next history sequence number. -/
  active : Nat
  pos : Nat
  hist : Nat
  /-- When changed records were last written, and a flush asked for since. -/
  hourAt : Nat
  flushDue : Bool
  pass : Option PassAcc
  deriving DecidableEq, Repr

/-- A remote thermistor input (R526): when its wire broke and when it was last whole again. -/
structure Therm where
  brokeAt : Nat
  wholeAt : Option Nat
  deriving DecidableEq, Repr

/-- Power and sensors (21). -/
structure PwrSt where
  /-- A sail ratio change in progress: the new ratio, and whether the islands are stopped. -/
  ratio : NMap (Nat × Bool)
  /-- Conversion windows published. -/
  windows : Nat
  therm : NMap Therm
  /-- THERMTRIP_N is latched low. -/
  trip : Bool
  deriving DecidableEq, Repr

/-- The JTAG port (R512–R514). -/
structure JtagSt where
  /-- The instruction register. -/
  ir : Nat
  /-- Boundary-scan cells. -/
  cells : List Bool
  /-- Data, STATUS and BUSY of the access register. -/
  data : Nat
  status : Nat
  busy : Bool
  access : Option IndAcc
  /-- SCAN has stopped the islands. -/
  scanned : Bool
  deriving DecidableEq, Repr

/-- Trace buffers, counter sets and the crow's-nest snapshot (20). -/
structure TelSt where
  /-- A snapshot trigger waits for its cut at the next frame start. -/
  snapPending : Bool
  /-- Shadow entries captured at the cut and not yet written, and the record index. -/
  snapEntries : List (List Byte)
  snapPart : Nat
  snapTrunc : Bool
  /-- Records waiting to enter a full die trace buffer: die, record, and the tackle and slot whose completion waits. -/
  traceWait : List (Nat × Rec × Option (Nat × Nat))
  /-- Records inside a die's trace buffer, on their way to the Mast: die and record. -/
  traceBuf : List (Nat × Rec)
  /-- Drop-sample counters of each port die (R504). -/
  dropCtr : NMap Nat
  /-- Export buffer of the JTAG trace path: 32-byte words (R514). -/
  exportBuf : List (List Byte)
  /-- SEQ of each counter set: samples since EN was set (R505). -/
  setSeq : NMap Nat
  deriving DecidableEq, Repr

/-- The device without its fuses. -/
structure Dev where
  regs  : List (RegKey × Nat)
  mem   : List Host.Cell
  clk   : Clk
  boot  : Boot
  rst   : Rst
  host  : HostSt
  flt   : FltSt
  bank  : BankSt
  eng   : EngSt
  coll  : CollSt
  net   : NetSt
  tel   : TelSt
  ln    : LnSt
  opt   : OptSt
  pwr   : PwrSt
  jtag  : JtagSt
  out   : List Out
  /-- Counter that keeps free values fresh (the model's own field, log 5). -/
  freeCtr : Nat
  deriving DecidableEq, Repr

/-- The fuses: they survive every reset and are only ever blown. -/
structure Fuses where
  unitsOk : Nat
  /-- SAL_CORE_OK of each sail, SAL_VEC_OK of each sail, BSE_VEC_OK of each base die. -/
  coreOk : List Nat
  vecOk : List Nat
  bseVecOk : List Nat
  keyRevoked : Nat
  secVerMin : Nat
  debugClosed : Bool
  /-- SHA-384 key hashes of slots 0–3. -/
  keyHash : List (List Byte)
  deriving DecidableEq, Repr

/-- The machine: fuses, device, and the queue of commands that wait, first in, first out. -/
structure State where
  fuses : Fuses
  dev : Dev
  pending : List Instr
  deriving DecidableEq, Repr

/-- Why a step stops. -/
inductive Fault where
  /-- Raised by RESET_N_RELEASE after rails rose out of order: the start-up state is undefined (R542). Safe. -/
  | startUndefined
  deriving DecidableEq, Repr

/-- Why a command has no meaning here. -/
inductive Refusal where
  /-- An arm of `exec` with no meaning yet. Safe. -/
  | notModelled (mnemonic : String)
  /-- A command whose operands break WellFormed: it names no event of the hardware. Safe. -/
  | illFormed
  deriving DecidableEq, Repr

/-! ## Reset -/

/-- The engines, links and boxes of a device held in reset: empty. -/
def Rst.zero : Rst := ⟨none, [], [], [], []⟩
def HostSt.zero : HostSt := ⟨[], [], [], [], [], [], [], [], [], [], [], [], 0, []⟩
def EngSt.zero : EngSt := ⟨[], [], [], [], [], [], 0, [], [], none, 0⟩
def CollSt.zero : CollSt := ⟨[], [], [], []⟩
def NetSt.zero : NetSt :=
  ⟨[], [], 0, [], [], [0, 1, 2, 3], 0, none, [], [], [], [], [], [], [], [], [], [], false, (0, 0, 0, false), [], [], [], [], [],
    [], [], [], []⟩
def TelSt.zero : TelSt := ⟨false, [], 0, false, [], [], [], [], []⟩
def LnSt.zero : LnSt := ⟨[], []⟩
def OptSt.zero : OptSt := ⟨[], [], 0, 0, 0, 0, false, none⟩
def JtagSt.zero : JtagSt := ⟨2, [], 0, 0, false, none, false⟩

/-- The fuses of a device with every unit sound and nothing programmed (DESIGN CHOICE, log 3). -/
def Fuses.sound : Fuses :=
  { unitsOk := 0xFFFFFF, coreOk := [0xFFFFFFFFFFFFFFFF, 0xFFFFFFFFFFFFFFFF, 0xFFFFFFFFFFFFFFFF, 0xFFFFFFFFFFFFFFFF],
    vecOk := [0xFF, 0xFF, 0xFF, 0xFF], bseVecOk := [0xFFFF, 0xFFFF, 0xFFFF, 0xFFFF, 0xFFFF, 0xFFFF, 0xFFFF, 0xFFFF],
    keyRevoked := 0, secVerMin := 0, debugClosed := false,
    keyHash := List.replicate 4 (List.replicate 48 0) }

/-- The machine right after power-on reset (R94): the always-on island runs, MST_RST_CAUSE.POWER_ON is set, the
device is held in device reset and waits for the release of RESET_N. Every register is at the reset value of its table,
so the register file lists nothing (DESIGN CHOICE, log 3). -/
def State.reset : State :=
  { fuses := Fuses.sound
    dev :=
      { regs := [], mem := []
        clk := { now := 0, frame := 0, fabRun := false, phase := .held, badStart := false, timeZero := 0, lastLock := 0
                 stopped := [], holdSince := [], held := [], heldAper := [], steps := [], autoStep := none, parentSeen := false
                 timex := [], peers := [], freeX := [], brown := false, sysref := true, helm := 0 }
        boot := ⟨[], none, false, none⟩
        rst := Rst.zero, host := HostSt.zero, flt := ⟨none, false, none⟩, bank := ⟨[], [], [], [], [], 0, 0⟩
        eng := EngSt.zero, coll := CollSt.zero, net := NetSt.zero, tel := TelSt.zero, ln := LnSt.zero
        opt := OptSt.zero, pwr := ⟨[], 0, [], false⟩, jtag := JtagSt.zero, out := [], freeCtr := 0 }
    pending := [] }

end Sys2Proof.Machine
end

