-- ==== Sys2Proof/Machine/Staging.lean ====
section
/-!
DEFINITION. Capstan staging as its window shows it (R29, R30, R317, R318, R322): the bytes of an entry, of a slot and of the promotion
pool, and where a new slot or a promoted entry goes.
-/
namespace Sys2Proof.Machine

/-- The exponent of a staging entry's unit in this model: every permitted contribution is a multiple of 2^-201 (DEDUCED, log
37). -/
def unitExp : Int := -201

/-! ## Entries (R287, R317) -/

/-- Bits [95:0] of an entry: the pool or region index of a promoted one, the binary64 code of an extreme, else the compact value. -/
def Entry.compact (e : Entry) : Nat :=
  if e.held ≠ 0 then e.idx
  else match e.ext with
    | some k => k
    | none => ofSigned 96 (match e.a with | some a => e.v / ((2 ^ (a - unitExp).toNat : Nat) : Int) | none => e.v)

/-- The 16 bytes of a staging entry (R317). -/
def Entry.bytes (e : Entry) : List Byte :=
  leBytes 16 (e.compact + 2 ^ 96 * ofSigned 16 (e.a.getD 0) + 2 ^ 112 * b2n (e.a.isSome || e.ext.isSome) + 2 ^ 113 * b2n e.nan
    + 2 ^ 114 * b2n e.pinf + 2 ^ 115 * b2n e.ninf + 2 ^ 116 * b2n (e.held == 1) + 2 ^ 117 * b2n (e.held == 2))

/-- The 48 bytes of a promoted value: a 384-bit integer in units of 2^-160 (R287). -/
def Entry.wideBytes (e : Entry) : List Byte := leBytes 48 (ofSigned 384 (e.v / ((2 ^ 41 : Nat) : Int)))

/-- The entry with the value that its 48 bytes hold. -/
def Entry.fromWide (e : Entry) (l : List Byte) : Entry :=
  if l = e.wideBytes then e else { e with v := toSigned 384 (ofLE l) * ((2 ^ 41 : Nat) : Int) }

/-! ## Slots -/

/-- The yard that serves chunk `n` (R307, R334). -/
def Ctx.yardOf (x : Ctx) (n : Nat) : Nat := x.serve.getD (n % 4) 0

/-- The byte at offset `o` of an up slot: entry k from offset 16k on, or a contribution kept whole where it lies. -/
def USlot.byteAt (u : USlot) (o : Nat) : Option Byte :=
  match u.entries[o / 16]? with
  | some e => e.bytes[o % 16]?
  | none => (u.got.find? (fun g => decide (g.2.2.2 ≤ o ∧ o < g.2.2.2 + g.2.2.1.length))).bind (fun g => g.2.2.1[o - g.2.2.2]?)

/-- The byte at offset `o` of the yard's staging, if one of the chunk's slots holds it; a return slot holds the result that came. -/
def Chunk.byteAt (c : Chunk) (o : Nat) : Option Byte :=
  match c.ups.findSome? (fun u => if u.off ≤ o then u.byteAt (o - u.off) else none) with
  | some b => some b
  | none => match c.rets, c.result with
    | r :: _, some l => if r.2.2 ≤ o then l[o - r.2.2]? else none
    | _, _ => none

/-- Chunks whose slots lie in yard `y`. -/
def Dev.yardChunks (d : Dev) (y : Nat) : List (Ctx × Chunk) :=
  d.coll.ctxs.flatMap (fun x => (x.2.chunks.filter (fun c => x.2.yardOf (c.1.getD 0 0) == y)).map (fun c => (x.2, c.2)))

/-- Entries of yard `y` that the promotion pool (1) or the overflow region (2) holds. -/
def Dev.heldEntries (d : Dev) (y k : Nat) : List Entry :=
  (d.yardChunks y).flatMap (fun c => c.2.ups.flatMap (fun u => u.entries.filter (fun e => e.held == k)))

/-- The byte at offset `o` of yard `y`'s promotion pool, if an entry holds it. -/
def Dev.poolByte (d : Dev) (y o : Nat) : Option Byte :=
  ((d.heldEntries y 1).find? (fun e => e.idx == o / 48)).bind (fun e => e.wideBytes[o % 48]?)

/-- The byte at offset `o` of the capstan windows, if a slot or a promotion entry holds it (R30). -/
def Dev.windowByte (d : Dev) (o : Nat) : Option Byte :=
  let y := o / 0x8000000
  let i := o % 0x8000000
  if i < 0x4000000 then (d.yardChunks y).findSome? (fun c => c.2.byteAt i) else d.poolByte y (i - 0x4000000)

/-! ## Places of slots and entries (log 79) -/

/-- `size` bytes from `o` on lie inside the staging and in none of the slots `used` (offset and size). -/
def slotFits (used : List (Nat × Nat)) (size o : Nat) : Bool :=
  decide (o + size ≤ 0x4000000) && used.all (fun s => decide (o + size ≤ s.1 ∨ s.1 + s.2 ≤ o))

/-- Where a new slot of `size` bytes lies: no rule says, so at the free KiB `n`, or where it does not fit there, after another slot
(DESIGN CHOICE, log 79). -/
def slotPlace (used : List (Nat × Nat)) (size n : Nat) : Nat :=
  let o := n % 65536 * 1024
  (((o :: 0 :: used.map (fun s => s.1 + s.2))).find? (slotFits used size)).getD o

/-- The index that a promoted entry takes among `limit`: no rule says which, so the first unused one from the free number `n` on
(DESIGN CHOICE, log 79). -/
def freeIdx (used : List Nat) (limit n : Nat) : Nat :=
  (((List.range (used.length + 1)).map (fun i => (n + i) % limit)).find? (fun i => !used.contains i)).getD 0

end Sys2Proof.Machine
end

