-- ==== Sys2Proof/Machine/Ops.lean ====
section
/-!
DEFINITION. The named operations every family's meaning is built from: registers, islands, memory, free values,
what is sent outside, and how a meaning answers.
-/
namespace Sys2Proof.Machine

/-- What a command answers. -/
abbrev Res := Host.Outcome State Fault Refusal

/-- A command that changes the device only (not its fuses, not the queue). -/
def State.upd (s : State) (f : Dev → Dev) : Res := .next { s with dev := f s.dev }

/-- A command whose operands must be well formed. -/
def State.updIf (s : State) (c : Bool) (f : Dev → Dev) : Res := if c then s.upd f else .refused .illFormed

/-! ## Status codes (R471) -/

/-- The code of a status. -/
def Status.code : Status → Nat
  | .ok => 0 | .unitReset => 1 | .stale => 2 | .lost => 3 | .noSlot => 4 | .noContext => 5 | .keyMismatch => 6
  | .aged => 7 | .sealFail => 8 | .reservedOp => 9 | .owner => 10 | .noRoute => 11 | .timeout => 12
  | .aborted => 13 | .ctrlCheck => 14

/-- The status of a code of the table; a reserved code reads as RESERVED_OP, which no unit reports in its place. -/
def Status.ofCode : Nat → Status
  | 0 => .ok | 1 => .unitReset | 2 => .stale | 3 => .lost | 4 => .noSlot | 5 => .noContext | 6 => .keyMismatch
  | 7 => .aged | 8 => .sealFail | 9 => .reservedOp | 10 => .owner | 11 => .noRoute | 12 => .timeout
  | 13 => .aborted | 14 => .ctrlCheck | _ => .reservedOp

/-! ## Times in units of 25 ps (R64) -/

/-- A frame is 25 SYSREF periods, 160 ns (R48) (DESIGN CHOICE, log 1). -/
def frameUnits : Nat := 6400
/-- Nanoseconds in units. -/
def ns (n : Nat) : Nat := n * 40
/-- Microseconds in units. -/
def us (n : Nat) : Nat := n * 40000
/-- Milliseconds in units. -/
def ms (n : Nat) : Nat := n * 40000000
/-- Seconds in units. -/
def sec (n : Nat) : Nat := n * 40000000000

/-! ## The register file -/

/-- Registers are ordered by name, then index list, then lowest bit. -/
def RegKey.code (k : RegKey) : List Nat := k.reg.ctorIdx :: k.lo :: k.idx

/-- Order of the register file's keys. -/
def RegKey.lt (a b : RegKey) : Bool := lexLt a.code b.code

/-- Index `i` of a key's index list, 0 where it has none. -/
def ix (idx : List Nat) (i : Nat) : Nat := idx.getD i 0

/-- BASE_POS, WIDTH_LOG2, MODE (0 KR1, 1 CR1, 2 C2M) and EN of port engine `e` in the reset formation (R151). -/
def resetFormation (e : Nat) : Nat × Nat × Nat × Nat :=
  if e < 4 then (8 * e, 3, 0, 1)
  else if e < 11 then (32 + 4 * (e - 4), 2, 1, 1)
  else if e = 11 then (60, 1, 1, 1)
  else if e < 19 then (64 + 4 * (e - 12), 2, 2, 1)
  else if e = 19 then (92, 1, 2, 1)
  else if e < 27 then (96 + 4 * (e - 20), 2, 2, 1)
  else if e = 27 then (124, 1, 2, 1)
  else (0, 0, 0, 0)

/-- FLT_FATAL_EN's reset value for die `d`: the Fatal column of R466. -/
def fatalReset (d : Nat) : Nat :=
  0x13 + (if d = 0 then 0x500 else if d ≤ 4 then 0x900 else if d ≤ 12 then 0 else if d ≤ 16 then 0 else 0x600)

/-- A field's value after reset at the given indices (R6). -/
def Field.reset (f : Field) (idx : List Nat) : Nat :=
  match f.reg with
  | .PRT_PORT_CFG =>
    if f.lo = 0 then (resetFormation (ix idx 1)).1
    else if f.lo = 7 then (resetFormation (ix idx 1)).2.1
    else if f.lo = 10 then (resetFormation (ix idx 1)).2.2.1
    else if f.lo = 17 then (resetFormation (ix idx 1)).2.2.2
    else f.rst
  | .PRT_SPRAY => ix idx 1 % 4
  | .PRT_RT_PORT => if ix idx 1 < 4 then 0 else if ix idx 1 < 12 then 1 else if ix idx 1 < 20 then 2 else if ix idx 1 < 28 then 3 else 0
  | .PRT_RT_LOCAL => if f.lo = 0 then ix idx 1 % 8 * 32 + ix idx 1 / 8 else f.rst
  | .YRD_CPS_MAP => if f.lo = 7 then f.rst else ix idx 1
  | .CPS_STAT =>
    if f.lo = 0 then b2n (ix idx 1 < 16)
    else if f.lo = 1 then b2n (ix idx 1 = 16)
    else if f.lo = 8 then (if ix idx 1 < 16 then ix idx 1 else 0)
    else f.rst
  | .FLT_FATAL_EN => fatalReset (ix idx 0)
  | _ => f.rst

/-- The value of field `f` at indices `idx`. -/
def Dev.getF (d : Dev) (f : Field) (idx : List Nat := []) : Nat :=
  tget (f.reset idx) d.regs ⟨f.reg, f.lo, idx⟩

/-- Write field `f` at indices `idx`, modulo its width; the reset value is held by no entry. -/
def Dev.setF (d : Dev) (f : Field) (idx : List Nat) (v : Nat) : Dev :=
  { d with regs := tput RegKey.lt (f.reset idx) ⟨f.reg, f.lo, idx⟩ (v % 2 ^ f.w) d.regs }

/-- A one-bit field as a Boolean. -/
def Dev.flag (d : Dev) (f : Field) (idx : List Nat := []) : Bool := d.getF f idx == 1

/-- Set a one-bit field. -/
def Dev.raise (d : Dev) (f : Field) (idx : List Nat := []) : Dev := d.setF f idx 1

/-- Clear a one-bit field. -/
def Dev.clear (d : Dev) (f : Field) (idx : List Nat := []) : Dev := d.setF f idx 0

/-- Bit `i` of a field. -/
def Dev.bitF (d : Dev) (f : Field) (idx : List Nat) (i : Nat) : Bool := bit (d.getF f idx) i

/-- Set bit `i` of a field. -/
def Dev.setBitF (d : Dev) (f : Field) (idx : List Nat) (i : Nat) : Dev := d.setF f idx (setBit (d.getF f idx) i)

/-- Clear bit `i` of a field. -/
def Dev.clrBitF (d : Dev) (f : Field) (idx : List Nat) (i : Nat) : Dev := d.setF f idx (clrBit (d.getF f idx) i)

/-- Add to a counter that saturates at all ones. -/
def Dev.addSat (d : Dev) (f : Field) (idx : List Nat) (n : Nat) : Dev :=
  d.setF f idx (min (d.getF f idx + n) (2 ^ f.w - 1))

/-- Add one to a saturating counter. -/
def Dev.incSat (d : Dev) (f : Field) (idx : List Nat := []) : Dev := d.addSat f idx 1

/-- Add to a counter that wraps. -/
def Dev.addWrap (d : Dev) (f : Field) (idx : List Nat) (n : Nat) : Dev := d.setF f idx (d.getF f idx + n)

/-- Subtract from a counter, not below zero. -/
def Dev.subF (d : Dev) (f : Field) (idx : List Nat) (n : Nat) : Dev := d.setF f idx (d.getF f idx - n)

/-- The word a read of register `r` returns: every readable field in its place, WO fields as zero (R7). -/
def Dev.readWord (d : Dev) (r : RegName) (idx : List Nat) : Nat :=
  ((fieldsOf r).filter (fun f => f.ty ≠ .wo)).foldl (fun n f => n + d.getF f idx * 2 ^ f.lo) 0

/-- Put every field of the registers that `p` selects at its reset value. -/
def Dev.resetRegs (d : Dev) (p : RegKey → Bool) : Dev := { d with regs := d.regs.filter (fun e => !p e.1) }

/-! ## Where registers lie (R29, R30) -/

/-- Base address of the register space. -/
def regSpace : Nat := 0x7F0000000000

/-- Decompose an offset along a register's dimensions into indices. -/
def dimsIdx : List (Nat × Nat × Nat) → Nat → Option (List Nat)
  | [], 0 => some []
  | [], _ + 1 => none
  | (count, stride, first) :: t, o =>
    if o / stride < count then (dimsIdx t (o % stride)).map (fun l => (o / stride + first) :: l) else none

/-- The unit-number space of a die's faces: `true` for class and die with a block. -/
def classDie (cls die : Nat) : Option DieNo :=
  if cls = 1 ∧ die = 0 then some 0
  else if cls = 2 ∧ die < 4 then some (1 + die)
  else if cls = 3 ∧ die < 8 then some (5 + die)
  else if cls = 4 ∧ die < 4 then some (13 + die)
  else if cls = 5 ∧ die < 8 then some (17 + die)
  else none

/-- Class and index within the class of a die number. -/
def dieClass (d : DieNo) : Nat × Nat :=
  if d = 0 then (1, 0) else if d ≤ 4 then (2, d - 1) else if d ≤ 12 then (3, d - 5)
  else if d ≤ 16 then (4, d - 13) else (5, d - 17)

/-- The leading indices with which register block `b` is reached at class and die, if it lies there. -/
def blockIdx (b : RegBlock) (cls die : Nat) : Option (List Nat) :=
  match b with
  | .mast => if cls = 1 ∧ die = 0 then some [] else none
  | .yard => if cls = 2 ∧ die < 4 then some [die] else none
  | .port => if cls = 3 ∧ die < 8 then some [die] else none
  | .sail => if cls = 4 ∧ die < 4 then some [die] else none
  | .base => if cls = 5 ∧ die < 8 then some [die] else none
  | .anyDie => (classDie cls die).map (fun d => [d])
  | .face => none

/-- Units of a die class that present a face (R25, R26). -/
def unitExists (cls unit : Nat) : Bool :=
  match cls with
  | 1 => unit < 2
  | 2 => unit ≤ 0x10 || unit = 0x20 || unit = 0x30 || unit = 0xFF
  | 3 => unit < 0x24 || unit = 0xFF
  | 4 => unit < 0x50 || unit = 0xFF
  | 5 => unit < 0x12 || unit = 0x20 || unit = 0xFF
  | _ => false

/-- A tackle id that exists (R24–R26): a leaf, a one-die group, or one of the three spanning groups. -/
def tackleExists (t : Nat) : Bool :=
  t = 0 || t = 0x4FFF || t = 0x5FFF ||
    (t < 65536 && (classDie (t / 4096) (t / 256 % 16)).isSome && unitExists (t / 4096) (t % 256))

/-- The die whose faces and queue map serve tackle `t`; 25 stands for the groups that span dies (R139). -/
def tackleDie (t : Nat) : DieNo :=
  if t = 0 ∨ t = 0x4FFF ∨ t = 0x5FFF then 25 else (classDie (t / 4096) (t / 256 % 16)).getD 25

/-- The register described by `r` at offset `o` of the block of class `cls`, die `die`. -/
def descAt (cls die o : Nat) (r : RegDesc) : Option (RegName × List Nat) :=
  match r.blk with
  | .face =>
    if cls = 1 ∧ 0xE00000 ≤ o ∧ o < 0xE00300 ∧ r.base ≤ o % 256 then
      (dimsIdx r.dims (o % 256 - r.base)).map (fun l => (r.reg, (if o / 256 % 4 = 0 then 0 else if o / 256 % 4 = 1 then 0x4FFF else 0x5FFF) :: l))
    else if 0xF00000 ≤ o ∧ o < 0xF10000 ∧ unitExists cls (o / 256 % 256) ∧ (classDie cls die).isSome ∧ r.base ≤ o % 256 then
      (dimsIdx r.dims (o % 256 - r.base)).map (fun l => (r.reg, (cls * 4096 + die * 256 + o / 256 % 256) :: l))
    else none
  | b =>
    match blockIdx b cls die with
    | none => none
    | some pre => if r.base ≤ o then (dimsIdx r.dims (o - r.base)).map (fun l => (r.reg, pre ++ l)) else none

/-- First register of the list that starts at the offset. -/
def findDesc (cls die o : Nat) : List RegDesc → Option (RegDesc × List Nat)
  | [] => none
  | r :: t => match descAt cls die o r with
    | some (_, l) => some (r, l)
    | none => findDesc cls die o t

/-- The register that starts at device-local address `a`, its indices included. -/
def regAt (a : Nat) : Option (RegDesc × List Nat) :=
  if a < regSpace then none
  else if 0x60000000 ≤ a - regSpace then none
  else findDesc ((a - regSpace) / 0x10000000) ((a - regSpace) / 0x1000000 % 16) ((a - regSpace) % 0x1000000) regDescs

/-- The description of a register by name. -/
def descOf (r : RegName) : Option RegDesc := regDescs.find? (fun x => x.reg = r)

/-! ## Islands (R23, R51, R57) -/

/-- First global island number of a die and its number of islands. -/
def dieIslands (d : DieNo) : Nat × Nat :=
  match dieClass d with
  | (1, _) => (0, 8)
  | (2, y) => (8 + 6 * y, 6)
  | (3, p) => (32 + 136 * p, 136)
  | (4, s) => (1120 + 66 * s, 66)
  | (_, n) => (1384 + 17 * n, 17)

/-- The die of a global island number. -/
def islandDie (g : Nat) : DieNo :=
  if g < 8 then 0 else if g < 32 then 1 + (g - 8) / 6 else if g < 1120 then 5 + (g - 32) / 136
  else if g < 1384 then 13 + (g - 1120) / 66 else 17 + (g - 1384) / 17

/-- The island of a die that stays running when the die leaves service, where its fault block lies. -/
def faultIsland (d : DieNo) : Nat :=
  match dieClass d with
  | (1, _) => 0
  | (2, _) => (dieIslands d).1 + 5
  | (3, _) => (dieIslands d).1 + 135
  | (4, _) => (dieIslands d).1 + 65
  | _ => (dieIslands d).1 + 16

/-- The island of a tackle's face and work queues (R23). -/
def tackleIsland (t : Nat) : Nat :=
  if t = 0 ∨ t = 0x4FFF ∨ t = 0x5FFF ∨ t / 4096 = 1 then 5
  else
    let d := tackleDie t
    let u := t % 256
    let b := (dieIslands d).1
    if u = 0xFF then faultIsland d
    else match t / 4096 with
      | 2 => if u ≤ 8 then b + 2 else if u ≤ 16 then b + 3 else b + 4
      | 3 => if u < 0x20 then b + 133 else b + 134
      | 4 => if u < 0x40 then b + u else b + 64
      | _ => if u < 0x10 then b + u else b + 16

/-- The island a register is held in (log 8: the spec names it for some registers only). -/
def regIsland (r : RegName) (idx : List Nat) : Nat :=
  match r with
  | .HST_PORT_STAT | .HST_PORT_ERR | .HST_APER_BASE | .HST_IND_ADDR | .HST_IND_DATA | .HST_IND_CTRL | .HST_IND_STAT => 1 + ix idx 0
  | .FAB_TIME | .FAB_STEP | .FAB_CTRL | .FAB_STAT => 6
  | .MST_BOOT_STAT | .MST_BOOT_CTRL | .MST_FUSE_PROG | .MST_RECOVERY => 7
  | .MST_IDENT | .MST_UNITS | .MST_CLK_STAT | .MST_PLL_LOCK | .MST_HOIST_STAT | .MST_CLKON | .MST_CLK_HOLD
  | .MST_READY | .MST_READY_STACK | .MST_SEC_FUSE | .MST_RST_REQ | .MST_RST_STAT | .MST_RST_CAUSE
  | .MST_FAULT_STAT | .MST_FAULT_HOLD | .MST_FAULT_TIME | .MST_MGMT_CMD | .MST_MGMT_STAT
  | .SNS_TEMP | .SNS_REM | .SNS_REM_CFG | .SNS_REM_RES | .SNS_STAT | .SNS_LIMITS | .SNS_SAIL_THR | .SNS_TRIP_SRC
  | .PWR_RAIL_STAT | .PWR_VSAIL | .PWR_SAIL_CTRL | .PWR_SAIL_STAT | .PWR_SAIL_THR_CNT | .PWR_SAIL_RATIO_CNT => 0
  | .FLT_STAT | .FLT_IRQ_EN | .FLT_FATAL_EN | .FLT_MERGED | .FLT_COR_CNT | .XING_DISCARD
  | .TRC_Q | .TRC_STAT | .TRC_RECS | .TRC_STALL | .TRC_DISCARD => faultIsland (ix idx 0)
  | .TCK_STAT | .TCK_ERR | .TCK_ERR_FIRST | .TCK_ERR_INDEX | .TCK_IRQ_EN | .TCK_DONE | .TCK_QCFG | .TCK_QCTL
  | .TCK_ARITH | .TCK_QIDX | .SEQ_CTR | .SEQ_STAT | .SEQ_STREAMS => tackleIsland (ix idx 0)
  | .YRD_COLL_OVF | .YRD_COLL_STAT | .YRD_COLL_OPEN | .YRD_COLL_STG_FREE | .YRD_COLL_PROM_FREE | .YRD_COLL_PROM_RESUME
  | .YRD_COLL_STRAY | .YRD_COLL_SEAL_FAIL | .YRD_COLL_TIMEOUT | .YRD_COLL_OVF_CNT | .YRD_CPS_MAP => 8 + 6 * ix idx 0 + 4
  | .CPS_STAT | .CPS_CHUNKS | .CPS_PROMOTED | .CPS_ST_RUNS | .CPS_ST_CTRL | .CPS_LATE =>
    8 + 6 * ix idx 0 + (if ix idx 1 ≤ 8 then 2 else 3)
  | .LNE_CTRL | .LNE_STAT | .LNE_LAT | .LNE_TXEQ | .LNE_RXEQ | .LNE_EYE_CTRL | .LNE_EYE | .LNE_FEC_CW | .LNE_FEC_CORR
  | .LNE_FEC_UCW | .LNE_UCW_LIMIT | .LNE_CTRL_RSVD | .LNE_FEC_HIST | .LNE_CAPS_PEER => 32 + 136 * ix idx 0 + ix idx 1
  | .LNE_SPARE => 32 + 136 * ix idx 0 + 135
  | .PRT_SPRAY | .PRT_CUT_CFG | .PRT_RT_PORT | .PRT_RT_LOCAL | .PRT_RT_NOROUTE | .PRT_RT_DETOUR | .PRT_RT_TRANSIT
  | .PRT_RT_MISROUTE | .PRT_FL_CTL | .PRT_FL_PORTS | .PRT_FL_SEL_LO | .PRT_FL_SEL_HI | .PRT_PKEY | .PRT_PKEY_STAT
  | .PRT_PKEY_DROP | .PRT_PKEY_REFUSE => 32 + 136 * ix idx 0 + 132
  | .PRT_RC_PROF | .PRT_RC_PROF2 | .PRT_FLOW_RATE => 32 + 136 * ix idx 0 + 134
  | .SAL_CLEAT | .SAL_CLEAT_STATUS | .SAL_BANK_PWR | .SAL_BANK_WAKES => 1120 + 66 * ix idx 0 + (if ix idx 1 < 64 then ix idx 1 else 64)
  | .SAL_OWNER_DROP => 1120 + 66 * ix idx 0 + 65
  | .SAL_CORE_OK | .SAL_VEC_OK | .SAL_MERGE_CNT | .SAL_CORE_BUSY | .SAL_VEC_BUSY => 1120 + 66 * ix idx 0 + 64
  | r =>
    match (descOf r).map RegDesc.blk with
    | some .yard => 8 + 6 * ix idx 0 + 1
    | some .port => 32 + 136 * ix idx 0 + 133
    | some .base => 1384 + 17 * ix idx 0 + 16
    | _ => 5

/-- The clock-on bit of island `g`: its clock runs and its reset is released (R57). -/
def Dev.islandOn (d : Dev) (g : Nat) : Bool := d.bitF F.MST_CLKON_ON [g / 32] (g % 32)

/-- Island `g` is stopped without reset, by a reef or a sail ratio change. -/
def Dev.islandStopped (d : Dev) (g : Nat) : Bool := !d.islandOn g && d.clk.stopped.contains g

/-- Island `g` is held in reset. -/
def Dev.islandInReset (d : Dev) (g : Nat) : Bool := !d.islandOn g && !d.clk.stopped.contains g

/-- Set the clock-on bit of island `g`. After a JTAG SCAN only a device reset restarts an island (R512). -/
def Dev.startIsland (d : Dev) (g : Nat) : Dev :=
  if d.jtag.scanned && g != 0 then d
  else
    let d := d.setBitF F.MST_CLKON_ON [g / 32] (g % 32)
    { d with clk := { d.clk with stopped := d.clk.stopped.filter (· ≠ g) } }

/-- Clear the clock-on bit of island `g` and hold it in reset. -/
def Dev.holdIsland (d : Dev) (g : Nat) : Dev :=
  let d := d.clrBitF F.MST_CLKON_ON [g / 32] (g % 32)
  { d with clk := { d.clk with stopped := d.clk.stopped.filter (· ≠ g) } }

/-- Clear the clock-on bit of island `g` and stop its clock without reset (R58). -/
def Dev.stopIsland (d : Dev) (g : Nat) : Dev :=
  let d := d.clrBitF F.MST_CLKON_ON [g / 32] (g % 32)
  if d.clk.stopped.contains g then d else { d with clk := { d.clk with stopped := d.clk.stopped ++ [g] } }

/-- A clock hold defers non-reset stops of island `g` (R59). -/
def Dev.islandHeldOn (d : Dev) (g : Nat) : Bool := d.bitF F.MST_CLK_HOLD_HOLD [g / 32] (g % 32)

/-! ## Units in service (R32) -/

/-- Die `d` is in service by MST_UNITS. -/
def Dev.dieOk (d : Dev) (n : DieNo) : Bool :=
  match dieClass n with
  | (1, _) => true
  | (2, y) => d.bitF F.MST_UNITS_YARD_OK [] y
  | (3, p) => d.bitF F.MST_UNITS_PORT_OK [] p
  | (4, s) => d.bitF F.MST_UNITS_SAIL_OK [] s
  | (_, k) => d.bitF F.MST_UNITS_BASE_OK [] k

/-- The READY bit of the function that holds die `n` (R102). -/
def Dev.dieReady (d : Dev) (n : DieNo) : Bool :=
  match dieClass n with
  | (1, _) => d.flag F.MST_READY_MAST
  | (2, y) => d.bitF F.MST_READY_YARD [] y
  | (3, p) => d.bitF F.MST_READY_PORT [] p
  | (4, s) => d.bitF F.MST_READY_SAIL [] s
  | (_, k) => d.bitF F.MST_READY_BASE [] k

/-- Set or clear the READY bit of die `n` (DEDUCED, log 43). -/
def Dev.setReady (d : Dev) (n : DieNo) (v : Bool) : Dev :=
  let go := fun (f : Field) (i : Nat) => if v then d.setBitF f [] i else d.clrBitF f [] i
  match dieClass n with
  | (1, _) => d.setF F.MST_READY_MAST [] (b2n v)
  | (2, y) => go F.MST_READY_YARD y
  | (3, p) => go F.MST_READY_PORT p
  | (4, s) => go F.MST_READY_SAIL s
  | (_, k) => go F.MST_READY_BASE k

/-- The yards in service, in index order. -/
def Dev.yards (d : Dev) : List Nat := (List.range 4).filter (fun y => d.bitF F.MST_UNITS_YARD_OK [] y)

/-- Fabric time at the most recent frame start. -/
def Dev.fabTime (d : Dev) : Nat := d.getF F.FAB_TIME_TIME

/-- A pending run anchor holds dispatch now (R74). -/
def Dev.anchorHolds (d : Dev) : Bool :=
  match d.eng.anchorFrom with
  | some t => decide (t ≤ d.clk.now)
  | none => false

/-! ## Memory (R29, R30) -/

/-- What an unlisted byte of device memory reads as (log 4). -/
def unlisted : Byte := 0

/-- The memory's canonical form from address `lo` on: rising addresses, no byte equal to the unlisted one. -/
def cellsFrom : Nat → List Host.Cell → Bool
  | _, [] => true
  | lo, (a, b) :: t => decide (lo ≤ a) && decide (b ≠ unlisted) && cellsFrom (a + 1) t

/-- The canonical form of a memory (DESIGN CHOICE, log 4). -/
def Memory.wf (m : List Host.Cell) : Bool := cellsFrom 0 m

/-- One byte of a memory (DESIGN CHOICE, log 4). -/
def memGet (m : List Host.Cell) (a : Nat) : Byte := tget unlisted m a

/-- Write one byte of a memory (DESIGN CHOICE, log 4). -/
def memPut (m : List Host.Cell) (a : Nat) (b : Byte) : List Host.Cell :=
  tput (fun i j => decide (i < j)) unlisted a b m

/-- Write bytes from address `a` on (DESIGN CHOICE, log 4). -/
def memWrite (m : List Host.Cell) : Nat → List Byte → List Host.Cell
  | _, [] => m
  | a, b :: t => memWrite (memPut m a b) (a + 1) t

/-- Forget the contents of the addresses `p` selects (DESIGN CHOICE, log 4). -/
def memLose (m : List Host.Cell) (p : Nat → Bool) : List Host.Cell := m.filter (fun c => !p c.1)

/-- Take the addresses from `a` to `e - 1` out of a list of intervals. -/
def cutOut (a e : Nat) : List (Nat × Nat × Nat) → List (Nat × Nat × Nat)
  | [] => []
  | (lo, hi, g) :: t =>
    if hi ≤ a ∨ e ≤ lo then (lo, hi, g) :: cutOut a e t
    else (if lo < a then [(lo, a, g)] else []) ++ (if e < hi then [(e, hi, g)] else []) ++ cutOut a e t

/-- The reset that made the byte at `a` undefined, if nothing has written it since. -/
def lostAt (a : Nat) : List (Nat × Nat × Nat) → Option Nat
  | [] => none
  | (lo, hi, g) :: t => if lo ≤ a ∧ a < hi then some g else lostAt a t

/-- One byte of device memory: a free value where a reset made it undefined (R105; log 4). -/
def Dev.byte (d : Dev) (a : Nat) : Byte :=
  match lostAt a d.bank.lost with
  | some g => Config.lostByte g a
  | none => memGet d.mem a

/-- A reset makes the contents of the addresses from `lo` to `hi - 1` undefined (DESIGN CHOICE, log 4). -/
def Dev.loseMem (d : Dev) (lo hi : Nat) : Dev :=
  { d with mem := memLose d.mem (fun a => decide (lo ≤ a) && decide (a < hi))
           bank := { d.bank with lost := (lo, hi, d.bank.lostGen) :: cutOut lo hi d.bank.lost
                                 lostGen := d.bank.lostGen + 1 } }

/-- Bytes of device memory. The capstan window shows slots and promotion entries; where it holds none, its bytes are free values
(R317, R318; log 79). -/
def Dev.read (d : Dev) (a n : Nat) : List Byte :=
  if 0x300000000000 ≤ a then (List.range n).map (fun i => (d.windowByte (a + i - 0x300000000000)).getD (Config.freeByte (d.freeCtr + a + i)))
  else (List.range n).map (fun i => d.byte (a + i))

/-- Write bytes of device memory. -/
def Dev.write (d : Dev) (a : Nat) (l : List Byte) : Dev :=
  { d with mem := memWrite d.mem a l, bank := { d.bank with lost := cutOut a (a + l.length) d.bank.lost } }

/-- What a device-local address names (R29, R30). -/
inductive Place where
  | stack (n : Nat)
  /-- Sail `s`, bank 0–63 of a matrix core or 64–79 staging. -/
  | sail (s b : Nat)
  | base (n b : Nat)
  | capStage (y : Nat)
  | promPool (y : Nat)
  | regs
  | reserved
  deriving DecidableEq, Repr

/-- The place of a device-local address. -/
def place (a : Nat) : Place :=
  if a < 0x6000000000 then .stack (a / 0xC00000000)
  else if 0x100000000000 ≤ a ∧ a < 0x100040000000 then
    let o := a - 0x100000000000
    if o % 0x10000000 < 0x8000000 then .sail (o / 0x10000000) (o % 0x10000000 / 0x200000)
    else if o % 0x10000000 < 0xC000000 then .sail (o / 0x10000000) (64 + (o % 0x10000000 - 0x8000000) / 0x400000)
    else .reserved
  else if 0x200000000000 ≤ a ∧ a < 0x200020000000 then
    let o := a - 0x200000000000
    if o % 0x4000000 < 0x2000000 then .base (o / 0x4000000) (o % 0x4000000 / 0x200000) else .reserved
  else if 0x300000000000 ≤ a ∧ a < 0x300020000000 then
    let o := a - 0x300000000000
    if o % 0x8000000 < 0x4000000 then .capStage (o / 0x8000000)
    else if o % 0x8000000 < 0x4800000 then .promPool (o / 0x8000000) else .reserved
  else if regSpace ≤ a ∧ a < regSpace + 0x60000000 then .regs
  else .reserved

/-- The first address past the place that holds `a`. -/
def placeEnd (a : Nat) : Nat :=
  match place a with
  | .stack n => (n + 1) * 0xC00000000
  | .sail _ b => if b < 64 then (a / 0x200000 + 1) * 0x200000 else (a / 0x400000 + 1) * 0x400000
  | .base _ _ => (a / 0x200000 + 1) * 0x200000
  | .capStage _ => (a / 0x4000000 + 1) * 0x4000000
  | .promPool _ => (a / 0x800000 + 1) * 0x800000
  | .regs => regSpace + 0x60000000
  | .reserved => a + 1

/-- The places from `a` up to `hi`, in address order, ending at the first reserved one; `fuel` bounds how many. -/
def placesUpTo (hi : Nat) : Nat → Nat → List Place
  | 0, _ => []
  | k + 1, a =>
    if hi ≤ a then []
    else if place a = .reserved then [.reserved]
    else place a :: placesUpTo hi k (placeEnd a)

/-- The places that the bytes from `a` to `a + n - 1` touch. -/
def placesOf (a n : Nat) : List Place := placesUpTo (a + n) 1024 a

/-- First address of a stack. -/
def stackBase (n : Nat) : Nat := n * 0xC00000000
/-- First address of sail `s`'s window. -/
def sailBase (s : Nat) : Nat := 0x100000000000 + s * 0x10000000
/-- First address of base die `n`'s scratchpad window. -/
def padBase (n : Nat) : Nat := 0x200000000000 + n * 0x4000000

/-! ## Free values (log 5) -/

/-- Take `n` free bytes (DESIGN CHOICE, log 5). -/
def Dev.freeBytes (d : Dev) (n : Nat) : List Byte × Dev :=
  ((List.range n).map (fun i => Config.freeByte (d.freeCtr + i)), { d with freeCtr := d.freeCtr + n })

/-- Take one free number (DESIGN CHOICE, log 5). -/
def Dev.freeNum (d : Dev) : Nat × Dev := (Config.freeNat d.freeCtr, { d with freeCtr := d.freeCtr + 1 })

/-! ## What leaves the device -/

/-- Send something outside (DESIGN CHOICE, log 7). -/
def Dev.emit (d : Dev) (o : Out) : Dev := { d with out := d.out ++ [o] }

/-- Hand a record to its ring's waiting list; the ring takes or discards it at RECORD_WRITE (R129, R130). A headless device
discards it (R476). -/
def Dev.addRec (d : Dev) (ring : Nat) (bytes : List Byte) (owner : Option Nat) : Dev :=
  { d with host := { d.host with recs := if d.flt.lost then d.host.recs else d.host.recs ++ [⟨ring, bytes, owner⟩] } }

/-- Reset contents of an MSI-X table word: a vector's control word is masked (PCIe base specification; log 9). -/
def msixReset (w : Nat) : Nat := if w % 4 = 3 then 1 else 0

/-- Send MSI-X vector `v` of function `f` of port `x`: nothing while the link is down, pending while masked (PRESUMED, log 9). -/
def Dev.sendMsix (d : Dev) (x f v : Nat) : Dev :=
  if d.flag F.HST_PORT_STAT_LINK_UP [x] then
    if bit (nget (msixReset 3) d.host.msix [x, f, 4 * v + 3]) 0 then
      { d with host := { d.host with msixPend := nput false d.host.msixPend [x, f, v] true } }
    else d.emit (.msix x f v)
  else d

end Sys2Proof.Machine
end

