-- ==== Sys2Proof/Machine/Flags.lean ====
section
/-!
DEFINITION. The flags the device keeps about itself: timing-dependent choices (R79, R80), fault-block bits, the
fatal lines and FAULT_N (R466–R470), tackle errors (R395) and the arithmetic flags (R299).
-/
namespace Sys2Proof.Machine

/-! ## Timing-dependent choices (R79, R80) -/

/-- The causes of R79. -/
inductive Tdc where
  | freeTie | detour | rateChange | sailThrottle | lateContrib | hostLate | linkReplay | spareSwap | sailRatio
  | freeXing | partReset
  deriving DecidableEq, Repr

/-- The code of a cause. -/
def Tdc.code : Tdc → Nat
  | .freeTie => 0 | .detour => 1 | .rateChange => 2 | .sailThrottle => 3 | .lateContrib => 4 | .hostLate => 5
  | .linkReplay => 6 | .spareSwap => 7 | .sailRatio => 8 | .freeXing => 9 | .partReset => 10

/-- Count one choice; the first since a clear records its time, cause and unit (R80). -/
def Dev.tdc (d : Dev) (c : Tdc) (unit : Nat) : Dev :=
  let d := (d.addWrap F.MST_TDC_TOTAL_TOTAL [] 1).incSat F.MST_TDC_CNT_COUNT [c.code]
  if d.flag F.MST_DET_STAT_TDC_ANY then d
  else
    (((d.raise F.MST_DET_STAT_TDC_ANY).setF F.MST_TDC_FIRST_TIME [] d.fabTime).setF F.MST_TDC_FIRST_SRC_CAUSE [] c.code).setF
      F.MST_TDC_FIRST_SRC_TACKLE [] unit

/-- The group tackle id of a die, the unit R80 names for choices counted outside any tackle. -/
def dieUnit (n : DieNo) : Nat :=
  if n = 0 then 0x1000 else (dieClass n).1 * 4096 + (dieClass n).2 * 256 + 0xFF

/-- An arbiter of die `n` chooses among `k` requests: where one came over a free crossing of the die, that crossing may have decided the
tie, and then it is one FREE_TIE (R53, R79). Whether it did is open: a free number (DEDUCED, log 16). -/
def Dev.freeTie (d : Dev) (n : DieNo) (k : Nat) : Dev :=
  if k < 2 || nget 0 d.clk.freeX [n] == 0 then d
  else
    let x := d.freeNum
    if x.1 % 2 = 1 then x.2.tdc .freeTie (dieUnit n) else x.2

/-- HELD_START reads 1 while DONE = 1, FREE_XING = 0 and FRAME_SLIP = 0 (R93). -/
def Dev.heldStart (d : Dev) : Dev :=
  d.setF F.MST_DET_STAT_HELD_START [] (b2n (d.flag F.MST_HOIST_STAT_DONE && d.getF F.MST_HOIST_STAT_FREE_XING == 0 && !d.flag F.MST_CLK_STAT_FRAME_SLIP))

/-! ## Fault blocks and FAULT_N (R466–R470) -/

/-- Fault sources with their bit in FLT_STAT (R466). -/
inductive FSrc where
  | ctrlUnc | ptrMismatch | ctrlCor | unitOut | faceCtrl | xingDiscard
  | refLost | frameSlip | hoistFail | ringCheck
  | poolPtr | poolLeak | cpsSelftest | cpsNoSpare | collSeal
  | laneFault | laneNoSpare | portDown | linkErr | rsqLost | pkey
  | stkCaRetry | stkCaFatal | stkTestFail
  deriving DecidableEq, Repr

/-- The bit of a source. -/
def FSrc.bit : FSrc → Nat
  | .ctrlUnc => 0 | .ptrMismatch => 1 | .ctrlCor => 2 | .unitOut => 3 | .faceCtrl => 4 | .xingDiscard => 5
  | .refLost => 8 | .frameSlip => 9 | .hoistFail => 10 | .ringCheck => 11
  | .poolPtr => 8 | .poolLeak => 9 | .cpsSelftest => 10 | .cpsNoSpare => 11 | .collSeal => 12
  | .laneFault => 8 | .laneNoSpare => 9 | .portDown => 10 | .linkErr => 11 | .rsqLost => 12 | .pkey => 13
  | .stkCaRetry => 8 | .stkCaFatal => 9 | .stkTestFail => 10

/-- The fatal line of die `n` (R468). -/
def Dev.fatalLine (d : Dev) (n : DieNo) : Bool :=
  (onesOf 16 (d.getF F.FLT_STAT_SRC [n])).any (fun i => bit (d.getF F.FLT_FATAL_EN_EN [n]) i)

/-- The device is headless (R475): the register bit outlives the device reset that ends this (R477). -/
def Dev.headless (d : Dev) : Bool := d.flt.lost

/-- FAULT_N's level from its three causes (R470). -/
def Dev.faultPin (d : Dev) : Dev :=
  d.setF F.MST_FAULT_STAT_ASSERTED [] (b2n (d.flt.pulse.isSome || d.flag F.MST_FAULT_HOLD_HOLD || d.flag F.MST_FAULT_STAT_HEADLESS))

/-- A snapshot trigger: counted as missed while one is collected (R508) or while snapshot records are off (R516); none while
headless (R511). Triggers before one cut share it. -/
def Dev.snapTrigger (d : Dev) : Dev :=
  if d.headless then d
  else if d.flag F.MST_SNAP_STAT_BUSY || !d.flag F.MST_SNAP_CTRL_RING_EN then d.incSat F.MST_SNAP_MISSED_COUNT
  else { d with tel := { d.tel with snapPending := true } }

/-- A fatal line of die `n` rises: one pulse of FAULT_N unless PULSED is set (R469). -/
def Dev.fatalRise (d : Dev) (n : DieNo) : Dev :=
  if d.flag F.MST_FAULT_STAT_PULSED then d
  else
    let d := ((d.raise F.MST_FAULT_STAT_PULSED).setF F.MST_FAULT_STAT_FIRST_DIE [] n).setF F.MST_FAULT_TIME_TIME [] d.fabTime
    let d := { d with flt := { d.flt with pulse := some d.clk.now } }
    let d := d.faultPin
    if d.flag F.MST_SNAP_CTRL_AUTO_FATAL then d.snapTrigger else d

/-- An event of source bit `i` of die `n` (R467, R468): set the bit or merge, send the die's message, drive the line. -/
def Dev.faultBit (d : Dev) (n : DieNo) (i : Nat) : Dev :=
  if d.bitF F.FLT_STAT_SRC [n] i then d.incSat F.FLT_MERGED_COUNT [n]
  else
    let was := d.fatalLine n
    let d := d.setBitF F.FLT_STAT_SRC [n] i
    let d := if d.bitF F.FLT_IRQ_EN_EN [n] i && !d.headless then d.sendMsix d.clk.helm 0 (32 + n) else d
    if d.fatalLine n && !was then d.fatalRise n else d

/-- An event of a fault source of die `n`. -/
def Dev.fault (d : Dev) (n : DieNo) (s : FSrc) : Dev := d.faultBit n s.bit

/-- Events of several sources of die `n` in one cycle: one message for all the bits that rise (R468). -/
def Dev.faults (d : Dev) (n : DieNo) (ss : List FSrc) : Dev :=
  let rising := ss.filter (fun s => !d.bitF F.FLT_STAT_SRC [n] s.bit)
  let was := d.fatalLine n
  let irq := rising.any (fun s => d.bitF F.FLT_IRQ_EN_EN [n] s.bit)
  let d := d.addSat F.FLT_MERGED_COUNT [n] (ss.length - rising.length)
  let d := rising.foldl (fun d s => d.setBitF F.FLT_STAT_SRC [n] s.bit) d
  let d := if irq && !d.headless then d.sendMsix d.clk.helm 0 (32 + n) else d
  if d.fatalLine n && !was then d.fatalRise n else d

/-- Count replies discarded at the crossings of die `n` (R55), one event of its source each time. -/
def Dev.xingDiscard (d : Dev) (n : DieNo) (k : Nat) : Dev :=
  if k = 0 then d
  else ((d.addSat F.XING_DISCARD_COUNT [n] k).fault n .xingDiscard).addSat F.FLT_MERGED_COUNT [n] (k - 1)

/-! ## Tackle errors (R395) -/

/-- Die whose vector carries the face interrupt of tackle `t`: spanning groups use the Mast's (R468). -/
def faceDie (t : Nat) : DieNo := if tackleDie t = 25 then 0 else tackleDie t

/-- Bits of TCK_ERR as one number. -/
def Dev.tckErr (d : Dev) (t : Nat) : Nat :=
  d.getF F.TCK_ERR_CMD_ERR [t] + 2 * d.getF F.TCK_ERR_REJECT [t] + 4 * d.getF F.TCK_ERR_OWNER [t]
    + 8 * d.getF F.TCK_ERR_TIMEOUT [t] + 16 * d.getF F.TCK_ERR_SEQ [t] + 32 * d.getF F.TCK_ERR_CTRL_CHECK [t]

/-- Set TCK_ERR bits; a rising enabled bit raises the face interrupt, and CTRL_CHECK the FACE_CTRL source (DEDUCED, log 39). -/
def Dev.tckRaise (d : Dev) (t : Nat) (fs : List (Field × Nat)) : Dev :=
  let rising := fs.filter (fun f => !d.flag f.1 [t])
  let d' := rising.foldl (fun d f => d.raise f.1 [t]) d
  let irq := rising.any (fun f => bit (d.getF F.TCK_IRQ_EN_EN [t]) f.2)
  let d' := if irq && !d'.headless then d'.sendMsix d'.clk.helm 0 (32 + faceDie t) else d'
  if rising.any (fun f => f.2 == 5) then d'.fault (faceDie t) .faceCtrl else d'

/-- The cause bits of a status other than OK: CMD_ERR always, and its own when it has one. `wait`: the command is a
WAIT; `seq`: a stream error. -/
def errBits (st : Status) (wait seq : Bool) : List (Field × Nat) :=
  [(F.TCK_ERR_CMD_ERR, 0)] ++ (if st = .reservedOp then [(F.TCK_ERR_REJECT, 1)] else [])
    ++ (if st = .owner then [(F.TCK_ERR_OWNER, 2)] else []) ++ (if st = .timeout ∧ wait then [(F.TCK_ERR_TIMEOUT, 3)] else [])
    ++ (if seq then [(F.TCK_ERR_SEQ, 4)] else []) ++ (if st = .ctrlCheck then [(F.TCK_ERR_CTRL_CHECK, 5)] else [])

/-- A command of tackle `t` completes with an error: the first error after TCK_ERR reads zero loads ERR_FIRST and
ERR_INDEX (R395). -/
def Dev.tckError (d : Dev) (t q op index : Nat) (st : Status) (wait seq : Bool) : Dev :=
  if st = .ok then d
  else
    let d := if d.tckErr t = 0 then
        (((d.setF F.TCK_ERR_FIRST_STATUS [t] st.code).setF F.TCK_ERR_FIRST_QUEUE [t] q).setF F.TCK_ERR_FIRST_OPCODE [t] op).setF F.TCK_ERR_INDEX_INDEX [t] index
      else d
    d.tckRaise t (errBits st wait seq)

/-! ## Arithmetic flags (R299) -/

/-- What an arithmetic command saw: counts of saturated and flushed elements, and whether a NaN was read. -/
structure Arith where
  sat : Nat
  flush : Nat
  nanIn : Bool
  deriving DecidableEq, Repr

/-- Nothing to report. -/
def Arith.zero : Arith := ⟨0, 0, false⟩

/-- Two reports together. -/
def Arith.add (a b : Arith) : Arith := ⟨a.sat + b.sat, a.flush + b.flush, a.nanIn || b.nanIn⟩

/-- TCK_ARITH of tackle `t` takes the flags of a report. -/
def Dev.arith (d : Dev) (t : Nat) (a : Arith) : Dev :=
  let d := if 0 < a.flush then d.raise F.TCK_ARITH_FLUSH [t] else d
  let d := if 0 < a.sat then d.raise F.TCK_ARITH_SAT [t] else d
  if a.nanIn then d.raise F.TCK_ARITH_NAN_IN [t] else d

/-- A control structure has lost its contents to an uncorrectable error (R464). -/
def Dev.broken (d : Dev) (k : List Nat) : Bool := d.net.broken.contains k

/-- It is rewritten. -/
def Dev.mended (d : Dev) (k : List Nat) : Dev := { d with net := { d.net with broken := d.net.broken.filter (· ≠ k) } }

end Sys2Proof.Machine
end

