-- ==== Sys2Proof/Machine/Banks.lean ====
section
/-!
DEFINITION. Stacks and scratchpad banks (14): owners and admitted writes (R353–R355), the checked store every engine
uses, waking from retention and self-refresh, and changes of the protection set-up (R136).
-/
namespace Sys2Proof.Machine

/-! ## Protection changes (R136, R137) -/

/-- Items of the protection set-up with their PENDING bit (R139). -/
inductive ProtItem where
  | cleat | keys | queueMap | fresh | aperture
  deriving DecidableEq, Repr

/-- The PENDING bit of an item. -/
def ProtItem.bit : ProtItem → Nat
  | .cleat => 0 | .keys => 1 | .queueMap => 2 | .fresh => 3 | .aperture => 4

/-- PENDING shows which items have changes not yet drained. -/
def Dev.protPending (d : Dev) : Dev := d.setF F.MST_PROT_STAT_PENDING [] (ofOnes (d.host.prot.map ProtChg.item))

/-- Drained changes leave the list from its front; a fresh-mode change drains at once (R137). -/
def protDrainFresh : List ProtChg → Nat → Nat × List ProtChg
  | [], g => (g, [])
  | c :: t, g => if c.item = 3 then protDrainFresh t c.num else (g, c :: t)

/-- An accepted write to an item becomes change g = GEN + 1; what the old set-up admitted is noted (R137). -/
def Dev.protChange (d : Dev) (it : ProtItem) : Dev :=
  let g := (d.getF F.MST_PROT_GEN_GEN + 1) % 2 ^ 32
  let d := d.setF F.MST_PROT_GEN_GEN [] g
  let r := protDrainFresh (d.host.prot ++ [⟨g, it.bit,
    if it = .queueMap then d.host.binds.map (fun b => (b.1, b.2.num, d.getF F.HST_CR_COUNT_PRODUCED b.1)) else [],
    if it = .keys then d.net.flights.map (·.1) else []⟩]) (d.getF F.MST_PROT_DRAINED_DRAINED)
  let d := { d with host := { d.host with prot := r.2 } }
  (d.setF F.MST_PROT_DRAINED_DRAINED [] r.1).protPending

/-- The commands of binding `num` of ring `i` that doorbells up to PRODUCED = `p` covered are dequeued; a ring that is bound no more,
or bound anew, has none of them left. -/
def Dev.ringPassed (d : Dev) (i : List Nat) (num p : Nat) : Bool :=
  match nget? d.host.binds i with
  | some b => b.num != num || decide (2 ^ 31 ≤ (p + 2 ^ 32 - 1 - d.getF F.HST_CR_COUNT_CONSUMED i) % 2 ^ 32)
  | none => true

/-- Nothing admitted under the set-up before a change is still on its way (R137). -/
def Dev.protDone (d : Dev) (c : ProtChg) : Bool :=
  c.rings.all (fun r => d.ringPassed r.1 r.2.1 r.2.2) && c.ids.all (fun i => (nget? d.net.flights i).isNone && d.net.arrivals.all (fun a => [a.id] != i))
    && (c.item != 4 || d.clk.heldAper.all (fun h => decide ((h.gen + 2 ^ 32 - c.num) % 2 ^ 32 < 2 ^ 31)))

/-- PROT_DRAINED: the oldest change drains (R136) (DEDUCED, log 65). -/
def Dev.protDrained (d : Dev) : Dev :=
  match d.host.prot with
  | [] => d
  | c :: t =>
    if d.protDone c then
      let r := protDrainFresh t c.num
      let d := { d with host := { d.host with prot := r.2 } }
      (d.setF F.MST_PROT_DRAINED_DRAINED [] r.1).protPending
    else d

/-! ## Banks -/

/-- OWNER of a bank (R353). -/
def Dev.bankOwner (d : Dev) (sail : Bool) (die b : Nat) : Nat :=
  if sail then d.getF F.SAL_CLEAT_OWNER [die, b] else d.getF F.BSE_CLEAT_OWNER [die, b]

/-- An owner id that is not reserved (R353). -/
def ownerOk (o : Nat) : Bool := (1 ≤ o && o ≤ 4) || (0x10 ≤ o && o ≤ 0x80) || o == 0xFF

/-- Who writes a bank (R353). -/
inductive Writes where
  /-- A command from a queue of partition `hp`, executing on tackle `t` (or a leaf of it). -/
  | cmd (hp t : Nat)
  /-- An aperture write of partition `x`. -/
  | aperture (x : Nat)
  /-- Fabric receive: PUT payloads, FINAL deliveries, landings, capstan results. -/
  | fabric
  /-- A packet whose write the bank granted when it took the first cell: it completes whatever the owner becomes (R355). -/
  | granted
  deriving DecidableEq, Repr

/-- Tackle `t` is `g`, or a leaf of it when it is a group tackle: of a die, of the sails, of the base dies, or of both (R371). -/
def leafOf (t g : Nat) : Bool :=
  t == g || (t % 256 != 0xFF && ((g == 0 && (t / 4096 == 4 || t / 4096 == 5)) || (g == 0x4FFF && t / 4096 == 4) || (g == 0x5FFF && t / 4096 == 5)
    || (g % 256 == 0xFF && g / 256 == t / 256)))

/-- The owner admits the write. -/
def Dev.admits (d : Dev) (o : Nat) (w : Writes) : Bool :=
  match w with
  | .cmd hp t =>
    if 1 ≤ o ∧ o ≤ 4 then hp + 1 == o
    else if 0x10 ≤ o ∧ o < 0x80 then d.flag F.MST_OWNER_MAP_VALID [o] && leafOf t (d.getF F.MST_OWNER_MAP_TACKLE [o])
    else false
  | .aperture x => o == x + 1
  | .fabric => o == 0x80
  | .granted => true

/-- An access to a bank in retention wakes it (R359). -/
def Dev.wakeBank (d : Dev) (sail : Bool) (die b : Nat) : Dev :=
  if sail then
    if d.flag F.SAL_BANK_PWR_IN_RET [die, b] then (d.clear F.SAL_BANK_PWR_IN_RET [die, b]).incSat F.SAL_BANK_WAKES_COUNT [die, b] else d
  else
    if d.flag F.BSE_BANK_PWR_IN_RET [die, b] then (d.clear F.BSE_BANK_PWR_IN_RET [die, b]).incSat F.BSE_BANK_WAKES_COUNT [die, b] else d

/-- The pseudo-channel, 0 to 63, in which a base die places the 256-byte granule of stack address `a` (R344): five
fields of the stack offset combined. -/
def pseudoChannel (a : Nat) : Nat :=
  let o := a % 0xC00000000
  bits o 8 6 ^^^ bits o 14 6 ^^^ bits o 20 6 ^^^ bits o 26 6 ^^^ bits o 32 4

/-- The channel of a stack that serves stack address `a`, and which of its two pseudo-channels (R344). -/
def stackChannel (a : Nat) : Nat × Nat := (pseudoChannel a / 2, pseudoChannel a % 2)

/-- An access to a stack ends its self-refresh and restarts its idle time (R360). -/
def Dev.wakeStack (d : Dev) (n : Nat) : Dev :=
  let d := { d with bank := { d.bank with stackLast := nset d.bank.stackLast [n] d.clk.now } }
  if d.flag F.BSE_STK_STAT_IN_SR [n] then (d.clear F.BSE_STK_STAT_IN_SR [n]).incSat F.BSE_STK_SR_EXITS_COUNT [n] else d

/-- STACK_SELF_REFRESH_EXIT of a stack in self-refresh (R360). -/
def Dev.stackWake (d : Dev) (n : Nat) : Dev := if d.flag F.BSE_STK_STAT_IN_SR [n] then d.wakeStack n else d

/-- The power-saving side of an access to one place. -/
def Dev.wake (d : Dev) : Place → Dev
  | .stack n => d.wakeStack n
  | .sail s b => d.wakeBank true s b
  | .base n b => d.wakeBank false n b
  | _ => d

/-- A write to one place is admitted: stacks have no owner (R348); the capstan window is read-only (R29). -/
def Dev.placeAdmits (d : Dev) (w : Writes) : Place → Bool
  | .stack _ => true
  | .sail s b => d.admits (d.bankOwner true s b) w
  | .base n b => d.admits (d.bankOwner false n b) w
  | _ => false

/-- Every place the bytes touch admits the write. -/
def Dev.canWrite (d : Dev) (w : Writes) (a n : Nat) : Bool := (placesOf a n).all (fun p => d.placeAdmits w p)

/-- The island that serves a place. -/
def placeIsland : Place → Nat
  | .stack n => 1384 + 17 * n + 16
  | .sail s b => 1120 + 66 * s + (if b < 64 then b else 64)
  | .base n _ => 1384 + 17 * n + 16
  | .capStage y => 8 + 6 * y + 2
  | .promPool y => 8 + 6 * y + 2
  | _ => 0

/-- An access to one place: what the command under way is answered where the place's island does not run, held while it is stopped and
UNIT_RESET while it is in reset (R22, R58, R553). -/
def Dev.meet (d : Dev) (p : Place) : Dev :=
  if d.islandOn (placeIsland p) then d
  else { d with bank := { d.bank with met := max d.bank.met (if d.islandStopped (placeIsland p) then 1 else 2) } }

/-- Count bytes written at a stack. -/
def Dev.countWrite (d : Dev) (a n : Nat) : Dev :=
  match place a with
  | .stack k => d.addWrap F.BSE_STK_WR_BYTES_COUNT [k] n
  | _ => d

/-- A command's store of `l` at `a`: each piece inside one place is granted or refused on its own (R355); the answer
says whether every piece was admitted. -/
def Dev.storePieces (w : Writes) : Nat → Dev → Nat → List Byte → Dev × Bool
  | 0, d, _, l => (d, l.isEmpty)
  | f + 1, d, a, l =>
    if l.isEmpty then (d, true)
    else
      let k := min l.length (placeEnd a - a)
      let ok := d.placeAdmits w (place a)
      let d := (d.wake (place a)).meet (place a)
      let d := if ok then (d.write a (l.take k)).countWrite a k else d
      let r := Dev.storePieces w f d (a + k) (l.drop k)
      (r.1, ok && r.2)

/-- A checked store. -/
def Dev.store (d : Dev) (w : Writes) (a : Nat) (l : List Byte) : Dev × Bool := Dev.storePieces w 1024 d a l

/-- Count the bytes of a read of `n` bytes at `a` that lie in one place, if it is a stack. -/
def Dev.countRead (d : Dev) (p : Place) (a n : Nat) : Dev :=
  match p with
  | .stack k => d.addWrap F.BSE_STK_RD_BYTES_COUNT [k] (min (a + n) (stackBase (k + 1)) - max a (stackBase k))
  | _ => d

/-- A read of `n` bytes for an engine: the bytes, and the device with banks and stacks woken and bytes counted. -/
def Dev.load (d : Dev) (a n : Nat) : List Byte × Dev :=
  (d.read a n, (placesOf a n).foldl (fun d p => ((d.wake p).countRead p a n).meet p) d)

/-- MST_READY_STACK bit of stack `n`. -/
def Dev.stackReady (d : Dev) (n : Nat) : Bool := d.bitF F.MST_READY_STACK_STACK [] n

/-- The bytes at `a` can be served: no island of theirs is in reset, and stacks are ready (DEDUCED, log 66). -/
def Dev.memServed (d : Dev) (a n : Nat) : Bool :=
  (placesOf a n).all (fun p => d.islandOn (placeIsland p) &&
    (match p with
     | .stack k => d.stackReady k
     | _ => true))

/-- The first island on the access's way that is stopped without reset. -/
def Dev.memStopped (d : Dev) (a n : Nat) : Option Nat := ((placesOf a n).map placeIsland).find? d.islandStopped

end Sys2Proof.Machine
end

