-- ==== Sys2Proof/Machine/Codeword.lean ====
section
/-!
DEFINITION. Codewords (R144–R147): the control field, the 5,140 message bits, and how a port's flit-byte stream lies on its lanes.
-/
namespace Sys2Proof.Machine

/-- Flit bytes of a codeword (R144). -/
def cwBytes : Nat := 640

/-- The control codes of R146. -/
inductive CtrlCode where
  | data | caps | capsAck | reefReq | reefAck | reefNak | drop | add | dropReq
  /-- 0x9–0xF. -/
  | reserved (n : Fin 7)
  deriving DecidableEq, Repr

/-- The number of a code. -/
def CtrlCode.num : CtrlCode → Nat
  | .data => 0 | .caps => 1 | .capsAck => 2 | .reefReq => 3 | .reefAck => 4 | .reefNak => 5 | .drop => 6 | .add => 7 | .dropReq => 8
  | .reserved n => 9 + n.val

/-- The code of a four-bit number. -/
def CtrlCode.ofNum (n : Nat) : CtrlCode :=
  match n % 16 with
  | 0 => .data | 1 => .caps | 2 => .capsAck | 3 => .reefReq | 4 => .reefAck | 5 => .reefNak | 6 => .drop | 7 => .add | 8 => .dropReq
  | 9 => .reserved 0 | 10 => .reserved 1 | 11 => .reserved 2 | 12 => .reserved 3 | 13 => .reserved 4 | 14 => .reserved 5 | _ => .reserved 6

/-- The control field (R145). -/
structure CtrlField where
  lane : Nat
  ctrl : CtrlCode
  arg : Nat
  seq : Nat
  deriving DecidableEq, Repr

/-- Its 20 bits as a number, bit 0 sent first. -/
def CtrlField.enc (c : CtrlField) : Nat := c.lane % 16 + 16 * c.ctrl.num + 256 * (c.arg % 16) + 4096 * (c.seq % 256)

/-- The field that 20 bits spell. -/
def CtrlField.dec (v : Nat) : CtrlField := ⟨bits v 0 4, .ofNum (bits v 4 4), bits v 8 4, bits v 12 8⟩

/-- Bits of a number, least significant first. -/
def lsbFirst (w v : Nat) : List Bool := (List.range w).map (bit v)

/-- The number that bits spell, least significant first. -/
def ofLsb : List Bool → Nat
  | [] => 0
  | b :: t => b2n b + 2 * ofLsb t

/-- The message bits of a codeword in the order sent (R144): control field, then the flit bytes. -/
def cwMessage (c : CtrlField) (flits : List Byte) : List Bool := lsbFirst 20 c.enc ++ flits.flatMap (fun b => lsbFirst 8 b.toNat)

/-- Bytes of a bit sequence, eight bits each; `fuel` bounds their number. -/
def bytesOfBits : Nat → List Bool → List Byte
  | 0, _ => []
  | f + 1, l => if l.length < 8 then [] else BitVec.ofNat 8 (ofLsb (l.take 8)) :: bytesOfBits f (l.drop 8)

/-- Control field and flit bytes of a received message. -/
def cwRead (l : List Bool) : CtrlField × List Byte := (.dec (ofLsb (l.take 20)), bytesOfBits cwBytes (l.drop 20))

/-- The codewords of one period of a port (R147): its flit bytes run in ascending logical-lane order over the lanes of the live set,
each codeword naming its lane, all with one SEQ. -/
def layPeriod (seq : Nat) : List Nat → List Byte → List (CtrlField × List Byte)
  | [], _ => []
  | i :: t, s => (⟨i, .data, 0, seq⟩, s.take cwBytes) :: layPeriod seq t (s.drop cwBytes)

/-- The codewords of one period put into logical-lane order, whichever circuits they came in on (R147). -/
def byLane : List (CtrlField × List Byte) → List (CtrlField × List Byte)
  | [] => []
  | c :: t => insertLane c (byLane t)
where
  insertLane (c : CtrlField × List Byte) : List (CtrlField × List Byte) → List (CtrlField × List Byte)
    | [] => [c]
    | x :: t => if c.1.lane ≤ x.1.lane then c :: x :: t else x :: insertLane c t

/-- The flit bytes that a receiver takes from a period's codewords. -/
def readPeriod (l : List (CtrlField × List Byte)) : List Byte := (byLane l).flatMap (·.2)

/-! ## Codeword periods -/

/-- Numbers of the codeword periods that begin in the present frame: 25 in four frames, counted from HOIST_SYNC on (DEDUCED, log 50). -/
def Dev.periods (d : Dev) : List Nat :=
  let a := (25 * d.clk.frame + 3) / 4
  (List.range ((25 * d.clk.frame + 28) / 4 - a)).map (· + a)

/-- A period with a SEQ begins in the present frame; `lag`: how many periods that SEQ lags behind the device's own. -/
def Dev.seqBegins (d : Dev) (lag seq : Nat) : Bool := d.periods.any (fun n => (n + 256 - lag % 256) % 256 == seq)

/-- SEQ of the first period of the present frame. -/
def Dev.seqNow (d : Dev) : Nat := (d.periods.headD 0) % 256

/-- Units of 25 ps in `n` codeword periods. -/
def periodUnits (n : Nat) : Nat := 1024 * n

end Sys2Proof.Machine
end

