-- ==== Sys2Proof/Machine/LaneOps.lean ====
section
/-!
DEFINITION. Lane circuits, positions and steering (R149, R150, R170), lane sets and live sets (R147, R152), and what
going down does to a port's lanes (R161).
-/
namespace Sys2Proof.Machine

/-- A lane circuit after reset. -/
def LaneSt.init : LaneSt := ⟨0, false, false, 0, none, false, 0, 0, 0, 0⟩

/-- The state of circuit `l` of port die `p`. -/
def Dev.lane (d : Dev) (p l : Nat) : LaneSt := nget LaneSt.init d.ln.lanes [p, l]

/-- Replace it. -/
def Dev.setLane (d : Dev) (p l : Nat) (x : LaneSt) : Dev := { d with ln := { d.ln with lanes := nput LaneSt.init d.ln.lanes [p, l] x } }

/-- A port with nothing pending. -/
def PortLn.init : PortLn := ⟨0, [], none, [], none, .none, false, 0, 0⟩

/-- The lane side of port engine `k.2` of port die `k.1`. -/
def Dev.portLn (d : Dev) (k : Nat × Nat) : PortLn := nget PortLn.init d.ln.ports [k.1, k.2]

/-- Replace it; CHANGE_PENDING shows whether a change of either direction waits for its switch point. -/
def Dev.setPortLn (d : Dev) (k : Nat × Nat) (x : PortLn) : Dev :=
  ({ d with ln := { d.ln with ports := nput PortLn.init d.ln.ports [k.1, k.2] x } } : Dev).setF F.PRT_PORT_STAT_CHANGE_PENDING [k.1, k.2]
    (b2n (!x.queue.isEmpty || x.announced.isSome || x.rxChange.isSome))

/-- STATE of a circuit (R153). -/
def Dev.laneState (d : Dev) (p l : Nat) : Nat := d.getF F.LNE_STAT_STATE [p, l]

/-- A circuit enters a state; it counts uncorrectable codewords anew. -/
def Dev.toState (d : Dev) (p l st : Nat) : Dev :=
  (d.setLane p l { d.lane p l with since := d.clk.now, ucwRun := 0, ucwWin := 0 }).setF F.LNE_STAT_STATE [p, l] st

/-- A circuit starts again at DETECT, with nothing exchanged (R153). -/
def Dev.toDetect (d : Dev) (p l : Nat) : Dev :=
  let d := d.setLane p l { d.lane p l with accepted := false, acked := false, after := none }
  (d.clear F.LNE_STAT_SYNC_OK [p, l]).toState p l 1

/-- The position the spare of group `g` serves, when it is steered (R170). -/
def Dev.sparePos (d : Dev) (p g : Nat) : Option Nat :=
  if d.flag F.LNE_SPARE_IN_USE [p, g] then some (d.getF F.LNE_SPARE_POS [p, g]) else none

/-- The circuit that serves position `q` (R149). -/
def Dev.circuitAt (d : Dev) (p q : Nat) : Nat :=
  if d.sparePos p (q / 32) = some q then 33 * (q / 32) + 32 else 33 * (q / 32) + q % 32

/-- The position that circuit `l` serves, if any. -/
def Dev.positionOf (d : Dev) (p l : Nat) : Option Nat :=
  if l % 33 = 32 then d.sparePos p (l / 33)
  else if d.sparePos p (l / 33) = some (32 * (l / 33) + l % 33) then none
  else some (32 * (l / 33) + l % 33)

/-- First position and width of a port (R150). -/
def Dev.portSpan (d : Dev) (k : Nat × Nat) : Nat × Nat :=
  (d.getF F.PRT_PORT_CFG_BASE_POS [k.1, k.2], 2 ^ d.getF F.PRT_PORT_CFG_WIDTH_LOG2 [k.1, k.2])

/-- The enabled port engine whose formation holds position `q`. -/
def Dev.portOfPos (d : Dev) (p q : Nat) : Option Nat :=
  (List.range 32).find? (fun e => d.flag F.PRT_PORT_CFG_EN [p, e] && (d.portSpan (p, e)).1 ≤ q && q < (d.portSpan (p, e)).1 + (d.portSpan (p, e)).2)

/-- The port that circuit `l` belongs to, and its logical lane there. -/
def Dev.laneOwner (d : Dev) (p l : Nat) : Option ((Nat × Nat) × Nat) :=
  match d.positionOf p l with
  | none => none
  | some q => (d.portOfPos p q).map (fun e => ((p, e), q - (d.portSpan (p, e)).1))

/-- The circuit of logical lane `i` of a port. -/
def Dev.laneOf (d : Dev) (k : Nat × Nat) (i : Nat) : Nat := d.circuitAt k.1 ((d.portSpan k).1 + i)

/-- The lane set of a port: its formation less the narrowed positions (R152). -/
def Dev.laneSet (d : Dev) (k : Nat × Nat) : List Nat :=
  (List.range (d.portSpan k).2).filter (fun i => !bit (d.portLn k).narrowed i)

/-- Set the live set of one direction and its count (R147). -/
def Dev.setLive (d : Dev) (k : Nat × Nat) (tx : Bool) (m : Nat) : Dev :=
  let i := [k.1, k.2]
  if tx then (d.setF F.PRT_PORT_LIVE_TX_MASK i m).setF F.PRT_PORT_STAT_LIVE_TX i (onesOf 16 m).length
  else (d.setF F.PRT_PORT_LIVE_RX_MASK i m).setF F.PRT_PORT_STAT_LIVE_RX i (onesOf 16 m).length

/-- The live set of one direction. -/
def Dev.live16 (d : Dev) (k : Nat × Nat) (tx : Bool) : Nat :=
  d.getF (if tx then F.PRT_PORT_LIVE_TX_MASK else F.PRT_PORT_LIVE_RX_MASK) [k.1, k.2]

/-- A port goes down: its live sets empty, its pending changes and its reef go, and the lanes that were running or
training return to DETECT (R161; log 40 for the other causes). -/
def Dev.portLanesDown (d : Dev) (k : Nat × Nat) : Dev :=
  let d := (d.setLive k true 0).setLive k false 0
  let d := d.setPortLn k { d.portLn k with queue := [], announced := none, dropReqs := [], rxChange := none, reef := .none, wake := false }
  (List.range (d.portSpan k).2).foldl (fun d i =>
    let l := d.laneOf k i
    let s := d.laneState k.1 l
    if 2 ≤ s ∧ s ≤ 7 then
      (if d.islandStopped (32 + 136 * k.1 + l) then d.startIsland (32 + 136 * k.1 + l) else d).toDetect k.1 l
    else d) d

/-- POSITION, LOGICAL and STATE of every circuit of a port die from the formation in force (R149, R150, R153): a circuit that serves
no position is FAILED or the spare, one at a position of no enabled port is DISABLED, and one that comes to a port starts at DETECT. A
position that is narrowed out of its port keeps waiting for its retry. -/
def Dev.laneAssign (d : Dev) (p : Nat) : Dev :=
  (List.range 132).foldl (fun d l =>
    let s := d.laneState p l
    let d := d.setF F.LNE_STAT_POSITION [p, l] ((d.positionOf p l).getD 0xFF)
    if d.positionOf p l = none then d.setF F.LNE_STAT_STATE [p, l] (if l % 33 = 32 then 9 else 8)
    else match d.laneOwner p l with
      | none => ((d.setF F.LNE_STAT_LOGICAL [p, l] 0).setF F.LNE_STAT_MISMATCH [p, l] 0).setF F.LNE_STAT_STATE [p, l] 0
      | some x =>
        let d := d.setF F.LNE_STAT_LOGICAL [p, l] x.2
        if s = 0 ∨ s = 9 ∨ (s = 8 ∧ !bit (d.portLn x.1).narrowed x.2) then d.toDetect p l else d) d

/-! ## Codewords sent (R145–R148, R155) -/

/-- A codeword with a control code other than DATA leaves circuit `l` of port die `p` as logical lane `i`, in the period with SEQ
`seq`. -/
def Dev.sendCtrl (d : Dev) (p l i : Nat) (c : CtrlCode) (arg seq : Nat) (payload : List Byte) : Dev :=
  d.emit (.codeword p l (CtrlField.mk i c arg seq).enc payload)

/-- The same code on every lane of a port's transmit live set. -/
def Dev.sendCtrlAll (d : Dev) (k : Nat × Nat) (c : CtrlCode) (arg seq : Nat) : Dev :=
  (onesOf 16 (d.live16 k true)).foldl (fun d i => d.sendCtrl k.1 (d.laneOf k i) i c arg seq []) d

/-- The port's capability block on logical lane `i` (R155). The endpoint bits of the sender's fabric address are zero (DEDUCED, log
50). -/
def Dev.capsBlock (d : Dev) (k : Nat × Nat) (i : Nat) : List Byte :=
  leBytes 4 0x4B4C4350 ++ leBytes 1 1 ++ leBytes 1 1 ++ leBytes 1 (d.portSpan k).2 ++ leBytes 1 i
    ++ leBytes 4 (d.net.fabAddr.1 * 16384 + d.net.fabAddr.2.1 * 1024 + d.net.fabAddr.2.2.1 * 64)
    ++ leBytes 2 (k.2 + 32 * k.1) ++ leBytes 1 (b2n Config.spreading) ++ leBytes 1 3 ++ List.replicate 16 0

/-- A lane in CAPS sends CAPS, or once it has accepted the peer's block CAPS_ACK; it repeats that in every period (R155). -/
def Dev.sendCaps (d : Dev) (p l : Nat) : Dev :=
  match d.laneOwner p l with
  | some (k, i) =>
    d.sendCtrl p l i (if (d.lane p l).accepted then .capsAck else .caps) 0 d.seqNow (d.capsBlock k i ++ List.replicate (cwBytes - 32) 0)
  | none => d

/-! ## Codewords received (R160, R169) -/

/-- A circuit receives `n` codewords of which `u` are uncorrectable; `run`: how many of the last ones were so in a row, when some
codeword decoded. -/
def Dev.countUcw (d : Dev) (p l u : Nat) (run : Option Nat) : Dev :=
  let x := d.lane p l
  let w := d.clk.now / ms 1
  (d.setLane p l { x with ucwRun := run.getD (x.ucwRun + u), ucwWin := (if w = x.ucwAt then x.ucwWin else 0) + u, ucwAt := w }).addSat
    F.LNE_FEC_UCW_COUNT [p, l] u

/-- One codeword of a lane: its symbol errors are the link's own, a free number: up to 15 are corrected and more are uncorrectable
(R169) (DEDUCED, log 15). -/
def Dev.rxCodeword (d : Dev) (p l : Nat) : Dev :=
  let n := d.freeNum
  let e := n.1 % 17
  let d := n.2.addWrap F.LNE_FEC_CW_COUNT [p, l] 1
  if e = 16 then d.countUcw p l 1 none
  else ((d.countUcw p l 0 (some 0)).addWrap F.LNE_FEC_CORR_COUNT [p, l] e).addSat F.LNE_FEC_HIST_COUNT [p, l, e] 1

/-- A lane with a fault: every codeword counts as uncorrectable until its drop (R160). -/
def Dev.laneDead (d : Dev) (p l : Nat) : Bool := (d.lane p l).after.isSome

/-- The codewords of one frame on a lane that receives. -/
def Dev.laneFrame (d : Dev) (p l : Nat) : Dev :=
  let n := d.periods.length
  if d.laneDead p l then (d.addWrap F.LNE_FEC_CW_COUNT [p, l] n).countUcw p l n none
  else (List.range n).foldl (fun d _ => d.rxCodeword p l) d

/-- The circuit receives codewords: it is in CAPS, or ACTIVE in its port's receive live set. -/
def Dev.laneReceives (d : Dev) (p l : Nat) : Bool :=
  d.laneState p l == 4 ||
    (d.laneState p l == 5 && (match d.laneOwner p l with
      | some (k, i) => bit (d.live16 k false) i
      | none => false))

/-- The codewords of one frame on every lane that receives. -/
def Dev.codewordFrame (d : Dev) : Dev :=
  let lanes := d.regs.filterMap (fun e => if e.1.reg = .LNE_STAT ∧ e.1.lo = 0 then some (ix e.1.idx 0, ix e.1.idx 1) else none)
  (lanes.filter (fun x => d.laneReceives x.1 x.2)).foldl (fun d x => d.laneFrame x.1 x.2) d

end Sys2Proof.Machine
end

