-- ==== Sys2Proof/Machine/Numeric.lean ====
section
/-!
DEFINITION. Exact values and the device's one rounding (R275–R284, R296, R297): decoding every element format,
exact sum and product, comparison, and rounding to nearest even with saturation and flush.
-/
namespace Sys2Proof.Machine

/-- An exact value: NaN, a signed infinity, or ±m·2^e with a sign kept for zero. -/
inductive Val where
  | nan
  | inf (neg : Bool)
  | fin (neg : Bool) (m : Nat) (e : Int)
  deriving DecidableEq, Repr

/-- Positive zero. -/
def Val.zero : Val := .fin false 0 0

/-- A value from an integer and a power of two; zero is positive. -/
def Val.ofInt (i : Int) (e : Int) : Val := .fin (i < 0) i.natAbs e

/-- `n · 2^e` as a natural number, for `e` made nonnegative by the caller's common exponent `e0 ≤ e`. -/
def shiftTo (m : Nat) (e e0 : Int) : Nat := m * 2 ^ (e - e0).toNat

/-- The signed integer of a finite value at the common exponent `e0`. -/
def signedAt (neg : Bool) (m : Nat) (e e0 : Int) : Int := if neg then -(shiftTo m e e0 : Int) else shiftTo m e e0

/-- The value is zero. -/
def Val.isZero : Val → Bool
  | .fin _ m _ => m == 0
  | _ => false

/-- The value is NaN. -/
def Val.isNan : Val → Bool
  | .nan => true
  | _ => false

/-- Sign bit. -/
def Val.neg? : Val → Bool
  | .nan => false
  | .inf n => n
  | .fin n _ _ => n

/-- Change the sign. -/
def Val.negate : Val → Val
  | .nan => .nan
  | .inf n => .inf (!n)
  | .fin n m e => .fin (!n) m e

/-- Absolute value. -/
def Val.abs : Val → Val
  | .nan => .nan
  | .inf _ => .inf false
  | .fin _ m e => .fin false m e

/-- Exact sum; a zero sum is −0 only when both addends are −0 (R282, R283). -/
def Val.add : Val → Val → Val
  | .nan, _ => .nan
  | _, .nan => .nan
  | .inf a, .inf b => if a = b then .inf a else .nan
  | .inf a, _ => .inf a
  | _, .inf b => .inf b
  | .fin a m e, .fin b n f =>
    let s := signedAt a m e (min e f) + signedAt b n f (min e f)
    if s = 0 then .fin (a && b && m == 0 && n == 0) 0 0 else .fin (s < 0) s.natAbs (min e f)

/-- Exact product; infinity times zero is NaN (R282), the sign is the XOR of the factors' (R283). -/
def Val.mul : Val → Val → Val
  | .nan, _ => .nan
  | _, .nan => .nan
  | .inf a, .inf b => .inf (a != b)
  | .inf a, .fin b m _ => if m = 0 then .nan else .inf (a != b)
  | .fin a m _, .inf b => if m = 0 then .nan else .inf (a != b)
  | .fin a m e, .fin b n f => .fin (a != b) (m * n) (e + f)

/-- Exact difference. -/
def Val.sub (a b : Val) : Val := a.add b.negate

/-- Multiply by a power of two. -/
def Val.scale (k : Int) : Val → Val
  | .fin a m e => .fin a m (e + k)
  | v => v

/-- `a < b` numerically, zeros equal; false with a NaN. -/
def Val.lt : Val → Val → Bool
  | .nan, _ => false
  | _, .nan => false
  | .inf a, .inf b => a && !b
  | .inf a, .fin _ _ _ => a
  | .fin _ _ _, .inf b => !b
  | .fin a m e, .fin b n f => signedAt a m e (min e f) < signedAt b n f (min e f)

/-- Maximum of R284: a NaN operand is ignored, max(+0, −0) = +0. -/
def Val.max (a b : Val) : Val :=
  if a.isNan then b else if b.isNan then a
  else if a.lt b then b else if b.lt a then a else if a.neg? then b else a

/-- Minimum of R284: a NaN operand is ignored, min(+0, −0) = −0. -/
def Val.min (a b : Val) : Val :=
  if a.isNan then b else if b.isNan then a
  else if b.lt a then b else if a.lt b then a else if a.neg? then a else b

/-! ## Formats (R275, R276) -/

/-- A floating-point element format: exponent and mantissa bits, bias, whether it has infinities, and whether the
all-ones encoding alone is NaN (E4M3). -/
structure FP where
  ew : Nat
  mw : Nat
  bias : Nat
  inf : Bool
  topNan : Bool
  deriving DecidableEq, Repr

def fp32 : FP := ⟨8, 23, 127, true, false⟩
def fp16 : FP := ⟨5, 10, 15, true, false⟩
def bf16 : FP := ⟨8, 7, 127, true, false⟩
def e4m3 : FP := ⟨4, 3, 7, false, true⟩
def e5m2 : FP := ⟨5, 2, 15, true, false⟩
def e3m2 : FP := ⟨3, 2, 3, false, false⟩
def e2m3 : FP := ⟨2, 3, 1, false, false⟩
def e2m1 : FP := ⟨2, 1, 1, false, false⟩
def wp64 : FP := ⟨11, 52, 1023, true, false⟩

/-- The element encoding of a format code; `none` for the integer codes and MXINT8. -/
def fpOf : Nat → Option FP
  | 0 => some fp32 | 1 => some fp16 | 2 => some bf16 | 3 => some e4m3 | 4 => some e5m2
  | 5 => some e4m3 | 6 => some e5m2 | 7 => some e3m2 | 8 => some e2m3 | 9 => some e2m1
  | 12 => some wp64 | _ => none

/-- Formats with a block scale. -/
def isMx (c : Nat) : Bool := 5 ≤ c && c ≤ 10

/-- Element width in bits. -/
def fmtBits : Nat → Nat
  | 0 => 32 | 1 => 16 | 2 => 16 | 3 => 8 | 4 => 8 | 5 => 8 | 6 => 8 | 7 => 6 | 8 => 6 | 9 => 4 | 10 => 8
  | 11 => 32 | 12 => 64 | 13 => 64 | 14 => 64 | _ => 8

/-- Formats that take the flush mode of R281. -/
def ftzFmt (c : Nat) : Bool := c ≤ 4

/-- Largest finite value's integer significand and its exponent. -/
def FP.maxFin (f : FP) : Nat × Int :=
  if f.inf then (2 ^ (f.mw + 1) - 1, (2 ^ f.ew : Nat) - 2 - f.bias - f.mw)
  else if f.topNan then (2 ^ (f.mw + 1) - 2, (2 ^ f.ew : Nat) - 1 - f.bias - f.mw)
  else (2 ^ (f.mw + 1) - 1, (2 ^ f.ew : Nat) - 1 - f.bias - f.mw)

/-- The exponent of the least significant bit of a subnormal. -/
def FP.qmin (f : FP) : Int := 1 - (f.bias : Int) - f.mw

/-- The value of an encoding (R276). -/
def FP.decode (f : FP) (n : Nat) : Val :=
  let neg := bit n (f.ew + f.mw)
  let e := bits n f.mw f.ew
  let m := bits n 0 f.mw
  if f.inf && e == 2 ^ f.ew - 1 then (if m = 0 then .inf neg else .nan)
  else if f.topNan && e == 2 ^ f.ew - 1 && m == 2 ^ f.mw - 1 then .nan
  else if e = 0 then .fin neg m f.qmin
  else .fin neg (m + 2 ^ f.mw) (f.qmin + (e - 1 : Nat))

/-- An encoding is subnormal: exponent zero, mantissa not. -/
def FP.subnormal (f : FP) (n : Nat) : Bool := bits n f.mw f.ew == 0 && bits n 0 f.mw != 0

/-- `m · 2^e` rounded to an integer multiple of `2^q`, to nearest with ties to even; the multiple is returned. -/
def rneAt (m : Nat) (e q : Int) : Nat :=
  if q ≤ e then m * 2 ^ (e - q).toNat
  else
    let d := 2 ^ (q - e).toNat
    let n := m / d
    let r := m % d
    if 2 * r < d then n else if d < 2 * r then n + 1 else n + n % 2

/-- The exponent of the leading bit of `m · 2^e`, `m` positive. -/
def leadExp (m : Nat) (e : Int) : Int := (Nat.log2 m : Int) + e

/-- `n · 2^q > p.1 · 2^p.2`. -/
def gtMag (n : Nat) (q : Int) (p : Nat × Int) : Bool :=
  shiftTo p.1 p.2 (min q p.2) < shiftTo n q (min q p.2)

/-- The encoding of sign and `n · 2^q`, exactly representable in `f`. -/
def FP.encode (f : FP) (neg : Bool) (n : Nat) (q : Int) : Nat :=
  let s := if neg then 2 ^ (f.ew + f.mw) else 0
  if n = 0 then s
  else
    let l := leadExp n q
    if l < 1 - (f.bias : Int) then s + rneAt n q f.qmin
    else s + (l + f.bias).toNat * 2 ^ f.mw + (rneAt n q (l - f.mw) - 2 ^ f.mw)

/-- The canonical NaN of a format (R282). -/
def FP.nanCode (f : FP) : Nat :=
  if f.topNan then 2 ^ (f.ew + f.mw) - 1
  else if f.inf then (2 ^ f.ew - 1) * 2 ^ f.mw + 2 ^ (f.mw - 1)
  else 0

/-- What a rounding gives: the code, and whether it saturated, flushed, or lost bits (R298, R292). -/
structure Rounded where
  code : Nat
  sat : Bool
  flush : Bool
  inexact : Bool
  deriving DecidableEq, Repr

/-- The largest finite code with a sign. -/
def FP.maxCode (f : FP) (neg : Bool) : Nat := f.encode neg f.maxFin.1 f.maxFin.2

/-- The infinity code with a sign. -/
def FP.infCode (f : FP) (neg : Bool) : Nat := (if neg then 2 ^ (f.ew + f.mw) else 0) + (2 ^ f.ew - 1) * 2 ^ f.mw

/-- The device's rounding (R279–R283): to nearest even from the exact value, saturation under `sat`, output flush
under `ftz` (DEDUCED, log 17). -/
def FP.round (f : FP) (sat ftz : Bool) (v : Val) : Rounded :=
  match v with
  | .nan => ⟨f.nanCode, false, false, false⟩
  | .inf n => if f.inf then ⟨f.infCode n, false, false, false⟩ else ⟨f.maxCode n, true, false, true⟩
  | .fin n m e =>
    if m = 0 then ⟨f.encode n 0 0, false, false, false⟩
    else
      let l := leadExp m e
      let u := rneAt m e (l - f.mw)
      if gtMag u (l - f.mw) f.maxFin then
        ⟨if f.inf && !sat then f.infCode n else f.maxCode n, true, false, true⟩
      else if ftz && gtMag (2 ^ f.mw) f.qmin (u, l - f.mw) then
        ⟨f.encode n 0 0, false, true, true⟩
      else
        let q := max (l - f.mw) f.qmin
        let r := rneAt m e q
        ⟨f.encode n r q, false, false, decide (e < q) && r * 2 ^ (q - e).toNat != m⟩

/-- Rounding to a two's-complement integer of `w` bits: nearest even, clamped; NaN gives 0, counted as saturated
(R280, R296) (DEDUCED, log 17). -/
def roundInt (w : Nat) (v : Val) : Rounded :=
  let lo : Int := -(2 ^ (w - 1) : Nat)
  let hi : Int := (2 ^ (w - 1) : Nat) - 1
  match v with
  | .nan => ⟨0, true, false, true⟩
  | .inf n => ⟨ofSigned w (if n then lo else hi), true, false, true⟩
  | .fin n m e =>
    let r : Int := if n then -(rneAt m e 0 : Int) else rneAt m e 0
    let c := max lo (min hi r)
    ⟨ofSigned w c, c != r, false, decide (c ≠ r) || decide (e < 0)⟩

/-- MXINT8's value of a code: i × 2⁻⁶. -/
def mxint8 (n : Nat) : Val := Val.ofInt (toSigned 8 n) (-6)

/-- Decode an element before its block scale. -/
def decodeElem (c n : Nat) : Val :=
  match fpOf c with
  | some f => f.decode n
  | none => if c = 10 then mxint8 n else if c = 11 then Val.ofInt (toSigned 32 n) 0 else Val.ofInt (toSigned 64 n) 0

/-- An input element with the input flush of R281: value and whether it was flushed (DEDUCED, log 17). -/
def readElem (ftz : Bool) (c n : Nat) : Val × Bool :=
  match fpOf c with
  | some f => if ftz && ftzFmt c && f.subnormal n then (.fin (bit n (f.ew + f.mw)) 0 0, true) else (f.decode n, false)
  | none => (decodeElem c n, false)

/-- e_max of an MX element format (R297). -/
def mxEmax : Nat → Int
  | 5 => 8 | 6 => 15 | 7 => 4 | 8 => 2 | 9 => 2 | _ => 0

/-- The largest finite magnitude of a block, if any is nonzero. -/
def blockMax (l : List Val) : Option (Nat × Int) :=
  l.foldl (fun a v => match v with
    | .fin _ m e => if m = 0 then a else (match a with
      | none => some (m, e)
      | some (n, f) => if gtMag m e (n, f) then some (m, e) else some (n, f))
    | _ => a) none

/-- Round one MX element, already divided by its scale (R280, R297): an infinity is written as infinity in E5M2 under
SAT = 0 and as the largest finite value otherwise; MXINT8 saturates to ±127/64 (DEDUCED, log 17). -/
def mxElem (c : Nat) (sat : Bool) (v : Val) : Rounded :=
  match fpOf c with
  | some f =>
    match v with
    | .inf n => if f.inf && !sat then ⟨f.infCode n, false, false, false⟩ else ⟨f.maxCode n, true, false, true⟩
    | v => f.round sat false v
  | none =>
    match v with
    | .nan => ⟨0, false, false, false⟩
    | .inf n => ⟨ofSigned 8 (if n then -127 else 127), true, false, true⟩
    | .fin n m e =>
      let r := rneAt m (e + 6) 0
      if 127 < r then ⟨ofSigned 8 (if n then -127 else 127), true, false, true⟩
      else ⟨ofSigned 8 (if n then -(r : Int) else r), false, false, false⟩

/-- Write one MX block (R297): scale byte, element codes, elements saturated (DEDUCED, log 17). -/
def mxBlock (c : Nat) (sat : Bool) (l : List Val) : Nat × List Nat × Nat :=
  if l.any (·.isNan) then (0xFF, l.map (fun _ => 0), 0)
  else
    match blockMax l with
    | none =>
      let r := l.map (mxElem c sat)
      (0x7F, r.map (·.code), r.countP (·.sat))
    | some (m, e) =>
      let s := max (-127) (min 127 (leadExp m e - mxEmax c))
      let r := l.map (fun v => mxElem c sat (v.scale (-s)))
      ((s + 127).toNat, r.map (·.code), r.countP (·.sat))

/-- The value of an element under its scale byte (R277). -/
def mxValue (c scale n : Nat) : Val :=
  if scale = 0xFF then .nan else (decodeElem c n).scale ((scale : Int) - 127)

/-! ## Division and roots, rounded once later: extra bits and a sticky bit stand for the exact value -/

/-- Quotient with a sticky bit: at least 80 significant bits, the last odd when the division leaves a remainder. -/
def Val.div : Val → Val → Val
  | .nan, _ => .nan
  | _, .nan => .nan
  | .inf _, .inf _ => .nan
  | .inf a, .fin b _ _ => .inf (a != b)
  | .fin a _ _, .inf b => .fin (a != b) 0 0
  | .fin a m e, .fin b n f =>
    if n = 0 then (if m = 0 then .nan else .inf (a != b))
    else if m = 0 then .fin (a != b) 0 0
    else
      let k := 80 + Nat.log2 n
      let q := m * 2 ^ k / n
      let st := if m * 2 ^ k % n = 0 then 0 else 1
      .fin (a != b) (2 * q + st) (e - f - k - 1)

/-- Integer square root by binary digits, from digit `k` down. -/
def isqrtFrom : Nat → Nat → Nat → Nat
  | 0, n, r => if (r + 1) * (r + 1) ≤ n then r + 1 else r
  | k + 1, n, r => isqrtFrom k n (if (r + 2 ^ (k + 1)) * (r + 2 ^ (k + 1)) ≤ n then r + 2 ^ (k + 1) else r)

/-- Integer square root. -/
def isqrt (n : Nat) : Nat := isqrtFrom (Nat.log2 n / 2 + 1) n 0

/-- Square root with a sticky bit (R282, R430). -/
def Val.sqrt : Val → Val
  | .nan => .nan
  | .inf n => if n then .nan else .inf false
  | .fin n m e =>
    if m = 0 then .fin n 0 0
    else if n then .nan
    else
      let odd := e % 2 = 1
      let m' := (if odd then 2 * m else m) * 2 ^ 128
      let e' := (if odd then e - 1 else e) - 128
      let r := isqrt m'
      .fin false (2 * r + (if r * r = m' then 0 else 1)) (e' / 2 - 1)

/-- Reciprocal square root with a sticky bit (R285, R430). -/
def Val.rsqrt : Val → Val
  | .nan => .nan
  | .inf n => if n then .nan else .fin false 0 0
  | .fin n m e =>
    if m = 0 then .inf n
    else if n then .nan
    else
      -- m even exponent: x = m' · 4^h; 1/√x = 2^(-h) / √m'
      let odd := e % 2 = 1
      let m' := if odd then 2 * m else m
      let h := (if odd then e - 1 else e) / 2
      let k := 100 + Nat.log2 m'
      let z := 2 ^ (2 * k) / m'
      let r := isqrt z
      .fin false (2 * r + (if r * r * m' = 2 ^ (2 * k) then 0 else 1)) (-h - k - 1)

end Sys2Proof.Machine
end

