-- ==== Sys2Proof/Machine/Transc.lean ====
section
/-!
DEFINITION. Exponential, logarithm, hyperbolic tangent and the logistic function (R285, R430). Each is evaluated to
640 fractional bits with a sticky bit; the arguments at which the function's value is exact are taken apart first
(log 11).
-/
namespace Sys2Proof.Machine

/-- Fractional bits of the fixed-point evaluation. -/
def tp : Nat := 640

/-- One, in fixed point. -/
def tone : Nat := 2 ^ tp

/-- Σ r^(n+i)/(n+i)! from a term on: `n` its index, `t` the term. -/
def expSeries (r : Nat) : Nat → Nat → Nat → Nat
  | 0, _, _ => 0
  | f + 1, n, t => t + expSeries r f (n + 1) (t * r / tone / (n + 1))

/-- exp of a fixed-point number in [0, 1). -/
def expFrac (r : Nat) : Nat := expSeries r 160 0 tone

/-- Σ z^(2i+1)/(2i+1) from a term on: `p` the power, `n` the odd index. -/
def atanhSeries (z2 : Nat) : Nat → Nat → Nat → Nat
  | 0, _, _ => 0
  | f + 1, n, p => p / n + atanhSeries z2 f (n + 2) (p * z2 / tone)

/-- 2·atanh(a/b) for a/b at most 1/3. -/
def atanh2 (a b : Nat) : Nat :=
  let z := a * tone / b
  2 * atanhSeries (z * z / tone) 220 1 z

/-- ln 2. -/
def ln2 : Nat := atanh2 1 3

/-- A finite value in fixed point, truncated toward zero (exact for every FP32 value below 2^640). -/
def toFix (m : Nat) (e : Int) : Nat :=
  if -(tp : Int) ≤ e then m * 2 ^ (e + tp).toNat else m / 2 ^ (-(e + tp)).toNat

/-- e^x for x = ±m·2^e, not zero, |x| below 2^11: significand and exponent of a close value. -/
def expPos (neg : Bool) (m : Nat) (e : Int) : Nat × Int :=
  let x := toFix m e
  if neg then
    let k := x / ln2 + 1
    (expFrac (k * ln2 - x), -(k : Int) - tp)
  else
    let k := x / ln2
    (expFrac (x - k * ln2), (k : Int) - tp)

/-- A close value with its sticky bit set: the exact value is irrational. -/
def stickyFin (neg : Bool) (m : Nat) (e : Int) : Val := .fin neg (2 * m + 1) (e - 1)

/-- The magnitude is at least 2^11. -/
def hugeMag (m : Nat) (e : Int) : Bool := m != 0 && decide (11 ≤ leadExp m e)

/-- e^x (R430) (DEDUCED, log 11). -/
def Val.exp : Val → Val
  | .nan => .nan
  | .inf n => if n then .zero else .inf false
  | .fin n m e =>
    if m = 0 then .fin false 1 0
    else if hugeMag m e then (if n then .fin false 1 (-3000) else .fin false 1 3000)
    else let p := expPos n m e; stickyFin false p.1 p.2

/-- ln x (R430) (DEDUCED, log 11). -/
def Val.log : Val → Val
  | .nan => .nan
  | .inf n => if n then .nan else .inf false
  | .fin n m e =>
    if m = 0 then .inf true
    else if n then .nan
    else
      let l := Nat.log2 m
      let k : Int := leadExp m e
      -- y = m / 2^l in [1, 2)
      let ly : Int := atanh2 (m - 2 ^ l) (m + 2 ^ l)
      let v := k * ln2 + ly
      if k = 0 ∧ m = 2 ^ l then .zero
      else stickyFin (v < 0) v.natAbs (-(tp : Int))

/-- tanh x (R430) (DEDUCED, log 11). -/
def Val.tanh : Val → Val
  | .nan => .nan
  | .inf n => .fin n 1 0
  | .fin n m e =>
    if m = 0 then .fin n 0 0
    else if decide (9 ≤ leadExp m e) then stickyFin n (2 ^ 600 - 1) (-600)
    else
      let p := expPos false m (e + 1)
      -- E = p.1 · 2^p.2, at least 1; tanh = (E − 1)/(E + 1)
      let E := if 0 ≤ p.2 + tp then p.1 * 2 ^ (p.2 + tp).toNat else p.1
      stickyFin n ((E - tone) * tone / (E + tone)) (-(tp : Int))

/-- 1 / (1 + e^−x) (R429, R430) (DEDUCED, log 11). -/
def Val.sigmoid : Val → Val
  | .nan => .nan
  | .inf n => if n then .zero else .fin false 1 0
  | .fin n m e =>
    if m = 0 then .fin false 1 (-1)
    else if hugeMag m e then (if n then .fin false 1 (-3000) else stickyFin false (2 ^ 600 - 1) (-600))
    else
      let p := expPos false m e
      let E := p.1 * 2 ^ (p.2 + tp).toNat
      let num := if n then tone else E
      let k := Nat.log2 (E + tone)
      stickyFin false (num * 2 ^ k / (E + tone)) (-(k : Int))

end Sys2Proof.Machine
end

