-- ==== Sys2Proof/Machine/Operands.lean ====
section
/-!
DEFINITION. Command words and their operands (15, 16): reserved bits of every opcode, operand words and handles,
element addresses, regions, the split operand of a group command and its division over children.
-/
namespace Sys2Proof.Machine

/-! ## Command bytes -/

/-- Byte `i` of a command. -/
def cb (l : List Byte) (i : Nat) : Nat := (l.getD i 0).toNat

/-- Bits of byte `i`. -/
def cbits (l : List Byte) (i lo w : Nat) : Nat := bits (cb l i) lo w

/-- Bit of byte `i`. -/
def cbit (l : List Byte) (i b : Nat) : Bool := bit (cb l i) b

/-- The opcode. -/
def opcode (l : List Byte) : Nat := cb l 0

/-- Opcodes of the map (R400). -/
def opcodeExists (o : Nat) : Bool :=
  o ≤ 7 || (0x10 ≤ o && o ≤ 0x14) || o == 0x20 || o == 0x21 || (0x30 ≤ o && o ≤ 0x34) || (0x40 ≤ o && o ≤ 0x42)
    || o == 0x50 || o == 0x51 || o == 0x60 || o == 0x61 || o == 0x7F

/-- The common opcodes and DIGEST, which every tackle takes (R366). -/
def commonOp (o : Nat) : Bool := o ≤ 5 || o == 7 || o == 0x7F

/-- Engine kinds of R365. -/
inductive Engine where
  | matrix | vector | move | sequencer | capstan | collective | port | fabric | plan | digest
  deriving DecidableEq, Repr

/-- The engine of a leaf tackle. -/
def engineOf (t : Nat) : Option Engine :=
  let u := t % 256
  match t / 4096 with
  | 1 => if u = 0 then some .plan else if u = 1 then some .digest else none
  | 2 => if u ≤ 0x10 then some .capstan else if u = 0x20 then some .collective else if u = 0x30 then some .sequencer else none
  | 3 => if u < 0x20 then some .port else if u < 0x24 then some .fabric else none
  | 4 => if u < 0x40 then some .matrix else if u < 0x48 then some .vector else if u < 0x4C then some .move
      else if u < 0x50 then some .sequencer else none
  | 5 => if u < 0x10 then some .vector else if u < 0x12 then some .move else if u = 0x20 then some .sequencer else none
  | _ => none

/-- The opcodes of an engine (R365). -/
def Engine.runs : Engine → Nat → Bool
  | .matrix, o => o == 0x20 || o == 0x21
  | .vector, o => 0x30 ≤ o && o ≤ 0x34
  | .move, o => (0x10 ≤ o && o ≤ 0x14) || o == 0x51
  | .sequencer, o => o == 6
  | .collective, o => o == 0x50
  | .fabric, o => (0x40 ≤ o && o ≤ 0x42) || o == 0x51
  | .plan, o => o == 0x60 || o == 0x61
  | .digest, _ => false
  | .capstan, _ => false
  | .port, _ => false

/-- A group tackle. -/
def isGroup (t : Nat) : Bool := t == 0 || t % 256 == 0xFF

/-- The die groups under a spanning group, in order (R371). -/
def dieGroups (t : Nat) : List Nat :=
  let s := (List.range 4).map (fun i => 0x40FF + i * 256)
  let b := (List.range 8).map (fun i => 0x50FF + i * 256)
  if t = 0 then s ++ b else if t = 0x4FFF then s else if t = 0x5FFF then b else []

/-- Unit numbers of a die class, ascending. -/
def unitsOf : Nat → List Nat
  | 2 => (List.range 17) ++ [0x20, 0x30]
  | 3 => List.range 0x24
  | 4 => List.range 0x50
  | 5 => (List.range 0x12) ++ [0x20]
  | _ => [0, 1]

/-- The leaves of a group tackle: of its die, or of the dies it spans (R299, R371). -/
def leavesOf (t : Nat) : List Nat :=
  (if dieGroups t = [] then [t] else dieGroups t).flatMap (fun g => (unitsOf (g / 4096)).map (fun u => g - 0xFF + u))

/-- The tackle's unit is out of service: MASKED on its face, its core or engine masked, or its die (R28, R472). -/
def Dev.unitOut (d : Dev) (t : Nat) : Bool :=
  d.flag F.TCK_STAT_MASKED [t] ||
    (match t / 4096, t % 256 with
     | 4, u => (u < 0x40 && !d.bitF F.SAL_CORE_OK_CORES [t / 256 % 16] u) || (0x40 ≤ u && u < 0x48 && !d.bitF F.SAL_VEC_OK_ENG [t / 256 % 16] (u - 0x40))
     | 5, u => u < 0x10 && !d.bitF F.BSE_VEC_OK_ENG [t / 256 % 16] u
     | _, _ => false) ||
    (tackleDie t != 25 && !d.dieOk (tackleDie t))

/-- The tackle may run opcode `o`: common, its engine's, or a group with a leaf class that runs it. -/
def takesOp (t o : Nat) : Bool :=
  commonOp o ||
    (match engineOf t with
     | some e => e.runs o
     | none =>
       let cls := if t = 0 then [4, 5] else [t / 4096]
       cls.any (fun c => (unitsOf c).any (fun u => ((engineOf (c * 4096 + u)).map (·.runs o)).getD false)))

/-! ## Reserved bits (R370, R407–R448): (first bit, width) of every field that must be zero -/

/-- Zero fields of bytes 4 to 31 by opcode. -/
def zeroFields (l : List Byte) : List (Nat × Nat) :=
  match opcode l with
  | 0x00 | 0x01 | 0x7F => [(32, 224)]
  | 0x04 => [(66, 6), (72, 184)]
  | 0x02 => [(52, 12), (112, 144)]
  | 0x03 => [(52, 12), (80, 176)]
  | 0x07 => [(40, 24), (112, 144)]
  | 0x05 =>
    match cbits l 4 0 4 with
    | 0 => [(36, 4), (44, 4), (91, 5), (160, 96)]
    | 1 => [(38, 2), (40, 8), (112, 16), (176, 80)]
    | 2 => [(36, 4), (40, 8), (64, 192)]
    | _ => [(36, 4), (40, 8), (48, 16), (112, 16), (208, 48)]
  | 0x06 => [(35, 5), (40, 8), (112, 144)]
  | 0x10 => [(34, 6), (40, 8)]
  | 0x11 | 0x12 => [(35, 5), (48, 16), (112, 16), (152, 8), (208, 16)]
  | 0x13 => [(33, 7), (40, 8), (112, 16)]
  | 0x14 => [(35, 5), (44, 4), (63, 1), (184, 8), (240, 16)]
  | 0x20 => [(36, 4), (52, 4), (56, 8)]
  | 0x21 => [(35, 5), (55, 1)]
  | 0x30 => [(56, 8), (240, 16)] ++ (if cbit l 6 7 then [(144, 16)] else [])
  | 0x31 => [(42, 6), (48, 16), (192, 64)]
  | 0x32 => [(38, 2), (50, 6), (56, 8), (240, 16)]
  | 0x33 => [(34, 2), (43, 5), (48, 16)]
  | 0x34 => [(46, 2)]
  | 0x40 => [(37, 3), (47, 1), (66, 6), (92, 4), (200, 8), (255, 1)]
  | 0x41 => [(32, 1), (35, 2), (37, 3), (47, 1), (66, 6), (92, 4), (200, 8), (240, 16)]
  | 0x42 => [(32, 1), (35, 2), (37, 3), (44, 4), (66, 6), (92, 4), (152, 8), (224, 32)]
  | 0x50 => [(34, 6), (40, 8), (96, 160)] ++ (if cbits l 4 0 2 = 1 then [(89, 7)] else [(64, 32)])
  | 0x51 => [(40, 8), (63, 1), (112, 144)]
  | 0x60 => [(34, 6), (40, 8), (112, 16), (160, 96)] ++ (if cbits l 4 0 2 = 0 then [(48, 16)] else [(64, 48), (128, 32)])
  | 0x61 => [(41, 7), (48, 16), (128, 128)]
  | _ => []

/-- Reserved codes of fields that are checked with the reserved bits. -/
def codesOk (l : List Byte) : Bool :=
  match opcode l with
  | 0x04 => cbits l 8 0 2 != 3
  | 0x03 => leAt l 8 2 != 0
  | 0x05 => cbits l 4 0 4 ≤ 3 && (cbits l 4 0 4 != 1 || cbits l 4 4 2 != 3)
  | 0x14 => cbits l 4 1 2 != 3 && (cbits l 5 0 4 ≤ 4 || cbits l 5 0 4 == 15)
  | 0x30 => cb l 4 ≤ 0x13
  | 0x32 => cbits l 4 0 4 ≤ 5
  | 0x33 => cbits l 4 0 2 != 3
  | 0x40 => cbits l 5 4 3 ≤ 4
  | 0x41 => cbits l 5 4 3 ≤ 4
  | 0x50 => cbits l 4 0 2 != 3 && (if cbits l 4 0 2 = 0 then leAt l 6 2 < 2048 else !bit (leAt l 6 2) 15)
  | 0x51 => (32 ≤ cb l 4 && cb l 4 ≤ 35) || cb l 4 == 0xFF
  | 0x60 => cbits l 4 0 2 ≤ 1
  | _ => true

/-- PART and PART_ARG are examined on group tackles, for opcodes that divide. -/
def headerOk (l : List Byte) : Bool := cbits l 1 4 4 == 0 && cbits l 2 4 4 == 0

/-- The dequeue check of R393: opcode, class, reserved bits and codes. -/
def dequeueOk (t : Nat) (l : List Byte) : Bool :=
  opcodeExists (opcode l) && takesOp t (opcode l) && headerOk l
    && (zeroFields l).all (fun z => bits (ofLE l) z.1 z.2 == 0) && codesOk l

/-! ## Operands (R375, R401–R405) -/

/-- Format code of operands treated as bytes (MOVE, FILL); `byteFmt + w` stands for the bytes of elements of `w` bytes
that do not lie one after the other. -/
def byteFmt : Nat := 16

/-- A resolved operand: base, format, extents and byte strides innermost first, and for MX formats where scale
bytes lie (`none`: with their rows, R403). -/
structure Opnd where
  base : Nat
  fmt : Nat
  ext : List Nat
  str : List Nat
  scale : Option (Nat × List Nat)
  deriving DecidableEq, Repr

/-- Width of an operand's element in bits. -/
def Opnd.bitsOf (o : Opnd) : Nat := fmtBits o.fmt

/-- Packed formats: MX and elements narrower than a byte. -/
def Opnd.packed (o : Opnd) : Bool := isMx o.fmt

/-- Bytes that lie together at one step of the innermost stride: 1 but for the bytes of strided elements (R419). -/
def Opnd.unit (o : Opnd) : Nat := if o.fmt ≤ byteFmt then 1 else o.fmt - byteFmt

/-- Extent of dimension `i`. -/
def Opnd.n (o : Opnd) (i : Nat) : Nat := o.ext.getD i 1

/-- Stride of dimension `i`. -/
def Opnd.s (o : Opnd) (i : Nat) : Nat := o.str.getD i 0

/-- Row bytes of `n` packed elements of `w` bits. -/
def rowBytes (n w : Nat) : Nat := ceilDiv (n * w) 8

/-- Bytes of a dense main-form row: elements, then scale bytes for an MX format (R403). -/
def denseRow (fmt n0 : Nat) : Nat := rowBytes n0 (fmtBits fmt) + (if isMx fmt then n0 / 32 else 0)

/-- A dense main-form operand of `n0` by `n1` elements (R402). -/
def mainOpnd (base fmt n0 n1 : Nat) : Opnd := ⟨base, fmt, [n0, n1, 1, 1], [fmtBits fmt / 8, denseRow fmt n0, 0, 0], none⟩

/-- Byte address of the row that holds element `idx`. -/
def Opnd.row (o : Opnd) (idx : List Nat) : Nat := o.base + ix idx 1 * o.s 1 + ix idx 2 * o.s 2 + ix idx 3 * o.s 3

/-- The byte address and bit offset of an element. -/
def Opnd.at (o : Opnd) (idx : List Nat) : Nat × Nat :=
  if o.packed then (o.row idx + ix idx 0 * o.bitsOf / 8, ix idx 0 * o.bitsOf % 8)
  else (o.row idx + ix idx 0 / o.unit * o.s 0 + ix idx 0 % o.unit, 0)

/-- Address of the scale byte of an element's block. -/
def Opnd.scaleAt (o : Opnd) (idx : List Nat) : Nat :=
  match o.scale with
  | some (b, ss) => b + ix idx 0 / 32 + ix idx 1 * ix ss 0 + ix idx 2 * ix ss 1 + ix idx 3 * ix ss 2
  | none => o.row idx + rowBytes (o.n 0) o.bitsOf + ix idx 0 / 32

/-- The code of an element in memory. -/
def Dev.elemCode (d : Dev) (o : Opnd) (idx : List Nat) : Nat :=
  let a := o.at idx
  bits (ofLE (d.read a.1 (ceilDiv (a.2 + o.bitsOf) 8))) a.2 o.bitsOf

/-- What reading an element gives: value, input flushes, whether a NaN was read, and decode saturations. -/
structure Elem where
  v : Val
  ar : Arith
  deriving DecidableEq, Repr

/-- Read an element for a vector engine (R281, R285): decoded to FP32, which matters for MX values beyond FP32 (DEDUCED, log
18). -/
def Dev.elem (d : Dev) (o : Opnd) (sat ftz : Bool) (idx : List Nat) : Elem :=
  let c := d.elemCode o idx
  if isMx o.fmt then
    let v := mxValue o.fmt (d.byte (o.scaleAt idx)).toNat c
    let r := fp32.round sat false v
    if r.inexact || r.sat then ⟨fp32.decode r.code, ⟨b2n r.sat, 0, v.isNan⟩⟩ else ⟨v, ⟨0, 0, v.isNan⟩⟩
  else
    let r := readElem ftz o.fmt c
    ⟨r.1, ⟨0, b2n r.2, r.1.isNan⟩⟩

/-- Last byte past an operand's elements, and rows' scale bytes in main form. -/
def Opnd.hi (o : Opnd) : Nat :=
  let span := fun (i : Nat) => (o.n i - 1) * o.s i
  if o.packed then o.base + span 1 + span 2 + span 3 + rowBytes (o.n 0) o.bitsOf + (if o.scale.isNone then o.n 0 / 32 else 0)
  else o.base + (o.n 0 / o.unit - 1) * o.s 0 + span 1 + span 2 + span 3 + o.unit * (o.bitsOf / 8)

/-- A region a command claims: first byte, past the last, and whether it writes. -/
structure Region where
  lo : Nat
  hi : Nat
  write : Bool
  deriving DecidableEq, Repr

/-- The operand's region, and its scale region when a handle names one. -/
def Opnd.regions (o : Opnd) (w : Bool) : List Region :=
  [⟨o.base, o.hi, w⟩] ++
    (match o.scale with
     | some (b, ss) => [⟨b, b + (o.n 1 - 1) * ix ss 0 + (o.n 2 - 1) * ix ss 1 + (o.n 3 - 1) * ix ss 2 + o.n 0 / 32, w⟩]
     | none => [])

/-- Row of R29 that a place belongs to; `none` where a region may not lie. -/
def Place.addrRow : Place → Option Nat
  | .stack _ => some 0 | .sail _ _ => some 1 | .base _ _ => some 2 | .capStage _ => some 3 | .promPool _ => some 3
  | .regs => none | .reserved => none

/-- A region passes R376: no reserved address, no register space, one row of R29, no write to the capstan window. -/
def Region.ok (r : Region) : Bool :=
  match placesOf r.lo (r.hi - r.lo) with
  | [] => false
  | p :: t => (p.addrRow).isSome && t.all (fun q => q.addrRow == p.addrRow) && !(r.write && p.addrRow == some 3)

/-- The span of a stream's pieces: its emitted pieces are checked against reserved addresses one by one (R421), so the
span itself may hold some, but it lies neither in register space nor, written, in the capstan window (DEDUCED, log 21). -/
def Region.spanOk (r : Region) : Bool :=
  (r.hi ≤ regSpace || regSpace + 0x60000000 ≤ r.lo) && !(r.write && (r.lo < 0x300020000000 && 0x300000000000 < r.hi))

/-- The packing rule of a write operand (R376): s0 is the element size, and each wider stride covers the dimension
below it. -/
def Opnd.packedOk (o : Opnd) : Bool :=
  let e0 := if o.packed then rowBytes (o.n 0) o.bitsOf else o.n 0 * (o.bitsOf / 8)
  (o.packed || o.n 0 == 1 || o.s 0 == o.bitsOf / 8)
    && (let e1 := if 1 < o.n 1 then o.n 1 * o.s 1 else e0
        let e2 := if 1 < o.n 2 then o.n 2 * o.s 2 else e1
        (o.n 1 ≤ 1 || e0 ≤ o.s 1) && (o.n 2 ≤ 1 || e1 ≤ o.s 2) && (o.n 3 ≤ 1 || e2 ≤ o.s 3))

/-- An MX operand's innermost extent is a multiple of 32 (R277). -/
def Opnd.mxOk (o : Opnd) : Bool := !isMx o.fmt || o.n 0 % 32 == 0

/-- In main form, a stated pitch covers the packed row and its scales (R403). -/
def Opnd.pitchOk (o : Opnd) : Bool := !isMx o.fmt || o.scale.isSome || o.n 1 ≤ 1 || denseRow o.fmt (o.n 0) ≤ o.s 1

/-! ## Handles (R377, R404) -/

/-- The 64 bytes of tensor descriptor `h`. -/
def Dev.desc (d : Dev) (h : Nat) : List Byte :=
  ((List.range 16).map (fun i => leBytes 4 (d.getF F.MST_DESC_WORD [h, i]))).flatten

/-- The operand of a descriptor, when it is valid (R404), an MX one with whole blocks along its innermost axis (R277) (DEDUCED, log
21). -/
def opndOfDesc (l : List Byte) : Option Opnd :=
  let fmt := cbits l 60 0 4
  let ext := [leAt l 16 4, leAt l 20 4, leAt l 24 4, leAt l 28 4]
  if cb l 61 = 1 ∧ cbits l 60 4 4 = 0 ∧ leAt l 62 2 = 0 ∧ leAt l 6 2 = 0 ∧ leAt l 14 2 = 0 ∧ ext.all (fun n => n != 0) ∧ fmt < 12
      ∧ (isMx fmt → leAt l 16 4 % 32 = 0) then
    some ⟨leAt l 0 6, fmt, ext, [leAt l 32 4, leAt l 36 4, leAt l 40 4, leAt l 44 4],
      if isMx fmt then some (leAt l 8 6, [leAt l 48 4, leAt l 52 4, leAt l 56 4]) else none⟩
  else none

/-- Byte positions of the operand words that are handles. -/
def handlePos (l : List Byte) : List Nat :=
  let at' := fun (by' b pos : Nat) => if cbit l by' b then [pos] else []
  match opcode l with
  | 0x10 => at' 4 0 8 ++ at' 4 1 14
  | 0x13 => at' 4 0 8
  | 0x20 => at' 4 0 8 ++ at' 4 1 14 ++ at' 4 2 20
  | 0x21 => at' 4 0 8 ++ at' 4 1 14
  | 0x30 => at' 6 4 8 ++ at' 6 5 14 ++ at' 6 6 20
  | 0x31 => at' 5 0 8 ++ at' 5 1 14
  | 0x32 => at' 6 0 8 ++ at' 6 1 14
  | 0x33 => at' 5 0 8 ++ at' 5 1 14 ++ at' 5 2 20
  | 0x34 => at' 5 4 8 ++ at' 5 5 14
  | _ => []

/-- Every handle of the command lies in the table and its word's upper bits are zero (R377, R401). -/
def handlesOk (l : List Byte) : Bool := (handlePos l).all (fun p => leAt l p 2 < 0x1000 && leAt l (p + 2) 4 == 0)

/-- Copies of the descriptors a command names (R377) (DEDUCED, log 21). -/
def Dev.takeDescs (d : Dev) (l : List Byte) : List (Nat × List Byte) := (handlePos l).map (fun p => (p, d.desc (leAt l p 2)))

/-- The operand at byte position `p`: its handle's descriptor copy, or the main form. -/
def opndAt (l : List Byte) (ds : List (Nat × List Byte)) (p : Nat) (main : Opnd) : Option Opnd :=
  match ds.find? (fun x => x.1 == p) with
  | some (_, b) => opndOfDesc b
  | none => if (handlePos l).contains p then none else some main

/-- The operand came from a handle. -/
def isHandle (l : List Byte) (p : Nat) : Bool := (handlePos l).contains p

/-! ## A decoded command -/

/-- What decoding gives: operands in the opcode's order, the regions claimed, the split operand's extents, the
granules of its dimensions, and the result extents. -/
structure Dec where
  ops : List Opnd
  regions : List Region
  split : List Nat
  gran0 : Nat
  granInner : Nat
  deriving DecidableEq, Repr

/-- Formats of R275 by place. -/
def vecFmt (c : Nat) : Bool := c ≤ 10
def matFmt (c : Nat) : Bool := 1 ≤ c && c ≤ 10
def accFmt (c : Nat) : Bool := c ≤ 4

/-- Two regions overlap. -/
def Region.meets (a b : Region) : Bool := a.lo < b.hi && b.lo < a.hi

/-- An in-place pair (R406). -/
def inPlace (a b : Opnd) : Bool :=
  a.base == b.base && a.bitsOf == b.bitsOf && a.ext == b.ext &&
    (List.range 4).all (fun i => a.n i ≤ 1 || (i == 0 && a.packed && b.packed) || a.s i == b.s i)

/-- Write regions of one command overlap no other region of it but the named in-place pairs (R406). -/
def overlapOk (w : Opnd) (others : List Opnd) (pairs : Bool) : Bool :=
  others.all (fun o => (pairs && inPlace w o) ||
    ((w.regions true).all (fun a => (o.regions false).all (fun b => !a.meets b))))

/-- A read operand passes the decode checks. -/
def readOk (o : Opnd) : Bool := o.mxOk && o.pitchOk && (o.regions false).all (·.ok)

/-- A write operand passes the decode checks. -/
def writeOk (o : Opnd) : Bool := o.mxOk && o.pitchOk && o.packedOk && (o.regions true).all (·.ok)

/-- Move an address of any sail window to sail `s` (R424); `none` outside the sail windows. -/
def toSail (s a : Nat) : Option Nat :=
  if 0x100000000000 ≤ a ∧ a < 0x100040000000 then some (sailBase s + (a - 0x100000000000) % 0x10000000) else none

/-- Rebase a matrix operand onto sail `s` (DEDUCED, log 19). -/
def Opnd.onSail (s : Nat) (o : Opnd) : Option Opnd :=
  match toSail s o.base, o.scale with
  | some b, none => some { o with base := b }
  | some b, some (sb, ss) => (toSail s sb).map (fun sb' => { o with base := b, scale := some (sb', ss) })
  | none, _ => none

/-- The sail whose window a matrix command of tackle `t` uses: its own, or the first for the checks of a group that
spans sails (each part is rebased on its own sail). -/
def matSail (t : Nat) : Nat := if t = 0 ∨ t = 0x4FFF then 0 else t / 256 % 16

/-- Byte shape of an operand as MOVE treats it (R419). -/
def byteView (o : Opnd) : Opnd :=
  if o.fmt = byteFmt then o
  else if o.packed then { o with fmt := byteFmt, ext := [rowBytes (o.n 0) o.bitsOf, o.n 1, o.n 2, o.n 3], str := [1, o.s 1, o.s 2, o.s 3], scale := none }
  else if o.n 0 = 1 ∨ o.s 0 = o.bitsOf / 8 then
    { o with fmt := byteFmt, ext := [o.n 0 * (o.bitsOf / 8), o.n 1, o.n 2, o.n 3], str := [1, o.s 1, o.s 2, o.s 3] }
  else { o with fmt := byteFmt + o.bitsOf / 8, ext := [o.n 0 * (o.bitsOf / 8), o.n 1, o.n 2, o.n 3] }

/-- A region of a plain byte range. -/
def span (lo n : Nat) (w : Bool) : Region := ⟨lo, lo + n, w⟩

/-- A guard that rejects with RESERVED_OP. -/
def need (c : Bool) (k : Option Dec) : Option Dec := if c then k else none

/-- Decode MOVE. -/
def decodeMove (l : List Byte) (ds : List (Nat × List Byte)) : Option Dec :=
  let n0 := leAt l 20 4
  let n1 := leAt l 6 2
  let both := isHandle l 8 && isHandle l 14
  match opndAt l ds 8 ⟨leAt l 8 6, byteFmt, [n0, n1, 1, 1], [1, leAt l 24 4, 0, 0], none⟩,
      opndAt l ds 14 ⟨leAt l 14 6, byteFmt, [n0, n1, 1, 1], [1, leAt l 28 4, 0, 0], none⟩ with
  | some a, some b =>
    let a := byteView a
    let b := byteView b
    need (b.fmt == byteFmt && a.ext == b.ext && (both || (a.ext == [n0, n1, 1, 1] && n0 != 0 && n1 != 0))
        && readOk a && writeOk b && overlapOk b [a] false)
      (some ⟨[a, b], a.regions false ++ b.regions true, b.ext, 1, 1⟩)
  | _, _ => none

/-- Decode GATHER and SCATTER (R420): local region and span. -/
def decodeStream (l : List Byte) (gather : Bool) : Option Dec :=
  let lg := cb l 5
  let piece := leAt l 16 3
  let count := leAt l 28 4
  let base := leAt l 20 6
  let loc := span (leAt l 8 6) (count * piece) gather
  let spn := span base (2 ^ lg) (!gather)
  need (8 ≤ lg && lg ≤ 39 && piece != 0 && count != 0 && base % 2 ^ lg == 0 && loc.ok && spn.spanOk && !loc.meets spn)
    (some ⟨[], [spn, loc], [1, 1, 1, 1], 1, 1⟩)

/-- Decode FILL (R422). -/
def decodeFill (l : List Byte) (ds : List (Nat × List Byte)) : Option Dec :=
  let n0 := leAt l 16 4
  let n1 := leAt l 6 2
  match opndAt l ds 8 ⟨leAt l 8 6, byteFmt, [n0, n1, 1, 1], [1, leAt l 20 4, 0, 0], none⟩ with
  | some a =>
    let a := byteView a
    need (a.fmt == byteFmt && a.ext.all (· != 0) && writeOk a) (some ⟨[a], a.regions true, a.ext, 1, 1⟩)
  | none => none

/-- Bytes of a SEALCHK piece (R423). -/
def sealPiece (l : List Byte) : Nat := 1024 * 2 ^ cbits l 4 1 2

/-- Decode SEALCHK. -/
def decodeSealchk (l : List Byte) : Option Dec :=
  let n := leAt l 16 4
  let src := span (leAt l 8 6) (n * sealPiece l) false
  let lst := span (leAt l 24 6) (4 * n + (if cbit l 4 0 then 4 else 0)) true
  need (1 ≤ n && n ≤ 16777216 && src.ok && lst.ok && !src.meets lst) (some ⟨[], [src, lst], [n, 1, 1, 1], 1, 1⟩)

/-- Decode MMA (R425) for sail `s`. -/
def decodeMma (l : List Byte) (ds : List (Nat × List Byte)) (s : Nat) : Option Dec :=
  let m := leAt l 26 2
  let n := leAt l 28 2
  let k := leAt l 30 2
  match opndAt l ds 8 (mainOpnd (leAt l 8 6) (cbits l 5 0 4) k m), opndAt l ds 14 (mainOpnd (leAt l 14 6) (cbits l 5 4 4) k n),
      opndAt l ds 20 (mainOpnd (leAt l 20 6) (cbits l 6 0 4) n m) with
  | some a, some b, some c =>
    need (m != 0 && n != 0 && k != 0 && a.ext == [k, m, 1, 1] && b.ext == [k, n, 1, 1] && c.ext == [n, m, 1, 1]
        && matFmt a.fmt && matFmt b.fmt && accFmt c.fmt && ((!isMx a.fmt && !isMx b.fmt) || k % 32 == 0))
      (match a.onSail s, b.onSail s, c.onSail s with
       | some a, some b, some c =>
         need (readOk a && readOk b && writeOk c && overlapOk c [a, b] false)
           (some ⟨[a, b, c], a.regions false ++ b.regions false ++ c.regions true, c.ext, 1, 128⟩)
       | _, _, _ => none)
  | _, _, _ => none

/-- Decode GMMA (R426) for sail `s`: B and D, and the span of the pieces; at most 4 output tiles (R453). -/
def decodeGmma (l : List Byte) (ds : List (Nat × List Byte)) (s : Nat) : Option Dec :=
  let kp := 32 * cb l 7
  let np := cb l 27
  let m := leAt l 28 2
  let n := leAt l 30 2
  let lg := cb l 26
  let base := leAt l 20 6
  match opndAt l ds 8 (mainOpnd (leAt l 8 6) (cbits l 5 4 4) (np * kp) n), opndAt l ds 14 (mainOpnd (leAt l 14 6) (cbits l 6 0 4) n m) with
  | some b, some c =>
    need (kp != 0 && np != 0 && m != 0 && n != 0 && ceilDiv m 96 * ceilDiv n 128 ≤ 4 && 8 ≤ lg && lg ≤ 39 && base % 2 ^ lg == 0
        && b.ext == [np * kp, n, 1, 1] && c.ext == [n, m, 1, 1] && matFmt (cbits l 5 0 4) && matFmt b.fmt && accFmt c.fmt)
      (match b.onSail s, c.onSail s, toSail s base with
       | some b, some c, some sb =>
         let spn := span sb (2 ^ lg) false
         need (readOk b && writeOk c && spn.spanOk && overlapOk c [b] false && (c.regions true).all (fun r => !r.meets spn))
           (some ⟨[b, c], [spn] ++ b.regions false ++ c.regions true, [1, 1, 1, 1], 1, 1⟩)
       | _, _, _ => none)
  | _, _ => none

/-- Sub-operations of VOP that take one operand (R429). -/
def vopUnary (s : Nat) : Bool := s == 0 || (8 ≤ s && s ≤ 0xF)

/-- Integer sub-operations of VOP. -/
def vopInt (s : Nat) : Bool := 0x10 ≤ s && s ≤ 0x13

/-- Decode VOP (R428, R429): operands A, B (or A again) and D. -/
def decodeVop (l : List Byte) (ds : List (Nat × List Byte)) : Option Dec :=
  let sub := cb l 4
  let n := leAt l 26 4
  let un := vopUnary sub
  let imm := cbit l 6 7
  let fmtB := cbits l 5 4 4
  let fmtOkFor := fun c => if vopInt sub then c == 11 else vecFmt c
  match opndAt l ds 8 (mainOpnd (leAt l 8 6) (cbits l 5 0 4) n 1), opndAt l ds 20 (mainOpnd (leAt l 20 6) (cbits l 6 0 4) n 1),
      (if un || imm then some (mainOpnd 0 fmtB 1 1) else opndAt l ds 14 (mainOpnd (leAt l 14 6) fmtB n 1)) with
  | some a, some c, some b =>
    need (a.ext.all (· != 0) && fmtOkFor a.fmt && fmtOkFor c.fmt && a.ext == c.ext
        && (!un || (leAt l 14 6 == 0 && fmtB == 0 && !cbit l 6 5 && !imm))
        && (un || (if imm then (fmtB == (if vopInt sub then 11 else 0)) && !cbit l 6 5 else fmtOkFor b.fmt && b.ext == a.ext && readOk b))
        && readOk a && writeOk c && overlapOk c ([a] ++ (if un || imm then [] else [b])) true)
      (some ⟨[a, b, c], a.regions false ++ (if un || imm then [] else b.regions false) ++ c.regions true, c.ext,
        if isMx a.fmt || isMx c.fmt || (!un && !imm && isMx b.fmt) then 32 else 1, 1⟩)
  | _, _, _ => none

/-- Decode CVT (R431). -/
def decodeCvt (l : List Byte) (ds : List (Nat × List Byte)) : Option Dec :=
  let n := leAt l 20 4
  match opndAt l ds 8 (mainOpnd (leAt l 8 6) (cbits l 4 0 4) n 1), opndAt l ds 14 (mainOpnd (leAt l 14 6) (cbits l 4 4 4) n 1) with
  | some a, some c =>
    need (a.ext.all (· != 0) && (vecFmt a.fmt || a.fmt == 11) && (vecFmt c.fmt || c.fmt == 11) && a.ext == c.ext && readOk a && writeOk c
        && overlapOk c [a] true)
      (some ⟨[a, c], a.regions false ++ c.regions true, c.ext, if isMx a.fmt || isMx c.fmt then 32 else 1, 1⟩)
  | _, _ => none

/-- Extents with dimension `k` removed. -/
def dropDim (ext : List Nat) (k : Nat) : List Nat := (ext.take k ++ ext.drop (k + 1)) ++ [1]

/-- Decode VRED (R432). -/
def decodeVred (l : List Byte) (ds : List (Nat × List Byte)) : Option Dec :=
  let sub := cbits l 4 0 4
  let ax := cbits l 4 4 2
  let n0 := leAt l 20 4
  let n1 := leAt l 24 2
  let fa := cbits l 5 0 4
  match opndAt l ds 8 ⟨leAt l 8 6, fa, [n0, n1, 1, 1], [fmtBits fa / 8, leAt l 26 4, 0, 0], none⟩ with
  | some a =>
    let ext := dropDim a.ext ax
    let fd := cbits l 5 4 4
    match opndAt l ds 14 ⟨leAt l 14 6, fd, ext, [fmtBits fd / 8, denseRow fd (ix ext 0), denseRow fd (ix ext 0) * ix ext 1, denseRow fd (ix ext 0) * ix ext 1 * ix ext 2], none⟩ with
    | some c =>
      need (a.ext.all (· != 0) && (isHandle l 8 || ax ≤ 1) && (if sub = 5 then a.fmt == 11 && c.fmt == 11 else vecFmt a.fmt && vecFmt c.fmt)
          && c.ext == ext && readOk a && writeOk c && overlapOk c [a] false)
        (some ⟨[a, c], a.regions false ++ c.regions true, c.ext, if isMx c.fmt then 32 else 1, 1⟩)
    | none => none
  | none => none

/-- The update block that dispatch read, kept with the command's descriptor copies at position 26. -/
def ubOf (ds : List (Nat × List Byte)) : Option (List Byte) := (ds.find? (fun x => x.1 == 26)).map (·.2)

/-- Decode UPDATE (R433, R434): G, P, M1, M2. The update block supplies N and SOFS; it is read at dispatch, so before
that only the block's own region is checked. -/
def decodeUpdate (l : List Byte) (ds : List (Nat × List Byte)) : Option Dec :=
  let ubr := span (leAt l 26 6) 64 false
  match ubOf ds with
  | none => need ubr.ok (some ⟨[], [ubr], [1, 1, 1, 1], 1, 1⟩)
  | some ub =>
    let two := cbits l 4 0 2 == 0
    match opndAt l ds 14 (mainOpnd (leAt l 14 6) 0 (leAt ub 0 4) 1), opndAt l ds 8 (mainOpnd (leAt l 8 6) (cbits l 4 4 4) (leAt ub 0 4) 1),
        opndAt l ds 20 (mainOpnd (leAt l 20 6) 0 (leAt ub 0 4) 1) with
    | some p, some g, some m1 =>
      let m2 : Opnd := { m1 with base := m1.base + leAt ub 8 6 }
      need (p.ext.all (· != 0) && leAt ub 4 4 == 0 && leAt ub 14 2 == 0 && ofLE (takeAt ub 52 12) == 0 && p.fmt == 0 && m1.fmt == 0 && g.fmt ≤ 2
          && g.ext == p.ext && m1.ext == p.ext && ubr.ok && readOk g && writeOk p && writeOk m1 && (!two || writeOk m2)
          && overlapOk p ([g, m1] ++ (if two then [m2] else [])) false && overlapOk m1 ([g] ++ (if two then [m2] else [])) false
          && (!two || overlapOk m2 [g] false) && (p.regions true ++ m1.regions true ++ (if two then m2.regions true else [])).all (fun r => !r.meets ubr))
        (some ⟨[g, p, m1, m2], g.regions false ++ p.regions true ++ m1.regions true ++ (if two then m2.regions true else []) ++ [ubr], p.ext, 1, 1⟩)
    | _, _, _ => none

/-- Decode ATTN (R436): Q, KV and the triple's region. -/
def decodeAttn (l : List Byte) (ds : List (Nat × List Byte)) : Option Dec :=
  let dd := leAt l 26 2
  let t := leAt l 28 4
  let fq := cbits l 4 0 4
  let fk := cbits l 4 4 4
  let fo := cbits l 5 0 4
  match opndAt l ds 8 (mainOpnd (leAt l 8 6) fq dd 1),
      opndAt l ds 14 ⟨leAt l 14 6, fk, [dd, t, 2, 1], [fmtBits fk / 8, rowBytes dd (fmtBits fk), t * rowBytes dd (fmtBits fk), 0], none⟩ with
  | some q, some kv =>
    let o := span (leAt l 20 6) (8 + dd * (fmtBits fo / 8)) true
    need (1 ≤ dd && dd ≤ 1022 && t != 0 && accFmt q.fmt && 1 ≤ kv.fmt && kv.fmt ≤ 4 && (fo == 0 || fo == 2) && q.ext == [dd, 1, 1, 1]
        && kv.ext == [dd, t, 2, 1] && readOk q && readOk kv && o.ok && (q.regions false ++ kv.regions false).all (fun r => !r.meets o))
      (some ⟨[q, kv], q.regions false ++ kv.regions false ++ [o], [1, 1, 1, 1], 1, 1⟩)
  | _, _ => none

/-- Payload bytes of a packet of PUT and GET (R438). -/
def packetSize (l : List Byte) : Nat := 256 * 2 ^ cbits l 5 4 3

/-- Packets of a PUT or GET. -/
def packetCount (l : List Byte) : Nat := ceilDiv (leAt l 26 4) (packetSize l)

/-- Decode PUT and GET: the local region and the packet sequence. -/
def decodePutGet (l : List Byte) (put : Bool) : Option Dec :=
  let n := leAt l 26 4
  let r := span (leAt l 12 6) n (!put)
  need (n != 0 && r.ok && (!put || !(cbit l 4 0 && cbit l 4 3))) (some ⟨[], [r], [packetCount l, 1, 1, 1], 1, 1⟩)

/-- Decode any opcode for tackle `t`; `none` is RESERVED_OP. Opcodes with no region decode to nothing claimed. COLLJOIN's
region needs the open context and is added at dispatch. -/
def decodeCmd (t : Nat) (l : List Byte) (ds : List (Nat × List Byte)) : Option Dec :=
  let plain : Option Dec := some ⟨[], [], [1, 1, 1, 1], 1, 1⟩
  if !handlesOk l then none
  else
    match opcode l with
    | 0x10 => decodeMove l ds
    | 0x11 => decodeStream l true
    | 0x12 => decodeStream l false
    | 0x13 => decodeFill l ds
    | 0x14 => decodeSealchk l
    | 0x20 => decodeMma l ds (matSail t)
    | 0x21 => decodeGmma l ds (matSail t)
    | 0x30 => decodeVop l ds
    | 0x31 => decodeCvt l ds
    | 0x32 => decodeVred l ds
    | 0x33 => decodeUpdate l ds
    | 0x34 => decodeAttn l ds
    | 0x40 => decodePutGet l true
    | 0x41 => decodePutGet l false
    | 0x06 =>
      let r := span (leAt l 8 6) (leAt l 6 2) false
      need (256 < leAt l 6 2 && r.ok) (some ⟨[], [r], [1, 1, 1, 1], 1, 1⟩)
    | 0x05 =>
      if cbits l 4 0 4 = 3 then
        let n := leAt l 16 4
        let src := span (leAt l 8 6) n false
        let dst := span (leAt l 20 6) 32 true
        need (1 ≤ n && n ≤ 67108864 && src.ok && dst.ok && !src.meets dst) (some ⟨[], [src, dst], [1, 1, 1, 1], 1, 1⟩)
      else plain
    | 0x60 =>
      if cbits l 4 0 2 = 0 then
        let r := span (leAt l 8 6) (leAt l 16 4) false
        need (leAt l 16 4 != 0 && r.ok) (some ⟨[], [r], [1, 1, 1, 1], 1, 1⟩)
      else plain
    | _ => plain

/-! ## Division over children (R372, R373) -/

/-- A selection: for each dimension, ranges (start, length) in order. -/
abbrev Sel := List (List (Nat × Nat))

/-- The whole of the given extents. -/
def fullSel (ext : List Nat) : Sel := ext.map (fun n => [(0, n)])

/-- How many indices a range list holds. -/
def rangesLen (r : List (Nat × Nat)) : Nat := (r.map (·.2)).sum

/-- The part of a range list from position `o`, `k` indices long. -/
def rangesCut : List (Nat × Nat) → Nat → Nat → List (Nat × Nat)
  | [], _, _ => []
  | (a, n) :: t, o, k =>
    if k = 0 then []
    else if n ≤ o then rangesCut t (o - n) k
    else
      let m := min (n - o) k
      (a + o, m) :: rangesCut t 0 (k - m)

/-- The indices of a range list. -/
def rangesIdx (r : List (Nat × Nat)) : List Nat := (r.map (fun p => (List.range p.2).map (· + p.1))).flatten

/-- The dimension a rule divides: outermost with extent above 1 for OUTER and CYCLIC (0 when none), innermost for INNER. -/
def splitDim (s : Sel) (inner : Bool) : Nat :=
  if inner then 0
  else if 1 < rangesLen (s.getD 3 []) then 3 else if 1 < rangesLen (s.getD 2 []) then 2
  else if 1 < rangesLen (s.getD 1 []) then 1 else 0

/-- Piece of child `i` of `c` under OUTER or INNER: granules of `g` along a dimension of `n` indices (R373). -/
def pieceOf (n g c i : Nat) : Nat × Nat :=
  let G := ceilDiv n g
  let lo := i * (G / c) + min i (G % c)
  let k := G / c + (if i < G % c then 1 else 0)
  (lo * g, min n ((lo + k) * g) - lo * g)

/-- The blocks dealt to child `i` of `c` under CYCLIC: blocks of `b` indices. -/
def cyclicOf (r : List (Nat × Nat)) (n b c i : Nat) : List (Nat × Nat) :=
  (((List.range (ceilDiv n b)).filter (fun j => j % c == i)).map (fun j => rangesCut r (j * b) (min b (n - j * b)))).flatten

/-- The share of child `i` of `c` (rule 0 OUTER, 1 INNER, 2 CYCLIC with argument `arg`); `none`: no part. -/
def childSel (s : Sel) (rule arg g0 gIn c i : Nat) : Option Sel :=
  let k := splitDim s (rule == 1)
  let r := s.getD k []
  let n := rangesLen r
  let g := if k = 0 then (if rule = 1 then max g0 gIn else g0) else 1
  let r' := if rule = 2 then cyclicOf r n (g * 2 ^ arg) c i
    else let p := pieceOf n g c i; rangesCut r p.1 p.2
  if rangesLen r' = 0 then none else some (s.set k r')

/-- Every index of a selection, innermost dimension fastest. -/
def selIdx (s : Sel) : List (List Nat) :=
  (rangesIdx (s.getD 3 [(0, 1)])).flatMap (fun i3 =>
    (rangesIdx (s.getD 2 [(0, 1)])).flatMap (fun i2 =>
      (rangesIdx (s.getD 1 [(0, 1)])).flatMap (fun i1 =>
        (rangesIdx (s.getD 0 [(0, 1)])).map (fun i0 => [i0, i1, i2, i3]))))

end Sys2Proof.Machine
end

