-- ==== Sys2Proof/Machine/CollDesc.lean ====
section
/-!
DEFINITION. Collective descriptors (R300–R307): their fields, the sizes derived from them, the checks of COLL OPEN,
who owns and takes part in a chunk, and where a chunk is handled.
-/
namespace Sys2Proof.Machine

/-- Stages in order T, K, W, H; 4 stands for FINAL. -/
abbrev StageNo := Nat

/-- The 192 bytes of descriptor `i` in the Mast's table (R300). -/
def Dev.collDesc (d : Dev) (i : Nat) : List Byte :=
  ((List.range 48).map (fun w => leBytes 4 (d.getF F.MST_COLL_DESC_WORD [i, w]))).flatten

/-! ## Fields (R301, R302) -/

def cdId (c : List Byte) : Nat := leAt c 0 2 % 32768
def cdOp (c : List Byte) : Nat := cb c 2
def cdIn (c : List Byte) : Nat := cbits c 3 0 4
def cdOut (c : List Byte) : Nat := cbits c 3 4 4
def cdDir (c : List Byte) : Nat := cbits c 4 0 2
def cdChunk (c : List Byte) : Nat := 1024 * 2 ^ cbits c 4 2 2
def cdSat (c : List Byte) : Bool := cbit c 4 4
def cdFtz (c : List Byte) : Bool := cbit c 4 5
def cdIntSat (c : List Byte) : Bool := cbit c 4 6
def cdAnch (c : List Byte) : Bool := cbit c 5 0
def cdScale (c : List Byte) : Int := toSigned 8 (cb c 6)
def cdAnchor (c : List Byte) : Int := toSigned 16 (leAt c 8 2)
def cdD (c : List Byte) : Nat := leAt c 10 2
def cdFirst (c : List Byte) : Nat := leAt c 12 3
def cdCount (c : List Byte) : Nat := leAt c 16 4 % 2 ^ 25
def cdPkey (c : List Byte) : Nat := leAt c 20 2
/-- TIMEOUT in units of 10.24 µs. -/
def cdTimeout (c : List Byte) : Nat := leAt c 22 2
def cdShift (c : List Byte) (s : StageNo) : Nat := bits (leAt c 24 2) (5 * (s - 1)) 5
def cdGroup (c : List Byte) : Option Nat := if bit (leAt c 26 2) 15 then some (leAt c 26 2 % 4096) else none
def cdSigMode (c : List Byte) : Nat := cbits c 28 0 2
def cdResLocal (c : List Byte) : Bool := cbit c 28 2
def cdNoteLog (c : List Byte) : Nat := cbits c 28 4 4
def cdSigCtr (c : List Byte) : Nat := cb c 29
def cdSigTackle (c : List Byte) : Nat := leAt c 30 2
def cdSigRing (c : List Byte) : Nat := leAt c 32 2
def cdCtxRing (c : List Byte) : Nat := leAt c 34 2
def cdNoteDst (c : List Byte) : Nat := leAt c 36 4 % 2 ^ 20
def cdNoteBase (c : List Byte) : Nat := leAt c 40 7
def cdResBase (c : List Byte) : Nat := leAt c 48 6
def cdAccBase (c : List Byte) : Nat := leAt c 56 7
def cdMask (c : List Byte) (s : StageNo) : Nat := leAt c (96 + 24 * s) 8
def cdOwn (c : List Byte) (s : StageNo) : Nat := leAt c (104 + 24 * s) 8
def cdUpSlots (c : List Byte) (s : StageNo) : Nat := leAt c (112 + 24 * s) 2
def cdRetSlots (c : List Byte) (s : StageNo) : Nat := leAt c (114 + 24 * s) 2
def cdDeadline (c : List Byte) (s : StageNo) : Nat := leAt c (116 + 24 * s) 2
def cdEn (c : List Byte) (s : StageNo) : Bool := cbit c (118 + 24 * s) 0

/-- Enabled stages in order. -/
def cdStages (c : List Byte) : List StageNo := (List.range 4).filter (cdEn c)

/-- Enabled stages above T. -/
def cdUpper (c : List Byte) : List StageNo := (cdStages c).filter (· ≠ 0)

/-- The operation is SMERGE, the order-held one. -/
def cdSmerge (c : List Byte) : Bool := cdOp c == 8

/-- Down-only context. -/
def cdDown (c : List Byte) : Bool := cdDir c == 2

/-! ## Sizes (R304, R323) -/

/-- Bytes of an input and of an output element. -/
def cdInW (c : List Byte) : Nat := fmtBits (cdIn c) / 8
def cdOutW (c : List Byte) : Nat := fmtBits (cdOut c) / 8

/-- Elements of a chunk; in DOWN mode IN_FMT is ignored and OUT_FMT is the format carried (R304). -/
def cdE (c : List Byte) : Nat := cdChunk c / (if cdDown c then cdOutW c else cdInW c)

/-- Triples of an SMERGE chunk. -/
def cdQ (c : List Byte) : Nat := cdChunk c / (8 + cdD c * cdInW c)

/-- The wire format of a partial (R291): 0 FP32, 12 WP64, 13 AP64, 14 INT64, 11 INT32. -/
def cdWire (c : List Byte) : Nat :=
  if cdDown c then 0
  else if cdOp c ≤ 1 then (if cdAnch c then 13 else if cdIn c = 0 then 12 else 0)
  else if cdOp c = 4 then 14
  else if 5 ≤ cdOp c ∧ cdOp c ≤ 7 then 11
  else 0

/-- Smallest power of two of at least 1,024 that covers `n`. -/
def pow2At (n : Nat) : Nat := if n ≤ 1024 then 1024 else 2 ^ (Nat.log2 (n - 1) + 1)

/-- Wire bytes W. -/
def cdW (c : List Byte) : Nat :=
  pow2At (if cdSmerge c then cdQ c * (8 + 4 * cdD c) else cdE c * (fmtBits (cdWire c) / 8))

/-- Parts P. -/
def cdP (c : List Byte) : Nat := ceilDiv (cdW c) 4096

/-- Output bytes O. -/
def cdO (c : List Byte) : Nat := if cdSmerge c then cdQ c * cdD c * cdOutW c else cdE c * cdOutW c

/-- Size of a contribution at a stage (R322). -/
def cdContribSize (c : List Byte) (s : StageNo) : Nat := if s = 0 then cdChunk c else cdW c

/-- The highest enabled stage. -/
def cdTop (c : List Byte) : StageNo := ((cdStages c).getLast?).getD 0

/-- Up-slot bytes of a stage (R323). -/
def cdUpSize (c : List Byte) (s : StageNo) : Nat :=
  if cdDown c then (if s = cdTop c then cdO c else 0)
  else if cdSmerge c then (onesOf 36 (cdMask c s)).length * cdContribSize c s
  else 16 * cdE c

/-- Return-slot bytes. -/
def cdRetSize (c : List Byte) : Nat := roundUp (cdO c) 1024

/-- Staging of a context in each yard, in KiB (R308). -/
def cdStaging (c : List Byte) : Nat :=
  ceilDiv (((cdStages c).map (fun s => cdUpSlots c s * cdUpSize c s + (if s = 0 then 0 else cdRetSlots c s * cdRetSize c))).sum) 1024

/-! ## The checks of R304 -/

/-- A sequencer's tackle id. -/
def isSequencer (t : Nat) : Bool := tackleExists t && engineOf t == some .sequencer

/-- Formats of R303 by operation. -/
def cdFmtOk (c : List Byte) : Bool :=
  if cdDown c then cdOut c ≤ 4
  else if cdOp c ≤ 3 then cdIn c ≤ 4 && cdOut c ≤ 4
  else if cdOp c ≤ 7 then cdIn c == 11 && cdOut c == 11
  else (cdIn c == 0 || cdIn c == 2) && cdOut c ≤ 4

/-- Reserved bits and codes of a descriptor. -/
def cdClean (c : List Byte) : Bool :=
  !bit (leAt c 0 2) 15 && cdOp c ≤ 8 && cdDir c != 3 && cbits c 4 2 2 != 3 && !cbit c 4 7 && cbits c 5 1 7 == 0
    && cb c 7 == 0 && cb c 6 != 0x80 && cb c 15 == 0 && bits (leAt c 16 4) 25 7 == 0 && !bit (leAt c 24 2) 15
    && bits (leAt c 26 2) 12 3 == 0 && !cbit c 28 3 && (if cdSmerge c then 1 ≤ cdD c && cdD c ≤ 1022 else cdD c == 0)
    && bits (leAt c 32 2) 11 5 == 0 && bits (leAt c 34 2) 11 5 == 0 && bits (leAt c 36 4) 20 12 == 0 && cb c 47 == 0
    && leAt c 54 2 == 0 && cb c 63 == 0 && ofLE (takeAt c 64 32) == 0
    && 1 ≤ cdCount c && cdCount c ≤ 16777216 && cdFirst c + cdCount c ≤ 2 ^ 24
    && bits (cdMask c 0) 36 28 == 0 && cdOwn c 0 == 0 && cdRetSlots c 0 == 0
    && (List.range 4).all (fun s => bits (leAt c (118 + 24 * s) 2) 1 15 == 0 && (s == 0 || bits (cdMask c s) 16 48 == 0))

/-- COLL OPEN's descriptor checks; the counter of a signal must name a sail or base-die sequencer in service. -/
def Dev.cdOk (d : Dev) (c : List Byte) : Bool :=
  cdClean c && cdFmtOk c && (if cdDown c then cdOp c == 0 else true)
    && (!cdSmerge c || 0 < cdQ c) && cdW c ≤ 16384 && cdO c ≤ 4096
    && (!cdAnch c || (decide (-160 ≤ cdAnchor c) && decide (cdAnchor c ≤ 127)))
    && (cdSigMode c != 3 || (isSequencer (cdSigTackle c) && (cdSigTackle c / 4096 == 4 || cdSigTackle c / 4096 == 5)
        && !d.unitOut (cdSigTackle c) && cdSigCtr c ≤ 15))
    && cdEn c 0
    && (cdUpper c).all (fun s => (List.range 16).all (fun i => bit (cdMask c s) (bits (cdOwn c s) (4 * i) 4)))

/-! ## Ownership (R306, R307) -/

/-- Owner coordinate of chunk `n` at stage `s`. -/
def ownerAt (c : List Byte) (s : StageNo) (n : Nat) : Nat := bits (cdOwn c s) (4 * (n / 2 ^ cdShift c s % 16)) 4

/-- This device's coordinate in the dimension of stage `s`: K in D1 (RACK), W in D2 (ROW), H in D3 (HALL). -/
def Dev.coord (d : Dev) (s : StageNo) : Nat :=
  if s = 1 then d.net.fabAddr.2.2.1 else if s = 2 then d.net.fabAddr.2.1 else d.net.fabAddr.1

/-- The device takes part at stage `s` for chunk `n`. -/
def Dev.takesPart (d : Dev) (c : List Byte) (s : StageNo) (n : Nat) : Bool :=
  s == 0 || (cdEn c s && bit (cdMask c s) (d.coord s)
    && ((cdUpper c).filter (· < s)).all (fun r => d.coord r == ownerAt c r n))

/-- The device owns chunk `n` at stage `s`. -/
def Dev.owns (d : Dev) (c : List Byte) (s : StageNo) (n : Nat) : Bool :=
  d.takesPart c s n && (s == 0 || d.coord s == ownerAt c s n)

/-- The device is the root of chunk `n`. -/
def Dev.isRoot (d : Dev) (c : List Byte) (n : Nat) : Bool := cdEn c (cdTop c) && d.owns c (cdTop c) n

/-- The next enabled stage above `s`. -/
def nextStage (c : List Byte) (s : StageNo) : Option StageNo := (cdStages c).find? (fun r => decide (s < r))

/-- Contributors of a stage: endpoint or join-slot numbers at T, coordinates above. -/
def contributors (c : List Byte) (s : StageNo) : List Nat := onesOf (if s = 0 then 36 else 16) (cdMask c s)

/-! ## Contexts -/

/-- The open context of a collective id. -/
def Dev.ctx (d : Dev) (id : Nat) : Option Ctx := nget? d.coll.ctxs [id]

/-- The region a COLLJOIN reads, once its context is open (R444). -/
def Dev.joinRegion (d : Dev) (l : List Byte) : Option Region :=
  (d.ctx (leAt l 6 2 % 32768)).map (fun x =>
    span (leAt l 8 6) (cdCount x.desc * (if cb l 4 = 0xFF then cdO x.desc else cdChunk x.desc)) false)

end Sys2Proof.Machine
end

