-- ==== Sys2Proof/Machine/Tackle.lean ====
section
/-!
DEFINITION. Tackles (15): queues, execution slots, the region scoreboard, group parts, completion, trace records and
digest coverage. The rows of each opcode act on the run that COMMAND_DISPATCH placed in a slot.
-/
namespace Sys2Proof.Machine

/-! ## Queues and slots -/

/-- An idle tackle; the first examination starts at queue 0 (DESIGN CHOICE, log 3; DEDUCED, log 21). -/
def TckSt.init : TckSt := ⟨[[], [], [], []], [], 3, 0⟩

/-- The state of tackle `t`. -/
def Dev.tck (d : Dev) (t : Nat) : TckSt := nget TckSt.init d.eng.tck [t]

/-- Replace the state of tackle `t`. -/
def Dev.setTck (d : Dev) (t : Nat) (x : TckSt) : Dev :=
  { d with eng := { d.eng with tck := nput TckSt.init d.eng.tck [t] x } }

/-- Queue `q` of tackle `t`. -/
def Dev.queue (d : Dev) (t q : Nat) : List Cmd := (d.tck t).queues.getD q []

/-- A queue whose head knows when it became the head. -/
def stampHead (now : Nat) : List Cmd → List Cmd
  | [] => []
  | c :: l => (if c.headAt.isNone then { c with headAt := some now } else c) :: l

/-- Replace a queue. -/
def Dev.setQueue (d : Dev) (t q : Nat) (l : List Cmd) : Dev :=
  let x := d.tck t
  d.setTck t { x with queues := x.queues.set q (stampHead d.fabTime l) }

/-- The run in slot `k`. -/
def Dev.runAt (d : Dev) (t k : Nat) : Option Run := (d.tck t).runs.find? (fun r => r.slot == k)

/-- Replace the run of the same slot. -/
def Dev.setRun (d : Dev) (t : Nat) (r : Run) : Dev :=
  let x := d.tck t
  d.setTck t { x with runs := x.runs.map (fun o => if o.slot == r.slot then r else o) }

/-- Free slot `k`. -/
def Dev.dropRun (d : Dev) (t k : Nat) : Dev :=
  let x := d.tck t
  d.setTck t { x with runs := x.runs.filter (fun o => o.slot != k) }

/-- The lowest free execution slot of the four (R368). -/
def freeSlot (l : List Run) : Option Nat := (List.range 4).find? (fun k => !l.any (fun r => r.slot == k))

/-- Queue `q` is halted (R369). -/
def Dev.halted (d : Dev) (t q : Nat) : Bool := d.bitF F.TCK_STAT_HALTED [t] q

/-- One step of a face's EPOCH (DEDUCED, log 63). -/
def Dev.bumpEpoch (d : Dev) (t : Nat) : Dev := d.addWrap F.TCK_STAT_EPOCH [t] 1

/-- Set or clear HALTED of a queue; a change increments EPOCH (DEDUCED, log 63). -/
def Dev.setHalt (d : Dev) (t q : Nat) (v : Bool) : Dev :=
  if d.halted t q == v then d
  else (if v then d.setBitF F.TCK_STAT_HALTED [t] q else d.clrBitF F.TCK_STAT_HALTED [t] q).bumpEpoch t

/-- MASKED of a face; a change is a step of EPOCH (DEDUCED, log 43). -/
def Dev.setMasked (d : Dev) (t : Nat) (v : Bool) : Dev :=
  if d.flag F.TCK_STAT_MASKED [t] == v then d else (d.setF F.TCK_STAT_MASKED [t] (b2n v)).bumpEpoch t

/-- The host partition that MST_QMAP maps to queue `q` of tackle `t` (7: none). -/
def Dev.partOf (d : Dev) (t q : Nat) : Nat :=
  let f := match q with | 0 => F.MST_QMAP_Q0 | 1 => F.MST_QMAP_Q1 | 2 => F.MST_QMAP_Q2 | _ => F.MST_QMAP_Q3
  d.getF f [tackleDie t]

/-- Tackle `t` is in a tackle reset. -/
def Dev.tckInReset (d : Dev) (t : Nat) : Bool := (nget? d.rst.tackles [t]).isSome

/-- The clock of tackle `t`'s island runs: while it is stopped the tackle executes and completes nothing (R58). -/
def Dev.tckRuns (d : Dev) (t : Nat) : Bool := d.islandOn (tackleIsland t)

/-- READY of a tackle (R102, R397): its die's READY, outside a reset of its own; a spanning group follows its in-service
die groups. -/
def Dev.tckReady (d : Dev) (t : Nat) : Bool :=
  !d.tckInReset t &&
    (if tackleDie t = 25 then (dieGroups t).all (fun g => !d.dieOk (tackleDie g) || d.dieReady (tackleDie g))
     else d.dieReady (tackleDie t) && d.islandOn (tackleIsland t))

/-! ## Record rings by id (R123) -/

/-- Port, function and ring of a ring id, when the function exists. -/
def ringIdx (id : Nat) : Option (List Nat) :=
  if id % 512 < 272 then some [id / 512 % 4, id % 512 / 16, id % 16] else none

/-- The export ring of R502. -/
def exportRing (id : Nat) : Bool := id % 512 == 0x1FF

/-- The ring takes records: ARMED, or the export ring before closure. -/
def State.ringArmedIn (closed : Bool) (d : Dev) (id : Nat) : Bool :=
  if exportRing id then !closed
  else match ringIdx id with
    | some i => d.getF F.HST_RR_STAT_STATE i == 1
    | none => false

/-- As far as the device alone decides: the export ring counts as armed. -/
def Dev.ringArmed (d : Dev) (id : Nat) : Bool := State.ringArmedIn false d id

/-- Count a discarded record (R130). -/
def Dev.rrDiscard (d : Dev) (id : Nat) : Dev :=
  match ringIdx id with
  | some i => d.incSat F.HST_RR_DISCARD_COUNT i
  | none => d

/-- Bytes a record takes up (R129). -/
def recSize (l : List Byte) : Nat := roundUp l.length 8

/-- Ring bytes. A write of HST_RR_CFG or HST_RR_BASE while the ring is ARMED counts from the next record on (DESIGN CHOICE, log 71). -/
def Dev.rrBytes (d : Dev) (i : List Nat) : Nat := 2 ^ d.getF F.HST_RR_CFG_SIZE_LOG2 i

/-- Bytes of the pad that a record of `size` bytes needs before it: up to the ring's end, where the record would cross it (R129). -/
def Dev.rrPad (d : Dev) (i : List Nat) (size : Nat) : Nat :=
  let n := d.rrBytes i
  let pos := d.getF F.HST_RR_COUNT_PRODUCED i % n
  if n < pos + size then n - pos else 0

/-- `size` bytes can be reserved now: PRODUCED + size − RELEASED ≤ ring size (R130). -/
def Dev.rrFits (d : Dev) (i : List Nat) (size : Nat) : Bool :=
  (d.getF F.HST_RR_COUNT_PRODUCED i + size + 2 ^ 32 - d.getF F.HST_RR_COUNT_RELEASED i) % 2 ^ 32 ≤ d.rrBytes i

/-- A record waits for space: it, or the pad before it, which is reserved and written first, does not fit. -/
def Dev.recBlocked (d : Dev) (r : Rec) : Bool :=
  match ringIdx r.ring with
  | some i => d.getF F.HST_RR_STAT_STATE i == 1 && recSize r.bytes ≤ d.rrBytes i
      && !d.rrFits i (d.rrPad i (recSize r.bytes) + recSize r.bytes)
  | none => false

/-- A record of tackle `t` waits for a full ring: the tackle dispatches nothing new (R396). -/
def Dev.recWaits (d : Dev) (t : Nat) : Bool := d.host.recs.any (fun r => r.owner == some t && d.recBlocked r)

/-! ## Trace records (R498–R501) -/

/-- The die whose trace registers a tackle uses. -/
def traceDie (t : Nat) : DieNo := faceDie t

/-- Entries of a die's trace buffer. -/
def traceCap : Nat := 4096

/-- The die's buffer has no room. -/
def Dev.traceFull (d : Dev) (n : DieNo) : Bool := traceCap ≤ d.getF F.TRC_STAT_LEVEL [n]

/-- Put a record into a die's buffer that has room (DEDUCED, log 22). -/
def Dev.tracePut (d : Dev) (n : DieNo) (r : Rec) : Dev :=
  let d := (d.setF F.TRC_STAT_LEVEL [n] (d.getF F.TRC_STAT_LEVEL [n] + 1)).addWrap F.TRC_RECS_COUNT [n] 1
  { d with tel := { d.tel with traceBuf := d.tel.traceBuf ++ [(n, r)] } }

/-- The completion that waited with a trace record for room in the buffer goes on: tackle and slot (R501). -/
def Dev.traceGoes (d : Dev) (w : Option (Nat × Nat)) : Dev :=
  match w with
  | some (t, k) => (match d.runAt t k with
    | some run => if run.ended = 1 then d.setRun t { run with ended := 2 } else d
    | none => d)
  | none => d

/-- A trace record of die `n` is discarded because its ring is not armed: the die counts it (R501), and so does the ring (R130). -/
def Dev.traceDrop (d : Dev) (n : DieNo) (ring : Nat) : Dev :=
  let d := d.incSat F.TRC_DISCARD_COUNT [n]
  if exportRing ring then d else d.rrDiscard ring

/-- Write a trace, marker or drop-sample record of die `n`: discarded when its ring is not armed, else into the buffer,
or to wait for room there. -/
def Dev.traceRec (d : Dev) (n : DieNo) (ring : Nat) (bytes : List Byte) (run : Option (Nat × Nat)) : Dev :=
  if !d.ringArmed ring then d.traceDrop n ring
  else if d.traceFull n then { d with tel := { d.tel with traceWait := d.tel.traceWait ++ [(n, ⟨ring, bytes, none⟩, run)] } }
  else d.tracePut n ⟨ring, bytes, none⟩

/-! ## Ring pointers in two copies (R132) -/

/-- The pointers of a ring: of a command ring (kind 0) CONSUMED and PRODUCED, of a record ring (kind 1) PRODUCED and RELEASED. -/
def ringPtrs (k : Nat) : Field × Field :=
  if k = 0 then (F.HST_CR_COUNT_CONSUMED, F.HST_CR_COUNT_PRODUCED) else (F.HST_RR_COUNT_PRODUCED, F.HST_RR_COUNT_RELEASED)

/-- Both copies of the ring's pointers agree. -/
def Dev.ptrsOk (d : Dev) (k : Nat) (i : List Nat) : Bool :=
  nget (0, 0) d.host.ptr2 (k :: i) == (d.getF (ringPtrs k).1 i, d.getF (ringPtrs k).2 i)

/-- Write both copies of the ring's pointers. -/
def Dev.setPtrs (d : Dev) (k : Nat) (i : List Nat) (a b : Nat) : Dev :=
  let d := (d.setF (ringPtrs k).1 i a).setF (ringPtrs k).2 i b
  { d with host := { d.host with ptr2 := nput (0, 0) d.host.ptr2 (k :: i) (a % 2 ^ 32, b % 2 ^ 32) } }

/-- A record ring leaves ARMED: every record that waits for it is discarded and counted, in the Mast's list and in the dies' trace
buffers, and a completion that waited with one goes on (R130, R501). -/
def Dev.ringEmptied (d : Dev) (i : List Nat) : Dev :=
  let mine := fun (r : Rec) => ringIdx r.ring == some i && !exportRing r.ring
  let gone := (d.host.recs.filter mine).length
  let bufs := d.tel.traceBuf.filter (fun r => mine r.2)
  let waits := d.tel.traceWait.filter (fun r => mine r.2.1)
  let d := { d with host := { d.host with recs := d.host.recs.filter (fun r => !mine r) }
                    tel := { d.tel with traceBuf := d.tel.traceBuf.filter (fun r => !mine r.2)
                                        traceWait := d.tel.traceWait.filter (fun r => !mine r.2.1) } }
  let d := bufs.foldl (fun d r => (d.subF F.TRC_STAT_LEVEL [r.1] 1).incSat F.TRC_DISCARD_COUNT [r.1]) d
  let d := waits.foldl (fun d r => (d.incSat F.TRC_DISCARD_COUNT [r.1]).traceGoes r.2.2) d
  d.addSat F.HST_RR_DISCARD_COUNT i (gone + bufs.length + waits.length)

/-- A ring's duplicated pointers differ: it enters RESET, its commands or waiting records are discarded, and both copies hold one
value again (R132) (DEDUCED, log 72). -/
def Dev.ringCheck (d : Dev) (k : Nat) (i : List Nat) : Dev :=
  let d := ((d.raise F.HST_PORT_ERR_RING_CHECK [ix i 0]).fault 0 .ringCheck)
  if k = 0 then
    let d := ((d.setF F.HST_CR_STAT_STATE i 3).raise F.HST_CR_STAT_CHECK i).setPtrs 0 i 0 0
    { d with host := { d.host with binds := ndel d.host.binds i, slots := d.host.slots.filter (fun s => s.1.take 3 != i) } }
  else
    let d := ((d.setF F.HST_RR_STAT_STATE i 3).raise F.HST_RR_STAT_CHECK i).ringEmptied i
    d.setPtrs 1 i (d.getF F.HST_RR_COUNT_PRODUCED i) (d.getF F.HST_RR_COUNT_RELEASED i)

/-- An update of a ring's pointers: the copies are compared first. -/
def Dev.movePtrs (d : Dev) (k : Nat) (i : List Nat) (a b : Nat) : Dev := if d.ptrsOk k i then d.setPtrs k i a b else d.ringCheck k i

/-- Commands of queue `q` of tackle `t` are traced. -/
def Dev.traceOn (d : Dev) (t q : Nat) : Bool := d.flag F.TRC_Q_CMD_EN [traceDie t, q]

/-- The ring of queue `q`'s trace records. -/
def Dev.traceRing (d : Dev) (t q : Nat) : Nat := d.getF F.TRC_Q_RING [traceDie t, q]

/-- A dispatch of queue `q` would wait for the trace buffer (DEDUCED, log 22). -/
def Dev.traceStall (d : Dev) (t q : Nat) (mark : Bool) : Bool :=
  (if mark then d.flag F.TRC_Q_MARK_EN [traceDie t, q] else d.traceOn t q) && d.ringArmed (d.traceRing t q) && d.traceFull (traceDie t)

/-- A record of type 0x42 (R499) (DEDUCED, log 22). -/
def traceBytes (d : Dev) (kind t q : Nat) (c : Cmd) (status data : Nat) : List Byte :=
  leBytes 4 32 ++ leBytes 1 0x42 ++ leBytes 1 kind ++ leBytes 2 t ++ leBytes 1 q ++ leBytes 1 (opcode c.bytes) ++ leBytes 1 status
    ++ leBytes 1 (d.getF F.FAB_STAT_ALIGNED + 2 * b2n c.parent.isSome) ++ leBytes 4 c.index ++ leBytes 8 d.fabTime ++ leBytes 8 data

/-- The BEGIN record of a dispatch. The wait reason of a command that waited is not kept: a free value. -/
def Dev.traceBegin (d : Dev) (t q : Nat) (c : Cmd) : Dev :=
  if d.traceOn t q then
    let age := d.fabTime - c.headAt.getD d.fabTime
    let w := d.freeNum
    let reason := if age = 0 then 0 else w.1 % 15
    w.2.traceRec (traceDie t) (d.traceRing t q) (traceBytes d 1 t q c 0 (min age (2 ^ 32 - 1) + 2 ^ 32 * reason)) none
  else d

/-! ## Completion (R393–R396) -/

/-- What a command reports when it completes. -/
structure Report where
  st : Status
  detail : Nat
  sat : Nat
  flush : Nat
  seqErr : Bool
  fails : List Nat
  deriving DecidableEq, Repr

/-- A report of a status alone. -/
def Report.of (st : Status) : Report := ⟨st, 0, 0, 0, false, []⟩

/-- Release every scoreboard entry of command `uid` of tackle `t` (R380). -/
def Dev.release (d : Dev) (t uid : Nat) : Dev :=
  { d with eng := { d.eng with board := d.eng.board.map (fun b => (b.1, b.2.filter (fun c => !(c.tackle == t && c.uid == uid)))) } }

/-- The completion record of R396. -/
def completionRec (d : Dev) (t q : Nat) (c : Cmd) (r : Report) : List Byte :=
  leBytes 4 32 ++ leBytes 1 0x41 ++ leBytes 1 r.st.code ++ leBytes 2 t ++ leBytes 1 q ++ leBytes 1 (opcode c.bytes)
    ++ leBytes 2 (if r.st = .lost then r.detail % 256 else 0) ++ leBytes 4 c.index ++ leBytes 4 (min r.sat (2 ^ 32 - 1))
    ++ leBytes 4 (min r.flush (2 ^ 32 - 1)) ++ leBytes 8 d.fabTime

/-- A part reports to its group command (R374). -/
def Dev.partDone (d : Dev) (g uid : Nat) (r : Report) : Dev :=
  match (d.tck g).runs.find? (fun x => x.cmd.uid == uid) with
  | some x => d.setRun g { x with
      partsLeft := x.partsLeft - 1, partSts := x.partSts ++ [r.st.code], sat := x.sat + r.sat, flush := x.flush + r.flush,
      seqErr := x.seqErr || r.seqErr, acc := x.acc ++ r.fails }
  | none => d

/-- A covered command leaves the windows that cover it. -/
def Dev.digestDone (d : Dev) (t uid : Nat) : Dev :=
  { d with eng := { d.eng with windows := d.eng.windows.map (fun w =>
      if w.2.open_.contains (t, uid) then
        (w.1, { w.2 with open_ := w.2.open_.filter (· ≠ (t, uid)), lastDone := d.fabTime, tdcDone := d.getF F.MST_TDC_TOTAL_TOTAL })
      else w) } }

/-- A command of queue `q` completes: entries, TCK_DONE, and for a command that is no part the error bits, the record,
the interrupt and STOP_ON_ERR. `trace`: its END record is still to be written. -/
def Dev.finish (d : Dev) (t q : Nat) (c : Cmd) (r : Report) (trace : Bool) : Dev :=
  let op := opcode c.bytes
  let d := (d.release t c.uid).addWrap F.TCK_DONE_COUNT [t] 1
  let d := if trace && d.traceOn t q then
      d.traceRec (traceDie t) (d.traceRing t q) (traceBytes d 2 t q c r.st.code (min r.sat (2 ^ 32 - 1) + 2 ^ 32 * min r.flush (2 ^ 32 - 1))) none
    else d
  match c.parent with
  | some (g, uid) =>
    let d := if r.st = .ctrlCheck then d.tckRaise t [(F.TCK_ERR_CTRL_CHECK, 5)] else d
    d.partDone g uid r
  | none =>
    let d := d.digestDone t c.uid
    let d := d.tckError t q op c.index r.st (op == 2) r.seqErr
    let d := if cbit c.bytes 1 0 then
        (if d.flag F.TCK_QCFG_REC_EN [t, q] then d.addRec (d.getF F.TCK_QCFG_REC_RING [t, q]) (completionRec d t q c r) (some t)
         else d.rrDiscard (d.getF F.TCK_QCFG_REC_RING [t, q]))
      else d
    let d := if cbit c.bytes 1 1 && !d.headless then
        (match c.ring with
         | some (x, f, k) => if d.flag F.HST_CR_CFG_IRQ_EN [x, f, k] then d.sendMsix x f (d.getF F.HST_CR_CFG_VECTOR [x, f, k]) else d
         | none => d)
      else d
    if r.st ≠ .ok && d.flag F.TCK_QCFG_STOP_ON_ERR [t, q] then d.setHalt t q true else d

/-! ## The digest engine's queue (R86, R88, R89) -/

/-- Feed one entry of a stream: kind, tackle, queue. At most 256 streams are hashed; further ones are counted. -/
def Window.feed (w : Window) (kind t q : Nat) (entry : List Byte) : Window :=
  match nget? w.streams [kind, t, q] with
  | some l => { w with streams := nset w.streams [kind, t, q] (l ++ entry) }
  | none =>
    if w.streams.length < 256 then { w with streams := nset w.streams [kind, t, q] entry }
    else { w with unhashed := w.unhashed.set kind (w.unhashed.getD kind 0 + 1), flags := setBit w.flags 0 }

/-- Base-clock cycles to hash what entry `e` completes of its stream's 64-byte blocks: 64 for a block (R89). -/
def Window.cost (w : Window) (e : DigEntry) : Nat :=
  match nget? w.streams [e.kind, e.tackle, e.queue] with
  | some l => 64 * ((l.length + e.bytes.length) / 64 - l.length / 64)
  | none => 0

/-- The engine takes entries from the front of its queue while the cycles last: the queue, the cycles and the windows that are left.
Entries of a window that has closed are passed over. -/
def digTake : List DigEntry → Nat → NMap Window → List DigEntry × Nat × NMap Window
  | [], _, ws => ([], 0, ws)
  | e :: t, n, ws =>
    match nget? ws [e.win] with
    | none => digTake t n ws
    | some w => if n < w.cost e then (e :: t, n, ws) else digTake t (n - w.cost e) (nset ws [e.win] (w.feed e.kind e.tackle e.queue e.bytes))

/-- Entries the queue holds. -/
def digCap : Nat := 4096

/-- Replace the engine's queue; BACKLOG shows its length (R93). -/
def Dev.setDigQ (d : Dev) (l : List DigEntry) : Dev := { d with eng := { d.eng with digQ := l } }.setF F.MST_DIG_STAT_BACKLOG [] l.length

/-- Command `id` is covered by an open window. -/
def Dev.covered (d : Dev) (id : Nat × Nat) : Bool := d.eng.windows.any (fun w => w.2.open_.contains id)

/-- An earlier covered command of leaf `t` still runs, so the seals of command `uid` are held (R86). -/
def Dev.sealsHeld (d : Dev) (t uid : Nat) : Bool :=
  (d.tck t).runs.any (fun r => r.cmd.uid < uid && r.status.isNone && d.covered (r.cmd.parent.getD (t, r.cmd.uid)))

/-- Seals of leaf `t` enter the engine's queue in command order, while it has room. -/
def Dev.pumpSeals (d : Dev) (t : Nat) : Dev :=
  let l := nget [] d.eng.seals [t]
  let ready := l.takeWhile (fun x => !d.sealsHeld t x.1)
  let n := min ready.length (digCap - d.eng.digQ.length)
  if n = 0 then d
  else
    let d := d.setDigQ (d.eng.digQ ++ (l.take n).map (·.2))
    { d with eng := { d.eng with seals := nput [] d.eng.seals [t] (l.drop n) } }

/-- Seals of command `uid` stall its leaf: those of the earliest command until the queue has taken them, those of a later one while
the leaf's buffer of 256 is full (R86, R89). -/
def Dev.sealStall (d : Dev) (t uid : Nat) : Bool :=
  let l := nget [] d.eng.seals [t]
  let held := l.filter (fun x => d.sealsHeld t x.1)
  l.any (fun x => x.1 == uid && !d.sealsHeld t x.1) || (held.drop 256).any (fun x => x.1 == uid)

/-- One frame of the digest engine: 200 base-clock cycles, at one 64-byte block per 64 of them (R89). What the leaves hold follows as
room allows. -/
def Dev.digFrame (d : Dev) : Dev :=
  if d.tckInReset 0x1001 || !d.islandOn 5 then d
  else
    let d := if d.eng.digQ.isEmpty then d
      else
        let x := digTake d.eng.digQ (d.eng.digCyc + 200) d.eng.windows
        ({ d with eng := { d.eng with windows := x.2.2, digCyc := x.2.1 } } : Dev).setDigQ x.1
    (d.eng.seals.map (fun s => ix s.1 0)).foldl Dev.pumpSeals d

/-- Leaf `t` is reset: the seals it had not passed on are gone (R85). -/
def Dev.dropSeals (d : Dev) (t : Nat) : Dev := { d with eng := { d.eng with seals := ndel d.eng.seals [t] } }

/-! ## Digest coverage at dequeue (R84, R86) -/

/-- Tackle `t` lies in the scope of a window: it is the scope tackle, or a leaf or die group under it (R84). -/
def inScope (t g : Nat) : Bool :=
  t == g || g == 0 || (g == 0x4FFF && t / 4096 == 4) || (g == 0x5FFF && t / 4096 == 5)
    || (g % 256 == 0xFF && g / 256 == t / 256)

/-- MST_UNITS as one number. -/
def Dev.units (d : Dev) : Nat :=
  d.getF F.MST_UNITS_YARD_OK + 16 * d.getF F.MST_UNITS_SAIL_OK + 256 * d.getF F.MST_UNITS_PORT_OK + 65536 * d.getF F.MST_UNITS_BASE_OK

/-- MST_UNITS was `was`: where it changed, every window open through it takes UNITS_CHANGED (R90). -/
def Dev.unitsWere (d : Dev) (was : Nat) : Dev :=
  if d.units = was then d
  else { d with eng := { d.eng with windows := d.eng.windows.map (fun w =>
          (w.1, if w.2.openTime.isSome then { w.2 with flags := setBit w.2.flags 4 } else w.2)) } }

/-- A dequeued command meets one window. `good`: it passed the dequeue checks, so a MARK counts as one. -/
def Window.dequeued (w : Window) (d : Dev) (t q hp : Nat) (c : Cmd) (good : Bool) : Window :=
  if !(inScope t w.scope && bit w.pmask hp) then w
  else
    let mark := good && opcode c.bytes == 4
    let v := leAt c.bytes 4 4
    match nget 0 w.queues [t, q] with
    | 0 =>
      if mark && v == w.openMark && !w.closing then
        let w := { w with queues := nput 0 w.queues [t, q] 1 }
        if w.openTime.isNone then
          { w with openTime := some d.fabTime, tdcAtOpen := d.getF F.MST_TDC_TOTAL_TOTAL, units := d.units }
        else w
      else w
    | 1 =>
      let w := { w with open_ := w.open_ ++ [(t, c.uid)] }
      if mark && v == w.closeMark then { w with queues := nput 0 w.queues [t, q] 2 } else w
    | _ => w

/-- Numbers of the windows that cover the next command dequeued from queue `q` of tackle `t`. -/
def Dev.coverers (d : Dev) (t q hp : Nat) : List Nat :=
  (d.eng.windows.filter (fun w => inScope t w.2.scope && bit w.2.pmask hp && nget 0 w.2.queues [t, q] == 1)).map (fun w => ix w.1 0)

/-- The engine's queue has no room for the entries of that command: its dequeue stalls (R89). -/
def Dev.digStall (d : Dev) (t q hp : Nat) : Bool := decide (digCap < d.eng.digQ.length + (d.coverers t q hp).length)

/-- Every open window sees the dequeue; each that covers the command feeds it. -/
def Dev.digestDequeue (d : Dev) (t q hp : Nat) (c : Cmd) (good : Bool) : Dev :=
  let es := (d.coverers t q hp).map (fun w => DigEntry.mk w 0 t q c.bytes)
  let d := if es.isEmpty then d else d.setDigQ (d.eng.digQ ++ es)
  { d with eng := { d.eng with windows := d.eng.windows.map (fun w => (w.1, w.2.dequeued d t q hp c good)) } }

/-! ## Checks at dequeue and decode -/

/-- Children of a group that take opcode `o`: leaves of a die group, or die groups (R371). -/
def Dev.kids (d : Dev) (t o : Nat) : List Nat :=
  if tackleDie t = 25 then
    (dieGroups t).filter (fun g => d.dieOk (tackleDie g) &&
      (unitsOf (g / 4096)).any (fun u => ((engineOf (g - 0xFF + u)).map (·.runs o)).getD false && !d.unitOut (g - 0xFF + u)))
  else
    ((unitsOf (t / 4096)).map (fun u => t - t % 256 + u)).filter (fun l => ((engineOf l).map (·.runs o)).getD false && !d.unitOut l)

/-- The flattened list of leaves that SINGLE indexes. -/
def Dev.flatKids (d : Dev) (t o : Nat) : List Nat :=
  if tackleDie t = 25 then (d.kids t o).flatMap (fun g => d.kids g o) else d.kids t o

/-- The opcode divides over children on a group tackle. -/
def divides (o : Nat) : Bool := !commonOp o && o != 5

/-- PART codes that an opcode takes on a group (R407). -/
def partTaken (o part : Nat) : Bool :=
  if o == 0x10 || o == 0x13 || o == 0x14 || o == 0x20 || (0x30 ≤ o && o ≤ 0x33) || o == 0x40 || o == 0x41 then part ≤ 3
  else if o == 6 then part == 3 || part == 4
  else part == 3

/-- The partition rule of a group command (R371, R372, R407). -/
def Dev.partOk (d : Dev) (t : Nat) (l : List Byte) : Bool :=
  let o := opcode l
  let part := cbits l 2 0 4
  let arg := cb l 3
  !(isGroup t && divides o) ||
    (partTaken o part && !(d.kids t o).isEmpty
      && (if part ≤ 1 then arg == 0 else if part = 2 then arg ≤ 16 else if part = 3 then arg < (d.flatKids t o).length else true)
      && !((o == 0x40 || o == 0x41) && (cbit l 4 1 || cbit l 4 2)))

/-- First address and end of bank `b` of a sail or base die. -/
def bankRange (sail : Bool) (die b : Nat) : Nat × Nat :=
  if sail then
    if b < 64 then (sailBase die + b * 0x200000, sailBase die + (b + 1) * 0x200000)
    else (sailBase die + 0x8000000 + (b - 64) * 0x400000, sailBase die + 0x8000000 + (b - 63) * 0x400000)
  else (padBase die + b * 0x200000, padBase die + (b + 1) * 0x200000)

/-- The bank that holds an address, as a write region (R356, R412). -/
def bankSpan (a : Nat) : Option Region :=
  match place a with
  | .sail s b => some ⟨(bankRange true s b).1, (bankRange true s b).2, true⟩
  | .base n b => some ⟨(bankRange false n b).1, (bankRange false n b).2, true⟩
  | _ => none

/-- A named tackle id exists and is in service (R28). -/
def Dev.tackleOk (d : Dev) (t : Nat) : Bool := tackleExists t && !d.unitOut t

/-- Decode checks that need the device: tackle ids, the partition rule, banks, ranges and ports that a command names. -/
def Dev.namesOk (d : Dev) (t : Nat) (l : List Byte) : Bool :=
  d.partOk t l &&
    (match opcode l with
     | 0x02 => isSequencer (leAt l 4 2) && !d.unitOut (leAt l 4 2)
     | 0x03 => isSequencer (leAt l 4 2) && !d.unitOut (leAt l 4 2)
     | 0x07 => (bankSpan (leAt l 8 6)).isSome && ownerOk (cb l 4)
     | 0x05 =>
       if cbits l 4 0 4 = 0 then d.tackleOk (leAt l 8 2)
       else if cbits l 4 0 4 = 1 then leAt l 16 6 != 0 && leAt l 8 6 + leAt l 16 6 ≤ 2 ^ 48 && !(placesOf (leAt l 8 6) (leAt l 16 6)).contains .reserved
       else true
     | 0x61 => d.bitF F.MST_UNITS_PORT_OK [] (cb l 4 / 32)
     | _ => true)

/-- Every check of dequeue and decode (R393), with the descriptor copies taken (DEDUCED, log 21). -/
def Dev.acceptCmd (d : Dev) (t : Nat) (l : List Byte) (ds : List (Nat × List Byte)) : Bool :=
  dequeueOk t l && !d.unitOut t && d.namesOk t l && (decodeCmd t l ds).isSome

/-- The command waits at decode for its handles' descriptors (R377): it names some and has no copies yet. -/
def Cmd.undecoded (c : Cmd) : Bool := !(handlePos c.bytes).isEmpty && c.descs.isEmpty

/-- How the command's dequeue or decode fails, if it does: on a descriptor whose check failed (R377, R464), or on what it names
(R393). -/
def Dev.decodeFails (d : Dev) (t : Nat) (l : List Byte) (ds : List (Nat × List Byte)) : Option Status :=
  if dequeueOk t l && handlesOk l && (handlePos l).any (fun p => d.broken [6, leAt l p 2]) then some .ctrlCheck
  else if d.acceptCmd t l ds then none else some .reservedOp

/-- The copies that decode takes of the descriptors a command names. -/
def Dev.copyDescs (d : Dev) (t : Nat) (l : List Byte) : List (Nat × List Byte) := if dequeueOk t l && handlesOk l then d.takeDescs l else []

/-- A command enters queue `q`: counted, checked, covered by digest windows; one that fails completes at once (R393). While
MST_READY.MAST reads 0, one with a handle enters it to wait at decode (R377) (DEDUCED, log 21). -/
def Dev.enqueue (d : Dev) (t q : Nat) (l : List Byte) (ring : Option (Nat × Nat × Nat)) (bad : Bool) : Dev :=
  let x := d.tck t
  let hp := d.partOf t q
  let held := dequeueOk t l && !d.unitOut t && !(handlePos l).isEmpty && !d.flag F.MST_READY_MAST
  let ds := if held then [] else d.copyDescs t l
  let c : Cmd := ⟨l, d.getF F.TCK_QIDX_INDEX [t, q], hp, ring, ds, none, none, x.nextUid, none, none⟩
  let fails := if bad then some .ctrlCheck else if held then none else d.decodeFails t l ds
  let d := (d.addWrap F.TCK_QIDX_INDEX [t, q] 1).setTck t { x with nextUid := x.nextUid + 1 }
  let d := d.digestDequeue t q hp c fails.isNone
  match fails with
  | some st => d.finish t q c (Report.of st) true
  | none => d.setQueue t q (d.queue t q ++ [c])

/-- A command that waited at decode in queue `q` goes on: MST_READY.MAST has risen. -/
def Dev.decodeNow (d : Dev) (t q : Nat) (c : Cmd) : Dev :=
  let ds := d.copyDescs t c.bytes
  match d.decodeFails t c.bytes ds with
  | some st => (d.setQueue t q ((d.queue t q).filter (fun x => x.uid != c.uid))).finish t q c (Report.of st) true
  | none => d.setQueue t q ((d.queue t q).map (fun x => if x.uid = c.uid then { x with descs := ds } else x))

/-- So do all of them (R377). -/
def Dev.decodeHeld (d : Dev) : Dev :=
  d.eng.tck.foldl (fun d x => (List.range 4).foldl (fun d q =>
    ((d.queue (ix x.1 0) q).filter Cmd.undecoded).foldl (fun d c => d.decodeNow (ix x.1 0) q c) d) d) d

/-! ## The region scoreboard (R378, R379) -/

/-- Sequencer domain of a leaf. -/
def leafDomain (t : Nat) : Option (List Nat) :=
  let i := t / 256 % 16
  let u := t % 256
  match t / 4096 with
  | 1 => some [1]
  | 2 => if u = 0x20 ∨ u = 0x30 then some [2, i] else none
  | 3 => if 0x20 ≤ u ∧ u < 0x24 then some [3, i] else none
  | 4 => some [4, i, if u < 0x40 then u / 16 else if u < 0x48 then (u - 0x40) / 2 else if u < 0x4C then u - 0x48 else u - 0x4C]
  | 5 => some [5, i]
  | _ => none

/-- Domains in which a tackle's commands claim: its own, or each that holds one of the group's leaves. -/
def domainsOf (t : Nat) : List (List Nat) :=
  let die := fun (g : Nat) =>
    if g / 4096 = 4 then (List.range 4).map (fun k => [4, g / 256 % 16, k])
    else if g / 4096 = 5 then [[5, g / 256 % 16]] else if g / 4096 = 2 then [[2, g / 256 % 16]] else [[3, g / 256 % 16]]
  if tackleDie t = 25 then (dieGroups t).flatMap die
  else if isGroup t then die t
  else (leafDomain t).toList

/-- The regions a command of tackle `t` claims in a domain. -/
def Dev.regionsIn (d : Dev) (t : Nat) (c : Cmd) (dom : List Nat) : List Region :=
  match opcode c.bytes with
  | 0x07 => (bankSpan (leAt c.bytes 8 6)).toList
  | 0x51 => (d.joinRegion c.bytes).toList
  | o =>
    let who := if (o == 0x20 || o == 0x21) && ix dom 0 == 4 then 0x4000 + ix dom 1 * 256 else t
    ((decodeCmd who c.bytes c.descs).map (·.regions)).getD []

/-- The claims of a command: its own domains, or the Mast's for a DIGEST (R407). Parts claim nothing. -/
def Dev.claimsOf (d : Dev) (t : Nat) (c : Cmd) : List (List Nat × List Region) :=
  if c.parent.isSome then []
  else ((if opcode c.bytes = 5 then [[1]] else domainsOf t).map (fun k => (k, d.regionsIn t c k))).filter (fun p => !p.2.isEmpty)

/-- The entries held in a domain. -/
def Dev.held (d : Dev) (dom : List Nat) : List Claim := nget [] d.eng.board dom

/-- A region conflicts with a held entry. -/
def Claim.conflicts (c : Claim) (r : Region) : Bool := c.lo < r.hi && r.lo < c.hi && (c.write || r.write)

/-- The claims can all be taken in one cycle. -/
def Dev.claimsFit (d : Dev) (l : List (List Nat × List Region)) : Bool :=
  l.all (fun p => (d.held p.1).length + p.2.length ≤ 64 && p.2.all (fun r => !(d.held p.1).any (fun c => c.conflicts r)))

/-- Take the claims. -/
def Dev.claim (d : Dev) (t uid : Nat) (l : List (List Nat × List Region)) : Dev :=
  { d with eng := { d.eng with board := l.foldl (fun b p => nset b p.1 (nget [] b p.1 ++ p.2.map (fun r => ⟨t, uid, r.lo, r.hi, r.write⟩))) d.eng.board } }

/-! ## Streams' resources (R384, R387) -/

/-- The sequencer of a leaf's domain. -/
def seqOf (t : Nat) : Nat :=
  let i := t / 256 % 16
  match leafDomain t with
  | some [4, _, k] => 0x404C + i * 256 + k
  | some [5, _] => 0x5020 + i * 256
  | some [2, _] => 0x2030 + i * 256
  | _ => 0

/-- Program slot that a GATHER, SCATTER or GMMA names. -/
def slotOf (l : List Byte) : Nat := if opcode l = 0x21 then cbits l 6 4 3 else cbits l 4 0 3

/-- The opcode runs a stream. -/
def streams (o : Nat) : Bool := o == 0x11 || o == 0x12 || o == 0x21

/-- The program in a slot. -/
def Dev.prog (d : Dev) (seq slot : Nat) : Option (List Byte) := nget? d.eng.progs [seq, slot]

/-- Streams that run on a sequencer. -/
def Dev.running (d : Dev) (seq : Nat) : List Stream :=
  (d.eng.tck.flatMap (fun x => x.2.runs.filterMap (·.stream))).filter (fun s => s.seq == seq && !s.ended)

/-- Masks of address generators and comparators that running streams hold. -/
def Dev.heldMasks (d : Dev) (seq : Nat) : Nat × Nat :=
  (d.running seq).foldl (fun m s =>
    match d.prog seq s.slot with
    | some p => (m.1 ||| cbits p 1 0 4, m.2 ||| cb p 2)
    | none => m) (0, 0)

/-- The stream's slot holds a program whose resources are free (DEDUCED, log 21). -/
def Dev.streamFree (d : Dev) (t : Nat) (l : List Byte) : Bool :=
  match d.prog (seqOf t) (slotOf l) with
  | some p =>
    let m := d.heldMasks (seqOf t)
    m.1 &&& cbits p 1 0 4 == 0 && m.2 &&& cb p 2 == 0
  | none => false

/-- Counter `c` of a sequencer. -/
def Dev.ctr (d : Dev) (seq c : Nat) : Nat := d.getF F.SEQ_CTR_VALUE [seq, c]

/-- Add to a counter, wrapping (R381). -/
def Dev.ctrAdd (d : Dev) (seq c n : Nat) : Dev := d.addWrap F.SEQ_CTR_VALUE [seq, c] n

/-- The sequencer can take a change: in service and not in reset. -/
def Dev.seqAlive (d : Dev) (seq : Nat) : Bool :=
  !d.unitOut seq && !d.tckInReset seq && !d.islandInReset (tackleIsland seq)

/-- The sequencer's island is stopped without reset: what reaches it waits (R58). -/
def Dev.seqStopped (d : Dev) (seq : Nat) : Bool := d.seqAlive seq && d.islandStopped (tackleIsland seq)

/-! ## Dispatch (R367, R368, R371–R374, R379, R458) -/

/-- The parts of a group command, with the share of each (R371–R373). -/
def Dev.partsOf (d : Dev) (t : Nat) (c : Cmd) : List (Nat × Option Sel) :=
  let o := opcode c.bytes
  if !(isGroup t && divides o) then []
  else
    let part := cbits c.bytes 2 0 4
    let arg := cb c.bytes 3
    let kids := d.kids t o
    if part = 3 then (((d.flatKids t o)[arg]?).toList).map (fun k => (k, c.sel))
    else if part = 4 then kids.map (fun k => (k, c.sel))
    else
      match decodeCmd t c.bytes c.descs with
      | none => []
      | some x =>
        let s := c.sel.getD (fullSel x.split)
        (kids.zip (List.range kids.length)).filterMap (fun p =>
          (childSel s part arg x.gran0 x.granInner kids.length p.2).map (fun s' => (p.1, some s')))

/-- What a dispatch will do. -/
structure Launch where
  cmd : Cmd
  claims : List (List Nat × List Region)
  parts : List (Nat × Option Sel)
  stream : Option Stream
  /-- How the command fails at dispatch: an UPDATE's block does not decode, or answers UNIT_RESET. -/
  bad : Option Status
  deriving DecidableEq, Repr

/-- Every stack that the regions touch is ready (R103). -/
def Dev.stacksReady (d : Dev) (l : List Region) : Bool :=
  l.all (fun r => (placesOf r.lo (r.hi - r.lo)).all (fun p => match p with | .stack n => d.stackReady n | _ => true))

/-- UPDATE's update block is still to be taken: its bytes lie where this says (R434). -/
def Cmd.ubDue (c : Cmd) : Option (Nat × Nat) :=
  if opcode c.bytes = 0x33 ∧ c.parent.isNone ∧ (ubOf c.descs).isNone then some (leAt c.bytes 26 6, 64) else none

/-- UPDATE takes its update block at dispatch (R434). -/
def Dev.takeUb (d : Dev) (c : Cmd) : Cmd :=
  match c.ubDue with
  | some (a, n) => { c with descs := c.descs ++ [(26, d.read a n)] }
  | none => c

/-- That read wakes and counts like any other (R359, R360, R364). -/
def Dev.noteUb (d : Dev) (c : Cmd) : Dev :=
  match c.ubDue with
  | some (a, n) => if d.memServed a n then (d.load a n).2 else d
  | none => d

/-- The conditions on tackle and queue before any look at the head: READY, the anchor, HALTED, waiting records. -/
def Dev.queueOpen (d : Dev) (t q : Nat) : Bool := d.tckReady t && !d.anchorHolds && !d.halted t q && !d.recWaits t

/-- NOP, FENCE, WAIT, SIGNAL, MARK and HALT complete at the head of their queue: they claim nothing and hold no slot
afterwards (R368, R369) (DEDUCED, log 21). -/
def headOp (o : Nat) : Bool := o ≤ 4 || o == 0x7F

/-- A head command that can dispatch, apart from the die-wide rule of ATTN. A DIGEST is held until MST_READY.MAST rises (R103). -/
def Dev.launch (d : Dev) (t q : Nat) : Option Launch :=
  match d.queue t q with
  | [] => none
  | c :: _ =>
    let o := opcode c.bytes
    let waits := o == 1 || o == 2
    if !d.queueOpen t q || c.undecoded || (o == 5 && !d.flag F.MST_READY_MAST) || c.waitAt.isSome || d.traceStall t q (o == 4) || (!waits && (freeSlot (d.tck t).runs).isNone) then none
    else if headOp o then
      (if o == 3 && (d.tck t).runs.any (fun r => r.queue == q) then none else some ⟨c, [], [], none, none⟩)
    else
      let ub := c.ubDue.toList
      if ub.any (fun u => (d.memStopped u.1 u.2).isSome || !d.stacksReady [⟨u.1, u.1 + u.2, false⟩]) then none
      else if ub.any (fun u => !d.memServed u.1 u.2) then some ⟨c, [], [], none, some .unitReset⟩
      else
      let c := d.takeUb c
      if (decodeCmd t c.bytes c.descs).isNone then some ⟨c, [], [], none, some .reservedOp⟩
      else
        let cl := d.claimsOf t c
        let ps := d.partsOf t c
        let leaf := !isGroup t
        if d.claimsFit cl && d.stacksReady (cl.flatMap (·.2))
            && ps.all (fun p => (d.queue p.1 q).length < 4)
            && (!(leaf && streams o) || d.streamFree t c.bytes)
            && (!(leaf && o == 6) || (d.running t).all (fun s => s.slot != cbits c.bytes 4 0 3)) then
          some ⟨c, cl, ps, if leaf && streams o then some ⟨seqOf t, slotOf c.bytes, 0, [0, 0, 0, 0], [], 0, false⟩ else none,
            if isGroup t && divides o && ps.isEmpty then some .reservedOp else none⟩
        else none

/-- The vector engines of a die. -/
def vecEngines (t : Nat) : List Nat :=
  if t / 4096 = 4 then (List.range 8).map (fun e => t - t % 256 + 0x40 + e) else (List.range 16).map (fun e => t - t % 256 + e)

/-- Leaf `t` is a vector engine. -/
def isVec (t : Nat) : Bool := !isGroup t && engineOf t == some .vector

/-- An ATTN waits at a queue head of the die with every other condition met (R458). -/
def Dev.attnWaits (d : Dev) (t : Nat) : Bool :=
  (vecEngines t).any (fun e => (List.range 4).any (fun q =>
    match d.queue e q with
    | c :: _ => opcode c.bytes == 0x34 && (d.launch e q).isSome
    | [] => false))

/-- The die-wide rule of ATTN (R458). -/
def Dev.vecFree (d : Dev) (t : Nat) (o : Nat) : Bool :=
  if !isVec t then true
  else if o = 0x34 then (vecEngines t).all (fun e => e == t || (d.tck e).runs.isEmpty)
  else !d.attnWaits t

/-- Queue `q`'s head can dispatch. -/
def Dev.canGo (d : Dev) (t q : Nat) : Bool :=
  match d.launch t q with
  | some l => d.vecFree t (opcode l.cmd.bytes)
  | none => false

/-- The queue that dispatches next: cyclic order after the last (R367) (DEDUCED, log 21). -/
def Dev.nextQueue (d : Dev) (t : Nat) : Option Nat :=
  ((List.range 4).map (fun i => ((d.tck t).last + 1 + i) % 4)).find? (fun q => d.canGo t q)

/-- The head of queue `q` leaves it. -/
def Dev.popQueue (d : Dev) (t q : Nat) : Dev := d.setQueue t q (d.queue t q).tail

/-- `q` dispatched last. -/
def Dev.setLast (d : Dev) (t q : Nat) : Dev := d.setTck t { d.tck t with last := q }

/-- Place a part in its child's queue (R374). -/
def Dev.placePart (d : Dev) (t q : Nat) (c : Cmd) (p : Nat × Option Sel) : Dev :=
  let y := d.tck p.1
  let d := d.setTck p.1 { y with nextUid := y.nextUid + 1 }
  d.setQueue p.1 q (d.queue p.1 q ++ [{ c with sel := p.2, parent := some (t, c.uid), ring := none, uid := y.nextUid, headAt := none, waitAt := none }])

/-- A stream starts: the counters of its clear mask are cleared (R387). -/
def Dev.streamStart (d : Dev) (s : Option Stream) : Dev :=
  match s with
  | none => d
  | some x => match d.prog x.seq x.slot with
    | some p => (onesOf 16 (leAt p 4 2)).foldl (fun d c => d.setF F.SEQ_CTR_VALUE [x.seq, c] 0) d
    | none => d

/-- A launch takes effect. -/
def Dev.doLaunch (d : Dev) (t q : Nat) (l : Launch) : Dev :=
  match l.bad with
  | some st => (d.popQueue t q).finish t q l.cmd (Report.of st) true
  | none =>
    let k := (freeSlot (d.tck t).runs).getD 0
    let d := ((d.popQueue t q).setLast t q).claim t l.cmd.uid l.claims
    let d := d.traceBegin t q l.cmd
    let x := d.tck t
    let r : Run := ⟨k, q, l.cmd, d.fabTime, l.parts.length, [], 0, 0, false, none, 0, false, l.stream, [], 0, [], 0, none⟩
    let d := d.setTck t { x with runs := x.runs ++ [r] }
    (l.parts.foldl (fun d p => d.placePart t q l.cmd p) d).streamStart l.stream

/-- A WAIT or FENCE dispatches and stays at the head (R368). -/
def Dev.markWait (d : Dev) (t q : Nat) (c : Cmd) : Dev :=
  let d := (d.traceBegin t q c).setLast t q
  d.setQueue t q ({ c with waitAt := some d.clk.now } :: (d.queue t q).tail)

/-- COMMAND_DISPATCH of a tackle: its next queue's head. NOP, SIGNAL, MARK and HALT dispatch and complete in rows of
their own (DEDUCED, log 21). -/
def Dev.dispatch (d : Dev) (t : Nat) : Dev :=
  match d.nextQueue t with
  | none => d
  | some q =>
    match d.launch t q with
    | none => d
    | some l =>
      let o := opcode l.cmd.bytes
      if o = 1 ∨ o = 2 then d.markWait t q l.cmd
      else if headOp o then d
      else ((((d.queue t q).head?).map d.noteUb).getD d).doLaunch t q l

/-- The head of queue `q`, when it is `o` and is the one to dispatch now. -/
def Dev.headNow (d : Dev) (t q o : Nat) : Option Cmd :=
  match d.queue t q with
  | c :: _ => if opcode c.bytes == o && d.nextQueue t == some q then some c else none
  | [] => none

/-- Dispatch and complete the head at once, with BEGIN and END records of one stamp. -/
def Dev.atOnce (d : Dev) (t q : Nat) (c : Cmd) (r : Report) : Dev :=
  (((d.traceBegin t q c).popQueue t q).setLast t q).finish t q c r true

/-! ## Effects of dispatched commands -/

/-- The run has read and written all it reads and writes: it has its status, or is a PUT that has read its last packet (R380). -/
def Run.accessed (r : Run) : Bool := r.status.isSome || (opcode r.cmd.bytes == 0x40 && r.acc == [r.sent])

/-- A part of command `uid` of group `g`, `fuel` levels of groups deep, still has accesses to come. -/
def Dev.partsBusy (d : Dev) : Nat → Nat → Nat → Bool
  | 0, _, _ => false
  | fuel + 1, g, uid => d.eng.tck.any (fun x =>
      (List.range 4).any (fun q => (d.queue (ix x.1 0) q).any (fun c => c.parent == some (g, uid)))
        || x.2.runs.any (fun r => r.cmd.parent == some (g, uid)
            && (if isGroup (ix x.1 0) then d.partsBusy fuel (ix x.1 0) r.cmd.uid else !r.accessed)))

/-- The entries of a command that makes no further access are released, those of a group command once none of its parts does. -/
def Dev.releaseUp : Nat → Dev → Nat → Cmd → Dev
  | 0, d, _, _ => d
  | fuel + 1, d, t, c =>
    match c.parent with
    | none => d.release t c.uid
    | some (g, u) =>
      if d.partsBusy 3 g u then d
      else match (d.tck g).runs.find? (fun r => r.cmd.uid == u) with
        | some r => Dev.releaseUp fuel d g r.cmd
        | none => d

/-- A run's region entries are released with its last access (R380). A HANDOVER holds its bank to its end, and a divided SEALCHK its
list, where its result word goes (DEDUCED, log 80). -/
def Dev.releaseDone (d : Dev) (t : Nat) (r : Run) : Dev :=
  if r.accessed && opcode r.cmd.bytes != 7 && !(opcode r.cmd.bytes == 0x14 && r.cmd.parent.isSome) then Dev.releaseUp 3 d t r.cmd else d

/-- What becomes of a command's effect by the islands its accesses met: one in reset answers UNIT_RESET and a stopped one holds it; in
either case this effect changes nothing (R22, R58, R553) (DEDUCED, log 80). -/
def Dev.metEnd (d : Dev) (r : Run) (x : Dev × Run) : Dev × Run :=
  match x.1.bank.met with
  | 0 => x
  | 1 => (d, r)
  | _ => (d, { r with status := some .unitReset })

/-- The effect of the command in slot `k` of leaf `t`, when its opcode is one of `ok` and its effect is still to come, while the leaf's
island runs: a DIGEST has its effect in the digest engine's. -/
def Dev.effect (d : Dev) (t k : Nat) (ok : Nat → Bool) (f : Dev → Run → Dev × Run) : Dev :=
  match d.runAt t k with
  | none => d
  | some r =>
    if ok (opcode r.cmd.bytes) && (d.tckRuns t || opcode r.cmd.bytes == 5) && r.status.isNone && r.partsLeft == 0 && r.partSts.isEmpty then
      let x := d.metEnd r (f d r)
      ((x.1.setRun t x.2).pumpSeals t).releaseDone t x.2
    else d

/-- Who writes: the command's partition and tackle (R353, R374); a GET's data lands as fabric receive (R440). -/
def Run.writer (r : Run) (t : Nat) : Writes := if opcode r.cmd.bytes = 0x41 then .fabric else .cmd r.cmd.hp t

/-- The decoded operands of a run. -/
def Run.dec (r : Run) (t : Nat) : Option Dec := decodeCmd t r.cmd.bytes r.cmd.descs

/-- Indices a run works on: its share, or everything. -/
def Run.sel (r : Run) (x : Dec) : Sel := r.cmd.sel.getD (fullSel x.split)

/-- The flow a fabric command names. -/
def flowOf (l : List Byte) : Nat := leAt l 6 3 % 2 ^ 18

/-- Status of a run that is ready to complete: its own, or for a group command the lowest-ranked of its parts (R374). -/
def Run.final (r : Run) : Option Status :=
  if !r.partSts.isEmpty then
    (if r.partsLeft = 0 then
      some (match (r.partSts.filter (· ≠ 0)).min? with | some c => Status.ofCode c | none => .ok)
    else none)
  else r.status

/-- A wrapping counter rises by a free amount (log 68). -/
def Dev.addFree (d : Dev) (f : Field) (idx : List Nat) : Dev :=
  let n := d.freeNum
  n.2.addWrap f idx n.1

/-- A command reads from a staging bank of a sail (R451). -/
def Run.staged (r : Run) (t : Nat) : Bool :=
  ((r.dec t).map (fun x => x.regions.any (fun g => !g.write && (placesOf g.lo (g.hi - g.lo)).any (fun p =>
    match p with
    | .sail _ b => decide (64 ≤ b)
    | _ => false)))).getD false

/-- Busy cycles of one vector engine. -/
def Dev.vecBusy (d : Dev) (t : Nat) : Dev :=
  if t / 4096 = 4 then d.addFree F.SAL_VEC_BUSY_CYCLES [t / 256 % 16, t % 256 - 0x40] else d.addFree F.BSE_VEC_BUSY_CYCLES [t / 256 % 16, t % 256]

/-- Cycle counters of engines, merged reads and ATTN counts (R462, R463): how many cycles a command ran or waited and how
many reads were merged is left open, so free numbers are added; an ATTN runs on every engine in service of its die
(R458) (DEDUCED, log 68). -/
def Dev.busyCount (d : Dev) (t : Nat) (r : Run) : Dev :=
  let i := t / 256 % 16
  let attn := opcode r.cmd.bytes == 0x34
  if isGroup t then d
  else match engineOf t with
    | some .matrix =>
      let d := d.addFree F.SAL_CORE_BUSY_CYCLES [i, t % 256]
      if r.staged t then d.addFree F.SAL_MERGE_CNT_COUNT [i] else d
    | some .vector =>
      let d := if attn then ((vecEngines t).filter (fun e => !d.unitOut e)).foldl Dev.vecBusy d else d.vecBusy t
      if attn && t / 4096 == 5 then
        let n := d.freeNum
        (n.2.addWrap F.BSE_ATTN_CNT_COUNT [i] 1).addSat F.BSE_ATTN_WAIT_CYCLES [i] n.1
      else d
    | _ => d

/-- FCLOSE: the flow context closes when the command completes, once its requests are answered (R390). -/
def closesFlow (l : List Byte) : Bool := 0x40 ≤ opcode l && opcode l ≤ 0x42 && cbit l 4 2

/-- The command waits for its flow's requests before it completes. -/
def Dev.flowBusy (d : Dev) (l : List Byte) : Bool :=
  closesFlow l && ((nget? d.net.flows [flowOf l]).map (fun f => !f.outstanding.isEmpty)).getD false

/-- End every run of a tackle: those whose effect is done keep their status, the rest complete with UNIT_RESET (R394). -/
def Dev.killRuns (d : Dev) (t : Nat) : Dev :=
  (d.tck t).runs.foldl (fun d r => ((d.dropRun t r.slot).busyCount t r).finish t r.queue r.cmd
    ⟨(r.final).getD .unitReset, r.detail, r.sat, r.flush, r.seqErr, r.acc⟩ true) d

/-- Complete every queued command with UNIT_RESET, in queue order (R108, R472) (DEDUCED, log 60). -/
def Dev.flushQueues (d : Dev) (t : Nat) : Dev :=
  (List.range 4).foldl (fun d q =>
    let l := d.queue t q
    l.foldl (fun d c => d.finish t q c (Report.of .unitReset) true) (d.setQueue t q [])) d

/-- WAITs that wait on a sequencer that is going away complete with UNIT_RESET (R383). -/
def Dev.killWaits (d : Dev) (seq : Nat) : Dev :=
  d.eng.tck.foldl (fun d x =>
    let t := ix x.1 0
    (List.range 4).foldl (fun d q =>
      match d.queue t q with
      | c :: _ => if opcode c.bytes == 2 && c.waitAt.isSome && leAt c.bytes 4 2 == seq then (d.popQueue t q).finish t q c (Report.of .unitReset) true else d
      | [] => d) d) d

end Sys2Proof.Machine
end

