-- ==== Sys2Proof/Machine/Seals.lean ====
section
/-!
DEFINITION. Chunk seals (R197), the seal streams of digest windows (R86), and the loads and stores of engines that feed
them.
-/
namespace Sys2Proof.Machine

/-- The 16-byte chunk identity (R197). -/
def chunkIdentity (coll chunk stage contrib : Nat) : List Byte :=
  leBytes 4 coll ++ leBytes 4 chunk ++ leBytes 1 stage ++ leBytes 1 0 ++ leBytes 2 contrib ++ leBytes 4 0

/-- The seal of a payload under an identity (R197). -/
def sealOf (coll chunk stage contrib : Nat) (payload : List Byte) : Nat :=
  crc32c (chunkIdentity coll chunk stage contrib ++ payload)

/-- Bytes of a digest piece (R86). -/
def digestPiece : Nat := 4096

/-- Cut a byte sequence, given as runs (address, length) in traversal order, after `n` bytes: what lies before the cut. -/
def takeRuns : List (Nat × Nat) → Nat → List (Nat × Nat)
  | [], _ => []
  | (a, k) :: t, n => if n = 0 then [] else if k ≤ n then (a, k) :: takeRuns t (n - k) else [(a, n)]

/-- What lies after the cut. -/
def dropRuns : List (Nat × Nat) → Nat → List (Nat × Nat)
  | [], _ => []
  | (a, k) :: t, n => if n = 0 then (a, k) :: t else if k ≤ n then dropRuns t (n - k) else (a + n, k - n) :: t

/-- Bytes of a run list. -/
def runsLen (l : List (Nat × Nat)) : Nat := (l.map (·.2)).sum

/-- The pieces of a byte sequence, in order; `fuel` bounds their number. -/
def piecesOf : Nat → List (Nat × Nat) → List (List (Nat × Nat))
  | 0, _ => []
  | f + 1, l => if runsLen l = 0 then [] else takeRuns l digestPiece :: piecesOf f (dropRuns l digestPiece)

/-- Every byte of the piece lies in a range (DEDUCED, log 27). -/
def pieceIn (p : List (Nat × Nat)) (lo len : Nat) : Bool := p.all (fun r => decide (lo ≤ r.1) && decide (r.1 + r.2 ≤ lo + len))

/-- Bytes of runs in order. -/
def Dev.readRuns (d : Dev) (l : List (Nat × Nat)) : List Byte := l.flatMap (fun r => d.read r.1 r.2)

/-- A piece of an operand as its seal needs it: its index within the operand, where its bytes lie, and the bytes. -/
abbrev Piece := Nat × List (Nat × Nat) × List Byte

/-- The seals that window `no` takes of an operand that leaf `t` moved: of the pieces that lie in a range of class `cls` (R86) (DEDUCED,
log 27). -/
def Window.sealsOf (w : Window) (no cls t q : Nat) (ps : List Piece) : List DigEntry :=
  ps.filterMap (fun p =>
    if w.ranges.any (fun r => r.1 == cls && pieceIn p.2.1 r.2.1 r.2.2) then
      some ⟨no, cls + 1, t, q, leBytes 4 (sealOf no p.1 0xF t p.2.2)⟩
    else none)

/-- The command that windows cover: the group's for a part. -/
def Run.origin (r : Run) (t : Nat) : Nat × Nat := r.cmd.parent.getD (t, r.cmd.uid)

/-- Entries of command `uid` among a leaf's waiting seals, in command order: after its own earlier ones, before those of later
commands. -/
def insertSeals (uid : Nat) (es : List DigEntry) (l : List (Nat × DigEntry)) : List (Nat × DigEntry) :=
  l.takeWhile (fun x => x.1 ≤ uid) ++ es.map (fun e => (uid, e)) ++ l.dropWhile (fun x => x.1 ≤ uid)

/-- Seal pieces of an operand that leaf `leaf` moved for a run of tackle `t`, for every window that covers the command: `write` for
RESULT ranges, else WEIGHT and INPUT (DEDUCED, log 27). -/
def Dev.feedPieces (d : Dev) (t leaf : Nat) (r : Run) (write : Bool) (ps : List Piece) : Dev :=
  let es := (d.eng.windows.filter (fun w => w.2.open_.contains (r.origin t))).flatMap (fun w =>
    (if write then [2] else [0, 1]).flatMap (fun cls => w.2.sealsOf (ix w.1 0) cls leaf r.queue ps))
  if es.isEmpty then d
  else ({ d with eng := { d.eng with seals := nset d.eng.seals [t] (insertSeals r.cmd.uid es (nget [] d.eng.seals [t])) } } : Dev).pumpSeals t

/-- Feed an operand's seals, pieces counted from its first byte; of a write, those whose bytes were all admitted. -/
def Dev.feedSealsAs (d : Dev) (t leaf : Nat) (r : Run) (write : Bool) (runs : List (Nat × Nat)) : Dev :=
  let cut := piecesOf (runsLen runs / digestPiece + 1) runs
  let ps := ((List.range cut.length).zip cut).filter (fun p => !write || p.2.all (fun x => d.canWrite (r.writer t) x.1 x.2))
  d.feedPieces t leaf r write (ps.map (fun p => (p.1, p.2, d.readRuns p.2)))

/-- Feed the seals of an operand that the run's own tackle moved. -/
def Dev.feedSeals (d : Dev) (t : Nat) (r : Run) (write : Bool) (runs : List (Nat × Nat)) : Dev := d.feedSealsAs t t r write runs

/-- Wake and count the places that reads of the runs touch, and feed their seals. -/
def Dev.noteReads (d : Dev) (t : Nat) (r : Run) (runs : List (Nat × Nat)) : Dev :=
  (runs.foldl (fun d x => (d.load x.1 x.2).2) d).feedSeals t r false runs

/-- A checked store of bytes at runs in order: the device, and whether every write was admitted. -/
def Dev.storeRuns (d : Dev) (w : Writes) : List (Nat × Nat) → List Byte → Dev × Bool
  | [], _ => (d, true)
  | (a, n) :: t, l =>
    let x := d.store w a (l.take n)
    let y := Dev.storeRuns x.1 w t (l.drop n)
    (y.1, x.2 && y.2)

/-- A run's status after its stores: OWNER when one was refused (R354). -/
def storeStatus (ok : Bool) : Status := if ok then .ok else .owner

/-! ## Completion -/

/-- A group's SEALCHK in CHECK mode writes its result word once every part has completed (R423); the
word is sealed like any other result (R86). -/
def Dev.sealResult (d : Dev) (t : Nat) (r : Run) (st : Status) : Dev × Status :=
  let l := r.cmd.bytes
  if opcode l = 0x14 && cbit l 4 0 && !r.partSts.isEmpty && r.cmd.parent.isNone then
    let a := leAt l 24 6 + 4 * leAt l 16 4
    let w := d.store (r.writer t) a (leBytes 4 ((r.acc.min?).getD 0xFFFFFFFF))
    (w.1.feedSeals t r true [(a, 4)], if w.2 then st else if st = .ok ∨ st = .sealFail ∨ Status.owner.code < st.code then .owner else st)
  else (d, st)

/-- COMMAND_COMPLETE of slot `k`, while the tackle's island runs. While the die's trace buffer is full, a traced command's END record waits for room and
the completion stays pending (R501) (DESIGN CHOICE, log 2). -/
def Dev.complete (d : Dev) (t k : Nat) : Dev :=
  match d.runAt t k with
  | none => d
  | some r =>
    match r.final with
    | none => d
    | some st0 =>
      if !d.tckRuns t || d.flowBusy r.cmd.bytes || r.ended == 1 || d.sealStall t r.cmd.uid then d
      else if r.ended == 0 && d.traceStall t r.queue false then
        let rec_ := traceBytes d 2 t r.queue r.cmd st0.code (min r.sat (2 ^ 32 - 1) + 2 ^ 32 * min r.flush (2 ^ 32 - 1))
        (d.setRun t { r with ended := 1 }).traceRec (traceDie t) (d.traceRing t r.queue) rec_ (some (t, k))
      else
        let w := d.sealResult t r st0
        let d := if closesFlow r.cmd.bytes && st0 != .noContext then
            { w.1 with net := { w.1.net with flows := ndel w.1.net.flows [flowOf r.cmd.bytes] } }
          else w.1
        let d := (d.dropRun t k).busyCount t r
        d.finish t r.queue r.cmd ⟨w.2, r.detail, r.sat, r.flush, r.seqErr, r.acc⟩ (r.ended == 0)

end Sys2Proof.Machine
end

