-- ==== Sys2Proof/Machine/Packets.lean ====
section
/-!
DEFINITION. Packets and flits (07): the header layouts both ways, the checks of R193, the opcodes' channels, and what the
device builds itself: refuse notices, responses and NOTICE payloads.
-/
namespace Sys2Proof.Machine

/-! ## Packet header (R191) -/

/-- The 32 header bytes. -/
def PktHdr.enc (h : PktHdr) : List Byte :=
  leBytes 4 (h.dst + 2 ^ 18 * h.rsv0 + 2 ^ 20 * h.tc + 2 ^ 23 * h.sealB + 2 ^ 24 * h.op)
    ++ leBytes 4 (h.src + 2 ^ 20 * h.tag)
    ++ leBytes 8 (h.raddr + 2 ^ 56 * h.status)
    ++ leBytes 4 (h.flow + 2 ^ 18 * h.cm + 2 ^ 19 * h.ce + 2 ^ 20 * h.ackReq + 2 ^ 21 * h.mc + 2 ^ 22 * h.rsv1)
    ++ leBytes 4 (h.pkey + 2 ^ 16 * h.len + 2 ^ 29 * h.rsv2)
    ++ leBytes 4 (h.coll + 2 ^ 15 * h.stage + 2 ^ 18 * h.contrib + 2 ^ 24 * h.rsv3)
    ++ leBytes 4 (h.chunk + 2 ^ 24 * h.rsv4)

/-- The header that 32 bytes spell; the two reserved bits of the destination address are kept apart (R33). -/
def PktHdr.dec (l : List Byte) : PktHdr :=
  let w0 := leAt l 0 4
  let w1 := leAt l 4 4
  let w2 := leAt l 8 8
  let w3 := leAt l 16 4
  let w4 := leAt l 20 4
  let w5 := leAt l 24 4
  let w6 := leAt l 28 4
  { dst := bits w0 0 18, rsv0 := bits w0 18 2, tc := bits w0 20 3, sealB := bits w0 23 1, op := bits w0 24 8
    src := bits w1 0 20, tag := bits w1 20 12, raddr := bits w2 0 56, status := bits w2 56 8
    flow := bits w3 0 18, cm := bits w3 18 1, ce := bits w3 19 1, ackReq := bits w3 20 1, mc := bits w3 21 1, rsv1 := bits w3 22 10
    pkey := bits w4 0 16, len := bits w4 16 13, rsv2 := bits w4 29 3
    coll := bits w5 0 15, stage := bits w5 15 3, contrib := bits w5 18 6, rsv3 := bits w5 24 8
    chunk := bits w6 0 24, rsv4 := bits w6 24 8 }

/-- A header whose every field is zero. -/
def PktHdr.zero : PktHdr := ⟨0, 0, 0, 0, 0, 0, 0, 0, 0, 0, 0, 0, 0, 0, 0, 0, 0, 0, 0, 0, 0, 0, 0, 0⟩

/-- Every field within its width. -/
def PktHdr.wf (h : PktHdr) : Bool :=
  decide (h.dst < 2 ^ 18) && decide (h.rsv0 < 4) && decide (h.tc < 8) && decide (h.sealB < 2) && decide (h.op < 256)
    && decide (h.src < 2 ^ 20) && decide (h.tag < 4096) && decide (h.raddr < 2 ^ 56) && decide (h.status < 256)
    && decide (h.flow < 2 ^ 18) && decide (h.cm < 2) && decide (h.ce < 2) && decide (h.ackReq < 2) && decide (h.mc < 2)
    && decide (h.rsv1 < 1024) && decide (h.pkey < 65536) && decide (h.len < 8192) && decide (h.rsv2 < 8)
    && decide (h.coll < 32768) && decide (h.stage < 8) && decide (h.contrib < 64) && decide (h.rsv3 < 256)
    && decide (h.chunk < 2 ^ 24) && decide (h.rsv4 < 256)

/-- Bytes of the whole packet (R177). -/
def PktHdr.size (h : PktHdr) : Nat := 32 + h.len + 4 * h.sealB

/-- Flits of a packet of `b` bytes (R177). -/
def flitsOf (b : Nat) : Nat := ceilDiv b 240

/-- Cells of a packet of `b` bytes (R200). -/
def cellsOf (b : Nat) : Nat := ceilDiv b 256

/-! ## Operations (R192) -/

def opPUT : Nat := 0x01
def opGET : Nat := 0x02
def opNOTIFY : Nat := 0x03
def opPUT_ACK : Nat := 0x10
def opGET_DATA : Nat := 0x11
def opNOTICE : Nat := 0x12
def opCHUNK : Nat := 0x20
def opGRANT : Nat := 0x21

/-- Virtual channel code of an opcode: 0 REQ, 1 RSP, 2 COL; reserved opcodes have none. -/
def opVc (op : Nat) : Option Nat :=
  if op = 1 ∨ op = 2 ∨ op = 3 then some 0
  else if op = 0x10 ∨ op = 0x11 ∨ op = 0x12 then some 1
  else if op = 0x20 ∨ op = 0x21 then some 2
  else none

/-- The code of ESC. -/
def vcEsc : Nat := 3

/-- The opcode is a response: PUT_ACK, GET_DATA or NOTICE (R235). -/
def isResponse (op : Nat) : Bool := opVc op == some 1

/-- Traffic classes that R192 permits for an opcode. -/
def tcOk (op tc : Nat) : Bool :=
  if op = 0x20 ∨ op = 0x21 then tc == 2
  else if op = 0x12 then tc == 1
  else (opVc op).isSome && tc < 8 && tc != 2

/-- Payload lengths that R192 permits for an opcode. -/
def lenOk (op len : Nat) : Bool :=
  match op with
  | 0x01 => len ≤ 4096
  | 0x02 => len == 16
  | 0x03 => len == 8
  | 0x11 => len ≤ 4096
  | 0x12 => len == 32
  | 0x20 => len == 1024 || len == 2048 || len == 4096
  | _ => len == 0

/-- The header passes R193, apart from the destination's reserved bits and endpoint (R35). A re-grant carries SEAL_FAIL
(R312). -/
def PktHdr.ok (h : PktHdr) : Bool :=
  let req := !isResponse h.op
  let sealed := h.op == opPUT && h.sealB == 1
  let coll := h.op == opCHUNK || h.op == opGRANT || sealed
  (opVc h.op).isSome && tcOk h.op h.tc
    && h.rsv1 == 0 && h.rsv2 == 0 && h.rsv3 == 0 && h.rsv4 == 0
    && !(h.mc == 1 && (h.op == opGET || !req || (h.op == opPUT && h.ackReq == 1)))
    && !(h.mc == 1 && h.dst / 4096 != 0)
    && !(h.op == opCHUNK && h.sealB == 0)
    && lenOk h.op h.len
    && (!req || h.status == 0 || (h.op == opGRANT && h.status == 8))
    && (h.op == opPUT || h.ackReq == 0)
    && (h.op == opPUT || h.op == opCHUNK || h.sealB == 0)
    && (coll || (h.coll == 0 && h.stage == 0 && h.contrib == 0 && h.chunk == 0))

/-- The payload of a GET passes R193: a read length of 1 to 4,096 and zeros after it. -/
def getOk (payload : List Byte) : Bool :=
  1 ≤ leAt payload 8 4 && leAt payload 8 4 ≤ 4096 && leAt payload 12 4 == 0

/-- Endpoint of a fabric address. -/
def endpointOf (a : Nat) : Nat := a % 64

/-- A destination passes R35: no reserved bit, no reserved endpoint. A multicast packet names a group instead. -/
def PktHdr.dstOk (h : PktHdr) : Bool :=
  h.rsv0 == 0 &&
    (h.mc == 1 || !(endpointOf h.dst == 38 || endpointOf h.dst == 39 || 52 ≤ endpointOf h.dst))

/-! ## Flit header (R173–R175) -/

/-- The fields of a flit header. -/
structure FlitHdr where
  type : Nat
  vc : Nat
  sop : Nat
  eop : Nat
  tc : Nat
  valid : Nat
  seq : Nat
  ack : Nat
  crVc : Nat
  crTotal : Nat
  deriving DecidableEq, Repr

/-- The 14 bytes that HCRC covers. -/
def FlitHdr.body (h : FlitHdr) : List Byte :=
  leBytes 1 (h.type + 16 * h.vc + 64 * h.sop + 128 * h.eop) ++ leBytes 1 h.tc ++ leBytes 1 h.valid ++ leBytes 1 0
    ++ leBytes 2 h.seq ++ leBytes 2 h.ack ++ leBytes 1 h.crVc ++ leBytes 2 h.crTotal ++ leBytes 3 0

/-- HCRC of a flit header (R175). -/
def hcrc (body : List Byte) : Nat := crc16 0xFFFF (body.take 14)

/-- The 16 header bytes. -/
def FlitHdr.enc (h : FlitHdr) : List Byte := h.body ++ leBytes 2 (hcrc h.body)

/-- The header that a flit's first 16 bytes spell. -/
def FlitHdr.dec (l : List Byte) : FlitHdr :=
  let b := leAt l 0 1
  { type := bits b 0 4, vc := bits b 4 2, sop := bits b 6 1, eop := bits b 7 1, tc := bits (leAt l 1 1) 0 3
    valid := leAt l 2 1, seq := leAt l 4 2, ack := leAt l 6 2, crVc := bits (leAt l 8 1) 0 2, crTotal := leAt l 9 2 }

/-- Every field within its width. -/
def FlitHdr.wf (h : FlitHdr) : Bool :=
  decide (h.type < 16) && decide (h.vc < 4) && decide (h.sop < 2) && decide (h.eop < 2) && decide (h.tc < 8)
    && decide (h.valid < 256) && decide (h.seq < 65536) && decide (h.ack < 65536) && decide (h.crVc < 4)
    && decide (h.crTotal < 65536)

/-- The flit's HCRC matches. -/
def flitGood (l : List Byte) : Bool := hcrc (l.take 14) == leAt l 14 2

/-- A whole 256-byte flit: header, payload bytes, zeros to the end. -/
def mkFlit (h : FlitHdr) (payload : List Byte) : List Byte :=
  h.enc ++ payload ++ List.replicate (240 - payload.length) 0

/-! ## This device's addresses -/

/-- An address on this device with endpoint `e`. -/
def Dev.addr (d : Dev) (e : Nat) : Nat :=
  d.net.fabAddr.1 * 16384 + d.net.fabAddr.2.1 * 1024 + d.net.fabAddr.2.2.1 * 64 + e

/-- The fabric address is in force (R227). -/
def Dev.addrOk (d : Dev) : Bool := d.net.fabAddr.2.2.2

/-- The address names this device. -/
def Dev.isOwn (d : Dev) (a : Nat) : Bool := a / 64 == d.addr 0 / 64

/-! ## Links -/

/-- A link just reset: no flit accepted, no credits. -/
def LinkSt.init : LinkSt :=
  { replay := [], resend := [], lastReplay := none, replays := 0, ackAt := 0, ackSeq := 0xFFFF, nakOut := none, nakDue := false
    used := [0, 0, 0, 0], freed := [0, 0, 0, 0], crNext := 0, timex := [], tx0 := none, txN := none, inq := [], queues := []
    vtime := 0, ftag := [], stag := [], gateIdx := 0, flushing := none, flushed := false }

/-- The link state of source or port `k`. -/
def Dev.link (d : Dev) (k : Nat × Nat) : LinkSt := nget LinkSt.init d.net.links [k.1, k.2]

/-- Replace it. -/
def Dev.setLink (d : Dev) (k : Nat × Nat) (l : LinkSt) : Dev :=
  { d with net := { d.net with links := nput LinkSt.init d.net.links [k.1, k.2] l } }

/-- Flight number `i`. -/
def Dev.flight (d : Dev) (i : Nat) : Option Flight := nget? d.net.flights [i]

/-- Replace it. -/
def Dev.setFlight (d : Dev) (i : Nat) (f : Flight) : Dev :=
  { d with net := { d.net with flights := nset d.net.flights [i] f } }

/-- Forget it. -/
def Dev.dropFlight (d : Dev) (i : Nat) : Dev := { d with net := { d.net with flights := ndel d.net.flights [i] } }

/-- Hand a whole packet to source `k`, which parses it as it parses what arrives. -/
def Dev.sendPkt (d : Dev) (k : Nat × Nat) (h : PktHdr) (rest : List Byte) (o : Origin) : Dev :=
  let l := d.link k
  d.setLink k { l with inq := l.inq ++ [⟨(opVc h.op).getD 0, h.tc, h.enc ++ rest, true, none, none, false, o, 0⟩] }

/-- The source through which port die FLOW[17:15] sends answers: its first fabric engine (log 30). -/
def answerSrc (flow : Nat) : Nat × Nat := (flow / 32768 % 8, 32)

/-! ## What the device builds -/

/-- A NOTICE payload (R198). -/
def noticeBytes (kind status origin id index value time : Nat) : List Byte :=
  leBytes 1 kind ++ leBytes 1 status ++ leBytes 2 0 ++ leBytes 4 origin ++ leBytes 4 id ++ leBytes 4 index ++ leBytes 8 value ++ leBytes 8 time

def kindCHUNK_DONE : Nat := 1
def kindUSER : Nat := 2
def kindREFUSE : Nat := 3
def kindECHO : Nat := 4

/-- A refuse notice about a packet (R235), raised at endpoint `e`. Without an address of its own the device sends none
(R103), and none is raised about a response. Its RADDR of zero has it delivered as a record (DEDUCED, log 30; DESIGN
CHOICE, log 31). -/
def Dev.refuse (d : Dev) (k : Nat × Nat) (h : PktHdr) (st : Status) (e : Nat) : Dev :=
  if !d.addrOk || isResponse h.op then d
  else
    d.sendPkt k
      { PktHdr.zero with dst := h.src % 2 ^ 18, rsv0 := h.src / 2 ^ 18, tc := 1, op := opNOTICE, src := d.addr e, tag := h.tag, flow := h.flow, pkey := h.pkey, len := 32 }
      (noticeBytes kindREFUSE st.code (d.addr e) h.flow (h.op + 256 * h.tag) h.raddr d.fabTime) .device

/-- An answer to a request (R192): FLOW, TAG and PKEY of the request, SRC and DST exchanged, CE from its CM (R196). -/
def answerHdr (h : PktHdr) (op : Nat) (st : Status) (raddr len : Nat) : PktHdr :=
  { PktHdr.zero with
    dst := h.src % 2 ^ 18, rsv0 := h.src / 2 ^ 18, tc := h.tc, op := op, src := h.dst, tag := h.tag, raddr := raddr
    status := st.code, flow := h.flow, ce := h.cm, pkey := h.pkey, len := len }

/-- PUT_ACK. No rule gives its RADDR: a free value (DEDUCED, log 30; DESIGN CHOICE, log 31). -/
def Dev.putAck (d : Dev) (h : PktHdr) (st : Status) : Dev :=
  let x := d.freeNum
  x.2.sendPkt (answerSrc h.flow) (answerHdr h opPUT_ACK st (x.1 % 2 ^ 48) 0) [] .device

/-- GET_DATA with the bytes read, or none with a failing status (R195) (DEDUCED, log 30). -/
def Dev.getData (d : Dev) (h : PktHdr) (land : Nat) (st : Status) (bytes : List Byte) : Dev :=
  d.sendPkt (answerSrc h.flow) (answerHdr h opGET_DATA st (land % 2 ^ 56) bytes.length) bytes .device

/-- The answer a request expects, with a failing status: PUT with ACK_REQ and GET expect one. -/
def Dev.answerFail (d : Dev) (h : PktHdr) (rest : List Byte) (st : Status) : Dev :=
  if h.op = opPUT ∧ h.ackReq = 1 then d.putAck h st
  else if h.op = opGET then d.getData h (leAt rest 0 8) st []
  else d

/-- 64 frames have passed since the ECHO whose frame, plus one, is `last`; 0 stands for none yet (DEDUCED, log 55). -/
def Dev.echoDue (d : Dev) (last : Nat) : Bool := last == 0 || last + 63 ≤ d.clk.frame

/-- Send the ECHO of one flow for `n` marked packets, and start its 64 frames (DEDUCED, log 55). -/
def Dev.sendEcho (d : Dev) (e src flow pkey n : Nat) : Dev :=
  let d := { d with net := { d.net with echo := nput (0, 0, 0) d.net.echo [e, src, flow] (0, d.clk.frame + 1, pkey) } }
  if d.addrOk then
    d.sendPkt (answerSrc flow)
      { PktHdr.zero with dst := src % 2 ^ 18, rsv0 := src / 2 ^ 18, tc := 1, op := opNOTICE, src := d.addr e, flow := flow, pkey := pkey, len := 32 }
      (noticeBytes kindECHO 0 (d.addr e) flow (min n 0xFFFFFFFF) 0 d.fabTime) .device
  else d

/-- A packet that produces no response arrives at endpoint `e`: with CM = 1 it is covered by an ECHO, at once when none was
sent for its flow in the last 64 frames, else by the next one (R196) (DEDUCED, log 55). -/
def Dev.echoMark (d : Dev) (h : PktHdr) (e : Nat) : Dev :=
  if h.cm = 0 then d
  else
    let x := nget (0, 0, 0) d.net.echo [e, h.src, h.flow]
    if d.echoDue x.2.1 then d.sendEcho e h.src h.flow h.pkey (x.1 + 1)
    else { d with net := { d.net with echo := nput (0, 0, 0) d.net.echo [e, h.src, h.flow] (x.1 + 1, x.2.1, h.pkey) } }

/-- The ECHO notices whose 64 frames end: each covers the packets marked meanwhile (R196) (DEDUCED, log 55). -/
def Dev.echoesDue (d : Dev) : Dev :=
  d.net.echo.foldl (fun (d : Dev) (x : List Nat × Nat × Nat × Nat) =>
    if 0 < x.2.1 && d.echoDue x.2.2.1 then d.sendEcho (ix x.1 0) (ix x.1 1) (ix x.1 2) x.2.2.2 x.2.1 else d) d

/-! ## Requests of the device's own engines (R389) -/

/-- Set the status of the request `p` selects, once. -/
def setReq (p : Req → Bool) (st : Status) (l : List Req) : List Req :=
  l.map (fun r => if p r && r.status.isNone then { r with status := some st } else r)

/-- A PUT, GET or NOTIFY whose packets are all sent (their number stands in `acc`) and answered takes its status: the first
non-OK in packet order (R389). -/
def Run.settle (r : Run) : Run :=
  if 0x40 ≤ opcode r.cmd.bytes ∧ opcode r.cmd.bytes ≤ 0x42 ∧ r.acc = [r.sent] ∧ r.status.isNone ∧ r.reqs.all (fun q => q.status.isSome) then
    { r with status := some (((r.reqs.filterMap (·.status)).find? (fun s => s ≠ .ok)).getD .ok) }
  else r

/-- Free the TAGs whose request of a flow is answered. -/
def Dev.tagDone (d : Dev) (flow tag : Nat) : Dev :=
  match nget? d.net.flows [flow] with
  | some f => { d with net := { d.net with flows := nset d.net.flows [flow] { f with outstanding := f.outstanding.filter (· ≠ tag) } } }
  | none => d

/-- Answer the outstanding request FLOW, TAG of whichever engine holds it: whether there was one. -/
def Dev.answer (d : Dev) (flow tag : Nat) (st : Status) : Dev × Bool :=
  let sel := fun (r : Req) => r.flow == flow && r.tag == tag && r.op != opNOTIFY
  let hit := d.eng.tck.any (fun t => t.2.runs.any (fun r => r.reqs.any (fun q => sel q && q.status.isNone)))
  if hit then
    let tck := d.eng.tck.map (fun t => (t.1, { t.2 with runs := t.2.runs.map (fun r => ({ r with reqs := setReq sel st r.reqs } : Run).settle) }))
    (({ d with eng := { d.eng with tck := tck } } : Dev).tagDone flow tag, true)
  else (d, false)

/-- The packet `k` of a fabric command: its request of that number. -/
def Dev.engineReq (d : Dev) (t uid k : Nat) : Option Req :=
  ((d.tck t).runs.find? (fun r => r.cmd.uid == uid)).bind (fun r => r.reqs.find? (fun q => q.pkt == k))

/-- Answer packet `k` of a fabric command with a status. -/
def Dev.answerPkt (d : Dev) (t uid k : Nat) (st : Status) : Dev :=
  let x := d.tck t
  let d' := d.setTck t { x with runs := x.runs.map (fun r =>
    if r.cmd.uid == uid then ({ r with reqs := setReq (fun q => q.pkt == k) st r.reqs } : Run).settle else r) }
  match d.engineReq t uid k with
  | some q => d'.tagDone q.flow q.tag
  | none => d'

/-- A packet of the device's own reports that its last flit has left (`none`), or the status of its discard (R389). A PUT
without ACK_REQ and a NOTIFY are done when they leave; a T delivery counts its packets down either way (R327). -/
def Dev.originDone (d : Dev) (o : Origin) (ack : Bool) (discard : Option Status) : Dev :=
  match o with
  | .engine t uid k =>
    match discard with
    | some st => d.answerPkt t uid k st
    | none => if ack then d else d.answerPkt t uid k .ok
  | .capstan coll chunk true =>
    match nget? d.coll.ctxs [coll] with
    | some x =>
      match nget? x.chunks [chunk] with
      | some c => { d with coll := { d.coll with ctxs := nset d.coll.ctxs [coll] { x with chunks := nset x.chunks [chunk] { c with tLeft := c.tLeft - 1 } } } }
      | none => d
    | none => d
  | _ => d

/-- The packet expects an answer that completes its request: a PUT with ACK_REQ, or a GET. -/
def PktHdr.expects (h : PktHdr) : Bool := h.op == opGET || (h.op == opPUT && h.ackReq == 1)

/-! ## Discards (R504, R235) -/

/-- Port id of an engine of port die `p`; a fabric engine has no port id, so a free byte stands there (R504) (DESIGN CHOICE,
log 31). -/
def Dev.portId (d : Dev) (p e : Nat) : Nat × Dev :=
  if e < 32 then (p * 32 + e, d) else (d.freeNum.1 % 256, d.freeNum.2)

/-- A port die counts a discarded packet and writes the sample record when its count comes round (R504). -/
def Dev.dropSample (d : Dev) (p e : Nat) (hdr : List Byte) (st : Status) : Dev :=
  if !d.flag F.PRT_DROP_CFG_EN [p] then d
  else
    let n := nget 0 d.tel.dropCtr [p] + 1
    let d := { d with tel := { d.tel with dropCtr := nput 0 d.tel.dropCtr [p] n } }
    if n % 2 ^ d.getF F.PRT_DROP_CFG_RATE_LOG2 [p] = 0 then
      let x := d.portId p e
      (x.2.incSat F.PRT_DROP_CNT_COUNT [p]).traceRec (5 + p) (d.getF F.PRT_DROP_CFG_RING [p])
        (leBytes 4 48 ++ leBytes 1 0x44 ++ leBytes 1 st.code ++ leBytes 1 x.1 ++ leBytes 1 0 ++ hdr ++ leBytes 8 d.fabTime) none
    else d

/-- A REFUSE notice with payload `l` answers the request of its flow that INDEX names, if one is outstanding: it completes with a
status (R198, R442). -/
def Dev.answerRefused (d : Dev) (flow : Nat) (l : List Byte) (st : Status) : Dev :=
  let i := leAt l 12 4
  let open_ := d.eng.tck.any (fun t => t.2.runs.any (fun r => r.reqs.any (fun q =>
    q.flow == flow && q.tag == bits i 8 12 && q.op == bits i 0 8 && q.status.isNone)))
  if open_ then (d.answer flow (bits i 8 12) st).1 else d

/-- A discarded response to this device's fabric engines, with payload `rest`, completes the request that it answers with the status of
the discard (R235). -/
def Dev.answerDropped (d : Dev) (h : PktHdr) (rest : List Byte) (st : Status) : Dev :=
  if !(isResponse h.op && h.mc == 0 && d.isOwn h.dst && endpointOf h.dst == 37) then d
  else if h.op ≠ opNOTICE then (d.answer h.flow h.tag st).1
  else if leAt rest 0 1 = kindREFUSE then d.answerRefused h.flow rest st
  else d

/-- Discard a packet with payload `rest` at engine `e` of port die `p` with a status: sample it, answer its origin and the request that
it answers (R235, R504). Where no rule names a counter, as for R35, R36, R103, R193 and R198, the drop-sample count of the die, which
runs while PRT_DROP_CFG.EN = 1, is the one count that rises (DESIGN CHOICE, log 73). -/
def Dev.discard (d : Dev) (p e : Nat) (h : PktHdr) (rest : List Byte) (o : Origin) (st : Status) : Dev :=
  ((d.dropSample p e h.enc st).originDone o false (some st)).answerDropped h rest st

/-- A packet is discarded at an internal endpoint: the port die that answers for its flow counts it (R36, R103, R110, R198) (DESIGN
CHOICE, log 73). -/
def Dev.endDrop (d : Dev) (h : PktHdr) (st : Status) : Dev := d.dropSample (answerSrc h.flow).1 (answerSrc h.flow).2 h.enc st

/-- The bytes that a packet writes in banks or stacks: a PUT's payload, a GET_DATA's, or a notice's record of 32 bytes (R194, R195,
R198). -/
def PktHdr.writes (h : PktHdr) : Option (Nat × Nat) :=
  if h.op = opPUT ∨ h.op = opGET_DATA then some (h.raddr, h.len)
  else if (h.op = opNOTICE ∨ h.op = opNOTIFY) ∧ h.raddr ≠ 0 then some (h.raddr, 32)
  else none

/-- A granted write of a packet to the bank at `a` has not completed (R355, R357). -/
def Dev.grantedInto (d : Dev) (lo hi : Nat) : Bool :=
  let hits := fun (h : PktHdr) => match h.writes with | some (a, n) => decide (a < hi ∧ lo < a + n) | none => false
  d.net.flights.any (fun x => x.2.granted == some true && x.2.lost.isNone && x.2.dropped.isEmpty && hits x.2.hdr)
    || d.net.arrivals.any (fun a => a.granted && hits a.hdr)

/-- Discard with a refuse notice. The endpoint that a notice of a port die names as its origin is not stated: a free
value (log 31). -/
def Dev.discardRefuse (d : Dev) (p e : Nat) (h : PktHdr) (rest : List Byte) (o : Origin) (st : Status) : Dev :=
  let d := d.discard p e h rest o st
  let x := d.freeNum
  if isResponse h.op then d else x.2.refuse (p, 32) h st (x.1 % 64)

end Sys2Proof.Machine
end

