-- ==== Sys2Proof/Machine/Ratline.lean ====
section
/-!
DEFINITION. The port–yard ratlines (R267): the queues through which a port die's cells reach the yards, the priority of TC0 in them,
and the admission requests that wait for room there.
-/
namespace Sys2Proof.Machine

/-- The source is a port engine: its packets arrive from a link. -/
def isLink (k : Nat × Nat) : Bool := k.1 < 8 && k.2 < 32

/-- The source is a capstan, which writes into its own yard over no ratline (R202). -/
def isCapstan (k : Nat × Nat) : Bool := 8 ≤ k.1

/-- Yards that hold or are to hold cells of the packet. -/
def Flight.yards (f : Flight) : List Nat := (List.range 4).filter (fun y => f.cells.any (fun c => c.yard == y))

/-- Cells that a port–yard ratline queue holds before further cells and requests wait: 966 with four yards in service, 1,806 with three
and, where the rule gives no number, with fewer (DESIGN CHOICE, log 76). -/
def Dev.ratLimit (d : Dev) : Nat := if d.net.yl.length = 4 then 966 else 1806

/-- Cells that a ratline has committed at most: 24 transfer cycles with four yards, else 64, of 5,376 bits each (R269). -/
def Dev.ratCommit (d : Dev) : Nat := (if d.net.yl.length = 4 then 24 else 64) * 5376 / 2048

/-- The queue from port die `p` to yard `y`. -/
def Dev.ratQueue (d : Dev) (p y : Nat) : List RatCell := nget [] d.net.ratq [p, y]

/-- Replace it. -/
def Dev.setRat (d : Dev) (p y : Nat) (q : List RatCell) : Dev := { d with net := { d.net with ratq := nput [] d.net.ratq [p, y] q } }

/-- Two packets share a cell stream (R201). -/
def sameStream (f g : Flight) : Bool := f.src == g.src && f.vc == g.vc && f.cseq.any (fun c => g.cseq.any (fun x => x.1 == c.1))

/-- The first `n` cells of a queue are committed. -/
def commitRat (n : Nat) (q : List RatCell) : List RatCell := (q.take n).map (fun e => { e with committed := true }) ++ q.drop n

/-- A cell enters a queue. A TC0 cell finds transfers committed, up to the limit and how many is open (DESIGN CHOICE, log 76), and
gives its priority to the earlier cells of its stream. -/
def Dev.enterRat (d : Dev) (p y id i : Nat) (f : Flight) : Dev :=
  let q := d.ratQueue p y
  if f.hdr.tc = 0 then
    let n := d.freeNum
    let q := (commitRat (n.1 % (d.ratCommit + 1)) q).map (fun e =>
      { e with tc0 := e.tc0 || (match d.flight e.flight with | some g => sameStream f g | none => false) })
    n.2.setRat p y (q ++ [⟨id, i, true, false⟩])
  else d.setRat p y (q ++ [⟨id, i, false, false⟩])

/-- `n` cells of a packet that counts against a key entry are freed (R237). -/
def Dev.keyDown (d : Dev) (f : Flight) (n : Nat) : Dev :=
  match f.key with
  | some (p, e, j) => { d with net := { d.net with keyCells := nput 0 d.net.keyCells [p, e, j] (nget 0 d.net.keyCells [p, e, j] - n) } }
  | none => d

/-- The yard takes cells: its die is in service and in no reset. -/
def Dev.yardUp (d : Dev) (y : Nat) : Bool := d.dieOk (1 + y) && (nget? d.rst.dies [1 + y]).isNone

/-- Cell `i` of an admitted packet is cut when its bytes are in, its earlier cells are cut and the queue has room, which TC0 does not
wait for: it takes the spray EPOCH in force (R203) and enters the queue; a cell for a yard that has gone is lost at once. -/
def Dev.cutCell (d : Dev) (id i : Nat) : Dev :=
  match d.flight id with
  | none => d
  | some f =>
    match f.cells[i]? with
    | none => d
    | some c =>
      let ready := c.epoch.isNone && (f.cells.take i).all (fun x => x.epoch.isSome) && decide (min (256 * (i + 1)) f.hdr.size ≤ f.bytes.length)
      if !ready then d
      else if !d.yardUp c.yard then
        (d.setFlight id { f with cells := f.cells.set i { c with epoch := some d.net.epoch, written := true, due := true, hold := .freed } }).keyDown f 1
      else if f.hdr.tc = 0 || decide ((d.ratQueue f.src.1 c.yard).length < d.ratLimit) then
        (d.setFlight id { f with cells := f.cells.set i { c with epoch := some d.net.epoch } }).enterRat f.src.1 c.yard id i f
      else d

/-- Every cell of packet `id` that can enters its ratline queue: of an admitted packet of a port or fabric engine that is not lost. -/
def Dev.cutCells (d : Dev) (id : Nat) : Dev :=
  match d.flight id with
  | some f =>
    if f.waiting.isEmpty && f.lost.isNone && !isCapstan f.src then (List.range f.cells.length).foldl (fun d i => d.cutCell id i) d else d
  | none => d

/-- The packets of port die `p` bring what they can into its queues, in the order of their parses. -/
def Dev.cutAll (d : Dev) (p : Nat) : Dev :=
  (d.net.flights.filter (fun x => x.2.src.1 == p)).foldl (fun d x => d.cutCells (ix x.1 0)) d

/-- The queues that a packet's cells go through have room for its requests to be sent. -/
def Dev.ratRoom (d : Dev) (f : Flight) : Bool :=
  isCapstan f.src || f.hdr.tc == 0 || f.yards.all (fun y => decide ((d.ratQueue f.src.1 y).length < d.ratLimit))

/-- A packet sends its requests, one to each of its yards (R206). -/
def Dev.ask (d : Dev) (id : Nat) (f : Flight) : Dev :=
  { d with net := { d.net with
    unsent := d.net.unsent.filter (· ≠ id)
    waits := f.yards.foldl (fun m y => nput [] m [y, f.cls] (nget [] m [y, f.cls] ++ [id])) d.net.waits } }

/-- Requests that wait are sent in order, each when its queues have room; none passes an earlier one of its class at its die (R207,
R267). -/
def Dev.askWaiting (d : Dev) : Dev :=
  (d.net.unsent.foldl (fun (x : Dev × List (Nat × Nat)) id =>
    match x.1.flight id with
    | none => ({ x.1 with net := { x.1.net with unsent := x.1.net.unsent.filter (· ≠ id) } }, x.2)
    | some f =>
      if x.2.contains (f.src.1, f.cls) || !x.1.ratRoom f then (x.1, x.2 ++ [(f.src.1, f.cls)]) else (x.1.ask id f, x.2)) (d, [])).1

/-- The transfer that the ratline makes next: a committed one, else one of TC0 priority, else the oldest; of the cells for which
`ok` holds. -/
def ratNext (ok : RatCell → Bool) (q : List RatCell) : Option RatCell :=
  let l := q.filter ok
  match l.find? (·.committed), l.find? (·.tc0) with
  | some e, _ => some e
  | none, some e => some e
  | none, none => l.head?

/-- The cells of packet `id` leave the queues: it is lost. -/
def Dev.unrat (d : Dev) (id : Nat) : Dev :=
  { d with net := { d.net with
    unsent := d.net.unsent.filter (· ≠ id)
    ratq := (d.net.ratq.map (fun q => (q.1, q.2.filter (fun e => e.flight != id)))).filter (fun q => !q.2.isEmpty) } }

end Sys2Proof.Machine
end

