-- ==== Sys2Proof/Machine/Link.lean ====
section
/-!
DEFINITION. The link layer of a port engine (R172–R188): acceptance in order, replay, credits, packets in flits, and what
a port down does at the port itself (R185, R219).
-/
namespace Sys2Proof.Machine

/-! ## Port registers -/

/-- Port engine `e` of port die `p` is up. -/
def Dev.portUp (d : Dev) (k : Nat × Nat) : Bool := d.flag F.PRT_PORT_STAT_UP [k.1, k.2]

/-- The field that shows the credits held on a virtual channel. -/
def crField (vc : Nat) : Field :=
  if vc = 0 then F.PRT_LNK_CR0_REQ else if vc = 1 then F.PRT_LNK_CR0_RSP else if vc = 2 then F.PRT_LNK_CR1_COL else F.PRT_LNK_CR1_ESC

/-- Credits held on a virtual channel. -/
def Dev.credits (d : Dev) (k : Nat × Nat) (vc : Nat) : Nat := d.getF (crField vc) [k.1, k.2]

/-- Lanes of a port's width. -/
def Dev.portWidth (d : Dev) (k : Nat × Nat) : Nat := 2 ^ d.getF F.PRT_PORT_CFG_WIDTH_LOG2 [k.1, k.2]

/-- The buffer that a port of width `w` advertises on a channel (R188). -/
def advertised (w vc : Nat) : Nat := (if vc = 2 then 192 else if vc = 3 then 24 else 96) * w

/-- ACK_TIMEOUT of a port in units. -/
def Dev.ackTimeout (d : Dev) (k : Nat × Nat) : Nat := us (d.getF F.PRT_LNK_CFG_ACK_TIMEOUT [k.1, k.2])

/-- Release `n` credits of a channel to the peer (R186). -/
def LinkSt.release (l : LinkSt) (vc n : Nat) : LinkSt := { l with freed := l.freed.set vc (l.freed.getD vc 0 + n) }

/-! ## Packets at the ingress -/

/-- Position of the open packet of a slot: TC0, or another class. -/
def openIdx (l : List InPkt) (tc0 : Bool) : Option Nat :=
  (List.range l.length).reverse.find? (fun i =>
    match l[i]? with
    | some p => !p.complete && p.lost.isNone && (p.tc == 0) == tc0
    | none => false)

/-- Drop the packets that are over: all bytes in or lost, parsed, every credit released. -/
def LinkSt.tidy (l : LinkSt) : LinkSt :=
  { l with inq := l.inq.filter (fun p => !((p.complete || p.lost.isSome) && p.parsed && p.flits == 0)) }

/-- Change the packet at position `i`. -/
def LinkSt.setIn (l : LinkSt) (i : Nat) (f : InPkt → InPkt) : LinkSt := { l with inq := l.inq.modify i f }

/-- Release the credits that the packet at position `i` holds. -/
def LinkSt.releaseIn (l : LinkSt) (i : Nat) : LinkSt :=
  match l.inq[i]? with
  | some p => (l.release p.vc p.flits).setIn i (fun p => { p with flits := 0 })
  | none => l

/-- The packet at position `i` is lost with a status: its bytes leave the buffer by discard; a packet with no whole header
needs no parse. The flight it became, if any, is lost with it (R218). -/
def Dev.loseIn (d : Dev) (k : Nat × Nat) (i : Nat) (st : Status) : Dev :=
  let l := d.link k
  match l.inq[i]? with
  | none => d
  | some p =>
    let l := (l.releaseIn i).setIn i (fun p => { p with lost := some st, parsed := p.parsed || p.bytes.length < 32 })
    let d := d.setLink k l.tidy
    match p.flight.bind d.flight with
    | some f => d.setFlight (p.flight.getD 0) { f with lost := some st }
    | none => d

/-- A malformed packet (R181): counted, its record names no whole header unless there is one (DEDUCED, log 52). -/
def Dev.malformed (d : Dev) (k : Nat × Nat) (bytes : List Byte) : Dev :=
  let d := (d.incSat F.PRT_LNK_MALFORMED_COUNT [k.1, k.2]).raise F.PRT_LNK_ERR_MALFORMED [k.1, k.2]
  d.dropSample k.1 k.2 (if 32 ≤ bytes.length then bytes.take 32 else List.replicate 32 0) .reservedOp

/-- The bytes received so far break R181. -/
def badSoFar (bytes : List Byte) (flits : Nat) (eop : Bool) : Bool :=
  let h := PktHdr.dec bytes
  19 ≤ flits || (32 ≤ bytes.length && 4096 < h.len) || (eop && (bytes.length < 32 || bytes.length != h.size))

/-- A DATA flit accepted in order (R177, R181). VALID above 240 is malformed too, and each later flit of a packet that was discarded as
malformed counts once more, since none is open (DEDUCED, log 74). -/
def Dev.rxBytes (d : Dev) (k : Nat × Nat) (f : FlitHdr) (pay : List Byte) : Dev :=
  let l := d.link k
  let eop := f.eop == 1
  let badFlit := f.valid == 0 || 240 < f.valid || (f.valid < 240 && !eop)
  let idx := openIdx l.inq (f.tc == 0)
  match idx with
  | some i =>
    let p := l.inq.getD i ⟨0, 0, [], false, none, none, false, .outside, 0⟩
    let bytes := p.bytes ++ pay.take f.valid
    if badFlit || f.sop == 1 || badSoFar bytes (flitsOf bytes.length) eop then
      -- the flit that shows it is discarded with the packet
      let d := d.malformed k p.bytes
      (d.setLink k ((d.link k).release f.vc 1)).loseIn k i .reservedOp
    else
      let fl := p.flight.bind d.flight
      let now := (p.parsed && p.flight.isNone) || (match fl with | some x => !x.cells.isEmpty && x.waiting.isEmpty | none => false)
      let l := if now then l.release p.vc 1 else l
      let l := l.setIn i (fun p => { p with bytes := bytes, complete := eop, flits := if now then p.flits else p.flits + 1 })
      let d := d.setLink k l.tidy
      match fl with
      | some x => (d.setFlight (p.flight.getD 0) { x with bytes := bytes, complete := eop }).cutCells (p.flight.getD 0)
      | none => d
  | none =>
    let bytes := pay.take f.valid
    if badFlit || f.sop == 0 || badSoFar bytes 1 eop then
      -- a first flit without EOP opens the packet that is malformed: it is closed at once
      let d := d.malformed k bytes
      d.setLink k ((d.link k).release f.vc 1)
    else
      d.setLink k { l with inq := l.inq ++ [⟨f.vc, f.tc, bytes, eop, none, none, false, .outside, 1⟩] }

/-- An ABORT flit accepted in order (R180). With no packet of its slot open it is a flit with SOP = 0 and none open, which is malformed,
and so is a flit with SOP = 1 before the open packet ended (R181) (DEDUCED, log 74). -/
def Dev.rxAbort (d : Dev) (k : Nat × Nat) (f : FlitHdr) (st : Status) : Dev :=
  let d := d.setLink k ((d.link k).release f.vc 1)
  match openIdx (d.link k).inq (f.tc == 0) with
  | some i =>
    if f.sop = 1 then (d.malformed k ((d.link k).inq.getD i ⟨0, 0, [], false, none, none, false, .outside, 0⟩).bytes).loseIn k i .reservedOp
    else (d.incSat F.PRT_LNK_ABORT_RX_COUNT [k.1, k.2]).loseIn k i st
  | none => d.malformed k []

/-! ## Acknowledgement, credits, replay -/

/-- An ACK covers the buffer up to its SEQ. -/
def LinkSt.acked (l : LinkSt) (now seq : Nat) : LinkSt :=
  match l.replay.findIdx? (fun s => s.seq == seq) with
  | none => l
  | some i =>
    let rest := l.replay.drop (i + 1)
    let keep := match l.lastReplay with | some s => rest.any (fun x => x.seq == s) | none => false
    { l with replay := rest, ackAt := now, lastReplay := if keep then l.lastReplay else none, replays := if keep then l.replays else 0 }

/-- CR_TOTAL of a channel (R187). -/
def Dev.takeCredit (d : Dev) (k : Nat × Nat) (vc total : Nat) : Dev :=
  let held := (total + 65536 - (d.link k).used.getD vc 0 % 65536) % 65536
  if 32767 < held then (d.raise F.PRT_LNK_ERR_CREDIT_ERR [k.1, k.2]).fault (5 + k.1) .linkErr
  else d.setF (crField vc) [k.1, k.2] held

/-- The ACK and CR fields of a good flit. -/
def Dev.rxFields (d : Dev) (k : Nat × Nat) (f : FlitHdr) : Dev :=
  (d.setLink k ((d.link k).acked d.clk.now f.ack)).takeCredit k f.crVc f.crTotal

/-- A NAK for RX_EXPECT goes out in the next slot unless one is outstanding (R183) (DEDUCED, log 52). -/
def Dev.askNak (d : Dev) (k : Nat × Nat) : Dev :=
  let l := d.link k
  if l.nakOut.isSome then d else d.setLink k { l with nakOut := some d.clk.now, nakDue := true }

/-- A bad flit (R176, R183) (DEDUCED, log 52). -/
def Dev.badFlit (d : Dev) (k : Nat × Nat) : Dev := (d.incSat F.PRT_LNK_BAD_COUNT [k.1, k.2]).askNak k

/-- A good flit that carries a SEQ (R183): whether it is accepted in order, and the device with its counts (DEDUCED, log 52). -/
def Dev.rxSeq (d : Dev) (k : Nat × Nat) (f : FlitHdr) : Dev × Bool :=
  let exp := d.getF F.PRT_LNK_STAT_RX_EXPECT [k.1, k.2]
  let back := (exp + 65536 - f.seq) % 65536
  if f.seq = exp then
    let l := d.link k
    let d := d.setLink k { l with ackSeq := f.seq, nakOut := none, nakDue := false }
    ((d.addWrap F.PRT_LNK_STAT_RX_EXPECT [k.1, k.2] 1).rxFields k f, true)
  else if (d.link k).nakOut.isSome then (d, false)
  else if 1 ≤ back ∧ back ≤ 32768 then (d.incSat F.PRT_LNK_DUP_COUNT [k.1, k.2], false)
  else (d.badFlit k, false)

/-- A port goes down, for whatever cause (R185, R219): the link state of both directions is cleared, open packets are lost,
the flush begins, and every port die will clear the port's EN bits (R231) (DEDUCED, logs 40, 52). -/
def Dev.portDown (d : Dev) (k : Nat × Nat) : Dev :=
  if !d.portUp k then d
  else
    let i := [k.1, k.2]
    let l := d.link k
    let opens := (List.range l.inq.length).filter (fun j => match l.inq[j]? with | some p => !p.complete && p.lost.isNone | none => false)
    let d := ((d.clear F.PRT_PORT_STAT_UP i).clear F.PRT_PORT_STAT_REEFED i).fault (5 + k.1) .portDown
    let d := (d.addSat F.PRT_LNK_LOST_COUNT i l.replay.length).addSat F.PRT_LNK_ABORT_RX_COUNT i opens.length
    -- later positions first: losing one may remove it
    let d := opens.reverse.foldl (fun d j => d.loseIn k j .unitReset) d
    let l := d.link k
    let d := d.setLink k { l with
      replay := [], resend := [], lastReplay := none, replays := 0, ackSeq := 0xFFFF, nakOut := none, nakDue := false
      used := [0, 0, 0, 0], freed := [0, 0, 0, 0], crNext := 0, timex := []
      inq := l.inq.map (fun p => { p with flits := 0 }), flushing := some d.clk.now, flushed := false }
    let d := (d.setF F.PRT_LNK_STAT_TX_NEXT i 0).setF F.PRT_LNK_STAT_RX_EXPECT i 0
    let d := (List.range 4).foldl (fun d v => d.setF (crField v) i 0) d
    let d := (d.raise F.PRT_FLUSH_STAT_FLUSHING i).portLanesDown k
    { d with net := { d.net with enDue := d.net.enDue ++ (List.range 8).map (fun q => (q, k.1 * 32 + k.2)) } }

/-- The tackle id of a port engine (R25), which counts its replays (R79). -/
def portTackle (k : Nat × Nat) : Nat := 0x3000 + 256 * k.1 + k.2

/-- Replay from a SEQ (R184, R185). A SEQ that the buffer does not hold starts no replay and counts none (DEDUCED, log 75). -/
def Dev.replayFrom (d : Dev) (k : Nat × Nat) (seq : Nat) : Dev :=
  let l := d.link k
  match l.replay.findIdx? (fun s => s.seq == seq) with
  | none => d
  | some i =>
    let n := if l.lastReplay = some seq then l.replays + 1 else 1
    let limit := max 1 (d.getF F.PRT_LNK_CFG_REPLAY_LIMIT [k.1, k.2])
    let d := d.setLink k { l with resend := l.replay.drop i, lastReplay := some seq, replays := n, ackAt := d.clk.now }
    let d := (d.incSat F.PRT_LNK_REPLAY_COUNT [k.1, k.2]).tdc .linkReplay (portTackle k)
    if limit ≤ n then ((d.raise F.PRT_LNK_ERR_REPLAY_LIMIT [k.1, k.2]).fault (5 + k.1) .linkErr).portDown k else d

/-! ## The rows -/

/-- A flit reaches a port that is up and awake, with its HCRC good and the wanted type. -/
def Dev.rxOn (d : Dev) (k : Nat × Nat) (flit : List Byte) (ty : Nat → Bool) : Bool :=
  d.portUp k && flitGood flit && ty (FlitHdr.dec flit).type

/-- Every lane on which the port receives has a fault, so that whatever arrives lies in codewords that count as uncorrectable (R160). -/
def Dev.rxDead (d : Dev) (k : Nat × Nat) : Bool :=
  let ls := (onesOf 16 (d.live16 k false)).map (d.laneOf k)
  !ls.isEmpty && ls.all (d.laneDead k.1)

/-- A flit of the wanted type: taken when it is good, bad with every lane dead (R176). -/
def Dev.rxFlit (d : Dev) (k : Nat × Nat) (flit : List Byte) (ty : Nat → Bool) (f : Dev → FlitHdr → Dev) : Dev :=
  if d.portUp k && d.rxDead k then d.badFlit k
  else if d.rxOn k flit ty then f d (FlitHdr.dec flit)
  else d

/-- RX_IDLE_FLIT. -/
def Dev.rxIdle (d : Dev) (k : Nat × Nat) (flit : List Byte) : Dev := d.rxFlit k flit (· == 0) (fun d h => d.rxFields k h)

/-- RX_DATA_FLIT (DEDUCED, log 52). -/
def Dev.rxData (d : Dev) (k : Nat × Nat) (flit : List Byte) : Dev :=
  d.rxFlit k flit (· == 1) (fun d h =>
    let x := d.rxSeq k h
    if x.2 then x.1.rxBytes k h (flit.drop 16) else x.1)

/-- RX_BAD_FLIT: bytes marked by the FEC decoder, or a failing HCRC. -/
def Dev.rxBad (d : Dev) (k : Nat × Nat) (flit : List Byte) (marked : Bool) : Dev :=
  if d.portUp k && (marked || !flitGood flit) then d.badFlit k else d

/-- RX_ABORT_FLIT. -/
def Dev.rxAbortFlit (d : Dev) (k : Nat × Nat) (flit : List Byte) : Dev :=
  d.rxFlit k flit (· == 2) (fun d h =>
    let x := d.rxSeq k h
    if x.2 then x.1.rxAbort k h (Status.ofCode (leAt flit 16 1)) else x.1)

/-- RX_NAK_FLIT. -/
def Dev.rxNak (d : Dev) (k : Nat × Nat) (flit : List Byte) : Dev :=
  d.rxFlit k flit (· == 3) (fun d h => (d.rxFields k h).replayFrom k (leAt flit 16 2))

/-- RX_TIMEX_FLIT: its ACK and CR fields; the block has rows of its own. -/
def Dev.rxTimex (d : Dev) (k : Nat × Nat) (flit : List Byte) : Dev :=
  d.rxFlit k flit (· == 4) (fun d h => d.rxFields k h)

/-- RX_RESERVED_FLIT (R174). -/
def Dev.rxReserved (d : Dev) (k : Nat × Nat) (flit : List Byte) : Dev :=
  d.rxFlit k flit (5 ≤ ·) (fun d h => (d.rxFields k h).incSat F.PRT_LNK_MALFORMED_COUNT [k.1, k.2])

/-- ACK_TIMEOUT: the receiver repeats an outstanding NAK, and the sender replays from its oldest unacknowledged flit
(R183, R184). -/
def Dev.ackTimeoutEvent (d : Dev) (k : Nat × Nat) : Dev :=
  if !d.portUp k then d
  else
    let l := d.link k
    let t := d.ackTimeout k
    let d := match l.nakOut with
      | some s => if s + t ≤ d.clk.now then d.setLink k { l with nakOut := some d.clk.now, nakDue := true } else d
      | none => d
    match l.replay with
    | s :: _ => if l.ackAt + t ≤ d.clk.now then d.replayFrom k s.seq else d
    | [] => d

end Sys2Proof.Machine
end

