-- ==== Sys2Proof/Machine/Route.lean ====
section
/-!
DEFINITION. Head parse at an ingress engine (R193, R227–R241, R262): checks, partition key, routing, policing, key limit,
and the admission requests of R206.
-/
namespace Sys2Proof.Machine

/-! ## Sources -/

/-- The port die whose tables route a source's packets; a capstan has none of its own (log 32). -/
def routeDie (k : Nat × Nat) : Nat := if isCapstan k then 2 * (k.1 - 8) else k.1

/-- DIM of the port a packet arrived on; 0 for packets of the device's own. -/
def Dev.arrDim (d : Dev) (k : Nat × Nat) : Nat := if isLink k then d.getF F.PRT_RT_PORT_DIM [k.1, k.2] else 0

/-- Coordinate of an address in dimension 1 to 3. -/
def coordOf (a dim : Nat) : Nat := bits a (6 + 4 * (dim - 1)) 4

/-- The next yard in service from `y` on, in ascending cyclic order (R334). -/
def Dev.subYard (d : Dev) (y : Nat) : Option Nat := ((List.range 4).map (fun i => (y + i) % 4)).find? (fun j => d.bitF F.MST_UNITS_YARD_OK [] j && (nget? d.rst.dies [1 + j]).isNone)

/-! ## Fairlead entries (R230–R234) -/

/-- The 4-bit value that R230 folds a key into. -/
def foldKey (key : Nat) : Nat :=
  bits key 0 4 ^^^ bits key 4 4 ^^^ bits key 8 4 ^^^ bits key 12 4 ^^^ bits key 16 2

/-- The key of a packet: CHUNK for CHUNK and GRANT, else FLOW. -/
def PktHdr.key (h : PktHdr) : Nat := if h.op = opCHUNK ∨ h.op = opGRANT then h.chunk else h.flow

/-- A committed word of a fairlead entry: 0–1 PORTS, 2 SEL_LO, 3 SEL_HI. -/
def Dev.flWord (d : Dev) (p dim c i : Nat) : Nat := (nget [0, 0, 0, 0] d.net.fairlead [p, dim, c]).getD i 0

/-- PORT `i` of an entry. -/
def Dev.flPortId (d : Dev) (p dim c i : Nat) : Nat := bits (d.flWord p dim c (i / 4)) (8 * (i % 4)) 8

/-- SEL of slot `s`. -/
def Dev.flSel (d : Dev) (p dim c s : Nat) : Nat :=
  if s < 10 then bits (d.flWord p dim c 2) (3 * s) 3 else bits (d.flWord p dim c 3) (3 * (s - 10)) 3

/-- The port an entry gives for the value `s`: its slot, or the next whose port is enabled. -/
def Dev.flPort (d : Dev) (p dim c s : Nat) : Option Nat :=
  if d.flag F.PRT_FL_CTL_VALID [p, dim, c] && !d.broken [0, p, dim, c] then
    (((List.range 16).map (fun i => d.flSel p dim c ((s + i) % 16))).find? (fun i => d.bitF F.PRT_FL_CTL_EN [p, dim, c] i)).map
      (d.flPortId p dim c)
  else none

/-- Egress of a port id. -/
def portDest (id : Nat) : Dest := .port (id / 32) (id % 32)

/-! ## Routing (R228) -/

/-- Where the parse sends a packet. -/
inductive Route where
  /-- Discard: the counter that counts it, the status, and whether a refuse notice goes out. -/
  | drop (cnt : Option Field) (st : Status) (notice : Bool)
  /-- Discard at an endpoint that is not ready: a request that expects an answer gets one with UNIT_RESET (R103). -/
  | unready
  /-- Destinations, virtual channel of the next hop, and whether it is a detour or a detour's transit. -/
  | to (dests : List Dest) (vc : Nat) (detour transit : Bool)
  deriving DecidableEq, Repr

/-- No route. -/
def noRoute : Route := .drop (some F.PRT_RT_NOROUTE_COUNT) .noRoute true

/-- Fairlead and detour of the first dimension that differs (R230, R233). -/
def Dev.routeFar (d : Dev) (p : Nat) (h : PktHdr) (dim : Nat) : Route :=
  let t := coordOf h.dst dim
  let s := foldKey h.key
  let vc := (opVc h.op).getD 0
  let i := [p, dim, t]
  match (if d.flag F.PRT_FL_CTL_FORCE_DETOUR i then none else d.flPort p dim t s) with
  | some id => .to [portDest id] vc false false
  | none =>
    let c := d.getF F.PRT_FL_CTL_DT_COORD i
    if d.flag F.PRT_FL_CTL_DT_VALID i && !d.broken [0, p, dim, t] && c != coordOf (d.addr 0) dim && c != t then
      match d.flPort p dim c s with
      | some id => .to [portDest id] vc true false
      | none => noRoute
    else noRoute

/-- The logical index whose capstan handles chunk `n` in yard `y` (R307, R333). -/
def Dev.capOf (d : Dev) (y n : Nat) : Nat := d.getF F.YRD_CPS_MAP_MOVED_TO [y, n / 4 % 16]

/-- The function of an endpoint is in service and has raised READY (R103) (DEDUCED, log 54). -/
def Dev.endpointReady (d : Dev) (h : PktHdr) : Bool :=
  let e := endpointOf h.dst
  let ok := fun (n : DieNo) => d.dieOk n && d.dieReady n
  if e = 32 then ok 0
  else if e < 37 then ok (13 + (e - 33))
  else if e = 37 then ok (5 + h.flow / 32768 % 8)
  else if e < 48 then ok (17 + (e - 40))
  else match d.subYard (e - 48) with
    | some y => ok (1 + y)
    | none => false

/-- A packet for an internal endpoint (R36, R103). What depends on the remote address is checked where it arrives. -/
def Dev.routeInternal (d : Dev) (h : PktHdr) : Route :=
  let e := endpointOf h.dst
  let vc := (opVc h.op).getD 0
  let coll := h.op == opCHUNK || h.op == opGRANT
  if (48 ≤ e) != coll || (e == 37 && !isResponse h.op) then .drop none .reservedOp true
  else if !d.endpointReady h then .unready
  else if e = 32 then .to [.mast] vc false false
  else if e < 37 then .to [.sail (e - 33)] vc false false
  else if e = 37 then .to [.fabric (h.flow / 32768 % 8)] vc false false
  else if e < 48 then .to [.base (e - 40)] vc false false
  else .to [.capstan ((d.subYard (e - 48)).getD 0)] vc false false

/-- Port ids whose bit is set in eight words of a group entry, from word `o` on. -/
def groupPorts (g : List Nat) (o : Nat) : List Nat :=
  (List.range 8).flatMap (fun i => (onesOf 32 (g.getD (o + i) 0)).map (fun b => 32 * i + b))

/-- Multicast (R238–R241) (DEDUCED, log 54). -/
def Dev.routeMc (d : Dev) (k : Nat × Nat) (h : PktHdr) : Route :=
  let g := nget (List.replicate 17 0) d.net.groups [h.dst % 4096]
  let root := d.arrDim k == 0
  let set := (List.range 256).filter (fun id =>
    ((groupPorts g 1).contains id || (root && (groupPorts g 9).contains id)) && !(isLink k && id == k.1 * 32 + k.2))
  if !bit (g.getD 0 0) 31 || d.broken [2, h.dst % 4096] || d.broken [3, h.dst % 4096] then .drop (some F.PRT_RT_NOROUTE_COUNT) .reservedOp true
  else if set.isEmpty then .drop (some F.PRT_RT_NOROUTE_COUNT) .reservedOp root
  else .to (set.map portDest) ((opVc h.op).getD 0) false false

/-- The six cases of R228. -/
def Dev.route (d : Dev) (k : Nat × Nat) (h : PktHdr) : Route :=
  let p := routeDie k
  let dim := d.arrDim k
  let differs := fun (n : Nat) => coordOf h.dst n != coordOf (d.addr 0) n
  if h.mc = 1 then d.routeMc k h
  else if dim ≠ 0 ∧ ([3, 2, 1].filter (fun n => dim < n)).any differs then .drop (some F.PRT_RT_MISROUTE_COUNT) .noRoute true
  else if dim ≠ 0 ∧ differs dim then
    match d.flPort p dim (coordOf h.dst dim) (foldKey h.key) with
    | some id => .to [portDest id] vcEsc false true
    | none => noRoute
  else
    match [3, 2, 1].find? differs with
    | some n => d.routeFar p h n
    | none =>
      let e := endpointOf h.dst
      if e < 32 then
        (if d.flag F.PRT_RT_LOCAL_VALID [p, e] then .to [portDest (d.getF F.PRT_RT_LOCAL_PORT [p, e])] ((opVc h.op).getD 0) false false else noRoute)
      else d.routeInternal h

/-! ## Checks before routing -/

/-- The key entry of a port engine that admits a key (R236). -/
def Dev.keyEntry (d : Dev) (k : Nat × Nat) (pkey : Nat) : Option Nat :=
  (List.range 64).find? (fun i => d.flag F.PRT_PKEY_VALID [k.1, k.2, i] && d.getF F.PRT_PKEY_KEY [k.1, k.2, i] == pkey)

/-- Tokens of a shaper or policer: full at the reset burst unless the table says otherwise. -/
def Dev.polTokens (d : Dev) (i : List Nat) : Int := nget 4096 d.net.tokens i

/-- Rate and burst in force of a shaper (R260). -/
def Dev.shape (d : Dev) (k : Nat × Nat) (i : Nat) : Nat × Nat := nget (0, 16) d.net.shapers [k.1, k.2, i]

/-- Charged length of a packet (R256). -/
def Dev.charge (d : Dev) (k : Nat × Nat) (bytes : Nat) : Nat := bytes + d.getF F.PRT_SCH_CFG_OVH [k.1, k.2]

/-- The ingress policer (R262): the packet's header after it, and the device. -/
def Dev.police (d : Dev) (k : Nat × Nat) (vc : Nat) (h : PktHdr) : PktHdr × Dev :=
  let r := d.shape k (24 + h.tc)
  if isLink k && d.arrDim k == 0 && vc == 0 && h.tc ≤ 1 && r.1 != 0 then
    let i := [k.1, k.2, 24 + h.tc]
    let len := d.charge k h.size
    let t := d.polTokens i
    if ((min len (r.2 * 256) : Nat) : Int) ≤ t then
      (h, { d with net := { d.net with tokens := nput 4096 d.net.tokens i (t - (len : Int)) } })
    else
      ({ h with tc := d.getF F.PRT_POL_CFG_REMARK_TC [k.1, k.2] }, d.incSat F.PRT_POL_REMARK_COUNT [k.1, k.2])
  else (h, d)

/-! ## Admission requests (R202, R205, R206) -/

/-- Admission class: 0 RSP, 1 COL, 2 ESC, 3 TC0, 4 REQ. -/
def admClass (vc tc : Nat) : Nat :=
  if vc = 1 then 0 else if vc = 2 then 1 else if vc = 3 then 2 else if tc = 0 then 3 else 4

/-- The die on which a destination's cells are put back in order; the Mast and the capstans take none. -/
def Dest.die : Dest → Option DieNo
  | .port p _ => some (5 + p)
  | .fabric p => some (5 + p)
  | .sail s => some (13 + s)
  | .base n => some (17 + n)
  | _ => none

/-- Destination dies of a packet, each once, in ascending order. -/
def destDies (l : List Dest) : List DieNo := (List.range 25).filter (fun n => l.any (fun x => x.die == some n))

/-- The yards of a packet's cells, the first of which has sequence number `n` (R202) (DEDUCED, log 54). -/
def Dev.cellYards (d : Dev) (k : Nat × Nat) (n c : Nat) : List Nat :=
  if isCapstan k then List.replicate c (k.1 - 8)
  else
    let ofs := d.getF F.PRT_SPRAY_OFS [k.1, k.2]
    (List.range c).map (fun i => d.net.yl.getD (((n + i) % 65536 + ofs) % d.net.yl.length) 0)

/-- Live receive lanes of the ingress port; a fabric engine counts as 16 lanes (R217), and so does a capstan (log 32). -/
def Dev.srcLanes (d : Dev) (k : Nat × Nat) : Nat := if isLink k then d.getF F.PRT_PORT_STAT_LIVE_RX [k.1, k.2] else 16

/-- The parse enters a flight for the packet at position `i`: sequence numbers in each stream, and one request per yard,
which waits while the ratline queues are full (R267) (DEDUCED, log 53). -/
def Dev.enter (d : Dev) (k : Nat × Nat) (i : Nat) (p : InPkt) (h : PktHdr) (dests : List Dest) (vc : Nat) (key : Option (Nat × Nat × Nat)) : Dev :=
  let id := d.net.nextId
  let dies := destDies dests
  let c := cellsOf h.size
  let cls := admClass vc h.tc
  let first := dies.map (fun n => (n, nget 0 d.net.cseqs [k.1, k.2, n, vc]))
  let yards := if dies.isEmpty then [] else d.cellYards k ((first.head?.map (·.2)).getD 0) c
  let asked := (List.range 4).filter (fun y => yards.contains y)
  let f : Flight := {
    src := k, vc := vc, cls := cls, hdr := h, bytes := p.bytes, complete := p.complete, lost := p.lost, dests := dests
    cells := yards.map (fun y => ⟨y, .none, none, none, false, false, 0⟩), waiting := asked, cseq := first
    admitted := d.clk.frame, lanes := d.srcLanes k, key := key, origin := p.origin
    pendingPorts := dests.filterMap (fun x => match x with | .port a b => some (a, b) | _ => none), doneCopies := [], left := false
    released := [], dropped := [], granted := none }
  let net := { d.net with
    flights := nset d.net.flights [id] f, nextId := id + 1
    cseqs := first.foldl (fun m x => nput 0 m [k.1, k.2, x.1, vc] ((x.2 + c) % 65536)) d.net.cseqs
    unsent := if asked.isEmpty then d.net.unsent else d.net.unsent ++ [id] }
  let d := ({ d with net := net } : Dev).askWaiting
  d.setLink k ((d.link k).setIn i (fun p => { p with parsed := true, flight := some id }))

/-- The parse discards the packet at position `i`: its bytes leave the buffer, and so do those still to come. -/
def Dev.unenter (d : Dev) (k : Nat × Nat) (i : Nat) : Dev :=
  d.setLink k (((d.link k).releaseIn i).setIn i (fun p => { p with parsed := true })).tidy

/-- Bytes that a PUT would write on this device, if its target is a stack or scratchpad (R194). -/
def PktHdr.putHits (h : PktHdr) : Bool := h.op == opPUT && h.raddr < 2 ^ 48

/-- After an ABORT a PUT's region holds undefined contents: free bytes (R194). A bank whose cleat does not admit fabric
writes is unchanged (R354) (DEDUCED, log 56). -/
def Dev.spoil (d : Dev) (h : PktHdr) : Dev :=
  let x := d.freeBytes h.len
  if h.putHits && (placesOf h.raddr h.len).all (fun p => match p with | .stack n => endpointOf h.dst == 40 + n | .base n _ => endpointOf h.dst == 40 + n | .sail s _ => endpointOf h.dst == 33 + s | _ => false)
    && d.canWrite .fabric h.raddr h.len
  then x.2.write h.raddr x.1 else d

/-- A packet aborted before its parse: nothing of it is admitted, but the region of a PUT for this device is undefined. -/
def Dev.parseLost (d : Dev) (k : Nat × Nat) (h : PktHdr) : Dev :=
  if d.addrOk && h.ok && h.dstOk && h.mc == 0 && (d.keyEntry k h.pkey).isSome && d.isOwn h.dst && d.endpointReady h then d.spoil h else d

/-- One head parse of source `k` on a virtual channel (DEDUCED, log 32). The checks of R193 and R35 come before the partition check, so
a packet that fails both draws RESERVED_OP and is not counted in PRT_PKEY_DROP (DEDUCED, log 77). -/
def Dev.parse (d : Dev) (k : Nat × Nat) (vc : Nat) : Dev :=
  let l := d.link k
  match l.inq.findIdx? (fun p => !p.parsed && p.vc == vc && 32 ≤ p.bytes.length) with
  | none => d
  | some i =>
    match l.inq[i]? with
    | none => d
    | some p =>
      let h0 := PktHdr.dec p.bytes
      let rest := p.bytes.drop 32
      let die := routeDie k
      let gone := d.unenter k i
      if p.lost.isSome then gone.parseLost k h0
      else if !d.addrOk then (gone.incSat F.PRT_RT_NOROUTE_COUNT [die]).discard die k.2 h0 rest p.origin .noRoute
      else if !(isCapstan k || (h0.ok && h0.dstOk && (h0.op != opGET || getOk rest))) then gone.discardRefuse die k.2 h0 rest p.origin .reservedOp
      else
        let key := if isLink k then d.keyEntry k h0.pkey else none
        if isLink k && key.isNone then
          let d := (gone.incSat F.PRT_PKEY_DROP_COUNT [k.1, k.2]).setF F.PRT_PKEY_STAT_LAST_KEY [k.1, k.2] h0.pkey
          ((d.raise F.PRT_PKEY_STAT_MISMATCH [k.1, k.2]).fault (5 + k.1) .pkey).discard die k.2 h0 rest p.origin .keyMismatch
        else
          let x := d.police k vc h0
          let h := x.1
          let d := x.2
          let gone := d.unenter k i
          match d.route k h with
          | .drop cnt st notice =>
            let g := match cnt with | some f => gone.incSat f [die] | none => gone
            -- a notice that cannot be routed is counted and raises no further notice (R235)
            if notice then g.discardRefuse die k.2 h rest p.origin st else g.discard die k.2 h rest p.origin st
          | .unready => (gone.discard die k.2 h rest p.origin .unitReset).answerFail h rest .unitReset
          | .to dests nvc detour transit =>
            let c := cellsOf h.size
            let full := match key with
              | some e =>
                let lim := d.getF F.PRT_PKEY_LIMIT [k.1, k.2, e] * 256
                nvc == 0 && lim != 0 && !(destDies dests).isEmpty && lim < nget 0 d.net.keyCells [k.1, k.2, e] + c
              | none => false
            if full then
              ((gone.incSat F.PRT_PKEY_REFUSE_COUNT [k.1, k.2]).raise F.PRT_PKEY_STAT_REFUSED [k.1, k.2]).discardRefuse die k.2 h rest p.origin .noSlot
            else if !(destDies dests).isEmpty && (if isCapstan k then !d.dieOk (1 + (k.1 - 8)) else d.net.yl.isEmpty) then
              gone.discard die k.2 h rest p.origin .unitReset
            else
              let d := if detour then (d.incSat F.PRT_RT_DETOUR_COUNT [die]).tdc .detour (dieUnit (5 + die)) else d
              let d := if transit then d.incSat F.PRT_RT_TRANSIT_COUNT [die] else d
              let kk := key.bind (fun e => if d.getF F.PRT_PKEY_LIMIT [k.1, k.2, e] != 0 then some (k.1, k.2, e) else none)
              d.enter k i p h dests nvc kk

end Sys2Proof.Machine
end

