-- ==== Sys2Proof/Machine/Switch.lean ====
section
/-!
DEFINITION. The switch core (R200–R220): cell pools and admission, cell notices and the resequencer, egress queues and
their start tags, cell frees, port flushes, the leak audit, and the loss of a yard.
-/
namespace Sys2Proof.Machine

/-! ## The pools of a yard (R204, R205) -/

/-- Cells of yard `y` held as `p` says, over all packets; `c` selects the packets. -/
def Dev.heldCells (d : Dev) (y : Nat) (c : Flight → Bool) (p : CellHold → Bool) : Nat :=
  (d.net.flights.map (fun f => if c f.2 then f.2.cells.countP (fun x => x.yard == y && p x.hold) else 0)).sum

/-- Small cells of yard `y`. -/
def Dev.smallCells (d : Dev) (y : Nat) : Nat := (88 - d.getF F.YRD_POOL_CFG_LARGE_MIB [y]) * 4096 - nget 0 d.net.retired [y, 0]

/-- Large cells of yard `y`. -/
def Dev.largeCells (d : Dev) (y : Nat) : Nat := d.getF F.YRD_POOL_CFG_LARGE_MIB [y] * 1024 - nget 0 d.net.retired [y, 1]

/-- Reserve of an admission class. -/
def Dev.reserve (d : Dev) (y cls : Nat) : Nat :=
  (if cls = 0 then d.getF F.YRD_POOL_RSV_RSP [y] else if cls = 1 then d.getF F.YRD_POOL_RSV_COL [y]
   else if cls = 2 then d.getF F.YRD_POOL_RSV_ESC [y] else if cls = 3 then d.getF F.YRD_POOL_RSV_TC0 [y] else 0) * 256

/-- Free cells of the shared part. -/
def Dev.sharedFree (d : Dev) (y : Nat) : Nat :=
  d.smallCells y - ((List.range 4).map (d.reserve y)).sum - d.heldCells y (fun _ => true) (· == .shared)

/-- Free cells of a class's reserve. -/
def Dev.reserveFree (d : Dev) (y cls : Nat) : Nat := d.reserve y cls - d.heldCells y (fun f => f.cls == cls) (· == .reserve)

/-- Free large cells. -/
def Dev.largeFree (d : Dev) (y : Nat) : Nat := d.largeCells y - d.heldCells y (fun _ => true) (· == .large)

/-- The free counts of yard `y` as its registers show them. -/
def Dev.poolSync (d : Dev) (y : Nat) : Dev :=
  (d.setF F.YRD_POOL_FREE_S_FREE [y] (d.smallCells y - d.heldCells y (fun _ => true) (fun h => h == .shared || h == .reserve))).setF
    F.YRD_POOL_FREE_L_FREE [y] (d.largeFree y)

/-! ## Admission (R206, R207) -/

/-- Give the cells of yard `y` their holds and their owner: large cells take four cells each, in order. -/
def holdCells (y now : Nat) (o : Option Nat) (large : Bool) (h : CellHold) : List Cell → Nat → List Cell
  | [], _ => []
  | c :: t, j =>
    if c.yard = y then
      { c with hold := if large then (if j % 4 = 0 then .large else .follower) else h, owner := o, at_ := now } :: holdCells y now o large h t (j + 1)
    else c :: holdCells y now o large h t j

/-- TCQ field of class 3 to 7. -/
def tcqField (t : Nat) : Field :=
  if t = 3 then F.PRT_SCH_TCQ_TC3 else if t = 4 then F.PRT_SCH_TCQ_TC4 else if t = 5 then F.PRT_SCH_TCQ_TC5
  else if t = 6 then F.PRT_SCH_TCQ_TC6 else F.PRT_SCH_TCQ_TC7

/-- Queues of a class, first and count. -/
def Dev.classQueues (d : Dev) (k : Nat × Nat) (t : Nat) : Nat × Nat :=
  if t < 3 then (t, 1) else (d.getF (tcqField t) [k.1, k.2] % 16, 2 ^ (d.getF (tcqField t) [k.1, k.2] / 16))

/-- Queue of a packet (R255). -/
def Dev.queueOf (d : Dev) (k : Nat × Nat) (h : PktHdr) : Nat :=
  (d.classQueues k h.tc).1 + foldKey h.key % (d.classQueues k h.tc).2

/-- The named port of a multicast packet: the highest-numbered of its set. -/
def Flight.named (f : Flight) : Option (Nat × Nat) :=
  ((f.dests.filterMap (fun x => match x with | .port p e => some (p * 32 + e) | _ => none)).max?).map (fun i => (i / 32, i % 32))

/-- OWNER code that a packet's cells take at their allocation (R209). A delivery to fabric receive has no code of its own, and counts
under none (DEDUCED, log 53). -/
def Dev.ownerOf (d : Dev) (f : Flight) : Option Nat :=
  if isCapstan f.src then some (0x1000 + f.src.2)
  else
    match (match f.named with | some k => some (Dest.port k.1 k.2) | none => f.dests.head?) with
    | some (.port p e) => some ((p * 32 + e) * 16 + d.queueOf (p, e) f.hdr)
    | some (.sail s) => some (0x1010 + s)
    | some (.base n) => some (0x1018 + n)
    | _ => none

/-- Release the credits of the packet that became flight `id`. -/
def Dev.releaseFlits (d : Dev) (k : Nat × Nat) (id : Nat) : Dev :=
  match (d.link k).inq.findIdx? (fun p => p.flight == some id) with
  | some i => d.setLink k ((d.link k).releaseIn i).tidy
  | none => d

/-- The last yard has granted: the packet is admitted, counts against its key, leaves the ingress buffer, and its cells go to the
ratlines. -/
def Dev.admitted (d : Dev) (id : Nat) (f : Flight) : Dev :=
  let d := d.setFlight id { f with admitted := d.clk.frame }
  let d := match f.key with
    | some (p, e, i) => { d with net := { d.net with keyCells := nput 0 d.net.keyCells [p, e, i] (nget 0 d.net.keyCells [p, e, i] + f.cells.length) } }
    | none => d
  (d.releaseFlits f.src id).cutCells id

/-- Yard `y` grants the oldest request of a class its whole share (DEDUCED, log 53). -/
def Dev.grantTo (d : Dev) (y cls id : Nat) (f : Flight) (large : Bool) (h : CellHold) : Dev :=
  let f := { f with cells := holdCells y (d.clk.frame / 64) (d.ownerOf f) large h f.cells 0, waiting := f.waiting.filter (· ≠ y) }
  let net := { d.net with
    waits := nput [] d.net.waits [y, cls] (nget [] d.net.waits [y, cls]).tail
    allocated := if d.net.allocated.contains y then d.net.allocated else d.net.allocated ++ [y] }
  let d := (({ d with net := net } : Dev).setFlight id f).poolSync y
  if f.waiting.isEmpty then d.admitted id f else d

/-- ADMISSION_GRANT: small cells, else large cells, else the request waits (R206). How long it waits is open, so the stall
count takes a free number of cycles (DEDUCED, log 53). -/
def Dev.admission (d : Dev) (y cls : Nat) : Dev :=
  match nget [] d.net.waits [y, cls] with
  | [] => d
  | id :: rest =>
    match d.flight id with
    | none => { d with net := { d.net with waits := nput [] d.net.waits [y, cls] rest } }
    | some f =>
      let k := f.cells.countP (fun c => c.yard == y)
      let d := d.freeTie (1 + y) (((List.range 5).filter (fun c => !(nget [] d.net.waits [y, c]).isEmpty)).length)
      if !d.dieOk (1 + y) then d
      else if k ≤ d.sharedFree y then d.grantTo y cls id f false .shared
      else if k ≤ d.reserveFree y cls then d.grantTo y cls id f false .reserve
      else if ceilDiv k 4 ≤ d.largeFree y then
        ((d.raise F.YRD_POOL_STAT_FALLBACK [y]).addSat F.YRD_FALLBACK_CNT_COUNT [y] k).grantTo y cls id f true .large
      else
        let n := (d.raise F.YRD_POOL_STAT_EXHAUST [y]).freeNum
        n.2.addSat F.YRD_STALL_CNT_COUNT [y] n.1

/-! ## Notices (R212, R213) -/

/-- A stream no cell has used. -/
def Strm.init : Strm := ⟨0, 0, [], none⟩

/-- Stream of a source at a destination die. -/
def Dev.strm (d : Dev) (n : DieNo) (k : Nat × Nat) (vc : Nat) : Strm := nget Strm.init d.net.streams [n, k.1, k.2, vc]

/-- Replace it, opening or closing its gap. -/
def Dev.setStrm (d : Dev) (n : DieNo) (k : Nat × Nat) (vc : Nat) (s : Strm) : Dev :=
  let open_ := !s.wait.isEmpty && !s.wait.any (fun x => x.cseq == s.next)
  let s := { s with gapAt := if open_ then (if s.gapAt.isSome then s.gapAt else some d.clk.now) else none }
  { d with net := { d.net with streams := nput Strm.init d.net.streams [n, k.1, k.2, vc] s } }

/-- The resequencer of a die has room for a notice of the channel: 2,048 of each. -/
def Dev.noticeRoom (d : Dev) (n : DieNo) (vc : Nat) : Bool :=
  (d.net.streams.map (fun s => if ix s.1 0 == n && ix s.1 3 == vc then s.2.wait.length else 0)).sum < 2048

/-- A notice reaches its die: one whose CSEQ was already released or declared lost is dropped. -/
def Dev.notice (d : Dev) (n : DieNo) (k : Nat × Nat) (vc : Nat) (x : NoticeC) : Dev :=
  let s := d.strm n k vc
  if 32768 ≤ (x.cseq + 65536 - s.next) % 65536 then d else d.setStrm n k vc { s with wait := s.wait ++ [x] }

/-- Notices of cell `i` of a flight to every die it goes to, with the EPOCH that the cell carries (R203). -/
def Dev.notices (d : Dev) (id : Nat) (f : Flight) (i : Nat) (void : Bool) : Dev :=
  let e := ((f.cells[i]?).bind (·.epoch)).getD d.net.epoch
  f.cseq.foldl (fun d x => d.notice x.1 f.src f.vc ⟨(x.2 + i) % 65536, e, id, i, void⟩) d

/-- Change cell `i` of a flight. -/
def Flight.setCell (f : Flight) (i : Nat) (g : Cell → Cell) : Flight := { f with cells := f.cells.modify i g }

/-- Every cell of the packet may be freed. -/
def Flight.allDue (f : Flight) : Flight := { f with cells := f.cells.map (fun c => { c with due := true }) }

/-- Cells of a flight released at a die. -/
def Flight.releasedAt (f : Flight) (n : DieNo) : Nat := ((f.released.find? (fun r => r.1 == n)).map (·.2)).getD 0

/-- Forget a flight whose cells are all written and freed, once each die it goes to has released or dropped it. -/
def Dev.tidyFlight (d : Dev) (id : Nat) : Dev :=
  match d.flight id with
  | some f =>
    if f.cells.all (fun c => c.written && c.hold == .freed) && (f.complete || f.lost.isSome)
      && f.cseq.all (fun x => f.dropped.contains x.1 || decide (f.cells.length ≤ f.releasedAt x.1)) then d.dropFlight id
    else d
  | none => d

/-- The ratline can transfer a cell now: its packet is not lost, and the resequencers have room for its notices, so that no channel
waits for another's (R212, R223). -/
def Dev.ratOk (d : Dev) (e : RatCell) : Bool :=
  match d.flight e.flight with
  | some f => f.lost.isNone && f.cseq.all (fun x => d.noticeRoom x.1 f.vc)
  | none => false

/-- Cell `i` of a packet is written into its yard, which sends its notices. -/
def Dev.writeCell (d : Dev) (id : Nat) (f : Flight) (i : Nat) : Dev :=
  let f := f.setCell i (fun c => { c with epoch := some (c.epoch.getD d.net.epoch), written := true })
  (d.setFlight id f).notices id f i false

/-- CELL_WRITE: the next cell of an admitted packet is written into its yard, which sends its notices: a cell of a port die when it is
its ratline's next transfer (R267), a capstan's when its bytes are there. A packet for a capstan goes whole into the capstan's intake,
which holds four parts; a GRANT has no cells and waits for no room (R202, R316). -/
def Dev.cellWrite (d : Dev) (id : Nat) : Dev :=
  match d.flight id with
  | none => d
  | some f =>
    if !f.waiting.isEmpty || f.lost.isSome then d
    else
      match f.dests, f.cells with
      | [.capstan y], [] =>
        let c := d.capOf y f.hdr.chunk
        if f.complete && (f.hdr.op == opGRANT
            || d.net.arrivals.countP (fun a => a.at_ == .capstan y && a.hdr.op == opCHUNK && d.capOf y a.hdr.chunk == c) < 4) then
          let d := (({ d with net := { d.net with arrivals := d.net.arrivals ++ [⟨.capstan y, id, f.hdr, f.bytes.drop 32, true⟩] } } : Dev).releaseFlits f.src id)
          (d.dropFlight id).originDone f.origin f.hdr.expects none
        else d
      | _, _ =>
        match f.cells.findIdx? (fun c => !c.written) with
        | none => d
        | some i =>
          if isCapstan f.src then
            if min (256 * (i + 1)) f.hdr.size ≤ f.bytes.length && f.cseq.all (fun x => d.noticeRoom x.1 f.vc) then d.writeCell id f i else d
          else
            let y := ((f.cells[i]?).map (·.yard)).getD 0
            let q := d.ratQueue f.src.1 y
            match ratNext d.ratOk q with
            | some e =>
              if e.flight = id ∧ e.cell = i then (((d.setRat f.src.1 y (q.erase e)).writeCell id f i).cutAll f.src.1).askWaiting else d
            | none => d

/-- MAST_PACKET_DELIVER: a whole packet for the Mast goes over the Mast ratline (R202). -/
def Dev.mastDeliver (d : Dev) (id : Nat) : Dev :=
  match d.flight id with
  | none => d
  | some f =>
    if f.dests = [.mast] ∧ f.complete ∧ f.lost.isNone then
      let d := (({ d with net := { d.net with arrivals := d.net.arrivals ++ [⟨.mast, id, f.hdr, f.bytes.drop 32, true⟩] } } : Dev).releaseFlits f.src id)
      (d.dropFlight id).originDone f.origin f.hdr.expects none
    else d

/-- VOID_NOTICE: a lost packet withdraws the requests still waiting and writes a void notice for each remaining cell
(R218). -/
def Dev.voidNotice (d : Dev) (id : Nat) : Dev :=
  match d.flight id with
  | none => d
  | some f =>
    if f.lost.isNone then d
    else if f.cells.isEmpty then d.dropFlight id
    else
      let admitted := f.waiting.isEmpty
      let waits := f.waiting.foldl (fun m y => nput [] m [y, f.cls] ((nget [] m [y, f.cls]).filter (· ≠ id))) d.net.waits
      let left := (List.range f.cells.length).filter (fun i => match f.cells[i]? with | some c => !c.written | none => false)
      let f := { f with
        waiting := [], key := if admitted then f.key else none
        cells := f.cells.map (fun c =>
          if c.written then c else { c with written := true, due := true, hold := if c.hold = .none then .freed else c.hold }) }
      let d := ({ d with net := { d.net with waits := waits } } : Dev).setFlight id f
      let d := d.unrat id
      let d := (left.foldl (fun d i => d.notices id f i true) d).tidyFlight id
      if isCapstan f.src then d else (d.cutAll f.src.1).askWaiting

/-! ## Shapers and gates as a start sees them (R253, R259, R263) -/

/-- A shaper holds tokens for a charged length. -/
def Dev.shaperOk (d : Dev) (k : Nat × Nat) (i len : Nat) : Bool :=
  let r := d.shape k i
  let t := if i < 16 then d.getF F.PRT_SHP_QTOK_TOKENS [k.1, k.2, i] else d.getF F.PRT_SHP_CTOK_TOKENS [k.1, k.2, i - 16]
  r.1 == 0 || decide (((min len (r.2 * 256) : Nat) : Int) ≤ toSigned 32 t)

/-- A started packet's length leaves a shaper, unless it is unshaped. -/
def Dev.shaperTake (d : Dev) (k : Nat × Nat) (i len : Nat) : Dev :=
  if (d.shape k i).1 = 0 then d
  else
    let f := if i < 16 then F.PRT_SHP_QTOK_TOKENS else F.PRT_SHP_CTOK_TOKENS
    let j := [k.1, k.2, i % 16]
    d.setF f j (ofSigned 32 (toSigned 32 (d.getF f j) - (len : Int)))

/-- Entries of a gate list. -/
def Dev.gateLen (d : Dev) (k : Nat × Nat) (l : Nat) : Nat :=
  (if l = 0 then d.getF F.PRT_GATE_LEN_LEN_A [k.1, k.2] else d.getF F.PRT_GATE_LEN_LEN_B [k.1, k.2]) + 1

/-- The gate of class `tc` is open now (R263). -/
def Dev.gateOpen (d : Dev) (k : Nat × Nat) (tc : Nat) : Bool :=
  !d.flag F.PRT_SCH_CFG_GATE_EN [k.1, k.2] || d.broken [1, k.1, k.2] ||
    d.bitF F.PRT_GATE_MASK [k.1, k.2, d.getF F.PRT_SCH_STAT_ACTIVE [k.1, k.2], (d.link k).gateIdx] tc

/-! ## Egress queues (R214, R215, R255, R256) -/

/-- Sub-queue rank of a channel: RSP, COL, ESC, REQ. -/
def vcRank (vc : Nat) : Nat := if vc = 0 then 3 else vc - 1

/-- Sub-queue of queue `q` for a channel. -/
def LinkSt.sub (l : LinkSt) (q rank : Nat) : List EDesc := nget [] l.queues [4 * q + rank]

/-- Replace a sub-queue. -/
def LinkSt.setSub (l : LinkSt) (q rank : Nat) (x : List EDesc) : LinkSt := { l with queues := nput [] l.queues [4 * q + rank] x }

/-- Descriptors of a queue. -/
def LinkSt.queue (l : LinkSt) (q : Nat) : List EDesc := (List.range 4).flatMap (l.sub q)

/-- Depth of a queue in cells. -/
def Dev.queueDepth (d : Dev) (k : Nat × Nat) (q : Nat) : Nat :=
  (((d.link k).queue q).map (fun e => match d.flight e.flight with | some f => f.cells.length | none => 0)).sum

/-- The later of two tags, compared as signed differences modulo 2^48 (R256). -/
def tagMax (a b : Nat) : Nat := if (a + 2 ^ 48 - b % 2 ^ 48) % 2 ^ 48 < 2 ^ 47 then a % 2 ^ 48 else b % 2 ^ 48

/-- Tag `a` comes before `b`. -/
def tagLt (a b : Nat) : Bool := 2 ^ 47 ≤ (a + 2 ^ 48 - b % 2 ^ 48) % 2 ^ 48

/-- Weight of a queue; 0 counts as 1. -/
def Dev.weight (d : Dev) (k : Nat × Nat) (q : Nat) : Nat := max 1 (d.getF F.PRT_SCH_WQ_WEIGHT [k.1, k.2, q])

/-- Start tag of a head that enters an empty queue (R256). -/
def Dev.freshTag (d : Dev) (k : Nat × Nat) (q : Nat) : Nat :=
  let l := d.link k
  let f := nget 0 l.ftag [q]
  if d.flag F.PRT_SCH_WQ_FRESH [k.1, k.2, q] then tagMax f l.vtime
  else
    let back := 256 * (d.getF F.PRT_SCH_WQ_BURST [k.1, k.2, q] * 256) / d.weight k q
    tagMax f ((l.vtime + 2 ^ 48 - back % 2 ^ 48) % 2 ^ 48)

/-- Descriptors of a port die in use that `p` selects. -/
def Dev.descs (d : Dev) (die : Nat) (p : EDesc → Bool) : Nat :=
  (d.net.links.map (fun x =>
    if ix x.1 0 == die then
      (x.2.queues.map (fun q => q.2.countP p)).sum + ((x.2.tx0.toList ++ x.2.txN.toList).countP (fun t => p t.desc))
    else 0)).sum

/-- Descriptor reserve of a class (R215). -/
def descReserve (cls : Nat) : Nat := if cls ≤ 1 then 2048 else if cls ≤ 3 then 1024 else 0

/-- PRT_DESC_FREE shows the free descriptors. -/
def Dev.descSync (d : Dev) (die : Nat) : Dev := d.setF F.PRT_DESC_FREE_FREE [die] (65536 - nget 0 d.net.retired [9, die] - d.descs die (fun _ => true))

/-- A descriptor for a packet of a class: from the shared part, else from its reserve (`true`), else none. -/
def Dev.descFor (d : Dev) (die : Nat) (f : Flight) : Option Bool :=
  let mine := fun (e : EDesc) => e.rsv && (match d.flight e.flight with | some g => admClass e.vc g.hdr.tc == admClass f.vc f.hdr.tc | none => false)
  if d.descs die (fun e => !e.rsv) < 65536 - 6144 then some false
  else if d.descs die mine < descReserve (admClass f.vc f.hdr.tc) then some true
  else none

/-- Enter a packet at its egress port. -/
def Dev.enqPkt (d : Dev) (k : Nat × Nat) (id : Nat) (f : Flight) (cut rsv : Bool) : Dev :=
  let q := d.queueOf k f.hdr
  let l := d.link k
  let tag := d.freshTag k q
  let l' := l.setSub q (vcRank f.vc) (l.sub q (vcRank f.vc) ++ [⟨id, f.vc, cut, rsv⟩])
  let l' := if 3 ≤ q && (l.queue q).isEmpty then { l' with stag := nput 0 l'.stag [q] tag } else l'
  let d := (d.setLink k l').descSync k.1
  d.incSat (if cut then F.PRT_SW_CUT_COUNT else F.PRT_SW_STORE_COUNT) [k.1, k.2]

/-- The conditions of cut-through (R217). -/
def Dev.canCut (d : Dev) (k : Nat × Nat) (f : Flight) : Bool :=
  let l := d.link k
  let idle := if f.hdr.tc = 0 then (l.queue 0).isEmpty && l.tx0.isNone
    else l.queues.isEmpty && l.tx0.isNone && l.txN.isNone
  let len := d.charge k f.hdr.size
  d.flag F.PRT_CUT_CFG_CUT_EN [k.1] && f.hdr.mc == 0 && idle && decide (d.getF F.PRT_PORT_STAT_LIVE_TX [k.1, k.2] ≤ f.lanes)
    && d.gateOpen k f.hdr.tc && d.shaperOk k (d.queueOf k f.hdr) len && d.shaperOk k (16 + f.hdr.tc) len

/-- The packet is in transmission at a port, cut through. -/
def LinkSt.sending (l : LinkSt) (id : Nat) : Bool := (l.tx0.toList ++ l.txN.toList).any (fun t => t.desc.flight == id)

/-- A queue's head has left it: the next head, of a queue that was not empty, starts at the finish tag (R256). -/
def LinkSt.reTag (l : LinkSt) (q : Nat) : LinkSt :=
  if 3 ≤ q then { l with stag := nput 0 l.stag [q] (if (l.queue q).isEmpty then 0 else nget 0 l.ftag [q]) } else l

/-- Remove a packet's descriptors that wait in a port's queues; where one was the head of its sub-queue, the queue has a new head
(DEDUCED, log 52). -/
def LinkSt.unqueue (l : LinkSt) (id : Nat) : LinkSt :=
  let heads := (l.queues.filter (fun q => (q.2.head?.map (·.flight)) == some id)).map (fun q => ix q.1 0 / 4)
  let l := { l with queues := (l.queues.map (fun q => (q.1, q.2.filter (fun e => e.flight != id)))).filter (fun q => !q.2.isEmpty) }
  heads.foldl LinkSt.reTag l

/-! ## What becomes of a packet at a destination die -/

/-- Ports of a flight on a port die. -/
def Flight.portsAt (f : Flight) (n : DieNo) : List (Nat × Nat) :=
  f.dests.filterMap (fun x => match x with | .port p e => if 5 + p = n then some (p, e) else none | _ => none)

/-- Give up the claim of ports on a multicast packet (R216). -/
def Flight.claimsDone (f : Flight) (ps : List (Nat × Nat)) : Flight :=
  { f with doneCopies := f.doneCopies ++ ps.filter (fun x => !f.doneCopies.contains x) }

/-- Every port of a multicast packet has sent its copy or was flushed. -/
def Flight.allOver (f : Flight) : Bool :=
  f.dests.all (fun x => match x with | .port p e => f.doneCopies.contains (p, e) | _ => true)

/-- Whom a discard at one port reports to: a multicast packet reports when its last copy is over. -/
def Flight.reportsTo (f : Flight) : Origin := if f.hdr.mc = 1 then .outside else f.origin

/-- Ports end their claims on multicast packet `id`, with `sent` after sending the copy whole. With the last copy the packet
is over for its origin: it has left when some copy has, and else it was discarded with `st` (R327, R328, R389) (DEDUCED, log
58). -/
def Dev.claimsEnd (d : Dev) (id : Nat) (ps : List (Nat × Nat)) (sent : Bool) (st : Status) : Dev :=
  match d.flight id with
  | none => d
  | some f =>
    let g := { f.claimsDone ps with left := f.left || sent }
    let d := d.setFlight id g
    if !f.allOver && g.allOver then d.originDone f.origin f.hdr.expects (if g.left then none else some st) else d

/-- Discard a packet at a die: its descriptors go, its cells fall due, or for a multicast packet its ports' claims end. A
packet in transmission keeps its descriptor: it ends with an ABORT flit (R180, R213). -/
def Dev.dropAt (d : Dev) (id : Nat) (f : Flight) (n : DieNo) (st : Status) : Dev :=
  let ps := f.portsAt n
  let sending := ps.any (fun k => (d.link k).sending id)
  let f := { f with dropped := if f.dropped.contains n then f.dropped else f.dropped ++ [n] }
  let f := if f.hdr.mc = 1 ∨ sending then f else f.allDue
  let f := if sending && f.hdr.mc == 0 && f.lost.isNone then { f with lost := some st } else f
  let d := d.setFlight id f
  let d := if f.hdr.mc = 1 then d.claimsEnd id ps false st else d
  let d := ps.foldl (fun d k => d.setLink k ((d.link k).unqueue id)) d
  if 5 ≤ n ∧ n ≤ 12 then d.descSync (n - 5) else d

/-- Record and report of a discard at a port or at the fabric receive of a port die, or at a sail or base die (where no port die
samples it). -/
def Dev.noteDrop (d : Dev) (f : Flight) (n : DieNo) (st : Status) : Dev :=
  match f.portsAt n with
  | (p, e) :: _ => d.discard p e f.hdr (f.bytes.drop 32) f.reportsTo st
  | [] =>
    if f.dests.contains (.fabric (n - 5)) && 5 ≤ n then d.discard (n - 5) 32 f.hdr (f.bytes.drop 32) f.origin st
    else d.originDone f.origin false (some st)

/-- A cell is declared lost at a die (R213). -/
def Dev.cellLost (d : Dev) (n : DieNo) (k : Nat × Nat) (vc cseq : Nat) : Dev :=
  let port := 5 ≤ n && n ≤ 12
  let d := if port then d.incSat F.PRT_RSQ_LOST_COUNT [n - 5] else d
  match d.net.flights.find? (fun x => x.2.src == k && x.2.vc == vc &&
      x.2.cseq.any (fun c => c.1 == n && (cseq + 65536 - c.2) % 65536 < x.2.cells.length)) with
  | none => d
  | some (key, f) =>
    let id := ix key 0
    if f.dropped.contains n then d
    else
      let d := if port then d.incSat F.PRT_RSQ_DROP_COUNT [n - 5] else d.spoil f.hdr
      ((d.dropAt id f n .unitReset).noteDrop f n .unitReset).tidyFlight id

/-- A void notice is released (R218): the packet ends with the status that lost it. -/
def Dev.voided (d : Dev) (id : Nat) (f : Flight) (n : DieNo) : Dev :=
  if f.dropped.contains n then d
  else
    let d := if f.dests.any (fun x => match x with | .sail _ => true | .base _ => true | _ => false) then d.spoil f.hdr else d
    let st := f.lost.getD .unitReset
    ((d.dropAt id f n st).originDone f.reportsTo false (some st)).answerDropped f.hdr (f.bytes.drop 32) st

/-- Enter the packet at each of its ports on the die, or discard it at those that are down (R220): none when a descriptor
is wanting. -/
def Dev.enterPorts (d : Dev) (id : Nat) (f : Flight) (n : DieNo) (cut : Bool) : Option Dev :=
  (f.portsAt n).foldl (fun d k =>
    match d with
    | none => none
    | some d =>
      if d.portUp k then (d.descFor k.1 f).map (fun r => d.enqPkt k id f cut r)
      else
        let d := (d.incSat F.PRT_DOWN_DROP_COUNT [k.1, k.2]).discard k.1 k.2 f.hdr (f.bytes.drop 32) f.reportsTo .unitReset
        some (if f.hdr.mc = 1 then d.claimsEnd id [k] false .unitReset else d.dropAt id f n .unitReset)) (some d)

/-- The release of a cell of a packet bound for ports of the die. -/
def Dev.relPort (d : Dev) (id : Nat) (f : Flight) (n : DieNo) (cell : Nat) : Option Dev :=
  let head := cell == 0
  let tail := cell + 1 == f.cells.length
  let queued := (f.portsAt n).any (fun k => (d.link k).sending id || (d.link k).queues.any (fun q => q.2.any (fun e => e.flight == id)))
  if f.dropped.contains n then some d
  else if f.hdr.mc = 1 then (if head then d.enterPorts id f n false else some d)
  else
    match f.portsAt n with
    | [k] =>
      if head && (!d.portUp k) then d.enterPorts id f n false
      else if head && d.canCut k f then d.enterPorts id f n true
      else if tail && !queued then d.enterPorts id f n false
      else some d
    | _ => some d

/-- The bank that a packet writes grants it or not, whole, when its first cell is taken (R355). -/
def Dev.grantWrite (d : Dev) (h : PktHdr) : Bool := match h.writes with | some (a, n) => d.canWrite .fabric a n | none => true

/-- The release of a cell bound for a sail, a base die or a fabric receive: it is taken and may be freed; with the last one
the packet has arrived. -/
def Dev.relInner (d : Dev) (id : Nat) (f : Flight) (cell : Nat) : Dev :=
  let f := f.setCell cell (fun c => { c with due := true })
  let f := if f.granted.isNone then { f with granted := some (d.grantWrite f.hdr) } else f
  let d := d.setFlight id f
  if cell + 1 = f.cells.length then
    let d := { d with net := { d.net with arrivals := d.net.arrivals ++ (f.dests.take 1).map (fun x =>
      Arrival.mk x id f.hdr (f.bytes.drop 32) (f.granted.getD true)) } }
    d.originDone f.origin f.hdr.expects none
  else d

/-- Note a release in order at a die. -/
def Flight.noteReleased (f : Flight) (n : DieNo) : Flight :=
  let c := ((f.released.find? (fun r => r.1 == n)).map (·.2)).getD 0
  { f with released := (f.released.filter (fun r => r.1 != n)) ++ [(n, c + 1)] }

/-- Release one notice: none when the egress has no descriptor for it. -/
def Dev.relNotice (d : Dev) (n : DieNo) (x : NoticeC) : Option Dev :=
  match d.flight x.flight with
  | none => some d
  | some f =>
    let f := f.noteReleased n
    let d := d.setFlight x.flight f
    if x.void then some ((d.voided x.flight f n).tidyFlight x.flight)
    else if f.dests.any (fun y => match y with | .port _ _ => true | _ => false) then d.relPort x.flight f n x.cell
    else if f.dropped.contains n then some d
    else some (d.relInner x.flight f x.cell)

/-- The next CSEQ of the stream belongs to a cell of the other epoch than `e`: it was cut in it, or is still to be cut. -/
def Dev.newEpochAt (d : Dev) (n : DieNo) (k : Nat × Nat) (vc cseq e : Nat) : Bool :=
  d.net.flights.any (fun x => x.2.src == k && x.2.vc == vc && x.2.cseq.any (fun c => c.1 == n &&
    (match x.2.cells[(cseq + 65536 - c.2) % 65536]? with
     | some y => (y.epoch.getD d.net.epoch) != e
     | none => false)))

/-- RESEQUENCER_RELEASE of a stream: the next CSEQ in order is released, or, once a notice of the other epoch waits, a
missing one of the old epoch is lost (R212, R213). -/
def Dev.rsqRelease (d : Dev) (n : DieNo) (k : Nat × Nat) (vc : Nat) : Dev :=
  let s := d.strm n k vc
  match s.wait.find? (fun x => x.cseq == s.next) with
  | some x =>
    match (d.setStrm n k vc { s with next := (s.next + 1) % 65536, epoch := x.epoch, wait := s.wait.filter (fun y => y.cseq != s.next) }).relNotice n x with
    | some d' => d'
    | none => d
  | none =>
    if s.wait.any (fun x => x.epoch != s.epoch) && !d.newEpochAt n k vc s.next s.epoch then
      let d := d.setStrm n k vc { s with next := (s.next + 1) % 65536 }
      let d := if 5 ≤ n && n ≤ 12 then (d.raise F.PRT_RSQ_STAT_YARD_SKIP [n - 5]).fault n .rsqLost else d
      d.cellLost n k vc s.next
    else d

/-- Gap timeout of a die: a port die's register; for a sail or base die no rule names one, so any time will do (log 33). -/
def Dev.gapTimeout (d : Dev) (n : DieNo) : Nat := if 5 ≤ n ∧ n ≤ 12 then us (max 1 (d.getF F.PRT_RSQ_CFG_TIMEOUT [n - 5])) else 0

/-- GAP_TIMEOUT of a stream: the missing cells before its first waiting notice are lost (R213) (DESIGN CHOICE, log 33). -/
def Dev.gapExpire (d : Dev) (n : DieNo) (k : Nat × Nat) (vc : Nat) : Dev :=
  let s := d.strm n k vc
  match s.gapAt with
  | none => d
  | some t =>
    if t + d.gapTimeout n ≤ d.clk.now then
      let m := ((s.wait.map (fun x => (x.cseq + 65536 - s.next) % 65536)).min?).getD 0
      let lost := (List.range m).map (fun i => (s.next + i) % 65536)
      let d := d.setStrm n k vc { s with next := (s.next + m) % 65536, gapAt := none }
      let d := if 5 ≤ n && n ≤ 12 then (d.raise F.PRT_RSQ_STAT_GAP_TIMEOUT [n - 5]).fault n .rsqLost else d
      lost.foldl (fun d c => d.cellLost n k vc c) d
    else d

/-! ## Frees (R208, R216) -/

/-- Hand the large cell of a freed first cell on to the next cell in it. -/
def passLarge (y : Nat) : List Cell → List Cell
  | [] => []
  | c :: t =>
    if c.yard = y ∧ c.hold ≠ .freed then (if c.hold = .follower then { c with hold := .large } :: t else c :: t) else c :: passLarge y t

/-- CELL_FREE: a cell that is due is freed; a free of a free cell is ignored and sets FREE_ERR (DEDUCED, log 53). -/
def Dev.cellFree (d : Dev) (y id i : Nat) : Dev :=
  match d.flight id with
  | none => d.raise F.YRD_POOL_STAT_FREE_ERR [y]
  | some f =>
    match f.cells[i]? with
    | none => d
    | some c =>
      if c.yard ≠ y then d
      else if c.hold = .freed then d.raise F.YRD_POOL_STAT_FREE_ERR [y]
      else if !c.due then d
      else
        let cells := f.cells.set i { c with hold := .freed }
        let cells := if c.hold = .large then cells.take (i + 1) ++ passLarge y (cells.drop (i + 1)) else cells
        let d := (d.setFlight id { f with cells := cells }).keyDown f 1
        (d.poolSync y).tidyFlight id

/-- MULTICAST_COPY_DONE: a port that has sent its copy or was flushed gives up its claim; the named one is the last, and
frees the cells. -/
def Dev.copyDone (d : Dev) (id : Nat) (k : Nat × Nat) : Dev :=
  match d.flight id with
  | none => d
  | some f =>
    if f.doneCopies.contains k && f.pendingPorts.contains k && (f.named != some k || f.pendingPorts == [k]) then
      let f := { f with pendingPorts := f.pendingPorts.filter (· ≠ k) }
      d.setFlight id (if f.pendingPorts.isEmpty then f.allDue else f)
    else d

/-! ## Port flush (R219) -/

/-- PORT_FLUSH_DONE: every queued packet and the ones in transmission are removed and counted. -/
def Dev.flushDone (d : Dev) (k : Nat × Nat) : Dev :=
  let l := d.link k
  match l.flushing with
  | none => d
  | some _ =>
    let i := [k.1, k.2]
    let ids := (l.queues.flatMap (fun q => q.2.map (·.flight))) ++ ((l.tx0.toList ++ l.txN.toList).map (fun t => t.desc.flight))
    let fs := ids.filterMap (fun id => (d.flight id).map (fun f => (id, f)))
    let d := d.setLink k { l with queues := [], stag := [], tx0 := none, txN := none, flushing := none, flushed := true }
    let d := fs.foldl (fun d x =>
      let d := match d.flight x.1 with
        | some f =>
          if f.hdr.mc = 1 then d.claimsEnd x.1 [k] false .unitReset
          else d.setFlight x.1 { f.allDue with dropped := f.dropped ++ [5 + k.1] }
        | none => d
      d.discard k.1 k.2 x.2.hdr (x.2.bytes.drop 32) x.2.reportsTo .unitReset) d
    let d := (d.addSat F.PRT_FLUSH_PKTS_COUNT i ids.length).addSat F.PRT_FLUSH_CELLS_COUNT i (fs.map (fun x => x.2.cells.length)).sum
    ((d.clear F.PRT_FLUSH_STAT_FLUSHING i).raise F.PRT_FLUSH_STAT_FLUSHED i).descSync k.1

/-- FAIRLEAD_EN_CLEAR: port die `q` clears the EN bits of a port that went down in each of its entries (R231). -/
def Dev.enClear (d : Dev) (q id : Nat) : Dev :=
  if d.net.enDue.contains (q, id) then
    let d := { d with net := { d.net with enDue := d.net.enDue.filter (· ≠ (q, id)) } }
    [1, 2, 3].foldl (fun d dim => (List.range 16).foldl (fun d c =>
      (List.range 8).foldl (fun d i => if d.flPortId q dim c i = id then d.clrBitF F.PRT_FL_CTL_EN [q, dim, c] i else d) d) d) d
  else d

/-! ## Leak audit (R209–R211) -/

/-- The unit that an OWNER code names has given the cell up: its port's flush has completed, or its capstan or delivery is in reset (R211). -/
def Dev.orphanOwner (d : Dev) (y o : Nat) : Bool :=
  if o < 0x1000 then (d.link (o / 512, o / 16 % 32)).flushed
  else if o < 0x1010 then
    d.islandInReset (tackleIsland (0x2000 + 256 * y + d.getF F.YRD_CPS_MAP_PHYS [y, o % 16]))
      || (nget? d.rst.tackles [0x2000 + 256 * y + o % 16]).isSome
  else if o < 0x1014 then d.islandInReset (faultIsland (13 + o % 4)) || !d.dieOk (13 + o % 4)
  else if 0x1018 ≤ o ∧ o < 0x1020 then d.islandInReset (faultIsland (17 + o % 8)) || !d.dieOk (17 + o % 8)
  else false

/-- A cell of yard `y` is an orphan. -/
def Dev.orphan (d : Dev) (y : Nat) (c : Cell) : Bool := !c.due && (match c.owner with | some o => d.orphanOwner y o | none => false)

/-- Age of a cell in units of 64 frames. -/
def Dev.cellAge (d : Dev) (c : Cell) : Nat := min (d.clk.frame / 64 - c.at_) 0xFFFF

/-- A cell that the yard holds. -/
def heldIn (y : Nat) (c : Cell) : Bool := c.yard == y && c.hold != .freed && c.hold != .none

/-- A cell control entry of the yard in use (R210): a small cell's, or that of a large cell, which holds up to four cells of a packet. -/
def entryIn (y : Nat) (c : Cell) : Bool := heldIn y c && c.hold != .follower

/-- The audit frees the packet's orphans in the yard, and its key's count falls with each (R237). -/
def Dev.freeOrphans (d : Dev) (y id : Nat) (f : Flight) : Dev :=
  let mine := fun (c : Cell) => heldIn y c && d.orphan y c
  (d.setFlight id { f with cells := f.cells.map (fun c => if mine c then { c with hold := .freed, due := true } else c) }).keyDown f (f.cells.countP mine)

/-- LEAK_AUDIT_PASS of a yard, one entry after the other (DEDUCED, log 53). -/
def Dev.audit (d : Dev) (y : Nat) : Dev :=
  if !d.dieOk (1 + y) then d
  else
    let free := d.flag F.YRD_AUDIT_CTRL_ORPHAN_FREE [y]
    let all := d.net.flights.flatMap (fun x => x.2.cells.filter (entryIn y))
    let orphans := all.filter (d.orphan y)
    let d0 := d
    let d := if free then
        let d := d0.net.flights.foldl (fun d x => d.freeOrphans y (ix x.1 0) x.2) d
        (d.addSat F.YRD_ORPHAN_FREED_COUNT [y] orphans.length).poolSync y
      else d
    let left := all.filter (fun c => !(free && d0.orphan y c))
    let sel := left.filter (fun c => c.owner == some (d.getF F.YRD_AUDIT_SEL_OWNER [y]))
    let leaks := left.filter (fun c => d.getF F.YRD_AUDIT_CTRL_AGE_LIMIT [y] < d.cellAge c || d0.orphan y c)
    let d := (d.setF F.YRD_AUDIT_CNT_CELLS [y] sel.length).setF F.YRD_AUDIT_CNT_OLDEST [y] (((sel.map d.cellAge).max?).getD 0)
    let d := d.setF F.YRD_AUDIT_LEAK_CELLS [y] leaks.length
    let d := match leaks with
      | c :: _ => d.setF F.YRD_AUDIT_FIRST_OWNER [y] (c.owner.getD 0x1FFF)
      | [] => d
    let d := d.incSat F.YRD_AUDIT_PASS_COUNT [y]
    if leaks.isEmpty then d else (d.raise F.YRD_POOL_STAT_LEAK [y]).fault (1 + y) .poolLeak

/-! ## A yard leaves service (R203) -/

/-- A cell that was cut for yard `y`: in its buffer, or on its ratline. -/
def cutFor (y : Nat) (c : Cell) : Bool := c.yard == y && c.epoch.isSome

/-- Every cell cut for yard `y` is lost, its notices with them; each one that a die has released counts there as lost, and its packet is
dropped (R213). Cells still to be cut take a yard in use from the next frame start on. -/
def Dev.yardCellsLost (d : Dev) (y : Nat) : Dev :=
  let fs0 := d.net.flights
  let inY := fun (f : Flight) (i : Nat) => match f.cells[i]? with | some c => cutFor y c | none => false
  let streams := d.net.streams.map (fun s => (s.1, { s.2 with wait := s.2.wait.filter (fun x =>
    !((fs0.find? (fun f => f.1 == [x.flight])).map (fun f => inY f.2 x.cell)).getD false) }))
  let d := { d with net := { d.net with
    streams := streams, ratq := d.net.ratq.filter (fun q => ix q.1 1 ≠ y), allocated := d.net.allocated.filter (· ≠ y) } }
  let d := fs0.foldl (fun d x =>
    let f := { x.2 with
      lost := if x.2.src.1 = 8 + y ∧ !x.2.cells.isEmpty then some (x.2.lost.getD .unitReset) else x.2.lost
      cells := x.2.cells.map (fun c => if cutFor y c then { c with hold := .freed, written := true, due := true } else c) }
    (d.setFlight (ix x.1 0) f).keyDown f (x.2.cells.countP (fun c => cutFor y c && c.hold != .freed))) d
  let d := fs0.foldl (fun d x => x.2.cseq.foldl (fun d n =>
    let gone := (List.range (x.2.releasedAt n.1)).countP (fun i =>
      inY x.2 i && (match x.2.cells[i]? with | some c => !c.due && c.hold != .freed | none => false))
    match d.flight (ix x.1 0) with
    | some f =>
      if gone = 0 || f.dropped.contains n.1 then d
      else
        let d := if 5 ≤ n.1 ∧ n.1 ≤ 12 then (d.addSat F.PRT_RSQ_LOST_COUNT [n.1 - 5] gone).incSat F.PRT_RSQ_DROP_COUNT [n.1 - 5] else d
        (d.dropAt (ix x.1 0) f n.1 .unitReset).noteDrop f n.1 .unitReset
    | none => d) d) d
  let d := fs0.foldl (fun d x => d.tidyFlight (ix x.1 0)) d
  d.poolSync y

/-- A packet of a port or fabric engine takes the yards now in use for the cells it has not cut: an admitted packet's cells move to their
new yards and hold small cells there, one that waits withdraws its requests and sends them again; with no yard left it is lost (DEDUCED,
log 54). -/
def Dev.respray (d : Dev) (id : Nat) (f : Flight) : Dev :=
  if isCapstan f.src || f.lost.isSome || f.cells.all (fun c => c.epoch.isSome) then d
  else if d.net.yl.isEmpty then d.setFlight id { f with lost := some .unitReset }
  else
    let ys := d.cellYards f.src ((f.cseq.head?.map (·.2)).getD 0) f.cells.length
    let cells := f.cells.zipIdx.map (fun x =>
      if x.1.epoch.isSome then x.1
      else { x.1 with yard := ys.getD x.2 0, hold := if f.waiting.isEmpty then .shared else .none })
    let f := { f with cells := cells }
    if f.waiting.isEmpty then d.setFlight id f
    else
      let d := d.setFlight id { f with waiting := f.yards }
      { d with net := { d.net with
        unsent := d.net.unsent.filter (· ≠ id) ++ [id]
        waits := (d.net.waits.map (fun w => (w.1, w.2.filter (· ≠ id)))).filter (fun w => !w.2.isEmpty) } }

/-- SPRAY_EPOCH_CHANGE: from this frame start sources spray over the yards now in service, with the epoch toggled; the next cell of
every packet goes by the new yards (R203). -/
def Dev.sprayChange (d : Dev) : Dev :=
  match d.net.sprayDue with
  | some yl =>
    let d := { d with net := { d.net with yl := yl, epoch := 1 - d.net.epoch, sprayDue := none } }
    let d := (d.net.flights.foldl (fun d x => d.respray (ix x.1 0) x.2) d).askWaiting
    let d := (List.range 8).foldl Dev.cutAll d
    (List.range 4).foldl Dev.poolSync d
  | none => d

end Sys2Proof.Machine
end

