-- ==== Sys2Proof/Machine/Sched.lean ====
section
/-!
DEFINITION. The egress scheduler (R252–R266): what a flit slot carries, eligibility, weighted queues, shapers, gate lists,
and the congestion maps (R245, R246).
-/
namespace Sys2Proof.Machine

/-! ## Sending flits -/

/-- Send one flit (R173): ACK, and CR_TOTAL of the next channel in rotation (R186). -/
def Dev.sendFlit (d : Dev) (k : Nat × Nat) (ty vc sop eop tc valid seq : Nat) (pay : List Byte) : Dev :=
  let l := d.link k
  let v := l.crNext % 4
  let h : FlitHdr := ⟨ty, vc, sop, eop, tc, valid, seq, l.ackSeq, v, (advertised (d.portWidth k) v + l.freed.getD v 0) % 65536⟩
  (d.setLink k { l with crNext := (v + 1) % 4 }).emit (.flit k.1 k.2 ty seq (mkFlit h pay))

/-- A first transmission of a flit that carries a SEQ: kept for replay, and one credit consumed (R182, R187). -/
def Dev.sendSeq (d : Dev) (k : Nat × Nat) (ty vc sop eop tc valid : Nat) (pay : List Byte) : Dev :=
  let seq := d.getF F.PRT_LNK_STAT_TX_NEXT [k.1, k.2]
  let d := d.sendFlit k ty vc sop eop tc valid seq pay
  let l := d.link k
  let d := d.setLink k { l with
    replay := l.replay ++ [⟨seq, ty, vc, sop, eop, tc, valid, pay⟩]
    ackAt := if l.replay.isEmpty then d.clk.now else l.ackAt
    used := l.used.set vc (l.used.getD vc 0 + 1) }
  (d.addWrap F.PRT_LNK_STAT_TX_NEXT [k.1, k.2] 1).subF (crField vc) [k.1, k.2] 1

/-- An IDLE flit. -/
def Dev.sendIdle (d : Dev) (k : Nat × Nat) : Dev := d.sendFlit k 0 0 0 0 0 0 0 []

/-- Set or clear the open packet of a slot. -/
def Dev.setTx (d : Dev) (k : Nat × Nat) (tc0 : Bool) (t : Option TxPkt) : Dev :=
  let l := d.link k
  (d.setLink k (if tc0 then { l with tx0 := t } else { l with txN := t })).descSync k.1

/-- The packet bytes as they are sent, with the congestion mark set at the grant (R242). -/
def Flight.wire (f : Flight) (cm : Bool) : List Byte :=
  ({ f.hdr with cm := if cm then 1 else f.hdr.cm } : PktHdr).enc ++ (f.bytes.take f.hdr.size).drop 32

/-- Bytes of a packet that the port can read now: of a cut-through packet, those of its released cells (R217). -/
def Flight.readable (f : Flight) (t : TxPkt) (n : DieNo) : Nat :=
  if t.desc.cut then min f.hdr.size (256 * f.releasedAt n) else f.hdr.size

/-- Cells whose bytes have all been read fall due; a multicast packet's stay for the other ports. -/
def Flight.readTo (f : Flight) (sent : Nat) : Flight :=
  if f.hdr.mc = 1 then f
  else
    let n := if f.hdr.size ≤ sent then f.cells.length else sent / 256
    { f with cells := (f.cells.take n).map (fun c => { c with due := true }) ++ f.cells.drop n }

/-- The next flit of an open packet: its bytes, an ABORT flit if it has been lost (R180), or IDLE while a cell is late. -/
def Dev.contFlit (d : Dev) (k : Nat × Nat) (tc0 : Bool) (t : TxPkt) : Dev :=
  match d.flight t.desc.flight with
  | none => (d.setTx k tc0 none).sendIdle k
  | some f =>
    let n := 5 + k.1
    if f.dropped.contains n then
      let d := (d.setTx k tc0 none).incSat F.PRT_LNK_ABORT_TX_COUNT [k.1, k.2]
      let d := if f.hdr.mc = 1 then d.claimsEnd t.desc.flight [k] false .unitReset else d.setFlight t.desc.flight f.allDue
      d.sendSeq k 2 t.desc.vc 0 1 t.tc 0 (leBytes 1 (f.lost.getD .unitReset).code)
    else
      let m := min 240 (f.hdr.size - t.sent)
      let eop := t.sent + m == f.hdr.size
      if t.sent + m ≤ f.readable t n then
        let f' := f.readTo (t.sent + m)
        let d := d.setFlight t.desc.flight f'
        let d := d.setTx k tc0 (if eop then none else some { t with sent := t.sent + m })
        let d := d.sendSeq k 1 t.desc.vc (b2n (t.sent == 0)) (b2n eop) t.tc m (((f.wire t.cm).drop t.sent).take m)
        if !eop then d
        else if f.hdr.mc = 1 then d.claimsEnd t.desc.flight [k] true .ok
        else d.originDone f.origin f.hdr.expects none
      else d.sendIdle k

/-! ## Eligibility (R253, R261, R264, R266) -/

/-- Credits held less those that open packets still need (R179). -/
def Dev.spare (d : Dev) (k : Nat × Nat) (vc : Nat) : Nat :=
  let l := d.link k
  let owed := ((l.tx0.toList ++ l.txN.toList).map (fun t =>
    if t.desc.vc = vc then (match d.flight t.desc.flight with | some f => flitsOf (f.hdr.size - t.sent) | none => 0) else 0)).sum
  d.credits k vc - owed

/-- The channel holds credits for the whole packet, less the TC0 reserve on REQ and RSP (R261). -/
def Dev.creditOk (d : Dev) (k : Nat × Nat) (f : Flight) (vc : Nat) : Bool :=
  let keep := if f.hdr.tc ≠ 0 ∧ vc ≤ 1 then d.getF F.PRT_SCH_CFG_TC0_CR [k.1, k.2] * d.getF F.PRT_PORT_STAT_LIVE_TX [k.1, k.2] else 0
  decide (flitsOf f.hdr.size + keep ≤ d.spare k vc)

/-- Cycles for which gate list `a` holds a class open from entry `i` on, the entries repeating: none when no entry closes it. -/
def Dev.listOpen (d : Dev) (k : Nat × Nat) (a i tc : Nat) : Option Nat :=
  let n := d.gateLen k a
  let opens := ((List.range n).map (fun j => (i + j) % n)).takeWhile (fun j => d.bitF F.PRT_GATE_MASK [k.1, k.2, a, j] tc)
  if opens.length = n then none else some (opens.map (fun j => d.getF F.PRT_GATE_DURATION [k.1, k.2, a, j])).sum

/-- Pipeline cycles of the frame gone by after `sym` of its 17,000 symbol periods. -/
def cycleOf (sym : Nat) : Nat := sym * 256 / 17000

/-- Cycles until a pending takeover, `sym` symbol periods into the frame: the first pipeline cycle at or after its time (R265). -/
def Dev.takeoverIn (d : Dev) (k : Nat × Nat) (sym : Nat) : Nat :=
  ceilDiv (d.getF F.PRT_GATE_AT_TIME [k.1, k.2] - d.fabTime) 25 - cycleOf sym

/-- Cycles for which the gate of a class stays open, `since` cycles into the present entry: none when nothing closes it. From a pending
takeover on the new list holds, from its entry 0; it takes precedence over an entry boundary of the old list in the same cycle, so a gate
that the one closes and the other opens stays open (R264, R265) (DESIGN CHOICE, log 16). -/
def Dev.gateLeft (d : Dev) (k : Nat × Nat) (tc since sym : Nat) : Option Nat :=
  let a := d.getF F.PRT_SCH_STAT_ACTIVE [k.1, k.2]
  let old := (d.listOpen k a (d.link k).gateIdx tc).map (· - since)
  if d.flag F.PRT_SCH_STAT_PENDING [k.1, k.2] then
    let m := d.takeoverIn k sym
    let new := (d.listOpen k (1 - a) 0 tc).map (m + ·)
    match old with
    | some t => if t < m then some t else new
    | none => new
  else old

/-- The gate admits the start of a packet, with lookahead (R264) (DESIGN CHOICE, log 16). -/
def Dev.gateAdmits (d : Dev) (k : Nat × Nat) (f : Flight) (since sym : Nat) : Bool :=
  d.gateOpen k f.hdr.tc &&
    (f.hdr.tc == 0 || !d.flag F.PRT_SCH_CFG_LOOKAHEAD [k.1, k.2] || !d.flag F.PRT_SCH_CFG_GATE_EN [k.1, k.2] || d.broken [1, k.1, k.2] ||
      (match d.gateLeft k f.hdr.tc since sym with
       | none => true
       | some t => decide (flitsOf f.hdr.size * 16384 ≤ t * 1000 * max 1 (d.getF F.PRT_PORT_STAT_LIVE_TX [k.1, k.2]))))

/-- A packet older than AGE7 in class TC7 (R266). -/
def Dev.aged (d : Dev) (k : Nat × Nat) (f : Flight) : Bool :=
  let a := d.getF F.PRT_SCH_AGE_AGE7 [k.1, k.2]
  f.hdr.tc == 7 && a != 0 && decide (a < d.clk.frame / 64 - f.admitted / 64)

/-- A queued packet may be sent from what the die has released: a cut-through packet as its cells come, every other only once it is
complete (R216–R218). -/
def Flight.sendable (f : Flight) (e : EDesc) (n : DieNo) : Bool := e.cut || decide (f.cells.length ≤ f.releasedAt n)

/-- The packet that a queue would send: the oldest of the first sub-queue whose channel holds its credits (R214). A multicast packet
that is not stored whole yet holds its own sub-queue only (DEDUCED, log 52). -/
def Dev.queueHead (d : Dev) (k : Nat × Nat) (q : Nat) : Option (EDesc × Flight) :=
  (List.range 4).findSome? (fun r =>
    match ((d.link k).sub q r).head? with
    | some e => (d.flight e.flight).bind (fun f => if d.creditOk k f e.vc && f.sendable e (5 + k.1) then some (e, f) else none)
    | none => none)

/-- The head of a queue when it is eligible (R253): gate, shapers and, for TC7, age. -/
def Dev.eligible (d : Dev) (k : Nat × Nat) (q since sym : Nat) : Option (EDesc × Flight) :=
  (d.queueHead k q).bind (fun x =>
    let len := d.charge k x.2.hdr.size
    if d.gateAdmits k x.2 since sym && !d.aged k x.2 && d.shaperOk k q len && d.shaperOk k (16 + x.2.hdr.tc) len then some x else none)

/-- The weighted queue with the smallest start tag among those with an eligible head (R256). -/
def Dev.wfqPick (d : Dev) (k : Nat × Nat) (since sym : Nat) : Option Nat :=
  ((List.range 13).map (· + 3)).foldl (fun best q =>
    if (d.eligible k q since sym).isSome then
      (match best with
       | none => some q
       | some b => if tagLt (nget 0 (d.link k).stag [q]) (nget 0 (d.link k).stag [b]) then some q else some b)
    else best) none

/-- Start a packet: it leaves its queue, tags and shapers move, a weighted packet may be marked (R242, R256, R259). -/
def Dev.startPkt (d : Dev) (k : Nat × Nat) (q : Nat) (e : EDesc) (f : Flight) : Dev :=
  let len := d.charge k f.hdr.size
  let mark := 3 ≤ q && d.getF F.PRT_CM_THRESH_THRESH [k.1, k.2] < d.queueDepth k q
  let l := d.link k
  let l := l.setSub q (vcRank e.vc) (l.sub q (vcRank e.vc)).tail
  let l := if 3 ≤ q then
      let s := nget 0 l.stag [q]
      let f' := (s + 256 * len / d.weight k q) % 2 ^ 48
      ({ l with vtime := tagMax l.vtime s, ftag := nput 0 l.ftag [q] f' } : LinkSt).reTag q
    else l
  let d := ((d.setLink k l).shaperTake k q len).shaperTake k (16 + f.hdr.tc) len
  let d := if mark then d.incSat F.PRT_CM_MARKED_COUNT [k.1, k.2] else d
  let t : TxPkt := ⟨e, q, 0, mark, f.hdr.tc⟩
  (d.setTx k (f.hdr.tc == 0) (some t)).contFlit k (f.hdr.tc == 0) t

/-- Discard the aged TC7 packets at the heads of sub-queues, in whichever queue they were put (R266). -/
def Dev.dropAged (d : Dev) (k : Nat × Nat) : Dev :=
  let old := (List.range 16).flatMap (fun q => (List.range 4).flatMap (fun r =>
    (((d.link k).sub q r).takeWhile (fun e => match d.flight e.flight with | some f => d.aged k f | none => false)).map (fun e => (q, r, e))))
  old.foldl (fun d x =>
    let l := d.link k
    let l := (l.setSub x.1 x.2.1 (l.sub x.1 x.2.1).tail).reTag x.1
    let d := (d.setLink k l).descSync k.1
    let d := d.incSat F.PRT_SCH_AGED_COUNT [k.1, k.2]
    match d.flight x.2.2.flight with
    | some f =>
      let d := if f.hdr.mc = 1 then d.claimsEnd x.2.2.flight [k] false .aged
        else d.setFlight x.2.2.flight { f.allDue with dropped := f.dropped ++ [5 + k.1] }
      d.discardRefuse k.1 k.2 f.hdr (f.bytes.drop 32) f.reportsTo .aged
    | none => d) d

/-- A stamp of fabric time that a lane island took `ago` frames before this one, in 1/256 unit: its copy at that frame's start and `sym`
symbol periods since, of the 17,000 in a frame (R64) (DEDUCED, log 15). -/
def Dev.stampAt (d : Dev) (ago sym : Nat) : Nat := 256 * ((d.fabTime + 2 ^ 64 - ago * frameUnits) % 2 ^ 64) + sym * (256 * frameUnits) / 17000

/-- A waiting time-exchange block leaves with its send stamp; of a REQUEST that is t1 (R66, R189). -/
def Dev.sendTimex (d : Dev) (k : Nat × Nat) (b : List Byte) (sym : Nat) : Dev :=
  let t := d.stampAt 0 sym
  let d := if leAt b 0 1 = 1 then
      { d with clk := { d.clk with timex := match nget? d.clk.timex [k.1, k.2] with
          | some x => nset d.clk.timex [k.1, k.2] { x with t1 := t, sentAt := d.clk.now }
          | none => d.clk.timex } }
    else d
  d.sendFlit k 4 0 0 0 0 0 0 (b.take 8 ++ leBytes 8 (t / 256) ++ leBytes 1 (t % 256) ++ b.drop 17)

/-- EGRESS_FLIT_SLOT: a NAK, a replayed flit, a time exchange, TC0, the open packet, TC1, TC2, the weighted pick, or IDLE
(R172, R178, R183, R184, R254). `since`: pipeline cycles since the present gate entry began; `sym`: symbol periods since the frame start
(DEDUCED, log 52). While a reef request is open every new flit is held; after the agreement point come IDLE flits only, until the lanes
are off (R165). -/
def Dev.flitSlot (d : Dev) (k : Nat × Nat) (since sym : Nat) : Dev :=
  let reef := (d.portLn k).reef
  if !d.portUp k || reef == .reefed || reef == .waking || (reef == .entering && (d.portLn k).reefAt != d.clk.now) then d
  else if reef = .entering then (d.dropAged k).sendIdle k
  else
    let d := d.dropAged k
    let l := d.link k
    if l.nakDue then
      (((d.setLink k { l with nakDue := false, nakOut := some d.clk.now }).incSat F.PRT_LNK_NAK_TX_COUNT [k.1, k.2]).sendFlit k 3 0 0 0 0 0 0
        (leBytes 2 (d.getF F.PRT_LNK_STAT_RX_EXPECT [k.1, k.2])))
    else
      match l.resend, l.timex with
      | s :: rest, _ => (d.setLink k { l with resend := rest }).sendFlit k s.type s.vc s.sop s.eop s.tc s.valid s.seq s.payload
      | [], b :: rest => if reef = .asked then d.sendIdle k else (d.setLink k { l with timex := rest }).sendTimex k b sym
      | [], [] =>
        if 2048 ≤ l.replay.length || reef == .asked then d.sendIdle k
        else
          match l.tx0 with
          | some t => d.contFlit k true t
          | none =>
            match d.eligible k 0 since sym with
            | some x => d.startPkt k 0 x.1 x.2
            | none =>
              match l.txN with
              | some t => d.contFlit k false t
              | none =>
                match d.eligible k 1 since sym, d.eligible k 2 since sym, d.wfqPick k since sym with
                | some x, _, _ => d.startPkt k 1 x.1 x.2
                | none, some x, _ => d.startPkt k 2 x.1 x.2
                | none, none, some q =>
                  (match d.eligible k q since sym with | some x => d.startPkt k q x.1 x.2 | none => d.sendIdle k)
                | none, none, none => d.sendIdle k

/-! ## Refill and gates (R259–R265) -/

/-- Tokens after a refill of a shaper whose rate in force was `was`: one that was unshaped and is shaped now starts full (R259). -/
def refill (was : Nat) (t : Int) (rate burst : Nat) : Int :=
  if was = 0 ∧ rate ≠ 0 then burst * 256 else min (t + 2 * rate) (burst * 256)

/-- SHAPER_REFILL of a port: settings written since the last refill come into force, then tokens are added. -/
def Dev.shaperRefill (d : Dev) (k : Nat × Nat) : Dev :=
  let i := [k.1, k.2]
  let set := fun (d : Dev) (j rate burst : Nat) => ({ d with net := { d.net with shapers := nput (0, 16) d.net.shapers [k.1, k.2, j] (rate, burst) } } : Dev)
  let d := (List.range 16).foldl (fun d q =>
    let r := d.getF F.PRT_SHP_Q_RATE (i ++ [q])
    let b := d.getF F.PRT_SHP_Q_BURST (i ++ [q])
    (set d q r b).setF F.PRT_SHP_QTOK_TOKENS (i ++ [q]) (ofSigned 32 (refill (d.shape k q).1 (toSigned 32 (d.getF F.PRT_SHP_QTOK_TOKENS (i ++ [q]))) r b))) d
  let d := (List.range 8).foldl (fun d t =>
    let r := d.getF F.PRT_SHP_C_RATE (i ++ [t])
    let b := d.getF F.PRT_SHP_C_BURST (i ++ [t])
    (set d (16 + t) r b).setF F.PRT_SHP_CTOK_TOKENS (i ++ [t]) (ofSigned 32 (refill (d.shape k (16 + t)).1 (toSigned 32 (d.getF F.PRT_SHP_CTOK_TOKENS (i ++ [t]))) r b))) d
  (List.range 2).foldl (fun d t =>
    let r := d.getF F.PRT_POL_RATE (i ++ [t])
    let b := d.getF F.PRT_POL_BURST (i ++ [t])
    let tok := refill (d.shape k (24 + t)).1 (d.polTokens [k.1, k.2, 24 + t]) r b
    let d := set d (24 + t) r b
    { d with net := { d.net with tokens := nput 4096 d.net.tokens [k.1, k.2, 24 + t] tok } }) d

/-- GATE_ENTRY_ADVANCE: the active list goes to its next entry, and repeats after the last. -/
def Dev.gateAdvance (d : Dev) (k : Nat × Nat) : Dev :=
  let l := d.link k
  d.setLink k { l with gateIdx := (l.gateIdx + 1) % d.gateLen k (d.getF F.PRT_SCH_STAT_ACTIVE [k.1, k.2]) }

/-- GATE_TAKEOVER: at its time the pending list becomes active at entry 0 (R265) (DEDUCED, log 34). -/
def Dev.gateTakeover (d : Dev) (k : Nat × Nat) : Dev :=
  let i := [k.1, k.2]
  if d.flag F.PRT_SCH_STAT_PENDING i && d.getF F.PRT_GATE_AT_TIME i < d.fabTime + frameUnits then
    let d := ((d.setF F.PRT_SCH_STAT_ACTIVE i (1 - d.getF F.PRT_SCH_STAT_ACTIVE i)).clear F.PRT_SCH_STAT_PENDING i).incSat F.PRT_GATE_TAKE_COUNT i
    d.setLink k { d.link k with gateIdx := 0 }
  else d

/-! ## Congestion maps (R245, R246) -/

/-- The bin of a depth against the threshold. -/
def cmapBin (depth t : Nat) : Nat :=
  if depth = 0 then 0 else if 8 * depth < t then 1 else if 4 * depth < t then 2 else if 2 * depth < t then 3 else if depth < t then 4
  else if depth < 2 * t then 5 else if depth < 4 * t then 6 else 7

/-- Depth of a class at a port. -/
def Dev.classDepth (d : Dev) (k : Nat × Nat) (t : Nat) : Nat :=
  ((List.range (d.classQueues k t).2).map (fun j => d.queueDepth k ((d.classQueues k t).1 + j))).sum

/-- CMAP_SAMPLE of a port die, every 2^SAMPLE_LOG2 frames. -/
def Dev.cmapSample (d : Dev) (p : Nat) : Dev :=
  if d.clk.frame % 2 ^ d.getF F.PRT_CMAP_CTRL_SAMPLE_LOG2 [p] ≠ 0 then d
  else
    (List.range 32).foldl (fun d e => (List.range 8).foldl (fun d t =>
      let b := cmapBin (d.classDepth (p, e) t) (d.getF F.PRT_CM_THRESH_THRESH [p, e])
      { d with net := { d.net with bins := nput 0 d.net.bins [p, e, t, b] (nget 0 d.net.bins [p, e, t, b] + 1) } }) d) d

/-- CMAP_SNAPSHOT of a port die: requested, or timed and due. -/
def Dev.cmapSnapshot (d : Dev) (p : Nat) : Dev :=
  let timed := d.flag F.PRT_CMAP_CTRL_SNAP_AT_EN [p] && d.getF F.PRT_CMAP_AT_TIME [p] ≤ d.fabTime
  if !(d.net.snapDue.contains p || timed) then d
  else
    let d0 := d
    let d := (List.range 32).foldl (fun d e => (List.range 8).foldl (fun d t => (List.range 8).foldl (fun d b =>
      d.setF F.PRT_CMAP_COUNT [p, e, t, b] (min (nget 0 d0.net.bins [p, e, t, b]) (2 ^ 32 - 1))) d) d) d
    let d := { d with net := { d.net with bins := d.net.bins.filter (fun x => ix x.1 0 ≠ p), snapDue := d.net.snapDue.filter (· ≠ p) } }
    let d := if timed then d.clear F.PRT_CMAP_CTRL_SNAP_AT_EN [p] else d
    ((d.setF F.PRT_CMAP_TAKEN_TIME [p] d.fabTime).raise F.PRT_CMAP_STAT_DONE [p]).addWrap F.PRT_CMAP_STAT_SNAPS [p] 1

end Sys2Proof.Machine
end

