-- ==== Sys2Proof/Machine/Lanes.lean ====
section
/-!
DEFINITION. The rows of serial lanes (06): bring-up, capability exchange, lane faults with sparing and narrowing,
lane-set changes, and reef. A row whose enabling condition fails leaves the device unchanged (log 2).
-/
namespace Sys2Proof.Machine

/-! ## Bring-up (R153–R157) -/

/-- The circuit stands at a module slot in DENIED, whose lanes stay in DETECT (R488). -/
def Dev.laneDenied (d : Dev) (p l : Nat) : Bool :=
  match d.positionOf p l with
  | some x => d.getF F.OPM_SLOT_STAT_STATE [16 * p + x / 8] == 2
  | none => false

/-- LANE_DETECT: a circuit in DETECT that may train, or a dropped lane that sees training patterns (R163), enters TRAIN. -/
def Dev.laneDetect (d : Dev) (p l : Nat) : Dev :=
  if d.flag F.LNE_CTRL_EN [p, l] && !d.laneDenied p l then
    match d.laneOwner p l with
    | some (k, i) =>
      let dropped := d.laneState p l = 5 ∧ !bit (d.live16 k true) i ∧ !bit (d.live16 k false) i
      if d.laneState p l = 1 ∨ dropped then (d.toDetect p l).toState p l 2 else d
    | none => d
  else d

/-- LANE_TRAIN_DONE: the trained taps, the adapted CTLE and gain, and whether precoding was requested, are the link's
own; they stand where AUTO_EQ and FREEZE let them (R158, R169). With AUTO_EQ = 0 the coefficient requests of training are answered
with "maximum reached". -/
def Dev.trainDone (d : Dev) (p l taps ctle gain : Nat) (precode : Bool) : Dev :=
  if d.laneState p l = 2 then
    match d.laneOwner p l with
    | some (k, _) =>
      let c2m := d.getF F.PRT_PORT_CFG_MODE [k.1, k.2] == 2
      let i := [p, l]
      let d := if d.flag F.LNE_CTRL_AUTO_EQ i && !c2m then
          ((((d.setF F.LNE_TXEQ_C_M3 i taps).setF F.LNE_TXEQ_C_M2 i (taps / 64)).setF F.LNE_TXEQ_C_M1 i (taps / 4096)).setF
            F.LNE_TXEQ_C_0 i (taps / 262144)).setF F.LNE_TXEQ_C_P1 i (taps / 16777216)
        else if c2m then d else d.emit (.wire "EQ_MAXIMUM" [p, l])
      let d := if d.flag F.LNE_RXEQ_FREEZE i then d else (d.setF F.LNE_RXEQ_CTLE i ctle).setF F.LNE_RXEQ_GAIN i gain
      (d.setF F.LNE_STAT_PRECODE i (b2n (d.flag F.LNE_CTRL_PRECODE_ALLOW i && (c2m || precode)))).toState p l 3
    | none => d
  else d

/-- LANE_LOCK_DONE: 16 codewords in a row decode at the boundary (R154). With AUTO_ALIGN = 1 the search has moved it by `slip` symbols;
with AUTO_ALIGN = 0 it stays where BITSLIP put it. A lane in LOCK goes on to CAPS; one that runs has SYNC_OK back. -/
def Dev.lockDone (d : Dev) (p l slip : Nat) : Dev :=
  let s := d.laneState p l
  if s = 3 then
    let x := d.lane p l
    let d := if d.flag F.LNE_CTRL_AUTO_ALIGN [p, l] then d.setLane p l { x with boundary := (x.boundary + slip) % 2720 } else d
    ((d.raise F.LNE_STAT_SYNC_OK [p, l]).toState p l 4).sendCaps p l
  else if s = 4 ∨ s = 5 then d.raise F.LNE_STAT_SYNC_OK [p, l]
  else d

/-- Longest time in a state that leads to a retry; LOCK has none while AUTO_ALIGN is 0 (R153, R154). -/
def Dev.laneLimit (d : Dev) (p l : Nat) : Option Nat :=
  match d.laneState p l with
  | 2 => some (ms 200)
  | 3 => if d.flag F.LNE_CTRL_AUTO_ALIGN [p, l] then some (ms 25) else none
  | 4 => some (ms 5)
  | _ => none

/-- LANE_STATE_TIMEOUT: a retry from DETECT; the third in a row enters SELFTEST (DESIGN CHOICE, log 2). -/
def Dev.laneTimeout (d : Dev) (p l : Nat) : Dev :=
  match d.laneLimit p l with
  | none => d
  | some t =>
    if d.clk.now < (d.lane p l).since + t then d
    else
      let n := (d.lane p l).retries + 1
      let d := d.toDetect p l
      if 3 ≤ n then
        ((d.setLane p l { d.lane p l with retries := 0 }).raise F.LNE_STAT_TRAIN_FAIL [p, l]).toState p l 0xB
      else d.setLane p l { d.lane p l with retries := n }

/-- MISMATCH code of a capability block, 0 when it is accepted: MAGIC and VERSION, then WIDTH, then REF (R156) (DESIGN CHOICE,
log 41; DEDUCED, log 50). -/
def capsCheck (width : Nat) (b : List Byte) (phaseOk : Bool) : Nat :=
  if leAt b 0 4 ≠ 0x4B4C4350 ∨ leAt b 4 1 ≠ 1 then 3
  else if leAt b 6 1 ≠ width then 2
  else if (leAt b 14 1 % 2 == 1) ≠ Config.spreading ∨ !phaseOk then 1
  else 0

/-- A lane of a port that is up and has exchanged CAPS_ACK becomes ACTIVE: its position rejoins the lane set and its port
announces ADD (R162). Its latency, skew and phase are the link's own (DEDUCED, log 50). -/
def Dev.rejoin (d : Dev) (k : Nat × Nat) (l i : Nat) : Dev :=
  let x := d.freeNum
  let y := x.2.freeNum
  let z := y.2.freeNum
  let d := (((z.2.setF F.LNE_LAT_LATENCY [k.1, l] x.1).setF F.LNE_LAT_SKEW [k.1, l] y.1).setF F.LNE_LAT_PHASE [k.1, l] z.1).toState k.1 l 5
  let d := d.setLane k.1 l { d.lane k.1 l with retries := 0 }
  let n := d.portLn k
  d.setPortLn k { n with narrowed := clrBit n.narrowed i, queue := n.queue ++ [(true, i)] }

/-- CAPS_RECEIVE: a capability block of the peer, with CAPS_ACK or without; `phaseOk`: the elastic-buffer phase has stayed
within its limit so far. The block is accepted once 1 ms of CAPS has passed, and CAPS_ACK goes out (R155, R156) (DEDUCED, log 50). A lane
of a port that is down waits in CAPS for PORT_UP. -/
def Dev.capsReceive (d : Dev) (p l : Nat) (b : List Byte) (ack phaseOk : Bool) : Dev :=
  if d.laneState p l = 4 then
    match d.laneOwner p l with
    | none => d
    | some (k, i) =>
      let d := (List.range 8).foldl (fun d j => d.setF F.LNE_CAPS_PEER_BYTES [p, l, j] (leAt b (4 * j) 4)) d
      let c := capsCheck (d.portSpan k).2 b phaseOk
      if c ≠ 0 then (d.setF F.LNE_STAT_MISMATCH [p, l] c).toState p l 0xA
      else
        let was := d.lane p l
        let d := d.setLane p l { was with acked := was.acked || ack, accepted := was.accepted || decide (was.since + ms 1 ≤ d.clk.now) }
        let x := d.lane p l
        let d := if x.accepted && !was.accepted then d.sendCaps p l else d
        if d.portUp k && x.accepted && x.acked then d.rejoin k l i else d
  else d

/-- A feature bit of the capability block is set at the peer on every lane of the port; the device itself has both
features (R155, R156). -/
def Dev.peerFeat (d : Dev) (k : Nat × Nat) (b : Nat) : Bool :=
  (d.laneSet k).all (fun i => d.bitF F.LNE_CAPS_PEER_BYTES [k.1, d.laneOf k i, 3] (24 + b))

/-- The link counters clear when the port comes up; PRT_LNK_LOST does not (R199). -/
def Dev.clearLinkCounts (d : Dev) (i : List Nat) : Dev :=
  [F.PRT_LNK_REPLAY_COUNT, F.PRT_LNK_NAK_TX_COUNT, F.PRT_LNK_BAD_COUNT, F.PRT_LNK_DUP_COUNT, F.PRT_LNK_ABORT_RX_COUNT,
    F.PRT_LNK_ABORT_TX_COUNT, F.PRT_LNK_MALFORMED_COUNT, F.PRT_LNK_TIMEX_LOST_COUNT].foldl (fun d f => d.setF f i 0) d

/-- Logical lane `j` has sent and received CAPS_ACK. -/
def Dev.laneReady (d : Dev) (k : Nat × Nat) (j : Nat) : Bool :=
  let l := d.laneOf k j
  d.laneState k.1 l == 4 && (d.lane k.1 l).accepted && (d.lane k.1 l).acked

/-- The lanes on which a port comes up: its lane set, and the narrowed positions that are ready with it, which so rejoin the set (R162). -/
def Dev.upLanes (d : Dev) (k : Nat × Nat) : List Nat :=
  (List.range (d.portSpan k).2).filter (fun j => !bit (d.portLn k).narrowed j || d.laneReady k j)

/-- PORT_UP: in a period with SEQ = 0, once every lane of the lane set has sent and received CAPS_ACK. `lat`: latency, skew and phase
of each lane, in order; `lag`: periods by which the peer's SEQ, as the lanes now deliver it, lags behind the device's own (R157). -/
def Dev.portComesUp (d : Dev) (k : Nat × Nat) (lat : List (Nat × Nat × Nat)) (lag : Nat) : Dev :=
  let i := [k.1, k.2]
  let set := d.upLanes k
  if d.flag F.PRT_PORT_CFG_EN i && !d.portUp k && !set.isEmpty && decide (d.getF F.PRT_PORT_CFG_MIN_LIVE i ≤ set.length)
      && set.all (d.laneReady k) && lat.length == set.length && d.seqBegins 0 0 then
    let d := d.setPortLn k { d.portLn k with narrowed := set.foldl clrBit (d.portLn k).narrowed, rxLag := lag }
    let d := (set.zip lat).foldl (fun d x =>
      let l := d.laneOf k x.1
      let d := ((d.setF F.LNE_LAT_LATENCY [k.1, l] x.2.1).setF F.LNE_LAT_SKEW [k.1, l] x.2.2.1).setF F.LNE_LAT_PHASE [k.1, l] x.2.2.2
      d) d
    let d := set.foldl (fun d j => (d.setLane k.1 (d.laneOf k j) { d.lane k.1 (d.laneOf k j) with retries := 0 }).toState k.1 (d.laneOf k j) 5) d
    let d := (d.setLive k true (ofOnes set)).setLive k false (ofOnes set)
    let d := (d.raise F.PRT_PORT_STAT_UP i).clearLinkCounts i
    let d := d.setLink k { d.link k with ackAt := d.clk.now, ackSeq := 0xFFFF, used := [0, 0, 0, 0], freed := [0, 0, 0, 0], crNext := 0, flushed := false }
    { d with clk := { d.clk with timex := ndel d.clk.timex i } }
  else d

/-! ## Leaving a reef (R166, R167) -/

/-- Lane circuits of a port's live sets. -/
def Dev.liveCircuits (d : Dev) (k : Nat × Nat) : List Nat :=
  ((List.range (d.portSpan k).2).filter (fun i => bit (d.live16 k true) i || bit (d.live16 k false) i)).map (d.laneOf k)

/-- Exit starts: the lanes' islands run again and the burst is sent (R166). -/
def Dev.reefExit (d : Dev) (k : Nat × Nat) : Dev :=
  let d := (d.liveCircuits k).foldl (fun d l =>
    let g := 32 + 136 * k.1 + l
    (if d.islandStopped g then d.startIsland g else d).toState k.1 l 7) d
  (d.clear F.PRT_PORT_STAT_REEFED [k.1, k.2]).setPortLn k { d.portLn k with reef := .waking, wake := false }

/-- A wake trigger: before entry is complete it waits for it; a reefed port starts exit (R166, R167) (DESIGN CHOICE, log 16;
DEDUCED, log 51). -/
def Dev.wakePort (d : Dev) (k : Nat × Nat) : Dev :=
  match (d.portLn k).reef with
  | .entering => d.setPortLn k { d.portLn k with wake := true }
  | .reefed => d.reefExit k
  | _ => d

/-! ## Faults, sparing and narrowing (R160–R163) -/

/-- Decide a drop of logical lane `i`, with `req` also a DROP_REQ for the peer's lane. A pending lane-set change wakes a reefed port
(R166). -/
def Dev.decideDrop (d : Dev) (k : Nat × Nat) (i : Nat) (req : Bool) : Dev :=
  let n := d.portLn k
  (d.setPortLn k { n with
    queue := if n.queue.contains (false, i) || n.announced == some (false, i) || !bit (d.live16 k true) i then n.queue else n.queue ++ [(false, i)]
    dropReqs := if req && !n.dropReqs.contains i then n.dropReqs ++ [i] else n.dropReqs }).wakePort k

/-- What the causes of R160 ask of the codewords a lane has received: 8 uncorrectable ones in a row, or more than LNE_UCW_LIMIT within
a window of 1 ms. -/
def Dev.causeHolds (d : Dev) (p l : Nat) (c : LaneCause) : Bool :=
  match c with
  | .ucwRun => decide (8 ≤ (d.lane p l).ucwRun)
  | .ucwLimit => decide (d.getF F.LNE_UCW_LIMIT_LIMIT [p, l] < (d.lane p l).ucwWin)
  | _ => true

/-- LANE_FAULT. From here on the lane's codewords count as uncorrectable (`Dev.laneDead`). -/
def Dev.laneFault (d : Dev) (p l : Nat) (c : LaneCause) : Dev :=
  match d.laneOwner p l with
  | none => d
  | some (k, i) =>
    if d.portUp k && d.causeHolds p l c && (d.laneState p l == 5 || (c == .wakeBurst && d.laneState p l == 7)) && (d.lane p l).after.isNone then
      let d := d.fault (5 + p) .laneFault
      let d := if c = .refDrift then d.raise F.LNE_STAT_REF_DRIFT [p, l] else d
      let d := d.setLane p l { d.lane p l with after := some (if c = .islandReset then .retrain else .selftest), counted := false }
      d.decideDrop k i true
    else d

/-- One spare swap at port die `p` (R79, R162). -/
def Dev.spareSwapLane (d : Dev) (p : Nat) : Dev := d.tdc .spareSwap (dieUnit (5 + p))

/-- Steer the spare of a position's group to it; it trains from DETECT, and the failed circuit is FAILED until device
reset. -/
def Dev.steer (d : Dev) (p l q : Nat) (log : Nat) : Dev :=
  let g := q / 32
  let s := 33 * g + 32
  let d := (d.setF F.LNE_STAT_POSITION [p, l] 0xFF).toState p l 8
  let d := (d.setF F.LNE_SPARE_POS [p, g] q).raise F.LNE_SPARE_IN_USE [p, g]
  let d := (d.setF F.LNE_STAT_POSITION [p, s] q).setF F.LNE_STAT_LOGICAL [p, s] log
  (d.toDetect p s).spareSwapLane p

/-- LANE_SELFTEST_DONE: a failing circuit is replaced by a free spare; otherwise the position is narrowed out and the
circuit waits for its retries (R153, R162). -/
def Dev.laneSelftestDone (d : Dev) (p l : Nat) (pass : Bool) : Dev :=
  if d.laneState p l = 0xB then
    match d.laneOwner p l, d.positionOf p l with
    | some (k, i), some q =>
      let x := d.lane p l
      let d := d.setLane p l { x with after := none, counted := false, retries := 0 }
      if !pass && d.laneState p (33 * (q / 32) + 32) == 9 then (d.raise F.LNE_STAT_FAULT_CIRCUIT [p, l]).steer p l q i
      else
        let d := d.raise F.LNE_STAT_FAULT_CHANNEL [p, l]
        let d := if pass then d else d.raise F.LNE_STAT_FAULT_CIRCUIT [p, l]
        let n := d.portLn k
        let d := (d.setPortLn k { n with narrowed := setBit n.narrowed i }).raise F.PRT_PORT_STAT_NARROWED [k.1, k.2]
        let d := (d.fault (5 + p) .laneNoSpare).toState p l 8
        if x.counted || bit n.narrowed i then d else d.spareSwapLane p
    | _, _ => d
  else d

/-- NARROW_RETRY: RETRY_S seconds have passed since the position was narrowed out or last retried (R162). -/
def Dev.narrowRetry (d : Dev) (p l : Nat) : Dev :=
  match d.laneOwner p l with
  | none => d
  | some (k, i) =>
    if d.laneState p l = 8 ∧ bit (d.portLn k).narrowed i ∧ (d.lane p l).since + sec (d.getF F.PRT_PORT_CFG_RETRY_S [k.1, k.2]) ≤ d.clk.now then
      d.toDetect p l
    else d

/-- PORT_LOSS_OF_SIGNAL: every live lane has lost signal within 1 µs; no lane runs a self-test (R161). -/
def Dev.lossOfSignal (d : Dev) (k : Nat × Nat) : Dev := d.portDown k

/-! ## Lane-set changes (R147, R148) -/

/-- An announcement: its code on every lane of the live set in each of the periods with SEQ 224 to 227 (R148). -/
def Dev.announce (d : Dev) (k : Nat × Nat) (c : CtrlCode) (i : Nat) : Dev :=
  (List.range 4).foldl (fun d j => d.sendCtrlAll k c i (224 + j)) d

/-- LANE_SET_ANNOUNCE: in the window that begins with SEQ = 224 a port announces one lane-set change, and one DROP_REQ that it has
decided (R148) (DEDUCED, log 50). -/
def Dev.laneSetAnnounce (d : Dev) (k : Nat × Nat) : Dev :=
  let n := d.portLn k
  if d.portUp k && n.reef == .none && n.announced.isNone && (!n.queue.isEmpty || !n.dropReqs.isEmpty) && d.seqBegins 0 224 then
    let d := match n.queue.head? with
      | some c => d.announce k (if c.1 then .add else .drop) c.2
      | none => d
    let d := match n.dropReqs.head? with
      | some i => d.announce k .dropReq i
      | none => d
    d.setPortLn k { n with queue := n.queue.tail, announced := n.queue.head?, dropReqs := n.dropReqs.tail }
  else d

/-- What becomes of the circuit of a lane whose own drop has taken effect (R162, R169). -/
def Dev.dropped (d : Dev) (k : Nat × Nat) (i : Nat) : Dev :=
  let l := d.laneOf k i
  let x := d.lane k.1 l
  match x.after with
  | some .selftest =>
    ((((d.setLane k.1 l { x with counted := true }).toState k.1 l 0xB).raise F.PRT_PORT_STAT_NARROWED [k.1, k.2])).spareSwapLane k.1
  | some .selfCmd => d.toState k.1 l 0xB
  | some .retrain => d.toDetect k.1 l
  | none => d

/-- A live set changes at its switch point; a port left with fewer than MIN_LIVE lanes goes down (R148, R152) (DEDUCED, log
50). -/
def Dev.switchSet (d : Dev) (k : Nat × Nat) (tx : Bool) (c : Bool × Nat) : Dev :=
  let m := d.live16 k tx
  let m' := if c.1 then setBit m c.2 else clrBit m c.2
  let d := d.setLive k tx m'
  let d := if tx && !c.1 then d.dropped k c.2 else d
  if (onesOf 16 m').length < d.getF F.PRT_PORT_CFG_MIN_LIVE [k.1, k.2] then d.portDown k else d

/-- SWITCH_POINT of one direction, in a period with SEQ = 0: of the port's own announced change, or of the peer's (R148). -/
def Dev.switchPoint (d : Dev) (k : Nat × Nat) (tx : Bool) : Dev :=
  let n := d.portLn k
  if !d.seqBegins (if tx then 0 else n.rxLag) 0 then d
  else if tx then
    match n.announced with
    | some c => (d.setPortLn k { n with announced := none }).switchSet k true c
    | none => d
  else
    match n.rxChange with
    | some c => (d.setPortLn k { n with rxChange := none }).switchSet k false c
    | none => d

/-- RX_DROP and RX_ADD: the first copy decoded counts. -/
def Dev.rxSetChange (d : Dev) (k : Nat × Nat) (add : Bool) (i : Nat) : Dev :=
  if d.portUp k && (d.portLn k).rxChange.isNone && decide (i < (d.portSpan k).2) then
    d.setPortLn k { d.portLn k with rxChange := some (add, i) }
  else d

/-- RX_DROP. -/
def Dev.rxDrop (d : Dev) (k : Nat × Nat) (i : Nat) : Dev := d.rxSetChange k false i

/-- RX_ADD. -/
def Dev.rxAdd (d : Dev) (k : Nat × Nat) (i : Nat) : Dev := d.rxSetChange k true i

/-- RX_DROP_REQ: the port is to DROP that lane in its next announcement periods. -/
def Dev.rxDropReq (d : Dev) (k : Nat × Nat) (i : Nat) : Dev :=
  if d.portUp k && decide (i < (d.portSpan k).2) then d.decideDrop k i false else d

/-- RX_RESERVED_CTRL (R146). -/
def Dev.rxReservedCtrl (d : Dev) (p l : Nat) : Dev :=
  if d.laneState p l = 4 ∨ d.laneState p l = 5 then d.incSat F.LNE_CTRL_RSVD_COUNT [p, l] else d

/-! ## Register actions (R154, R158, R159, R169) -/

/-- LANE_RETRAIN: a live lane is dropped under R148 and restarts at DETECT after its switch point; any other restarts at
once, out of MISMATCH too. FAILED circuits stay (R162). A reefed port wakes first (R166). -/
def Dev.laneRetrain (d : Dev) (p l : Nat) : Dev :=
  match d.laneOwner p l with
  | none => d
  | some (k, i) =>
    if d.portUp k && bit (d.live16 k true) i then
      (d.setLane p l { d.lane p l with after := some .retrain }).decideDrop k i true
    else
      let s := d.laneState p l
      if s = 0 ∨ s = 9 ∨ (s = 8 ∧ !bit (d.portLn k).narrowed i) then d
      else (d.setF F.LNE_STAT_MISMATCH [p, l] 0).toDetect p l

/-- LANE_SELFTEST_CMD: the lane is dropped and its self-test runs. -/
def Dev.laneSelftest (d : Dev) (p l : Nat) : Dev :=
  match d.laneOwner p l with
  | none => d
  | some (k, i) =>
    if d.portUp k && bit (d.live16 k true) i then
      (d.setLane p l { d.lane p l with after := some .selfCmd, counted := false }).decideDrop k i true
    else
      let s := d.laneState p l
      if s = 0 ∨ s = 8 ∨ s = 9 then d else d.toState p l 0xB

/-- LANE_BITSLIP by `n` symbols: ignored while AUTO_ALIGN is 1. -/
def Dev.bitslip (d : Dev) (p l n : Nat) : Dev :=
  if d.flag F.LNE_CTRL_AUTO_ALIGN [p, l] then d
  else (d.setLane p l { d.lane p l with boundary := ((d.lane p l).boundary + n) % 2720 }).clear F.LNE_STAT_SYNC_OK [p, l]

/-- Sum of the absolute values of the taps of an LNE_TXEQ word: four signed and the unsigned main tap (R158). -/
def tapSum (v : Nat) : Nat :=
  let a := fun (lo : Nat) => (toSigned 6 (bits v lo 6)).natAbs
  a 0 + a 6 + a 12 + bits v 18 6 + a 24

/-- EYE_MEASURE: a write `v` with START measures the eye it selects; while a measurement runs it is discarded (R159). -/
def Dev.eyeMeasure (d : Dev) (p l v : Nat) : Dev :=
  if d.flag F.LNE_EYE_CTRL_BUSY [p, l] then d else (d.setF F.LNE_EYE_CTRL_EYE [p, l] (bits v 2 2)).raise F.LNE_EYE_CTRL_BUSY [p, l]

/-- EYE_MEASURE_DONE: height, width and signal-to-noise ratio are the link's own. -/
def Dev.eyeDone (d : Dev) (p l h w snr : Nat) : Dev :=
  if d.flag F.LNE_EYE_CTRL_BUSY [p, l] then
    (((d.clear F.LNE_EYE_CTRL_BUSY [p, l]).setF F.LNE_EYE_HEIGHT [p, l] h).setF F.LNE_EYE_WIDTH [p, l] w).setF F.LNE_EYE_SNR [p, l] snr
  else d

/-! ## Reef (R164–R168) -/

/-- A TC0 window of the egress is open or opens within `guard` pipeline cycles; `since`: pipeline cycles into the present gate
entry. -/
def Dev.windowWithin (d : Dev) (k : Nat × Nat) (since guard : Nat) : Bool :=
  let i := [k.1, k.2]
  if d.flag F.PRT_SCH_CFG_GATE_EN i && !d.broken [1, k.1, k.2] then
    let a := d.getF F.PRT_SCH_STAT_ACTIVE i
    let n := d.gateLen k a
    let seq := (List.range n).map (fun j => ((d.link k).gateIdx + j) % n)
    let shut := seq.takeWhile (fun j => !d.bitF F.PRT_GATE_MASK [k.1, k.2, a, j] 0)
    let ahead := (shut.map (fun j => d.getF F.PRT_GATE_DURATION [k.1, k.2, a, j])).sum - since
    (shut.length < n && ahead ≤ guard) ||
      (d.flag F.PRT_SCH_STAT_PENDING i && d.bitF F.PRT_GATE_MASK [k.1, k.2, 1 - a, 0] 0
        && (d.getF F.PRT_GATE_AT_TIME i - d.fabTime) / 25 ≤ guard)
  else false

/-- A TC0 window is open or opens within GUARD periods (R164). A period is 1,024 / 25 pipeline cycles. -/
def Dev.windowNear (d : Dev) (k : Nat × Nat) (since : Nat) : Bool := d.windowWithin k since (d.getF F.PRT_PORT_REEF_GUARD [k.1, k.2] * 1024 / 25)

/-- No lane-set change is decided or pending in either direction. -/
def PortLn.settled (n : PortLn) : Bool := n.queue.isEmpty && n.announced.isNone && n.dropReqs.isEmpty && n.rxChange.isNone

/-- The conditions of R164 apart from the idle time. -/
def Dev.reefFree (d : Dev) (k : Nat × Nat) (since : Nat) : Bool :=
  d.flag F.PRT_PORT_CFG_REEF_EN [k.1, k.2] && d.peerFeat k 0 && (d.link k).replay.isEmpty && (d.portLn k).settled && !d.windowNear k since

/-- A clock hold covers a lane's island, which defers reef entry (R59) (DEDUCED, log 51). -/
def Dev.reefHeld (d : Dev) (k : Nat × Nat) : Bool := (d.liveCircuits k).any (fun l => d.islandHeldOn (32 + 136 * k.1 + l))

/-- The port has nothing to send. -/
def Dev.portIdle (d : Dev) (k : Nat × Nat) : Bool :=
  let l := d.link k
  l.queues.isEmpty && l.tx0.isNone && l.txN.isNone && l.resend.isEmpty && l.timex.isEmpty && !l.nakDue

/-- REEF_REQ_SEND: `idle`: codeword periods for which the port has sent nothing but IDLE flits. None is sent under a clock hold. -/
def Dev.reefReq (d : Dev) (k : Nat × Nat) (idle since : Nat) : Dev :=
  if d.portUp k && (d.portLn k).reef == .none && d.portIdle k && decide (d.getF F.PRT_PORT_REEF_IDLE [k.1, k.2] ≤ idle) && d.reefFree k since
      && !d.reefHeld k then
    (d.setPortLn k { d.portLn k with reef := .asked, wake := false, reefAt := d.clk.now }).sendCtrlAll k .reefReq 0 d.seqNow
  else d

/-- The agreement point (R165). -/
def Dev.reefAgreed (d : Dev) (k : Nat × Nat) : Dev := d.setPortLn k { d.portLn k with reef := .entering, wake := false, reefAt := d.clk.now }

/-- RX_REEF_REQ: a side that has itself asked takes it as REEF_ACK; otherwise it answers REEF_ACK or REEF_NAK. -/
def Dev.rxReefReq (d : Dev) (k : Nat × Nat) (since : Nat) : Dev :=
  if d.portUp k then
    match (d.portLn k).reef with
    | .asked => d.reefAgreed k
    | .none => if d.reefFree k since then (d.reefAgreed k).sendCtrlAll k .reefAck 0 d.seqNow else d.sendCtrlAll k .reefNak 0 d.seqNow
    | _ => d
  else d

/-- RX_REEF_ACK: the requester's agreement point. -/
def Dev.rxReefAck (d : Dev) (k : Nat × Nat) : Dev := if d.portUp k && (d.portLn k).reef == .asked then d.reefAgreed k else d

/-- The request is refused and held flits resume. -/
def Dev.reefRefused (d : Dev) (k : Nat × Nat) : Dev :=
  if (d.portLn k).reef = .asked then d.setPortLn k { d.portLn k with reef := .none, wake := false } else d

/-- RX_REEF_NAK. -/
def Dev.rxReefNak (d : Dev) (k : Nat × Nat) : Dev := d.reefRefused k

/-- REEF_NO_ANSWER after 64 periods. -/
def Dev.reefNoAnswer (d : Dev) (k : Nat × Nat) : Dev :=
  if (d.portLn k).reefAt + periodUnits 64 ≤ d.clk.now then d.reefRefused k else d

/-- REEF_ENTRY_DONE: the lanes read REEFED, unless a wake trigger has come (R165, R167). A clock hold on a lane's island defers it
(R59) (DEDUCED, log 51). -/
def Dev.reefEntered (d : Dev) (k : Nat × Nat) : Dev :=
  if (d.portLn k).reef = .entering ∧ !d.reefHeld k then
    let d := (d.liveCircuits k).foldl (fun d l => d.toState k.1 l 6) d
    let w := (d.portLn k).wake
    let d := (d.setPortLn k { d.portLn k with reef := .reefed }).raise F.PRT_PORT_STAT_REEFED [k.1, k.2]
    if w then d.reefExit k else d
  else d

/-- Data resumes: the lanes of a waking port are ACTIVE again. -/
def Dev.wakeDone (d : Dev) (k : Nat × Nat) : Dev :=
  let d := (d.liveCircuits k).foldl (fun d l => if d.laneState k.1 l = 7 then d.toState k.1 l 5 else d) d
  d.setPortLn k { d.portLn k with reef := .none, wake := false }

/-- A trigger of R166 holds on this side: something to send, a lane-set change, or a TC0 window that opens within 120 ns, 192 pipeline
cycles. -/
def Dev.wakeDue (d : Dev) (k : Nat × Nat) (since : Nat) : Bool := !d.portIdle k || !(d.portLn k).settled || d.windowWithin k since 192

/-- REEF_WAKE: a trigger on this side starts exit; of a waking port, the period boundary at which data resumes. -/
def Dev.reefWake (d : Dev) (k : Nat × Nat) (since : Nat) : Dev :=
  if (d.portLn k).reef = .waking then d.wakeDone k else if d.wakeDue k since then d.wakePort k else d

/-- WAKE_BURST_DETECT: the peer's burst is a trigger. -/
def Dev.wakeBurst (d : Dev) (k : Nat × Nat) : Dev := d.wakePort k

end Sys2Proof.Machine
end

