-- ==== Sys2Proof/Machine/Clock.lean ====
section
/-!
DEFINITION. Clocks, islands, Hoist and fabric time (02), and the run anchor (R74, R93). A row whose enabling condition
fails leaves the device unchanged (log 2).
-/
namespace Sys2Proof.Machine

/-! ## PLL lock and Hoist (R61–R63) -/

/-- The lock bit of die `n` in MST_PLL_LOCK, as a field and a bit of it. -/
def lockBit (n : DieNo) : Field × Nat :=
  match dieClass n with
  | (1, _) => (F.MST_PLL_LOCK_MAST, 0)
  | (2, y) => (F.MST_PLL_LOCK_YARD, y)
  | (3, p) => (F.MST_PLL_LOCK_PORT, p)
  | (4, s) => (F.MST_PLL_LOCK_SAIL, s)
  | (_, k) => (F.MST_PLL_LOCK_BASE, k)

/-- Die `n` reports lock. -/
def Dev.locked (d : Dev) (n : DieNo) : Bool := d.bitF (lockBit n).1 [] (lockBit n).2

/-- Set or clear a lock bit. -/
def Dev.setLocked (d : Dev) (n : DieNo) (v : Bool) : Dev :=
  if v then d.setBitF (lockBit n).1 [] (lockBit n).2 else d.clrBitF (lockBit n).1 [] (lockBit n).2

/-- MST_PLL_LOCK reads 0x01FF_FFFF. -/
def Dev.allLocked (d : Dev) : Bool := (List.range 25).all d.locked

/-- PLL_LOCK of die `n`: in Hoist, within the 100 µs of R62, the last one fixes L; a die in a die reset, or out of service with
its PLL lost, locks again later. -/
def Dev.pllLock (d : Dev) (n : DieNo) : Dev :=
  match d.clk.phase with
  | .locking =>
    if d.locked n ∨ d.clk.timeZero + us 100 < d.clk.now then d
    else
      let d := d.setLocked n true
      if d.allLocked then { d with clk := { d.clk with lastLock := d.clk.now } } else d
  | .running => if n ≠ 0 ∧ (13 ≤ n → n < 17 → (nget? d.pwr.ratio [n - 13]).isNone) then d.setLocked n true else d
  | _ => d

/-- Islands of units in service: every island but those of matrix cores and near-memory engines fused or taken out, and
of dies out of service (R61 step 6); host port islands wait for their PERST (R102). -/
def Dev.islandInService (d : Dev) (g : Nat) : Bool :=
  let n := islandDie g
  let l := g - (dieIslands n).1
  d.dieOk n &&
    (match dieClass n with
     | (1, _) => !(1 ≤ l && l ≤ 4) || nget false d.host.perst [l - 1]
     | (4, s) => 64 ≤ l || d.bitF F.SAL_CORE_OK_CORES [s] l
     | (5, k) => 16 ≤ l || d.bitF F.BSE_VEC_OK_ENG [k] l
     | _ => true)

/-- Release the islands of die `n` that are in service; a port die's circuits then take their positions (DEDUCED, log 10). -/
def Dev.releaseDie (d : Dev) (n : DieNo) : Dev :=
  let r := dieIslands n
  let d := (List.range r.2).foldl (fun d i => if d.islandInService (r.1 + i) then d.startIsland (r.1 + i) else d) d
  if 5 ≤ n ∧ n ≤ 12 then d.laneAssign (n - 5) else d

/-- PLL_TIMEOUT: die `n` has not locked 100 µs after time zero. No island outside the Mast is released; the Mast's own
are, when its own PLL has locked (DEDUCED, log 10). -/
def Dev.pllTimeout (d : Dev) (n : DieNo) : Dev :=
  if d.clk.phase = .locking ∧ !d.locked n ∧ d.clk.timeZero + us 100 ≤ d.clk.now then
    let d := (d.setF F.MST_HOIST_STAT_FAIL [] 1).setF F.MST_HOIST_STAT_FAIL_DIE [] n
    let d := ({ d with clk := { d.clk with phase := .pllFailed } } : Dev).fault 0 .hoistFail
    if d.locked 0 then d.releaseDie 0 else d
  else d

/-- HOIST_SYNC (step 4 and 5) (DESIGN CHOICE, log 2). -/
def Dev.hoistSync (d : Dev) : Dev :=
  if d.clk.phase = .locking ∧ d.allLocked ∧ d.clk.lastLock + us 1 ≤ d.clk.now then
    { d with clk := { d.clk with phase := .synced, frame := 0, fabRun := true } }.setF F.FAB_TIME_TIME [] 0
  else d

/-- ISLAND_RESET_RELEASE at frame 25; `miss`: how many crossings of each die will miss their alignment check (step 6, 7)
(DESIGN CHOICE, log 6). -/
def Dev.islandRelease (d : Dev) (miss : List (Nat × Nat)) : Dev :=
  if d.clk.phase = .synced ∧ 25 ≤ d.clk.frame then
    let d := (List.range 25).foldl Dev.releaseDie d
    let d := { d with clk := { d.clk with phase := .released, freeX := miss.foldl (fun (m : NMap Nat) (x : Nat × Nat) => nput 0 m [x.1] x.2) [] } }
    { d with host := { d.host with upSince := (List.range 4).foldl (fun m x => if nget false d.host.perst [x] then nset m [x] d.clk.now else m) [] } }
  else d

/-- Crossings free in the whole device (DESIGN CHOICE, log 6). -/
def Dev.freeTotal (d : Dev) : Nat := (d.clk.freeX.map (·.2)).sum

/-- HOIST_DONE at frame 33 (step 8) (DESIGN CHOICE, log 6). -/
def Dev.hoistDone (d : Dev) : Dev :=
  if d.clk.phase = .released ∧ 33 ≤ d.clk.frame then
    let d := (d.raise F.MST_HOIST_STAT_DONE).setF F.MST_HOIST_STAT_FREE_XING [] d.freeTotal
    ({ d with clk := { d.clk with phase := .running } } : Dev).heldStart
  else d

/-- Count `k` choices of one cause at once. -/
def Dev.tdcN (d : Dev) (c : Tdc) (unit k : Nat) : Dev :=
  if k = 0 then d
  else ((d.tdc c unit).addWrap F.MST_TDC_TOTAL_TOTAL [] (k - 1)).addSat F.MST_TDC_CNT_COUNT [c.code] (k - 1)

/-- A die's frame counter disagrees with a mark: all its crossings become free, each counted (R63, R79) (DESIGN CHOICE, log
6). -/
def Dev.frameSlip (d : Dev) (n : DieNo) : Dev :=
  let was := nget 0 d.clk.freeX [n]
  let d := ((d.raise F.MST_CLK_STAT_FRAME_SLIP).setF F.MST_CLK_STAT_SLIP_DIE [] n).fault 0 .frameSlip
  let d := { d with clk := { d.clk with freeX := nput 0 d.clk.freeX [n] (max was (Config.crossings n)) } }
  let d := d.setF F.MST_HOIST_STAT_FREE_XING [] d.freeTotal
  (d.tdcN .freeXing (dieUnit n) (Config.crossings n - was)).heldStart

/-- HOIST_SYNC_MARK on a frame that is a multiple of 256, from the first on; `slips`: the dies whose counters disagree. They
report in one cycle, so the first choice is the one with the lowest tackle id, and dies in rising number have rising ids (R80).
Marks stop while headless (R476). -/
def Dev.hoistMark (d : Dev) (slips : List Nat) : Dev :=
  if d.clk.phase = .running ∧ d.clk.frame % 256 = 0 ∧ 256 ≤ d.clk.frame ∧ !d.headless then
    ((List.range 25).filter (fun n => slips.contains n && d.dieOk n)).foldl Dev.frameSlip d
  else d

/-! ## Islands (R55, R58–R60) -/

/-- Report the end of an access that waited at an island. -/
def Dev.accessEnd (d : Dev) (a : HeldAccess) (st : Status) (v : Nat) : Dev :=
  match a.via with
  | .ind x =>
    if d.flag F.HST_IND_STAT_BUSY [x] then
      let d := (d.clear F.HST_IND_STAT_BUSY [x]).setF F.HST_IND_STAT_STATUS [x] st.code
      if a.write then d else d.setF F.HST_IND_DATA_DATA [x] v
    else d
  | .mmio =>
    match a.iss with
    | .pf x => if a.write then d else d.emit (.mmio x v)
    | .vf x _ => if a.write then d else d.emit (.mmio x v)
    | _ => d
  | .plan => d
  | .jtag => if d.jtag.busy then { d with jtag := { d.jtag with busy := false, status := st.code, data := if a.write then d.jtag.data else v } } else d

/-- Aperture accesses that wait at the islands `p` selects end: reads return zero (R553). -/
def Dev.dropApers (d : Dev) (p : Nat → Bool) : Dev :=
  let gone := d.clk.heldAper.filter (fun a => p a.g)
  let d := { d with clk := { d.clk with heldAper := d.clk.heldAper.filter (fun a => !p a.g) } }
  gone.foldl (fun d a => if a.write then d else d.emit (.mmio a.x 0)) d

/-- RESET_INDICATOR_ASSERT: the receiving side, on die `n`, of a crossing to island `g` in reset: what it had forwarded
completes with UNIT_RESET, and the `k` replies that still arrive are discarded and counted (R55). -/
def Dev.resetIndicator (d : Dev) (n : DieNo) (g k : Nat) : Dev :=
  if d.islandInReset g then
    let mine := d.clk.held.filter (fun a => regIsland a.reg a.idx == g)
    let d := { d with clk := { d.clk with held := d.clk.held.filter (fun a => regIsland a.reg a.idx != g) } }
    ((mine.foldl (fun d a => d.accessEnd a .unitReset 0) d).dropApers (fun h => h == g)).xingDiscard n k
  else d

/-- The sail whose ratio change stops island `g`: its matrix-core and engine islands (R520). -/
def ratioIsland (g : Nat) : Option Nat :=
  if 1120 ≤ g ∧ g < 1384 ∧ (g - 1120) % 66 < 65 then some ((g - 1120) / 66) else none

/-- The lane circuit of island `g`: port die and circuit. -/
def laneIsland (g : Nat) : Option (Nat × Nat) :=
  if 32 ≤ g ∧ g < 1120 ∧ (g - 32) % 136 < 132 then some ((g - 32) / 136, (g - 32) % 136) else none

/-- Island `g` is due to stop without reset: a REEFED lane, or an island of a sail that changes its ratio (DEDUCED, log 51). -/
def Dev.stopDue (d : Dev) (g : Nat) : Bool :=
  (match laneIsland g with
   | some (p, l) => d.laneState p l == 6
   | none => false) ||
    (match ratioIsland g with
     | some s => (nget? d.pwr.ratio [s]).isSome
     | none => false)

/-- No hold covers an island of sail `s` that a ratio change would stop. -/
def Dev.sailFree (d : Dev) (s : Nat) : Bool := (List.range 65).all (fun l => !d.islandHeldOn (1120 + 66 * s + l))

/-- ISLAND_CLOCK_STOP: the clock-on bit clears and the clock stops, unless a hold defers it (R58, R59). A ratio change
starts once no hold covers any island of the sail; with the first island the sail's PLL unlocks to relock (R520) (DEDUCED,
log 51). -/
def Dev.islandStop (d : Dev) (g : Nat) : Dev :=
  if d.islandOn g && d.stopDue g && !d.islandHeldOn g then
    match ratioIsland g with
    | some s =>
      match nget? d.pwr.ratio [s] with
      | some (r, started) =>
        if started || d.sailFree s then
          ({ d with pwr := { d.pwr with ratio := nset d.pwr.ratio [s] (r, true) } }.setLocked (13 + s) false).stopIsland g
        else d
      | none => d
    | none => d.stopIsland g
  else d

/-- A write of MST_CLK_HOLD_i: when each bit was set starts its 10 ms (R60). -/
def Dev.holdWrite (d : Dev) (i v : Nat) : Dev :=
  let old := d.getF F.MST_CLK_HOLD_HOLD [i]
  let v := if i = 47 then v % 65536 else v
  let d := d.setF F.MST_CLK_HOLD_HOLD [i] v
  let s := (List.range 32).foldl (fun m b =>
    if bit v b then (if bit old b then m else nset m [32 * i + b] d.clk.now) else ndel m [32 * i + b]) d.clk.holdSince
  { d with clk := { d.clk with holdSince := s } }

/-- HOLD_LONG: some hold has been set for more than 10 ms. -/
def Dev.holdLong (d : Dev) : Dev :=
  if d.clk.holdSince.any (fun h => decide (h.2 + ms 10 < d.clk.now)) then d.raise F.MST_CLK_STAT_HOLD_LONG else d

/-! ## Fabric time (R64–R67) -/

/-- Change every copy of fabric time by a two's-complement step, counted (R65). -/
def Dev.stepTime (d : Dev) (v : Nat) : Dev :=
  (d.setF F.FAB_TIME_TIME [] (d.fabTime + v)).addWrap F.FAB_STAT_STEP_CNT [] 1

/-- FAB_CTRL.ROOT makes the device aligned at once (R67). -/
def Dev.rootAlign (d : Dev) : Dev := if d.flag F.FAB_CTRL_ROOT then d.raise F.FAB_STAT_ALIGNED else d

/-- FABRIC_TIME_STEP: the oldest FAB_STEP takes effect at the frame start; with AUTO_STEP 0 and an accepted parent exchange
it sets ALIGNED (R65, R67). None while headless (R476). -/
def Dev.timeStep (d : Dev) : Dev :=
  match d.clk.steps with
  | [] => d
  | v :: rest =>
    if d.clk.fabRun && !d.headless then
      let d := ({ d with clk := { d.clk with steps := rest } } : Dev).stepTime v
      if !d.flag F.FAB_CTRL_AUTO_STEP && d.clk.parentSeen then d.raise F.FAB_STAT_ALIGNED else d
    else d

/-- AUTO_STEP_ALIGN at the next frame start after the first accepted parent exchange. -/
def Dev.autoStep (d : Dev) : Dev :=
  match d.clk.autoStep with
  | none => d
  | some o =>
    if d.clk.fabRun && !d.headless && d.flag F.FAB_CTRL_AUTO_STEP then
      (({ d with clk := { d.clk with autoStep := none } } : Dev).stepTime o).raise F.FAB_STAT_ALIGNED
    else d

/-! ### Time exchange (R66, R189, R190). Stamps are in 1/256 unit. -/

/-- The block of a TIMEX flit. -/
def timexBlock (kind aligned exch send echo : Nat) : List Byte :=
  leBytes 1 kind ++ leBytes 1 aligned ++ leBytes 2 exch ++ leBytes 4 0 ++ leBytes 8 (send / 256) ++ leBytes 1 (send % 256)
    ++ leBytes 7 0 ++ leBytes 8 (echo / 256) ++ leBytes 1 (echo % 256) ++ leBytes 207 0

/-- The exchange state of a port. -/
def Dev.timexOf (d : Dev) (k : Nat × Nat) : Timex := nget ⟨0, 0, 0, 0, false, false⟩ d.clk.timex [k.1, k.2]

/-- Replace it. -/
def Dev.setTimex (d : Dev) (k : Nat × Nat) (x : Timex) : Dev :=
  { d with clk := { d.clk with timex := nset d.clk.timex [k.1, k.2] x } }

/-- An exchange is due: none since port up, 65,536 frames after the last, or 1,024 frames after a lost one. -/
def Dev.timexDue (d : Dev) (k : Nat × Nat) : Bool :=
  match nget? d.clk.timex [k.1, k.2] with
  | none => true
  | some x => !x.waiting && (if x.done then decide (x.sentAt + 65536 * frameUnits ≤ d.clk.now) else decide (x.lostAt + 1024 * frameUnits ≤ d.clk.now))

/-- Queue a block for the port's next flit slot. -/
def Dev.queueTimex (d : Dev) (k : Nat × Nat) (b : List Byte) : Dev :=
  d.setLink k { d.link k with timex := (d.link k).timex ++ [b] }

/-- TIMEX_REQUEST_SEND: the block, with the EXCH_ID `e` that the port chooses (DESIGN CHOICE, log 42), waits for a flit slot, which
stamps it with t1. -/
def Dev.timexRequest (d : Dev) (k : Nat × Nat) (e : Nat) : Dev :=
  if d.portUp k && d.peerFeat k 1 && d.timexDue k then
    (d.setTimex k ⟨e, 0, d.clk.now, 0, true, false⟩).queueTimex k (timexBlock 1 (d.getF F.FAB_STAT_ALIGNED) e 0 0)
  else d

/-- TIMEX_REQUEST_RECEIVE: a request's block, whose codeword arrived `ago` frames before, `sym` symbol periods into its frame (t2); the
reply's flit slot stamps it with t3. -/
def Dev.timexReceive (d : Dev) (k : Nat × Nat) (b : List Byte) (ago sym : Nat) : Dev :=
  if d.portUp k && d.peerFeat k 1 && leAt b 0 1 == 1 then
    d.queueTimex k (timexBlock 2 (d.getF F.FAB_STAT_ALIGNED) (leAt b 2 2) 0 (d.stampAt ago sym))
  else d

/-- A rational with denominator `n`, rounded to the nearest integer with ties to even. -/
def roundEven (v : Int) (n : Nat) : Int :=
  let q := v / n
  let r := v % n
  if 2 * r < n then q else if (n : Int) < 2 * r then q + 1 else if q % 2 = 0 then q else q + 1

/-- Offset and delay of R66 in whole units from stamps in 1/256 unit and the asymmetry in units. -/
def timexValues (t1 t2 t3 t4 asym : Int) : Int × Int :=
  (roundEven ((t2 - t1) - (t4 - t3) - 256 * asym) 512, roundEven ((t2 - t1) + (t4 - t3)) 512)

/-- Difference of two stamps of a 64-bit count that wraps, in 1/256 unit. -/
def stampDiff (a b : Nat) : Int := toSigned 72 (a + 2 ^ 72 - b % 2 ^ 72)

/-- The parent port of the time tree (R67). -/
def Dev.isParent (d : Dev) (k : Nat × Nat) : Bool :=
  d.flag F.FAB_CTRL_PARENT_VALID && d.getF F.FAB_CTRL_PARENT_DIE == k.1 && d.getF F.FAB_CTRL_PARENT_ENG == k.2

/-- TIMEX_REPLY_RECEIVE: a reply's block, whose codeword arrived `ago` frames before, `sym` symbol periods into its frame (t4) (DEDUCED,
log 64). -/
def Dev.timexReply (d : Dev) (k : Nat × Nat) (b : List Byte) (ago sym : Nat) : Dev :=
  let x := d.timexOf k
  let t4 := d.stampAt ago sym
  if d.portUp k && x.waiting && leAt b 0 1 == 2 && leAt b 2 2 == x.exch then
    let i := [k.1, k.2]
    let t3 := leAt b 8 8 * 256 + leAt b 16 1
    let t2 := leAt b 24 8 * 256 + leAt b 32 1
    -- differences keep the sums of R66: (t2 − t1) and (t4 − t3)
    let v := timexValues 0 (stampDiff t2 x.t1) 0 (stampDiff t4 t3) (toSigned 32 (d.getF F.FAB_ASYM_ASYM i))
    let old := toSigned 64 (d.getF F.FAB_PEER_OFS_OFS i)
    let first := !d.clk.peers.contains (k.1 * 32 + k.2)
    let d := if !first && decide (2 < (v.1 - old).natAbs) then d.raise F.FAB_STAT_DRIFT else d
    let d := (d.setF F.FAB_PEER_OFS_OFS i (ofSigned 64 v.1)).setF F.FAB_PEER_DLY_DLY i (ofSigned 32 v.2)
    let d := d.setTimex k { x with waiting := false, done := true }
    let d := { d with clk := { d.clk with peers := if first then d.clk.peers ++ [k.1 * 32 + k.2] else d.clk.peers } }
    if d.isParent k && leAt b 1 1 % 2 == 1 then
      let seen := d.clk.parentSeen
      let d := { d with clk := { d.clk with parentSeen := true } }
      if d.flag F.FAB_CTRL_AUTO_STEP && !seen && !d.flag F.FAB_STAT_ALIGNED then
        { d with clk := { d.clk with autoStep := some (ofSigned 64 v.1) } }
      else d
    else d
  else d

/-- TIMEX_LOST: no REPLY within 4 µs. -/
def Dev.timexLost (d : Dev) (k : Nat × Nat) : Dev :=
  let x := d.timexOf k
  if x.waiting && decide (x.sentAt + us 4 ≤ d.clk.now) then
    (d.setTimex k { x with waiting := false, lostAt := d.clk.now }).incSat F.PRT_LNK_TIMEX_LOST_COUNT [k.1, k.2]
  else d

/-! ## The run anchor (R74, R93) -/

/-- An anchor is armed or replaced: dispatch is held from reference time `t` on, and released at a later frame start than this
one (R74). An anchor that is pending already goes on holding. -/
def Dev.anchorArm (d : Dev) (t : Nat) : Dev :=
  { d with eng := { d.eng with anchorFrom := some (d.eng.anchorFrom.getD t), anchorAt := d.clk.now } }

/-- A write of MST_DET_ANCHOR: ANCHOR_PASSED reads 0, and while ANCHOR_EN = 1 the new anchor replaces a pending one, or holds
dispatch from the next frame start on after a release (R74, R93). -/
def Dev.anchorWrite (d : Dev) : Dev :=
  let d := d.clear F.MST_DET_STAT_ANCHOR_PASSED
  if d.flag F.MST_DET_CTRL_ANCHOR_EN then d.anchorArm (d.clk.now + frameUnits) else d

/-- A write of ANCHOR_EN, which was `was`: setting it holds dispatch at once; clearing it lets held dispatch go at the next
frame start; writing it again replaces a pending anchor and arms none after a release (R74). -/
def Dev.anchorEnable (d : Dev) (was : Bool) : Dev :=
  if d.flag F.MST_DET_CTRL_ANCHOR_EN && (!was || d.eng.anchorFrom.isSome) then d.anchorArm d.clk.now
  else if was then { d with eng := { d.eng with anchorAt := d.clk.now } }
  else d

/-- ANCHOR_RELEASE at a frame start after the last write of the anchor: fabric time has reached it, or ANCHOR_EN was cleared. -/
def Dev.anchorRelease (d : Dev) : Dev :=
  if d.anchorHolds ∧ d.eng.anchorAt < d.clk.now then
    if d.flag F.MST_DET_CTRL_ANCHOR_EN then
      if d.getF F.MST_DET_ANCHOR_ANCHOR ≤ d.fabTime then
        ({ d with eng := { d.eng with anchorFrom := none } } : Dev).raise F.MST_DET_STAT_ANCHOR_PASSED
      else d
    else { d with eng := { d.eng with anchorFrom := none } }
  else d

/-- DET_CLR. -/
def Dev.detClear (d : Dev) : Dev :=
  let d := ((d.setF F.MST_TDC_TOTAL_TOTAL [] 0).clear F.MST_DET_STAT_TDC_ANY).setF F.MST_TDC_FIRST_TIME [] 0
  let d := (d.setF F.MST_TDC_FIRST_SRC_CAUSE [] 0).setF F.MST_TDC_FIRST_SRC_TACKLE [] 0
  (List.range 16).foldl (fun d c => d.setF F.MST_TDC_CNT_COUNT [c] 0) d

end Sys2Proof.Machine
end

