-- ==== Sys2Proof/Machine/Control.lean ====
section
/-!
DEFINITION. COMMAND_DEQUEUE, COMMAND_DISPATCH, COMMAND_COMPLETE and the common opcodes (R366–R369, R381–R383,
R408–R412), digest windows (R82–R92, R413), claims on banks (R356, R357), and stream programs (R384–R387, R414–R418).
-/
namespace Sys2Proof.Machine

/-! ## Dequeue (R124–R128, R367) -/

/-- The command ring that queue `q` of tackle `t` dequeues from next: of the rings bound to it that hold covered commands, the one bound
first, since one that drains may stand before an ARMED one (DEDUCED, log 60). -/
def Dev.ringOf (d : Dev) (t q : Nat) : Option (List Nat × RingBind) :=
  (d.host.binds.filter (fun b => b.2.tackle == t && b.2.queue == q
      && d.getF F.HST_CR_COUNT_CONSUMED b.1 != d.getF F.HST_CR_COUNT_PRODUCED b.1)).foldl
    (fun m b => match m with
      | none => some b
      | some a => if b.2.num < a.2.num then some b else some a) none

/-- Tackle `t` can dequeue into queue `q`: room, not halted, its island running and out of reset; none while headless. -/
def Dev.canDequeue (d : Dev) (t q : Nat) : Bool :=
  !d.headless && !d.halted t q && (d.queue t q).length < 4 && !d.tckInReset t && (d.unitOut t || d.islandOn (tackleIsland t))

/-- The ring's last covered command was dequeued while it drains: its slots return and it is DISARMED (R128). -/
def Dev.drainDone (d : Dev) (i : List Nat) : Dev :=
  if d.getF F.HST_CR_STAT_STATE i = 2 ∧ d.getF F.HST_CR_COUNT_CONSUMED i = d.getF F.HST_CR_COUNT_PRODUCED i then
    let d := d.setF F.HST_CR_STAT_STATE i 0
    { d with host := { d.host with binds := ndel d.host.binds i, slots := d.host.slots.filter (fun s => s.1.take 3 != i) } }
  else d

/-- Contents of an unpushed ring slot: opcode 0xFF (R133). -/
def emptySlot : List Byte := List.replicate 32 0xFF#8

/-- COMMAND_DEQUEUE (R367, R393). -/
def Dev.dequeue (d : Dev) (t q : Nat) : Dev :=
  match d.ringOf t q with
  | none => d
  | some (i, b) =>
    let c := d.getF F.HST_CR_COUNT_CONSUMED i
    let s := d.getF F.HST_CR_STAT_STATE i
    if d.canDequeue t q && (s == 1 || s == 2) && c != d.getF F.HST_CR_COUNT_PRODUCED i then
      let l := nget emptySlot d.host.slots (i ++ [c % b.size])
      if d.digStall t q (d.partOf t q) then d
      else if !d.ptrsOk 0 i then d.ringCheck 0 i
      else (((d.enqueue t q l (some (ix i 0, ix i 1, ix i 2)) (d.broken (5 :: i ++ [c % b.size]))).mended (5 :: i ++ [c % b.size])).setPtrs 0 i (c + 1)
        (d.getF F.HST_CR_COUNT_PRODUCED i)).drainDone i
    else d

/-! ## Commands that complete at the head of their queue -/

/-- Every earlier command of the queue has completed. -/
def Dev.queueIdle (d : Dev) (t q : Nat) : Bool := (d.tck t).runs.all (fun r => r.queue != q)

/-- NOP completes at dispatch (R369). -/
def Dev.runNop (d : Dev) (t q : Nat) : Dev :=
  match d.headNow t q 0 with
  | some c => d.atOnce t q c (Report.of .ok)
  | none => d

/-- FENCE completes when every earlier command of its queue has (R369). -/
def Dev.runFence (d : Dev) (t q : Nat) : Dev :=
  match d.queue t q with
  | c :: _ =>
    if opcode c.bytes = 1 && c.waitAt.isSome && d.tckRuns t && d.queueIdle t q && !d.traceStall t q false then
      (d.popQueue t q).finish t q c (Report.of .ok) true
    else d
  | [] => d

/-- The condition of a WAIT: counter minus v, as a signed 32-bit number, is zero or more (R383). -/
def Dev.waitHolds (d : Dev) (l : List Byte) : Bool :=
  decide (0 ≤ toSigned 32 (d.ctr (leAt l 4 2) (cbits l 6 0 4) + 2 ^ 32 - leAt l 8 4))

/-- WAIT completes in a cycle of its sequencer's island in which its condition holds, and with UNIT_RESET when the sequencer is gone
(R383). -/
def Dev.runWait (d : Dev) (t q : Nat) : Dev :=
  match d.queue t q with
  | c :: _ =>
    if opcode c.bytes = 2 && c.waitAt.isSome && d.tckRuns t && !d.traceStall t q false then
      if d.seqStopped (leAt c.bytes 4 2) then d
      else if !d.seqAlive (leAt c.bytes 4 2) then (d.popQueue t q).finish t q c (Report.of .unitReset) true
      else if d.waitHolds c.bytes then (d.popQueue t q).finish t q c (Report.of .ok) true
      else d
    else d
  | [] => d

/-- WAIT_TIMEOUT: T ≠ 0 microseconds have passed since the dispatch and the condition is still false (R383). -/
def Dev.waitTimeout (d : Dev) (t q : Nat) : Dev :=
  match d.queue t q with
  | c :: _ =>
    let T := leAt c.bytes 12 2
    match c.waitAt with
    | some w =>
      if opcode c.bytes = 2 && T != 0 && decide (w + us T ≤ d.clk.now) && d.seqAlive (leAt c.bytes 4 2) && !d.waitHolds c.bytes
          && d.tckRuns t && !d.traceStall t q false then
        (d.popQueue t q).finish t q c (Report.of .timeout) true
      else d
    | none => d
  | [] => d

/-- SIGNAL adds to a counter after its queue's earlier commands, and completes when the counter's island has taken the addition: it waits
while that is stopped, and completes with UNIT_RESET when the target is in reset (R58, R382). -/
def Dev.runSignal (d : Dev) (t q : Nat) : Dev :=
  match d.headNow t q 3 with
  | some c =>
    let s := leAt c.bytes 4 2
    if d.seqStopped s then d
    else if d.seqAlive s then (d.ctrAdd s (cbits c.bytes 6 0 4) (leAt c.bytes 8 2)).atOnce t q c (Report.of .ok)
    else d.atOnce t q c (Report.of .unitReset)
  | none => d

/-- The marker record of R503. -/
def markRec (d : Dev) (t q : Nat) (c : Cmd) : List Byte :=
  leBytes 4 32 ++ leBytes 1 0x43 ++ leBytes 1 (cbits c.bytes 8 0 2) ++ leBytes 2 t ++ leBytes 1 q ++ leBytes 3 0
    ++ leBytes 4 c.index ++ leBytes 8 d.fabTime ++ takeAt c.bytes 4 4 ++ leBytes 4 0

/-- MARK completes at dispatch; with MARK_EN its marker record replaces the BEGIN and END records (R409, R498, R503). -/
def Dev.runMark (d : Dev) (t q : Nat) : Dev :=
  match d.headNow t q 4 with
  | some c =>
    if d.flag F.TRC_Q_MARK_EN [traceDie t, q] then
      ((d.traceRec (traceDie t) (d.traceRing t q) (markRec d t q c) none).popQueue t q |>.setLast t q).finish t q c (Report.of .ok) false
    else d.atOnce t q c (Report.of .ok)
  | none => d

/-- HALT completes at once and sets its queue HALTED (R369). -/
def Dev.runHalt (d : Dev) (t q : Nat) : Dev :=
  match d.headNow t q 0x7F with
  | some c => (d.atOnce t q c (Report.of .ok)).setHalt t q true
  | none => d

/-! ## Claims on banks (R356, R357) -/

/-- Sail or base die, die index and bank of an address inside a bank. -/
def bankOf (a : Nat) : Option (Bool × Nat × Nat) :=
  match place a with
  | .sail s b => some (true, s, b)
  | .base n b => some (false, n, b)
  | _ => none

/-- Take a claim; it is resolved with the others of its cycle. -/
def Dev.addClaim (d : Dev) (c : CleatClaim) : Dev := { d with bank := { d.bank with claims := d.bank.claims ++ [c] } }

/-- HANDOVER (R356): the current owner must admit the command; then the claim waits to be resolved. -/
def Dev.handover (d : Dev) (t k : Nat) : Dev :=
  d.effect t k (· == 7) (fun d r =>
    match bankOf (leAt r.cmd.bytes 8 6) with
    | some (sail, die, b) =>
      if d.bank.claims.any (fun c => c.run == some (t, r.cmd.uid)) then (d, r)
      else if d.admits (d.bankOwner sail die b) (r.writer t) then
        (d.addClaim ⟨sail, die, b, cb r.cmd.bytes 4, r.cmd.hp, false, t, some (t, r.cmd.uid)⟩, r)
      else (d, { r with status := some .owner })
    | none => (d, { r with status := some .reservedOp }))

/-- Precedence of a claim (R357), smallest first: the helm host's register write, helm claims, partition letter, tackle. -/
def claimRank (helm : Nat) (c : CleatClaim) : List Nat :=
  [b2n (c.part != helm), b2n (!c.helmWrite), c.part, c.tackle]

/-- The winner of the claims on one register (DEDUCED, log 65). -/
def claimWinner (helm : Nat) : List CleatClaim → Option CleatClaim
  | [] => none
  | c :: l => match claimWinner helm l with
    | none => some c
    | some w => if lexLt (claimRank helm w) (claimRank helm c) then some w else some c

/-- Report a resolved claim to its command: LOST carries the winner's owner id. A PLAN keeps its first LOST until its last
entry is applied (DEDUCED, log 65). -/
def Dev.claimReport (d : Dev) (c : CleatClaim) (won : Bool) (owner : Nat) : Dev :=
  match c.run with
  | none => d
  | some (t, uid) =>
    match (d.tck t).runs.find? (fun r => r.cmd.uid == uid) with
    | none => d
    | some r =>
      if opcode r.cmd.bytes = 7 then d.setRun t { r with status := some (if won then .ok else .lost), detail := if won then r.detail else owner }
      else if won || r.lost.isSome then d
      else d.setRun t { r with lost := some owner }

/-- Status of partition `x` in a cleat status register. -/
def Dev.setClaimStat (d : Dev) (sail : Bool) (i : List Nat) (x v : Nat) : Dev :=
  let f := match sail, x with
    | true, 0 => F.SAL_CLEAT_STATUS_STATUS_A | true, 1 => F.SAL_CLEAT_STATUS_STATUS_B
    | true, 2 => F.SAL_CLEAT_STATUS_STATUS_C | true, _ => F.SAL_CLEAT_STATUS_STATUS_D
    | false, 0 => F.BSE_CLEAT_STATUS_STATUS_A | false, 1 => F.BSE_CLEAT_STATUS_STATUS_B
    | false, 2 => F.BSE_CLEAT_STATUS_STATUS_C | false, _ => F.BSE_CLEAT_STATUS_STATUS_D
  if x < 4 then d.setF f i v else d

/-- CLEAT_CLAIM_RESOLVE of one bank: the claims that wait there resolve against each other, once every write granted before them has
completed (R357). A choice among them may be a tie that a free crossing decided (R79) (DEDUCED, logs 16, 65). -/
def Dev.resolveClaims (d : Dev) (sail : Bool) (die b : Nat) : Dev :=
  let here := fun (c : CleatClaim) => c.sail == sail && c.die == die && c.bank == b
  let cs := d.bank.claims.filter here
  let span := bankRange sail die b
  match claimWinner d.clk.helm cs with
  | none => d
  | some w =>
    if d.grantedInto span.1 span.2 then d
    else
    let d := d.freeTie (if sail then 13 + die else 17 + die) cs.length
    let d := { d with bank := { d.bank with claims := d.bank.claims.filter (fun c => !here c) } }
    let i := [die, b]
    let old := d.bankOwner sail die b
    let d := if sail then
        (((d.setF F.SAL_CLEAT_OWNER i w.owner).addWrap F.SAL_CLEAT_EPOCH i 1).setF F.SAL_CLEAT_STATUS_WINNER i w.owner).setF F.SAL_CLEAT_STATUS_PREV i old
      else
        (((d.setF F.BSE_CLEAT_OWNER i w.owner).addWrap F.BSE_CLEAT_EPOCH i 1).setF F.BSE_CLEAT_STATUS_WINNER i w.owner).setF F.BSE_CLEAT_STATUS_PREV i old
    let d := (cs.filter (· ≠ w)).foldl (fun d c => (d.setClaimStat sail i c.part 2).claimReport c false w.owner) d
    ((d.setClaimStat sail i w.part 1).claimReport w true w.owner).protChange .cleat

/-! ## Digest windows (R82–R92) -/

/-- Replace an open window. -/
def Dev.setWindow (d : Dev) (w : Nat) (x : Window) : Dev :=
  { d with eng := { d.eng with windows := nset d.eng.windows [w] x } }

/-- The open windows count in MST_DIG_STAT. -/
def Dev.countWindows (d : Dev) : Dev := d.setF F.MST_DIG_STAT_OPEN_WIN [] d.eng.windows.length

/-- A DIGEST's effect, carried out by the digest engine while that is out of reset (DEDUCED, log 27). -/
def Dev.digestOp (d : Dev) (t k sub : Nat) (f : Dev → Run → Dev × Status) : Dev :=
  if d.tckInReset 0x1001 || !d.islandOn 5 then d
  else d.effect t k (· == 5) (fun d r =>
    if cbits r.cmd.bytes 4 0 4 = sub then
      let x := f d r
      (x.1, { r with status := some x.2 })
    else (d, r))

/-- DIGEST OPEN (R82, R83, R413). -/
def Dev.digestOpen (d : Dev) (t k : Nat) : Dev :=
  d.digestOp t k 0 (fun d r =>
    let l := r.cmd.bytes
    let w := leAt l 6 2
    if (nget? d.eng.windows [w]).isSome ∨ 16 ≤ d.eng.windows.length then (d, .noContext)
    else ((d.setWindow w ⟨leAt l 8 2, cbits l 5 0 4, leAt l 12 4, leAt l 16 4, leAt l 10 2 % 2048, none, 0, d.units, [], [], [], [], [], [0, 0, 0, 0], 0, false, 0, 0⟩).countWindows, .ok))

/-- DIGEST RANGE: at most 8 ranges per class (R83). -/
def Dev.digestRange (d : Dev) (t k : Nat) : Dev :=
  d.digestOp t k 1 (fun d r =>
    let l := r.cmd.bytes
    let cls := cbits l 4 4 2
    match nget? d.eng.windows [leAt l 6 2] with
    | none => (d, .noContext)
    | some w =>
      if 8 ≤ w.ranges.countP (fun x => x.1 == cls) then (d, .noSlot)
      else (d.setWindow (leAt l 6 2) { w with ranges := w.ranges ++ [(cls, leAt l 8 6, leAt l 16 6)] }, .ok))

/-- A window ends its coverage at what was dequeued so far. -/
def Window.endCover (w : Window) (flag : Nat) : Window :=
  { w with queues := w.queues.map (fun x => (x.1, 2)), flags := setBit w.flags flag, closing := true }

/-- DIGEST CLOSE forces a window to close (R85). -/
def Dev.digestClose (d : Dev) (t k : Nat) : Dev :=
  d.digestOp t k 2 (fun d r =>
    match nget? d.eng.windows [leAt r.cmd.bytes 6 2] with
    | none => (d, .noContext)
    | some w => (d.setWindow (leAt r.cmd.bytes 6 2) (w.endCover 1), .ok))

/-- DIGEST HASH: SHA-256 of a region (R82, R413), which the digest engine, tackle 0x1001, reads and so seals. -/
def Dev.digestHash (d : Dev) (t k : Nat) : Dev :=
  d.digestOp t k 3 (fun d r =>
    let l := r.cmd.bytes
    let x := d.load (leAt l 8 6) (leAt l 16 4)
    let d := x.2.feedSealsAs t 0x1001 r false [(leAt l 8 6, leAt l 16 4)]
    let y := d.store (r.writer t) (leAt l 20 6) (sha256 x.1)
    (y.1.feedSealsAs t 0x1001 r true [(leAt l 20 6, 32)], storeStatus y.2))

/-- A unit of tackle `t` is reset: windows whose scope holds it end their coverage with ABORTED, and wait for those of their commands
that the reset hits, `hit` (R85) (DEDUCED, log 27). -/
def Dev.abortWindows (d : Dev) (t : Nat) (hit : List (Nat × Nat)) : Dev :=
  { d with eng := { d.eng with windows := d.eng.windows.map (fun w =>
    if inScope t w.2.scope then (w.1, { w.2.endCover 3 with affected := w.2.affected ++ hit.filter (fun c => w.2.open_.contains c) }) else w) } }

/-- The commands that a reset of tackle `t` ends with UNIT_RESET: those it runs or holds as parts, and those whose stream it carries. -/
def Dev.hitBy (d : Dev) (t : Nat) : List (Nat × Nat) :=
  (d.tck t).runs.map (fun r => r.cmd.parent.getD (t, r.cmd.uid))
    ++ d.eng.tck.flatMap (fun x => (x.2.runs.filter (fun r => (r.stream.map (fun s => s.seq == t && !s.ended)).getD false)).map
        (fun r => r.cmd.parent.getD (ix x.1 0, r.cmd.uid)))

/-- Entries of a stream: 32 bytes for commands, 4 for seals. -/
def entrySize (kind : Nat) : Nat := if kind = 0 then 32 else 4

/-- Streams of one kind, in ascending order of tackle and queue. -/
def Window.kind (w : Window) (kd : Nat) : List (List Nat × List Byte) := w.streams.filter (fun s => ix s.1 0 == kd)

/-- The kind digest of R87. -/
def Window.kindDigest (w : Window) (kd : Nat) : List Byte :=
  sha256 ((w.kind kd).flatMap (fun s =>
    leBytes 2 (ix s.1 1) ++ leBytes 1 (ix s.1 2) ++ leBytes 1 kd ++ leBytes 4 (s.2.length / entrySize kd) ++ sha256 s.2))

/-- Entries counted of one kind, hashed or not (R88). -/
def Window.count (w : Window) (kd : Nat) : Nat :=
  ((w.kind kd).map (fun s => s.2.length / entrySize kd)).sum + w.unhashed.getD kd 0

/-- The change of MST_TDC_TOTAL over the window, saturating. -/
def Window.tdcDelta (w : Window) : Nat := min ((w.tdcDone + 2 ^ 64 - w.tdcAtOpen) % 2 ^ 64) 0xFFFFFFFF

/-- MST_IDENT as one word. -/
def Dev.ident (d : Dev) : Nat := d.readWord .MST_IDENT []

/-- The provenance record (R90) (DESIGN CHOICE, log 28). -/
def Dev.provenance (d : Dev) (no : Nat) (w : Window) : List Byte :=
  let free := d.getF F.MST_HOIST_STAT_FREE_XING
  let delta := if w.openTime.isSome && w.lastDone != 0 then w.tdcDelta else 0
  let fl := if delta ≠ 0 ∨ free ≠ 0 then setBit w.flags 2 else w.flags
  let fl := if w.units = d.units then fl else setBit fl 4
  leBytes 4 224 ++ leBytes 1 0x50 ++ leBytes 1 fl ++ leBytes 2 no ++ leBytes 8 (w.openTime.getD 0) ++ leBytes 8 w.lastDone
    ++ leBytes 4 delta ++ leBytes 2 free ++ leBytes 2 w.streams.length ++ leBytes 4 d.ident ++ leBytes 4 (w.count 0)
    ++ leBytes 4 (w.count 1) ++ leBytes 4 (w.count 2) ++ leBytes 4 (w.count 3) ++ leBytes 4 d.units
    ++ ((List.range 8).flatMap (fun i => leBytes 4 (d.getF F.MST_PLAN_DIGEST_DIGEST [i])))
    ++ w.kindDigest 0 ++ w.kindDigest 1 ++ w.kindDigest 2 ++ w.kindDigest 3 ++ leBytes 8 0

/-- The result seal records of one stream (R91). -/
def sealRecords (no : Nat) (s : List Nat × List Byte) : List (List Byte) :=
  let n := s.2.length / 4
  (List.range (ceilDiv n 4096)).map (fun p =>
    let c := min 4096 (n - 4096 * p)
    leBytes 4 (20 + 4 * c) ++ leBytes 1 0x51 ++ leBytes 1 (b2n (4096 * (p + 1) ≥ n)) ++ leBytes 2 no ++ leBytes 2 (ix s.1 1)
      ++ leBytes 1 (ix s.1 2) ++ leBytes 1 3 ++ leBytes 4 p ++ leBytes 2 c ++ leBytes 2 0 ++ takeAt s.2 (16384 * p) (4 * c))

/-- The window can close: every queue that passed its open marker has passed its close marker, or coverage was ended by force, and
every covered command has completed; an aborted one once the commands that the reset hit have (R85). -/
def Window.done (w : Window) : Bool :=
  if bit w.flags 3 then w.affected.all (fun c => !w.open_.contains c)
  else w.open_.isEmpty && (w.closing || (!w.queues.isEmpty && w.queues.all (fun x => x.2 == 2)))

/-- Entries of window `no` are on their way into the engine: in its queue or, unless the window was aborted, at a leaf. -/
def Dev.fed (d : Dev) (no : Nat) (w : Window) : Bool :=
  d.eng.digQ.any (fun e => e.win == no) || (!bit w.flags 3 && d.eng.seals.any (fun l => l.2.any (fun x => x.2.win == no)))

/-- DIGEST_WINDOW_CLOSE: seal records, then the provenance record (R85, R90, R91). -/
def Dev.closeWindow (d : Dev) (no : Nat) : Dev :=
  match nget? d.eng.windows [no] with
  | none => d
  | some w =>
    if w.done && !d.fed no w && !d.tckInReset 0x1001 && d.islandOn 5 then
      let d := ((w.kind 3).flatMap (sealRecords no)).foldl (fun d r => d.addRec w.ring r none) d
      let d := d.addRec w.ring (d.provenance no w) none
      { d with eng := { d.eng with windows := ndel d.eng.windows [no] } }.countWindows
    else d

/-! ## Stream programs (R384–R387, R414–R418) -/

/-- Instruction `i` of a program. -/
def progIns (p : List Byte) (i : Nat) : Nat := leAt p (256 + 2 * i) 2

/-- An instruction is well formed: no reserved code or bit, and only declared resources; `last` is the last index. -/
def insOk (ag cmp last i w : Nat) : Bool :=
  match w / 8192 with
  | 0 => w == 0
  | 1 => bits w 8 3 == 0 && bit ag (bits w 11 2)
  | 2 => bits w 3 10 == 0 && bit cmp (bits w 0 3)
  | 3 => bits w 9 4 == 0 && bit cmp (bits w 6 3) && bits w 0 6 != 0 && i + 1 + bits w 0 6 ≤ last
  | 4 => bits w 4 9 == 0
  | 5 => bits w 4 9 == 0
  | _ => false

/-- The block of an address generator: zero when undeclared, counts in range when declared. -/
def agOk (p : List Byte) (g : Nat) : Bool :=
  if cbit p 1 g then
    leAt p (14 + 40 * g) 2 == 0 && (List.range 4).all (fun k => 1 ≤ leAt p (16 + 40 * g + 8 * k) 4 && leAt p (16 + 40 * g + 8 * k) 4 ≤ 16777216)
  else ofLE (takeAt p (8 + 40 * g) 40) == 0

/-- The block of a comparator. -/
def cmpOk (p : List Byte) (k : Nat) : Bool :=
  let o := 168 + 8 * k
  if cbit p 2 k then cbits p o 4 4 == 0 && cbits p (o + 1) 3 5 == 0 && cbits p (o + 2) 4 4 == 0 && cb p (o + 3) == 0
  else ofLE (takeAt p o 8) == 0

/-- SEQLOAD's checks (R384, R415–R417) (DEDUCED, log 21). -/
def progOk (p : List Byte) (len : Nat) : Bool :=
  let n := cb p 0
  1 ≤ n && n ≤ 64 && len == 256 + 2 * n && cbits p 1 4 4 == 0 && cb p 3 == 0 && leAt p 6 2 == 0 && ofLE (takeAt p 232 24) == 0
    && (List.range 4).all (agOk p) && (List.range 8).all (cmpOk p)
    && (List.range n).all (fun i => insOk (cbits p 1 0 4) (cb p 2) (n - 1) i (progIns p i))
    && progIns p (n - 1) / 8192 == 0 && (List.range n).any (fun i => progIns p i / 8192 == 1)

/-- SEQLOAD on a sequencer (R414, R417). -/
def Dev.seqload (d : Dev) (t k : Nat) : Dev :=
  d.effect t k (· == 6) (fun d r =>
    let l := r.cmd.bytes
    let x := d.load (leAt l 8 6) (leAt l 6 2)
    let d := d.noteReads t r [(leAt l 8 6, leAt l 6 2)]
    if progOk x.1 (leAt l 6 2) then
      ({ d with eng := { d.eng with progs := nset d.eng.progs [t, cbits l 4 0 3] x.1 } }, { r with status := some .ok })
    else (d, { r with status := some .reservedOp }))

/-- Addresses that generator `g` of a program emits in all. -/
def agTotal (p : List Byte) (g : Nat) : Nat := ((List.range 4).map (fun k => leAt p (16 + 40 * g + 8 * k) 4)).prod

/-- Its `j`-th address (R385). -/
def agAddr (p : List Byte) (g j : Nat) : Nat :=
  let n := fun k => leAt p (16 + 40 * g + 8 * k) 4
  let s := fun k => leAt p (20 + 40 * g + 8 * k) 4
  leAt p (8 + 40 * g) 6 + j % n 0 * s 0 + j / n 0 % n 1 * s 1 + j / n 0 / n 1 % n 2 * s 2 + j / n 0 / n 1 / n 2 % n 3 * s 3

/-- Result of comparator `k` (R385). -/
def Dev.cmp (d : Dev) (seq : Nat) (p : List Byte) (k : Nat) : Bool :=
  let o := 168 + 8 * k
  let b := if cbit p (o + 1) 2 then leAt p (o + 4) 4 else d.ctr seq (cbits p (o + 2) 0 4)
  let v := toSigned 32 (d.ctr seq (cbits p o 0 4) + 2 ^ 32 - b)
  match cbits p (o + 1) 0 2 with
  | 0 => decide (0 < v)
  | 1 => decide (0 ≤ v)
  | 2 => decide (v = 0)
  | _ => decide (v < 0)

/-- The stream of the run in slot `k` stands at an instruction of kind `kind`, on a sequencer that is alive. -/
def Dev.streamIns (d : Dev) (t k kind : Nat) : Option (Run × Stream × List Byte × Nat) :=
  match d.runAt t k with
  | some r => match r.stream with
    | some s => match d.prog s.seq s.slot with
      | some p =>
        let w := progIns p s.pc
        if !s.ended && w / 8192 == kind && d.seqAlive s.seq && d.islandOn (tackleIsland s.seq) then some (r, s, p, w) else none
      | none => none
    | none => none
  | none => none

/-- Replace the stream of a run. -/
def Dev.setStream (d : Dev) (t : Nat) (r : Run) (s : Stream) : Dev := d.setRun t { r with stream := some s }

/-- A stream ends: counted once (R398). -/
def Dev.streamEnds (d : Dev) (seq : Nat) : Dev := d.addWrap F.SEQ_STREAMS_COUNT [seq] 1

/-- Where the emitted address lies for the command: matrix commands use their own sail's window (R424). -/
def pieceAddr (t : Nat) (l : List Byte) (a : Nat) : Option Nat := if opcode l = 0x21 then toSail (matSail t) a else some a

/-- Bytes of a piece. -/
def pieceLen (l : List Byte) : Nat := if opcode l = 0x21 then leAt l 28 2 * denseRow (cbits l 5 0 4) (32 * cb l 7) else leAt l 16 3

/-- The check of the `j`-th piece at emitted address `a` (R421, R427). -/
def pieceOk (t : Nat) (l : List Byte) (a j : Nat) : Bool :=
  let mm := opcode l == 0x21
  let lg := if mm then cb l 26 else cb l 5
  let most := if mm then cb l 27 else leAt l 28 4
  match pieceAddr t l a, pieceAddr t l (leAt l 20 6) with
  | some a, some b => decide (b ≤ a) && decide (a + pieceLen l ≤ b + 2 ^ lg) && !(placesOf a (pieceLen l)).contains .reserved && decide (j < most)
  | _, _ => false

/-- Emit up to `m` further addresses; the answer says whether a piece failed its check, at which the stream stops. -/
def emitUpTo (t : Nat) (l p : List Byte) (g : Nat) : Nat → Stream → Stream × Bool
  | 0, s => (s, false)
  | m + 1, s =>
    let j := s.taken.getD g 0
    if agTotal p g ≤ j then (s, false)
    else
      let a := agAddr p g j
      let s' := { s with taken := s.taken.set g (j + 1) }
      if pieceOk t l a s.pieces.length then emitUpTo t l p g m { s' with pieces := s.pieces ++ [a] } else (s', true)

/-- EMIT g, m (R386, R387): stalls while 64 pieces wait; a piece that fails is a stream error (R418). -/
def Dev.emitIns (d : Dev) (t k : Nat) : Dev :=
  match d.streamIns t k 1 with
  | none => d
  | some (r, s, p, w) =>
    if 64 ≤ s.pieces.length - s.done then d
    else
      let x := emitUpTo t r.cmd.bytes p (bits w 11 2) (bits w 0 8 + 1) s
      if x.2 then (d.setRun t { r with stream := some { x.1 with ended := true }, seqErr := true }).streamEnds s.seq
      else d.setStream t r { x.1 with pc := s.pc + 1 }

/-- WAITC k stalls until the comparator is true. -/
def Dev.waitc (d : Dev) (t k : Nat) : Dev :=
  match d.streamIns t k 2 with
  | none => d
  | some (r, s, p, w) => if d.cmp s.seq p (bits w 0 3) then d.setStream t r { s with pc := s.pc + 1 } else d

/-- SKIP k, d. -/
def Dev.skipIns (d : Dev) (t k : Nat) : Dev :=
  match d.streamIns t k 3 with
  | none => d
  | some (r, s, p, w) => d.setStream t r { s with pc := s.pc + 1 + (if d.cmp s.seq p (bits w 6 3) then bits w 0 6 else 0) }

/-- INC c. -/
def Dev.incIns (d : Dev) (t k : Nat) : Dev :=
  match d.streamIns t k 4 with
  | none => d
  | some (r, s, _, w) => (d.ctrAdd s.seq (bits w 0 4) 1).setStream t r { s with pc := s.pc + 1 }

/-- CLR c. -/
def Dev.clrIns (d : Dev) (t k : Nat) : Dev :=
  match d.streamIns t k 5 with
  | none => d
  | some (r, s, _, w) => (d.setF F.SEQ_CTR_VALUE [s.seq, bits w 0 4] 0).setStream t r { s with pc := s.pc + 1 }

/-- END ends the pass, and the stream when every generator that the program emits from is exhausted (R386). -/
def Dev.endIns (d : Dev) (t k : Nat) : Dev :=
  match d.streamIns t k 0 with
  | none => d
  | some (r, s, p, _) =>
    let gs := ((List.range (cb p 0)).filter (fun i => progIns p i / 8192 == 1)).map (fun i => bits (progIns p i) 11 2)
    if gs.all (fun g => agTotal p g ≤ s.taken.getD g 0) then (d.setStream t r { s with ended := true }).streamEnds s.seq
    else d.setStream t r { s with pc := 0 }

end Sys2Proof.Machine
end

