-- ==== Sys2Proof/Machine/Move.lean ====
section
/-!
DEFINITION. The move engine's commands (R419–R423): MOVE, GATHER, SCATTER, FILL and SEALCHK, over the share of the
operand that a part covers.
-/
namespace Sys2Proof.Machine

/-- The rows of a selection, innermost dimension as a range (start, length), in traversal order: (i1, i2, i3, range). -/
def selRows (s : Sel) : List (Nat × Nat × Nat × (Nat × Nat)) :=
  (rangesIdx (s.getD 3 [(0, 1)])).flatMap (fun i3 =>
    (rangesIdx (s.getD 2 [(0, 1)])).flatMap (fun i2 =>
      (rangesIdx (s.getD 1 [(0, 1)])).flatMap (fun i1 =>
        (s.getD 0 [(0, 1)]).map (fun r => (i1, i2, i3, r)))))

/-- The bytes of one selected row as runs (address, length): for a packed operand its elements, then its scale bytes. -/
def Opnd.rowRuns (o : Opnd) (x : Nat × Nat × Nat × (Nat × Nat)) : List (Nat × Nat) :=
  let r := x.2.2.2
  let at0 := fun i => (o.at [i, x.1, x.2.1, x.2.2.1]).1
  if o.packed then
    [(at0 r.1, rowBytes r.2 o.bitsOf)] ++ (if isMx o.fmt then [(o.scaleAt [r.1, x.1, x.2.1, x.2.2.1], r.2 / 32)] else [])
  else if o.unit = 1 ∧ (o.n 0 = 1 ∨ o.s 0 = o.bitsOf / 8) then [(at0 r.1, r.2 * (o.bitsOf / 8))]
  else (List.range r.2).map (fun j => (at0 (r.1 + j), o.bitsOf / 8))

/-- The bytes of an operand's selected elements as runs in traversal order. -/
def Opnd.runs (o : Opnd) (s : Sel) : List (Nat × Nat) := (selRows s).flatMap o.rowRuns

/-- An engine's command over its decoded operands and share. -/
def Dev.engineOp (d : Dev) (t k op : Nat) (f : Dev → Run → Dec → Sel → Dev × Run) : Dev :=
  d.effect t k (· == op) (fun d r =>
    match r.dec t with
    | none => (d, { r with status := some .reservedOp })
    | some x => f d r x (r.sel x))

/-- MOVE copies bytes (R419). -/
def Dev.move (d : Dev) (t k : Nat) : Dev :=
  d.engineOp t k 0x10 (fun d r x s =>
    match x.ops with
    | [a, b] =>
      let src := a.runs s
      let dst := b.runs s
      let l := d.readRuns src
      let y := (d.noteReads t r src).storeRuns (r.writer t) dst l
      (y.1.feedSeals t r true dst, { r with status := some (storeStatus y.2) })
    | _ => (d, r))

/-- The bytes FILL writes at row positions `lo` to `lo + n - 1` (R422). -/
def fillBytes (pat : List Byte) (lo n : Nat) : List Byte := (List.range n).map (fun i => pat.getD ((lo + i) % 8) 0)

/-- FILL writes its pattern, restarting at each innermost run (R422). -/
def Dev.fill (d : Dev) (t k : Nat) : Dev :=
  d.engineOp t k 0x13 (fun d r x s =>
    match x.ops with
    | [a] =>
      let dst := a.runs s
      let pat := takeAt r.cmd.bytes 24 8
      let row := (s.getD 0 [(0, 1)]).flatMap (fun p => fillBytes pat p.1 p.2)
      let rows := rangesLen (s.getD 1 [(0, 1)]) * rangesLen (s.getD 2 [(0, 1)]) * rangesLen (s.getD 3 [(0, 1)])
      let y := d.storeRuns (r.writer t) dst ((List.replicate rows row).flatten)
      (y.1.feedSeals t r true dst, { r with status := some (storeStatus y.2) })
    | _ => (d, r))

/-- The seal of piece `j` of a SEALCHK (R423). -/
def Dev.pieceSeal (d : Dev) (l : List Byte) (j : Nat) : Nat :=
  sealOf (leAt l 6 2) ((leAt l 20 3 + j) % 2 ^ 24) (cbits l 5 0 4) (leAt l 14 2) (d.read (leAt l 8 6 + j * sealPiece l) (sealPiece l))

/-- SEALCHK (R423): WRITE stores the seals; CHECK compares them with the list and, on a command that is no part, writes
the result word. -/
def Dev.sealchk (d : Dev) (t k : Nat) : Dev :=
  d.engineOp t k 0x14 (fun d r _ s =>
    let l := r.cmd.bytes
    let js := rangesIdx (s.getD 0 [(0, 1)])
    let list := leAt l 24 6
    let d := d.noteReads t r (js.map (fun j => (leAt l 8 6 + j * sealPiece l, sealPiece l)))
    if cbit l 4 0 then
      let bad := js.filter (fun j => d.pieceSeal l j != ofLE (d.read (list + 4 * j) 4))
      let d := d.noteReads t r (js.map (fun j => (list + 4 * j, 4)))
      let w := list + 4 * leAt l 16 4
      let y := if r.cmd.parent.isSome then (d, true)
        else
          let z := d.store (r.writer t) w (leBytes 4 (bad.min?.getD 0xFFFFFFFF))
          (z.1.feedSeals t r true [(w, 4)], z.2)
      (y.1, { r with acc := bad, status := some (if !y.2 then .owner else if bad.isEmpty then .ok else .sealFail) })
    else
      let dst := js.map (fun j => (list + 4 * j, 4))
      let y := d.storeRuns (r.writer t) dst (js.flatMap (fun j => leBytes 4 (d.pieceSeal l j)))
      (y.1.feedSeals t r true dst, { r with status := some (storeStatus y.2) }))

/-- The pieces of a GATHER or SCATTER in emission order: (span address, local address). -/
def streamPairs (l : List Byte) (s : Stream) (n : Nat) : List (Nat × Nat) :=
  (s.pieces.take n).zip ((List.range n).map (fun j => leAt l 8 6 + j * leAt l 16 3))

/-- GATHER and SCATTER process the next emitted piece; when the stream has ended and every piece is processed, the
command has its status. A refused write is kept in `acc`. -/
def Dev.streamMove (d : Dev) (t k op : Nat) (gather : Bool) : Dev :=
  d.effect t k (· == op) (fun d r =>
    let l := r.cmd.bytes
    let n := leAt l 16 3
    match r.stream with
    | none => (d, { r with status := some .reservedOp })
    | some s =>
      if s.done < s.pieces.length then
        let p := ((streamPairs l s (s.done + 1)).getLast?).getD (0, 0)
        let src := if gather then p.1 else p.2
        let dst := if gather then p.2 else p.1
        let x := d.load src n
        let y := x.2.store (r.writer t) dst x.1
        (y.1, { r with stream := some { s with done := s.done + 1 }, acc := if y.2 then r.acc else [1] })
      else if s.ended then
        let ps := streamPairs l s s.done
        let src := ps.map (fun p => (if gather then p.1 else p.2, n))
        let dst := ps.map (fun p => (if gather then p.2 else p.1, n))
        let d := (d.feedSeals t r false src).feedSeals t r true dst
        (d, { r with acc := [], status := some (if r.seqErr then .reservedOp else storeStatus r.acc.isEmpty) })
      else (d, r))

/-- GATHER (R420, R421). -/
def Dev.gather (d : Dev) (t k : Nat) : Dev := d.streamMove t k 0x11 true

/-- SCATTER (R420, R421). -/
def Dev.scatter (d : Dev) (t k : Nat) : Dev := d.streamMove t k 0x12 false

end Sys2Proof.Machine
end

