-- ==== Sys2Proof/Machine/Matrix.lean ====
section
/-!
DEFINITION. The matrix cores (R286, R424–R427, R449–R454): product groups of 32, the FP32 accumulator, MMA and GMMA.
-/
namespace Sys2Proof.Machine

/-- An element of a matrix operand before block scaling, and whether it was read as zero under FTZ. -/
def Dev.matElem (d : Dev) (o : Opnd) (ftz : Bool) (idx : List Nat) : Val × Bool := readElem ftz o.fmt (d.elemCode o idx)

/-- The scale byte of a group, 127 for formats without block scale. -/
def Dev.matScale (d : Dev) (o : Opnd) (idx : List Nat) : Nat := if isMx o.fmt then (d.byte (o.scaleAt idx)).toNat else 127

/-- Truncate a finite value toward zero to multiples of 2^q. -/
def Val.truncAt (q : Int) : Val → Val
  | .fin n m e => if q ≤ e then .fin n m e else .fin n (m / 2 ^ (q - e).toNat) q
  | v => v

/-- The exact sum of values, −0 only when each is −0. -/
def sumVals : List Val → Val
  | [] => .zero
  | v :: l => l.foldl Val.add v

/-- Leading exponent of the largest nonzero finite product (R286 step 2). -/
def topExp (ps : List Val) : Option Int :=
  ps.foldl (fun a v => match v with
    | .fin _ m e => if m = 0 then a else some (match a with | none => leadExp m e | some x => max x (leadExp m e))
    | _ => a) none

/-- What a group adds to the accumulator (R286): NaN, an infinity, or the scaled truncated sum. -/
def groupSum (ps : List Val) (sa sb : Nat) : Val :=
  if sa = 0xFF ∨ sb = 0xFF then .nan
  else if ps.any (fun v => match v with | .fin _ _ _ => false | _ => true) then
    sumVals (ps.filter (fun v => match v with | .fin _ _ _ => false | _ => true))
  else
    let s : Int := (sa : Int) + sb - 254
    match topExp ps with
    | none => (sumVals ps).scale s
    | some e => (sumVals (ps.map (Val.truncAt (e - 31)))).scale s

/-- Round to FP32 under the mode bits; code and counts. -/
def rnd32 (sat ftz : Bool) (v : Val) : Nat × Arith :=
  let r := fp32.round sat ftz v
  (r.code, ⟨b2n r.sat, b2n r.flush, false⟩)

/-- One accumulator step (R286 step 4) (DEDUCED, log 19). -/
def accStep (sat ftz : Bool) (acc : Nat × Arith) (g : Val) : Nat × Arith :=
  let r := rnd32 sat ftz ((fp32.decode acc.1).add g)
  (r.1, acc.2.add r.2)

/-- The K groups of output (m, n): A read at K positions from 0 of its operand, B from `off`. -/
def Dev.mmaElem (d : Dev) (a b : Opnd) (sat ftz : Bool) (K off m n : Nat) (acc : Nat × Arith) : Nat × Arith :=
  (List.range (ceilDiv K 32)).foldl (fun acc g =>
    let ks := (List.range (min 32 (K - 32 * g))).map (· + 32 * g)
    accStep sat ftz acc (groupSum
      (ks.map (fun k => (d.matElem a ftz [k, m]).1.mul (d.matElem b ftz [off + k, n]).1))
      (d.matScale a [32 * g, m]) (d.matScale b [off + 32 * g, n]))) acc

/-- Counts of a matrix operand's elements as read: `ks` along K, `rs` along its rows. -/
def Dev.matReads (d : Dev) (o : Opnd) (ftz : Bool) (ks rs : List Nat) : Arith :=
  rs.foldl (fun a r => ks.foldl (fun a k =>
    let e := d.matElem o ftz [k, r]
    a.add ⟨0, b2n e.2, e.1.isNan || (isMx o.fmt && d.matScale o [k, r] == 0xFF)⟩) a) Arith.zero

/-- Round an accumulator to the output format: code and counts (R425). -/
def accOut (fmt : Nat) (sat ftz : Bool) (acc : Nat) : Nat × Arith :=
  match fpOf fmt with
  | some f =>
    let r := f.round sat ftz (fp32.decode acc)
    (r.code, ⟨b2n r.sat, b2n r.flush, false⟩)
  | none => (0, Arith.zero)

/-- Where the accumulator starts: C from D, or +0 (R425). -/
def Dev.accStart (d : Dev) (c : Opnd) (fromD ftz : Bool) (n m : Nat) : Nat × Arith :=
  if fromD then
    let e := readElem ftz c.fmt (d.elemCode c [n, m])
    ((fp32.round false false e.1).code, ⟨0, b2n e.2, e.1.isNan⟩)
  else (0, Arith.zero)

/-- Mode bits of a command (R370). -/
def satBit (l : List Byte) : Bool := cbit l 1 2
def ftzBit (l : List Byte) : Bool := cbit l 1 3

/-- Add counts to a run, and set the tackle's flags. -/
def Dev.noteArith (d : Dev) (t : Nat) (r : Run) (a : Arith) : Dev × Run :=
  (d.arith t a, { r with sat := r.sat + a.sat, flush := r.flush + a.flush, nanIn := r.nanIn || a.nanIn })

/-- Round the accumulators and write D (R425, R427) (DEDUCED, log 19). -/
def Dev.writeD (d : Dev) (t : Nat) (r : Run) (c : Opnd) (s : Sel) (accs : List Nat) (a : Arith) : Dev × Run :=
  let l := r.cmd.bytes
  let outs := accs.map (accOut c.fmt (satBit l) (ftzBit l))
  let a := outs.foldl (fun a o => a.add o.2) a
  let dst := c.runs s
  let y := d.storeRuns (r.writer t) dst (outs.flatMap (fun o => leBytes (c.bitsOf / 8) o.1))
  let d := y.1.feedSeals t r true dst
  let z := d.noteArith t r a
  (z.1, { z.2 with status := some (storeStatus y.2) })

/-- MMA: D = A · Bᵀ + C over the part's output elements (R425). -/
def Dev.mma (d : Dev) (t k : Nat) : Dev :=
  d.engineOp t k 0x20 (fun d r x s =>
    match x.ops with
    | [a, b, c] =>
      let l := r.cmd.bytes
      let K := leAt l 30 2
      let ms := rangesIdx (s.getD 1 [(0, 1)])
      let ns := rangesIdx (s.getD 0 [(0, 1)])
      let ks := List.range K
      let outs := ms.flatMap (fun m => ns.map (fun n =>
        d.mmaElem a b (satBit l) (ftzBit l) K 0 m n (d.accStart c (cbit l 4 3) (ftzBit l) n m)))
      let ar := outs.foldl (fun z o => z.add o.2) ((d.matReads a (ftzBit l) ks ms).add (d.matReads b (ftzBit l) ks ns))
      let d := (d.noteReads t r (a.runs [[(0, K)], s.getD 1 [(0, 1)]])).noteReads t r (b.runs [[(0, K)], s.getD 0 [(0, 1)]])
      let d := if cbit l 4 3 then d.noteReads t r (c.runs s) else d
      d.writeD t r c s (outs.map (·.1)) ar
    | _ => (d, r))

/-- The piece of A at emitted address `a` (R427) (DEDUCED, log 19). -/
def gmmaPiece (t : Nat) (l : List Byte) (a : Nat) : Opnd :=
  mainOpnd ((pieceAddr t l a).getD 0) (cbits l 5 0 4) (32 * cb l 7) (leAt l 28 2)

/-- GMMA (R426, R427): the next piece is accumulated; after the last, D is written once. A stream error leaves D as it
was (R418) (DEDUCED, log 19). -/
def Dev.gmma (d : Dev) (t k : Nat) : Dev :=
  d.effect t k (· == 0x21) (fun d r =>
    let l := r.cmd.bytes
    match r.stream, r.dec t with
    | some s, some x => match x.ops with
      | [b, c] =>
        let kp := 32 * cb l 7
        let ms := List.range (leAt l 28 2)
        let ns := List.range (leAt l 30 2)
        let all : Sel := [[(0, leAt l 30 2)], [(0, leAt l 28 2)], [(0, 1)], [(0, 1)]]
        let starts := if r.acc.isEmpty then ms.flatMap (fun m => ns.map (fun n => d.accStart c (cbit l 4 2) (ftzBit l) n m))
          else r.acc.map (fun a => (a, Arith.zero))
        if s.done < s.pieces.length then
          let a := gmmaPiece t l (s.pieces.getD s.done 0)
          let off := s.done * kp
          let idx := ms.flatMap (fun m => ns.map (fun n => (m, n)))
          let outs := (idx.zip starts).map (fun p => d.mmaElem a b (satBit l) (ftzBit l) kp off p.1.1 p.1.2 p.2)
          let ar := outs.foldl (fun z o => z.add o.2)
            ((d.matReads a (ftzBit l) (List.range kp) ms).add (d.matReads b (ftzBit l) ((List.range kp).map (· + off)) ns))
          let d := ((a.runs [[(0, kp)], [(0, leAt l 28 2)]]) ++ b.runs [[(off, kp)], [(0, leAt l 30 2)]]).foldl (fun d x => (d.load x.1 x.2).2) d
          let z := d.noteArith t r ar
          (z.1, { z.2 with acc := outs.map (·.1), stream := some { s with done := s.done + 1 } })
        else if s.ended then
          let as' := s.pieces.map (gmmaPiece t l)
          let d := d.feedSeals t r false (as'.flatMap (fun a => a.runs [[(0, kp)], [(0, leAt l 28 2)]]))
          let d := d.feedSeals t r false (b.runs [[(0, s.pieces.length * kp)], [(0, leAt l 30 2)]])
          let d := if cbit l 4 2 && !r.seqErr then d.noteReads t r (c.runs all) else d
          if r.seqErr then (d, { r with acc := [], status := some .reservedOp })
          else
            let ar := if r.acc.isEmpty then starts.foldl (fun z o => z.add o.2) Arith.zero else Arith.zero
            let y := d.writeD t r c all (starts.map (·.1)) ar
            (y.1, { y.2 with acc := [] })
        else (d, r)
      | _ => (d, r)
    | _, _ => (d, { r with status := some .reservedOp }))

end Sys2Proof.Machine
end

