-- ==== Sys2Proof/Machine/CapsNum.lean ====
section
/-!
DEFINITION. Capstan arithmetic (R287–R295): what a contribution's element is, how a staging entry takes it, wire partials
both ways, the result at the root, and the softmax-merge fold.
-/
namespace Sys2Proof.Machine

/-- An empty entry: all ones for AND, zero otherwise (R317). -/
def Entry.init (op : Nat) : Entry := ⟨if op = 5 then 0xFFFFFFFF else 0, none, false, false, false, 0, 0, false, none⟩

/-! ## Contributions (R281, R291, R293, R294) -/

/-- A WP64 partial: too large a magnitude is infinity, too small a nonzero one is zero (R293). -/
def wp64In (raw : Nat) : Val × Arith :=
  match wp64.decode raw with
  | .fin n m e =>
    if m = 0 then (.fin n 0 0, .zero)
    else if 161 ≤ leadExp m e then (.inf n, ⟨1, 0, false⟩)
    else if leadExp m e < -149 then (.fin n 0 0, ⟨0, 1, false⟩)
    else (.fin n m e, .zero)
  | .nan => (.nan, ⟨0, 0, true⟩)
  | v => (v, .zero)

/-- An AP64 partial (R294). -/
def ap64In (anchor : Int) (raw : Nat) : Val × Arith :=
  if raw = 0x8000000000000000 then (.nan, ⟨0, 0, true⟩)
  else if raw = 0x7FFFFFFFFFFFFFFF then (.inf false, .zero)
  else if raw = 0x8000000000000001 then (.inf true, .zero)
  else (Val.ofInt (toSigned 64 raw) anchor, .zero)

/-- The value of a contribution's element, by its stage: the context's input format at T, its wire format above. -/
def contribVal (c : List Byte) (s raw : Nat) : Val × Arith :=
  if 4 ≤ cdOp c then (Val.ofInt (toSigned (if s = 0 then 32 else fmtBits (cdWire c)) raw) 0, .zero)
  else if s = 0 then
    let r := readElem (cdFtz c) (cdIn c) raw
    (r.1, ⟨0, b2n r.2, r.1.isNan⟩)
  else if cdWire c = 12 then wp64In raw
  else if cdWire c = 13 then ap64In (cdAnchor c) raw
  else
    let v := fp32.decode raw
    (v, ⟨0, 0, v.isNan⟩)

/-- Bytes of an element of a contribution at a stage. -/
def contribW (c : List Byte) (s : StageNo) : Nat := if s = 0 then cdInW c else fmtBits (cdWire c) / 8

/-! ## Adding (R284, R287, R288, R290) -/

/-- Add to an exact sum. -/
def Entry.addSum (e : Entry) (v : Val) : Entry :=
  match v with
  | .nan => { e with nan := true, plus := true }
  | .inf true => { e with ninf := true, plus := true }
  | .inf false => { e with pinf := true, plus := true }
  | .fin n m x =>
    if m = 0 then { e with plus := e.plus || !n }
    else { e with v := e.v + signedAt n m x unitExp, a := e.a.orElse (fun _ => some (leadExp m x - 48)), plus := true }

/-- Take an extreme (R284): a NaN contribution is ignored. -/
def Entry.addExt (max : Bool) (e : Entry) (v : Val) : Entry :=
  if v.isNan then { e with nan := true }
  else
    let w := match e.ext with
      | some k => if max then (wp64.decode k).max v else (wp64.decode k).min v
      | none => v
    { e with ext := some (wp64.round false false w).code }

/-- Take a contribution's element; `raw` is its code, on which the bitwise operations act. -/
def Entry.take (op : Nat) (e : Entry) (v : Val) (raw : Nat) : Entry :=
  match op with
  | 2 => e.addExt true v
  | 3 => e.addExt false v
  | 4 => { e with v := e.v + (match v with | .fin n m x => signedAt n m x 0 | _ => 0) }
  | 5 => { e with v := (e.v.toNat &&& raw : Nat) }
  | 6 => { e with v := (e.v.toNat ||| raw : Nat) }
  | 7 => { e with v := (e.v.toNat ^^^ raw : Nat) }
  | _ => e.addSum v

/-- The entry must be promoted by a contribution that changed it from `old` (R287): a set bit below 2^A, or a magnitude
that reaches 2^(A + 95). -/
def Entry.grows (old new : Entry) : Bool :=
  old.held == 0 &&
    (match new.a with
     | some a => (new.v - old.v) % ((2 ^ (a - unitExp).toNat : Nat) : Int) != 0 || decide (2 ^ (a + 95 - unitExp).toNat ≤ new.v.natAbs)
     | none => false)

/-- Entries of the promotion pool and of the overflow region (R318, R321). -/
def poolSize : Nat := 174762
def overflowSize : Nat := 4194304

/-- Give each entry that grows a place: the promotion pool while it has `free` entries, then the overflow region (R320); `pool` and
`ovf` are the indices in use, `n` a free number. Answers the entries and how many took each (DEDUCED, log 37). -/
def placeGrown (n : Nat) : Nat → List Nat → List Nat → List (Entry × Bool) → List Entry × Nat × Nat
  | _, _, _, [] => ([], 0, 0)
  | free, pool, ovf, (e, g) :: t =>
    if g then
      if 0 < free then
        let i := freeIdx pool poolSize n
        let r := placeGrown n (free - 1) (i :: pool) ovf t
        ({ e with held := 1, idx := i } :: r.1, r.2.1 + 1, r.2.2)
      else
        let i := freeIdx ovf overflowSize n
        let r := placeGrown n free pool (i :: ovf) t
        ({ e with held := 2, idx := i } :: r.1, r.2.1, r.2.2 + 1)
    else
      let r := placeGrown n free pool ovf t
      (e :: r.1, r.2)

/-- The elements that part `part` of a contribution carries: the first one, and how many. -/
def partSpan (c : List Byte) (s part : Nat) (data : List Byte) : Nat × Nat :=
  (part * (cdW c / cdP c) / contribW c s, data.length / contribW c s)

/-- The entries of a slot after part `part` of a contribution, each with whether it grew, and the counts. -/
def addPart (c : List Byte) (s part : Nat) (es : List Entry) (data : List Byte) : List (Entry × Bool) × Arith :=
  let w := contribW c s
  let x := partSpan c s part data
  let out := (es.zip (List.range es.length)).map (fun p =>
    if x.1 ≤ p.2 ∧ p.2 < x.1 + x.2 then
      let raw := leAt data ((p.2 - x.1) * w) w
      let v := contribVal c s raw
      let e := p.1.take (cdOp c) v.1 raw
      ((e, (cdOp c ≤ 1 && p.1.grows e)), v.2)
    else ((p.1, false), Arith.zero))
  (out.map (·.1), out.foldl (fun a p => a.add p.2) .zero)

/-! ## Leaving a capstan -/

/-- The value of an entry of a float operation at a stage's output (R283, R284, R288). -/
def Entry.value (op : Nat) (e : Entry) : Val :=
  if op = 2 ∨ op = 3 then (match e.ext with | some k => wp64.decode k | none => .nan)
  else if e.nan ∨ (e.pinf ∧ e.ninf) then .nan
  else if e.pinf then .inf false
  else if e.ninf then .inf true
  else if e.v = 0 then .fin (!e.plus) 0 0
  else Val.ofInt e.v unitExp

/-- Flags of a wire rounding beside the counts: low bits dropped, clamped, inexact. -/
structure WireFlags where
  low : Bool
  high : Bool
  inexact : Bool
  deriving DecidableEq, Repr

/-- An AP64 partial of a value (R294). -/
def ap64Out (anchor : Int) (v : Val) : Nat × Arith × WireFlags :=
  match v with
  | .nan => (0x8000000000000000, .zero, ⟨false, false, false⟩)
  | .inf n => (if n then 0x8000000000000001 else 0x7FFFFFFFFFFFFFFF, .zero, ⟨false, false, false⟩)
  | .fin n m e =>
    let q := if e ≤ anchor then m / 2 ^ (anchor - e).toNat else m * 2 ^ (e - anchor).toNat
    let lim := 2 ^ 63 - 2
    if lim < q then (ofSigned 64 (if n then -(lim : Int) else lim), ⟨1, 0, false⟩, ⟨false, true, false⟩)
    else
      let lost := e < anchor && q * 2 ^ (anchor - e).toNat != m
      (ofSigned 64 (if n then -(q : Int) else q), ⟨0, b2n lost, false⟩, ⟨lost, false, false⟩)

/-- The code of an entry on the wire (R291, R292). -/
def wireOut (c : List Byte) (e : Entry) : Nat × Arith × WireFlags :=
  if cdOp c = 4 then (ofSigned 64 e.v, .zero, ⟨false, false, false⟩)
  else if 5 ≤ cdOp c then (e.v.toNat, .zero, ⟨false, false, false⟩)
  else
    let v := e.value (cdOp c)
    if cdWire c = 13 then ap64Out (cdAnchor c) v
    else
      let r := (if cdWire c = 12 then wp64 else fp32).round false false v
      (r.code, ⟨b2n r.sat, 0, false⟩, ⟨false, false, r.inexact⟩)

/-- The code of an entry at the root (R289, R290, R325). -/
def rootOut (c : List Byte) (e : Entry) : Nat × Arith :=
  if cdOp c = 4 then
    (if cdIntSat c then
      let k := max (-(2 ^ 31 : Nat) : Int) (min ((2 ^ 31 : Nat) - 1) e.v)
      (ofSigned 32 k, ⟨b2n (k != e.v), 0, false⟩)
    else (ofSigned 32 e.v, .zero))
  else if 5 ≤ cdOp c then (e.v.toNat, .zero)
  else
    let v := e.value (cdOp c)
    match fpOf (cdOut c) with
    | some f =>
      let r := f.round (cdSat c) (cdFtz c) (if cdOp c = 1 then v.scale (cdScale c) else v)
      (r.code, ⟨b2n r.sat, b2n r.flush, false⟩)
    | none => (0, .zero)

/-! ## Softmax-merge (R295) -/

/-- A triple, its values FP32; counts come with it. -/
structure Triple where
  m : Val
  l : Val
  o : List Val
  deriving DecidableEq, Repr

/-- Triple `t` of a contribution at a stage. Its NaNs spread at once: a NaN in m, l or o makes the whole result NaN. -/
def tripleAt (c : List Byte) (s t : Nat) (data : List Byte) : Triple :=
  let w := if s = 0 then cdInW c else 4
  let b := t * (8 + cdD c * w)
  let m := fp32.decode (leAt data b 4)
  let l := fp32.decode (leAt data (b + 4) 4)
  let o := (List.range (cdD c)).map (fun j => decodeElem (if s = 0 then cdIn c else 0) (leAt data (b + 8 + j * w) w))
  if m.isNan || l.isNan || o.any (·.isNan) then ⟨.nan, .nan, o.map (fun _ => .nan)⟩ else ⟨m, l, o⟩

/-- One FP32 rounding of the merge: overflow is infinity, counted as saturated. -/
def mergeRnd (v : Val) : Val × Nat :=
  let r := fp32.round false false v
  (fp32.decode r.code, b2n r.sat)

/-- α of one side: exp of the rounded difference to the new maximum. -/
def mergeAlpha (m m' : Val) : Val × Nat :=
  let x := mergeRnd (m.sub m')
  let y := mergeRnd x.1.exp
  (y.1, x.2 + y.2)

/-- One merge (steps 1 to 4), with the saturations counted (DEDUCED, log 17). -/
def mergeStep (a c : Triple) : Triple × Nat :=
  if a.m.isNan ∨ c.m.isNan then (⟨.nan, .nan, a.o.map (fun _ => .nan)⟩, 0)
  else
    let m' := a.m.max c.m
    let both := m' == .inf true
    let x := if both then (Val.fin false 1 0, 0) else mergeAlpha a.m m'
    let y := if both then (Val.fin false 1 0, 0) else mergeAlpha c.m m'
    let go := fun (p q : Val) => mergeRnd ((x.1.mul p).add (y.1.mul q))
    let l := go a.l c.l
    let o := (a.o.zip c.o).map (fun p => go p.1 p.2)
    (⟨m', l.1, o.map (·.1)⟩, x.2 + y.2 + l.2 + (o.map (·.2)).sum)

/-- The fold of a vector's contributions in ascending contributor index. -/
def mergeFold : List Triple → Triple × Nat
  | [] => (⟨.inf true, .zero, []⟩, 0)
  | t :: ts => ts.foldl (fun a c => let r := mergeStep a.1 c; (r.1, a.2 + r.2)) (t, 0)

/-- The folded triples of a slot: contributions as whole byte strings in ascending contributor index. -/
def mergeAll (c : List Byte) (s : Nat) (parts : List (List Byte)) : List Triple × Nat :=
  let r := (List.range (cdQ c)).map (fun t => mergeFold (parts.map (tripleAt c s t)))
  (r.map (·.1), (r.map (·.2)).sum)

/-- FP32 code of a value. -/
def code32 (v : Val) : Nat := (fp32.round false false v).code

/-- A folded triple on the wire. -/
def tripleWire (t : Triple) : List Byte := leBytes 4 (code32 t.m) ++ leBytes 4 (code32 t.l) ++ t.o.flatMap (fun v => leBytes 4 (code32 v))

/-- The output elements of a triple at the root: o_j / l rounded once; +0 when l = 0. -/
def tripleRoot (c : List Byte) (t : Triple) : List Byte × Arith :=
  let out := t.o.map (fun v =>
    match fpOf (cdOut c) with
    | some f =>
      let r := f.round (cdSat c) (cdFtz c) (if t.m.isNan then .nan else if t.l.isZero then .zero else v.div t.l)
      (r.code, (⟨b2n r.sat, b2n r.flush, false⟩ : Arith))
    | none => (0, .zero))
  (out.flatMap (fun x => leBytes (cdOutW c) x.1), out.foldl (fun a x => a.add x.2) .zero)

end Sys2Proof.Machine
end

