-- ==== Sys2Proof/Machine/Coll.lean ====
section
/-!
DEFINITION. Collectives (R300–R339): opening, starting, joining and ending contexts, slot grants, intake, stage outputs,
the down path, signals, timeouts, and capstan self-tests and spares. A granted part travels to its capstan as a CHUNK.
-/
namespace Sys2Proof.Machine

/-! ## Contexts and chunks -/

/-- A chunk with no role yet. -/
def Chunk.init : Chunk := ⟨[], [], [], [], [], none, 0, [], false, 0, false, none, false⟩

/-- Chunk `n` of a context. -/
def Ctx.chunk (x : Ctx) (n : Nat) : Chunk := nget Chunk.init x.chunks [n]

/-- Replace chunk `n`. -/
def Ctx.setChunk (x : Ctx) (n : Nat) (c : Chunk) : Ctx := { x with chunks := nput Chunk.init x.chunks [n] c }

/-- Replace the context of a collective id. -/
def Dev.setCtx (d : Dev) (id : Nat) (x : Ctx) : Dev := { d with coll := { d.coll with ctxs := nset d.coll.ctxs [id] x } }

/-- The chunk lies in the context. -/
def Ctx.has (x : Ctx) (n : Nat) : Bool := cdFirst x.desc ≤ n && n < cdFirst x.desc + cdCount x.desc

/-- The context's entries exist (R341). -/
def Dev.live (d : Dev) (x : Ctx) : Bool := x.frame ≤ d.clk.frame

/-- The physical capstan of chunk `n`. -/
def Dev.capPhys (d : Dev) (y n : Nat) : Nat := d.getF F.YRD_CPS_MAP_PHYS [y, d.capOf y n]

/-- The tackle id of chunk `n`'s capstan. -/
def Dev.capTackle (d : Dev) (y n : Nat) : Nat := 0x2000 + 256 * y + d.capOf y n

/-- First `n` from a number on, of a bounded stretch, that passes. -/
def firstFrom (p : Nat → Bool) : Nat → Nat → Option Nat
  | 0, _ => none
  | f + 1, n => if p n then some n else firstFrom p f (n + 1)

/-- Up grants resume when enough of the promotion pool is free, and some of it is: with RESUME = 0 they still stop while PROM_FREE
reads 0 (R319) (DEDUCED, log 37). -/
def Dev.promResume (d : Dev) (y : Nat) : Dev :=
  if d.flag F.YRD_COLL_STAT_PROM_STOP [y] && max 1 (d.getF F.YRD_COLL_PROM_RESUME_RESUME [y]) ≤ d.getF F.YRD_COLL_PROM_FREE_FREE [y] then
    d.clear F.YRD_COLL_STAT_PROM_STOP [y]
  else d

/-- A slot's promotion entries return to the pool of its yard (R318). -/
def Dev.poolReturn (d : Dev) (y : Nat) (s : USlot) : Dev :=
  (d.addWrap F.YRD_COLL_PROM_FREE_FREE [y] (s.entries.countP (fun e => e.held == 1))).promResume y

/-- Free the up slot of stage `s` and forget its output. -/
def Chunk.freeUp (c : Chunk) (s : Nat) : Chunk := { c with ups := c.ups.filter (·.stage != s), outs := c.outs.filter (·.stage != s) }

/-- The chunk of a live context that is still unfinished there. -/
def Dev.openChunk (d : Dev) (id n : Nat) : Option (Ctx × Chunk) :=
  match d.ctx id with
  | some x => if d.live x && x.has n && (x.chunk n).fin.isNone then some (x, x.chunk n) else none
  | none => none

/-- The chunk's end is signalled on this device (R328, R330) (DEDUCED, log 37). -/
def Dev.signals (d : Dev) (x : Ctx) (n : Nat) : Bool :=
  cdSigMode x.desc != 0 && (cdDir x.desc != 0 || d.isRoot x.desc n)

/-- The lowest failed chunk after another failure. -/
def worstChunk (a : Option (Nat × Status)) (n : Nat) (st : Status) : Option (Nat × Status) :=
  match a with
  | some (m, s) => if n < m then some (n, st) else some (m, s)
  | none => some (n, st)

/-- A chunk is abandoned (R330): its slots and pool entries go, nothing later of it runs, its signal is owed (DEDUCED, log
37). -/
def Dev.abandon (d : Dev) (id n : Nat) (st : Status) : Dev :=
  match d.ctx id with
  | none => d
  | some x =>
    let c := x.chunk n
    if c.fin.isSome || !x.has n then d
    else
      let d := c.ups.foldl (fun d s => d.poolReturn (x.yardOf n) s) d
      let x := { x with failCnt := x.failCnt + 1, firstFail := worstChunk x.firstFail n st }
      d.setCtx id (x.setChunk n { Chunk.init with fin := some st, sigDue := d.signals x n })

/-- A chunk has finished its last role. -/
def Dev.finishChunk (d : Dev) (id n : Nat) : Dev :=
  match d.ctx id with
  | none => d
  | some x =>
    let d := (x.chunk n).ups.foldl (fun d s => d.poolReturn (x.yardOf n) s) d
    d.setCtx id ({ x with doneCnt := x.doneCnt + 1 }.setChunk n { Chunk.init with fin := some .ok, sigDue := d.signals x n })

/-- Counts of a rounding or a read go to the context and to the capstan's flags (R298, R299, R337). -/
def Dev.collArith (d : Dev) (id n : Nat) (a : Arith) : Dev :=
  match d.ctx id with
  | none => d
  | some x => (d.setCtx id { x with sat := x.sat + a.sat, flush := x.flush + a.flush }).arith (d.capTackle (x.yardOf n) n) a

/-! ## Packets of a capstan -/

/-- The address of a participant at stage `s` (R306, R312): K counts RACK, W ROW, H HALL. -/
def Dev.peerAddr (d : Dev) (s i e : Nat) : Nat :=
  let f := d.net.fabAddr
  (if s = 3 then i else f.1) * 16384 + (if s = 2 then i else f.2.1) * 1024 + (if s = 1 then i else f.2.2.1) * 64 + e

/-- Send a packet of context `id`, chunk `n`, from its capstan; a CHUNK is sealed (R197, R312, R324). -/
def Dev.capSend (d : Dev) (x : Ctx) (id n op stage contrib dst raddr st mc : Nat) (payload : List Byte) (tdel : Bool) : Dev :=
  let y := x.yardOf n
  let sealed := op == opCHUNK
  d.sendPkt (8 + y, d.capOf y n)
    { PktHdr.zero with
      dst := dst, tc := 2, op := op, sealB := b2n sealed, src := d.addr (48 + n % 4), raddr := raddr % 2 ^ 56, status := st
      mc := mc, pkey := cdPkey x.desc, len := payload.length, coll := id, stage := stage, contrib := contrib, chunk := n }
    (payload ++ (if sealed then leBytes 4 (sealOf id n stage contrib payload) else [])) (.capstan id n tdel)

/-! ## Up grants (R311, R312, R319, R340) -/

/-- Up slots of stage `s` in use in yard `y`. -/
def Ctx.usedUp (x : Ctx) (s y : Nat) : Nat :=
  (x.chunks.map (fun p => if x.yardOf (ix p.1 0) = y then p.2.ups.countP (·.stage == s) else 0)).sum

/-- The device grants an up slot of stage `s` to chunk `n`: it owns it there; in DOWN mode only the root stage has slots. -/
def Dev.upFor (d : Dev) (x : Ctx) (s n : Nat) : Bool :=
  (x.chunk n).fin.isNone && (if cdDown x.desc then s == cdTop x.desc && d.isRoot x.desc n else d.owns x.desc s n)

/-- The next chunk that yard `y` grants an up slot of stage `s` to (DEDUCED, log 36). -/
def Dev.nextUp (d : Dev) (x : Ctx) (s y : Nat) : Option Nat :=
  let start := nget (cdFirst x.desc) x.nextUp [s, y]
  firstFrom (fun n => x.yardOf n == y && d.upFor x s n) (cdFirst x.desc + cdCount x.desc - start) start

/-- A new up slot at offset `off` of its yard's staging. -/
def newSlot (c : List Byte) (s now off : Nat) : USlot :=
  ⟨s, now, none, [], if cdDown c || cdSmerge c then [] else List.replicate (cdE c) (Entry.init (cdOp c)), [], off⟩

/-- Slots of yard `y` in use: offset and size (R318, R323). -/
def Dev.usedSlots (d : Dev) (y : Nat) : List (Nat × Nat) :=
  (d.yardChunks y).flatMap (fun c => c.2.ups.map (fun u => (u.off, cdUpSize c.1.desc u.stage)) ++ c.2.rets.map (fun r => (r.2.2, cdRetSize c.1.desc)))

/-- Where a new slot of `size` bytes lies in yard `y`, and the device with the free number used (DESIGN CHOICE, log 79). -/
def Dev.placeSlot (d : Dev) (y size : Nat) : Nat × Dev := (slotPlace (d.usedSlots y) size d.freeNum.1, d.freeNum.2)

/-- The GRANTs of an up slot: to every contributor that is not on this device. -/
def Dev.sendGrants (d : Dev) (x : Ctx) (id n s : Nat) : Dev :=
  if cdDown x.desc then d
  else if s = 0 then
    ((contributors x.desc 0).filter (· < 32)).foldl (fun d i => d.capSend x id n opGRANT 0 i (d.addr i) 0 0 0 [] false) d
  else
    ((contributors x.desc s).filter (· ≠ d.coord s)).foldl (fun d i =>
      d.capSend x id n opGRANT s i (d.peerAddr s i (48 + n % 4)) 0 0 0 [] false) d

/-- UP_GRANT_ISSUE: context `id`, stage `s`, yard `y` (DEDUCED, log 36). -/
def Dev.upGrant (d : Dev) (id s y : Nat) : Dev :=
  match d.ctx id with
  | none => d
  | some x =>
    if d.live x && x.started && x.serve.contains y && cdEn x.desc s && !d.flag F.YRD_COLL_STAT_PROM_STOP [y]
        && x.usedUp s y < cdUpSlots x.desc s then
      match d.nextUp x s y with
      | none => d
      | some n =>
        if cdDown x.desc && x.limit ≤ n then d
        else
          let c := x.chunk n
          let local_ := (cdDown x.desc || s == 0) && n < x.limit
          let x := { x with nextUp := nset x.nextUp [s, y] (n + 1), granted := if local_ then x.granted ++ [n] else x.granted }
          let o := d.placeSlot y (cdUpSize x.desc s)
          let x := x.setChunk n { c with ups := c.ups ++ [newSlot x.desc s d.clk.frame o.1] }
          (o.2.setCtx id x).sendGrants x id n s
    else d

/-! ## Return grants (R313) -/

/-- Return slots of stage `s` in use in yard `y`. -/
def Ctx.usedRet (x : Ctx) (s y : Nat) : Nat :=
  (x.chunks.map (fun p => if x.yardOf (ix p.1 0) = y then p.2.rets.countP (fun r => r.1 == s) else 0)).sum

/-- RETURN_GRANT_ISSUE: context `id`, stage `s`, yard `y` (DEDUCED, log 36). -/
def Dev.returnGrant (d : Dev) (id s y : Nat) : Dev :=
  match d.ctx id with
  | none => d
  | some x =>
    if d.live x && x.started && x.serve.contains y && s != 0 && cdEn x.desc s && cdDir x.desc != 0
        && x.usedRet s y < cdRetSlots x.desc s then
      let start := nget (cdFirst x.desc) x.nextRet [s, y]
      match firstFrom (fun n => x.yardOf n == y && (x.chunk n).fin.isNone && d.takesPart x.desc s n && !d.owns x.desc s n)
          (cdFirst x.desc + cdCount x.desc - start) start with
      | none => d
      | some n =>
        let c := x.chunk n
        let x := { x with nextRet := nset x.nextRet [s, y] (n + 1) }
        let o := d.placeSlot y (cdRetSize x.desc)
        let x := x.setChunk n { c with rets := c.rets ++ [(s, d.clk.frame, o.1)] }
        (o.2.setCtx id x).capSend x id n opGRANT 4 (d.coord s) (d.peerAddr s (ownerAt x.desc s n) (48 + n % 4)) 0 0 0 [] false
    else d

/-! ## Strays and grants taken (R312, R314) -/

/-- A stray at yard `y`. -/
def Dev.stray (d : Dev) (y : Nat) : Dev := (d.incSat F.YRD_COLL_STRAY_COUNT [y]).raise F.YRD_COLL_STAT_STRAY [y]

/-- The first packet at the capstans of yard `y`, when its operation is `op`, and the device without it. -/
def Dev.popCapstan (d : Dev) (y op : Nat) : Option (Arrival × Dev) :=
  match d.net.arrivals.find? (fun a => a.at_ == .capstan y) with
  | some a =>
    if a.hdr.op = op then
      some (a, ({ d with net := { d.net with arrivals := d.net.arrivals.erase a } } : Dev).echoMark a.hdr (endpointOf a.hdr.dst))
    else none
  | none => none

/-- The upper stage in whose dimension alone an address differs from the device's own (DEDUCED, log 36). -/
def Dev.stageOf (d : Dev) (src : Nat) : Option StageNo :=
  match [1, 2, 3].filter (fun s => coordOf src s != coordOf (d.addr 0) s) with
  | [s] => some s
  | _ => none

/-- The unfinished chunk that a packet at endpoint 48 + (n mod 4) names. -/
def Dev.chunkOf (d : Dev) (h : PktHdr) : Option (Ctx × Chunk) :=
  if endpointOf h.dst = 48 + h.chunk % 4 then d.openChunk h.coll h.chunk else none

/-- GRANT_RECEIVE at the capstans of yard `y`: an up grant of the owner for an output that this device owes, naming this device's index,
or a return grant of a participant below; anything else is a stray (R312, R314) (DEDUCED, log 36). -/
def Dev.grantReceive (d : Dev) (y : Nat) : Dev :=
  match d.popCapstan y opGRANT with
  | none => d
  | some (a, d) =>
    let h := a.hdr
    match d.chunkOf h with
    | none => d.stray y
    | some (x, c) =>
      let s := h.stage
      if 1 ≤ s ∧ s ≤ 3 then
        if cdEn x.desc s && !cdDown x.desc && d.takesPart x.desc s h.chunk && !d.owns x.desc s h.chunk && !c.grants.any (fun g => g.1 == s)
            && h.contrib == d.coord s && h.src == d.peerAddr s (ownerAt x.desc s h.chunk) (48 + h.chunk % 4) then
          d.setCtx h.coll (x.setChunk h.chunk { c with grants := c.grants ++ [(s, h.src)] })
        else d.stray y
      else
        match d.stageOf h.src with
        | some t =>
          if s = 4 ∧ cdDir x.desc ≠ 0 ∧ d.owns x.desc t h.chunk = true ∧ bit (cdMask x.desc t) h.contrib = true
              ∧ h.src = d.peerAddr t h.contrib (48 + h.chunk % 4) ∧ !c.retGrants.contains (t, h.contrib) then
            d.setCtx h.coll (x.setChunk h.chunk { c with retGrants := c.retGrants ++ [(t, h.contrib)] })
          else d.stray y
        | none => d.stray y

/-! ## Intake (R287, R316–R322, R331) -/

/-- A part that failed its seal is counted. -/
def Dev.sealCount (d : Dev) (id y : Nat) : Dev :=
  let d := ((d.incSat F.YRD_COLL_SEAL_FAIL_COUNT [y]).raise F.YRD_COLL_STAT_SEAL_FAIL [y]).fault (1 + y) .collSeal
  match d.ctx id with
  | some x => d.setCtx id { x with sealFail := x.sealFail + 1 }
  | none => d

/-- Entries promoted by one part: `p` to the pool of yard `y`, `o` to the overflow region (R287, R319, R320) (DEDUCED, log
37). -/
def Dev.notePromoted (d : Dev) (id n y p o : Nat) : Dev :=
  if p + o = 0 then d
  else
    let d := (d.addSat F.CPS_PROMOTED_COUNT [y, d.capPhys y n] (p + o)).raise F.TCK_ARITH_PROMOTED [d.capTackle y n]
    let d := d.subF F.YRD_COLL_PROM_FREE_FREE [y] p
    let d := if d.getF F.YRD_COLL_PROM_FREE_FREE [y] = 0 ∧ 0 < p then
        (d.raise F.YRD_COLL_STAT_PROM_STOP [y]).raise F.YRD_COLL_STAT_PROM_FULL [y] else d
    let d := if 0 < o then (d.addSat F.YRD_COLL_OVF_CNT_COUNT [y] o).raise F.YRD_COLL_STAT_OVF_USED [y] else d
    match d.ctx id with
    | some x => d.setCtx id { x with
        promoted := x.promoted + p + o, overflowed := x.overflowed + o, flags := if 0 < o then setBit x.flags 3 else x.flags }
    | none => d

/-- Parts of a contribution at a stage. -/
def partsAt (c : List Byte) (s : StageNo) : Nat := if s = 0 then 1 else cdP c

/-- The contribution of `idx` is whole in the slot. -/
def USlot.whole (u : USlot) (c : List Byte) (idx : Nat) : Bool := u.got.countP (fun g => g.1 == idx) == partsAt c u.stage

/-- A late contribution (R322) (DEDUCED, log 37). -/
def Dev.late (d : Dev) (id n y : Nat) : Dev :=
  let d := (d.incSat F.CPS_LATE_COUNT [y, d.capPhys y n]).tdc .lateContrib (d.capTackle y n)
  match d.ctx id with
  | some x => d.setCtx id { x with late := x.late + 1 }
  | none => d

/-- Address of entry `i` of yard `y`'s overflow region (R321). -/
def Dev.ovfAddr (d : Dev) (y i : Nat) : Nat := d.getF F.YRD_COLL_OVF_BASE [y] * 2 ^ 21 + 48 * i

/-- The 48 bytes of the entries of `es` that the overflow region holds are read (R320). -/
def Dev.fetchOvf (d : Dev) (y : Nat) (es : List Entry) : List Entry × Dev :=
  es.foldl (fun r e =>
    if e.held = 2 then
      let m := r.2.load (r.2.ovfAddr y e.idx) 48
      (r.1 ++ [e.fromWide m.1], m.2)
    else (r.1 ++ [e], r.2)) ([], d)

/-- Their 48 bytes are written (R320). -/
def Dev.storeOvf (d : Dev) (y : Nat) (es : List Entry) : Dev :=
  es.foldl (fun d e => if e.held = 2 then (d.store .granted (d.ovfAddr y e.idx) e.wideBytes).1 else d) d

/-- Elements `lo` to `lo + n - 1` of a slot are read from the overflow region where it holds them. -/
def Dev.fetchSpan (d : Dev) (y : Nat) (es : List Entry) (lo n : Nat) : List Entry × Dev :=
  let r := d.fetchOvf y ((es.drop lo).take n)
  (es.take lo ++ r.1 ++ es.drop (lo + n), r.2)

/-- An entry that the overflow region holds lies in memory that is in reset or not ready: it is answered UNIT_RESET (R22). -/
def Dev.ovfLost (d : Dev) (y : Nat) (es : List Entry) : Bool := es.any (fun e => e.held == 2 && !d.memServed (d.ovfAddr y e.idx) 48)

/-- Where a contribution kept whole lies in its slot (R322): contributors in ascending order, the parts of one after another; ROOT bytes
fill the slot (DEDUCED, log 79). -/
def keptAt (c : List Byte) (s idx part : Nat) : Nat :=
  if cdDown c then 0
  else ((contributors c s).filter (· < idx)).length * cdContribSize c s + part * (cdContribSize c s / partsAt c s)

/-- A part enters the up slot of stage `s`: kept whole for SMERGE, added exactly otherwise (R317, R320, R322). -/
def Dev.takePart (d : Dev) (id n s idx part : Nat) (data : List Byte) : Dev :=
  match d.openChunk id n with
  | none => d
  | some (x, c) =>
    match c.ups.find? (fun u => u.stage == s) with
    | none => d
    | some u =>
      let y := x.yardOf n
      let keep := cdSmerge x.desc || cdDown x.desc
      let u := { u with got := u.got ++ [(idx, part, if keep then (data, keptAt x.desc s idx part) else ([], 0))] }
      let span := partSpan x.desc s part data
      let lost := d
      let m := d.fetchSpan y u.entries span.1 span.2
      let d := m.2
      let r := addPart x.desc s part m.1 data
      let free := d.getF F.YRD_COLL_PROM_FREE_FREE [y]
      let g := placeGrown d.freeNum.1 free ((d.heldEntries y 1).map (·.idx)) ((d.heldEntries y 2).map (·.idx)) r.1
      if lost.ovfLost y ((g.1.drop span.1).take span.2) then lost.abandon id n .unitReset
      else
      let d := if g.2 = (0, 0) then d else d.freeNum.2
      let lateNow := cdSmerge x.desc && cdDeadline x.desc s != 0 && u.whole x.desc idx
        && (match u.firstAt with | some f => decide (f + cdDeadline x.desc s < d.clk.frame) | none => false)
      let u := { u with
        entries := if keep then [] else g.1
        firstAt := if u.firstAt.isNone && u.whole x.desc idx then some d.clk.frame else u.firstAt }
      let d := d.setCtx id (x.setChunk n { c with ups := c.ups.map (fun v => if v.stage = s then u else v) })
      let d := if keep then d
        else ((d.storeOvf y ((g.1.drop span.1).take span.2)).notePromoted id n y g.2.1 g.2.2).collArith id n r.2
      if lateNow then d.late id n y else d

/-- Contributor and part that a CHUNK's CONTRIB names at a stage (R307). -/
def contribParts (s contrib : Nat) : Nat × Nat := if s = 0 then (contrib, 0) else (contrib % 16, contrib / 16)

/-- CHUNK_INTAKE of the capstans of yard `y`. -/
def Dev.chunkIntake (d : Dev) (y : Nat) : Dev :=
  match d.popCapstan y opCHUNK with
  | none => d
  | some (a, d) =>
    let h := a.hdr
    let data := a.bytes.take h.len
    let good := leAt a.bytes h.len 4 == sealOf h.coll h.chunk h.stage h.contrib data
    match d.chunkOf h with
    | none => d.stray y
    | some (x, c) =>
      if h.stage = 4 then
        match c.rets with
        | [] => d.stray y
        | _ :: _ =>
          if c.result.isSome || h.contrib != 0 || h.len != cdO x.desc then d.stray y
          else if !good then (d.sealCount h.coll y).abandon h.coll h.chunk .sealFail
          else d.setCtx h.coll (x.setChunk h.chunk { c with result := some data, heldAt := d.clk.frame })
      else
        let k := contribParts h.stage h.contrib
        match c.ups.find? (fun u => u.stage == h.stage) with
        | none => d.stray y
        | some u =>
          let s := h.stage
          if cdDown x.desc || !(contributors x.desc s).contains k.1 || partsAt x.desc s ≤ k.2
              || u.got.any (fun g => g.1 == k.1 && g.2.1 == k.2) || c.outs.any (fun o => o.stage == s) || c.result.isSome || c.written
              || h.len * partsAt x.desc s != cdContribSize x.desc s || (s != 0 && k.1 == d.coord s) then d.stray y
          else if good then d.takePart h.coll h.chunk s k.1 k.2 data
          else if s = 0 && !u.failed.contains k.1 then
            let u := { u with failed := u.failed ++ [k.1] }
            let d := (d.setCtx h.coll (x.setChunk h.chunk { c with ups := c.ups.map (fun v => if v.stage = s then u else v) })).sealCount h.coll y
            match d.ctx h.coll with
            | some x =>
              if k.1 < 32 then d.capSend x h.coll h.chunk opGRANT 0 k.1 (d.addr k.1) 0 Status.sealFail.code 0 [] false
              else d.setCtx h.coll { x with joins := x.joins.map (fun j => if j.role = k.1 then { j with sent := j.sent.filter (· ≠ h.chunk) } else j) }
            | none => d
          else (d.sealCount h.coll y).abandon h.coll h.chunk .sealFail

/-! ## Stage outputs (R291–R295, R324, R325) -/

/-- Every part of every contribution of the slot's stage is in; in DOWN mode, the joined bytes. -/
def USlot.full (u : USlot) (c : List Byte) : Bool :=
  if cdDown c then u.got.any (fun g => g.1 == 0xFF) else (contributors c u.stage).all (u.whole c)

/-- Contributions kept whole, in ascending contributor index, their parts in order. -/
def USlot.kept (u : USlot) (c : List Byte) : List (List Byte) :=
  (contributors c u.stage).map (fun i =>
    (List.range (partsAt c u.stage)).flatMap (fun p => ((u.got.find? (fun g => g.1 == i && g.2.1 == p)).map (·.2.2.1)).getD []))

/-- Bytes padded with zeros to a length. -/
def padTo (n : Nat) (l : List Byte) : List Byte := l ++ List.replicate (n - l.length) 0

/-- The wire partial of a full slot: bytes, counts, flags. -/
def USlot.wire (u : USlot) (c : List Byte) : List Byte × Arith × WireFlags :=
  if cdSmerge c then
    let r := mergeAll c u.stage (u.kept c)
    (padTo (cdW c) (r.1.flatMap tripleWire), ⟨r.2, 0, r.1.any (·.m.isNan)⟩, ⟨false, false, false⟩)
  else
    let r := u.entries.map (wireOut c)
    (padTo (cdW c) (r.flatMap (fun x => leBytes (fmtBits (cdWire c) / 8) x.1)), r.foldl (fun a x => a.add x.2.1) .zero,
      ⟨r.any (·.2.2.low), r.any (·.2.2.high), r.any (·.2.2.inexact)⟩)

/-- The result of a full slot at the root: its O bytes and counts. -/
def USlot.result (u : USlot) (c : List Byte) : List Byte × Arith :=
  if cdDown c then (((u.got.find? (fun g => g.1 == 0xFF)).map (·.2.2.1)).getD [], .zero)
  else if cdSmerge c then
    let r := mergeAll c u.stage (u.kept c)
    let o := r.1.map (tripleRoot c)
    (o.flatMap (·.1), o.foldl (fun a x => a.add x.2) ⟨r.2, 0, r.1.any (·.m.isNan)⟩)
  else
    let r := u.entries.map (rootOut c)
    (r.flatMap (fun x => leBytes (cdOutW c) x.1), r.foldl (fun a x => a.add x.2) .zero)

/-- A capstan completes a stage: counted, toward its next test too. -/
def Dev.stageCount (d : Dev) (id n y : Nat) : Dev :=
  let c := d.capPhys y n
  let d := d.addWrap F.CPS_CHUNKS_COUNT [y, c] 1
  let d := { d with coll := { d.coll with since := nput 0 d.coll.since [y, c] (nget 0 d.coll.since [y, c] + 1) } }
  match d.ctx id with
  | some x => if x.used.contains (y, c) then d else d.setCtx id { x with used := x.used ++ [(y, c)] }
  | none => d

/-- The slot of a stage that is full and has given no output. -/
def Chunk.ready (c : Chunk) (desc : List Byte) (s : Nat) : Option USlot :=
  match c.ups.find? (fun u => u.stage == s) with
  | some u => if u.full desc && !c.outs.any (fun o => o.stage == s) && c.result.isNone && !c.written then some u else none
  | none => none

/-- The slot with its entries in the overflow region read, as its output needs them. -/
def Dev.fetchSlot (d : Dev) (y : Nat) (u : USlot) : USlot × Dev :=
  let r := d.fetchOvf y u.entries
  ({ u with entries := r.1 }, r.2)

/-- STAGE_COMPLETE of a stage that is not the chunk's root (R324 step 1). -/
def Dev.stageComplete (d : Dev) (id n s : Nat) : Dev :=
  match d.openChunk id n with
  | none => d
  | some (x, c) =>
    match c.ready x.desc s with
    | none => d
    | some u =>
      let y := x.yardOf n
      if s = cdTop x.desc then d
      else if d.ovfLost y u.entries then d.abandon id n .unitReset
      else
        let m := d.fetchSlot y u
        let d := m.2
        let w := m.1.wire x.desc
        let t := d.capTackle y n
        let d := d.setCtx id (x.setChunk n { c with outs := c.outs ++ [⟨s, d.clk.frame, w.1, 0⟩] })
        let d := (d.stageCount id n y).collArith id n w.2.1
        let d := if w.2.2.low then d.raise F.TCK_ARITH_ANCH_LOW [t] else d
        let d := if w.2.2.high then d.raise F.TCK_ARITH_ANCH_HIGH [t] else d
        if w.2.2.inexact then d.raise F.TCK_ARITH_WIRE_INEXACT [t] else d

/-- The slot of stage `s` has given its whole output: it is freed. -/
def Dev.outputGone (d : Dev) (id n s : Nat) : Dev :=
  match d.openChunk id n with
  | none => d
  | some (x, c) =>
    let d := (c.ups.filter (·.stage == s)).foldl (fun d u => d.poolReturn (x.yardOf n) u) d
    d.setCtx id (x.setChunk n (c.freeUp s))

/-- STAGE_OUTPUT_SEND: the next part of stage `s`'s output, once the next owner has granted (R324 steps 2 to 4). A device
that takes no part in the next stage has no further role (DEDUCED, logs 35, 37). -/
def Dev.stageSend (d : Dev) (id n s : Nat) : Dev :=
  match d.openChunk id n with
  | none => d
  | some (x, c) =>
    match c.outs.find? (fun o => o.stage == s), nextStage x.desc s with
    | some o, some r =>
      let P := cdP x.desc
      let w := cdW x.desc / P
      let data := takeAt o.wire (o.sent * w) w
      let last := o.sent + 1 == P
      let c' := { c with outs := c.outs.map (fun v => if v.stage = s then { v with sent := v.sent + 1 } else v) }
      if !d.takesPart x.desc r n then d.finishChunk id n
      else if d.owns x.desc r n then
        if c.ups.any (fun u => u.stage == r) then
          let d := (d.setCtx id (x.setChunk n c')).takePart id n r (d.coord r) o.sent data
          if last then d.outputGone id n s else d
        else d
      else
        match c.grants.find? (fun g => g.1 == r) with
        | none => d
        | some g =>
          let d := (d.setCtx id (x.setChunk n c')).capSend x id n opCHUNK r (d.coord r + 16 * o.sent) (g.2 % 2 ^ 18) 0 0 0 data false
          if !last then d
          else if cdDir x.desc = 0 then d.finishChunk id n
          else d.outputGone id n s
    | _, _ => d

/-- Where the result of chunk `n` lands on this device. -/
def resAddr (c : List Byte) (n : Nat) : Nat := (cdResBase c + (n - cdFirst c) * cdO c) % 2 ^ 48

/-- A result must wait to be written: a stack of its range is not ready, or an island there is stopped (R58, R103). -/
def Dev.landWaits (d : Dev) (a n : Nat) : Bool :=
  (d.memStopped a n).isSome || (placesOf a n).any (fun p => match p with | .stack k => d.islandOn (placeIsland p) && !d.stackReady k | _ => false)

/-- ROOT_FINAL (R325). A write that meets memory in reset is answered UNIT_RESET, and the chunk is abandoned with it (R22, R330) (DEDUCED,
log 80). -/
def Dev.rootFinal (d : Dev) (id n : Nat) : Dev :=
  match d.openChunk id n with
  | none => d
  | some (x, c) =>
    match c.ready x.desc (cdTop x.desc) with
    | none => d
    | some u =>
      let y := x.yardOf n
      if !d.isRoot x.desc n then d
      else if d.ovfLost y u.entries then d.abandon id n .unitReset
      else
        let m := d.fetchSlot y u
        let r := m.1.result x.desc
        let a := resAddr x.desc n
        if cdDir x.desc = 0 then
          if d.landWaits a r.1.length then d
          else
            let d := (m.2.stageCount id n y).collArith id n r.2
            if !d.memServed a r.1.length then d.abandon id n .unitReset
            else if !d.canWrite .fabric a r.1.length then d.abandon id n .owner
            else
              let d := (d.store .fabric a r.1).1
              match d.openChunk id n with
              | some (x, c) => (d.setCtx id (x.setChunk n { c with written := true })).outputGone id n (cdTop x.desc)
              | none => d
        else
          let d := (m.2.stageCount id n y).collArith id n r.2
          match d.openChunk id n with
          | some (x, c) => d.setCtx id (x.setChunk n { c with result := some r.1, heldAt := d.clk.frame })
          | none => d

/-! ## The down path (R326, R327) -/

/-- Participants of the upper stages that this device owns, each of which needs a copy: stage and coordinate. -/
def Dev.copiesDue (d : Dev) (x : Ctx) (n : Nat) : List (Nat × Nat) :=
  ((cdUpper x.desc).filter (fun s => d.owns x.desc s n)).flatMap (fun s =>
    ((contributors x.desc s).filter (· ≠ d.coord s)).map (fun i => (s, i)))

/-- A holder's slots are free once every copy and every T delivery is handed over (DEDUCED, log 36). -/
def Dev.downFree (d : Dev) (id n : Nat) : Dev :=
  match d.openChunk id n with
  | none => d
  | some (x, c) =>
    if c.result.isSome && c.tStarted && (d.copiesDue x n).all (fun k => c.copies.contains k) then
      let d := c.ups.foldl (fun d u => d.poolReturn (x.yardOf n) u) d
      d.setCtx id (x.setChunk n { c with ups := [], rets := [] })
    else d

/-- FINAL_COPY_DOWN: the copy for coordinate `i` of stage `s`, which has granted a return slot. -/
def Dev.copyDown (d : Dev) (id n s i : Nat) : Dev :=
  match d.openChunk id n with
  | none => d
  | some (x, c) =>
    match c.result with
    | none => d
    | some r =>
      if (d.copiesDue x n).contains (s, i) && c.retGrants.contains (s, i) && !c.copies.contains (s, i) then
        ((d.setCtx id (x.setChunk n { c with copies := c.copies ++ [(s, i)] })).capSend x id n opCHUNK 4 0
          (d.peerAddr s i (48 + n % 4)) 0 0 0 r false).downFree id n
      else d

/-- T_DELIVERY (R327). A write that meets memory in reset is answered UNIT_RESET, and the chunk is abandoned with it (R22, R330) (DEDUCED,
log 80). -/
def Dev.tDelivery (d : Dev) (id n : Nat) : Dev :=
  match d.openChunk id n with
  | none => d
  | some (x, c) =>
    match c.result with
    | none => d
    | some r =>
      let a := resAddr x.desc n
      if c.tStarted || (cdResLocal x.desc && d.landWaits a r.length) then d
      else if cdResLocal x.desc && !d.memServed a r.length then d.abandon id n .unitReset
      else if cdResLocal x.desc && !d.canWrite .fabric a r.length then d.abandon id n .owner
      else
        let d := if cdResLocal x.desc then (d.store .fabric a r).1 else d
        let accs := (contributors x.desc 0).filter (· < 32)
        let raddr := cdAccBase x.desc + (n - cdFirst x.desc) * cdO x.desc
        let dsts : List (Nat × Nat) := if accs.isEmpty then []
          else match cdGroup x.desc with
            | some g => [(g, 1)]
            | none => accs.map (fun i => (d.addr i, 0))
        let d := d.setCtx id (x.setChunk n { c with tStarted := true, tLeft := dsts.length })
        (dsts.foldl (fun d t => d.capSend x id n opCHUNK 4 0 t.1 raddr 0 t.2 r true) d).downFree id n

/-! ## Ends of chunks and contexts (R310, R328, R332, R337) -/

/-- The finish point of R328: the root's write is visible, or every copy is handed over and T delivery has left. -/
def Dev.chunkOver (d : Dev) (x : Ctx) (c : Chunk) (n : Nat) : Bool :=
  if cdDir x.desc = 0 then c.written
  else c.result.isSome && c.tStarted && c.tLeft == 0 && (d.copiesDue x n).all (fun k => c.copies.contains k)

/-- The signal of a chunk that ended with `st`. -/
def Dev.sendSignal (d : Dev) (id n : Nat) (x : Ctx) (st : Status) : Dev :=
  let c := x.desc
  let note := noticeBytes kindCHUNK_DONE st.code (d.addr (48 + n % 4)) id n 0 d.fabTime
  match cdSigMode c with
  | 1 =>
    let y := x.yardOf n
    d.sendPkt (8 + y, d.capOf y n)
      { PktHdr.zero with
        dst := cdNoteDst c % 2 ^ 18, rsv0 := cdNoteDst c / 2 ^ 18, tc := 1, op := opNOTICE, src := d.addr (48 + n % 4)
        raddr := (cdNoteBase c + (n - cdFirst c) % 2 ^ cdNoteLog c * 32) % 2 ^ 56, pkey := cdPkey c, len := 32 }
      note (.capstan id n false)
  | 2 => d.addRec (cdSigRing c) (leBytes 4 40 ++ leBytes 1 0x40 ++ leBytes 3 0 ++ note) none
  | 3 =>
    if d.seqAlive (cdSigTackle c) then d.ctrAdd (cdSigTackle c) (cdSigCtr c) 1
    else match d.ctx id with
      | some x => d.setCtx id { x with flags := setBit x.flags 4 }
      | none => d
  | _ => d

/-- CHUNK_SIGNAL: a chunk that reaches its finish point is done, and a chunk that has ended raises its signal. -/
def Dev.chunkSignal (d : Dev) (id n : Nat) : Dev :=
  let d := match d.openChunk id n with
    | some (x, c) => if d.chunkOver x c n then d.finishChunk id n else d
    | none => d
  match d.ctx id with
  | none => d
  | some x =>
    let c := x.chunk n
    match c.fin with
    | some st => if c.sigDue && !(cdSigMode x.desc == 3 && d.seqStopped (cdSigTackle x.desc)) then (d.setCtx id (x.setChunk n { c with sigDue := false })).sendSignal id n x st else d
    | none => d

/-- A timer of `TIMEOUT` that started in frame `at_` has run out: 10.24 µs are 64 frames. -/
def Dev.collExpired (d : Dev) (x : Ctx) (at_ : Nat) : Bool := at_ + 64 * cdTimeout x.desc ≤ d.clk.frame

/-- The next stage has granted the output of stage `s`, or is this device's own slot. -/
def Dev.outGranted (d : Dev) (x : Ctx) (c : Chunk) (n s : Nat) : Bool :=
  match nextStage x.desc s with
  | some r => if d.owns x.desc r n then c.ups.any (fun u => u.stage == r) else c.grants.any (fun g => g.1 == r)
  | none => false

/-- A case of R332 holds for the chunk. -/
def Dev.chunkLate (d : Dev) (x : Ctx) (c : Chunk) (n : Nat) : Bool :=
  cdTimeout x.desc != 0 &&
    (c.ups.any (fun u => d.collExpired x u.grantAt && !u.full x.desc)
      || c.outs.any (fun o => d.collExpired x o.doneAt && o.sent == 0 && !d.outGranted x c n o.stage)
      || (c.result.isNone && c.rets.any (fun r => d.collExpired x r.2.1))
      || (c.result.isSome && d.collExpired x c.heldAt && c.tStarted && c.tLeft == 0
          && (d.copiesDue x n).any (fun k => !c.retGrants.contains k)
          && c.retGrants.all (fun k => c.copies.contains k)))

/-- CHUNK_TIMEOUT. -/
def Dev.chunkTimeout (d : Dev) (id n : Nat) : Dev :=
  match d.openChunk id n with
  | some (x, c) =>
    if d.chunkLate x c n then
      ((d.incSat F.YRD_COLL_TIMEOUT_COUNT [x.yardOf n]).raise F.YRD_COLL_STAT_TIMEOUT [x.yardOf n]).abandon id n .timeout
    else d
  | none => d

/-- The context record of R337. -/
def Dev.ctxRecord (d : Dev) (id : Nat) (x : Ctx) : List Byte :=
  let sat32 := fun (n : Nat) => leBytes 4 (min n (2 ^ 32 - 1))
  leBytes 4 64 ++ leBytes 1 0x48 ++ leBytes 1 ((x.firstFail.map (fun f => f.2.code)).getD 0) ++ leBytes 2 id ++ leBytes 8 x.openTime
    ++ leBytes 8 d.fabTime ++ leBytes 4 x.doneCnt ++ leBytes 4 x.failCnt ++ leBytes 4 ((x.firstFail.map (·.1)).getD 0xFFFFFFFF)
    ++ sat32 x.sat ++ sat32 x.flush ++ leBytes 4 x.sealFail ++ leBytes 4 x.late ++ leBytes 4 x.promoted ++ leBytes 4 x.overflowed
    ++ leBytes 1 x.flags ++ leBytes 3 0

/-- Give a dispatched command its status. -/
def Dev.endRun (d : Dev) (t uid : Nat) (st : Status) : Dev :=
  let x := d.tck t
  (d.setTck t { x with runs := x.runs.map (fun r => if r.cmd.uid == uid && r.status.isNone then { r with status := some st } else r) }).release t uid

/-- Bytes a role sends per chunk. -/
def roleBytes (c : List Byte) (role : Nat) : Nat := if role = 0xFF then cdO c else cdChunk c

/-- Bytes `o` to `o + n - 1` of a join's operand, if all of them have been read; `size` bytes make a chunk. -/
def Join.moved? (j : Join) (size o n : Nat) : Option (List Byte) :=
  let cs := (List.range ((o + n - 1) / size - o / size + 1)).map (fun i => nget? j.moved [o / size + i])
  if cs.all Option.isSome then some (((cs.map (fun c => c.getD [])).flatten.drop (o % size)).take n) else none

/-- A join ends: the seals of the pieces it has read, counted from its operand's first byte, reach the digest windows (R86) (DEDUCED,
log 27). -/
def Dev.joinSeals (d : Dev) (c : List Byte) (j : Join) : Dev :=
  let size := roleBytes c j.role
  let total := cdCount c * size
  let ps := (List.range (ceilDiv total digestPiece)).filterMap (fun p =>
    let n := min digestPiece (total - p * digestPiece)
    (j.moved? size (p * digestPiece) n).map (fun b => (p, [(j.base + p * digestPiece, n)], b)))
  match (d.tck j.tackle).runs.find? (fun r => r.cmd.uid == j.uid) with
  | some r => d.feedPieces j.tackle j.tackle r false ps
  | none => d

/-- A context ends: its record, its staging, its entries, and its joins (R310, R444). -/
def Dev.endCtx (d : Dev) (id : Nat) (x : Ctx) (join : Status) : Dev :=
  let d := d.addRec (cdCtxRing x.desc) (d.ctxRecord id x) none
  let ys := (List.range 4).filter (fun y => x.serve.getD y 4 == y)
  let d := ys.foldl (fun d y =>
    (d.addWrap F.YRD_COLL_STG_FREE_KIB [y] (cdStaging x.desc)).subF F.YRD_COLL_OPEN_COUNT [y] (b2n (d.live x))) d
  let d := x.joins.foldl (fun d j => (d.joinSeals x.desc j).endRun j.tackle j.uid join) d
  { d with coll := { d.coll with ctxs := ndel d.coll.ctxs [id] } }

/-- CONTEXT_END. -/
def Dev.contextEnd (d : Dev) (id : Nat) : Dev :=
  match d.ctx id with
  | some x =>
    if d.live x && x.doneCnt + x.failCnt == cdCount x.desc && !x.chunks.any (fun c => c.2.sigDue) then d.endCtx id x .ok else d
  | none => d

/-! ## COLL (R308, R310, R340, R341, R443) -/

/-- COLL of a sub-operation (DEDUCED, log 35). -/
def Dev.collOp (d : Dev) (t k sub : Nat) (f : Dev → Run → Dev × Run) : Dev :=
  d.effect t k (· == 0x50) (fun d r => if cbits r.cmd.bytes 4 0 2 = sub then f d r else (d, r))

/-- Entries that come to exist on this frame start: each controller counts the context, and the fabric time is kept for the context
record (R337, R338, R341). -/
def Dev.collFrame (d : Dev) : Dev :=
  d.coll.ctxs.foldl (fun d x =>
    if x.2.frame = d.clk.frame then
      let ys := (List.range 4).filter (fun y => x.2.serve.getD y 4 == y)
      (ys.foldl (fun d y => d.addWrap F.YRD_COLL_OPEN_COUNT [y] 1) d).setCtx (ix x.1 0) { x.2 with openTime := d.fabTime }
    else d) d

/-- COLL OPEN: the controllers take it, with checks and reservation, and it completes when its entries exist. A run whose `acc`
holds the collective id has been taken (DEDUCED, log 35). -/
def Dev.collOpen (d : Dev) (t k : Nat) : Dev :=
  d.collOp t k 0 (fun d r =>
    match r.acc with
    | id :: _ =>
      match d.ctx id with
      | some x =>
        if d.live x then (d, { r with status := some .ok }) else (d, r)
      | none => (d, { r with status := some .aborted })
    | [] =>
      let c := d.collDesc (leAt r.cmd.bytes 6 2)
      let id := cdId c
      if d.broken [7, leAt r.cmd.bytes 6 2] then (d, { r with status := some .ctrlCheck })
      else if !d.cdOk c then (d, { r with status := some .reservedOp })
      else if (d.ctx id).isSome then (d, { r with status := some .noContext })
      else if !d.yards.all (fun y => cdStaging c ≤ d.getF F.YRD_COLL_STG_FREE_KIB [y] && d.flag F.YRD_COLL_OVF_EN [y]) then
        (d, { r with status := some .noSlot })
      else
        let d := d.yards.foldl (fun d y => d.subF F.YRD_COLL_STG_FREE_KIB [y] (cdStaging c)) d
        let serve := (List.range 4).map (fun y => (d.subYard y).getD y)
        let x : Ctx := ⟨c, d.clk.frame + 2, 0, false, 0, serve, [], [], [], [], [], 0, 0, none, 0, 0, 0, 0, 0, 0, 0, []⟩
        (d.setCtx id x, { r with acc := [id] }))

/-- COLL START (R340): a higher limit grants the local roles of the chunks it takes in (DEDUCED, log 35). -/
def Dev.collStart (d : Dev) (t k : Nat) : Dev :=
  d.collOp t k 1 (fun d r =>
    let id := leAt r.cmd.bytes 6 2 % 32768
    let lim := leAt r.cmd.bytes 8 4 % 2 ^ 25
    match d.ctx id with
    | none => (d, { r with status := some .noContext })
    | some x =>
      if !d.live x then (d, r)
      else
        let newly := (x.chunks.filter (fun p => x.limit ≤ ix p.1 0 && ix p.1 0 < lim && p.2.ups.any (fun u => u.stage == 0))).map (fun p => ix p.1 0)
        let add := if cdDown x.desc then [] else newly.filter (fun n => !x.granted.contains n)
        (d.setCtx id { x with started := true, limit := max x.limit lim, granted := x.granted ++ add }, { r with status := some .ok }))

/-- The record of a context waits for its ring (DEDUCED, log 35). -/
def Dev.ctxRecWaits (d : Dev) (id : Nat) : Bool := d.host.recs.any (fun r => cb r.bytes 4 == 0x48 && leAt r.bytes 6 2 == id)

/-- Abandon, with signals, every unfinished chunk that `p` selects, and answer the context after it (DEDUCED, log 35). -/
def Dev.abandonAll (d : Dev) (id : Nat) (x : Ctx) (st : Status) (p : Nat → Bool) : Dev :=
  (((List.range (cdCount x.desc)).map (· + cdFirst x.desc)).filter (fun n => p n && (x.chunk n).fin.isNone)).foldl
    (fun d n => d.abandon id n st) d

/-- Raise every signal still owed. -/
def Dev.signalAll (d : Dev) (id : Nat) : Dev :=
  match d.ctx id with
  | some x => (x.chunks.filter (fun c => c.2.sigDue)).foldl (fun d c => d.chunkSignal id (ix c.1 0)) d
  | none => d

/-- COLL ABORT (R310, R443): every unfinished chunk is abandoned with ABORTED and the context ends at once; the command
completes when the context record is written or discarded (DEDUCED, log 35). -/
def Dev.collAbort (d : Dev) (t k : Nat) : Dev :=
  d.collOp t k 2 (fun d r =>
    let id := leAt r.cmd.bytes 6 2 % 32768
    match r.acc with
    | _ :: _ => if d.ctxRecWaits id then (d, r) else (d, { r with status := some .ok })
    | [] =>
      match d.ctx id with
      | none => (d, { r with status := some .noContext })
      | some x =>
        if !d.live x then (d, r)
        else
          let d := d.setCtx id { x with flags := setBit x.flags 1 }
          let d := (d.abandonAll id x .aborted (fun _ => true)).signalAll id
          let d := match d.ctx id with | some x => d.endCtx id x .aborted | none => d
          (d, { r with acc := [id] }))

/-! ## COLLJOIN (R309, R444) -/

/-- The role exists in the context. -/
def roleOk (c : List Byte) (role : Nat) : Bool := if role = 0xFF then cdDown c else bit (cdMask c 0) role && !cdDown c

/-- The slot that a role feeds of a chunk. -/
def roleStage (c : List Byte) (role : Nat) : Nat := if role = 0xFF then cdTop c else 0

/-- The next chunk that a join sends, in grant order. -/
def Ctx.nextJoin (x : Ctx) (j : Join) : Option Nat :=
  x.granted.find? (fun n =>
    let c := x.chunk n
    c.fin.isNone && !j.sent.contains n && c.ups.any (fun u => u.stage == roleStage x.desc j.role && !u.got.any (fun g => g.1 == j.role)))

/-- Every chunk of the role has been sent or has ended. -/
def Dev.joinOver (d : Dev) (x : Ctx) (j : Join) : Bool :=
  ((List.range (cdCount x.desc)).map (· + cdFirst x.desc)).all (fun n =>
    j.sent.contains n || (x.chunk n).fin.isSome || (j.role == 0xFF && !d.isRoot x.desc n))

/-- One chunk of a join: ROOT bytes go into the root's slot; a join slot's bytes reach their capstan as a sealed CHUNK
(DEDUCED, log 36). -/
def Dev.joinSend (d : Dev) (x : Ctx) (id n role : Nat) (data : List Byte) : Dev :=
  if role = 0xFF then d.takePart id n (cdTop x.desc) 0xFF 0 data
  else
    let h := { PktHdr.zero with
      dst := d.addr (48 + n % 4), tc := 2, sealB := 1, op := opCHUNK, src := d.addr 37, pkey := cdPkey x.desc, len := data.length
      coll := id, stage := 0, contrib := role, chunk := n }
    { d with net := { d.net with
      arrivals := d.net.arrivals ++ [⟨.capstan (x.yardOf n), d.net.nextId, h, data ++ leBytes 4 (sealOf id n 0 role data), true⟩]
      nextId := d.net.nextId + 1 } }

/-- COLLJOIN: the command in slot `k` of tackle `t` registers its role, then sends one granted chunk at a time (DEDUCED, log
36). -/
def Dev.colljoin (d : Dev) (t k : Nat) : Dev :=
  d.effect t k (· == 0x51) (fun d r =>
    let l := r.cmd.bytes
    let id := leAt l 6 2 % 32768
    let role := cb l 4
    match d.ctx id with
    | none => (d, { r with status := some .noContext })
    | some x =>
      if !d.live x then (d, { r with status := some .noContext })
      else if !roleOk x.desc role || !((d.joinRegion l).map Region.ok).getD true then (d, { r with status := some .reservedOp })
      else
        match x.joins.find? (fun j => j.tackle == t && j.uid == r.cmd.uid) with
        | none =>
          let sent := ((x.joins.filter (fun j => j.role == role)).flatMap (·.sent))
          (d.setCtx id { x with joins := x.joins ++ [⟨role, t, r.cmd.uid, leAt l 8 6, sent, []⟩] }, r)
        | some j =>
          match x.nextJoin j with
          | some n =>
            let size := roleBytes x.desc role
            let a := (j.base + (n - cdFirst x.desc) * size) % 2 ^ 48
            let m := d.load a size
            let x := { x with joins := x.joins.map (fun i =>
              let i := if i.role = role then { i with sent := i.sent ++ [n] } else i
              if i.tackle = t ∧ i.uid = r.cmd.uid then { i with moved := nset i.moved [n - cdFirst x.desc] m.1 } else i) }
            ((m.2.setCtx id x).joinSend x id n role m.1, r)
          | none =>
            if d.joinOver x j then
              let d := d.joinSeals x.desc j
              (d.setCtx id { x with joins := x.joins.map (fun i => if i = j then { i with moved := [] } else i) }, { r with status := some .ok })
            else (d, r))

/-! ## Self-tests and spares (R27, R333, R336) -/

/-- Start the known-answer test of physical capstan `c` of yard `y`, unless one runs or the capstan is out of service
(DEDUCED, logs 38, 67). -/
def Dev.startSelftest (d : Dev) (y c : Nat) : Dev :=
  if d.coll.testing.contains (y, c) || d.flag F.CPS_STAT_FAILED [y, c] then d
  else
    let d := d.raise F.CPS_ST_CTRL_BUSY [y, c]
    { d with coll := { d.coll with testing := d.coll.testing ++ [(y, c)], since := nput 0 d.coll.since [y, c] 0 } }

/-- CAPSTAN_SELFTEST after 65,536 stage completions (DEDUCED, log 38). -/
def Dev.selftest (d : Dev) (y c : Nat) : Dev := if 65536 ≤ nget 0 d.coll.since [y, c] then d.startSelftest y c else d

/-- Contexts that completed a chunk on a capstan since its last passed test (DEDUCED, log 38). -/
def Dev.markSuspect (d : Dev) (y c : Nat) : Dev :=
  { d with coll := { d.coll with ctxs := d.coll.ctxs.map (fun x => if x.2.used.contains (y, c) then (x.1, { x.2 with flags := setBit x.2.flags 0 }) else x) } }

/-- CAPSTAN_SELFTEST_DONE, passing or failing (DEDUCED, log 38). -/
def Dev.selftestDone (d : Dev) (y c : Nat) (pass : Bool) : Dev :=
  if !d.coll.testing.contains (y, c) then d
  else
    let d := (d.clear F.CPS_ST_CTRL_BUSY [y, c])
    let d := { d with coll := { d.coll with testing := d.coll.testing.filter (· ≠ (y, c)) } }
    if pass then
      let d := d.incSat F.CPS_ST_RUNS_COUNT [y, c]
      { d with coll := { d.coll with ctxs := d.coll.ctxs.map (fun x => (x.1, { x.2 with used := x.2.used.filter (· ≠ (y, c)) })) } }
    else
      let d := ((d.raise F.CPS_STAT_ST_FAIL [y, c]).raise F.YRD_COLL_STAT_SELFTEST_FAIL [y]).fault (1 + y) .cpsSelftest
      let d := d.markSuspect y c
      let d := if d.flag F.CPS_STAT_IN_SERVICE [y, c] then d.fault (1 + y) .unitOut else d
      { d with coll := { d.coll with failing := d.coll.failing ++ [(y, c)] } }

/-- The chunk holds a slot. -/
def Chunk.holds (c : Chunk) : Bool := !c.ups.isEmpty || !c.rets.isEmpty || c.result.isSome

/-- Chunks with slots on a capstan are abandoned with UNIT_RESET (R333). -/
def Dev.abandonOn (d : Dev) (y c : Nat) : Dev :=
  d.coll.ctxs.foldl (fun e x =>
    (x.2.chunks.filter (fun p => p.2.holds && x.2.yardOf (ix p.1 0) == y && d.capPhys y (ix p.1 0) == c)).foldl
      (fun e p => e.abandon (ix x.1 0) (ix p.1 0) .unitReset) e) d

/-- The next logical index in service after `c`, in ascending cyclic order. -/
def Dev.nextCap (d : Dev) (y c : Nat) : Option Nat :=
  ((List.range 15).map (fun i => (c + 1 + i) % 16)).find? (fun j => !d.flag F.YRD_CPS_MAP_FAILED [y, j])

/-- CAPSTAN_SPARE_SWAP of a failed physical capstan `c` of yard `y` (DEDUCED, log 38). -/
def Dev.spareSwap (d : Dev) (y c : Nat) : Dev :=
  if !d.coll.failing.contains (y, c) || d.flag F.CPS_STAT_FAILED [y, c] then d
  else
    let d := (d.abandonOn y c)
    let d := { d with coll := { d.coll with failing := d.coll.failing.filter (· ≠ (y, c)), testing := d.coll.testing.filter (· ≠ (y, c)) } }
    let was := d.flag F.CPS_STAT_IN_SERVICE [y, c]
    let j := d.getF F.CPS_STAT_LOGICAL [y, c]
    let spare := d.flag F.CPS_STAT_SPARE [y, 16] && c != 16
    let d := (((d.clear F.CPS_STAT_IN_SERVICE [y, c]).clear F.CPS_STAT_SPARE [y, c]).raise F.CPS_STAT_FAILED [y, c]).clear F.CPS_ST_CTRL_BUSY [y, c]
    if !was then d.setMasked (0x2010 + 256 * y) true
    else if spare then
      (((((d.clear F.CPS_STAT_SPARE [y, 16]).raise F.CPS_STAT_IN_SERVICE [y, 16]).setF F.CPS_STAT_LOGICAL [y, 16] j).setF
        F.YRD_CPS_MAP_PHYS [y, j] 16).setMasked (0x2010 + 256 * y) true).tdc .spareSwap (dieUnit (1 + y))
    else
      let d := ((d.raise F.YRD_CPS_MAP_FAILED [y, j]).setMasked (0x2000 + 256 * y + j) true).fault (1 + y) .cpsNoSpare
      match d.nextCap y j with
      | some m => (List.range 16).foldl (fun d i => if d.getF F.YRD_CPS_MAP_MOVED_TO [y, i] = j then d.setF F.YRD_CPS_MAP_MOVED_TO [y, i] m else d) d
      | none => d

/-- Yard `y` leaves service (R334): its share of every open context is abandoned and goes to its substitute. -/
def Dev.collYardOut (d : Dev) (y : Nat) : Dev :=
  let d := d.coll.ctxs.foldl (fun d x =>
    let id := ix x.1 0
    let d := (d.setCtx id { x.2 with flags := setBit x.2.flags 2 }).abandonAll id x.2 .unitReset (fun n => x.2.yardOf n == y)
    match d.ctx id with
    | some z => d.setCtx id { z with serve := z.serve.map (fun v => if v = y then (d.subYard y).getD y else v) }
    | none => d) d
  { d with coll := { d.coll with
    since := d.coll.since.filter (fun e => ix e.1 0 != y), testing := d.coll.testing.filter (fun e => e.1 != y)
    failing := d.coll.failing.filter (fun e => e.1 != y) } }

end Sys2Proof.Machine
end

