-- ==== Sys2Proof/Machine/Flows.lean ====
section
/-!
DEFINITION. Flow contexts and the fabric engines' commands (R388–R392, R438–R442), rate control (R243, R250) and response
timers (R111).
-/
namespace Sys2Proof.Machine

/-! ## Flow contexts (R390) -/

/-- The open context of a flow. -/
def Dev.flow (d : Dev) (f : Nat) : Option Flow := nget? d.net.flows [f]

/-- Replace it. -/
def Dev.setFlow (d : Dev) (f : Nat) (x : Flow) : Dev := { d with net := { d.net with flows := nset d.net.flows [f] x } }

/-- Port die that holds a flow's context. -/
def flowDie (f : Nat) : Nat := f / 32768 % 8

/-- The island of a port die's flow contexts. -/
def flowIsland (p : Nat) : Nat := 32 + 136 * p + 134

/-- The port die of a flow is in service and not in reset. -/
def Dev.flowDieOk (d : Dev) (f : Nat) : Bool := d.dieOk (5 + flowDie f) && !d.islandInReset (flowIsland (flowDie f))

/-- A context as template `k` gives it. -/
def Dev.fromTemplate (d : Dev) (k : Nat) : Flow :=
  let prof := d.getF F.MST_FLOW_TMPL_PROFILE [k]
  { tc := d.getF F.MST_FLOW_TMPL_TC [k], pkey := d.getF F.MST_FLOW_TMPL_PKEY [k], profile := prof
    ring := if d.flag F.MST_FLOW_TMPL1_RING_EN [k] then some (d.getF F.MST_FLOW_TMPL1_RING [k]) else none
    ctr := if d.flag F.MST_FLOW_TMPL2_CTR_EN [k] then some (d.getF F.MST_FLOW_TMPL2_CTR_TACKLE [k], d.getF F.MST_FLOW_TMPL2_CTR [k]) else none
    timer := max 1 (d.getF F.MST_FLOW_TMPL1_TIMER [k])
    rate := 0, lastDec := none, lastChg := d.clk.now, echoes := 0, lastAt := none, period := 0, outstanding := [] }

/-- PERIOD of a profile in units. -/
def Dev.ratePeriod (d : Dev) (p k : Nat) : Nat := max 1 (d.getF F.PRT_RC_PROF2_PERIOD [p, k]) * 16 * frameUnits

/-- The checks of a fabric command and the opening of its context: the device, and the status of a failed check. -/
def Dev.flowCheck (d : Dev) (l : List Byte) : Dev × Option Status :=
  let f := flowOf l
  let op := opcode l - 0x3F
  let k := cbits l 5 0 4
  if !d.flowDieOk f then (d, some .unitReset)
  else if cbit l 4 1 then
    if d.broken [8, k] then (d, some .ctrlCheck)
    else if !d.flag F.MST_FLOW_TMPL_VALID [k] || !tcOk op (d.getF F.MST_FLOW_TMPL_TC [k]) then (d, some .reservedOp)
    else if (d.flow f).isSome then (d, some .noContext)
    else
      let x := d.fromTemplate k
      (d.setFlow f { x with rate := d.getF F.PRT_RC_PROF_MAX [flowDie f, x.profile], period := d.ratePeriod (flowDie f) x.profile }, none)
  else
    match d.flow f with
    | none => (d, some .noContext)
    | some x => if tcOk op x.tc then (d, none) else (d, some .reservedOp)

/-! ## Sending (R388, R439–R441) -/

/-- Requests of tackle `t` not yet answered. -/
def Dev.engineOut (d : Dev) (t : Nat) : Nat :=
  ((d.tck t).runs.map (fun r => r.reqs.countP (fun q => q.status.isNone))).sum

/-- A TAG that no outstanding request of the flow carries. Which one the context hands out is open: the first free from a
free value on (DESIGN CHOICE, log 31; DEDUCED, log 58). -/
def Dev.tagFor (d : Dev) (x : Flow) : Nat × Dev :=
  let n := d.freeNum
  ((((List.range 4096).map (fun i => (n.1 + i) % 4096)).find? (fun t => !x.outstanding.contains t)).getD 0, n.2)

/-- Source key of a fabric engine's tackle. -/
def engineSrc (t : Nat) : Nat × Nat := (t / 256 % 16, 32 + t % 4)

/-- Packets in the share of a run, in order. -/
def Run.packets (r : Run) (x : Dec) : List Nat := (selIdx (r.sel x)).map (fun i => ix i 0)

/-- Bytes of packet `p` of a fabric command with payloads of the packet size: how many it moves. -/
def fabLen (l : List Byte) (p : Nat) : Nat := min (packetSize l) (leAt l 26 4 - p * packetSize l)

/-- Where packet `p` of a PUT reads its payload. -/
def fabSrc (l : List Byte) (p : Nat) : Nat × Nat := (leAt l 12 6 + p * packetSize l, fabLen l p)

/-- Header and payload of packet `p` of a fabric command, its landing address and length; a PUT's payload is read from its source, as
any access of an engine (R359, R360). -/
def Dev.fabPacket (d : Dev) (l : List Byte) (x : Flow) (tag p : Nat) : (PktHdr × List Byte × Nat × Nat) × Dev :=
  let op := opcode l - 0x3F
  let mc := cbit l 4 3
  let dst := leAt l 9 3
  let base : PktHdr := { PktHdr.zero with
    dst := if mc then dst % 4096 else dst % 2 ^ 18, rsv0 := if mc then 0 else dst / 2 ^ 18 % 4, tc := x.tc, op := op, src := d.addr 37
    tag := tag, flow := flowOf l, mc := b2n mc, pkey := x.pkey }
  let ps := packetSize l
  let n := fabLen l p
  if op = opPUT then
    let r := d.load (fabSrc l p).1 (fabSrc l p).2
    let sealed := cbit l 4 4
    let h := { base with
      raddr := (leAt l 18 7 + p * ps) % 2 ^ 56, len := n, ackReq := b2n (cbit l 4 0), sealB := b2n sealed
      coll := if sealed then leAt l 30 2 % 32768 else 0, stage := if sealed then 4 else 0, chunk := if sealed then p % 2 ^ 24 else 0 }
    ((h, r.1 ++ (if sealed then leBytes 4 (sealOf h.coll h.chunk 4 0 r.1) else []), 0, 0), r.2)
  else if op = opGET then
    (({ base with raddr := (leAt l 18 7 + p * ps) % 2 ^ 56, len := 16 }, leBytes 8 (leAt l 12 6 + p * ps) ++ leBytes 4 n ++ leBytes 4 0,
      leAt l 12 6 + p * ps, n), d)
  else (({ base with raddr := leAt l 12 7, len := 8 }, takeAt l 20 8, 0, 0), d)

/-- Flits of packet `p` of a fabric command. -/
def fabFlits (l : List Byte) (p : Nat) : Nat :=
  flitsOf (32 + (if opcode l = 0x40 then fabLen l p + (if cbit l 4 4 then 4 else 0) else if opcode l = 0x41 then 16 else 8))

/-- Units of 25 ps from the start of a flow's packet to that of its next, of `flits` flits, at a rate in 0.1 Gb/s (R243): the spacing is
kept by rounding up. -/
def paceGap (flits rate : Nat) : Nat := ceilDiv (flits * 819200) rate

/-- When a flow's next packet of `flits` flits may start, if it can in this frame. At RATE 0 the rule divides by zero: the spacing is a
free number (DESIGN CHOICE, log 16). -/
def Dev.paceAt (d : Dev) (x : Flow) (flits : Nat) : Option Nat × Dev :=
  match x.lastAt with
  | none => (some d.clk.now, d)
  | some t =>
    if x.tc < 3 then (some d.clk.now, d)
    else
      let g := if x.rate = 0 then d.freeNum else (paceGap flits x.rate, d)
      (if t + g.1 < d.clk.now + frameUnits then some (max (t + g.1) d.clk.now) else none, g.2)

/-- Send the next packet of a run. -/
def Dev.sendNext (d : Dev) (t : Nat) (r : Run) (x : Dec) : Dev × Run :=
  let l := r.cmd.bytes
  match (r.packets x)[r.sent]?, d.flow (flowOf l) with
  | some p, some fl =>
    if 4096 ≤ fl.outstanding.length || 4096 ≤ d.engineOut t then (d, r)
    else
      match d.paceAt fl (fabFlits l p) with
      | (none, d) => (d, r)
      | (some at_, d) =>
        if opcode l = 0x40 && (d.memStopped (fabSrc l p).1 (fabSrc l p).2).isSome then (d, r)
        else if opcode l = 0x40 && !d.memServed (fabSrc l p).1 (fabSrc l p).2 then
          -- its source answers UNIT_RESET (R22): the packet is never sent
          (d, ({ r with sent := r.sent + 1, reqs := r.reqs ++ [⟨opPUT, flowOf l, 0, p, 0, 0, d.clk.now, some .unitReset⟩] } : Run).settle)
        else
        let g := d.tagFor fl
        let y := g.2.fabPacket l fl g.1 p
        let d := y.2.setFlow (flowOf l) { fl with outstanding := fl.outstanding ++ [g.1], lastAt := some at_ }
        let d := d.sendPkt (engineSrc t) y.1.1 y.1.2.1 (.engine t r.cmd.uid p)
        (d, { r with sent := r.sent + 1, reqs := r.reqs ++ [⟨y.1.1.op, flowOf l, g.1, p, y.1.2.2.1, y.1.2.2.2, d.clk.now, none⟩] })
  | _, none =>
    -- the context was closed or lost under the command: what is left is never answered
    (d, { r with status := some .unitReset })
  | none, _ => (d, r)

/-- PUT, GET or NOTIFY: its checks first, then one packet each time. -/
def Dev.fabCmd (d : Dev) (t k op : Nat) : Dev :=
  d.engineOp t k op (fun d r x _ =>
    if r.acc.isEmpty then
      let n := if op = 0x42 then 1 else (r.packets x).length
      match d.flowCheck r.cmd.bytes with
      | (d, some st) => (d, { r with status := some st })
      | (d, none) =>
        let src := if op = 0x40 then (r.packets x).map (fabSrc r.cmd.bytes) else []
        let r := { r with acc := [n] }
        (d.feedSeals t r false src).sendNext t r x
    else d.sendNext t r x)

/-- PUT. -/
def Dev.put (d : Dev) (t k : Nat) : Dev := d.fabCmd t k 0x40

/-- GET. -/
def Dev.get (d : Dev) (t k : Nat) : Dev := d.fabCmd t k 0x41

/-- NOTIFY. -/
def Dev.notify (d : Dev) (t k : Nat) : Dev := d.fabCmd t k 0x42

/-- FLOW_RESPONSE_TIMEOUT: a request left unanswered for the flow's timer completes with UNIT_RESET (R111); so does one
whose context, and timer with it, was lost in a reset. -/
def Dev.respTimeout (d : Dev) (f tag : Nat) : Dev :=
  let timer := match d.flow f with | some x => us x.timer | none => 0
  let due := fun (q : Req) => q.flow == f && q.tag == tag && q.status.isNone && decide (q.sentAt + timer ≤ d.clk.now)
  if d.eng.tck.any (fun t => t.2.runs.any (fun r => r.reqs.any due)) then (d.answer f tag .unitReset).1 else d

/-! ## Rate control (R243, R250) -/

/-- A change of RATE counts one RATE_CHANGE, of a context in TC3 to TC7 (R79), and with it PERIOD of the profile as it stands takes
effect for the flow (R250). -/
def Dev.setRate (d : Dev) (f : Nat) (x : Flow) (rate : Nat) : Dev :=
  if rate = x.rate then d.setFlow f x
  else
    let d := d.setFlow f { x with rate := rate, lastChg := d.clk.now, period := d.ratePeriod (flowDie f) x.profile }
    if 3 ≤ x.tc then d.tdc .rateChange (dieUnit (5 + flowDie f)) else d

/-- An echo reaches the flow's context. -/
def Dev.echoFor (d : Dev) (f : Nat) : Dev :=
  match d.flow f with
  | some x => if x.tc < 3 then d else d.setFlow f { x with echoes := x.echoes + 1 }
  | none => d

/-- RATE_DECREASE: an echo, at least PERIOD since the last decrease, lowers the rate; a sooner one does not. -/
def Dev.rateDecrease (d : Dev) (f : Nat) : Dev :=
  match d.flow f with
  | none => d
  | some x =>
    if x.echoes = 0 then d
    else
      let p := flowDie f
      let x := { x with echoes := x.echoes - 1 }
      let due := match x.lastDec with | none => true | some t => decide (t + x.period ≤ d.clk.now)
      if due then
        d.setRate f { x with lastDec := some d.clk.now }
          (max (d.getF F.PRT_RC_PROF_MIN [p, x.profile]) (x.rate - x.rate / 2 ^ d.getF F.PRT_RC_PROF2_DEC_SHIFT [p, x.profile]))
      else d.setFlow f x

/-- RATE_INCREASE: PERIOD after the last change a flow below MAX gains INC_STEP. -/
def Dev.rateIncrease (d : Dev) (f : Nat) : Dev :=
  match d.flow f with
  | none => d
  | some x =>
    let p := flowDie f
    let mx := d.getF F.PRT_RC_PROF_MAX [p, x.profile]
    if 3 ≤ x.tc && x.rate < mx && x.lastChg + x.period ≤ d.clk.now then
      d.setRate f x (min mx (x.rate + d.getF F.PRT_RC_PROF2_INC_STEP [p, x.profile]))
    else d

/-- RATE_PROFILE_CLAMP: open flows of a written profile move inside its new limits (R250). -/
def Dev.rateClamp (d : Dev) (p k : Nat) : Dev :=
  if d.net.profDue.contains (p, k) then
    let d := { d with net := { d.net with profDue := d.net.profDue.filter (· ≠ (p, k)) } }
    d.net.flows.foldl (fun d x =>
      if flowDie (ix x.1 0) = p ∧ x.2.profile = k then
        d.setRate (ix x.1 0) x.2 (max (d.getF F.PRT_RC_PROF_MIN [p, k]) (min (d.getF F.PRT_RC_PROF_MAX [p, k]) x.2.rate))
      else d) d
  else d

end Sys2Proof.Machine
end

