-- ==== Sys2Proof/Machine/Faults.lean ====
section
/-!
DEFINITION. What a reset or a departure does to tackles, islands and dies (R55, R104–R108, R472–R474), control-check
errors (R464), FAULT_N and the management commands (18). Mirrors follow at once (within their 1 µs; log 43).
-/
namespace Sys2Proof.Machine

/-! ## Tackles -/

/-- Tackles of die `n`, its group last. -/
def dieTackles (n : DieNo) : List Nat :=
  ((List.range 256).filter (unitExists (dieClass n).1)).map (fun u => (dieClass n).1 * 4096 + (dieClass n).2 * 256 + u)

/-- The groups that span dies. -/
def spanGroups : List Nat := [0, 0x4FFF, 0x5FFF]

/-- Every tackle of the device. -/
def allTackles : List Nat := spanGroups ++ ((List.range 25).map dieTackles).flatten

/-- TAGs of a tackle's outstanding requests are free again. -/
def Dev.freeTags (d : Dev) (t : Nat) : Dev :=
  (d.tck t).runs.foldl (fun d r => (r.reqs.filter (fun q => q.status.isNone)).foldl (fun d q => d.tagDone q.flow q.tag) d) d

/-- Streams that run on sequencer `t` end with UNIT_RESET. -/
def Dev.killStreams (d : Dev) (t : Nat) : Dev :=
  d.eng.tck.foldl (fun d x => (x.2.runs.filter (fun r => (r.stream.map (fun s => s.seq == t && !s.ended)).getD false)).foldl
    (fun d r => d.endRun (ix x.1 0) r.cmd.uid .unitReset) d) d

/-- The digest engine is gone: the DIGESTs that the dies' tackles had passed to it complete with UNIT_RESET (R22, R55, R366). -/
def Dev.killDigests (d : Dev) : Dev :=
  d.eng.tck.foldl (fun d x => (x.2.runs.filter (fun r => opcode r.cmd.bytes == 5)).foldl (fun d r => d.endRun (ix x.1 0) r.cmd.uid .unitReset) d) d

/-- The engine state of tackle `t` is reset: executing commands complete under R394, and a sequencer loses its counters,
address generators and programs, on which waits and streams end with UNIT_RESET (R104, R383) (DEDUCED, log 62). -/
def Dev.stopTackle (d : Dev) (t : Nat) : Dev :=
  let hit := d.hitBy t
  let d := (((d.freeTags t).killRuns t).abortWindows t hit).dropSeals t
  if isSequencer t then
    let d := (List.range 16).foldl (fun d c => d.setF F.SEQ_CTR_VALUE [t, c] 0) d
    let d := { d with eng := { d.eng with progs := d.eng.progs.filter (fun p => ix p.1 0 != t) } }
    (d.killWaits t).killStreams t
  else if t = 0x1001 then d.killDigests
  else d

/-- A reset of tackle `t` clears HALTED (R369) (DEDUCED, log 63). -/
def Dev.unhalt (d : Dev) (t : Nat) : Dev := (List.range 4).foldl (fun d q => d.setHalt t q false) d

/-- EPOCH as a face reads it: its own steps and those of its die's READY (R397). -/
def Dev.epochOf (d : Dev) (t : Nat) : Nat :=
  (d.getF F.TCK_STAT_EPOCH [t] + nget 0 d.eng.readyChg [tackleDie t]) % 256

/-- What a face's EPOCH follows: READY, MASKED and HALTED (R397). -/
def Dev.faceState (d : Dev) (t : Nat) : Bool × Nat × Nat := (d.tckReady t, d.getF F.TCK_STAT_MASKED [t], d.getF F.TCK_STAT_HALTED [t])

/-- Whatever one command changes of a face's READY, MASKED and HALTED is one step of its EPOCH, as the departure of yard 1 in
the example of R479 shows (DEDUCED, log 63). EPOCH of a face whose island is in reset takes its reset value (R6, R397). -/
def Dev.settleEpochs (d was : Dev) (ts : List Nat) : Dev :=
  ts.foldl (fun d t => d.setF F.TCK_STAT_EPOCH [t]
    ((if d.islandInReset (tackleIsland t) then 0 else was.epochOf t + b2n (was.faceState t != d.faceState t))
      + 256 - nget 0 d.eng.readyChg [tackleDie t] % 256)) d

/-- Set or clear READY of die `n`; a change is a step of the EPOCH of each of its faces, and of a spanning group whose own
READY changes. MST_READY.MAST lets commands go on that wait at decode (R377). -/
def Dev.toReady (d : Dev) (n : DieNo) (v : Bool) : Dev :=
  if d.dieReady n == v then d
  else
    let was := spanGroups.map d.tckReady
    let d := d.setReady n v
    let d := { d with eng := { d.eng with readyChg := nput 0 d.eng.readyChg [n] (nget 0 d.eng.readyChg [n] + 1) } }
    let d := (spanGroups.zip was).foldl (fun d x => if d.tckReady x.1 == x.2 then d else d.bumpEpoch x.1) d
    if n = 0 ∧ v then d.decodeHeld else d

/-! ## Registers that outlive a reset inside the device -/

/-- Registers that keep their values through every reset but a device reset: fault blocks (R465), cleat and cleat status
registers (R105, R358), the record of failed units (R474, R162) without ST_FAIL of a capstan, and a face's MASKED (DEDUCED, log
39). -/
def keptReg (k : RegKey) : Bool :=
  match k.reg with
  | .FLT_STAT | .FLT_IRQ_EN | .FLT_FATAL_EN | .FLT_MERGED | .FLT_COR_CNT | .XING_DISCARD | .SAL_CLEAT | .SAL_CLEAT_STATUS
  | .BSE_CLEAT | .BSE_CLEAT_STATUS | .SAL_CORE_OK | .SAL_VEC_OK | .BSE_VEC_OK | .YRD_CPS_MAP | .LNE_SPARE => true
  | .CPS_STAT => k.lo != 3
  | .TCK_STAT => k.lo == 2
  | _ => false

/-- Registers of the islands that `p` selects take their reset values (R6) (DEDUCED, log 39). -/
def Dev.resetIslandRegs (d : Dev) (p : Nat → Bool) : Dev :=
  let d := d.resetRegs (fun k => p (regIsland k.reg k.idx) && !keptReg k)
  -- the second copies of the ring pointers lie with the ring registers in island 5
  if p 5 then { d with host := { d.host with ptr2 := [] } } else d

/-! ## Packets and flows of a die -/

/-- Packets on their way to die `n` are dropped there, and its streams start again at CSEQ 0 (log 44). -/
def Dev.dropDest (d : Dev) (n : DieNo) : Dev :=
  let ids := (d.net.flights.filter (fun x => x.2.cseq.any (fun c => c.1 == n) && !x.2.dropped.contains n)).map (fun x => ix x.1 0)
  let d := ids.foldl (fun d id =>
    match d.flight id with
    | some f => ((d.dropAt id f n .unitReset).noteDrop f n .unitReset).tidyFlight id
    | none => d) d
  { d with net := { d.net with
    streams := d.net.streams.filter (fun s => ix s.1 0 != n)
    cseqs := d.net.cseqs.filter (fun s => ix s.1 2 != n)
    arrivals := d.net.arrivals.filter (fun a => (Dest.die a.at_) != some n) } }

/-- Packets at the ingress of source `k` are lost. -/
def Dev.loseSource (d : Dev) (k : Nat × Nat) : Dev :=
  let d := (List.range (d.link k).inq.length).reverse.foldl (fun d i => d.loseIn k i .unitReset) d
  d

/-- Flow contexts of port die `p` close; their requests complete with a status (R105, R464) (DEDUCED, log 58). -/
def Dev.loseFlow (d : Dev) (f : Nat) (st : Status) : Dev :=
  match d.flow f with
  | none => d
  | some x =>
    let d := x.outstanding.foldl (fun d tag => (d.answer f tag st).1) d
    { d with net := { d.net with flows := ndel d.net.flows [f] } }

/-- Everything of port die `p`'s pipelines and flows goes (DEDUCED, log 58). -/
def Dev.portDieLost (d : Dev) (p : Nat) : Dev :=
  let d := (List.range 32).foldl (fun d e => d.portDown (p, e)) d
  let d := (List.range 4).foldl (fun d e => d.loseSource (p, 32 + e)) d
  let d := d.dropDest (5 + p)
  let fs := (d.net.flows.filter (fun f => ix f.1 0 / 32768 == p)).map (fun f => ix f.1 0)
  fs.foldl (fun d f => d.loseFlow f .unitReset) d

/-! ## Yards -/

/-- Yards in use: in service and not in a die reset. -/
def Dev.yardsUp (d : Dev) : List Nat := d.yards.filter (fun y => (nget? d.rst.dies [1 + y]).isNone)

/-- MST_MH_STAT follows the yards in use (R269, R270). -/
def Dev.mhSync (d : Dev) : Dev :=
  let n := d.yardsUp.length
  (d.setF F.MST_MH_STAT_YARDS [] n).setF F.MST_MH_STAT_BOUND_NS [] (if n = 4 then 900 else if n = 3 then 1150 else 0)

/-- Sources use the yards now in use from the next frame start (R203). -/
def Dev.sprayTo (d : Dev) : Dev := { d with net := { d.net with sprayDue := some d.yardsUp } }.mhSync

/-- Every capstan chunk and cell of yard `y` is lost. -/
def Dev.yardLost (d : Dev) (y : Nat) : Dev :=
  let d := (d.collYardOut y).yardCellsLost y
  { d with net := { d.net with retired := d.net.retired.filter (fun r => !(ix r.1 0 == y && ix r.1 1 ≤ 1)) } }

/-! ## Memory -/

/-- Contents that die `n` loses at a reset of all its islands (R105). -/
def Dev.dieMemLost (d : Dev) (n : DieNo) : Dev :=
  match dieClass n with
  | (4, s) => d.loseMem (sailBase s) (sailBase s + 0xC000000)
  | (5, k) => d.loseMem (padBase k) (padBase k + 0x2000000)
  | _ => d

/-- Contents of one island's bank or banks. -/
def Dev.islandMemLost (d : Dev) (g : Nat) : Dev :=
  let n := islandDie g
  let l := g - (dieIslands n).1
  match dieClass n with
  | (4, s) =>
    if l < 64 then d.loseMem (sailBase s + l * 0x200000) (sailBase s + (l + 1) * 0x200000)
    else if l = 64 then d.loseMem (sailBase s + 0x8000000) (sailBase s + 0xC000000) else d
  | (5, k) =>
    -- the scratchpad's and the stack's interface; a stack's contents survive a die reset only (R350)
    if l = 16 then (d.loseMem (padBase k) (padBase k + 0x2000000)).loseMem (stackBase k) (stackBase (k + 1)) else d
  | _ => d

/-- Claims that wait at a die's banks end; their commands complete with UNIT_RESET. -/
def Dev.dropClaims (d : Dev) (n : DieNo) : Dev :=
  let mine := fun (c : CleatClaim) => (if c.sail then 13 + c.die else 17 + c.die) == n
  let gone := d.bank.claims.filter mine
  let d := { d with bank := { d.bank with claims := d.bank.claims.filter (fun c => !mine c) } }
  gone.foldl (fun d c => match c.run with | some r => d.endRun r.1 r.2 .unitReset | none => d) d

/-! ## A die stops: reset or departure -/

/-- Everything that die `n`'s islands hold goes: commands complete, packets and memory are lost, and its islands, but for
the fault-block island of a die out of service, are held in reset (DEDUCED, log 44). -/
def Dev.dieStops (d : Dev) (n : DieNo) (out : Bool) : Dev :=
  let d := (dieTackles n).foldl (fun d t => ((d.stopTackle t).flushQueues t).unhalt t) d
  let d := d.dropClaims n
  let d := match dieClass n with
    | (2, y) => d.yardLost y
    | (3, p) => d.portDieLost p
    | (4, _) => d.dropDest n
    | (5, k) =>
      let d := (d.dropDest n).clrBitF F.MST_READY_STACK_STACK [] k
      { d with bank := { d.bank with stackLast := ndel d.bank.stackLast [k], caFails := nput 0 d.bank.caFails [k] 0 } }
    | _ => d
  let d := (d.dieMemLost n).toReady n false
  let r := dieIslands n
  let held := ((List.range r.2).map (· + r.1)).filter (fun g => !(out && g == faultIsland n))
  let gone := d.clk.held.filter (fun a => held.contains (regIsland a.reg a.idx))
  let d := held.foldl Dev.holdIsland d
  let d := { d with clk := { d.clk with held := d.clk.held.filter (fun a => !held.contains (regIsland a.reg a.idx)) } }
  let d := (gone.foldl (fun d a => d.accessEnd a .unitReset 0) d).dropApers (fun g => held.contains g)
  d.resetIslandRegs (fun g => held.contains g)

/-! ## Units leave service (R472, R473) -/

/-- The island that a unit has to itself: a matrix core's or a near-memory vector engine's. -/
def ownIsland (t : Nat) : Option Nat :=
  if t / 4096 = 4 ∧ t % 256 < 0x40 ∨ t / 4096 = 5 ∧ t % 256 < 0x10 then some (tackleIsland t) else none

/-- Clear the mirror bit of a unit (DEDUCED, log 43). -/
def Dev.unmirror (d : Dev) (t : Nat) : Dev :=
  let i := t / 256 % 16
  let u := t % 256
  if u = 0xFF then
    match t / 4096 with
    | 2 => d.clrBitF F.MST_UNITS_YARD_OK [] i
    | 3 => d.clrBitF F.MST_UNITS_PORT_OK [] i
    | 4 => d.clrBitF F.MST_UNITS_SAIL_OK [] i
    | 5 => d.clrBitF F.MST_UNITS_BASE_OK [] i
    | _ => d
  else if t / 4096 = 4 ∧ u < 0x40 then d.clrBitF F.SAL_CORE_OK_CORES [i] u
  else if t / 4096 = 4 ∧ 0x40 ≤ u ∧ u < 0x48 then d.clrBitF F.SAL_VEC_OK_ENG [i] (u - 0x40)
  else if t / 4096 = 5 ∧ u < 0x10 then d.clrBitF F.BSE_VEC_OK_ENG [i] u
  else d

/-- What the departure of a unit, named by its tackle id, does; EPOCH steps are counted apart (DEDUCED, log 43). -/
def Dev.unitGoes (d : Dev) (t : Nat) : Dev :=
  let n := tackleDie t
  if n = 25 ∨ n = 0 ∨ d.unitOut t then d
  else
    let was := d.units
    let whole := t % 256 = 0xFF
    let d := if whole then d.dieStops n true else (d.stopTackle t).flushQueues t
    let d := (if t / 4096 = 2 ∧ t % 256 < 0x10 then d else d.setMasked t true).unmirror t
    let d := d.unitsWere was
    let d := if whole then (dieTackles n).foldl (fun d k => d.setMasked k true) d else d
    let d := match (if whole then none else ownIsland t) with
      | some g => (d.islandMemLost g).holdIsland g
      | none => d
    let d := d.fault n .unitOut
    if whole then
      let d := { d with rst := { d.rst with outDies := d.rst.outDies ++ [n] } }
      match dieClass n with
      | (2, _) => d.sprayTo.tdc .spareSwap (dieUnit n)
      | (5, k) => (d.loseMem (stackBase k) (stackBase (k + 1))).tdc .partReset (dieUnit n)
      | _ => d.tdc .partReset (dieUnit n)
    else if t / 4096 = 2 ∧ t % 256 < 0x10 then
      let y := t / 256 % 16
      { d with coll := { d.coll with failing := d.coll.failing ++ [(y, d.getF F.YRD_CPS_MAP_PHYS [y, t % 256])] } }
    else if t / 4096 = 2 ∧ t % 256 = 0x10 then
      { d with coll := { d.coll with failing := d.coll.failing ++ [(t / 256 % 16, 16)] } }
    else d.tdc .partReset (dieUnit n)

/-- A unit, named by its tackle id, leaves service (R472). -/
def Dev.unitLeaves (d : Dev) (t : Nat) : Dev :=
  let n := tackleDie t
  if n = 25 ∨ n = 0 ∨ d.unitOut t then d
  else (d.unitGoes t).settleEpochs d ((if t % 256 = 0xFF then dieTackles n else [t]) ++ spanGroups)

/-- The cause holds for the unit (R473). -/
def Dev.outCauseOk (d : Dev) (t : Nat) (c : OutCause) : Bool :=
  let i := t / 256 % 16
  match c with
  | .lockLost => t % 256 == 0xFF && decide (2 ≤ t / 4096)
  | .restartFailed => t / 4096 == 4 && decide (t % 256 < 0x40)
  | .poolPtr => t == 0x20FF + 256 * i && d.flag F.YRD_POOL_STAT_PTR_CHECK [i]
  | .stackFatal => t == 0x50FF + 256 * i && d.flag F.BSE_STK_STAT_CA_FATAL [i]
  | .stackTest => t == 0x50FF + 256 * i && d.flag F.BSE_STK_STAT_TEST_FAIL [i]
  | .selftest => t / 4096 == 2 && decide (t % 256 < 0x10) && d.flag F.CPS_STAT_ST_FAIL [i, d.getF F.YRD_CPS_MAP_PHYS [i, t % 256]]

/-- UNIT_OUT_OF_SERVICE. -/
def Dev.unitOutEvent (d : Dev) (t : Nat) (c : OutCause) : Dev :=
  if tackleExists t && d.outCauseOk t c then
    let d := if c = .lockLost then d.setLocked (tackleDie t) false else d
    d.unitLeaves t
  else d

/-! ## The Mast is lost (R475, R476) -/

/-- MAST_LOST: every Mast island but the always-on one stops; hosts see their links go down. -/
def Dev.mastLost (d : Dev) : Dev :=
  if d.headless then d
  else
    let d := { d with flt := { d.flt with lost := true, mgmt := none } }
    let d := (d.raise F.MST_FAULT_STAT_HEADLESS).faultPin
    let d := ((List.range 7).foldl (fun d i => d.holdIsland (i + 1)) d).killDigests
    let d := (List.range 4).foldl (fun d x => d.clear F.HST_PORT_STAT_LINK_UP [x]) d
    { d with host := { d.host with recs := [], posted := [], ind := [] }
             clk := { d.clk with held := d.clk.held.filter (fun a => 8 ≤ regIsland a.reg a.idx || regIsland a.reg a.idx == 0) } }

/-! ## Control-check errors (R464) -/

/-- An uncorrectable error in a structure of die `n` (DEDUCED, log 39). -/
def Dev.ctrlUnc (d : Dev) (n : DieNo) : Dev := d.fault n .ctrlUnc

/-- A structure's contents are gone until it is rewritten (DEDUCED, log 39). -/
def Dev.breaks (d : Dev) (k : List Nat) : Dev :=
  if d.broken k then d else { d with net := { d.net with broken := d.net.broken ++ [k] } }

/-- A packet loses a cell at die `n`: handled as under R213. -/
def Dev.losePacketAt (d : Dev) (n : DieNo) (id : Nat) : Dev :=
  match d.flight id with
  | some f =>
    if f.dropped.contains n || !(f.cseq.any (fun c => c.1 == n)) then d
    else
      let d := if 5 ≤ n ∧ n ≤ 12 then (d.incSat F.PRT_RSQ_LOST_COUNT [n - 5]).incSat F.PRT_RSQ_DROP_COUNT [n - 5] else d
      ((d.dropAt id f n .unitReset).noteDrop f n .unitReset).tidyFlight id
  | none => d

/-- CONTROL_CHECK_ERROR (DEDUCED, log 39). -/
def Dev.controlCheck (d : Dev) (c : Ctrl) : Dev :=
  match c with
  | .corrected n owners =>
    let d := if owners && 17 ≤ n then d.incSat F.BSE_CLEAT_ECC_CORRECTED [n - 17] else d
    (d.incSat F.FLT_COR_CNT_COUNT [n]).fault n .ctrlCor
  | .portState p e => (d.ctrlUnc (5 + p)).portDown (p, e)
  | .cell y id i =>
    match d.flight id with
    | some f =>
      match f.cells[i]? with
      | some c =>
        if c.yard = y ∧ c.hold ≠ .freed ∧ c.hold ≠ .none then
          let d := f.cseq.foldl (fun d n => d.losePacketAt n.1 id) (d.ctrlUnc (1 + y))
          let big := if c.hold = .large ∨ c.hold = .follower then 1 else 0
          ({ d with net := { d.net with retired := nput 0 d.net.retired [y, big] (nget 0 d.net.retired [y, big] + 1) } } : Dev).poolSync y
        else d
      | none => d
    | none => d
  | .freeList y => ((d.raise F.YRD_POOL_STAT_PTR_CHECK [y]).faults (1 + y) [.ptrMismatch, .poolPtr]).unitLeaves (0x20FF + 256 * y)
  | .packet n id desc =>
    let d := (d.ctrlUnc n).losePacketAt n id
    if desc && 5 ≤ n && n ≤ 12 then
      ({ d with net := { d.net with retired := nput 0 d.net.retired [9, n - 5] (nget 0 d.net.retired [9, n - 5] + 1) } } : Dev).descSync (n - 5)
    else d
  | .fairlead p dim c => (d.ctrlUnc (5 + p)).breaks [0, p, dim, c]
  | .gateList p e => (d.ctrlUnc (5 + p)).breaks [1, p, e]
  | .multicastCopy y g => (d.ctrlUnc (1 + y)).breaks [2, g]
  | .multicastMaster g => (d.ctrlUnc 0).breaks [3, g]
  | .flow f => (d.ctrlUnc (5 + f / 32768 % 8)).loseFlow f .ctrlCheck
  | .collective y id =>
    match d.ctx id with
    | some x => (d.ctrlUnc (1 + y)).abandonAll id x .ctrlCheck (fun n => x.yardOf n == y)
    | none => d.ctrlUnc (1 + y)
  | .ringSlot x f r slot => (d.ctrlUnc 0).breaks [5, x, f, r, slot]
  | .commandRing x f r => d.ringCheck 0 [x, f, r]
  | .recordRing x f q => d.ringCheck 1 [x, f, q]
  | .tensorDesc h => (d.ctrlUnc 0).breaks [6, h]
  | .collDesc i => (d.ctrlUnc 0).breaks [7, i]
  | .flowTemplate k => (d.ctrlUnc 0).breaks [8, k]
  | .section_ i => (d.ctrlUnc 0).breaks [9, i]
  | .tackle t =>
    if tackleExists t && !(t / 4096 == 2 && t % 256 == 0x10 && d.unitOut t) then
      let d := (d.tckRaise t [(F.TCK_ERR_CTRL_CHECK, 5)]).ctrlUnc (faceDie t)
      if tackleDie t = 25 ∨ tackleDie t = 0 then ((d.stopTackle t).flushQueues t).setMasked t true else d.unitLeaves t
    else d
  | .cleat sail die b =>
    if sail then (d.ctrlUnc (13 + die)).setF F.SAL_CLEAT_OWNER [die, b] 0xFF else (d.ctrlUnc (17 + die)).setF F.BSE_CLEAT_OWNER [die, b] 0xFF
  | .ownerMap o =>
    let d := d.ctrlUnc 0
    let d := (List.range 4).foldl (fun d s => (List.range 80).foldl (fun d b =>
      if d.getF F.SAL_CLEAT_OWNER [s, b] = o then d.setF F.SAL_CLEAT_OWNER [s, b] 0xFF else d) d) d
    (List.range 8).foldl (fun d n => (List.range 16).foldl (fun d b =>
      if d.getF F.BSE_CLEAT_OWNER [n, b] = o then d.setF F.BSE_CLEAT_OWNER [n, b] 0xFF else d) d) d
  | .other g =>
    let n := islandDie g
    let l := g - (dieIslands n).1
    let d := d.ctrlUnc n
    match dieClass n with
    | (1, _) => if l = 5 ∨ l = 6 then d.mastLost else d
    | (2, y) => if l ≤ 1 then d.unitLeaves (0x20FF + 256 * y) else d
    | (3, p) => if 132 ≤ l ∧ l ≤ 134 then d.unitLeaves (0x30FF + 256 * p) else d
    | (4, s) => if l = 64 then d.unitLeaves (0x40FF + 256 * s) else d
    | _ => d

/-! ## FAULT_N (R469, R470) -/

/-- FAULT_PULSE_END at the first frame start at least 2.0 µs after the pulse began. -/
def Dev.pulseEnd (d : Dev) : Dev :=
  match d.flt.pulse with
  | some t => if t + us 2 ≤ d.clk.now then ({ d with flt := { d.flt with pulse := none } } : Dev).faultPin else d
  | none => d

/-- FAULT_PULSED_CLEAR: a write of 1 to PULSED. -/
def Dev.pulsedClear (d : Dev) : Dev := d.clear F.MST_FAULT_STAT_PULSED

/-- A write of MST_FAULT_HOLD. -/
def Dev.faultHold (d : Dev) (v : Nat) : Dev := (d.setF F.MST_FAULT_HOLD_HOLD [] v).faultPin

/-! ## Management commands (R479) -/

/-- A management command ends with a status and the epoch it saw. -/
def Dev.mgmtEnd (d : Dev) (st : Status) (seen : Nat) : Dev :=
  let d := { d with flt := { d.flt with mgmt := none } }
  ((d.clear F.MST_MGMT_STAT_BUSY).setF F.MST_MGMT_STAT_STATUS [] st.code).setF F.MST_MGMT_STAT_EPOCH_SEEN [] seen

/-- Targets that TAKE_OUT takes. -/
def takeOutOk (t : Nat) : Bool :=
  (t / 4096 == 4 && t % 256 < 0x48) || (t / 4096 == 5 && t % 256 < 0x10) || (t / 4096 == 2 && t % 256 < 0x10)
    || (2 ≤ t / 4096 && t % 256 == 0xFF && t != 0x4FFF && t != 0x5FFF)

/-- A write of MST_MGMT_CMD with the right KEY: latched for its target's island, completed at once for a reserved operation or
target, discarded while another is in progress. -/
def Dev.mgmtWrite (d : Dev) (v : Nat) : Dev :=
  if bits v 32 8 ≠ 0x5C then d
  else if d.flag F.MST_MGMT_STAT_BUSY then d.raise F.MST_MGMT_STAT_REJECTED
  else
    let t := bits v 0 16
    let op := bits v 24 4
    if !tackleExists t || (op == 1 && !takeOutOk t) || !(op == 1 || op == 2 || op == 3) then d.mgmtEnd .reservedOp 0
    else ({ d with flt := { d.flt with mgmt := some (t, bits v 16 8, op) } } : Dev).raise F.MST_MGMT_STAT_BUSY

/-- The management command of operation `op` reaches its target's island: it waits while that is stopped, and completes with UNIT_RESET
when it is in reset, STALE on another epoch, RESERVED_OP when the unit is out of service (R28, R472), else with its effect (DEDUCED,
log 43). -/
def Dev.mgmtRun (d : Dev) (op : Nat) (f : Dev → Nat → Dev) : Dev :=
  match d.flt.mgmt with
  | some (t, e, o) =>
    if o = op ∧ !d.headless then
      if d.islandStopped (tackleIsland t) then d
      else if d.islandInReset (tackleIsland t) then d.mgmtEnd .unitReset 0
      else if d.epochOf t ≠ e then d.mgmtEnd .stale (d.epochOf t)
      else if d.unitOut t then d.mgmtEnd .reservedOp e
      else (f d t).mgmtEnd .ok e
    else d
  | none => d

/-- TAKE_OUT. -/
def Dev.takeOut (d : Dev) : Dev := d.mgmtRun 1 Dev.unitLeaves

/-- Set or clear HALTED of all four queues of a tackle: one change of the face, one step of its EPOCH (R479, R509) (DEDUCED,
log 63). -/
def Dev.setHaltAll (d : Dev) (t : Nat) (v : Bool) : Dev :=
  let x := if v then 15 else 0
  if d.getF F.TCK_STAT_HALTED [t] = x then d else (d.setF F.TCK_STAT_HALTED [t] x).bumpEpoch t

/-- HALT_QUEUES. -/
def Dev.haltQueues (d : Dev) : Dev := d.mgmtRun 2 (fun d t => d.setHaltAll t true)

/-- RESUME_QUEUES. -/
def Dev.resumeQueues (d : Dev) : Dev := d.mgmtRun 3 (fun d t => d.setHaltAll t false)

end Sys2Proof.Machine
end

