-- ==== Sys2Proof/Machine/Optical.lean ====
section
/-!
DEFINITION. Optical modules (19): the sideband chain, bring-up, the allow-list, the ledger in the boot flash, life
threshold and records, and the pass-through. The module's own answers are operands. A row whose enabling condition fails
leaves the device unchanged (log 2).
-/
namespace Sys2Proof.Machine

/-! ## The boot flash -/

/-- One byte of the boot flash; an erased byte reads 0xFF (DESIGN CHOICE, log 4). -/
def Dev.flashByte (d : Dev) (a : Nat) : Byte := tget 0xFF d.boot.flash a

/-- Bytes of the boot flash. -/
def Dev.flashRead (d : Dev) (a n : Nat) : List Byte := (List.range n).map (fun i => d.flashByte (a + i))

/-- Write flash bytes. -/
def flashPut (m : List Host.Cell) : Nat → List Byte → List Host.Cell
  | _, [] => m
  | a, b :: t => flashPut (tput (fun i j => decide (i < j)) 0xFF a b m) (a + 1) t

/-- Program the boot flash. -/
def Dev.flashWrite (d : Dev) (a : Nat) (l : List Byte) : Dev := { d with boot := { d.boot with flash := flashPut d.boot.flash a l } }

/-- Erase the flash from `lo` to `hi - 1`. -/
def Dev.flashErase (d : Dev) (lo hi : Nat) : Dev :=
  { d with boot := { d.boot with flash := d.boot.flash.filter (fun c => !(decide (lo ≤ c.1) && decide (c.1 < hi))) } }

/-! ## Slots -/

/-- A slot with its latches as SB_RST_N sets them (R485) (DESIGN CHOICE, log 3). -/
def Slot.init : Slot := ⟨0, false, true, true, false, true, true, 0, none, none, false, 0, 0, 0, 0, 0⟩

/-- Slot `m`. -/
def Dev.slot (d : Dev) (m : Nat) : Slot := nget Slot.init d.opt.slots [m]

/-- Replace slot `m`. -/
def Dev.setSlot (d : Dev) (m : Nat) (x : Slot) : Dev := { d with opt := { d.opt with slots := nset d.opt.slots [m] x } }

/-- OPM_SLOT_STAT_m.STATE. -/
def Dev.slotState (d : Dev) (m : Nat) : Nat := d.getF F.OPM_SLOT_STAT_STATE [m]

/-- Set it. -/
def Dev.setSlotState (d : Dev) (m st : Nat) : Dev := d.setF F.OPM_SLOT_STAT_STATE [m] st

/-- The module management runs: the firmware has started and the Mast is not lost. -/
def Dev.optRuns (d : Dev) : Bool := d.flag F.MST_READY_MAST && !d.headless

/-- It manages modules. -/
def Dev.optOn (d : Dev) : Bool := d.optRuns && d.flag F.OPM_CTRL_EN

/-! ## Ledger records (R490–R492) -/

/-- A number in a field of `w` bits; one too large is stored as no rule says (DEDUCED, log 45). -/
def fit (w n : Nat) : Nat := if n < 2 ^ w then n else Config.wide n % 2 ^ w

/-- The 60 bytes that the CRC covers. -/
def LedRec.body (r : LedRec) : List Byte :=
  takeAt (r.serial ++ leBytes 16 0) 0 16 ++ leBytes 4 r.hash ++ leBytes 4 (fit 32 r.mins) ++ leBytes 2 r.rated ++ leBytes 2 (fit 16 r.drift)
    ++ leBytes 1 r.slot ++ leBytes 1 (b2n r.life + 2 * b2n r.denied) ++ leBytes 2 r.ins
    ++ (List.range 8).flatMap (fun i => leBytes 2 (r.bias.getD i 0)) ++ leBytes 4 r.seq ++ leBytes 8 0

/-- A ledger record's 64 bytes (R492). -/
def LedRec.bytes (r : LedRec) : List Byte := r.body ++ leBytes 4 (crc32c r.body)

/-- The record that 64 bytes hold, if its CRC is valid. A base of all zeros reads as none stored yet. -/
def LedRec.ofBytes (l : List Byte) : Option LedRec :=
  if leAt l 60 4 = crc32c (takeAt l 0 60) then
    let b := (List.range 8).map (fun i => leAt l (32 + 2 * i) 2)
    let f := leAt l 29 1
    some ⟨takeAt l 0 16, leAt l 16 4, leAt l 20 4, leAt l 24 2, leAt l 26 2, leAt l 28 1, bit f 0, bit f 1, leAt l 30 2,
      if b.all (· == 0) then [] else b, leAt l 48 4, false⟩
  else none

/-- The ledger record of a serial number. -/
def Dev.led (d : Dev) (s : List Byte) : Option LedRec := d.opt.led.find? (fun r => r.serial = s)

/-- Replace or add a ledger record. -/
def ledPut (r : LedRec) : List LedRec → List LedRec
  | [] => [r]
  | x :: t => if x.serial = r.serial then r :: t else x :: ledPut r t

/-- Store a ledger record in SRAM. -/
def Dev.setLed (d : Dev) (r : LedRec) : Dev := { d with opt := { d.opt with led := ledPut r d.opt.led } }

/-- First flash offset of record region `g`. -/
def ledBase (g : Nat) : Nat := 0x1000000 + 0x200000 * g

/-- Write new copies of records one after another at the active region's free place; each copy carries the next SEQ. -/
def ledAppend : List LedRec → Dev → Dev
  | [], d => d
  | r :: t, d =>
    let r := { r with seq := (r.seq + 1) % 2 ^ 32, dirty := false }
    let d := (d.flashWrite (ledBase d.opt.active + 64 * d.opt.pos) r.bytes).setLed r
    ledAppend t { d with opt := { d.opt with pos := d.opt.pos + 1 } }

/-- LEDGER_REGION_SWAP: every current record goes to the other region, which becomes active, and the old one is erased
(DEDUCED, log 45). -/
def Dev.ledSwap (d : Dev) : Dev :=
  let old := d.opt.active
  let d := { d with opt := { d.opt with active := 1 - old, pos := 0 } }
  (ledAppend (d.opt.led.take 32768) d).flashErase (ledBase old) (ledBase old + 0x200000)

/-- Append new copies of the listed records; `ok`: the flash takes them. A failure keeps counting in SRAM (R491). -/
def Dev.ledWrite (d : Dev) (l : List LedRec) (ok : Bool) : Dev :=
  if l = [] then d
  else if !ok then d.raise F.OPM_STAT_LEDGER_ERR
  else if 32768 < d.opt.pos + l.length then d.ledSwap
  else ledAppend l d

/-- Write every changed record, and record `r` in any case, as at a removal and at a life crossing (R491). -/
def Dev.ledSave (d : Dev) (r : LedRec) (ok : Bool) : Dev := d.ledWrite (d.opt.led.filter (fun x => x.dirty || x.serial = r.serial)) ok

/-- Write every changed record. -/
def Dev.ledFlush (d : Dev) (ok : Bool) : Dev :=
  let d := d.ledWrite (d.opt.led.filter LedRec.dirty) ok
  { d with opt := { d.opt with hourAt := d.clk.now, flushDue := false } }

/-- Places of region `g` at which something has been written. -/
def Dev.ledUsed (d : Dev) (g : Nat) : List Nat :=
  (d.boot.flash.filterMap (fun c => if ledBase g ≤ c.1 ∧ c.1 < ledBase g + 0x200000 then some ((c.1 - ledBase g) / 64) else none)).dedup

/-- The valid copies in region `g` (DEDUCED, log 45). -/
def Dev.ledCopies (d : Dev) (g : Nat) : List LedRec :=
  (d.ledUsed g).filterMap (fun i => LedRec.ofBytes (d.flashRead (ledBase g + 64 * i) 64))

/-- Of each serial, the copy with the highest SEQ is current (DEDUCED, log 45). -/
def ledNewer (l : List LedRec) (r : LedRec) : List LedRec :=
  match l.find? (fun x => x.serial = r.serial) with
  | some x => if x.seq < r.seq then ledPut r l else l
  | none => l ++ [r]

/-- Read the ledger when the firmware starts. The active region is the one that holds the newest copy (DESIGN CHOICE, log 45); the
history goes on after its highest sequence number. -/
def Dev.ledLoad (d : Dev) : Dev :=
  let c0 := d.ledCopies 0
  let c1 := d.ledCopies 1
  let top : List LedRec → Nat := fun l => l.foldl (fun (m : Nat) (r : LedRec) => max m (r.seq + 1)) 0
  let g := if top c0 < top c1 then 1 else 0
  let used := (d.boot.flash.filterMap (fun c => if 0x1400000 ≤ c.1 ∧ c.1 < 0x1500000 then some ((c.1 - 0x1400000) / 48) else none)).dedup
  let h := used.foldl (fun (m i : Nat) => max m (leAt (d.flashRead (0x1400000 + 48 * i) 4) 0 4 + 1)) 0
  { d with opt := { d.opt with led := (c0 ++ c1).foldl ledNewer [], active := g
                               pos := (d.ledUsed g).foldl (fun (m i : Nat) => max m (i + 1)) 0
                               hist := h, hourAt := d.clk.now } }

/-! ## Event records (R494) -/

/-- The bytes of a module event record after its LENGTH word. -/
def Dev.opmRecord (d : Dev) (m event flags : Nat) : List Byte :=
  let s := (d.slot m).serial
  let r := s.bind d.led
  leBytes 1 0x60 ++ leBytes 1 event ++ leBytes 1 m ++ leBytes 1 (d.slotState m) ++ takeAt (s.getD [] ++ leBytes 16 0) 0 16
    ++ leBytes 4 (if s = none then 0 else d.getF F.OPM_SLOT_ID_PART_HASH [m]) ++ leBytes 4 (fit 32 ((r.map LedRec.mins).getD 0))
    ++ leBytes 2 (fit 16 ((r.map LedRec.drift).getD 0)) ++ leBytes 2 ((r.map LedRec.rated).getD 0) ++ leBytes 1 flags ++ leBytes 3 0
    ++ leBytes 8 d.fabTime

/-- Write an event record to its ring, and for INSERT, REMOVE, DENIED and LIFE to the history ring as well. -/
def Dev.opmEvent (d : Dev) (m event flags : Nat) (ok : Bool) : Dev :=
  let b := d.opmRecord m event flags
  let d := if d.flag F.OPM_CTRL_RING_EN then d.addRec (d.getF F.OPM_CTRL_RING) (leBytes 4 48 ++ b) none else d
  if event = 1 ∨ 3 ≤ event ∧ event ≤ 5 then
    let h := d.opt.hist
    let d := if ok then d.flashWrite (0x1400000 + 48 * (h % 21845)) (leBytes 4 h ++ b) else d.raise F.OPM_STAT_LEDGER_ERR
    { d with opt := { d.opt with hist := (h + 1) % 2 ^ 32 } }
  else d

/-- The slot fails: FAULT, LPMODE asserted, and a BUS_ERR record (R486, R487). -/
def Dev.slotFault (d : Dev) (m : Nat) : Dev :=
  let d := d.setSlot m { d.slot m with oLp := true, tx := false }
  ((d.setSlotState m 5).raise F.OPM_SLOT_STAT_BUS_ERR [m]).opmEvent m 7 0 true

/-! ## The sideband chain (R485, R486) -/

/-- One slot's part of a scan: outputs reach the latches, presence is debounced over 4 scans, INT_N is sampled. -/
def Dev.scanSlot (d : Dev) (m : Nat) (present int : Bool) : Dev :=
  let x := d.slot m
  let x := { x with resetN := x.oReset, lp := x.oLp, selN := x.oSel }
  let x := if x.hold = 0 then x else { x with hold := x.hold - 1, oReset := x.hold == 1 }
  let d := d.setF F.OPM_SLOT_STAT_INT [m] (b2n int)
  if present = d.flag F.OPM_SLOT_STAT_PRESENT [m] then d.setSlot m { x with deb := 0 }
  else if x.deb + 1 < 4 then d.setSlot m { x with deb := x.deb + 1 }
  else (d.setF F.OPM_SLOT_STAT_PRESENT [m] (b2n present)).setSlot m { x with deb := 0, confirmed := some present }

/-- SIDEBAND_SCAN with the 128 slots' PRESENT_N and INT_N levels as masks of asserted lines. SB_RST_N holds the latches until
MST_READY.MAST rises; while headless they hold. -/
def Dev.scan (d : Dev) (present int : Nat) : Dev :=
  if d.optRuns then
    let d := (List.range 128).foldl (fun d m => d.scanSlot m (bit present m) (bit int m)) d
    d.setF F.OPM_STAT_PRESENT [] ((List.range 128).filter (fun m => d.flag F.OPM_SLOT_STAT_PRESENT [m])).length
  else d

/-- Reset a module and start its bring-up: RESET_N and LPMODE in the next scan, held for one scan. -/
def Dev.slotStart (d : Dev) (m : Nat) : Dev :=
  (d.setSlot m { d.slot m with oReset := false, oLp := true, hold := 1, tx := false, since := d.clk.now
                               limit := d.clk.now + ms 2500 }).setSlotState m 1

/-- End a pass-through access (DEDUCED, log 45). -/
def Dev.passEnd (d : Dev) (st : Status) : Dev :=
  ((match d.opt.pass with
    | some p => { d.setSlot p.slot { d.slot p.slot with oSel := true } with opt := { (d.setSlot p.slot { d.slot p.slot with oSel := true }).opt with pass := none } }
    | none => d).clear F.OPM_PASS_DATA_BUSY).setF F.OPM_PASS_DATA_STATUS [] st.code

/-- A pass-through access names slot `m`. -/
def Dev.passOn (d : Dev) (m : Nat) : Bool :=
  match d.opt.pass with
  | some p => p.slot == m
  | none => false

/-- MODULE_INSERT: a confirmed insertion. Under MANUAL the Mast records it and leaves the module alone (DEDUCED, log 45). -/
def Dev.moduleInsert (d : Dev) (m : Nat) (ok : Bool) : Dev :=
  if d.optOn && (d.slot m).confirmed == some true then
    let d := if d.passOn m then d.passEnd .unitReset else d
    let d := d.setSlot m { d.slot m with confirmed := none, serial := none, tx := false, prev := 1 }
    let d := (d.setF F.OPM_SLOT_ID_PART_HASH [m] 0).setF F.OPM_SLOT_MIN_LASER_MIN [m] 0
    let d := if d.flag F.OPM_SLOT_CFG_MANUAL [m] then d.setSlotState m 6 else d.slotStart m
    d.opmEvent m 1 0 ok
  else d

/-! ## Identity and admission (R486–R489) -/

/-- PART_HASH over the vendor name and part number as stored. -/
def partHash (vendor part : List Byte) : Nat := crc32c (vendor ++ part)

/-- The rated life that the allow-list or OPM_LIFE_DEF gives a hash. -/
def Dev.ratedLife (d : Dev) (h : Nat) : Nat :=
  match (List.range 64).find? (fun i => d.flag F.OPM_ALLOW2_VALID [i] && d.getF F.OPM_ALLOW_HASH [i] == h) with
  | some i => if d.getF F.OPM_ALLOW2_RATED [i] = 0 then d.getF F.OPM_LIFE_DEF_RATED else d.getF F.OPM_ALLOW2_RATED [i]
  | none => d.getF F.OPM_LIFE_DEF_RATED

/-- A valid entry of OPM_ALLOW holds the hash. -/
def Dev.allowed (d : Dev) (h : Nat) : Bool :=
  !d.flag F.OPM_CTRL_ALLOW_EN ||
    (List.range 64).any (fun i => d.flag F.OPM_ALLOW2_VALID [i] && d.getF F.OPM_ALLOW_HASH [i] == h)

/-- The serial is that of a module present in another slot. -/
def Dev.duplicate (d : Dev) (m : Nat) (s : List Byte) : Bool :=
  (List.range 128).any (fun k => k != m && d.flag F.OPM_SLOT_STAT_PRESENT [k] && (d.slot k).serial == some s)

/-- MODULE_ANSWER: the module's identity and whether it advertises 200GAUI-1 on 8 lanes, with its power-up duration in
milliseconds (DEDUCED, log 45). -/
def Dev.moduleAnswer (d : Dev) (m : Nat) (vendor part serial : List Byte) (app : Bool) (dur : Nat) (ok : Bool) : Dev :=
  if d.optOn && d.slotState m == 1 && (d.slot m).resetN && decide (d.clk.now ≤ (d.slot m).limit) then
    let h := partHash vendor part
    let dup := d.duplicate m serial
    let fresh := (d.slot m).serial == none
    let r := match d.led serial with
      | some r => r
      | none => ⟨serial, h, 0, 0, 0, m, false, false, 0, [], 0, true⟩
    let deny := dup || !d.allowed h
    let r := { r with rated := if dup then r.rated else d.ratedLife h, hash := if dup then r.hash else h, slot := if dup then r.slot else m
                      denied := r.denied || deny
                      ins := if fresh then min (r.ins + 1) 65535 else r.ins, dirty := true }
    let d := (d.setLed r).setSlot m { d.slot m with serial := some serial }
    let d := (d.setF F.OPM_SLOT_ID_PART_HASH [m] h).setF F.OPM_SLOT_MIN_LASER_MIN [m] (fit 32 r.mins)
    if deny then (d.setSlotState m 2).opmEvent m 4 0 ok
    else if !app then d.slotFault m
    else
      (d.setSlot m { d.slot m with oLp := false, since := d.clk.now, limit := d.clk.now + ms dur * 11 / 10 }).setSlotState m 3
  else d

/-- MODULE_POLL_TIMEOUT: no answer within 2.5 s. -/
def Dev.pollTimeout (d : Dev) (m : Nat) : Dev :=
  if d.optOn && d.slotState m == 1 && decide ((d.slot m).limit < d.clk.now) then d.slotFault m else d

/-- MODULE_READY: the module reached ModuleReady in time; its data path and transmitters are activated. -/
def Dev.moduleReady (d : Dev) (m : Nat) : Dev :=
  if d.optOn && d.slotState m == 3 && decide (d.clk.now ≤ (d.slot m).limit) then
    let d := d.setSlot m { d.slot m with tx := true, since := d.clk.now, minAt := d.clk.now, biasAt := d.clk.now }
    (d.setSlotState m 4).opmEvent m 2 0 true
  else d

/-- MODULE_READY_TIMEOUT. -/
def Dev.readyTimeout (d : Dev) (m : Nat) : Dev :=
  if d.optOn && d.slotState m == 3 && decide ((d.slot m).limit < d.clk.now) then d.slotFault m else d

/-- OPM_REINIT: a write of REINIT resets a present module and brings it up again. -/
def Dev.reinit (d : Dev) (m : Nat) : Dev :=
  if d.optOn && d.slotState m != 0 && d.slotState m != 6 then d.slotStart m else d

/-- OPM_MANUAL_WRITE: a present module is handed to the pass-through, or back in the state it had (DESIGN CHOICE, log 45). -/
def Dev.manualWrite (d : Dev) (m : Nat) (v : Bool) : Dev :=
  let d := d.setF F.OPM_SLOT_CFG_MANUAL [m] (b2n v)
  let st := d.slotState m
  if st = 0 then d
  else if v then if st = 6 then d else (d.setSlot m { d.slot m with prev := st }).setSlotState m 6
  else if st = 6 then
    if (d.slot m).prev = 1 then d.slotStart m else d.setSlotState m (d.slot m).prev
  else d

/-! ## Removal (R495) -/

/-- MODULE_REMOVE: a confirmed removal (DEDUCED, log 45). -/
def Dev.moduleRemove (d : Dev) (m : Nat) (ok : Bool) : Dev :=
  if d.optOn && (d.slot m).confirmed == some false then
    let d := if d.passOn m then d.passEnd .reservedOp else d
    let d := match (d.slot m).serial.bind d.led with
      | some r => d.ledSave r ok
      | none => d
    let d := (d.setSlotState m 0).opmEvent m 3 0 ok
    let d := d.setSlot m { d.slot m with confirmed := none, serial := none, tx := false }
    (d.setF F.OPM_SLOT_ID_PART_HASH [m] 0).setF F.OPM_SLOT_MIN_LASER_MIN [m] 0
  else d

/-- MODULE_INT: INT_N was seen low; the module's flags are read, which clears them. -/
def Dev.moduleInt (d : Dev) (m : Nat) (modFlags laneFlags : Bool) : Dev :=
  if d.optOn && d.flag F.OPM_SLOT_STAT_INT [m] && d.slotState m != 0 && d.slotState m != 6 then
    d.opmEvent m 6 (b2n modFlags + 2 * b2n laneFlags) true
  else d

/-! ## Laser time, drift and the life threshold (R490, R493) -/

/-- A record has passed the life threshold. -/
def Dev.pastLife (d : Dev) (r : LedRec) : Bool :=
  decide (r.rated * 6000 * d.getF F.OPM_LIFE_CFG_PCT ≤ r.mins * 100) || decide (d.getF F.OPM_LIFE_CFG_DRIFT_LIM ≤ r.drift)

/-- The first crossing flags the record, writes it and a LIFE record. -/
def Dev.lifeCheck (d : Dev) (m : Nat) (r : LedRec) (ok : Bool) : Dev :=
  if !r.life && d.pastLife r then
    let r := { r with life := true, dirty := true }
    (((d.setLed r).ledSave r ok).raise F.OPM_SLOT_STAT_LIFE [m]).opmEvent m 5 0 ok
  else d

/-- The module of slot `m` is transmitting, and its ledger record. -/
def Dev.shining (d : Dev) (m : Nat) : Option LedRec :=
  if d.optRuns && (d.slot m).tx && (d.slotState m == 4 || d.slotState m == 6) then (d.slot m).serial.bind d.led else none

/-- LASER_MINUTE. -/
def Dev.laserMinute (d : Dev) (m : Nat) (ok : Bool) : Dev :=
  match d.shining m with
  | some r =>
    if (d.slot m).minAt + sec 60 ≤ d.clk.now then
      let r := { r with mins := r.mins + 1, dirty := true }
      let d := (d.setLed r).setSlot m { d.slot m with minAt := (d.slot m).minAt + sec 60 }
      (d.setF F.OPM_SLOT_MIN_LASER_MIN [m] (fit 32 r.mins)).lifeCheck m r ok
    else d
  | none => d

/-- A lane's drift against its base in 0.1 %; no rule gives one for a base of 0 (DEDUCED, log 45). -/
def drift (base bias : Nat) : Nat := if base = 0 then Config.wide bias else ((bias : Int) - base).natAbs * 1000 / base

/-- BIAS_DRIFT_SAMPLE: the first sample of a serial, ten minutes after READY, is its base; later ones give the drift. -/
def Dev.biasSample (d : Dev) (m : Nat) (bias : List Nat) (ok : Bool) : Dev :=
  match d.shining m with
  | some r =>
    if d.slotState m = 4 ∧ (d.slot m).biasAt + sec 600 ≤ d.clk.now then
      let d := d.setSlot m { d.slot m with biasAt := d.clk.now }
      if r.bias = [] then d.setLed { r with bias := bias, dirty := true }
      else
        let w := (List.range 8).foldl (fun w i => max w (drift (r.bias.getD i 0) (bias.getD i 0))) r.drift
        let r := { r with drift := w, dirty := true }
        (d.setLed r).lifeCheck m r ok
    else d
  | none => d

/-- LEDGER_HOURLY_WRITE. -/
def Dev.ledHourly (d : Dev) (ok : Bool) : Dev :=
  if d.optOn && decide (d.opt.hourAt + sec 3600 ≤ d.clk.now) then d.ledFlush ok else d

/-- The flush that OPM_CTRL.FLUSH asked for (DEDUCED, log 67). -/
def Dev.ledFlushDue (d : Dev) (ok : Bool) : Dev := if d.optOn && d.opt.flushDue then d.ledFlush ok else d

/-- OPM_CTRL.DUMP: every current ledger record as a record of type 0x61. -/
def Dev.ledDump (d : Dev) : Dev :=
  if d.optOn then
    d.opt.led.foldl (fun d r => d.addRec (d.getF F.OPM_CTRL_RING) (leBytes 4 72 ++ leBytes 1 0x61 ++ leBytes 3 0 ++ r.bytes) none) d
  else d

/-! ## Pass-through (R496) -/

/-- OPM_PASS_GO: GO in a write of OPM_PASS_CTRL, whose other fields are written already (DEDUCED, log 45). -/
def Dev.passGo (d : Dev) : Dev :=
  if d.flag F.OPM_PASS_DATA_BUSY || !d.optRuns then d
  else
    let m := d.getF F.OPM_PASS_CTRL_SLOT
    let w := d.flag F.OPM_PASS_CTRL_WRITE
    if !d.flag F.OPM_SLOT_STAT_PRESENT [m] then d.setF F.OPM_PASS_DATA_STATUS [] Status.reservedOp.code
    else if w && !d.flag F.OPM_SLOT_CFG_MANUAL [m] then d.setF F.OPM_PASS_DATA_STATUS [] Status.owner.code
    else
      let d := d.setSlot m { d.slot m with oSel := false }
      { d with opt := { d.opt with pass := some ⟨m, d.getF F.OPM_PASS_CTRL_PAGE, d.getF F.OPM_PASS_CTRL_BYTE, w, d.getF F.OPM_PASS_DATA_DATA⟩ } }.raise
        F.OPM_PASS_DATA_BUSY

/-- OPM_PASS_DONE: the module answered with a byte, or with a NACK, once a scan has latched its select (R485). -/
def Dev.passDone (d : Dev) (nack : Bool) (v : Nat) : Dev :=
  match d.opt.pass with
  | none => d
  | some p =>
    if (d.slot p.slot).selN then d
    else
    let d := d.emit (.module p.slot p.page p.byte (if p.write then some p.data else none))
    if nack then d.passEnd .timeout
    else
      let d := if p.write then d else d.setF F.OPM_PASS_DATA_DATA [] v
      d.passEnd .ok

end Sys2Proof.Machine
end

