-- ==== Sys2Proof/Machine/Rights.lean ====
section
/-!
DEFINITION. Who may write which register (R118), what the carrying host port reports, and how an indirect access ends (R122).
-/
namespace Sys2Proof.Machine

/-! ## The carrying host port -/

/-- The host port that carries an issuer's accesses, when one does. -/
def issuerPort : Issuer → Option Nat
  | .pf x => some x
  | .vf x _ => some x
  | .plan _ => none
  | .jtag => none

/-- The issuer is function `f` of host port `x`. -/
def isFn (x f : Nat) : Issuer → Bool
  | .pf y => y.val == x && f == 0
  | .vf y g => y.val == x && g.val == f
  | _ => false

/-- A waiting access of a port's posted-write path belongs to function `f` of port `x`. -/
def Posted.isFn (x f : Nat) : Posted → Bool
  | .mem g _ _ _ => g == f
  | .reg iss _ _ _ => Machine.isFn x f iss

/-- Function `f` of host port `x` takes memory accesses: the PF, or a VF that is enabled, in D0 (R115). An access to any other function
is an unsupported request and reaches nothing (PCIe base specification; PRESUMED, log 9). -/
def Dev.fnOn (d : Dev) (x f : Nat) : Bool := (f == 0 || f ≤ d.getF F.HST_PORT_STAT_NUM_VF [x]) && !nget false d.host.d3 [x, f]

/-- Set a sticky bit of the carrying host port. -/
def Dev.portErr (d : Dev) (i : Issuer) (f : Field) : Dev :=
  match issuerPort i with
  | some x => d.raise f [x]
  | none => d

/-- A write is discarded: the carrying port's REJECTED_WR. -/
def Dev.rejectWr (d : Dev) (i : Issuer) : Dev := d.portErr i F.HST_PORT_ERR_REJECTED_WR

/-! ## Rights (R118) -/

/-- The issuer is the PF of the helm host. -/
def Dev.isHelm (d : Dev) : Issuer → Bool
  | .pf x => x.val == d.clk.helm
  | _ => false

/-- The issuer has Helm or Plan rights; JTAG register access has those of PLAN (R513). -/
def Dev.planRights (d : Dev) : Issuer → Bool
  | .pf x => x.val == d.clk.helm
  | .vf _ _ => false
  | .plan _ => true
  | .jtag => true

/-- The issuer may write register `r` (R118, R359, R397, R101) (DEDUCED, log 64). -/
def Dev.mayWrite (d : Dev) (iss : Issuer) (w : Writer) (r : RegName) (idx : List Nat) : Bool :=
  match iss with
  | .pf x =>
    (if w = .recovery then x.val == d.clk.helm && d.getF F.MST_BOOT_STAT_RESULT == 4
     else x.val == d.clk.helm ||
      (match w with
       | .gen => true
       | .port => ix idx 0 == x.val
       | .fn => ix idx 0 == x.val
       | .qcfg => d.partOf (ix idx 0) (ix idx 1) == x.val
       | .ret => d.bankOwner (r == .SAL_BANK_PWR) (ix idx 0) (ix idx 1) == x.val + 1
       | _ => false))
  | .vf x f => w == .fn && ix idx 0 == x.val && ix idx 1 == f.val
  | .plan _ => !(w == .helmOnly || w == .recovery)
  | .jtag => !(w == .helmOnly || w == .recovery)

/-! ## The end of an indirect access (R122) -/

/-- An indirect access ends with a status. -/
def Dev.indEnd (d : Dev) (x : Nat) (st : Status) : Dev :=
  { ((d.clear F.HST_IND_STAT_BUSY [x]).setF F.HST_IND_STAT_STATUS [x] st.code) with host := { d.host with ind := ndel d.host.ind [x] } }

/-- An access of the indirect window that its target may still take after it was aborted: a write that passes every check of R122
on the way there. -/
def Dev.indLate (d : Dev) (a : IndAcc) : List HeldAccess :=
  match regAt a.addr with
  | some (r, idx) =>
    if a.write && r.width == (if a.size64 then 64 else 32) && d.mayWrite a.iss r.writer r.reg idx then [⟨a.iss, .plan, true, r.reg, idx, a.data⟩] else []
  | none => []

/-- IND_ACCESS_ABORT: the access in progress ends at once; a write that its target takes afterwards still takes effect (R122)
(DEDUCED, log 61). -/
def Dev.indAbort (d : Dev) (x : Nat) : Dev :=
  if d.flag F.HST_IND_STAT_BUSY [x] then
    let late := ((nget? d.host.ind [x]).map d.indLate).getD []
    let mine := fun (h : HeldAccess) => h.via == .ind x
    let held := (d.clk.held.filter (fun h => !mine h || h.write)).map (fun h => if mine h then { h with via := .plan } else h)
    ({ d with clk := { d.clk with held := held ++ late } }.indEnd x .aborted).raise F.HST_PORT_ERR_IND_ABORT [x]
  else d

end Sys2Proof.Machine
end

