-- ==== Sys2Proof/Machine/Reset.lean ====
section
/-!
DEFINITION. Power, reference and the reset scopes (04), readiness (R102, R103), and the power states and training of banks
and stacks (R349, R350, R359, R360). A row whose enabling condition fails leaves the device unchanged (log 2).
-/
namespace Sys2Proof.Machine

/-! ## Device reset (R94–R97, R104) -/

/-- Registers that a device reset keeps (R104, R114, R481, R531, R532) (DEDUCED, log 62). -/
def keptInDevice (r : RegName) : Bool :=
  match r with
  | .MST_RST_CAUSE | .MST_SEC_FUSE | .MST_FAULT_STAT | .MST_FAULT_TIME
  | .SNS_TEMP | .SNS_REM | .SNS_REM_CFG | .SNS_REM_RES | .SNS_STAT | .SNS_LIMITS | .SNS_SAIL_THR | .SNS_TRIP_SRC
  | .PWR_RAIL_STAT | .PWR_VSAIL | .PWR_SAIL_CTRL | .PWR_SAIL_STAT | .PWR_SAIL_THR_CNT | .PWR_SAIL_RATIO_CNT => true
  | _ => false

/-- Registers whose reset value comes from the fuses (R32, R114, R460). -/
def Dev.fuseRegs (d : Dev) (fz : Fuses) : Dev :=
  let d := ((d.setF F.MST_UNITS_YARD_OK [] fz.unitsOk).setF F.MST_UNITS_SAIL_OK [] (fz.unitsOk / 2 ^ 4)).setF F.MST_UNITS_PORT_OK [] (fz.unitsOk / 2 ^ 8)
  let d := d.setF F.MST_UNITS_BASE_OK [] (fz.unitsOk / 2 ^ 16)
  let d := (List.range 4).foldl (fun d s => (d.setF F.SAL_CORE_OK_CORES [s] (fz.coreOk.getD s 0)).setF F.SAL_VEC_OK_ENG [s] (fz.vecOk.getD s 0)) d
  let d := (List.range 8).foldl (fun d n => d.setF F.BSE_VEC_OK_ENG [n] (fz.bseVecOk.getD n 0)) d
  ((d.setF F.MST_SEC_FUSE_KEY_REVOKED [] fz.keyRevoked).setF F.MST_SEC_FUSE_SEC_VER_MIN [] fz.secVerMin).setF F.MST_SEC_FUSE_DEBUG_CLOSED []
    (b2n fz.debugClosed)

/-- Everything outside the always-on island stops: engines, queues, packets, rings, firmware and records go, and every island
is held in reset. What stands outside the device, the flash and the always-on registers that `keep` selects stay (DEDUCED,
log 64). -/
def Dev.stopAll (d : Dev) (keep : RegName → Bool) : Dev :=
  { d with
    regs := d.regs.filter (fun e => keep e.1.reg)
    clk := { d.clk with frame := 0, fabRun := false, stopped := [], held := [], heldAper := [], steps := [], autoStep := none
                        holdSince := if keep .MST_CLK_HOLD then d.clk.holdSince else []
                        parentSeen := false, timex := [], peers := [], freeX := [] }
    boot := { d.boot with image := none, started := false }
    rst := Rst.zero
    host := { HostSt.zero with perst := d.host.perst }
    flt := ⟨none, false, none⟩
    bank := { d.bank with claims := [], stackLast := [], caFails := [], tested := [] }
    eng := EngSt.zero, coll := CollSt.zero, net := NetSt.zero, tel := TelSt.zero, ln := LnSt.zero, opt := OptSt.zero
    pwr := { d.pwr with ratio := [] }
    jtag := if d.jtag.busy then { d.jtag with busy := false, access := none, status := Status.unitReset.code, scanned := false }
            else { d.jtag with scanned := false } }

/-- Sails in a ratio change keep the ratio in force: the change does not complete (R523, by analogy; log 46). -/
def Dev.ratioEnd (d : Dev) : Dev := (List.range 4).foldl (fun d s => d.clear F.PWR_SAIL_STAT_CHANGING [s]) d

/-- MST_CLK_STAT shows whether SYSREF edges arrive; without them the always-on island runs on its backup oscillator (R47, R68). -/
def Dev.refShow (d : Dev) : Dev :=
  if d.clk.sysref then d.raise F.MST_CLK_STAT_REF_PRESENT else (d.raise F.MST_CLK_STAT_REF_LOST).raise F.MST_CLK_STAT_AO_BACKUP

/-- A device reset with its cause. Contents of banks and stacks are undefined after it (R105, R350) (DESIGN CHOICE, log 2;
DEDUCED, logs 46, 62). -/
def Dev.deviceReset (d : Dev) (fz : Fuses) (cause : Field) : Dev :=
  let d := ((d.stopAll keptInDevice).fuseRegs fz).refShow
  let d := ((d.raise cause).addWrap F.MST_RST_CAUSE_COUNT [] 1).clear F.MST_FAULT_STAT_PULSED
  let d := { d with clk := { d.clk with phase := .held, brown := false, timeZero := 0, lastLock := 0, helm := 0 } }
  ((d.ratioEnd.loseMem 0 0x300020000000).faultPin).emit (.wire "links idle" [])

/-- RESET_N_PULSE: RESET_N low for 1 µs or more. -/
def Dev.resetPulse (d : Dev) (fz : Fuses) : Dev :=
  if d.clk.phase = .off then d
  else
    let d := d.deviceReset fz F.MST_RST_CAUSE_PIN
    { d with clk := { d.clk with badStart := false }, pwr := { d.pwr with trip := false } }

/-- SYSREF has shown no edge for 64 ns: the always-on island goes to its backup oscillator and raises the fatal fault (R47, R68). -/
def Dev.refGone (d : Dev) : Dev :=
  if d.clk.sysref then
    let d := ((d.raise F.MST_CLK_STAT_REF_LOST).clear F.MST_CLK_STAT_REF_PRESENT).raise F.MST_CLK_STAT_AO_BACKUP
    ({ d with clk := { d.clk with sysref := false } } : Dev).fault 0 .refLost
  else d

/-- The release is taken: on a SYSREF edge it is time zero; without SYSREF Hoist does not begin (R95, R96, R117). -/
def Dev.startUp (d : Dev) (sysref : Bool) (helm vsail : Nat) : Dev :=
  let d := ((d.setF F.PWR_RAIL_STAT_GOOD [] 0x7FF).setF F.PWR_VSAIL_MV [] vsail).startIsland 0
  let d := { (d.clear F.MST_RST_STAT_BUSY) with rst := Rst.zero }
  if sysref then
    let d := (((d.setF F.MST_HELM_HELM [] helm).raise F.HST_PORT_STAT_HELM [helm]).raise F.MST_CLK_STAT_REF_PRESENT).clear F.MST_CLK_STAT_AO_BACKUP
    { d with clk := { d.clk with phase := .locking, timeZero := d.clk.now, helm := helm, sysref := true, brown := false } }
  else
    let d := d.refGone.setF F.MST_HOIST_STAT_FAIL [] 2
    ({ d with clk := { d.clk with phase := .refAbsent, brown := false } } : Dev).fault 0 .hoistFail

/-- A device reset asked for through MST_RST_REQ has not yet been held for 1.0 µs (R104). -/
def Dev.holdRunning (d : Dev) : Bool :=
  match d.rst.req with
  | some q => decide (d.clk.now < q.since + us 1)
  | none => false

/-- RESET_N_RELEASE: the always-on island takes the release with every rail good (DESIGN CHOICE, log 13). -/
def Dev.resetRelease (d : Dev) (sysref : Bool) (helm vsail : Nat) : Dev :=
  if d.clk.phase = .held ∧ !d.clk.brown ∧ !d.holdRunning then d.startUp sysref helm vsail else d

/-- BROWNOUT: rails other than VDD_AON have left tolerance; `mask` is GOOD then. -/
def Dev.brownout (d : Dev) (fz : Fuses) (mask : Nat) : Dev :=
  match d.clk.phase with
  | .off => d
  | .tripped => d.setF F.PWR_RAIL_STAT_GOOD [] mask
  | .held =>
    if d.clk.brown || d.rst.req = none then d.setF F.PWR_RAIL_STAT_GOOD [] mask
    else
      let d := (d.deviceReset fz F.MST_RST_CAUSE_BROWNOUT).setF F.PWR_RAIL_STAT_GOOD [] mask
      { d with clk := { d.clk with brown := true } }
  | _ =>
    let d := (d.deviceReset fz F.MST_RST_CAUSE_BROWNOUT).setF F.PWR_RAIL_STAT_GOOD [] mask
    { d with clk := { d.clk with brown := true } }

/-- RAILS_GOOD_RESTART after a brownout. -/
def Dev.railsGood (d : Dev) (sysref : Bool) (helm vsail : Nat) : Dev :=
  if d.clk.phase = .held ∧ d.clk.brown then d.startUp sysref helm vsail else d

/-- SYSREF_LOSS (R47): every island but the always-on one is held in reset until a device reset. The always-on registers keep
their values; R47 and R69 do not say whether the lock bits of MST_PLL_LOCK drop, and they stand as they did (DEDUCED, log 69). -/
def Dev.sysrefLoss (d : Dev) : Dev :=
  match d.clk.phase with
  | .off => d
  | .held | .refAbsent | .refLost | .tripped => d.refGone
  | _ =>
    if d.clk.sysref then
      let d := d.stopAll (fun r => regIsland r [] == 0)
      let d := ({ d with clk := { d.clk with phase := .refLost } }.resetRegs (fun k => k.reg == RegName.MST_CLKON || k.reg == RegName.MST_READY || k.reg == RegName.MST_READY_STACK)).startIsland 0
      d.refGone.emit (.wire "links idle" [])
    else d

/-- SYSREF edges arrive, for the first time since power-on or again: REF_PRESENT shows them, and nothing restarts (R68, R96). The
always-on island stays on its backup oscillator until a device reset starts the device (DEDUCED, log 69). -/
def Dev.sysrefBack (d : Dev) : Dev :=
  if d.clk.phase = .off then d else ({ d with clk := { d.clk with sysref := true } } : Dev).raise F.MST_CLK_STAT_REF_PRESENT

/-- POWER_ON_RESET: VDD_AON has risen; `inOrder`: the rails rise as R540 asks. Flash and fuses stay (DEDUCED, log 64). -/
def Dev.powerOn (d : Dev) (fz : Fuses) (inOrder : Bool) : Dev :=
  if d.clk.phase = .off then
    let z := State.reset.dev
    let z := ({ z with boot := { z.boot with flash := d.boot.flash }, out := d.out, freeCtr := d.freeCtr
                       bank := { z.bank with lost := d.bank.lost, lostGen := d.bank.lostGen } } : Dev).fuseRegs fz
    { z with clk := { z.clk with badStart := !inOrder } }
  else d

/-- VDD_AON_FALL: power-on reset holds everything; contents of every array are lost. -/
def Dev.aonFall (d : Dev) : Dev :=
  if d.clk.phase = .off then d
  else
    let d := d.stopAll (fun _ => false)
    { d with clk := { d.clk with phase := .off, brown := false, badStart := false }, boot := { d.boot with prog := none }
             pwr := ⟨[], 0, [], false⟩, jtag := JtagSt.zero }.loseMem 0 0x300020000000

/-! ## Reset requests (R104–R108) -/

/-- The tackles whose engines lie in island `g`. -/
def islandTackles (g : Nat) : List Nat := (dieTackles (islandDie g)).filter (fun t => tackleIsland t == g)

/-- What one island's reset takes with it, besides its tackles, memory and registers (DEDUCED, log 62). -/
def Dev.islandLost (d : Dev) (g : Nat) : Dev :=
  let n := islandDie g
  let l := g - (dieIslands n).1
  match dieClass n with
  | (2, y) =>
    if l ≤ 1 then d.yardCellsLost y
    else if l = 2 then (List.range 9).foldl (fun d c => d.abandonOn y c) d
    else if l = 3 then (List.range 8).foldl (fun d c => d.abandonOn y (9 + c)) d
    else if l = 4 then d.collYardOut y
    else d
  | (3, p) =>
    if l < 132 then d.laneFault p l .islandReset
    else if l = 134 then
      let fs := (d.net.flows.filter (fun f => ix f.1 0 / 32768 == p)).map (fun f => ix f.1 0)
      fs.foldl (fun d f => d.loseFlow f .unitReset) d
    else if l ≤ 133 then (List.range 32).foldl (fun d e => d.portDown (p, e)) d
    else d
  | (4, _) => if l = 65 then d.dropDest n else d
  | (5, k) =>
    if l = 16 then
      let d := (d.clrBitF F.MST_READY_STACK_STACK [] k).dropClaims n
      { d with bank := { d.bank with stackLast := ndel d.bank.stackLast [k], caFails := nput 0 d.bank.caFails [k] 0 } }
    else d
  | _ => d

/-- Island `g` goes into reset (DEDUCED, log 62). It is a unit of its die, so windows that hold the die are aborted even where it has no
tackle (R85). -/
def Dev.islandDown (d : Dev) (g : Nat) : Dev :=
  let d := (islandTackles g).foldl (fun d t => ((d.stopTackle t).flushQueues t).unhalt t) (d.abortWindows (dieUnit (islandDie g)) [])
  let d := (d.islandLost g).islandMemLost g
  let mine := fun (a : HeldAccess) => regIsland a.reg a.idx == g
  let gone := d.clk.held.filter mine
  let d := { d.holdIsland g with clk := { (d.holdIsland g).clk with held := (d.holdIsland g).clk.held.filter (fun a => !mine a) } }
  let d := (gone.foldl (fun d a => d.accessEnd a .unitReset 0) d).dropApers (fun h => h == g)
  d.resetIslandRegs (fun k => k == g)

/-- The unit that has island `g` to itself, if one has. -/
def islandUnit (g : Nat) : Option Nat :=
  let n := islandDie g
  let l := g - (dieIslands n).1
  match dieClass n with
  | (4, s) => if l < 64 then some (0x4000 + 256 * s + l) else none
  | (5, k) => if l < 16 then some (0x5000 + 256 * k + l) else none
  | _ => none

/-- An island of a unit or die that has left service. -/
def Dev.islandOut (d : Dev) (g : Nat) : Bool :=
  d.rst.outDies.contains (islandDie g) || ((islandUnit g).map d.unitOut).getD false

/-- The die that a group tackle id names as a die-reset target (R105). -/
def resetDie (t : Nat) : Option DieNo :=
  if t % 256 = 0xFF ∧ 2 ≤ t / 4096 ∧ t / 4096 ≤ 5 ∧ tackleExists t ∧ tackleDie t ≠ 25 then some (tackleDie t) else none

/-- The unit fuses leave die `n` absent, and no departure explains it. -/
def Dev.dieAbsent (d : Dev) (n : DieNo) : Bool := !d.dieOk n && !d.rst.outDies.contains n

/-- The target of a request of one scope is in the device (R105, R106). -/
def Dev.resetTargetOk (d : Dev) (scope t : Nat) : Bool :=
  match scope with
  | 2 => match resetDie t with
    | some n => !d.dieAbsent n
    | none => false
  | 3 => decide (8 ≤ t) && decide (t < 1520) && !d.dieAbsent (islandDie t)
  | 4 => tackleExists t && !(tackleDie t != 25 && d.dieAbsent (tackleDie t))
  | _ => false

/-- Reject a request (R106) (DEDUCED, log 62). -/
def Dev.resetReject (d : Dev) (st : Status) : Dev := (d.raise F.MST_RST_STAT_REJECTED).setF F.MST_RST_STAT_REASON [] st.code

/-- Accept a request. -/
def Dev.resetAccept (d : Dev) (scope t : Nat) : Dev :=
  { (d.raise F.MST_RST_STAT_BUSY).setF F.MST_RST_STAT_LAST_TARGET [] t with rst := { d.rst with req := some ⟨scope, t, d.clk.now⟩ } }

/-- An accepted die reset of die `n` (DEDUCED, log 62). -/
def Dev.dieReset (d : Dev) (n : DieNo) : Dev :=
  let was := d
  let d := d.dieStops n false
  -- a base die's stack enters self-refresh before the reset (R105, R360)
  let d := if 17 ≤ n then d.raise F.BSE_STK_STAT_IN_SR [n - 17] else d
  let d := { d with rst := { d.rst with dies := nset d.rst.dies [n] d.clk.now } }
  let d := d.settleEpochs was (dieTackles n ++ spanGroups)
  if 1 ≤ n ∧ n ≤ 4 then d.sprayTo else d

/-- An accepted tackle reset; with `flush` its queued commands complete with UNIT_RESET. It clears HALTED (R369) (DEDUCED, log
63). -/
def Dev.tackleReset (d : Dev) (t : Nat) (flush : Bool) : Dev :=
  let was := d
  let d := { d with rst := { d.rst with tackles := nset d.rst.tackles [t] d.clk.now } }
  let d := d.stopTackle t
  ((if flush then d.flushQueues t else d).unhalt t).settleEpochs was [t]

/-- An accepted request of scope DEVICE. Where only a RESET_N pulse restarts the device (R96, R97) everything is in reset already:
the request is recorded, and BUSY reads 1 until that pulse. -/
def Dev.deviceRequest (d : Dev) (fz : Fuses) (t : Nat) : Dev :=
  match d.clk.phase with
  | .off => d
  | .refAbsent | .tripped => ((d.raise F.MST_RST_CAUSE_SOFTWARE).addWrap F.MST_RST_CAUSE_COUNT [] 1).resetAccept 1 t
  | _ => (d.deviceReset fz F.MST_RST_CAUSE_SOFTWARE).resetAccept 1 t

/-- A write of MST_RST_REQ by an issuer with the right: RST_REQ_DEVICE, _DIE, _ISLAND or _TACKLE by its SCOPE. -/
def Dev.resetWrite (d : Dev) (fz : Fuses) (v : Nat) : Dev :=
  let scope := bits v 0 3
  let t := bits v 16 16
  if bits v 8 8 ≠ 0xA5 then d
  else if scope = 1 then d.deviceRequest fz t
  else if d.flag F.MST_RST_STAT_BUSY then d.resetReject .noSlot
  else if !d.resetTargetOk scope t then d.resetReject .reservedOp
  else
    let d := d.resetAccept scope t
    match scope with
    | 2 => d.dieReset (tackleDie t)
    | 3 =>
      if d.islandOut t then d
      else
        let x := (d.islandDown t).settleEpochs d (islandTackles t)
        { x with rst := { x.rst with islands := nset x.rst.islands [t] d.clk.now } }
    | _ => if d.unitOut t then d else d.tackleReset t (bit v 3)

/-- A returning die's units take their MASKED from their own record: a core, vector engine or capstan that failed stays out
until a device reset (R474), and UNIT 0x10 stays reserved once the spare serves an index (R27). -/
def Dev.unmaskDie (d : Dev) (n : DieNo) : Dev :=
  (dieTackles n).foldl (fun d t =>
    let i := t / 256 % 16
    let u := t % 256
    let failed :=
      if t / 4096 = 4 ∧ u < 0x40 then !d.bitF F.SAL_CORE_OK_CORES [i] u
      else if t / 4096 = 4 ∧ u < 0x48 then !d.bitF F.SAL_VEC_OK_ENG [i] (u - 0x40)
      else if t / 4096 = 5 ∧ u < 0x10 then !d.bitF F.BSE_VEC_OK_ENG [i] u
      else if t / 4096 = 2 ∧ u < 0x10 then d.flag F.YRD_CPS_MAP_FAILED [i, u]
      else if t / 4096 = 2 ∧ u = 0x10 then !d.flag F.CPS_STAT_SPARE [i, 16]
      else false
    if failed then d else d.setMasked t false) d

/-- Die `n` leaves its reset: a die that was out of service is in service again (DEDUCED, log 62). -/
def Dev.dieRelease (d : Dev) (n : DieNo) : Dev :=
  let was := d.units
  let d0 := d
  let out := d.rst.outDies.contains n
  let d := { d with rst := { d.rst with dies := ndel d.rst.dies [n], outDies := d.rst.outDies.filter (· ≠ n) } }
  let d :=
    if out then
      let d := match dieClass n with
        | (2, y) => d.setBitF F.MST_UNITS_YARD_OK [] y
        | (3, p) => d.setBitF F.MST_UNITS_PORT_OK [] p
        | (4, s) =>
          let d := ((d.setBitF F.MST_UNITS_SAIL_OK [] s).setF F.PWR_SAIL_STAT_LEVEL [s] 0).setF F.PWR_SAIL_STAT_RATIO [s] 12
          { (d.clear F.PWR_SAIL_STAT_CHANGING [s]).setF F.PWR_SAIL_CTRL_RATIO [s] 12 with pwr := { d.pwr with ratio := ndel d.pwr.ratio [s] } }
        | (_, k) => d.setBitF F.MST_UNITS_BASE_OK [] k
      (d.unitsWere was).unmaskDie n
    else d
  let d := d.releaseDie n
  let d := match dieClass n with
    | (2, _) => d.sprayTo
    | (5, k) =>
      -- and leaves it after the reset
      let d := d.stackWake k
      { d with bank := { d.bank with tested := if d.bank.tested.contains k then d.bank.tested else d.bank.tested ++ [k] } }
    | _ => d
  (d.settleEpochs d0 (dieTackles n ++ spanGroups)).tdc .partReset (dieUnit n)

/-- PARTIAL_RESET_RELEASE: the request in progress releases on a frame start; a die after 20 µs on a HOIST_SYNC mark. A request
inside a unit that is out of service waits for it. -/
def Dev.partialRelease (d : Dev) : Dev :=
  match d.rst.req with
  | some q =>
    let done := fun (d : Dev) => { d.clear F.MST_RST_STAT_BUSY with rst := { d.rst with req := none } }
    if d.clk.phase ≠ .running then d
    else if q.scope = 2 then
      let n := tackleDie q.target
      if q.since + us 20 ≤ d.clk.now ∧ d.clk.frame % 256 = 0 ∧ d.locked n ∧ !d.headless then done (d.dieRelease n) else d
    else if q.scope = 3 then
      if d.islandOut q.target then d
      else
        let was := d
        let d := { d with rst := { d.rst with islands := ndel d.rst.islands [q.target] } }
        let d := (if d.islandInService q.target then d.startIsland q.target else d).settleEpochs was (islandTackles q.target)
        let d := match dieClass (islandDie q.target) with
          | (3, p) => d.laneAssign p
          | _ => d
        done (d.tdc .partReset (dieUnit (islandDie q.target)))
    else if q.scope = 4 then
      if d.unitOut q.target then d
      else
        let was := d
        let d := ({ d with rst := { d.rst with tackles := ndel d.rst.tackles [q.target] } } : Dev).settleEpochs was [q.target]
        done (d.tdc .partReset (dieUnit (faceDie q.target)))
    else d
  | none => d

/-! ## Host ports (R102, R109, R133) -/

/-- Slots of an armed ring that no taken doorbell covers read opcode 0xFF. -/
def Dev.voidSlots (d : Dev) (i : List Nat) (size : Nat) : Dev :=
  let c := d.getF F.HST_CR_COUNT_CONSUMED i
  let p := d.getF F.HST_CR_COUNT_PRODUCED i
  let free := (List.range size).filter (fun k => decide ((p + 2 ^ 32 - c) % 2 ^ 32 ≤ (k + size - c % size) % size))
  { d with host := { d.host with slots := free.foldl (fun m k => nset m (i ++ [k]) (0xFF :: ((nget emptySlot m (i ++ [k])).drop 1))) d.host.slots } }

/-- What a reset does to the accesses and rings of one function (R109, R133): accesses that had not completed are discarded. -/
def Dev.functionReset (d : Dev) (x f : Nat) : Dev :=
  let d := (List.range 32).foldl (fun d r =>
    match nget? d.host.binds [x, f, r] with
    | some b => d.voidSlots [x, f, r] b.size
    | none => d) d
  let d := (List.range 16).foldl (fun d q =>
    if d.getF F.HST_RR_STAT_STATE [x, f, q] = 1 then (d.setF F.HST_RR_STAT_STATE [x, f, q] 2).ringEmptied [x, f, q] else d) d
  { d with
    clk := { d.clk with held := d.clk.held.filter (fun h => !(h.via == .mmio && isFn x f h.iss)) }
    host := { d.host with
    posted := (d.host.posted.map (fun p => if ix p.1 0 = x then (p.1, p.2.filter (fun a => !Posted.isFn x f a)) else p)).filter (fun p => !p.2.isEmpty)
    d3 := ndel d.host.d3 [x, f]
    msix := d.host.msix.filter (fun m => !(ix m.1 0 == x && ix m.1 1 == f))
    msixPend := d.host.msixPend.filter (fun m => !(ix m.1 0 == x && ix m.1 1 == f)) } }

/-- Host port `x`'s island is reset: accesses that had not completed are discarded, an indirect access is aborted (R122), its page
takes its reset values. -/
def Dev.portPageReset (d : Dev) (x : Nat) (link : Bool) : Dev :=
  let d := d.indAbort x
  let h := d.getF F.HST_PORT_STAT_HELM [x]
  let l := (d.getF F.HST_PORT_STAT_LINK_UP [x], d.getF F.HST_PORT_STAT_RATE [x], d.getF F.HST_PORT_STAT_WIDTH [x], d.getF F.HST_PORT_STAT_FLIT [x])
  let d := { d with host := { d.host with posted := ndel d.host.posted [x], ind := ndel d.host.ind [x] }
                    clk := { d.clk with heldAper := d.clk.heldAper.filter (fun h => h.x != x) } }
  let d := (d.resetRegs (fun k => regIsland k.reg k.idx == 1 + x)).setF F.HST_PORT_STAT_HELM [x] h
  if link then
    (((d.setF F.HST_PORT_STAT_LINK_UP [x] l.1).setF F.HST_PORT_STAT_RATE [x] l.2.1).setF F.HST_PORT_STAT_WIDTH [x] l.2.2.1).setF
      F.HST_PORT_STAT_FLIT [x] l.2.2.2
  else d

/-- HOST_PORT_RESET of port `x`: 0 PERST_x_N, 1 hot reset, 2 link down, 3 a function-level reset of function `f` (DEDUCED, log
62). -/
def Dev.hostPortReset (d : Dev) (x kind f : Nat) : Dev :=
  if kind = 3 ∧ f ≠ 0 then if d.islandOn (1 + x) then d.functionReset x f else d
  else
    let d := if kind = 0 then { d with host := { d.host with perst := nput false d.host.perst [x] false } } else d
    if d.islandOn (1 + x) then
      let d := ((List.range 17).foldl (fun d f => d.functionReset x f) d).portPageReset x (kind == 3)
      if kind = 3 then d
      else
        let d := (d.clrBitF F.MST_READY_HOST [] x).holdIsland (1 + x)
        { d with host := { d.host with upSince := ndel d.host.upSince [x] } }
    else d

/-- HOST_PORT_RESET_RELEASE: PERST_x_N rises, or the reset of the link ends; the island runs once Hoist has released islands. -/
def Dev.hostPortRelease (d : Dev) (x : Nat) : Dev :=
  if d.clk.phase = .off then d
  else
    let d := { d with host := { d.host with perst := nput false d.host.perst [x] true } }
    match d.clk.phase with
    | .released | .running =>
      if d.headless ∨ d.islandOn (1 + x) then d
      else { d.startIsland (1 + x) with host := { d.host with upSince := nset d.host.upSince [x] d.clk.now } }
    | _ => d

/-- PCIE_LINK_UP with the link's rate code, width, flit mode, and what host software has set in the functions' configuration space:
the VFs enabled and the functions in D3hot, the others being in D0 (R115) (PRESUMED, log 9). -/
def Dev.pcieLinkUp (d : Dev) (x rate width : Nat) (flit : Bool) (vfs : Nat) (d3hot : List Nat) : Dev :=
  if d.islandOn (1 + x) then
    let d := (d.raise F.HST_PORT_STAT_LINK_UP [x]).setF F.HST_PORT_STAT_RATE [x] rate
    let d := ((d.setF F.HST_PORT_STAT_WIDTH [x] width).setF F.HST_PORT_STAT_FLIT [x] (b2n flit)).setF F.HST_PORT_STAT_NUM_VF [x] vfs
    { d with host := { d.host with d3 := (List.range 17).foldl (fun m f => nput false m [x, f] (d3hot.contains f)) d.host.d3 } }
  else d

/-! ## Readiness (R102, R103) -/

/-- FUNCTION_READY: 0–24 a die, 25–28 a host port, 29–36 a stack. -/
def Dev.functionReady (d : Dev) (f : Nat) : Dev :=
  if !(d.clk.phase = .released ∨ d.clk.phase = .running) then
    if f = 0 ∧ d.clk.phase = .pllFailed ∧ d.boot.image.isSome then (d.toReady 0 true).ledLoad else d
  else if f = 0 then
    if d.boot.image.isSome ∧ !d.headless ∧ !d.dieReady 0 then (d.toReady 0 true).ledLoad else d
  else if f < 25 then
    if d.dieOk f ∧ (nget? d.rst.dies [f]).isNone ∧ d.islandOn (faultIsland f) then d.toReady f true else d
  else if f < 29 then
    if d.islandOn (1 + (f - 25)) then d.setBitF F.MST_READY_HOST [] (f - 25) else d
  else
    let k := f - 29
    if d.dieOk (17 + k) ∧ (nget? d.rst.dies [17 + k]).isNone ∧ d.bank.tested.contains k then
      (d.setBitF F.MST_READY_STACK_STACK [] k).raise F.BSE_STK_STAT_READY [k]
    else d

/-! ## Stacks and banks -/

/-- STACK_TRAIN_TEST after a device reset (R350): the test leaves the contents undefined; a failure takes the stack out. -/
def Dev.stackTest (d : Dev) (k : Nat) (pass : Bool) : Dev :=
  if (d.clk.phase = .released ∨ d.clk.phase = .running) ∧ d.dieOk (17 + k) ∧ (nget? d.rst.dies [17 + k]).isNone ∧ !d.bank.tested.contains k then
    let d := d.loseMem (stackBase k) (stackBase (k + 1))
    if pass then { d with bank := { d.bank with tested := d.bank.tested ++ [k] } }
    else ((d.raise F.BSE_STK_STAT_TEST_FAIL [k]).fault (17 + k) .stkTestFail).unitLeaves (0x50FF + 256 * k)
  else d

/-- BANK_RETENTION_ENTRY (R359): sails' banks 0–79 and base dies' 0–15. -/
def Dev.bankRetention (d : Dev) (sail : Bool) (die b : Nat) : Dev :=
  if sail then
    if d.flag F.SAL_BANK_PWR_RET [die, b] && d.islandOn (regIsland .SAL_BANK_PWR [die, b]) then d.raise F.SAL_BANK_PWR_IN_RET [die, b] else d
  else
    if d.flag F.BSE_BANK_PWR_RET [die, b] && d.islandOn (regIsland .BSE_BANK_PWR [die, b]) then d.raise F.BSE_BANK_PWR_IN_RET [die, b] else d

/-- BANK_WAKE by an access. -/
def Dev.bankWake (d : Dev) (sail : Bool) (die b : Nat) : Dev := d.wakeBank sail die b

/-- STACK_SELF_REFRESH_ENTRY (R360). -/
def Dev.stackSleep (d : Dev) (n : Nat) : Dev :=
  let idle := max 1 (d.getF F.BSE_STK_CTRL_IDLE_US [n])
  let quiet := decide (nget 0 d.bank.stackLast [n] + us idle ≤ d.clk.now)
  if d.stackReady n && (d.flag F.BSE_STK_CTRL_SR_REQ [n] || d.flag F.BSE_STK_CTRL_AUTO_SR [n] && quiet) then d.raise F.BSE_STK_STAT_IN_SR [n] else d

/-- STACK_CA_RETRY: a command to stack `n` failed its parity; `ok`: its retry succeeds. The third failure in a row is fatal (R349). -/
def Dev.stackRetry (d : Dev) (n : Nat) (ok : Bool) : Dev :=
  if d.stackReady n then
    let k := nget 0 d.bank.caFails [n] + 1
    if 3 ≤ k then
      let d := { d with bank := { d.bank with caFails := nput 0 d.bank.caFails [n] 0 } }
      ((d.raise F.BSE_STK_STAT_CA_FATAL [n]).fault (17 + n) .stkCaFatal).unitLeaves (0x50FF + 256 * n)
    else
      let d := { d with bank := { d.bank with caFails := nput 0 d.bank.caFails [n] (if ok then 0 else k) } }
      ((d.incSat F.BSE_STK_CA_RETRY_COUNT [n]).raise F.BSE_STK_STAT_CA_RETRY [n]).fault (17 + n) .stkCaRetry
  else d

end Sys2Proof.Machine
end

