-- ==== Sys2Proof/Machine/Boot.lean ====
section
/-!
DEFINITION. Secure boot (R98–R101) and the fuses (R112, R113).
-/
namespace Sys2Proof.Machine

/-! ## Checks of an image slot (R98, R99) -/

/-- The first check of R99 that a slot fails, as its cause code; 0 where it passes every check. `rd o n` reads `n` bytes at slot
offset `o`. A KEY_SLOT above 3 has no intact revoke fuse (DEDUCED, log 47). -/
def slotCheck (rd : Nat → Nat → List Byte) (fz : Fuses) (secMin : Nat) : Nat :=
  let h := rd 0 512
  let len := leAt h 8 4
  let slot := leAt h 6 1
  let key := takeAt h 112 97
  if leAt h 0 4 ≠ 0x464D564B ∨ leAt h 4 2 ≠ 1 then 1
  else if len = 0 ∨ 2097152 < len ∨ 2097152 < leAt h 12 4 + len then 2
  else if 3 < slot ∨ bit fz.keyRevoked slot then 3
  else if sha384 key ≠ fz.keyHash.getD slot [] then 4
  else if leAt h 7 1 < secMin then 5
  else if sha384 (rd 512 len) ≠ takeAt h 64 48 then 6
  else if leAt key 0 1 ≠ 4 ∨
      !ecdsaVerify (ofBE (takeAt key 1 48)) (ofBE (takeAt key 49 48)) (ofBE (takeAt h 224 48)) (ofBE (takeAt h 272 48))
        (ofBE (sha384 (takeAt h 0 224))) then 7
  else 0

/-- Start the image that a slot holds (R100). -/
def Dev.startImage (d : Dev) (rd : Nat → Nat → List Byte) (result : Nat) : Dev :=
  let h := rd 0 24
  let d := ((d.setF F.MST_BOOT_STAT_RESULT [] result).setF F.MST_BOOT_STAT_SEC_VER [] (leAt h 7 1)).setF F.MST_BOOT_STAT_KEY_SLOT [] (leAt h 6 1)
  { d with boot := { d.boot with image := some (leAt h 12 4, leAt h 16 4, leAt h 8 4) } }

/-- SECURE_BOOT: slot A, then slot B; `errA`, `errB`: reading the slot meets a flash error. -/
def Dev.secureBoot (d : Dev) (fz : Fuses) (errA errB : Bool) : Dev :=
  if d.boot.started ∨ !d.islandOn 7 then d
  else
    let d := { d with boot := { d.boot with started := true } }
    let m := d.getF F.MST_SEC_FUSE_SEC_VER_MIN
    let a := if errA then 8 else slotCheck (fun o n => d.flashRead o n) fz m
    if a = 0 then d.startImage (fun o n => d.flashRead o n) 1
    else
      let d := d.setF F.MST_BOOT_STAT_FAIL_A [] a
      let b := if errB then 8 else slotCheck (fun o n => d.flashRead (0x800000 + o) n) fz m
      if b = 0 then d.startImage (fun o n => d.flashRead (0x800000 + o) n) 2
      else (d.setF F.MST_BOOT_STAT_FAIL_B [] b).setF F.MST_BOOT_STAT_RESULT [] 4

/-- Bytes of the recovery window (R101). -/
def Dev.windowRead (d : Dev) (o n : Nat) : List Byte :=
  (List.range n).map (fun i => BitVec.ofNat 8 (d.getF F.MST_RECOVERY_WORD [(o + i) / 4] / 256 ^ ((o + i) % 4)))

/-- RECOVERY_GO: the checks of R99 on the window. -/
def Dev.recoveryGo (d : Dev) (fz : Fuses) : Dev :=
  if d.getF F.MST_BOOT_STAT_RESULT = 4 then
    let c := slotCheck d.windowRead fz (d.getF F.MST_SEC_FUSE_SEC_VER_MIN)
    let d := d.setF F.MST_BOOT_STAT_FAIL_REC [] c
    if c = 0 then d.startImage d.windowRead 3 else d
  else d

/-- RECOVERY_WINDOW_WRITE of word `w`. R101 gives no size of the writes that the window takes; the model holds it as 32-bit words
and takes one aligned 32-bit word a write (DESIGN CHOICE, log 70). -/
def Dev.windowWrite (d : Dev) (w v : Nat) : Dev := d.setF F.MST_RECOVERY_WORD [w] v

/-! ## Fuses (R112, R113) -/

/-- A fuse operation may start (R113): the confirm code, the operation and its argument's range (DEDUCED, log 47). -/
def Dev.fuseOk (d : Dev) (op arg confirm : Nat) : Bool :=
  !d.flag F.MST_SEC_FUSE_PROG_BUSY && confirm == 0xF05E &&
    (match op with
     | 1 => decide (d.getF F.MST_SEC_FUSE_SEC_VER_MIN ≤ arg) && decide (arg ≤ d.getF F.MST_BOOT_STAT_SEC_VER) && decide (arg ≤ 64)
     | 2 => decide (arg ≤ 3)
     | 3 => true
     | _ => false)

/-- A write of MST_FUSE_PROG: RAISE_SEC_VER, REVOKE_KEY or DEBUG_CLOSE starts, or PROG_FAIL is set (DEDUCED, log 47). -/
def Dev.fuseWrite (d : Dev) (v : Nat) : Dev :=
  let op := bits v 0 4
  let arg := bits v 4 8
  if d.fuseOk op arg (bits v 16 16) then
    { d.raise F.MST_SEC_FUSE_PROG_BUSY with boot := { d.boot with prog := some (op, arg) } }
  else d.raise F.MST_SEC_FUSE_PROG_FAIL

/-- What a completed operation blows. Fuses are only ever blown. -/
def Fuses.blow (f : Fuses) (op arg : Nat) : Fuses :=
  match op with
  | 1 => { f with secVerMin := max f.secVerMin arg }
  | 2 => { f with keyRevoked := setBit f.keyRevoked arg }
  | 3 => { f with debugClosed := true }
  | _ => f

/-- From the cycle on which the debug-close fuse is programmed no JTAG access goes on: one that waits at a stopped island ends
with ABORTED and has no effect (R112; the status is DEDUCED, log 26). -/
def Dev.jtagClosed (d : Dev) : Dev :=
  { d with
    clk := { d.clk with held := d.clk.held.filter (fun h => h.iss != .jtag) }
    jtag := if d.jtag.busy then { d.jtag with busy := false, access := none, status := Status.aborted.code } else d.jtag }

/-- FUSE_PROG_DONE: the fuses are blown and MST_SEC_FUSE shows them. After closure a JTAG instruction that it disables selects
BYPASS, and an access in progress ends (R112) (DEDUCED, log 47). -/
def State.fuseDone (s : State) : State :=
  match s.dev.boot.prog with
  | none => s
  | some (op, arg) =>
    let f := s.fuses.blow op arg
    let d := { s.dev with boot := { s.dev.boot with prog := none } }.clear F.MST_SEC_FUSE_PROG_BUSY
    let d := ((d.setF F.MST_SEC_FUSE_KEY_REVOKED [] f.keyRevoked).setF F.MST_SEC_FUSE_SEC_VER_MIN [] f.secVerMin).setF F.MST_SEC_FUSE_DEBUG_CLOSED []
      (b2n f.debugClosed)
    { s with fuses := f, dev := if f.debugClosed then d.jtagClosed else d }

end Sys2Proof.Machine
end

