-- ==== Sys2Proof/Machine/Host.lean ====
section
/-!
DEFINITION. Host ports (05): command rings, push windows and doorbells (R124–R128), record rings (R129–R131), apertures
(R121) and the indirect window's control (R122). What a port posts behind a held push waits with it.
-/
namespace Sys2Proof.Machine

/-- Host port `x` can carry an access. -/
def Dev.portRuns (d : Dev) (x : Nat) : Bool := d.islandOn (1 + x) && !d.headless

/-! ## Command rings (R124, R128) -/

/-- MSI-X vectors of a function (R115). -/
def vectorsOf (f : Nat) : Nat := if f = 0 then 64 else 8

/-- Class code of every function: processing accelerator (R115). -/
def classCode : Nat := 0x120000

/-- Device ID of function `f` (R115). -/
def deviceId (f : Nat) : Nat := if f = 0 then 0x2500 else 0x2501

/-- Ring slots of port `x` in use (DEDUCED, log 60). -/
def Dev.slotsUsed (d : Dev) (x : Nat) : Nat := ((d.host.binds.filter (fun b => ix b.1 0 == x)).map (fun b => b.2.size)).sum

/-- The lowest queue of tackle `t` mapped to partition `x` that no armed ring feeds. -/
def Dev.freeQueue (d : Dev) (t x : Nat) : Option Nat :=
  (List.range 4).find? (fun q => d.partOf t q == x
    && !d.host.binds.any (fun b => b.2.tackle == t && b.2.queue == q && d.getF F.HST_CR_STAT_STATE b.1 == 1))

/-- What ARM of a DISARMED ring answers: a failure's status, or the queue. -/
def Dev.armCheck (d : Dev) (i : List Nat) : Except Status Nat :=
  let n := d.getF F.HST_CR_CFG_SIZE_LOG2 i
  let t := d.getF F.HST_CR_CFG_TACKLE i
  if n < 6 ∨ 12 < n ∨ vectorsOf (ix i 1) ≤ d.getF F.HST_CR_CFG_VECTOR i ∨ !d.tackleOk t then .error .reservedOp
  else match d.freeQueue t (ix i 0) with
    | none => .error .owner
    | some q => if 65536 < d.slotsUsed (ix i 0) + 2 ^ n then .error .noSlot else .ok q

/-- ARM of command ring `i` = port, function, ring. -/
def Dev.cmdArm (d : Dev) (iss : Issuer) (i : List Nat) : Dev :=
  if d.getF F.HST_CR_STAT_STATE i ≠ 0 then d.rejectWr iss
  else match d.armCheck i with
    | .error st => d.setF F.HST_CR_STAT_STATUS i st.code
    | .ok q =>
      let d := ((d.setF F.HST_CR_STAT_STATE i 1).setF F.HST_CR_STAT_QUEUE i q).setF F.HST_CR_STAT_STATUS i Status.ok.code
      let d := d.setPtrs 0 i 0 0
      { d with host := { d.host with
        binds := nset d.host.binds i ⟨d.getF F.HST_CR_CFG_TACKLE i, q, 2 ^ d.getF F.HST_CR_CFG_SIZE_LOG2 i, d.host.armCount⟩
        armCount := d.host.armCount + 1 } }

/-- DISARM: an ARMED ring drains, a ring in RESET is DISARMED (R128, R132). -/
def Dev.cmdDisarm (d : Dev) (i : List Nat) : Dev :=
  match d.getF F.HST_CR_STAT_STATE i with
  | 1 => (d.setF F.HST_CR_STAT_STATE i 2).drainDone i
  | 3 => d.setF F.HST_CR_STAT_STATE i 0
  | _ => d

/-- A write of HST_CR_CTRL: ARM (CMD_RING_ARM), DISARM (CMD_RING_DISARM). A write with ARM to a ring that is not DISARMED is discarded,
its DISARM too (R124). With both bits on a DISARMED ring ARM comes before DISARM (DESIGN CHOICE, log 71). -/
def Dev.cmdCtrl (d : Dev) (iss : Issuer) (i : List Nat) (v : Nat) : Dev :=
  if bit v 0 && d.getF F.HST_CR_STAT_STATE i != 0 then d.rejectWr iss
  else
    let d := if bit v 0 then d.cmdArm iss i else d
    if bit v 1 then d.cmdDisarm i else d

/-- CMD_RING_CFG_WRITE: while the ring is bound, SIZE_LOG2 and TACKLE stay, and a VECTOR beyond the table discards the write. -/
def Dev.cmdCfg (d : Dev) (iss : Issuer) (i : List Nat) (v : Nat) : Dev :=
  let go := fun (d : Dev) => (d.setF F.HST_CR_CFG_IRQ_EN i (bits v 4 1)).setF F.HST_CR_CFG_VECTOR i (bits v 8 6)
  if d.getF F.HST_CR_STAT_STATE i = 0 then
    ((go d).setF F.HST_CR_CFG_SIZE_LOG2 i (bits v 0 4)).setF F.HST_CR_CFG_TACKLE i (bits v 16 16)
  else if vectorsOf (ix i 1) ≤ bits v 8 6 then d.rejectWr iss
  else go d

/-- R138: after a queue-map write of die `n`, ARMED rings bound to queues that are no longer their partition's drain (DEDUCED,
log 60). -/
def Dev.qmapDrain (d : Dev) (n : DieNo) : Dev :=
  d.host.binds.foldl (fun d b =>
    if tackleDie b.2.tackle = n ∧ d.getF F.HST_CR_STAT_STATE b.1 = 1 ∧ d.partOf b.2.tackle b.2.queue ≠ ix b.1 0 then
      ((d.setF F.HST_CR_STAT_STATE b.1 2).setF F.HST_CR_STAT_STATUS b.1 Status.owner.code).drainDone b.1
    else d) d

/-! ## Doorbells and push windows (R125, R126) -/

/-- DOORBELL: a 64-bit write of HST_CR_DB (DEDUCED, log 60). -/
def Dev.doorbell (d : Dev) (i : List Nat) (v : Nat) : Dev :=
  let c := d.getF F.HST_CR_COUNT_CONSUMED i
  let p := d.getF F.HST_CR_COUNT_PRODUCED i
  let n := v % 2 ^ 32
  match nget? d.host.binds i with
  | some b =>
    if v / 2 ^ 32 = 0 ∧ d.getF F.HST_CR_STAT_STATE i = 1 ∧ (n + 2 ^ 32 - c) % 2 ^ 32 ≤ b.size ∧ (n + 2 ^ 32 - p) % 2 ^ 32 ≤ b.size then
      if !d.ptrsOk 0 i then d.ringCheck 0 i
      else
        let d := d.setPtrs 0 i c n
        if d.flag F.MST_DET_CTRL_ANCHOR_EN && d.eng.anchorFrom.isNone then d.tdc .hostLate b.tackle else d
    else d.raise F.HST_CR_STAT_DB_RANGE i
  | none => d.raise F.HST_CR_STAT_DB_RANGE i

/-- Slot `k` of a bound ring is covered by a taken doorbell and not yet dequeued. -/
def Dev.slotBusy (d : Dev) (i : List Nat) (size k : Nat) : Bool :=
  let c := d.getF F.HST_CR_COUNT_CONSUMED i
  (k + size - c % size) % size < (d.getF F.HST_CR_COUNT_PRODUCED i + 2 ^ 32 - c) % 2 ^ 32

/-- Bytes `l` written over `s` from offset `o`. -/
def overlay (s : List Byte) (o : Nat) (l : List Byte) : List Byte := s.take o ++ l ++ s.drop (o + l.length)

/-- The ring slots that a push write of `n` bytes at window offset `o` touches. -/
def pushSlots (o n : Nat) : List Nat := (List.range ((o % 32 + n + 31) / 32)).map (· + o / 32)

/-- A push write at offset `o` of ring `i`'s window is well formed and inside the ring (DEDUCED, log 59). -/
def Dev.pushOk (d : Dev) (i : List Nat) (o : Nat) (l : List Byte) : Bool :=
  match nget? d.host.binds i with
  | some b => [4, 8, 16, 32, 64].contains l.length && o % l.length == 0 && decide (o + l.length ≤ 32 * b.size)
  | none => false

/-- The push write must wait for a busy slot. -/
def Dev.pushHeld (d : Dev) (i : List Nat) (o : Nat) (l : List Byte) : Bool :=
  d.pushOk i o l &&
    (match nget? d.host.binds i with
     | some b => (pushSlots o l.length).any (d.slotBusy i b.size)
     | none => false)

/-- Put the bytes of a push write into their slots. -/
def Dev.pushStore (d : Dev) (i : List Nat) (o : Nat) (l : List Byte) : Dev :=
  if d.pushOk i o l then
    (pushSlots o l.length).foldl (fun d k =>
      let lo := max o (32 * k)
      let hi := min (o + l.length) (32 * (k + 1))
      let s := overlay (nget emptySlot d.host.slots (i ++ [k])) (lo - 32 * k) (takeAt l (lo - o) (hi - lo))
      ({ d with host := { d.host with slots := nset d.host.slots (i ++ [k]) s } } : Dev).mended (5 :: i ++ [k])) d
  else d.raise F.HST_PORT_ERR_ACCESS_ERR [ix i 0]

/-! ## Record rings (R129, R130) -/

/-- ARM of record ring `i` = port, function, ring. What HST_RR_BASE and HST_RR_CFG hold is used as it stands: a write of either while
the ring is ARMED takes effect at once, since only of command rings the spec says that values are taken at ARM (DESIGN CHOICE, log
71). -/
def Dev.recArm (d : Dev) (iss : Issuer) (i : List Nat) : Dev :=
  let st := d.getF F.HST_RR_STAT_STATE i
  let n := d.getF F.HST_RR_CFG_SIZE_LOG2 i
  if st = 1 ∨ st = 3 then d.rejectWr iss
  else if n < 12 ∨ 26 < n ∨ d.getF F.HST_RR_BASE_BASE i % 2 ^ n ≠ 0 then d.setF F.HST_RR_STAT_STATUS i Status.reservedOp.code
  else
    let d := (d.setPtrs 1 i 0 0).setF F.HST_RR_DISCARD_COUNT i 0
    let d := { d with host := { d.host with relAt := nset d.host.relAt i d.fabTime } }
    (d.setF F.HST_RR_STAT_STATE i 1).setF F.HST_RR_STAT_STATUS i Status.ok.code

/-- DISARM at once. -/
def Dev.recDisarm (d : Dev) (i : List Nat) : Dev :=
  let d := if d.getF F.HST_RR_STAT_STATE i = 1 then d.ringEmptied i else d
  d.setF F.HST_RR_STAT_STATE i 0

/-- A write of HST_RR_CTRL. With both bits ARM comes before DISARM (DESIGN CHOICE, log 71). -/
def Dev.recCtrl (d : Dev) (iss : Issuer) (i : List Nat) (v : Nat) : Dev :=
  let d := if bit v 0 then d.recArm iss i else d
  if bit v 1 then d.recDisarm i else d

/-- RECORD_RELEASE: a write of HST_RR_COUNT sets RELEASED. -/
def Dev.recRelease (d : Dev) (i : List Nat) (v : Nat) : Dev :=
  let n := v / 2 ^ 32 % 2 ^ 32
  if n = d.getF F.HST_RR_COUNT_RELEASED i then d
  else
    let d := d.movePtrs 1 i (d.getF F.HST_RR_COUNT_PRODUCED i) n
    { d with host := { d.host with relAt := nset d.host.relAt i d.fabTime } }

/-- Words of the JTAG buffer (64 KiB). -/
def exportWords : Nat := 2048

/-- The 32-byte words of a record in the JTAG buffer: (FIRST, word). -/
def exportOf (l : List Byte) : List (List Byte) :=
  (List.range (ceilDiv l.length 32)).map (fun i => b8 (b2n (decide (i = 0))) :: takeAt (l ++ leBytes 32 0) (32 * i) 32)
where b8 (n : Nat) : Byte := BitVec.ofNat 8 n

/-- What becomes of a record at the head of its path. -/
inductive RecFate where
  | waits | discard | jtag
  /-- The pad before it fits, and is reserved and written; it waits itself. -/
  | pad (i : List Nat)
  | ring (i : List Nat)
  deriving DecidableEq, Repr

/-- The fate of a record now; `closed`: debug is closed, and nothing is exported (R112, R514). -/
def Dev.recFate (d : Dev) (closed : Bool) (r : Rec) : RecFate :=
  if exportRing r.ring then
    if closed then .discard
    else if exportWords < d.tel.exportBuf.length + ceilDiv r.bytes.length 32 then .waits else .jtag
  else match ringIdx r.ring with
    | none => .discard
    | some i =>
      if d.getF F.HST_RR_STAT_STATE i ≠ 1 ∨ d.rrBytes i < recSize r.bytes then .discard
      else if d.rrFits i (d.rrPad i (recSize r.bytes) + recSize r.bytes) then .ring i
      else if d.rrPad i (recSize r.bytes) ≠ 0 ∧ d.rrFits i (d.rrPad i (recSize r.bytes)) then .pad i else .waits

/-- Reserve and write `size` bytes of ring `i` at PRODUCED: LENGTH, the first word, after the other bytes (R129). -/
def Dev.recOne (d : Dev) (i : List Nat) (l : List Byte) (size : Nat) : Dev :=
  let p := d.getF F.HST_RR_COUNT_PRODUCED i
  let a := d.getF F.HST_RR_BASE_BASE i + p % d.rrBytes i
  ((d.emit (.hostWrite (ix i 0) (ix i 1) (a + 4) (l.drop 4))).emit (.hostWrite (ix i 0) (ix i 1) a (l.take 4))).setPtrs 1 i (p + size)
    (d.getF F.HST_RR_COUNT_RELEASED i)

/-- The pad record before a record that would cross the ring's end: TYPE 0x00, up to the end. -/
def Dev.recPad (d : Dev) (i : List Nat) (l : List Byte) : Dev :=
  let n := d.rrPad i (recSize l)
  if n = 0 then d else d.recOne i (leBytes 4 n ++ leBytes (n - 4) 0) n

/-- Write a record into ring `i`, after its pad where it needs one, with the base and the size that the registers hold now (DESIGN
CHOICE, log 71). -/
def Dev.recPut (d : Dev) (i : List Nat) (l : List Byte) : Dev := (d.recPad i l).recOne i l (recSize l)

/-- Carry out a record's fate: `trace` names the die whose trace buffer it came from. -/
def Dev.recLand (d : Dev) (trace : Option DieNo) (r : Rec) (f : RecFate) : Dev :=
  match f with
  | .waits => d
  | .discard =>
    (match trace with
     | some n => if d.ringArmed r.ring && !exportRing r.ring then d.rrDiscard r.ring else d.traceDrop n r.ring
     | none => if exportRing r.ring then d.incSat F.TRC_DISCARD_COUNT [0] else d.rrDiscard r.ring)
  | .jtag => { d with tel := { d.tel with exportBuf := d.tel.exportBuf ++ exportOf r.bytes } }
  | .pad i => if d.ptrsOk 1 i then d.recPad i r.bytes else d.ringCheck 1 i
  | .ring i => if d.ptrsOk 1 i then d.recPut i r.bytes else (d.rrDiscard r.ring).ringCheck 1 i

/-- The record stays where it is. -/
def RecFate.stays : RecFate → Bool
  | .waits => true
  | .pad _ => true
  | _ => false

/-- Take the first element that satisfies `p` out of a list. -/
def pull {α : Type} (p : α → Bool) : List α → Option (α × List α)
  | [] => none
  | x :: t => if p x then some (x, t) else (pull p t).map (fun r => (r.1, x :: r.2))

/-- RECORD_WRITE: the oldest record for ring `id` from source `src`: 0–24 the trace buffer of that die, 25 the Mast's list. -/
def Dev.recordWrite (d : Dev) (closed : Bool) (id src : Nat) : Dev :=
  if d.headless then d
  else if src = 25 then
    match pull (fun (r : Rec) => r.ring == id) d.host.recs with
    | some (r, rest) =>
      let f := d.recFate closed r
      if f.stays then d.recLand none r f else ({ d with host := { d.host with recs := rest } } : Dev).recLand none r f
    | none => d
  else
    match pull (fun (r : Nat × Rec) => r.1 == src && r.2.ring == id) d.tel.traceBuf with
    | some (r, rest) =>
      let f := d.recFate closed r.2
      if f.stays then d.recLand (some src) r.2 f
      else (({ d with tel := { d.tel with traceBuf := rest } } : Dev).subF F.TRC_STAT_LEVEL [src] 1).recLand (some src) r.2 f
    | none => d

/-! ## Apertures (R121) -/

/-- The kind of a target, so that an access across two kinds or two stacks shows. -/
def aperKind : Place → Nat
  | .stack n => n
  | .sail _ _ => 100
  | .base _ _ => 101
  | .capStage _ => 102
  | .promPool _ => 102
  | .regs => 103
  | .reserved => 103

/-- The answer of R121 to an access: none where it is allowed, some true for OWNER_ERR, some false for ACCESS_ERR. -/
def Dev.aperRefused (d : Dev) (x a n : Nat) (write : Bool) : Option Bool :=
  let ps := placesOf a n
  let k := (ps.head?.map aperKind).getD 103
  if ps.isEmpty ∨ !ps.all (fun p => aperKind p == k) ∨ 103 ≤ k then some false
  else if k < 8 then
    if x = d.clk.helm ∨ (d.flag F.MST_PROT_APER_EN [x] ∧ d.getF F.MST_PROT_APER_LO_GIB [x] * 2 ^ 30 ≤ a ∧
        a + n ≤ d.getF F.MST_PROT_APER_HI_GIB [x] * 2 ^ 30) then none else some false
  else if !write then none
  else if k = 102 then some false
  else if d.canWrite (.aperture x) a n then none else some true

/-- Carry out an allowed aperture access; one that reaches an island in reset reads zero and writes nothing (R553) (DEDUCED,
log 66). -/
def Dev.aperDo (d : Dev) (x a : Nat) (write : Bool) (l : List Byte) (n : Nat) : Dev :=
  if write then if d.memServed a n then (d.store (.aperture x) a l).1 else d
  else if d.memServed a n then
    let r := d.load a n
    r.2.emit (.mmio x (ofLE r.1))
  else d.emit (.mmio x 0)

/-- An aperture access at BAR4 offset `o`, below 64 GiB (R120). -/
def Dev.aperture (d : Dev) (x o : Nat) (write : Bool) (l : List Byte) (n : Nat) : Dev :=
  let a := d.getF F.HST_APER_BASE_BASE [x] * 2 ^ 36 + o
  match d.aperRefused x a n write with
  | some own =>
    let d := d.raise (if own then F.HST_PORT_ERR_OWNER_ERR else F.HST_PORT_ERR_ACCESS_ERR) [x]
    if write then d else d.emit (.mmio x 0)
  | none =>
    match d.memStopped a n with
    | some g => { d with clk := { d.clk with heldAper := d.clk.heldAper ++ [⟨g, x, d.getF F.MST_PROT_GEN_GEN [], a, write, l, n⟩] } }
    | none => d.aperDo x a write l n

/-- Aperture accesses that waited at island `g` go on: accepted under the range that stood then (R136), a bank write is granted now,
under the bank's cleat as it stands (R355) (DEDUCED, log 59). -/
def Dev.aperResume (d : Dev) (g : Nat) : Dev :=
  let go := d.clk.heldAper.filter (fun h => h.g == g)
  let d := { d with clk := { d.clk with heldAper := d.clk.heldAper.filter (fun h => h.g != g) } }
  go.foldl (fun d h =>
    if h.write && !d.canWrite (.aperture h.x) h.addr h.len then d.raise F.HST_PORT_ERR_OWNER_ERR [h.x]
    else d.aperDo h.x h.addr h.write h.bytes h.len) d

/-! ## The indirect window's control (R122) -/

/-- IND_ACCESS_GO: a write of HST_IND_CTRL with GO, by issuer `iss`, on port `x`'s window. -/
def Dev.indGo (d : Dev) (iss : Issuer) (x : Nat) (write size64 : Bool) : Dev :=
  if d.flag F.HST_IND_STAT_BUSY [x] then d.rejectWr iss
  else
    { d.raise F.HST_IND_STAT_BUSY [x] with
      host := { d.host with ind := nset d.host.ind [x] ⟨iss, d.getF F.HST_IND_ADDR_ADDR [x], d.getF F.HST_IND_DATA_DATA [x], write, size64⟩ } }

end Sys2Proof.Machine
end

