-- ==== Sys2Proof/Machine/Waits.lean ====
section
/-!
DEFINITION. What a queue head waits for (the REASON codes of R510), shown by TCK_STAT.WAITING, and the registers whose
reads are computed from the state they show (TCK_STAT, SEQ_STAT, PRT_FLOW_RATE).
-/
namespace Sys2Proof.Machine

/-- A reason: its code, ARG, VALUE and CUR. -/
structure Reason where
  code : Nat
  arg : Nat
  value : Nat
  cur : Nat
  deriving DecidableEq, Repr

/-- A reason that carries a code only. -/
def Reason.of (c : Nat) : Reason := ⟨c, 0, 0, 0⟩

/-- The queue of the holder of a scoreboard entry. -/
def Dev.claimQueue (d : Dev) (c : Claim) : Nat :=
  match (d.tck c.tackle).runs.find? (fun r => r.cmd.uid == c.uid) with
  | some r => r.queue
  | none => 0

/-- Conflicts of a command's claims with held entries, each with its holder. -/
def Dev.claimWaits (d : Dev) (l : List (List Nat × List Region)) : List Reason :=
  (l.flatMap (fun p => (d.held p.1).filter (fun c => p.2.any (fun r => c.conflicts r)))).map
    (fun c => ⟨3, c.tackle + 65536 * d.claimQueue c, 0, 0⟩)

/-- What a command that is decoded and claims regions waits for. -/
def Dev.engineWaits (d : Dev) (t q : Nat) (c : Cmd) : List Reason :=
  let o := opcode c.bytes
  let cl := d.claimsOf t c
  let leaf := !isGroup t
  d.claimWaits cl
    ++ (if cl.all (fun p => (d.held p.1).length + p.2.length ≤ 64) then [] else [Reason.of 4])
    ++ (if (leaf && streams o && !d.streamFree t c.bytes) || (leaf && o == 6 && (d.running t).any (fun s => s.slot == cbits c.bytes 4 0 3))
        then [Reason.of 5] else [])
    ++ (if d.stacksReady (cl.flatMap (·.2)) then [] else [Reason.of 6])
    ++ (if (d.partsOf t c).all (fun p => (d.queue p.1 q).length < 4) then [] else [Reason.of 10])

/-- Every reason of R510 that holds for the head of queue `q`. -/
def Dev.headReasons (d : Dev) (t q : Nat) : List Reason :=
  match d.queue t q with
  | [] => []
  | c :: _ =>
    let o := opcode c.bytes
    if c.waitAt.isSome then
      (if o = 2 then [⟨7, leAt c.bytes 4 2 + 65536 * cbits c.bytes 6 0 4, leAt c.bytes 8 4, d.ctr (leAt c.bytes 4 2) (cbits c.bytes 6 0 4)⟩]
       else [Reason.of 8])
    else
      (if d.tckReady t && (o != 5 || d.flag F.MST_READY_MAST) then [] else [Reason.of 1])
        ++ (if c.undecoded then [Reason.of 11] else [])
        ++ (if d.halted t q then [Reason.of 14] else [])
        ++ (if d.recWaits t then [Reason.of 9] else [])
        ++ (if d.traceStall t q (o == 4) then [Reason.of 13] else [])
        ++ (if o != 1 && o != 2 && (freeSlot (d.tck t).runs).isNone then [Reason.of 2] else [])
        ++ (if o = 3 ∧ (d.tck t).runs.any (fun r => r.queue == q) then [Reason.of 8] else [])
        ++ (if headOp o then [] else d.engineWaits t q c)
        ++ (if d.vecFree t o then [] else [Reason.of 12])

/-- The reason that is reported: where several hold, the spec does not say which, and a free number picks (DEDUCED, log 68). -/
def Dev.headReason (d : Dev) (t q : Nat) : Reason × Dev :=
  match d.headReasons t q with
  | [] => (Reason.of 0, d)
  | [r] => (r, d)
  | r :: l =>
    let n := d.freeNum
    ((r :: l).getD (n.1 % (l.length + 1)) r, n.2)

/-- The head of queue `q` waits (TCK_STAT.WAITING). -/
def Dev.headWaits (d : Dev) (t q : Nat) : Bool :=
  !(d.queue t q).isEmpty && (d.anchorHolds || !(d.headReasons t q).isEmpty)

/-- A word made of a register's stored fields and, for the fields that `f` gives, computed ones. -/
def Dev.wordWith (d : Dev) (r : RegName) (idx : List Nat) (f : Nat → Option Nat) : Nat :=
  ((fieldsOf r).filter (fun x => x.ty ≠ .wo)).foldl (fun n (x : Field) => n + (f x.lo).getD (d.getF x idx) % 2 ^ x.w * 2 ^ x.lo) 0

/-- TCK_STAT (R397). -/
def Dev.tckStat (d : Dev) (t : Nat) : Nat :=
  d.wordWith .TCK_STAT [t] (fun lo =>
    if lo = 0 then some (b2n (d.tckReady t))
    else if lo = 1 then some (b2n (!(d.tck t).runs.isEmpty))
    else if lo = 8 then some (ofOnes ((List.range 4).filter (d.headWaits t)))
    else if lo = 16 then some (d.tck t).runs.length
    else if lo = 24 then some (d.epochOf t)
    else none)

/-- SEQ_STAT (R398): the results of comparators that no running stream holds are left open (DEDUCED, log 68). -/
def Dev.seqStat (d : Dev) (s : Nat) : Nat × Dev :=
  let m := d.heldMasks s
  let n := d.freeNum
  let held := fun (k : Nat) => (d.running s).find? (fun x => match d.prog s x.slot with | some p => bit (cb p 2) k | none => false)
  let cmp := ofOnes ((List.range 8).filter (fun k =>
    match held k with
    | some x => (match d.prog s x.slot with | some p => d.cmp s p k | none => false)
    | none => bit n.1 k))
  (ofOnes ((List.range 8).filter (fun k => (d.prog s k).isSome)) + 2 ^ 8 * ofOnes ((List.range 8).filter (fun k => (d.running s).any (fun x => x.slot == k)))
    + 2 ^ 16 * m.1 + 2 ^ 24 * cmp, n.2)

/-- PRT_FLOW_RATE of a flow held on port die `p` (R250). -/
def Dev.flowRate (d : Dev) (p f : Nat) : Nat :=
  match d.flow (32768 * p + f) with
  | some x => x.rate % 65536 + 2 ^ 16 * (x.profile % 8) + 2 ^ 30 * b2n (decide (3 ≤ x.tc)) + 2 ^ 31
  | none => 0

/-- LNE_RXEQ: while a receiver runs and FREEZE = 0 it adapts without end, so CTLE and GAIN are its own, free numbers that stand when
FREEZE holds them (R158) (DEDUCED, log 15). -/
def Dev.rxeqWord (d : Dev) (i : List Nat) : Nat × Dev :=
  let s := d.getF F.LNE_STAT_STATE i
  if d.flag F.LNE_RXEQ_FREEZE i || s < 2 || 5 < s then (d.readWord .LNE_RXEQ i, d)
  else
    let x := d.freeNum
    let y := x.2.freeNum
    let d := (y.2.setF F.LNE_RXEQ_CTLE i x.1).setF F.LNE_RXEQ_GAIN i y.1
    (d.readWord .LNE_RXEQ i, d)

/-- What a read of a register returns (R7) (DESIGN CHOICE, log 14). -/
def Dev.regWord (d : Dev) (r : RegName) (idx : List Nat) : Nat × Dev :=
  match r with
  | .TCK_STAT => (d.tckStat (ix idx 0), d)
  | .SEQ_STAT => d.seqStat (ix idx 0)
  | .PRT_FLOW_RATE => (d.flowRate (ix idx 0) (ix idx 1), d)
  | .LNE_RXEQ => d.rxeqWord idx
  | .TCK_ARITH =>
    -- a group tackle reads as the OR of its leaves (R299)
    (if isGroup (ix idx 0) then (leavesOf (ix idx 0)).foldl (fun w l => w ||| d.readWord .TCK_ARITH [l]) 0 else d.readWord .TCK_ARITH idx, d)
  | _ => (d.readWord r idx, d)

end Sys2Proof.Machine
end

