-- ==== Sys2Proof/Machine/Power.lean ====
section
/-!
DEFINITION. Power and sensors (21): sail ratio changes (R519, R520), throttling (R521–R523), the conversion windows of diodes
and thermistors (R524–R527) and the thermal trip (R528).
-/
namespace Sys2Proof.Machine

/-! ## Sail ratio (R519, R520) -/

/-- Minimum VDD_SAIL of a ratio in mV. -/
def sailMin (r : Nat) : Nat := 560 + 30 * (r - 8)

/-- A write of PWR_SAIL_CTRL_s.RATIO: discarded with REJECTED, without effect when it names the ratio in force, or the start of
a change. -/
def Dev.ratioWrite (d : Dev) (s v : Nat) : Dev :=
  let cur := d.getF F.PWR_SAIL_STAT_RATIO [s]
  if v < 8 ∨ 12 < v ∨ d.flag F.PWR_SAIL_STAT_CHANGING [s] ∨ (cur < v ∧ d.getF F.PWR_VSAIL_MV < sailMin v) then
    d.raise F.PWR_SAIL_STAT_REJECTED [s]
  else if v = cur then d.setF F.PWR_SAIL_CTRL_RATIO [s] v
  else
    let d := (d.setF F.PWR_SAIL_CTRL_RATIO [s] v).raise F.PWR_SAIL_STAT_CHANGING [s]
    { d with pwr := { d.pwr with ratio := nset d.pwr.ratio [s] (v, false) } }

/-- Matrix-core and engine islands of sail `s`. -/
def sailIslands (s : Nat) : List Nat := (List.range 65).map (fun l => 1120 + 66 * s + l)

/-- SAIL_RATIO_RELOCK: at the first frame start after the sail PLL has locked, the stopped islands run again at the new ratio. -/
def Dev.ratioRelock (d : Dev) (s : Nat) : Dev :=
  match nget? d.pwr.ratio [s] with
  | some (r, true) =>
    if d.dieOk (13 + s) && (sailIslands s).all (fun g => !d.islandOn g) then
      let d := { d with pwr := { d.pwr with ratio := ndel d.pwr.ratio [s] } }.setLocked (13 + s) true
      let d := ((sailIslands s).filter d.islandStopped).foldl Dev.startIsland d
      let d := (d.setF F.PWR_SAIL_STAT_RATIO [s] r).clear F.PWR_SAIL_STAT_CHANGING [s]
      (d.incSat F.PWR_SAIL_RATIO_CNT_COUNT [s]).tdc .sailRatio (dieUnit (13 + s))
    else d
  | _ => d

/-! ## Throttling (R521–R523) -/

/-- The throttle level of sail `s` becomes `l`; each change is counted (DEDUCED, log 49). -/
def Dev.setLevel (d : Dev) (s l : Nat) : Dev :=
  let cur := d.getF F.PWR_SAIL_STAT_LEVEL [s]
  if l = cur then d
  else
    let d := ((d.setF F.PWR_SAIL_STAT_LEVEL [s] l).incSat F.PWR_SAIL_THR_CNT_COUNT [s]).tdc .sailThrottle (dieUnit (13 + s))
    if cur < l then d.raise F.SNS_STAT_THROTTLED else d

/-- The level of a sail counts: the sail is in service and does not change its ratio (R523) (DEDUCED, log 49). -/
def Dev.levelLive (d : Dev) (s : Nat) : Bool := d.dieOk (13 + s) && !d.flag F.PWR_SAIL_STAT_CHANGING [s]

/-- A write of FORCE raises the level to FORCE; during a ratio change the level holds (DEDUCED, log 49). -/
def Dev.forceWrite (d : Dev) (s v : Nat) : Dev :=
  let d := d.setF F.PWR_SAIL_CTRL_FORCE [s] v
  let f := d.getF F.PWR_SAIL_CTRL_FORCE [s]
  if d.levelLive s && decide (d.getF F.PWR_SAIL_STAT_LEVEL [s] < f) then d.setLevel s f else d

/-- A write of PWR_SAIL_CTRL_s (DEDUCED, log 49). -/
def Dev.sailCtrl (d : Dev) (s v : Nat) : Dev := (d.ratioWrite s (bits v 0 4)).forceWrite s (bits v 8 3)

/-- One diode result of the conversion, R524: published, or published invalid. -/
def Dev.diode (d : Dev) (k code : Nat) : Dev :=
  let t := toSigned 16 code
  let ok := decide (-640 ≤ t) && decide (t ≤ 2400)
  let d := (d.setF F.SNS_TEMP_TEMP [k] code).setF F.SNS_TEMP_VALID [k] (b2n ok)
  if ok then d else d.raise F.SNS_STAT_DIODE_BAD

/-- The hottest valid diode of sail `s`. -/
def Dev.hottest (d : Dev) (s : Nat) : Option Int :=
  (((List.range 8).map (fun i => 49 + 8 * s + i)).filter (fun k => d.flag F.SNS_TEMP_VALID [k])).foldl
    (fun m k =>
      let t := toSigned 16 (d.getF F.SNS_TEMP_TEMP [k])
      some (match m with
        | some x => max x t
        | none => t)) none

/-- The throttle step of sail `s` at a conversion (R522) (DEDUCED, log 49). -/
def Dev.throttle (d : Dev) (s : Nat) : Dev :=
  let hi := toSigned 16 (d.getF F.SNS_SAIL_THR_HI)
  let lo := toSigned 16 (d.getF F.SNS_SAIL_THR_LO)
  let l := d.getF F.PWR_SAIL_STAT_LEVEL [s]
  let f := d.getF F.PWR_SAIL_CTRL_FORCE [s]
  match d.hottest s with
  | none => d.clear F.PWR_SAIL_STAT_HOT [s]
  | some t =>
    let d := d.setF F.PWR_SAIL_STAT_HOT [s] (b2n (decide (hi ≤ t)))
    if d.levelLive s then d.setLevel s (max f (if hi ≤ t then min 7 (l + 1) else if t < lo then l - 1 else l)) else d

/-! ## Thermistors (R525–R527) -/

/-- ln of `a / b` in fixed point, for positive numbers (DEDUCED, log 48). -/
def lnRatio (a b : Nat) : Int :=
  let k := Nat.log2 a
  let j := Nat.log2 b
  let a' := a * 2 ^ j
  let b' := b * 2 ^ k
  -- a'/b' lies between 1/2 and 2
  let l : Int := if b' ≤ a' then atanh2 (a' - b') (a' + b') else -(atanh2 (b' - a') (a' + b') : Int)
  ((k : Int) - j) * ln2 + l

/-- The temperature of R525 in 1/16 °C; none where the formula has no value. The exact value is irrational but at R = R25
(DEDUCED, log 48). -/
def thermTemp (ohms r25 beta : Nat) : Option Int :=
  if ohms = 0 ∨ r25 = 0 ∨ beta = 0 then none
  else if ohms = r25 then some 400
  else
    let inv : Int := (20 * tone / 5963 : Nat) + lnRatio ohms r25 / (beta : Int)
    if inv ≤ 0 then none
    else some ((2 * (160 * (tone : Int) - 43704 * inv) + 10 * inv) / (20 * inv))

/-- TEMP of a thermistor reading: left open where the formula has no value or the field cannot hold it (DEDUCED, log 48). -/
def thermCode (ohms r25 beta : Nat) : Nat :=
  match thermTemp ohms r25 beta with
  | some t => if -32768 ≤ t ∧ t < 32768 then ofSigned 16 t else Config.wide (ohms + 2 ^ 20 * r25 + 2 ^ 36 * beta) % 65536
  | none => Config.wide (ohms + 2 ^ 20 * r25 + 2 ^ 36 * beta) % 65536

/-- Conversion window `k` of a remote input is withheld: it contains the break or comes after it, up to the first complete
window after the wire was whole again (DEDUCED, log 48). -/
def Therm.withheld (t : Therm) (k : Nat) : Bool :=
  decide (t.brokeAt < (k + 1) * ms 1) &&
    (match t.wholeAt with
     | none => true
     | some w => decide (k < ceilDiv w (ms 1) + 1))

/-- The resistance that a conversion reports (R549): at most 1,000,000 Ω up to the open-wire threshold; outside the measured range
it is left open (DEDUCED, log 48). -/
def reportedOhms (ohms : Nat) : Nat := if ohms < 100 ∨ 1500000 < ohms then Config.wide ohms % 2 ^ 20 else min ohms 1000000

/-- The conversion of remote input `x` in window `k` (DEDUCED, log 48). -/
def Dev.remote (d : Dev) (k x ohms : Nat) : Dev :=
  let held := match nget? d.pwr.therm [x] with
    | some t => t.withheld k
    | none => false
  if held then (d.raise (if x = 0 then F.SNS_STAT_OPEN_A else F.SNS_STAT_OPEN_B)).clear F.SNS_REM_VALID [x]
  else
    let d := match nget? d.pwr.therm [x] with
      | some t => if t.brokeAt < (k + 1) * ms 1 then { d with pwr := { d.pwr with therm := ndel d.pwr.therm [x] } } else d
      | none => d
    let r := reportedOhms ohms
    let t := thermCode r (d.getF F.SNS_REM_CFG_R25 [x]) (d.getF F.SNS_REM_CFG_BETA [x])
    let d := ((d.setF F.SNS_REM_RES_OHMS [x] r).setF F.SNS_REM_TEMP [x] t).raise F.SNS_REM_VALID [x]
    if x = 0 ∧ !d.flag F.SNS_REM_OPEN_NOW [x] ∧ toSigned 16 (d.getF F.SNS_LIMITS_INLET_MAX) < toSigned 16 t then d.raise F.SNS_STAT_INLET_HIGH else d

/-- SENSOR_CONVERSION: the next window's results, 0.2 ms after its end: 97 diode codes, two resistances, and VDD_SAIL in mV. -/
def Dev.conversion (d : Dev) (codes : List Nat) (ohmsA ohmsB vsail : Nat) : Dev :=
  let k := d.pwr.windows
  if d.clk.phase ≠ .off ∧ (k + 1) * ms 1 + us 200 ≤ d.clk.now then
    let d := { d with pwr := { d.pwr with windows := k + 1 } }.setF F.PWR_VSAIL_MV [] vsail
    let d := (List.range 97).foldl (fun d i => d.diode i (codes.getD i 0)) d
    let d := (d.remote k 0 ohmsA).remote k 1 ohmsB
    (List.range 4).foldl Dev.throttle d
  else d

/-- The VDD_SAIL monitor does not read good: PWR_VSAIL lies more than 30 mV below the minimum for the highest ratio in use among the
sails in service, or above 760 mV (R519, R538). -/
def Dev.vsailBad (d : Dev) : Bool :=
  let r := ((List.range 4).filter (fun s => d.dieOk (13 + s))).foldl (fun m s => max m (d.getF F.PWR_SAIL_STAT_RATIO [s])) 8
  decide (d.getF F.PWR_VSAIL_MV + 30 < sailMin r) || decide (760 < d.getF F.PWR_VSAIL_MV)

/-- SENSOR_CONVERSION with what its reading of VDD_SAIL means for the rail: a reading at which the monitor is not good is a brownout
(R97, R519) (DEDUCED, log 82). -/
def Dev.conversionRail (d : Dev) (fz : Fuses) (codes : List Nat) (ohmsA ohmsB vsail : Nat) : Dev :=
  let x := d.conversion codes ohmsA ohmsB vsail
  if x.pwr.windows ≠ d.pwr.windows ∧ x.vsailBad then x.brownout fz (clrBit (x.getF F.PWR_RAIL_STAT_GOOD) 1) else x

/-- THERMISTOR_OPEN: the wire of remote input `x` has been open for 10 µs. -/
def Dev.thermOpen (d : Dev) (x : Nat) : Dev :=
  if d.clk.phase = .off ∨ d.flag F.SNS_REM_OPEN_NOW [x] then d
  else
    let since := match nget? d.pwr.therm [x] with
      | some t => min t.brokeAt (d.clk.now - us 10)
      | none => d.clk.now - us 10
    { d.raise F.SNS_REM_OPEN_NOW [x] with pwr := { d.pwr with therm := nset d.pwr.therm [x] ⟨since, none⟩ } }

/-- THERMISTOR_CLOSE: the comparator has seen no open for 10 µs. -/
def Dev.thermClose (d : Dev) (x : Nat) : Dev :=
  match nget? d.pwr.therm [x] with
  | some t =>
    if d.flag F.SNS_REM_OPEN_NOW [x] then
      { d.clear F.SNS_REM_OPEN_NOW [x] with pwr := { d.pwr with therm := nset d.pwr.therm [x] { t with wholeAt := some (d.clk.now - us 10) } } }
    else d
  | none => d

/-! ## Thermal trip (R528) -/

/-- The first sensor index of a die (R524). -/
def firstSensor (n : DieNo) : Nat :=
  match dieClass n with
  | (1, _) => 0
  | (2, y) => 1 + 4 * y
  | (3, p) => 17 + 4 * p
  | (4, s) => 49 + 8 * s
  | (_, k) => 81 + 2 * k

/-- THERMAL_TRIP of die `n`'s comparator. -/
def Dev.thermalTrip (d : Dev) (n : DieNo) : Dev :=
  if d.clk.phase = .off ∨ d.pwr.trip then d
  else
    let d := d.stopAll (fun r => regIsland r [] == 0)
    let d := ({ d with clk := { d.clk with phase := .tripped }, pwr := { d.pwr with trip := true } }.resetRegs
      (fun k => k.reg == RegName.MST_CLKON || k.reg == RegName.MST_READY || k.reg == RegName.MST_READY_STACK)).startIsland 0
    ((d.setF F.SNS_TRIP_SRC_SENSOR [] (firstSensor n)).raise F.MST_RST_CAUSE_THERMTRIP).emit (.wire "links idle" [])

end Sys2Proof.Machine
end

