-- ==== Sys2Proof/Machine/RegAccess.lean ====
section
/-!
DEFINITION. Register writes: types and locks (R7, R119), the checks and actions of single registers, and
accesses to islands in reset or stopped (R58, R553).
-/
namespace Sys2Proof.Machine

/-! ## Types and locks (R7, R119) -/

/-- The lock bit that covers the RWL fields of a register. -/
def lockOf (r : RegName) : Nat :=
  match r with
  | .FAB_CTRL => 0
  | .LNE_CTRL | .LNE_TXEQ | .LNE_RXEQ | .LNE_UCW_LIMIT => 1
  | .OPM_CTRL | .OPM_BUS_CFG | .OPM_LIFE_CFG | .OPM_LIFE_DEF | .OPM_ALLOW | .OPM_ALLOW2 => 2
  | .SNS_REM_CFG | .SNS_LIMITS | .SNS_SAIL_THR => 3
  | _ => 4

/-- The RWL fields of `r` are locked against the issuer. -/
def Dev.lockedFor (d : Dev) (iss : Issuer) (r : RegName) : Bool :=
  !d.isHelm iss && d.bitF F.MST_LOCK_LOCK [] (lockOf r)

/-- The bits of `a` that are 0 in `b`. -/
def clearBits (w a b : Nat) : Nat := ofOnes ((onesOf w a).filter (fun i => !bit b i))

/-- The bits of `a` and of `b`. -/
def joinBits (w a b : Nat) : Nat := ofOnes ((List.range w).filter (fun i => bit a i || bit b i))

/-- A write of word `v` as it reaches field `f` under the field's type. -/
def Dev.fieldWrite (d : Dev) (idx : List Nat) (v : Nat) (f : Field) : Dev :=
  match f.ty with
  | .ro => d
  | .wo => d
  | .rw => d.setF f idx (bits v f.lo f.w)
  | .rwl => d.setF f idx (bits v f.lo f.w)
  | .w1c => d.setF f idx (clearBits f.w (d.getF f idx) (bits v f.lo f.w))
  | .w1s => d.setF f idx (joinBits f.w (d.getF f idx) (bits v f.lo f.w))

/-- A write of `v` to every field of `r` (DEDUCED, log 61). -/
def Dev.plainWrite (d : Dev) (r : RegName) (idx : List Nat) (v : Nat) : Dev := (fieldsOf r).foldl (fun d f => d.fieldWrite idx v f) d

/-- `v` with the bits of field `f` replaced by `x`. -/
def withField (v : Nat) (f : Field) (x : Nat) : Nat := v - bits v f.lo f.w * 2 ^ f.lo + x * 2 ^ f.lo

/-- The word that a write leaves for the register once locked RWL fields keep their values. -/
def Dev.unlocked (d : Dev) (iss : Issuer) (r : RegName) (idx : List Nat) (v : Nat) : Nat :=
  if d.lockedFor iss r then ((fieldsOf r).filter (fun f => f.ty == .rwl)).foldl (fun v f => withField v f (d.getF f idx)) v else v

/-! ## Registers with checks or actions of their own -/

/-- Port engine `e` of port die `p` is enabled and shares a position with the span from `b` on of `n` positions. -/
def Dev.spanTaken (d : Dev) (p e b n : Nat) : Bool :=
  (List.range 32).any (fun o => o != e && d.flag F.PRT_PORT_CFG_EN [p, o] && decide (b < (d.portSpan (p, o)).1 + (d.portSpan (p, o)).2)
    && decide ((d.portSpan (p, o)).1 < b + n))

/-- A write of PRT_PORT_CFG_e is discarded (R150). -/
def Dev.portCfgBad (d : Dev) (p e v : Nat) : Bool :=
  let i := [p, e]
  let b := bits v 0 7
  let w := bits v 7 3
  let m := bits v 10 2
  let l' := bits v F.PRT_PORT_CFG_MIN_LIVE.lo 5
  let en := bit v F.PRT_PORT_CFG_EN.lo
  (d.flag F.PRT_PORT_CFG_EN i && en && (b != d.getF F.PRT_PORT_CFG_BASE_POS i || w != d.getF F.PRT_PORT_CFG_WIDTH_LOG2 i || m != d.getF F.PRT_PORT_CFG_MODE i))
    || decide (5 ≤ w) || m == 3 || (en && b % 2 ^ w != 0) || (en && d.spanTaken p e b (2 ^ w)) || l' == 0 || decide (2 ^ w < l')

/-- PORT_CFG_WRITE: formation, change or disabling of a port (R150) (DEDUCED, log 61). -/
def Dev.portCfg (d : Dev) (p e v : Nat) : Dev :=
  if d.portCfgBad p e v then d.raise F.PRT_PORT_STAT_CFG_REJECT [p, e]
  else
    let off := d.flag F.PRT_PORT_CFG_EN [p, e] && !bit v F.PRT_PORT_CFG_EN.lo
    -- an up port whose live sets no longer hold MIN_LIVE lanes goes down too (R152)
    let least := bits v F.PRT_PORT_CFG_MIN_LIVE.lo 5
    let low := d.portUp (p, e) && (decide (d.getF F.PRT_PORT_STAT_LIVE_TX [p, e] < least) || decide (d.getF F.PRT_PORT_STAT_LIVE_RX [p, e] < least))
    let d := if off || low then d.portDown (p, e) else d
    let d := if off then d.setPortLn (p, e) { d.portLn (p, e) with narrowed := 0 } else d
    let span := d.portSpan (p, e)
    let mode := d.getF F.PRT_PORT_CFG_MODE [p, e]
    let d := (d.plainWrite .PRT_PORT_CFG [p, e] v).laneAssign p
    -- a formation change ends MISMATCH (R153)
    if d.portSpan (p, e) = span ∧ d.getF F.PRT_PORT_CFG_MODE [p, e] = mode then d
    else (List.range (d.portSpan (p, e)).2).foldl (fun d i =>
      let l := d.laneOf (p, e) i
      if d.laneState p l = 0xA then (d.setF F.LNE_STAT_MISMATCH [p, l] 0).toDetect p l else d) d

/-- POOL_CFG_WRITE (R204): LARGE_MIB up to 32, before the yard's first allocation. -/
def Dev.poolCfg (d : Dev) (y v : Nat) : Dev :=
  if 32 < bits v 0 6 ∨ d.net.allocated.contains y then d.raise F.YRD_POOL_STAT_CFG_REJECT [y]
  else (d.plainWrite .YRD_POOL_CFG [y] v).poolSync y

/-- A write of YRD_POOL_RSV: no field zero, and the reserves inside the small pool. -/
def Dev.poolRsv (d : Dev) (y v : Nat) : Dev :=
  let l := [bits v 0 8, bits v 8 8, bits v 16 8, bits v 24 8]
  if l.contains 0 ∨ d.smallCells y < 256 * l.sum then d.raise F.YRD_POOL_STAT_CFG_REJECT [y]
  else (d.plainWrite .YRD_POOL_RSV [y] v).poolSync y

/-- Port ids named by eight registers of a group's master entry. -/
def Dev.masterPorts (d : Dev) (f : Field) (g : Nat) : List Nat :=
  (List.range 8).flatMap (fun j => (onesOf 32 (d.getF f [g, j])).map (fun b => 32 * j + b))

/-- DIM of a port id. -/
def Dev.dimOf (d : Dev) (id : Nat) : Nat := d.getF F.PRT_RT_PORT_DIM [id / 32, id % 32]

/-- MC_GROUP_COMMIT (R238): the master entry is committed, to be applied in the yards, or rejected. -/
def Dev.mcCommit (d : Dev) (g v : Nat) : Dev :=
  let peers := d.masterPorts F.MST_MC_PEER_PEER g
  if (d.masterPorts F.MST_MC_LOCAL_LOCAL g).any (fun id => d.dimOf id != 0) || peers.any (fun id => d.dimOf id != bits v 0 2)
      || (!peers.isEmpty && bits v 0 2 == 0) then
    (d.raise F.MST_MC_STAT_REJECT).setF F.MST_MC_STAT_REJ_GROUP [] g
  else
    let d := ((d.plainWrite .MST_MC_CTL [g] v).mended [2, g]).mended [3, g]
    let words := d.readWord .MST_MC_CTL [g] :: ((List.range 8).map (fun j => d.getF F.MST_MC_LOCAL_LOCAL [g, j]) ++ (List.range 8).map (fun j => d.getF F.MST_MC_PEER_PEER [g, j]))
    { d with net := { d.net with groupsDue := nset d.net.groupsDue [g] words } }

/-- FAIRLEAD_COMMIT (R232): word +0x00 and the staged words of an entry together. -/
def Dev.flCommit (d : Dev) (p dim c v : Nat) : Dev :=
  let i := [p, dim, c]
  let d := (d.plainWrite .PRT_FL_CTL i v).mended (0 :: i)
  let words := [d.getF F.PRT_FL_PORTS_PORTS (i ++ [0]), d.getF F.PRT_FL_PORTS_PORTS (i ++ [1]), d.getF F.PRT_FL_SEL_LO_SEL i, d.getF F.PRT_FL_SEL_HI_SEL i]
  { d with net := { d.net with fairlead := nset d.net.fairlead i words } }

/-- First queue and count of each class in a word of PRT_SCH_TCQ_e. -/
def tcqSpans (v : Nat) : List (Nat × Nat) := (List.range 5).map (fun t => (bits v (6 * t) 4, 2 ^ bits v (6 * t + 4) 2))

/-- Every class's queues lie in 3 to 15 and no two classes share one (R255). -/
def tcqOk (v : Nat) : Bool :=
  let l := tcqSpans v
  l.all (fun s => decide (3 ≤ s.1) && decide (s.1 + s.2 ≤ 16)) &&
    (List.range 5).all (fun i => (List.range 5).all (fun j => i == j ||
      (match l[i]?, l[j]? with
       | some a, some b => decide (a.1 + a.2 ≤ b.1) || decide (b.1 + b.2 ≤ a.1)
       | _, _ => false)))

/-- A write to port scheduling that breaks a range sets CFG_REJECT. -/
def Dev.schWrite (d : Dev) (r : RegName) (i : List Nat) (v : Nat) (ok : Bool) : Dev :=
  if ok then d.plainWrite r i v else d.raise F.PRT_SCH_STAT_CFG_REJECT [ix i 0, ix i 1]

/-- A write of PRT_SCH_WQ_e_q (R258): at most four fresh queues on a port. Every accepted write is one to the fresh-queue item of the
protection set-up (R136). -/
def Dev.wqWrite (d : Dev) (i : List Nat) (v : Nat) : Dev :=
  let others := ((List.range 13).map (· + 3)).filter (fun q => q != ix i 2 && d.flag F.PRT_SCH_WQ_FRESH [ix i 0, ix i 1, q])
  if bit v 31 && decide (4 ≤ others.length) then d.raise F.PRT_SCH_STAT_FRESH_REJECT [ix i 0, ix i 1]
  else (d.plainWrite .PRT_SCH_WQ i v).protChange .fresh

/-- List `l` of a port's gates takes no writes: it is active, or its takeover is pending (R265). -/
def Dev.gateFixed (d : Dev) (i : List Nat) (l : Nat) : Bool :=
  d.getF F.PRT_SCH_STAT_ACTIVE [ix i 0, ix i 1] == l || d.flag F.PRT_SCH_STAT_PENDING [ix i 0, ix i 1]

/-- A write of a gate entry or of the list lengths (DEDUCED, log 34). -/
def Dev.gateWrite (d : Dev) (r : RegName) (i : List Nat) (v : Nat) (ok : Bool) : Dev :=
  if ok then (d.plainWrite r i v).mended [1, ix i 0, ix i 1] else d.raise F.PRT_SCH_STAT_CFG_REJECT [ix i 0, ix i 1]

/-- PRT_GATE_LEN: a length that changes must be one of a list that takes writes. -/
def Dev.gateLenOk (d : Dev) (i : List Nat) (v : Nat) : Bool :=
  (bits v 0 8 == d.getF F.PRT_GATE_LEN_LEN_A i || !d.gateFixed i 0) && (bits v 8 8 == d.getF F.PRT_GATE_LEN_LEN_B i || !d.gateFixed i 1)

/-- COLL_OVF_WRITE (R338): while no context is open in the yard, a region inside stacked memory. -/
def Dev.ovfWrite (d : Dev) (y v : Nat) : Dev :=
  if 0 < d.getF F.YRD_COLL_OPEN_COUNT [y] ∨ 0x6000000000 < bits v 21 27 * 2 ^ 21 + 201326592 then d.raise F.YRD_COLL_STAT_CFG_REJECT [y]
  else d.plainWrite .YRD_COLL_OVF [y] v

/-- CLEAT_OWNER_WRITE (R353, R356): a claim; a reserved owner id discards the write. -/
def Dev.cleatWrite (d : Dev) (iss : Issuer) (sail : Bool) (i : List Nat) (v : Nat) : Dev :=
  let o := bits v 0 8
  if !ownerOk o then d.rejectWr iss
  else d.addClaim ⟨sail, ix i 0, ix i 1, o,
    (match iss with | .pf x => x.val | .vf x _ => x.val | .plan x => x.val | .jtag => 4),
    (match iss with | .pf _ => true | _ => false), 0, none⟩

/-- OWNER_MAP_WRITE (R358, R363): a tackle that R28 rejects discards the write (DEDUCED, log 65). -/
def Dev.ownerMapWrite (d : Dev) (iss : Issuer) (i : List Nat) (v : Nat) : Dev :=
  if !d.tackleOk (bits v 0 16) then d.rejectWr iss else (d.plainWrite .MST_OWNER_MAP i v).protChange .cleat

/-- A write of MST_QMAP_d (R138, R139): a reserved value discards it. -/
def Dev.qmapWrite (d : Dev) (iss : Issuer) (i : List Nat) (v : Nat) : Dev :=
  if (List.range 4).any (fun q => 4 ≤ bits v (4 * q) 3 && bits v (4 * q) 3 ≤ 6) then d.rejectWr iss
  else ((d.plainWrite .MST_QMAP i v).protChange .queueMap).qmapDrain (ix i 0)

/-- A write of LNE_CTRL: settings, then RETRAIN, SELFTEST and BITSLIP. -/
def Dev.laneCtrl (d : Dev) (i : List Nat) (v : Nat) : Dev :=
  let d := d.plainWrite .LNE_CTRL i v
  let d := if bit v 4 then d.laneRetrain (ix i 0) (ix i 1) else d
  let d := if bit v 5 then d.laneSelftest (ix i 0) (ix i 1) else d
  if bits v 8 8 = 0 then d else d.bitslip (ix i 0) (ix i 1) (bits v 8 8)

/-- Both kinds of register that a counter set may name: every field RO or W1C (R505) (DEDUCED, log 23). -/
def watchable (a : Nat) : Bool :=
  match regAt a with
  | some (r, _) => (fieldsOf r.reg).all (fun f => f.ty == .ro || f.ty == .w1c)
  | none => false

/-- A write of MST_TEL_CFG_k (R505, R506): SEQ counts from where EN is set (DEDUCED, log 23). -/
def Dev.telCfg (d : Dev) (i : List Nat) (v : Nat) : Dev :=
  let p := bits v 0 5
  let n := bits v 8 7
  if p < 6 ∨ 24 < p ∨ n < 1 ∨ 64 < n then d.raise F.MST_TEL_STAT_CFG_REJECT
  else
    let was := d.flag F.MST_TEL_CFG_EN i
    let d := d.plainWrite .MST_TEL_CFG i v
    if bit v 15 && !was then { d with tel := { d.tel with setSeq := nput 0 d.tel.setSeq i 0 } } else d

/-- A write of MST_SNAP_CTRL (R508, R516). -/
def Dev.snapCtrl (d : Dev) (iss : Issuer) (v : Nat) : Dev :=
  let halt := d.getF F.MST_SNAP_CTRL_HALT_ALL
  let d := if d.planRights iss then d.plainWrite .MST_SNAP_CTRL [] v
    else
      let d := (d.plainWrite .MST_SNAP_CTRL [] v).setF F.MST_SNAP_CTRL_HALT_ALL [] halt
      if bit v 3 then d.rejectWr iss else d
  if bit v 0 then d.snapTrigger else d

/-- A write of HST_IND_CTRL: with GO while BUSY reads 1 it is discarded whole, ABORT included (R122). -/
def Dev.indCtrl (d : Dev) (iss : Issuer) (x v : Nat) : Dev :=
  if bit v 0 then d.indGo iss x (bit v 1) (bit v 2) else if bit v 3 then d.indAbort x else d

/-- A write of OPM_CTRL: settings, then FLUSH and DUMP. -/
def Dev.opmCtrl (d : Dev) (v : Nat) : Dev :=
  let d := d.plainWrite .OPM_CTRL [] v
  let d := if bit v 2 then { d with opt := { d.opt with flushDue := true } } else d
  if bit v 3 then d.ledDump else d

/-- A write that `v` makes of FLT_FATAL_EN: enabling a bit that is set raises the line (R468). -/
def Dev.fatalEn (d : Dev) (n v : Nat) : Dev :=
  let was := d.fatalLine n
  let d := d.plainWrite .FLT_FATAL_EN [n] v
  if d.fatalLine n && !was then d.fatalRise n else d

/-! ## The effect of a write -/

/-- What a write of `v` to register `r` does, once rights, locks and the register's island let it through (DEDUCED, log 58). -/
def Dev.regEffect (d : Dev) (fz : Fuses) (iss : Issuer) (r : RegName) (idx : List Nat) (v : Nat) : Dev :=
  let i0 := ix idx 0
  let i1 := ix idx 1
  match r with
  | .MST_CLK_STAT => (d.plainWrite r idx v).heldStart
  | .MST_CLK_HOLD => d.holdWrite i0 v
  | .TCK_ARITH =>
    -- on a group tackle the write clears bits in every leaf (R299)
    (if isGroup i0 then leavesOf i0 else [i0]).foldl (fun d l => d.plainWrite .TCK_ARITH [l] v) d
  | .FAB_STEP => { d with clk := { d.clk with steps := d.clk.steps ++ [v % 2 ^ 64] } }
  | .FAB_CTRL => (d.plainWrite r idx v).rootAlign
  | .MST_DET_CTRL =>
    let d := (d.plainWrite r idx v).anchorEnable (d.flag F.MST_DET_CTRL_ANCHOR_EN)
    if bit v 1 then d.detClear else d
  | .MST_DET_ANCHOR => (d.plainWrite r idx v).anchorWrite
  | .MST_BOOT_CTRL => if bit v 0 then d.recoveryGo fz else d
  | .MST_FUSE_PROG => d.fuseWrite v
  | .MST_RST_REQ => d.resetWrite fz v
  | .MST_RECOVERY => d.windowWrite i0 v
  | .MST_QMAP => d.qmapWrite iss idx v
  | .MST_PROT_APER => (d.plainWrite r idx v).protChange .aperture
  | .HST_IND_CTRL => d.indCtrl iss i0 v
  | .HST_CR_CFG => d.cmdCfg iss idx v
  | .HST_CR_CTRL => d.cmdCtrl iss idx v
  | .HST_CR_DB => d.doorbell idx v
  | .HST_RR_CTRL => d.recCtrl iss idx v
  | .HST_RR_COUNT => d.recRelease idx v
  | .LNE_CTRL => d.laneCtrl idx v
  | .LNE_TXEQ => if 63 < tapSum v then d.raise F.LNE_STAT_EQ_REJECT idx else d.plainWrite r idx v
  | .LNE_EYE_CTRL => if bit v 0 then d.eyeMeasure i0 i1 v else d.plainWrite r idx v
  | .PRT_PORT_CFG => d.portCfg i0 i1 v
  | .YRD_POOL_CFG => d.poolCfg i0 v
  | .YRD_POOL_RSV => d.poolRsv i0 v
  | .MST_FABADDR =>
    -- VALID = 1 waits for the next frame start; with VALID = 0 packets are discarded from the write on (R227)
    let d := d.plainWrite r idx v
    if bit v 31 then { d with net := { d.net with fabDue := true } }
    else { d with net := { d.net with fabDue := false, fabAddr := (bits v 14 4, bits v 10 4, bits v 6 4, false) } }
  | .MST_MC_CTL => d.mcCommit i0 v
  | .PRT_FL_CTL => d.flCommit i0 i1 (ix idx 2) v
  | .PRT_PKEY => (d.plainWrite r idx v).protChange .keys
  | .PRT_RC_PROF =>
    let d := d.plainWrite r idx v
    { d with net := { d.net with profDue := d.net.profDue.filter (· ≠ (i0, i1)) ++ [(i0, i1)] } }
  | .PRT_RC_PROF2 =>
    if bits v 0 3 < 1 ∨ 4 < bits v 0 3 then d
    else
      let d := d.plainWrite r idx v
      { d with net := { d.net with profDue := d.net.profDue.filter (· ≠ (i0, i1)) ++ [(i0, i1)] } }
  | .PRT_CMAP_CTRL =>
    let d := d.plainWrite r idx v
    if bit v 0 then { d with net := { d.net with snapDue := d.net.snapDue.filter (· ≠ i0) ++ [i0] } } else d
  | .PRT_SCH_CFG => d.schWrite r idx v (decide (bits v 8 7 ≤ 80))
  | .PRT_SCH_TCQ => d.schWrite r idx v (tcqOk v)
  | .PRT_POL_CFG => d.schWrite r idx v (decide (3 ≤ bits v 0 3))
  | .PRT_SCH_WQ => d.wqWrite idx v
  | .PRT_GATE_LEN => d.gateWrite r idx v (d.gateLenOk idx v)
  | .PRT_GATE => d.gateWrite r idx v (!d.gateFixed idx (ix idx 2) && bits v 0 24 != 0)
  | .YRD_COLL_OVF => d.ovfWrite i0 v
  | .YRD_COLL_PROM_RESUME => (d.plainWrite r idx v).promResume i0
  | .CPS_ST_CTRL => if bit v 0 then d.startSelftest i0 i1 else d
  | .SAL_CLEAT => d.cleatWrite iss true idx v
  | .BSE_CLEAT => d.cleatWrite iss false idx v
  | .MST_OWNER_MAP => d.ownerMapWrite iss idx v
  | .TCK_QCTL => if bit v 0 then d.setHalt i0 i1 false else d
  | .MST_FLOW_TMPL => (d.plainWrite r idx v).mended [8, i0]
  | .MST_FLOW_TMPL1 => (d.plainWrite r idx v).mended [8, i0]
  | .MST_FLOW_TMPL2 => (d.plainWrite r idx v).mended [8, i0]
  | .MST_DESC => (d.plainWrite r idx v).mended [6, i0]
  | .MST_COLL_DESC => (d.plainWrite r idx v).mended [7, i0]
  | .FLT_FATAL_EN => d.fatalEn i0 v
  | .MST_FAULT_STAT => if bit v 0 then d.pulsedClear else d
  | .MST_FAULT_HOLD => d.faultHold (bits v 0 1)
  | .MST_MGMT_CMD => d.mgmtWrite v
  | .OPM_CTRL => d.opmCtrl v
  | .OPM_SLOT_CFG =>
    let d := if bit v 0 != d.flag F.OPM_SLOT_CFG_MANUAL idx then d.manualWrite i0 (bit v 0) else d
    if bit v 1 then d.reinit i0 else d
  | .OPM_PASS_CTRL =>
    if d.flag F.OPM_PASS_DATA_BUSY then d
    else
      let d := d.plainWrite r idx v
      if bit v 25 then d.passGo else d
  | .MST_TEL_CFG => d.telCfg idx v
  | .MST_TEL_ADDR => if watchable (bits v 0 48) then d.plainWrite r idx v else d.raise F.MST_TEL_STAT_CFG_REJECT
  | .MST_SNAP_CTRL => d.snapCtrl iss v
  | .SNS_SAIL_THR => if toSigned 16 (bits v 0 16) ≤ toSigned 16 (bits v 16 16) then d.rejectWr iss else d.plainWrite r idx v
  | .PWR_SAIL_CTRL => d.sailCtrl i0 v
  | _ => d.plainWrite r idx v

/-- Number of the register's island, with the state of that island that an access meets. -/
inductive Reach where
  | inReset
  | stopped (g : Nat)
  | open
  deriving DecidableEq, Repr

/-- How an access reaches register `r`: the always-on island answers whenever it runs (R553) (DEDUCED, log 8). -/
def Dev.reach (d : Dev) (r : RegName) (idx : List Nat) : Reach :=
  let g := regIsland r idx
  if g = 0 then .open
  else if d.islandInReset g then .inReset
  else if d.islandStopped g then .stopped g
  else .open

/-- A write of register `r` (R7, R118, R553), its target island not stopped: its effect and status. -/
def Dev.regWrite (d : Dev) (fz : Fuses) (iss : Issuer) (r : RegDesc) (idx : List Nat) (v : Nat) : Dev × Status :=
  if !d.mayWrite iss r.writer r.reg idx then (d.rejectWr iss, .reservedOp)
  else if d.reach r.reg idx = .inReset then (d, .unitReset)
  else
    let v' := d.unlocked iss r.reg idx (v % 2 ^ r.width)
    let d := if v' = v % 2 ^ r.width then d else d.rejectWr iss
    (d.regEffect fz iss r.reg idx v', .ok)

end Sys2Proof.Machine
end

