-- ==== Sys2Proof/Machine/RegRows.lean ====
section
/-!
DEFINITION. How accesses reach registers: BAR0 and the posted-write path of a host port (R5, R120, R125), the indirect window
(R122), and accesses that waited at a stopped island (R58).
-/
namespace Sys2Proof.Machine

/-! ## Addresses -/

/-- First address of the block that holds a register, with the indices that are left. -/
def blockBase (r : RegDesc) (idx : List Nat) : Nat × List Nat :=
  let die := fun (cls i : Nat) => regSpace + cls * 0x10000000 + i * 0x1000000
  match r.blk with
  | .mast => (die 1 0, idx)
  | .yard => (die 2 (ix idx 0), idx.tail)
  | .port => (die 3 (ix idx 0), idx.tail)
  | .sail => (die 4 (ix idx 0), idx.tail)
  | .base => (die 5 (ix idx 0), idx.tail)
  | .anyDie => (die (dieClass (ix idx 0)).1 (dieClass (ix idx 0)).2, idx.tail)
  | .face =>
    let t := ix idx 0
    (if t = 0 then die 1 0 + 0xE00000 else if t = 0x4FFF then die 1 0 + 0xE00100 else if t = 0x5FFF then die 1 0 + 0xE00200
     else die (t / 4096) (t / 256 % 16) + 0xF00000 + t % 256 * 256, idx.tail)

/-- Offset of indices along a register's dimensions. -/
def dimsOff : List (Nat × Nat × Nat) → List Nat → Nat
  | (_, stride, first) :: t, i :: l => (i - first) * stride + dimsOff t l
  | _, _ => 0

/-- The device-local address of a register. -/
def regAddr (r : RegDesc) (idx : List Nat) : Nat :=
  let b := blockBase r idx
  b.1 + r.base + dimsOff r.dims b.2

/-- First address of the Mast block. -/
def mastBlock : Nat := regSpace + 0x10000000

/-- First offset in the Mast block of function page `f` of host port `x`. -/
def fnPage (x f : Nat) : Nat := 0x101000 + 0x20000 * x + 0x1000 * f

/-! ## Accesses that reach their register -/

/-- How a write that waits at a stopped island came in: an access of a host to the Mast block ends with a reset of its port (R109). -/
def waitVia (r : RegDesc) (iss : Issuer) : Via :=
  match issuerPort iss with
  | some _ => if r.blk = .mast then .mmio else .plan
  | none => .plan

/-- A write that carries no report: it takes effect, or waits at a stopped island. -/
def Dev.landWrite (d : Dev) (fz : Fuses) (iss : Issuer) (r : RegDesc) (idx : List Nat) (v : Nat) : Dev :=
  match d.reach r.reg idx with
  | .stopped _ =>
    if d.mayWrite iss r.writer r.reg idx then
      { d with clk := { d.clk with held := d.clk.held ++ [⟨iss, waitVia r iss, true, r.reg, idx, v⟩] } }
    else d.rejectWr iss
  | _ => (d.regWrite fz iss r idx v).1

/-- The issuer of an access from function `f` of host port `x`. -/
def hostIss (x f : Nat) : Issuer := if f = 0 then .pf (Fin.ofNat 4 x) else .vf (Fin.ofNat 4 x) (Fin.ofNat 17 f)

/-- A refused access of host port `x`: ACCESS_ERR, and a read returns zero (R5, R31). -/
def Dev.accessErr (d : Dev) (x : Nat) (acc : HostAcc) : Dev :=
  let d := d.raise F.HST_PORT_ERR_ACCESS_ERR [x]
  match acc with
  | .write _ => d
  | .read _ => d.emit (.mmio x 0)

/-- Words of a function's MSI-X table (PRESUMED, log 9). -/
def msixWords (f : Nat) : Nat := 4 * vectorsOf f

/-- A write of one MSI-X table word; a vector that is unmasked sends its pending message (R134, log 9). -/
def Dev.msixWord (d : Dev) (x f w v : Nat) : Dev :=
  let d := { d with host := { d.host with msix := nput (msixReset w) d.host.msix [x, f, w] v } }
  if w % 4 = 3 ∧ !bit v 0 ∧ nget false d.host.msixPend [x, f, w / 4] then
    { d with host := { d.host with msixPend := nput false d.host.msixPend [x, f, w / 4] false } }.sendMsix x f (w / 4)
  else d

/-- An access of the MSI-X table at offset `o` of it: one or two aligned words (PRESUMED, log 9). -/
def Dev.msixAccess (d : Dev) (x f o : Nat) (acc : HostAcc) : Dev :=
  if (acc.len = 4 ∨ acc.len = 8) ∧ o % acc.len = 0 then
    match acc with
    | .write l => (List.range (l.length / 4)).foldl (fun d i => d.msixWord x f (o / 4 + i) (leAt l (4 * i) 4)) d
    | .read n => d.emit (.mmio x (ofLE ((List.range (n / 4)).flatMap (fun i =>
        leBytes 4 (nget (msixReset (o / 4 + i)) d.host.msix [x, f, o / 4 + i])))))
  else d.accessErr x acc

/-- An access of the MSI-X pending-bit array: it takes no write, and a read gives the bits of the vectors it covers (PRESUMED, log
9). -/
def Dev.pbaAccess (d : Dev) (x f o : Nat) (acc : HostAcc) : Dev :=
  match acc with
  | .write _ => d
  | .read n => d.emit (.mmio x (ofOnes ((List.range (8 * n)).filter (fun i => nget false d.host.msixPend [x, f, 8 * o + i]))))

/-- An access at a device-local register address by a host port: only of a register's own width at its own address (R5). A read of a
register whose island is in reset returns zero (R553); one of a stopped island waits (R58). -/
def Dev.mmioReg (d : Dev) (fz : Fuses) (x f a : Nat) (acc : HostAcc) : Dev :=
  match regAt a with
  | some (r, idx) =>
    if 8 * acc.len = r.width then
      match acc with
      | .write l => d.landWrite fz (hostIss x f) r idx (ofLE l)
      | .read _ =>
        match d.reach r.reg idx with
        | .inReset => d.emit (.mmio x 0)
        | .stopped _ => { d with clk := { d.clk with held := d.clk.held ++ [⟨hostIss x f, .mmio, false, r.reg, idx, 0⟩] } }
        | .open =>
          let w := d.regWord r.reg idx
          w.2.emit (.mmio x w.1)
    else d.accessErr x acc
  | none => d.accessErr x acc

/-- A BAR0 access of function `f` (R120): registers, then the MSI-X table and its pending-bit array (DEDUCED, log 61). -/
def Dev.bar0Access (d : Dev) (fz : Fuses) (x f o : Nat) (acc : HostAcc) : Dev :=
  if f = 0 then
    if o < 0x1000000 then d.mmioReg fz x 0 (mastBlock + o) acc
    else if o < 0x1000000 + 4 * msixWords 0 then d.msixAccess x 0 (o - 0x1000000) acc
    else if 0x1001000 ≤ o ∧ o < 0x1001008 then d.pbaAccess x 0 (o - 0x1001000) acc
    else d.accessErr x acc
  else
    if o < 0x1000 then d.mmioReg fz x f (mastBlock + fnPage x f + o) acc
    else if o < 0x1000 + 4 * msixWords f then d.msixAccess x f (o - 0x1000) acc
    else if 0x1800 ≤ o ∧ o < 0x1808 then d.pbaAccess x f (o - 0x1800) acc
    else d.accessErr x acc

/-- One access of host port `x`, nothing ahead of it: BAR0, a push window, whose reads return zero (R125), the aperture, or a row's
register write. -/
def Dev.hostDo (d : Dev) (fz : Fuses) (x : Nat) (p : Posted) : Dev :=
  match p with
  | .mem f bar o acc =>
    if bar = 0 then d.bar0Access fz x f o acc
    else if bar = 2 then
      match acc with
      | .write l => d.pushStore [x, f, o / 0x20000] (o % 0x20000) l
      | .read _ => d.emit (.mmio x 0)
    else
      match acc with
      | .write l => d.aperture x o true l l.length
      | .read n => d.aperture x o false [] n
  | .reg iss r idx v =>
    match descOf r with
    | some q => d.landWrite fz iss q idx v
    | none => d

/-- The access must be held: a push write to a busy slot (R125) (DEDUCED, log 59). -/
def Dev.postedHeld (d : Dev) (x : Nat) (p : Posted) : Bool :=
  match p with
  | .mem f bar o (.write l) => bar == 2 && d.pushHeld [x, f, o / 0x20000] (o % 0x20000) l
  | _ => false

/-- Function `f` of host port `x` can access the device. -/
def Dev.fnRuns (d : Dev) (x f : Nat) : Bool := d.portRuns x && d.fnOn x f

/-- An access of function `f` arrives at host port `x`: it takes effect, or waits behind a held push write, as every later access of
the port does (DEDUCED, log 59). -/
def Dev.hostAccess (d : Dev) (fz : Fuses) (x f : Nat) (p : Posted) : Dev :=
  if !d.fnRuns x f then d
  else
    let l := nget [] d.host.posted [x]
    if l.isEmpty && !d.postedHeld x p then d.hostDo fz x p
    else { d with host := { d.host with posted := nset d.host.posted [x] (l ++ [p]) } }

/-- The waiting accesses of port `x` go on in order until one is held (DEDUCED, log 59). -/
def Dev.drainPosted (d : Dev) (fz : Fuses) (x : Nat) : List Posted → Dev
  | [] => { d with host := { d.host with posted := ndel d.host.posted [x] } }
  | p :: t =>
    if d.postedHeld x p then { d with host := { d.host with posted := nset d.host.posted [x] (p :: t) } }
    else (d.hostDo fz x p).drainPosted fz x t

/-- PUSH_WRITE_RELEASE: the slot of the held push write has been dequeued (DEDUCED, log 59). -/
def Dev.pushRelease (d : Dev) (fz : Fuses) (x : Nat) : Dev :=
  if d.portRuns x then d.drainPosted fz x (nget [] d.host.posted [x]) else d

/-- A row that writes one register: through the issuer's host port where it has one, behind that port's waiting accesses
(DEDUCED, log 61). -/
def Dev.regRow (d : Dev) (fz : Fuses) (iss : Issuer) (reg : RegName) (idx : List Nat) (v : Nat) : Dev :=
  match descOf reg with
  | none => d
  | some r =>
    match iss with
    | .pf x => d.hostAccess fz x.val 0 (.reg iss reg idx v)
    | .vf x f => d.hostAccess fz x.val f.val (.reg iss reg idx v)
    | _ => d.landWrite fz iss r idx v

/-! ## The indirect window (R122) -/

/-- IND_ACCESS_COMPLETE: the access of port `x`'s window ends as R122's table says, or waits at a stopped island (DESIGN
CHOICE, log 14). -/
def Dev.indComplete (d : Dev) (fz : Fuses) (x : Nat) : Dev :=
  match nget? d.host.ind [x] with
  | none => d
  | some a =>
    if !d.portRuns x then d
    else
      let data := fun (d : Dev) (v : Nat) => if a.write then d else d.setF F.HST_IND_DATA_DATA [x] v
      let bad := (data (d.raise F.HST_PORT_ERR_ACCESS_ERR [x]) 0).indEnd x .reservedOp
      match regAt a.addr with
      | none => bad
      | some (r, idx) =>
        if (if a.size64 then 64 else 32) ≠ r.width then bad
        else if a.write ∧ !d.mayWrite a.iss r.writer r.reg idx then (d.rejectWr a.iss).indEnd x .reservedOp
        else match d.reach r.reg idx with
          | .inReset => (data d 0).indEnd x .unitReset
          | .stopped _ =>
            { d with host := { d.host with ind := ndel d.host.ind [x] }, clk := { d.clk with held := d.clk.held ++ [⟨a.iss, .ind x, a.write, r.reg, idx, a.data⟩] } }
          | .open =>
            if a.write then (d.regWrite fz a.iss r idx a.data).1.indEnd x .ok
            else
              let w := d.regWord r.reg idx
              (w.2.setF F.HST_IND_DATA_DATA [x] w.1).indEnd x .ok

/-! ## Accesses that waited (R58) -/

/-- One access that waited goes on at an island that is no longer stopped (DEDUCED, log 61). -/
def Dev.heldGo (d : Dev) (fz : Fuses) (h : HeldAccess) : Dev :=
  match descOf h.reg with
  | none => d
  | some r =>
    if h.write then
      let w := d.regWrite fz h.iss r h.idx h.value
      w.1.accessEnd h w.2 0
    else if d.reach h.reg h.idx = .inReset then d.accessEnd h .unitReset 0
    else
      let w := d.regWord h.reg h.idx
      w.2.accessEnd h .ok w.1

end Sys2Proof.Machine
end

