-- ==== Sys2Proof/Machine/Telemetry.lean ====
section
/-!
DEFINITION. Telemetry (20): trace buffers (R501), counter sets (R505, R506) and the crow's-nest snapshot (R508–R511).
-/
namespace Sys2Proof.Machine

/-! ## Trace buffers (R501) -/

/-- Bytes of a waiting END record with the fabric time at which it enters the buffer, the tackle's completion (DEDUCED, log
22). -/
def restamp (d : Dev) (l : List Byte) : List Byte :=
  if cb l 4 = 0x42 ∧ cb l 5 = 2 then l.take 16 ++ leBytes 8 d.fabTime ++ l.drop 24 else l

/-- TRACE_BUFFER_ENTER: the oldest record that waits at die `n` enters the buffer once there is room; one whose ring is no
longer armed is discarded. The completion that waited for it goes on. How many island cycles it waited is open (DEDUCED,
logs 22, 68). -/
def Dev.traceEnter (d : Dev) (n : DieNo) : Dev :=
  match pull (fun (x : Nat × Rec × Option (Nat × Nat)) => x.1 == n) d.tel.traceWait with
  | none => d
  | some (x, rest) =>
    let r := x.2.1
    if d.ringArmed r.ring && d.traceFull n then d
    else
      let w := d.freeNum
      let d := ({ w.2 with tel := { w.2.tel with traceWait := rest } } : Dev).addSat F.TRC_STALL_CYCLES [n] w.1
      (if d.ringArmed r.ring then d.tracePut n { r with bytes := restamp d r.bytes } else d.traceDrop n r.ring).traceGoes x.2.2

/-! ## Counter sets (R505, R506) -/

/-- One value of a sample: whether it was captured, and the value. A register that is read at a width not its own, or whose
island does not run, gives 0 (DEDUCED, log 23). -/
def Dev.sampleOf (d : Dev) (a : Nat) (size64 : Bool) : Bool × Nat × Dev :=
  match regAt a with
  | none => (false, 0, d)
  | some (r, idx) =>
    if d.reach r.reg idx ≠ .open then (false, 0, d)
    else if (if size64 then 64 else 32) ≠ r.width then (true, 0, d)
    else
      let w := d.regWord r.reg idx
      (true, w.1, w.2)

/-- A sample of set `k` waits in the Mast (DEDUCED, log 23). -/
def Dev.samplePending (d : Dev) (k : Nat) : Bool := d.host.recs.any (fun r => cb r.bytes 4 == 0x4A && cb r.bytes 5 == k)

/-- COUNTER_SET_SAMPLE of set `k` on a frame start of its period (DEDUCED, log 23). -/
def Dev.counterSample (d : Dev) (k : Nat) : Dev :=
  if !(d.flag F.MST_TEL_CFG_EN [k] && decide (d.clk.phase = .running) && !d.headless
      && d.clk.frame % 2 ^ d.getF F.MST_TEL_CFG_PERIOD_LOG2 [k] == 0) then d
  else
    let seq := (nget 0 d.tel.setSeq [k] + 1) % 2 ^ 32
    let d := { d with tel := { d.tel with setSeq := nput 0 d.tel.setSeq [k] seq } }
    if d.samplePending k then d.incSat F.MST_TEL_SKIPPED_COUNT
    else
      let n := d.getF F.MST_TEL_CFG_COUNT [k]
      let got : List (Bool × Nat) × Dev := (List.range n).foldl (fun (p : List (Bool × Nat) × Dev) i =>
        let x := p.2.sampleOf (p.2.getF F.MST_TEL_ADDR_ADDR [k, i]) (p.2.flag F.MST_TEL_ADDR_SIZE64 [k, i])
        (p.1 ++ [(x.1, x.2.1)], x.2.2)) ([], d)
      let missing := ofOnes ((List.range n).filter (fun i => !(got.1.getD i (true, 0)).1))
      got.2.addRec (d.getF F.MST_TEL_CFG_RING [k])
        (leBytes 4 (32 + 8 * n) ++ leBytes 1 0x4A ++ leBytes 1 k ++ leBytes 2 n ++ leBytes 4 seq ++ leBytes 4 0 ++ leBytes 8 d.fabTime
          ++ leBytes 8 missing ++ got.1.flatMap (fun x => leBytes 8 x.2)) none

/-! ## Entries of a snapshot (R510) -/

/-- One entry: KIND, SOURCE, whether the source's island was stopped, and bytes 4 to 31. -/
def snapEntry (kind src : Nat) (stopped : Bool) (l : List Byte) : List Byte :=
  leBytes 1 kind ++ leBytes 1 (b2n stopped) ++ leBytes 2 src ++ (if stopped then List.replicate 28 0 else l)

/-- Entries that are built one after another over the free values they take. -/
def snapEach {α : Type} (d : Dev) (l : List α) (f : Dev → α → List (List Byte) × Dev) : List (List Byte) × Dev :=
  l.foldl (fun (p : List (List Byte) × Dev) x =>
    let r := f p.2 x
    (p.1 ++ r.1, r.2)) ([], d)

/-- Tackles whose faces die `n` holds, ascending; the Mast holds those of the spanning groups. -/
def faceTackles (n : DieNo) : List Nat := if n = 0 then [0] ++ dieTackles 0 ++ [0x4FFF, 0x5FFF] else dieTackles n

/-- QUEUE entries. Of a halted queue with no head, what describes a head is open (DEDUCED, log 24). -/
def Dev.snapQueue (d : Dev) (t q : Nat) : List (List Byte) × Dev :=
  let halted := d.halted t q
  let stopped := !d.islandOn (tackleIsland t)
  match d.queue t q with
  | [] =>
    if halted then
      let f := d.freeBytes 14
      ([snapEntry 1 t stopped (leBytes 1 q ++ leBytes 1 1 ++ f.1.take 6 ++ leBytes 12 0 ++ f.1.drop 6)], f.2)
    else ([], d)
  | c :: _ =>
    let r := d.headReason t q
    ([snapEntry 1 t stopped (leBytes 1 q ++ leBytes 1 (b2n halted + 2) ++ leBytes 1 (opcode c.bytes) ++ leBytes 1 r.1.code ++ leBytes 4 c.index
      ++ leBytes 4 r.1.arg ++ leBytes 4 r.1.value ++ leBytes 4 r.1.cur ++ leBytes 8 (d.fabTime - c.headAt.getD d.fabTime))], r.2)

/-- Pieces a run's stream has emitted. -/
def Run.emitted (r : Run) : Nat := (r.stream.map (fun s => s.pieces.length)).getD 0

/-- EXEC entries, by slot (DEDUCED, log 24). -/
def Dev.snapExec (d : Dev) (t : Nat) : List (List Byte) :=
  ((List.range 4).filterMap (d.runAt t)).map (fun r =>
    snapEntry 2 t (!d.islandOn (tackleIsland t)) (leBytes 1 r.slot ++ leBytes 1 r.queue ++ leBytes 1 (opcode r.cmd.bytes) ++ leBytes 1 0
      ++ leBytes 4 r.cmd.index ++ leBytes 4 (if r.partsLeft = 0 then r.reqs.countP (fun q => q.status.isNone) else r.partsLeft)
      ++ leBytes 4 r.emitted ++ leBytes 4 0 ++ leBytes 8 (d.fabTime - r.startAt)))

/-- The LINK entry of an enabled port. -/
def Dev.snapLink (d : Dev) (k : Nat × Nat) : List (List Byte) :=
  if d.flag F.PRT_PORT_CFG_EN [k.1, k.2] then
    let l := d.link k
    let fl := d.getF F.PRT_PORT_STAT_UP [k.1, k.2] + 2 * b2n l.nakOut.isSome + 4 * d.getF F.PRT_PORT_STAT_REEFED [k.1, k.2]
    [snapEntry 3 (portTackle k) (!d.islandOn (tackleIsland (portTackle k))) (leBytes 1 fl ++ leBytes 1 (d.getF F.PRT_PORT_STAT_LIVE_TX [k.1, k.2])
      ++ leBytes 2 l.replay.length ++ leBytes 2 (d.credits k 0) ++ leBytes 2 (d.credits k 1) ++ leBytes 2 (d.credits k 2) ++ leBytes 2 (d.credits k 3)
      ++ leBytes 2 (d.getF F.PRT_LNK_STAT_TX_NEXT [k.1, k.2]) ++ leBytes 2 (d.getF F.PRT_LNK_STAT_RX_EXPECT [k.1, k.2]) ++ leBytes 4 0
      ++ leBytes 8 (d.clk.now - l.ackAt))]
  else []

/-- The packet at the head of an egress queue: the one it would send, else the oldest of its first sub-queue in use. -/
def Dev.snapHead (d : Dev) (k : Nat × Nat) (q : Nat) : Option (EDesc × Flight) :=
  match d.queueHead k q with
  | some x => some x
  | none => (((d.link k).queue q).head?).bind (fun e => (d.flight e.flight).map (fun f => (e, f)))

/-- What blocks an egress head: BLOCK codes 1 gate, 2 shaper, 3 credits, 4 TC0 reserve, 5 port down (DEDUCED, log 24). -/
def Dev.blocks (d : Dev) (k : Nat × Nat) (q : Nat) (e : EDesc) (f : Flight) : List Nat :=
  let len := d.charge k f.hdr.size
  (if d.gateAdmits k f 0 0 then [] else [1])
    ++ (if d.shaperOk k q len && d.shaperOk k (16 + f.hdr.tc) len then [] else [2])
    ++ (if d.creditOk k f e.vc then [] else if flitsOf f.hdr.size ≤ d.spare k e.vc then [4] else [3])
    ++ (if d.portUp k then [] else [5])

/-- The EGRESS entry of a queue that is not empty; of several codes, a free number picks (DEDUCED, log 24). -/
def Dev.snapEgress (d : Dev) (k : Nat × Nat) (q : Nat) : List (List Byte) × Dev :=
  match d.snapHead k q with
  | none => ([], d)
  | some (e, f) =>
    let b := d.blocks k q e f
    let w := if b.length ≤ 1 then (0, d) else d.freeNum
    ([snapEntry 4 (portTackle k) (!d.islandOn (tackleIsland (portTackle k))) (leBytes 1 q ++ leBytes 1 (b.getD (w.1 % max 1 b.length) 0) ++ leBytes 1 e.vc
      ++ leBytes 1 f.hdr.tc ++ leBytes 4 (d.queueDepth k q) ++ leBytes 4 ((d.link k).queue q).length ++ leBytes 4 f.hdr.flow ++ leBytes 4 0
      ++ leBytes 8 ((d.clk.frame - f.admitted) * frameUnits))], w.2)

/-- The POOL entry of a yard and admission class. -/
def Dev.snapPool (d : Dev) (y c : Nat) : List Byte :=
  let waits := nget [] d.net.waits [y, c]
  let age := match waits.head?.bind d.flight with
    | some f => (d.clk.frame - f.admitted) * frameUnits
    | none => 0
  snapEntry 5 (0x20FF + 256 * y) (!d.islandOn (faultIsland (1 + y))) (leBytes 1 c ++ leBytes 3 0 ++ leBytes 4 (d.sharedFree y) ++ leBytes 4 (d.reserveFree y c)
    ++ leBytes 4 waits.length ++ leBytes 4 (d.largeFree y) ++ leBytes 8 age)

/-- What chunk `n` waits for: STAGE, WAIT, the contributors missing, and when it was granted, where it was (DEDUCED, log 24). -/
def Dev.collWait (d : Dev) (x : Ctx) (n y : Nat) : Nat × Nat × Nat × Option Nat :=
  let c := x.chunk n
  let low := ((cdStages x.desc).head?).getD 0
  if !x.started then (low, 7, 0, none)
  else if c.result.isSome then (4, 4, 0, (c.rets.head?.map (·.2.1)).or (c.ups.head?.map (·.grantAt)))
  else match c.outs.head? with
    | some o => (o.stage, 3, 0, (c.ups.find? (fun u => u.stage == o.stage)).map (·.grantAt))
    | none => match c.ups.head? with
      | some u => (u.stage, 2, ofOnes ((contributors x.desc u.stage).filter (fun i => !u.whole x.desc i)), some u.grantAt)
      | none => match c.rets.head? with
        | some r => (4, 5, 0, some r.2.1)
        | none => match (cdStages x.desc).find? (fun s => d.upFor x s n && decide (nget (cdFirst x.desc) x.nextUp [s, y] ≤ n)) with
          | some s => (s, if d.flag F.YRD_COLL_STAT_PROM_STOP [y] then 6 else 1, 0, none)
          | none => (4, 5, 0, none)

/-- The COLL entry of context `id` in yard `y`, when a chunk there is unfinished. Slots at the down path, and an age before any
grant, are open (DEDUCED, log 24). -/
def Dev.snapColl (d : Dev) (id y : Nat) : List (List Byte) × Dev :=
  match d.ctx id with
  | none => ([], d)
  | some x =>
    match firstFrom (fun n => x.yardOf n == y && (x.chunk n).fin.isNone) (cdCount x.desc) (cdFirst x.desc) with
    | none => ([], d)
    | some n =>
      let w := d.collWait x n y
      let s := w.1
      let f := d.freeBytes 12
      let slots := if s = 4 then f.1.take 4
        else leBytes 2 (cdUpSlots x.desc s - x.usedUp s y) ++ leBytes 2 (cdRetSlots x.desc s - x.usedRet s y)
      let age := match w.2.2.2 with | some g => leBytes 8 ((d.clk.frame - g) * frameUnits) | none => f.1.drop 4
      ([snapEntry 6 (0x2020 + 256 * y) (!d.islandOn (tackleIsland (0x2020 + 256 * y))) (leBytes 2 id ++ leBytes 1 s ++ leBytes 1 w.2.1 ++ leBytes 4 n
        ++ leBytes 8 w.2.2.1 ++ slots ++ age)], f.2)

/-- Units that have a record waiting for ring `id`: tackles, dies and the Mast's own. -/
def Dev.ringProducers (d : Dev) (id : Nat) : Nat :=
  let r := (d.host.recs.filter (fun r => r.ring == id && d.recBlocked r)).map (fun r => r.owner)
  let t := (d.tel.traceBuf.filter (fun r => r.2.ring == id && d.recBlocked r.2)).map (·.1)
  r.dedup.length + t.dedup.length

/-- The RING entry of an armed record ring. -/
def Dev.snapRing (d : Dev) (i : List Nat) : List (List Byte) :=
  if d.getF F.HST_RR_STAT_STATE i = 1 then
    let id := 512 * ix i 0 + 16 * ix i 1 + ix i 2
    [snapEntry 7 0x1000 (!d.islandOn 5) (leBytes 2 id ++ leBytes 1 1 ++ leBytes 1 (d.ringProducers id) ++ leBytes 4 (d.getF F.HST_RR_COUNT_PRODUCED i)
      ++ leBytes 4 (d.getF F.HST_RR_COUNT_RELEASED i) ++ leBytes 4 (d.rrBytes i) ++ leBytes 4 0
      ++ leBytes 8 (d.fabTime - nget 0 d.host.relAt i))]
  else []

/-- The COUNTERS entries of a sequencer (DEDUCED, log 24). -/
def Dev.snapCounters (d : Dev) (s : Nat) : List (List Byte) :=
  [0, 4, 8, 12].map (fun b => snapEntry 8 s (!d.islandOn (tackleIsland s))
    (leBytes 1 b ++ leBytes 3 0 ++ (List.range 4).flatMap (fun i => leBytes 4 (d.ctr s (b + i))) ++ leBytes 8 0))

/-- The entries of die `n`, in KIND order, then by SOURCE. -/
def Dev.snapDie (d : Dev) (n : DieNo) : List (List Byte) × Dev :=
  let ts := faceTackles n
  let a := snapEach d (ts.flatMap (fun t => (List.range 4).map (fun q => (t, q)))) (fun d x => d.snapQueue x.1 x.2)
  let e := ts.flatMap d.snapExec
  let ports := if 5 ≤ n ∧ n ≤ 12 then (List.range 32).map (fun e => (n - 5, e)) else []
  let links := ports.flatMap d.snapLink
  let b := snapEach a.2 (ports.flatMap (fun k => (List.range 16).map (fun q => (k, q)))) (fun d x => d.snapEgress x.1 x.2)
  let yards := if 1 ≤ n ∧ n ≤ 4 then [n - 1] else []
  let pools := yards.flatMap (fun y => (List.range 5).map (d.snapPool y))
  let c := snapEach b.2 (yards.flatMap (fun y => d.coll.ctxs.map (fun p => (ix p.1 0, y)))) (fun d x => d.snapColl x.1 x.2)
  let rings := if n = 0 then (List.range 4).flatMap (fun x => (List.range 17).flatMap (fun f => (List.range 16).flatMap (fun q => d.snapRing [x, f, q]))) else []
  let ctrs := (ts.filter (fun t => isSequencer t && !d.unitOut t)).flatMap d.snapCounters
  (a.1 ++ e ++ links ++ b.1 ++ pools ++ c.1 ++ rings ++ ctrs, c.2)

/-! ## The snapshot (R508–R511) -/

/-- SNAP_TRIGGER_AT: fabric time has reached MST_SNAP_AT. -/
def Dev.snapAt (d : Dev) : Dev :=
  if d.flag F.MST_SNAP_CTRL_AT_EN && decide (d.getF F.MST_SNAP_AT_TIME ≤ d.fabTime) && !d.headless then (d.clear F.MST_SNAP_CTRL_AT_EN).snapTrigger else d

/-- SNAP_CUT: the first frame start after the trigger. With HALT_ALL every tackle's queues halt and every EPOCH steps
(DEDUCED, log 24). -/
def Dev.snapCut (d : Dev) : Dev :=
  if d.tel.snapPending && !d.headless then
    let p := snapEach d ((List.range 25).filter d.dieOk) (fun d n => d.snapDie n)
    let d := p.2
    let d := { d with tel := { d.tel with snapPending := false, snapEntries := p.1.take 65536, snapPart := 0, snapTrunc := decide (65536 < p.1.length) } }
    let d := ((d.raise F.MST_SNAP_STAT_BUSY).addWrap F.MST_SNAP_STAT_SNAPS [] 1).setF F.MST_SNAP_TIME_TIME [] d.fabTime
    if d.flag F.MST_SNAP_CTRL_HALT_ALL then allTackles.foldl (fun d t => (d.setF F.TCK_STAT_HALTED [t] 15).bumpEpoch t) d else d
  else d

/-- A snapshot record is not yet written. -/
def Dev.snapWaits (d : Dev) : Bool := d.host.recs.any (fun r => cb r.bytes 4 == 0x46)

/-- SNAP_COLLECT: the next record of up to 64 entries goes to its ring; once the last is written, BUSY clears (DEDUCED, log
24). -/
def Dev.snapCollect (d : Dev) : Dev :=
  if !d.flag F.MST_SNAP_STAT_BUSY || d.headless then d
  else if d.tel.snapEntries.isEmpty then (if d.snapWaits then d else d.clear F.MST_SNAP_STAT_BUSY)
  else
    let l := d.tel.snapEntries.take 64
    let rest := d.tel.snapEntries.drop 64
    let last := rest.isEmpty
    let trunc := last && d.tel.snapTrunc
    let rec_ := leBytes 4 (32 + 32 * l.length) ++ leBytes 1 0x46 ++ leBytes 1 (b2n last + 2 * b2n trunc) ++ leBytes 2 (d.getF F.MST_SNAP_STAT_SNAPS)
      ++ leBytes 4 d.tel.snapPart ++ leBytes 4 l.length ++ leBytes 8 (d.getF F.MST_SNAP_TIME_TIME) ++ leBytes 8 0 ++ l.flatten
    let d := d.addRec (d.getF F.MST_SNAP_CTRL_RING) rec_ none
    let d := { d with tel := { d.tel with snapEntries := rest, snapPart := d.tel.snapPart + 1 } }
    if trunc then d.raise F.MST_SNAP_STAT_TRUNC else d

end Sys2Proof.Machine
end

