-- ==== Sys2Proof/Machine/Events.lean ====
section
/-!
DEFINITION. Steps of fabric time and the events scheduled by it (R65): gate list takeovers, congestion snapshots, the run anchor and
the device snapshot.
-/
namespace Sys2Proof.Machine

/-- An event that fabric time starts. -/
inductive TimedEvent where
  | takeover (p e : Nat) | congestion (p : Nat) | anchor | snapshot
  deriving DecidableEq, Repr

/-- Insert an event in order of time, before those of its own time. -/
def insEvent (x : Nat × TimedEvent) : List (Nat × TimedEvent) → List (Nat × TimedEvent)
  | [] => [x]
  | y :: t => if x.1 ≤ y.1 then x :: y :: t else y :: insEvent x t

/-- Every event that is scheduled, with its time. -/
def Dev.scheduled (d : Dev) : List (Nat × TimedEvent) :=
  ((List.range 8).flatMap (fun p => ((List.range 32).filter (fun e => d.flag F.PRT_SCH_STAT_PENDING [p, e])).map (fun e =>
      (d.getF F.PRT_GATE_AT_TIME [p, e], .takeover p e))))
    ++ ((List.range 8).filter (fun p => d.flag F.PRT_CMAP_CTRL_SNAP_AT_EN [p])).map (fun p => (d.getF F.PRT_CMAP_AT_TIME [p], .congestion p))
    ++ (if d.anchorHolds && d.flag F.MST_DET_CTRL_ANCHOR_EN then [(d.getF F.MST_DET_ANCHOR_ANCHOR, .anchor)] else [])
    ++ (if d.flag F.MST_SNAP_CTRL_AT_EN then [(d.getF F.MST_SNAP_AT_TIME, .snapshot)] else [])

/-- The scheduled events whose time has passed, in order of their times (R65) (DEDUCED, log 81). -/
def Dev.passed (d : Dev) : List (Nat × TimedEvent) := (d.scheduled.filter (fun x => decide (x.1 ≤ d.fabTime))).foldr insEvent []

/-- A scheduled event takes effect. -/
def Dev.timed (d : Dev) : TimedEvent → Dev
  | .takeover p e => d.gateTakeover (p, e)
  | .congestion p => d.cmapSnapshot p
  | .anchor => d.anchorRelease
  | .snapshot => d.snapAt

/-- After a forward step from `was`, the events now passed take effect at the step; after a backward one they wait (R65). -/
def Dev.afterStep (d : Dev) (was : Nat) : Dev :=
  let k := (d.fabTime + 2 ^ 64 - was % 2 ^ 64) % 2 ^ 64
  if 0 < k ∧ k < 2 ^ 63 then d.passed.foldl (fun d x => d.timed x.2) d else d

end Sys2Proof.Machine
end

