-- ==== Sys2Proof/Machine/Jtag.lean ====
section
/-!
DEFINITION. The JTAG port (R512–R514), and accesses that waited at a stopped island (R58). A row of the port is one scan:
its instruction is in the instruction register, and its data register is captured, shifted out and updated.
-/
namespace Sys2Proof.Machine

/-- The `w` bits of a number, least significant first. -/
def bitsOut (w n : Nat) : List Bool := (List.range w).map (bit n)

/-- Debug is closed (R112). -/
def Fuses.closed (z : Fuses) : Bool := z.debugClosed

/-- Put a code in the instruction register. -/
def Dev.jtagIr (d : Dev) (c : Nat) : Dev := { d with jtag := { d.jtag with ir := c } }

/-- A scan through the bypass register, which captures 0: the bits come out one place late (IEEE 1149.1) (PRESUMED, log 25). -/
def Dev.bypass (d : Dev) (l : List Bool) : Dev := d.emit (.jtag ((false :: l).take l.length))

/-- CLAMP, HIGHZ and BYPASS. -/
def Dev.jtagBypass (d : Dev) (c : Nat) (l : List Bool) : Dev := (d.jtagIr c).bypass l

/-- EXTEST and SAMPLE/PRELOAD: the cells capture what stands at the lands, which is open, and take the bits shifted in
(PRESUMED, log 25). -/
def Dev.boundary (d : Dev) (c : Nat) (l : List Bool) : Dev :=
  let w := d.freeNum
  let d := (w.2.jtagIr c).emit (.jtag (bitsOut l.length w.1))
  { d with jtag := { d.jtag with cells := l } }

/-- IDCODE: version 1, part 0x2500, the manufacturer's identity, 1 (PRESUMED, log 25). -/
def idcode : Nat := 0x1 * 2 ^ 28 + 0x2500 * 2 ^ 12 + Config.jep106 % 2 ^ 11 * 2 + 1

/-- JTAG_IDCODE. -/
def Dev.jtagId (d : Dev) : Dev := (d.jtagIr 2).emit (.jtag (bitsOut 32 idcode))

/-- What the 120-bit register captures: the read result, STATUS and BUSY; its other bits are open (PRESUMED, log 25). -/
def Dev.jtagCapture (d : Dev) : Dev :=
  let w := d.freeNum
  w.2.emit (.jtag (bitsOut 64 d.jtag.data ++ bitsOut 40 w.1 ++ bitsOut 8 d.jtag.status ++ [d.jtag.busy] ++ bitsOut 7 (w.1 / 2 ^ 40)))

/-- The access register's access completes (DEDUCED, log 26). -/
def Dev.jtagEnd (d : Dev) (st : Status) (v : Nat) (write : Bool) : Dev :=
  { d with jtag := { d.jtag with busy := false, access := none, status := st.code, data := if write then d.jtag.data else v } }

/-- A register access with Plan rights: as through the indirect window (R122, R513) (DESIGN CHOICE, log 14; DEDUCED, log 26). -/
def Dev.jtagReg (d : Dev) (fz : Fuses) (addr data : Nat) (write size64 : Bool) : Dev :=
  match regAt addr with
  | none => d.jtagEnd .reservedOp 0 write
  | some (r, idx) =>
    if (if size64 then 64 else 32) ≠ r.width then d.jtagEnd .reservedOp 0 write
    else if write ∧ !d.mayWrite .jtag r.writer r.reg idx then d.jtagEnd .reservedOp 0 write
    else match d.reach r.reg idx with
      | .inReset => d.jtagEnd .unitReset 0 write
      | .stopped _ => { d with clk := { d.clk with held := d.clk.held ++ [⟨.jtag, .jtag, write, r.reg, idx, data⟩] } }
      | .open =>
        if write then
          let w := d.regWrite fz .jtag r idx data
          w.1.jtagEnd w.2 0 true
        else
          let w := d.regWord r.reg idx
          w.2.jtagEnd .ok w.1 false

/-- The places that MEM_ACCESS reaches: stacked memory and banks. -/
def memPlace : Place → Bool
  | .stack _ => true
  | .sail _ _ => true
  | .base _ _ => true
  | _ => false

/-- A place takes a JTAG write: stacked memory, or a bank that no one owns. -/
def Dev.jtagOwns (d : Dev) : Place → Bool
  | .stack _ => true
  | .sail s b => d.bankOwner true s b == 0xFF
  | .base n b => d.bankOwner false n b == 0xFF
  | _ => false

/-- A memory access whose island is not stopped: RESERVED_OP elsewhere than memory, UNIT_RESET where it cannot be served,
OWNER for a write to a bank that is owned (DEDUCED, log 26). -/
def Dev.jtagMemDo (d : Dev) (a : IndAcc) : Dev :=
  let n := if a.size64 then 8 else 4
  let ps := placesOf a.addr n
  if ps.isEmpty || !ps.all memPlace then d.jtagEnd .reservedOp 0 a.write
  else if !d.memServed a.addr n then d.jtagEnd .unitReset 0 a.write
  else if a.write then
    if ps.all d.jtagOwns then (((ps.foldl Dev.wake d).write a.addr (leBytes n a.data)).countWrite a.addr n).jtagEnd .ok 0 true
    else d.jtagEnd .owner 0 true
  else
    let r := d.load a.addr n
    r.2.jtagEnd .ok (ofLE r.1) false

/-- A memory access waits while an island on its way is stopped (DEDUCED, log 26). -/
def Dev.jtagMem (d : Dev) (a : IndAcc) : Dev :=
  if (d.memStopped a.addr (if a.size64 then 8 else 4)).isSome then { d with jtag := { d.jtag with access := some a } } else d.jtagMemDo a

/-- JTAG_REG_ACCESS and JTAG_MEM_ACCESS with 120 bits shifted in: the register is captured, and Update-DR starts the access
unless one is in progress. After closure the code selects BYPASS. In power-on reset there is no access (R94) (DEDUCED, log 26). -/
def Dev.jtagAccess (d : Dev) (fz : Fuses) (mem : Bool) (w : Nat) : Dev :=
  if d.clk.phase = .off then d else
  let d := d.jtagIr (if mem then 0x21 else 0x20)
  if fz.closed then d.bypass (bitsOut 120 w)
  else
    let busy := d.jtag.busy
    let d := d.jtagCapture
    if busy then d
    else
      let d := { d with jtag := { d.jtag with busy := true } }
      if mem then d.jtagMem ⟨.jtag, bits w 64 48, bits w 0 64, bit w 112, bit w 113⟩
      else d.jtagReg fz (bits w 64 48) (bits w 0 64) (bit w 112) (bit w 113)

/-- JTAG_TRACE_EXPORT: one word of the export buffer, VALID and FIRST. -/
def Dev.jtagExport (d : Dev) (fz : Fuses) (l : List Bool) : Dev :=
  let d := d.jtagIr 0x22
  if fz.closed then d.bypass l
  else
    match d.tel.exportBuf with
    | [] => d.emit (.jtag (bitsOut 264 0))
    | x :: t => ({ d with tel := { d.tel with exportBuf := t } } : Dev).emit (.jtag (bitsOut 264 (ofLE (x.drop 1) + 2 ^ 256 + cb x 0 * 2 ^ 257)))

/-- JTAG_SCAN: every island but the always-on one stops, until a device reset. What the chains hold is open (PRESUMED, log 25;
DEDUCED, log 26). -/
def Dev.jtagScan (d : Dev) (fz : Fuses) (l : List Bool) : Dev :=
  let d := d.jtagIr 0x30
  if fz.closed then d.bypass l
  else
    let w := d.freeNum
    let d := ((List.range 1519).map (· + 1)).foldl (fun d g => if d.islandOn g then d.stopIsland g else d) w.2
    ({ d with jtag := { d.jtag with scanned := true } } : Dev).emit (.jtag (bitsOut l.length w.1))

/-- TRST_N_ASSERT: the port goes to Test-Logic-Reset, which selects IDCODE, and a register access ends with ABORTED; a write of it
that its register takes afterwards still takes effect (R122). -/
def Dev.trst (d : Dev) : Dev :=
  let d := d.jtagIr 2
  if d.jtag.busy ∧ d.jtag.access.isNone then
    let mine := fun (h : HeldAccess) => h.via == .jtag
    let held := (d.clk.held.filter (fun h => !mine h || h.write)).map (fun h => if mine h then { h with via := .plan } else h)
    ({ d with clk := { d.clk with held := held } } : Dev).jtagEnd .aborted 0 true
  else d

/-- STOPPED_ISLAND_ACCESS_RESUME: what waited at island `g`, which runs again, goes on in order. -/
def Dev.stoppedResume (d : Dev) (fz : Fuses) (g : Nat) : Dev :=
  if d.islandStopped g then d
  else
    let mine := fun (h : HeldAccess) => regIsland h.reg h.idx == g
    let go := d.clk.held.filter mine
    let d := { d with clk := { d.clk with held := d.clk.held.filter (fun h => !mine h) } }
    let d := (go.foldl (fun d h => d.heldGo fz h) d).aperResume g
    match d.jtag.access with
    | some a => if (d.memStopped a.addr (if a.size64 then 8 else 4)).isNone then d.jtagMemDo a else d
    | none => d

end Sys2Proof.Machine
end

