-- ==== Sys2Proof/Machine/Endpoints.lean ====
section
/-!
DEFINITION. Packets at the device's internal endpoints: the sails, base dies, the Mast and the fabric engines (R36, R103,
R192–R198, R354, R389, R392, R440–R442). Each endpoint takes its packets in order of arrival.
-/
namespace Sys2Proof.Machine

/-- Endpoint by number: 0–3 sails, 4–11 base dies, 12 the Mast, 13–20 the fabric receives, 21–24 the yards' capstans. -/
def destOf (n : Nat) : Dest :=
  if n < 4 then .sail n else if n < 12 then .base (n - 4) else if n = 12 then .mast else if n < 21 then .fabric (n - 13) else .capstan (n - 21)

/-- The ENDPOINT field of an internal destination (R34). -/
def Dest.endpoint : Dest → Nat
  | .sail s => 33 + s
  | .base n => 40 + n
  | .mast => 32
  | .fabric _ => 37
  | .capstan y => 48 + y
  | .port _ _ => 0

/-- One place may be the target of a packet at the endpoint (R36). -/
def Dest.takesPlace : Dest → Place → Bool
  | .sail s, .sail t _ => s == t
  | .base n, .stack k => n == k
  | .base n, .base k _ => n == k
  | .mast, .regs => true
  | .fabric _, .stack _ => true
  | .fabric _, .sail _ _ => true
  | .fabric _, .base _ _ => true
  | _, _ => false

/-- `n` bytes at a remote address are a target of the endpoint. -/
def Dest.takes (x : Dest) (a n : Nat) : Bool :=
  let ps := placesOf a (max 1 n)
  decide (a < 2 ^ 48) && !ps.isEmpty && ps.all x.takesPlace

/-- The oldest packet at an endpoint. -/
def Dev.firstAt (d : Dev) (x : Dest) : Option Arrival := d.net.arrivals.find? (fun a => a.at_ == x)

/-- It leaves the endpoint. -/
def Dev.takeArrival (d : Dev) (a : Arrival) : Dev := { d with net := { d.net with arrivals := d.net.arrivals.erase a } }

/-- A request is refused at its endpoint with a REFUSE notice (R36, R235). -/
def Dev.refuseAt (d : Dev) (x : Dest) (h : PktHdr) (st : Status) : Dev := (d.refuse (answerSrc h.flow) h st x.endpoint).echoMark h x.endpoint

/-- A request for a target outside the endpoint's table is discarded, counted and refused with RESERVED_OP (R36). The rule names no
counter of a sail, a base die or the Mast for it (DESIGN CHOICE, log 73). -/
def Dev.refuseTarget (d : Dev) (x : Dest) (h : PktHdr) : Dev := (d.endDrop h .reservedOp).refuseAt x h .reservedOp

/-- A response is discarded and counted: the request that it answers completes with the status of the discard (R36, R235) (DEDUCED,
log 56; DESIGN CHOICE, log 73). -/
def Dev.dropResponse (d : Dev) (x : Dest) (a : Arrival) (st : Status) : Dev :=
  ((d.endDrop a.hdr st).answerDropped a.hdr a.bytes st).echoMark a.hdr x.endpoint

/-- Count an owner drop at the die that holds an address (R354) (DEDUCED, log 57). -/
def Dev.ownerDrop (d : Dev) (a : Nat) : Dev :=
  match place a with
  | .sail s _ => d.incSat F.SAL_OWNER_DROP_COUNT [s]
  | .base n _ => d.incSat F.BSE_OWNER_DROP_COUNT [n]
  | _ => d

/-- A request at a function that is not ready, or for memory in reset, is discarded and counted; it draws UNIT_RESET where it expects an
answer (R103, R110) (DESIGN CHOICE, log 73). -/
def Dev.unready (d : Dev) (x : Dest) (a : Arrival) : Dev :=
  let d := (d.endDrop a.hdr .unitReset).answerFail a.hdr a.bytes .unitReset
  if a.hdr.expects then d else d.echoMark a.hdr x.endpoint

/-- The first packet of a row: those of operation `op` that `want` selects, at an endpoint whose function is ready (R103). -/
def Dev.receive (d : Dev) (x : Dest) (op : Nat) (want : Arrival → Bool) (f : Dev → Arrival → Dev) : Dev :=
  match d.firstAt x with
  | none => d
  | some a =>
    if a.hdr.op ≠ op || !want a then d
    else if !d.endpointReady a.hdr then
      if isResponse op then (d.takeArrival a).dropResponse x a .unitReset else (d.takeArrival a).unready x a
    else f d a

/-- Bytes of the payload. -/
def Arrival.payload (a : Arrival) : List Byte := a.bytes.take a.hdr.len

/-! ## Requests -/

/-- The seal after a payload matches (R197). -/
def Arrival.sealGood (a : Arrival) : Bool :=
  leAt a.bytes a.hdr.len 4 == sealOf a.hdr.coll a.hdr.chunk a.hdr.stage a.hdr.contrib a.payload

/-- PUT_RECEIVE: the payload is written whole where the bank granted it under the owner at its first cell, its seal checked, and PUT_ACK sent where asked (R194, R197, R354,
R355). A PUT into register space is accepted, but no packet holds a right of R118: nothing is written, and the status that
PUT_ACK carries is open (DESIGN CHOICE, log 31; DEDUCED, logs 54, 56). -/
def Dev.putReceive (d : Dev) (x : Dest) : Dev :=
  d.receive x opPUT (fun _ => true) (fun d a =>
    let h := a.hdr
    let ack := fun (d : Dev) (st : Status) => if h.ackReq = 1 then d.putAck h st else d.echoMark h x.endpoint
    if !x.takes h.raddr h.len then (d.takeArrival a).refuseTarget x h
    else if x = .mast then
      let n := d.freeNum
      ack (n.2.takeArrival a) (Status.ofCode (n.1 % 15))
    else if (d.memStopped h.raddr h.len).isSome then d
    else if !d.memServed h.raddr h.len then (d.takeArrival a).unready x a
    else if !a.granted then ((d.takeArrival a).ownerDrop h.raddr).refuseAt x h .owner
    else
      let d := ((d.takeArrival a).store .granted h.raddr a.payload).1
      ack d (if h.sealB = 1 && !a.sealGood then .sealFail else .ok))

/-- A read of register space by a packet: a register's value for a read of exactly its width at its address, else zeros (R5); with
UNIT_RESET in an island in reset; none while the island is stopped (DESIGN CHOICE, log 14; DEDUCED, log 56). -/
def Dev.getReg (d : Dev) (a n : Nat) : Option (Status × List Byte × Dev) :=
  match regAt a with
  | some (r, idx) =>
    if 8 * n = r.width then
      (match d.reach r.reg idx with
       | .inReset => some (.unitReset, [], d)
       | .stopped _ => none
       | .open =>
         let w := d.regWord r.reg idx
         some (.ok, leBytes n w.1, w.2))
    else some (.ok, leBytes n 0, d)
  | none => some (.ok, leBytes n 0, d)

/-- GET_RECEIVE: the bytes read go back as GET_DATA to the landing address (R195) (DEDUCED, log 56). -/
def Dev.getReceive (d : Dev) (x : Dest) : Dev :=
  d.receive x opGET (fun _ => true) (fun d a =>
    let h := a.hdr
    let land := leAt a.bytes 0 8
    let n := leAt a.bytes 8 4
    if !x.takes h.raddr n then (d.takeArrival a).refuseTarget x h
    else if x = .mast then
      match d.getReg h.raddr n with
      | some (st, l, d) => (d.takeArrival a).getData h land st l
      | none => d
    else if (d.memStopped h.raddr n).isSome then d
    else if !d.memServed h.raddr n then (d.takeArrival a).unready x a
    else
      let r := (d.takeArrival a).load h.raddr n
      r.2.getData h land .ok r.1)

/-- Deliver a notice's 32 bytes as a record to the ring of its flow's context; without one it is discarded and counted, under a status
that no rule names (R198) (DEDUCED, log 57; DESIGN CHOICE, log 73). -/
def Dev.noticeRec (d : Dev) (h : PktHdr) (notice : List Byte) : Dev :=
  match (d.flow h.flow).bind (·.ring) with
  | some r => d.addRec r (leBytes 4 40 ++ leBytes 1 0x40 ++ leBytes 3 0 ++ notice) none
  | none =>
    let n := d.freeNum
    n.2.endDrop h (Status.ofCode (n.1 % 15))

/-- A USER notice adds 1 to the counter that the flow's context names (R392). -/
def Dev.noticeCtr (d : Dev) (flow : Nat) : Dev :=
  match (d.flow flow).bind (·.ctr) with
  | some (s, c) => if d.seqAlive s then d.ctrAdd s c 1 else d
  | none => d

/-- Where a notice with RADDR `a` ends at an endpoint (R36, R198, R354). -/
inductive Landing where
  | reserved | wait | unready | owner | record | written
  deriving DecidableEq, Repr

/-- The notice is raised, so that it adds to its flow's counter. -/
def Landing.counts : Landing → Bool
  | .record => true
  | .written => true
  | _ => false

/-- What becomes of a notice's 32 bytes at remote address `a`, where the bank `granted` the write when it took the first cell (R355). -/
def Dev.landing (d : Dev) (x : Dest) (a : Nat) (granted : Bool) : Landing :=
  if a = 0 then .record
  else if !x.takes a 32 then .reserved
  else if x = .mast then .written
  else if (d.memStopped a 32).isSome then .wait
  else if !d.memServed a 32 then .unready
  else if !granted then .owner
  else .written

/-- Write a notice where it lands, or deliver its record; register space takes no write of a packet (DEDUCED, logs 56, 57). -/
def Dev.landNotice (d : Dev) (x : Dest) (h : PktHdr) (l : List Byte) : Dev :=
  if h.raddr = 0 then d.noticeRec h l else if x = .mast then d else (d.store .granted h.raddr l).1

/-- NOTIFY_RECEIVE: the endpoint raises a USER notice with the value (R192, R198, R392) (DEDUCED, log 56). -/
def Dev.notifyReceive (d : Dev) (x : Dest) : Dev :=
  d.receive x opNOTIFY (fun _ => true) (fun d a =>
    let h := a.hdr
    let l := noticeBytes kindUSER 0 (d.addr x.endpoint) h.flow 0 (leAt a.bytes 0 8) d.fabTime
    let held := ((d.flow h.flow).bind (·.ctr)).any (fun c => d.seqStopped c.1)
    match (if held && (d.landing x h.raddr a.granted).counts then Landing.wait else d.landing x h.raddr a.granted) with
    | .wait => d
    | .reserved => (d.takeArrival a).refuseTarget x h
    | .unready => (d.takeArrival a).unready x a
    | .owner => ((d.takeArrival a).ownerDrop h.raddr).refuseAt x h .owner
    | _ => (((d.takeArrival a).noticeCtr h.flow).landNotice x h l).echoMark h x.endpoint)

/-! ## Responses -/

/-- A response with CE reaches its flow's context as an echo (R243). -/
def Dev.ceEcho (d : Dev) (h : PktHdr) : Dev := if h.ce = 1 then d.echoFor h.flow else d

/-- A NOTICE's delivery (DEDUCED, log 57). -/
def Dev.deliverNotice (d : Dev) (x : Dest) (a : Arrival) (first : Dev → Dev) : Dev :=
  let h := a.hdr
  match d.landing x h.raddr a.granted with
  | .wait => d
  | .reserved => (first (d.takeArrival a)).dropResponse x a .reservedOp
  | .unready => (first (d.takeArrival a)).dropResponse x a .unitReset
  | .owner => ((first (d.takeArrival a)).ownerDrop h.raddr).echoMark h x.endpoint
  | _ => ((first (d.takeArrival a)).landNotice x h a.payload).echoMark h x.endpoint

/-- NOTICE_RECEIVE: a notice other than REFUSE; an ECHO reaches the flow's rate control (R198, R243). One of a reserved KIND is delivered
like any other: no rule says what becomes of it (DESIGN CHOICE, log 78). -/
def Dev.noticeReceive (d : Dev) (x : Dest) : Dev :=
  d.receive x opNOTICE (fun a => cb a.bytes 0 != kindREFUSE) (fun d a =>
    d.deliverNotice x a (fun d => if cb a.bytes 0 = kindECHO then (d.echoFor a.hdr.flow).ceEcho a.hdr else d.ceEcho a.hdr))

/-- REFUSE_NOTICE_RECEIVE: the request of a fabric engine that INDEX names completes with the notice's STATUS, and the notice is
delivered (R442). -/
def Dev.refuseReceive (d : Dev) (x : Dest) : Dev :=
  d.receive x opNOTICE (fun a => cb a.bytes 0 == kindREFUSE) (fun d a =>
    d.deliverNotice x a (fun d => (d.answerRefused a.hdr.flow a.bytes (Status.ofCode (cb a.bytes 1))).ceEcho a.hdr))

/-- PUT_ACK_RECEIVE: the answer to a PUT; one that answers nothing is discarded and counted (R111, R389). -/
def Dev.putAckReceive (d : Dev) (x : Dest) : Dev :=
  d.receive x opPUT_ACK (fun _ => true) (fun d a =>
    let h := a.hdr
    match x with
    | .fabric p =>
      let r := ((d.takeArrival a).ceEcho h).answer h.flow h.tag (Status.ofCode h.status)
      (if r.2 then r.1 else r.1.dropSample p 32 h.enc .unitReset).echoMark h 37
    | _ => (d.takeArrival a).dropResponse x a .reservedOp)

/-- A GET of a flow with a tag is outstanding. -/
def Dev.getOpen (d : Dev) (flow tag : Nat) : Bool :=
  d.eng.tck.any (fun t => t.2.runs.any (fun r => r.reqs.any (fun q => q.flow == flow && q.tag == tag && q.op == opGET && q.status.isNone)))

/-- GET_DATA_RECEIVE: the bytes land as fabric receive and the request completes; data that the cleat refuses completes it with
OWNER (R195, R354, R440). -/
def Dev.getDataReceive (d : Dev) (x : Dest) : Dev :=
  d.receive x opGET_DATA (fun _ => true) (fun d a =>
    let h := a.hdr
    let st := Status.ofCode h.status
    match x with
    | .fabric p =>
      let done := fun (d : Dev) (st : Status) => ((d.answer h.flow h.tag st).1.ceEcho h).echoMark h 37
      if !d.getOpen h.flow h.tag then ((((d.takeArrival a).ceEcho h).answer h.flow h.tag st).1.dropSample p 32 h.enc .unitReset).echoMark h 37
      else if st ≠ .ok then done (d.takeArrival a) st
      else if !x.takes h.raddr h.len then (d.takeArrival a).dropResponse x a .reservedOp
      else if (d.memStopped h.raddr h.len).isSome then d
      else if !d.memServed h.raddr h.len then (d.takeArrival a).dropResponse x a .unitReset
      else if !a.granted then done ((d.takeArrival a).ownerDrop h.raddr) .owner
      else done ((d.takeArrival a).store .granted h.raddr a.payload).1 .ok
    | _ => (d.takeArrival a).dropResponse x a .reservedOp)

/-! ## Completion of a GET -/

/-- What a GET has landed, in packet order up to its first failure. -/
def Run.landed (r : Run) : List (Nat × Nat) := (r.reqs.takeWhile (fun q => q.status == some .ok)).map (fun q => (q.land, q.len))

/-- COMMAND_COMPLETE: a GET's result seals reach the digest windows with its completion (R86); they are fed once, and
its packet count in `acc` goes with them (DEDUCED, log 27). -/
def Dev.commandComplete (d : Dev) (t k : Nat) : Dev :=
  match d.runAt t k with
  | some r =>
    if opcode r.cmd.bytes = 0x41 ∧ r.status.isSome ∧ r.partSts.isEmpty ∧ r.acc ≠ [] ∧ !d.flowBusy r.cmd.bytes then
      ((d.feedSeals t r true r.landed).setRun t { r with acc := [] }).complete t k
    else d.complete t k
  | none => d

end Sys2Proof.Machine
end

