-- ==== Sys2Proof/Machine/Plan.lean ====
section
/-!
DEFINITION. The plan engine's commands: PLAN LOAD and DROP (R445–R447), the plan digest (R92), and GATE (R265, R448).
-/
namespace Sys2Proof.Machine

/-! ## Sections and the digest -/

/-- SHA-256 over every section in force, in ascending section number (R92) (DEDUCED, log 29). -/
def Dev.planDigest (d : Dev) : Dev :=
  let h := sha256 (d.eng.sections.flatMap (·.2))
  (List.range 8).foldl (fun d i => d.setF F.MST_PLAN_DIGEST_DIGEST [i] (leAt h (4 * i) 4)) d

/-- A section in force, other than number `n`, has lost its contents, so the digest cannot be computed (R464) (DEDUCED, log
29). -/
def Dev.sectionLost (d : Dev) (n : Option Nat) : Bool := d.eng.sections.any (fun s => some (ix s.1 0) != n && d.broken [9, ix s.1 0])

/-- Entries of a section. -/
def secCount (s : List Byte) : Nat := leAt s 8 4

/-- Register address and value of entry `i`. -/
def secEntry (s : List Byte) (i : Nat) : Nat × Nat := (leAt s (32 + 16 * i) 8, leAt s (40 + 16 * i) 8)

/-- An entry names a register by its own address and width, within the Plan rights (R447). -/
def Dev.entryOk (d : Dev) (hp : Nat) (e : Nat × Nat) : Bool :=
  match regAt (e.1 % 2 ^ 48) with
  | some (r, idx) =>
    decide (e.1 < 2 ^ 49) && r.width == (if bit e.1 48 then 64 else 32) && (bit e.1 48 || decide (e.2 < 2 ^ 32))
      && d.mayWrite (.plan (Fin.ofNat 4 hp)) r.writer r.reg idx
  | none => false

/-- The checks of step 1 (R446, R447). -/
def Dev.sectionOk (d : Dev) (hp : Nat) (s : List Byte) : Bool :=
  let n := secCount s
  leAt s 0 4 == 0x4E414C50 && cb s 4 == 1 && cb s 5 == 0 && decide (1 ≤ n) && decide (n ≤ 65536) && s.length == 32 + 16 * n
    && leAt s 12 20 == 0 && (List.range n).all (fun i => d.entryOk hp (secEntry s i))

/-- The sections in force once `s` replaces the one of its number. -/
def Dev.withSection (d : Dev) (s : List Byte) : NMap (List Byte) := nset d.eng.sections [leAt s 6 2] s

/-- 1,024 sections and 4 MiB of section bytes. -/
def sectionsFit (l : NMap (List Byte)) : Bool := decide (l.length ≤ 1024) && decide ((l.map (fun s => s.2.length)).sum ≤ 4194304)

/-! ## PLAN -/

/-- The command's effect is carried out while the plan engine runs; as it ends, however it ends, the digest is computed anew (R92).
Where a section has lost its contents the digest stays as it was (DEDUCED, log 29). -/
def Dev.planOp (d : Dev) (t k op : Nat) (f : Dev → Run → Dev × Run) : Dev :=
  if d.tckInReset t || !d.tckRuns t then d
  else d.effect t k (· == op) (fun d r =>
    let x := f d r
    (if x.2.status.isSome && !x.1.sectionLost none then x.1.planDigest else x.1, x.2))

/-- One entry's write at the Plan level: whether it waits, and the status when its island is in reset. Claims that it makes are
the command's (DEDUCED, log 29). -/
def Dev.planEntry (d : Dev) (fz : Fuses) (t : Nat) (r : Run) (e : Nat × Nat) : Dev × Option Status :=
  match regAt (e.1 % 2 ^ 48) with
  | none => (d, some .ok)
  | some (g, idx) =>
    match d.reach g.reg idx with
    | .stopped _ => (d, none)
    | .inReset => (d, some .unitReset)
    | .open =>
      let n := d.bank.claims.length
      let d := (d.regWrite fz (.plan (Fin.ofNat 4 r.cmd.hp)) g idx e.2).1
      let mine := (d.bank.claims.drop n).map (fun (c : CleatClaim) => { c with tackle := t, run := some (t, r.cmd.uid) })
      ({ d with bank := { d.bank with claims := d.bank.claims.take n ++ mine } }, some .ok)

/-- The section that a PLAN LOAD has read, as bytes. -/
def Run.section (r : Run) : List Byte := r.acc.map (BitVec.ofNat 8)

/-- PLAN_LOAD: the checks, then one entry each time, then the section in force (R447) (DEDUCED, log 29). -/
def Dev.planLoad (d : Dev) (fz : Fuses) (t k : Nat) : Dev :=
  d.planOp t k 0x60 (fun d r =>
    let l := r.cmd.bytes
    if cbits l 4 0 2 ≠ 0 then (d, r)
    else if r.acc.isEmpty then
      let s := d.load (leAt l 8 6) (leAt l 16 4)
      let d := s.2.feedSeals t r false [(leAt l 8 6, leAt l 16 4)]
      if !d.sectionOk r.cmd.hp s.1 then (d, { r with status := some .reservedOp })
      else if d.sectionLost (some (leAt s.1 6 2)) then (d, { r with status := some .ctrlCheck })
      else if !sectionsFit (d.withSection s.1) then (d, { r with status := some .noSlot })
      else (d, { r with acc := s.1.map (·.toNat), sent := 0 })
    else
      let s := r.section
      if r.sent < secCount s then
        match d.planEntry fz t r (secEntry s r.sent) with
        | (d, none) => (d, r)
        | (d, some .ok) => (d, { r with sent := r.sent + 1 })
        | (d, some st) => (d, { r with status := some st })
      else if d.bank.claims.any (fun c => c.run == some (t, r.cmd.uid)) then (d, r)
      else
        let d := ({ d with eng := { d.eng with sections := d.withSection s } } : Dev).mended [9, leAt s 6 2]
        (d, { r with status := some (if r.lost.isSome then .lost else .ok), detail := r.lost.getD 0 }))

/-- PLAN_DROP: the section leaves force and the digest; registers keep their values (DEDUCED, log 29). -/
def Dev.planDrop (d : Dev) (t k : Nat) : Dev :=
  d.planOp t k 0x60 (fun d r =>
    let l := r.cmd.bytes
    let n := leAt l 6 2
    if cbits l 4 0 2 ≠ 1 then (d, r)
    else if (nget? d.eng.sections [n]).isNone then (d, { r with status := some .noContext })
    else if d.sectionLost (some n) then (d, { r with status := some .ctrlCheck })
    else
      let d := ({ d with eng := { d.eng with sections := ndel d.eng.sections [n] } } : Dev).mended [9, n]
      (d, { r with status := some .ok }))

/-! ## GATE -/

/-- GATE: schedule a takeover of port `PORT`'s gate list `LIST` at fabric time T, under the rules of R265; T is compared with
fabric time at the frame start (DEDUCED, log 34). -/
def Dev.gate (d : Dev) (t k : Nat) : Dev :=
  d.planOp t k 0x61 (fun d r =>
    let l := r.cmd.bytes
    let i := [cb l 4 / 32, cb l 4 % 32]
    let at_ := leAt l 8 8
    if d.sectionLost none then (d, { r with status := some .ctrlCheck })
    else if !d.dieOk (5 + ix i 0) then (d, { r with status := some .reservedOp })
    else if d.islandInReset (regIsland .PRT_SCH_STAT i) then (d, { r with status := some .unitReset })
    else if d.islandStopped (regIsland .PRT_SCH_STAT i) then (d, r)
    else if cbits l 5 0 1 = d.getF F.PRT_SCH_STAT_ACTIVE i then (d, { r with status := some .reservedOp })
    else if at_ < d.fabTime + us 2 then (d.raise F.PRT_SCH_STAT_GATE_STALE i, { r with status := some .stale })
    else
      let d := if d.flag F.PRT_SCH_STAT_PENDING i then d.raise F.PRT_SCH_STAT_GATE_REPLACED i else d
      ((d.setF F.PRT_GATE_AT_TIME i at_).raise F.PRT_SCH_STAT_PENDING i, { r with status := some .ok }))

end Sys2Proof.Machine
end

