-- ==== Sys2Proof/Machine/Vector.lean ====
section
/-!
DEFINITION. The vector engines (R285, R428–R437, R458): VOP, CVT, VRED, UPDATE and ATTN. Values are exact until the one
rounding that each rule names.
-/
namespace Sys2Proof.Machine

/-! ## Reading and writing rows -/

/-- Round one value to an unscaled format: code and counts (R279–R281, R296). -/
def roundTo (fmt : Nat) (sat ftz : Bool) (v : Val) : Nat × Arith :=
  match fpOf fmt with
  | some f => let r := f.round sat ftz v; (r.code, ⟨b2n r.sat, b2n r.flush, false⟩)
  | none => let r := roundInt 32 v; (r.code, ⟨b2n r.sat, 0, false⟩)

/-- Cut a list into blocks of 32. -/
def blocks32 {α : Type} (l : List α) : List (List α) := (List.range (l.length / 32)).map (fun i => (l.drop (32 * i)).take 32)

/-- Pack codes of `w` bits, the first in the lowest bits (R278). -/
def packCodes (w : Nat) (l : List Nat) : List Byte := leBytes (rowBytes l.length w) (l.foldr (fun c n => c + 2 ^ w * n) 0)

/-- The bytes of one row of values in format `fmt`: elements, then scale bytes for an MX format. -/
def rowOut (fmt : Nat) (sat ftz : Bool) (vs : List Val) : List Byte × Arith :=
  if isMx fmt then
    let bs := (blocks32 vs).map (mxBlock fmt sat)
    (packCodes (fmtBits fmt) (bs.flatMap (fun b => b.2.1)) ++ bs.map (fun b => BitVec.ofNat 8 b.1), ⟨(bs.map (fun b => b.2.2)).sum, 0, false⟩)
  else
    let rs := vs.map (roundTo fmt sat ftz)
    (rs.flatMap (fun r => leBytes (fmtBits fmt / 8) r.1), rs.foldl (fun a r => a.add r.2) Arith.zero)

/-- Element indices of a row. -/
def rowIdx (x : Nat × Nat × Nat × (Nat × Nat)) : List (List Nat) :=
  (List.range x.2.2.2.2).map (fun j => [x.2.2.2.1 + j, x.1, x.2.1, x.2.2.1])

/-- Write `f idx` to every selected element of `c`, all values taken before any write; counts of reads come with them. -/
def Dev.writeElems (d : Dev) (t : Nat) (r : Run) (c : Opnd) (s : Sel) (f : List Nat → Val × Arith) : Dev × Run :=
  let l := r.cmd.bytes
  let rows := (selRows s).map (fun x =>
    let vs := (rowIdx x).map f
    let o := rowOut c.fmt (satBit l) (ftzBit l) (vs.map (·.1))
    (o.1, vs.foldl (fun a v => a.add v.2) o.2))
  let dst := c.runs s
  let y := d.storeRuns (r.writer t) dst (rows.flatMap (·.1))
  let z := (y.1.feedSeals t r true dst).noteArith t r (rows.foldl (fun a x => a.add x.2) Arith.zero)
  (z.1, { z.2 with status := some (storeStatus y.2) })

/-- An element as a vector engine reads it: value and counts (DEDUCED, log 18). -/
def Dev.rd (d : Dev) (o : Opnd) (l : List Byte) (idx : List Nat) : Val × Arith :=
  let e := d.elem o (satBit l) (ftzBit l) idx
  (e.v, e.ar)

/-! ## VOP and CVT -/

/-- Two's-complement words from an exact integer value. -/
def valInt : Val → Int
  | .fin n m e => if n then -(rneAt m e 0 : Int) else rneAt m e 0
  | _ => 0

/-- A bitwise operation on 32-bit words. -/
def bitwise (f : Nat → Nat → Nat) (a b : Val) : Val :=
  Val.ofInt (toSigned 32 (f (ofSigned 32 (valInt a)) (ofSigned 32 (valInt b)))) 0

/-- A sub-operation on exact values; `c` is D's element for FMA (R429, R430). -/
def vopVal (sub : Nat) (a b c : Val) : Val :=
  match sub with
  | 0x00 => a
  | 0x01 => a.add b
  | 0x02 => a.sub b
  | 0x03 => a.mul b
  | 0x04 => (a.mul b).add c
  | 0x05 => a.div b
  | 0x06 => a.max b
  | 0x07 => a.min b
  | 0x08 => a.abs
  | 0x09 => a.negate
  | 0x0A => a.sqrt
  | 0x0B => a.rsqrt
  | 0x0C => a.exp
  | 0x0D => a.log
  | 0x0E => a.tanh
  | 0x0F => a.sigmoid
  | 0x10 => a.add b
  | 0x11 => bitwise Nat.land a b
  | 0x12 => bitwise Nat.lor a b
  | _ => bitwise Nat.xor a b

/-- VOP (R428, R429) (DEDUCED, log 20). -/
def Dev.vop (d : Dev) (t k : Nat) : Dev :=
  d.engineOp t k 0x30 (fun d r x s =>
    match x.ops with
    | [a, b, c] =>
      let l := r.cmd.bytes
      let sub := cb l 4
      let imm := cbit l 6 7
      let second := fun (i : List Nat) =>
        if vopUnary sub then (Val.zero, Arith.zero)
        else if imm then
          let e := readElem (ftzBit l) (if vopInt sub then 11 else 0) (leAt l 14 4)
          (e.1, ⟨0, b2n e.2, e.1.isNan⟩)
        else d.rd b l i
      let d' := ((d.noteReads t r (a.runs s)).noteReads t r (if vopUnary sub || imm then [] else b.runs s)).noteReads t r
        (if sub = 4 then c.runs s else [])
      d'.writeElems t r c s (fun i =>
        let p := d.rd a l i
        let q := second i
        let e := if sub = 4 then d.rd c l i else (Val.zero, Arith.zero)
        (vopVal sub p.1 q.1 e.1, (p.2.add q.2).add e.2))
    | _ => (d, r))

/-- CVT (R296, R297, R431) (DEDUCED, log 18). -/
def Dev.cvt (d : Dev) (t k : Nat) : Dev :=
  d.engineOp t k 0x31 (fun d r x s =>
    match x.ops with
    | [a, c] => (d.noteReads t r (a.runs s)).writeElems t r c s (fun i => d.rd a r.cmd.bytes i)
    | _ => (d, r))

/-! ## VRED -/

/-- The index of A whose axis `ax` stands at `j`, for the index `i` of D. -/
def redIdx (ax : Nat) (i : List Nat) (j : Nat) : List Nat := i.take ax ++ [j] ++ (i.drop ax).take (3 - ax)

/-- A reduction of exact values (R432). -/
def redVal (sub : Nat) (vs : List Val) : Val :=
  match sub with
  | 1 => sumVals (vs.map (fun v => v.mul v))
  | 2 => vs.foldl Val.max .nan
  | 3 => vs.foldl Val.min .nan
  | 4 => (vs.map Val.abs).foldl Val.max .nan
  | _ => sumVals vs

/-- The selection of A that a share of D reads: the whole axis. -/
def redSel (ax n : Nat) (s : Sel) : Sel := s.take ax ++ [[(0, n)]] ++ (s.drop ax).take (3 - ax)

/-- VRED (R432). -/
def Dev.vred (d : Dev) (t k : Nat) : Dev :=
  d.engineOp t k 0x32 (fun d r x s =>
    match x.ops with
    | [a, c] =>
      let l := r.cmd.bytes
      let ax := cbits l 4 4 2
      (d.noteReads t r (a.runs (redSel ax (a.n ax) s))).writeElems t r c s (fun i =>
        let vs := (List.range (a.n ax)).map (fun j => d.rd a l (redIdx ax i j))
        (redVal (cbits l 4 0 4) (vs.map (·.1)), vs.foldl (fun z v => z.add v.2) Arith.zero))
    | _ => (d, r))

/-! ## UPDATE -/

/-- One FP32 rounding of UPDATE: the value after it, with its counts added. -/
def step32 (sat ftz : Bool) (a : Arith) (v : Val) : Val × Arith :=
  let r := rnd32 sat ftz v
  (fp32.decode r.1, a.add r.2)

/-- An FP32 scalar of the update block. -/
def ubScalar (ub : List Byte) (o : Nat) : Val := fp32.decode (leAt ub o 4)

/-- sign(c): ±1, 0 for zeros, NaN for NaN (R435). -/
def signVal (c : Val) : Val := if c.isNan then .nan else if c.isZero then .zero else .fin c.neg? 1 0

/-- One element of UPDATE (R435): p′, m1′, m2′ and counts. -/
def updateElem (variant : Nat) (sat ftz : Bool) (ub : List Byte) (g p m1 m2 : Val) (a : Arith) : Val × Val × Val × Arith :=
  let R := step32 sat ftz
  let t1 := R a ((ubScalar ub 24).mul g)
  let x : Val × Val × Val × Arith :=
    if variant = 0 then
      let n1 := R t1.2 (((ubScalar ub 20).mul m1).add t1.1)
      let q := R n1.2 (g.mul g)
      let t2 := R q.2 ((ubScalar ub 32).mul q.1)
      let n2 := R t2.2 (((ubScalar ub 28).mul m2).add t2.1)
      let u1 := R n2.2 (n1.1.mul (ubScalar ub 44))
      let u2 := R u1.2 (n2.1.mul (ubScalar ub 48))
      let s := R u2.2 u2.1.sqrt
      let e := R s.2 (s.1.add (ubScalar ub 36))
      let u := R e.2 (u1.1.div e.1)
      (u.1, n1.1, n2.1, u.2)
    else if variant = 1 then
      let c := R t1.2 (((ubScalar ub 20).mul m1).add t1.1)
      let t2 := R c.2 ((ubScalar ub 32).mul g)
      let n1 := R t2.2 (((ubScalar ub 28).mul m1).add t2.1)
      (signVal c.1, n1.1, m2, n1.2)
    else
      let n1 := R t1.2 (((ubScalar ub 20).mul m1).add t1.1)
      (n1.1, n1.1, m2, n1.2)
  let e := R x.2.2.2 ((ubScalar ub 40).mul p)
  let r := R e.2 (x.1.add e.1)
  let q := R r.2 (((ubScalar ub 16).negate.mul r.1).add p)
  (q.1, x.2.1, x.2.2.1, q.2)

/-- FP32 bytes of values that are FP32 already. -/
def bytes32 (l : List Val) : List Byte := l.flatMap (fun v => leBytes 4 (fp32.round false false v).code)

/-- UPDATE (R433–R435) (DEDUCED, log 20). -/
def Dev.update (d : Dev) (t k : Nat) : Dev :=
  d.engineOp t k 0x33 (fun d r x s =>
    match x.ops, ubOf r.cmd.descs with
    | [g, p, m1, m2], some ub =>
      let l := r.cmd.bytes
      let two := cbits l 4 0 2 == 0
      let outs := (selIdx s).map (fun i =>
        let a := d.rd g l i
        let b := d.rd p l i
        let c := d.rd m1 l i
        let e := if two then d.rd m2 l i else (Val.zero, Arith.zero)
        updateElem (cbits l 4 0 2) (satBit l) (ftzBit l) ub a.1 b.1 c.1 e.1 (((a.2.add b.2).add c.2).add e.2))
      let d := ((d.noteReads t r (g.runs s)).noteReads t r (p.runs s)).noteReads t r (m1.runs s)
      let d := if two then d.noteReads t r (m2.runs s) else d
      let y1 := d.storeRuns (r.writer t) (p.runs s) (bytes32 (outs.map (·.1)))
      let y2 := y1.1.storeRuns (r.writer t) (m1.runs s) (bytes32 (outs.map (fun o => o.2.1)))
      let y3 := if two then y2.1.storeRuns (r.writer t) (m2.runs s) (bytes32 (outs.map (fun o => o.2.2.1))) else (y2.1, true)
      let d := (y3.1.feedSeals t r true (p.runs s)).feedSeals t r true (m1.runs s)
      let d := if two then d.feedSeals t r true (m2.runs s) else d
      let z := d.noteArith t r (outs.foldl (fun a o => a.add o.2.2.2) Arith.zero)
      (z.1, { z.2 with status := some (storeStatus (y1.2 && y2.2 && y3.2)) })
    | _, _ => (d, { r with status := some .reservedOp }))

/-! ## ATTN -/

/-- The triple of R437: m and l as FP32 codes, o as codes of FMT_O, and the counts of its roundings. -/
def attnTriple (fo : Nat) (sat ftz : Bool) (scale : Val) (q : List Val) (ks vs : List (List Val)) : Nat × Nat × List Nat × Arith :=
  let R := step32 sat ftz
  let xs := ks.foldl (fun (x : List Val × Arith) k =>
    let dot := R x.2 (sumVals ((q.zip k).map (fun p => p.1.mul p.2)))
    let y := R dot.2 (scale.mul dot.1)
    (x.1 ++ [y.1], y.2)) ([], Arith.zero)
  let m := xs.1.foldl Val.max .nan
  let nan := fp32.nanCode
  let onan := (roundTo fo sat ftz .nan).1
  if scale.isNan || q.any (·.isNan) || ks.any (fun k => k.any (·.isNan)) || vs.any (fun v => v.any (·.isNan)) || m == .inf false then
    (nan, nan, q.map (fun _ => onan), xs.2)
  else if m = .inf true then ((fp32.round false false m).code, 0, q.map (fun _ => 0), xs.2)
  else
    let es := xs.1.foldl (fun (e : List Val × Arith) x =>
      let df := R e.2 (x.sub m)
      let y := R df.2 df.1.exp
      (e.1 ++ [y.1], y.2)) ([], xs.2)
    let lsum := R es.2 (sumVals es.1)
    let os := (List.range q.length).map (fun i =>
      roundTo fo sat ftz (sumVals ((es.1.zip vs).map (fun p => p.1.mul (p.2.getD i .zero)))))
    ((fp32.round false false m).code, (fp32.round false false lsum.1).code, os.map (·.1), os.foldl (fun a o => a.add o.2) lsum.2)

/-- ATTN (R436, R437, R458). Two are never executed at once on a die: an earlier dispatched one of the same tackle goes
first (DEDUCED, log 20). -/
def Dev.attn (d : Dev) (t k : Nat) : Dev :=
  if (d.tck t).runs.any (fun o => opcode o.cmd.bytes == 0x34 && o.status.isNone
      && ((d.runAt t k).map (fun r => decide (o.cmd.uid < r.cmd.uid))).getD false) then d
  else d.engineOp t k 0x34 (fun d r x _ =>
    match x.ops with
    | [q, kv] =>
      let l := r.cmd.bytes
      let D := leAt l 26 2
      let fo := cbits l 5 0 4
      let qs := (List.range D).map (fun i => d.rd q l [i])
      let row := fun (w tk : Nat) => (List.range D).map (fun i => d.rd kv l [i, tk, w])
      let ts := List.range (leAt l 28 4)
      let ks := ts.map (row 0)
      let vs := ts.map (row 1)
      let z := attnTriple fo (satBit l) (ftzBit l) (bf16.decode (leAt l 6 2)) (qs.map (·.1)) (ks.map (fun k => k.map (·.1))) (vs.map (fun v => v.map (·.1)))
      let ar := ((qs ++ ks.flatten ++ vs.flatten).foldl (fun a v => a.add v.2) z.2.2.2)
      let bytes := leBytes 4 z.1 ++ leBytes 4 z.2.1 ++ z.2.2.1.flatMap (leBytes (fmtBits fo / 8))
      let d := (d.noteReads t r (q.runs [[(0, D)]])).noteReads t r (kv.runs [[(0, D)], [(0, leAt l 28 4)], [(0, 2)]])
      let dst := [(leAt l 20 6, bytes.length)]
      let y := d.storeRuns (r.writer t) dst bytes
      let w := (y.1.feedSeals t r true dst).noteArith t r ar
      (w.1, { w.2 with status := some (storeStatus y.2) })
    | _ => (d, r))

end Sys2Proof.Machine
end

