-- ==== Sys2Proof/Machine/Apply.lean ====
section
/-!
DEFINITION. What takes effect at a frame start after a write: the device's own address (R227) and multicast groups (R238).
-/
namespace Sys2Proof.Machine

/-- FABADDR_APPLY: every port die uses what an accepted write with VALID = 1 put into MST_FABADDR (R227). -/
def Dev.fabaddrApply (d : Dev) : Dev :=
  if d.net.fabDue then
    let a := (d.getF F.MST_FABADDR_HALL, d.getF F.MST_FABADDR_ROW, d.getF F.MST_FABADDR_RACK, d.flag F.MST_FABADDR_VALID)
    { d with net := { d.net with fabDue := false, fabAddr := a } }
  else d

/-- MC_GROUP_APPLY: every yard uses each committed group from this frame start (R238). -/
def Dev.groupsApply (d : Dev) : Dev :=
  { d with net := { d.net with groups := d.net.groupsDue.foldl (fun (m : NMap (List Nat)) (x : List Nat × List Nat) => nset m x.1 x.2) d.net.groups
                               groupsDue := [] } }

/-! ## Time (log 1) -/

/-- The Mast reloads the yards' copies of multicast entries whose check failed from their masters, within the 2 µs that R464 gives it;
a lost Mast reloads none (R476) (DESIGN CHOICE, log 39). -/
def Dev.mcReload (d : Dev) : Dev :=
  if d.headless then d else { d with net := { d.net with broken := d.net.broken.filter (fun k => ix k 0 ≠ 2) } }

/-- One frame of 160 ns passes: frames are counted from time zero on, fabric time runs (R48, R64), and the ECHO notices whose
64 frames end are sent (R196), the digest engine works off its queue (R89), the lanes receive their codewords (R169), the entries of
contexts come to exist (R341), and yards' copies of multicast entries are reloaded (R464) (DESIGN CHOICE, logs 1, 16). -/
def Dev.framePasses (d : Dev) : Dev :=
  let d := { d with clk := { d.clk with now := d.clk.now + frameUnits } }
  if d.clk.phase = .synced ∨ d.clk.phase = .released ∨ d.clk.phase = .running then
    let d := { d with clk := { d.clk with frame := d.clk.frame + 1 } }
    ((if d.clk.fabRun then d.setF F.FAB_TIME_TIME [] (d.fabTime + frameUnits) else d).echoesDue).digFrame.codewordFrame.collFrame.mcReload
  else d

/-! ## Operands of rows -/

/-- Register and indices of an item of the protection set-up (R136). -/
def protReg : ProtReg → RegName × List Nat
  | .key p e i => (.PRT_PKEY, [p.val, e.val, i.val])
  | .queueMap i => (.MST_QMAP, [i.val])
  | .range x => (.MST_PROT_APER, [x.val])

/-- The bank is a sail's. -/
def bankSail : Bank → Bool
  | .sail _ _ => true
  | .base _ _ => false

/-- Number of the bank's sail or stack, and of the bank in it. -/
def bankAt : Bank → Nat × Nat
  | .sail s b => (s.val, b.val)
  | .base n b => (n.val, b.val)

/-- The cleat register of a bank and its indices (R353). -/
def bankCleat (b : Bank) : RegName × List Nat :=
  (if bankSail b then .SAL_CLEAT else .BSE_CLEAT, [(bankAt b).1, (bankAt b).2])

/-- The ingress engine that a source stands for: port engines 0–31 and fabric engines 32–35 of a port die, or a capstan. -/
def sourceKey : Source → Nat × Nat
  | .port p e => (p.val, e.val)
  | .engine p e => (p.val, 32 + e.val)
  | .capstan y c => (8 + y.val, c.val)

/-- Number of a host port's reset (R109). -/
def hostResetCode : HostReset → Nat
  | .perst => 0 | .hot => 1 | .linkDown => 2 | .flr => 3

/-- The word of MST_RST_REQ (R104) (DEDUCED, log 67). -/
def rstReqWord (scope : Nat) (flush : Bool) (key : BitVec 8) (target : BitVec 16) : Nat :=
  scope + 8 * b2n flush + 256 * key.toNat + 65536 * target.toNat

/-- The word of MST_FUSE_PROG (R113). -/
def fuseProgWord (op : Nat) (arg : BitVec 8) (confirm : BitVec 16) : Nat := op + 16 * arg.toNat + 65536 * confirm.toNat

/-- The word of HST_IND_CTRL that starts an access (R122). -/
def indGoWord (write size64 : Bool) : Nat := 1 + 2 * b2n write + 4 * b2n size64


end Sys2Proof.Machine
end

