-- ==== Sys2Proof/WellFormed.lean ====
section
/-!
DEFINITION. Which operands name an event of the hardware: lengths of what arrives, and units that exist. Ranges of unit numbers
are in the operands' types. A command that fails its check is refused as ill formed.
-/
namespace Sys2Proof

/-- A memory write of a host carries up to 512 bytes, the largest payload of one PCIe packet; a read asks for up to 4,096 (R115). -/
def HostAcc.ok : HostAcc → Bool
  | .write l => decide (0 < l.length ∧ l.length ≤ 512)
  | .read n => decide (0 < n ∧ n ≤ 4096)

/-- The access lies inside a window of `size` bytes: one outside every BAR of a function reaches nothing (R120). -/
def HostAcc.inside (a : HostAcc) (off size : Nat) : Bool := a.ok && decide (off + a.len ≤ size)

/-- A rate code, width and mode that a host link can have: 2.5 to 64.0 GT/s, ×1 to ×8, flit mode always at 64.0 GT/s (R115,
R140). -/
def linkOk (rate : BitVec 3) (width : BitVec 4) (flit : Bool) : Bool :=
  decide (rate.toNat ≤ 5) && [1, 2, 4, 8].contains width.toNat && (flit || decide (rate.toNat < 5))

/-- Size of BAR0/1: 32 MiB of the PF, 8 KiB of a VF (R120). -/
def bar0Size (f : Nat) : Nat := if f = 0 then 0x2000000 else 0x2000

/-- Size of the aperture, BAR4/5 of the PF: 64 GiB (R120). -/
def bar4Size : Nat := 0x1000000000

/-- A flit is 256 bytes (R171). -/
def flitOk (flit : List (BitVec 8)) : Bool := decide (flit.length = 256)

/-- A time exchange's block is the 240 payload bytes of its flit (R189). -/
def timexBlockOk (block : List (BitVec 8)) : Bool := decide (block.length = 240)

/-- A capability block is 32 bytes (R155). -/
def capsBlockOk (block : List (BitVec 8)) : Bool := decide (block.length = 32)

/-- At least one of the eleven rails has left tolerance (R540). -/
def railLost (good : BitVec 11) : Bool := good != 0x7FF

/-- A module's vendor name, part number and serial number are 16 bytes each (R487, R490). -/
def identityOk (vendor part serial : List (BitVec 8)) : Bool :=
  decide (vendor.length = 16 ∧ part.length = 16 ∧ serial.length = 16)

/-- The control structure exists (R464). -/
def Ctrl.ok : Ctrl → Bool
  | .corrected n owners => n < 25 && (!owners || n == 0 || 13 ≤ n)
  | .portState p e => p < 8 && e < 32
  | .cell y _ _ => y < 4
  | .freeList y => y < 4
  | .packet n _ _ => n < 25
  | .fairlead p dim c => p < 8 && 1 ≤ dim && dim ≤ 3 && c < 16
  | .gateList p e => p < 8 && e < 32
  | .multicastCopy y g => y < 4 && g < 4096
  | .multicastMaster g => g < 4096
  | .flow f => f < 262144
  | .collective y _ => y < 4
  | .ringSlot x f r _ => x < 4 && f < 17 && r < 32
  | .commandRing x f r => x < 4 && f < 17 && r < 32
  | .recordRing x f q => x < 4 && f < 17 && q < 16
  | .tensorDesc h => h < 65536
  | .collDesc i => i < 65536
  | .flowTemplate k => k < 65536
  | .section_ i => i < 65536
  | .tackle t => Machine.tackleExists t
  | .cleat sail die b => if sail then die < 4 && b < 80 else die < 8 && b < 16
  | .ownerMap o => 16 ≤ o && o < 128
  | .other g => g < 1520

namespace Instr

/-- The operands of a command name an event of the hardware. -/
def wf (i : Instr) : Bool :=
  match i with
  | .registerWrite _ f off acc => acc.inside off (bar0Size f.val)
  | .stoppedIslandAccessResume _ => true
  | .powerOnReset _ => true
  | .resetNPulse => true
  | .resetNRelease _ _ _ => true
  | .brownout good => railLost good
  | .railsGoodRestart _ _ _ => true
  | .sysrefLoss => true
  | .pllLock _ => true
  | .pllTimeout _ => true
  | .hoistSync => true
  | .islandResetRelease _ => true
  | .hoistDone => true
  | .hoistSyncMark _ => true
  | .resetIndicatorAssert _ _ _ => true
  | .islandClockStop _ => true
  | .clkHoldWrite _ _ _ => true
  | .holdLong => true
  | .fabStepWrite _ _ => true
  | .fabricTimeStep => true
  | .timexRequestSend _ _ _ => true
  | .timexRequestReceive _ _ block _ _ => timexBlockOk block
  | .timexReplyReceive _ _ block _ => timexBlockOk block
  | .timexLost _ _ => true
  | .autoStepAlign => true
  | .detAnchorWrite _ _ => true
  | .anchorRelease => true
  | .detClr _ _ => true
  | .secureBoot _ _ => true
  | .recoveryGo _ => true
  | .recoveryWindowWrite _ _ _ => true
  | .functionReady _ => true
  | .stackTrainTest _ _ => true
  | .rstReqDevice _ _ => true
  | .rstReqDie _ _ _ => true
  | .rstReqIsland _ _ _ => true
  | .rstReqTackle _ _ _ _ => true
  | .partialResetRelease => true
  | .hostPortReset _ _ _ => true
  | .raiseSecVer _ _ _ => true
  | .revokeKey _ _ _ => true
  | .debugClose _ _ _ => true
  | .fuseProgDone => true
  | .mstLockWrite _ _ => true
  | .apertureRead _ off n => (HostAcc.read n).inside off bar4Size
  | .apertureWrite _ off bytes => (HostAcc.write bytes).inside off bar4Size
  | .indAccessGo _ _ _ _ => true
  | .indAccessComplete _ => true
  | .indAccessAbort _ _ => true
  | .cmdRingArm _ _ _ _ => true
  | .cmdRingDisarm _ _ _ _ => true
  | .cmdRingCfgWrite _ _ _ _ _ => true
  | .pushWrite _ _ _ off acc => acc.inside off 0x20000
  | .pushWriteRelease _ => true
  | .doorbell _ _ _ _ _ => true
  | .recordRingArm _ _ _ _ => true
  | .recordRingDisarm _ _ _ _ => true
  | .recordRelease _ _ _ _ _ => true
  | .recordWrite _ _ => true
  | .protSetupWrite _ _ _ => true
  | .protDrained => true
  | .portCfgWrite _ _ _ _ => true
  | .laneDetect _ _ => true
  | .laneTrainDone _ _ _ _ _ _ => true
  | .laneLockDone _ _ => true
  | .laneStateTimeout _ _ => true
  | .capsReceive _ _ block _ _ => capsBlockOk block
  | .portUp _ _ _ => true
  | .laneFault _ _ _ => true
  | .laneSelftestDone _ _ _ => true
  | .narrowRetry _ _ => true
  | .laneSetAnnounce _ _ => true
  | .switchPoint _ _ _ => true
  | .rxDrop _ _ _ => true
  | .rxAdd _ _ _ => true
  | .rxDropReq _ _ _ => true
  | .rxReservedCtrl _ _ => true
  | .portLossOfSignal _ _ => true
  | .laneRetrain _ _ _ _ => true
  | .laneSelftestCmd _ _ _ _ => true
  | .laneBitslip _ _ _ _ => true
  | .txeqWrite _ _ _ _ => true
  | .eyeMeasure _ _ _ _ => true
  | .eyeMeasureDone _ _ _ _ _ => true
  | .reefReqSend _ _ _ _ => true
  | .rxReefReq _ _ _ => true
  | .rxReefAck _ _ => true
  | .rxReefNak _ _ => true
  | .reefNoAnswer _ _ => true
  | .reefEntryDone _ _ => true
  | .reefWake _ _ => true
  | .wakeBurstDetect _ _ => true
  | .rxIdleFlit _ _ flit => flitOk flit
  | .rxDataFlit _ _ flit => flitOk flit
  | .rxBadFlit _ _ flit _ => flitOk flit
  | .rxAbortFlit _ _ flit => flitOk flit
  | .rxNakFlit _ _ flit => flitOk flit
  | .rxTimexFlit _ _ flit => flitOk flit
  | .rxReservedFlit _ _ flit => flitOk flit
  | .ackTimeout _ _ => true
  | .portDown _ _ => true
  | .portFlushDone _ _ => true
  | .fairleadEnClear _ _ => true
  | .packetHeadParse _ _ => true
  | .mastPacketDeliver _ => true
  | .admissionGrant _ _ => true
  | .cellWrite _ => true
  | .voidNotice _ => true
  | .resequencerRelease _ _ _ => true
  | .gapTimeout _ _ _ => true
  | .egressFlitSlot _ _ _ => true
  | .cellFree _ _ _ => true
  | .multicastCopyDone _ _ _ => true
  | .leakAuditPass _ => true
  | .poolCfgWrite _ _ _ => true
  | .sprayEpochChange => true
  | .fabaddrApply => true
  | .fairleadCommit _ _ _ _ _ => true
  | .mcGroupCommit _ _ _ => true
  | .mcGroupApply => true
  | .rateDecrease _ => true
  | .rateIncrease _ => true
  | .rateProfileClamp _ _ => true
  | .cmapSample _ => true
  | .cmapSnapshot _ => true
  | .shaperRefill _ _ => true
  | .gateEntryAdvance _ _ => true
  | .gateTakeover _ _ => true
  | .schTcqWrite _ _ _ _ => true
  | .freshWrite _ _ _ _ _ => true
  | .putReceive _ => true
  | .getReceive _ => true
  | .notifyReceive _ => true
  | .noticeReceive _ => true
  | .putAckReceive _ => true
  | .getDataReceive _ => true
  | .refuseNoticeReceive _ => true
  | .flowResponseTimeout _ _ => true
  | .chunkIntake _ => true
  | .grantReceive _ => true
  | .upGrantIssue _ _ _ => true
  | .returnGrantIssue _ _ _ => true
  | .stageComplete _ _ _ => true
  | .stageOutputSend _ _ _ => true
  | .rootFinal _ _ => true
  | .finalCopyDown _ _ _ _ => true
  | .tDelivery _ _ => true
  | .chunkSignal _ _ => true
  | .chunkTimeout _ _ => true
  | .contextEnd _ => true
  | .capstanSelftest _ _ _ => true
  | .capstanSelftestDone _ _ _ => true
  | .capstanSpareSwap _ _ => true
  | .collOvfWrite _ _ _ => true
  | .cleatOwnerWrite _ _ _ => true
  | .cleatClaimResolve _ => true
  | .ownerMapWrite _ _ _ => true
  | .bankRetentionEntry _ => true
  | .bankWake _ => true
  | .stackSelfRefreshEntry _ => true
  | .stackSelfRefreshExit _ => true
  | .stackCaRetry _ _ => true
  | .commandDequeue _ _ => true
  | .commandDispatch _ => true
  | .commandComplete _ _ => true
  | .queueResume _ t _ => Machine.tackleExists t.val
  | .seqCtrWrite _ t _ _ => Machine.tackleExists t.val
  | .nop _ _ => true
  | .fence _ _ => true
  | .wait _ _ => true
  | .waitTimeout _ _ => true
  | .signal _ _ => true
  | .mark _ _ => true
  | .halt _ _ => true
  | .handover _ _ => true
  | .digestOpen _ _ => true
  | .digestRange _ _ => true
  | .digestClose _ _ => true
  | .digestHash _ _ => true
  | .digestWindowClose _ => true
  | .seqload _ _ => true
  | .emit _ _ => true
  | .waitc _ _ => true
  | .skip _ _ => true
  | .inc _ _ => true
  | .clr _ _ => true
  | .end_ _ _ => true
  | .move _ _ => true
  | .gather _ _ => true
  | .scatter _ _ => true
  | .fill _ _ => true
  | .sealchk _ _ => true
  | .mma _ _ => true
  | .gmma _ _ => true
  | .vop _ _ => true
  | .cvt _ _ => true
  | .vred _ _ => true
  | .update _ _ => true
  | .attn _ _ => true
  | .put _ _ => true
  | .get _ _ => true
  | .notify _ _ => true
  | .collOpen _ _ => true
  | .collStart _ _ => true
  | .collAbort _ _ => true
  | .colljoin _ _ => true
  | .planLoad _ _ => true
  | .planDrop _ _ => true
  | .gate _ _ => true
  | .controlCheckError c => c.ok
  | .faultPulseEnd => true
  | .faultPulsedClear _ => true
  | .faultHoldWrite _ _ => true
  | .unitOutOfService _ _ => true
  | .mastLost => true
  | .takeOut => true
  | .haltQueues => true
  | .resumeQueues => true
  | .sidebandScan _ _ => true
  | .moduleInsert _ _ => true
  | .moduleAnswer _ vendor part serial _ _ _ => identityOk vendor part serial
  | .modulePollTimeout _ => true
  | .moduleReady _ => true
  | .moduleReadyTimeout _ => true
  | .moduleRemove _ _ => true
  | .moduleInt _ _ _ => true
  | .laserMinute _ _ => true
  | .biasDriftSample _ bias _ => decide (bias.length = 8)
  | .ledgerHourlyWrite _ => true
  | .opmFlush _ => true
  | .opmDump _ _ => true
  | .opmReinit _ _ _ => true
  | .opmManualWrite _ _ _ => true
  | .opmPassGo _ _ => true
  | .opmPassDone _ _ => true
  | .traceBufferEnter _ => true
  | .counterSetSample _ => true
  | .snapGo _ _ => true
  | .snapAt => true
  | .snapCut => true
  | .snapCollect => true
  | .jtagExtest _ => true
  | .jtagSamplePreload _ => true
  | .jtagIdcode => true
  | .jtagClamp _ => true
  | .jtagHighz _ => true
  | .jtagRegAccess _ => true
  | .jtagMemAccess _ => true
  | .jtagTraceExport _ => true
  | .jtagScan _ => true
  | .jtagBypass _ => true
  | .trstNAssert => true
  | .sailRatioWrite _ _ _ => true
  | .sailRatioRelock _ => true
  | .sensorConversion codes _ _ _ => decide (codes.length = 97)
  | .throttleForceWrite _ _ _ => true
  | .thermistorOpen _ => true
  | .thermistorClose _ => true
  | .thermalTrip _ => true
  | .vddAonFall => true
  | .hostPortResetRelease _ => true
  | .pcieLinkUp _ rate width flit _ => linkOk rate width flit

end Instr
end Sys2Proof
end

