-- ==== Sys2Proof/Machine/ExecBank.lean ====
section
/-!
DEFINITION. The meaning of each command of one family: banks and stacks (14).
-/
namespace Sys2Proof.Machine

/-- CLEAT_OWNER_WRITE (R356): A register write of a bank's OWNER is a claim from the helm host. -/
def execCleatOwnerWrite (iss : Issuer) (b : Bank) (v : BitVec 32) (s : State) : Res :=
  s.upd (fun d => d.regRow s.fuses iss (bankCleat b).1 (bankCleat b).2 v.toNat)

/-- CLEAT_CLAIM_RESOLVE (R357): After the granted writes complete, same-cycle claims resolve by precedence and the winner
sets the owner. -/
def execCleatClaimResolve (b : Bank) (s : State) : Res :=
  s.upd (fun d => d.resolveClaims (bankSail b) (bankAt b).1 (bankAt b).2)

/-- OWNER_MAP_WRITE (R358): A write of MST_OWNER_MAP changes the tackle that an owner id names. -/
def execOwnerMapWrite (iss : Issuer) (o : Fin 112) (v : BitVec 32) (s : State) : Res :=
  s.upd (fun d => d.regRow s.fuses iss RegName.MST_OWNER_MAP [o.val + 16] v.toNat)

/-- BANK_RETENTION_ENTRY (R359): A bank with RET set enters retention once its granted accesses complete. -/
def execBankRetentionEntry (b : Bank) (s : State) : Res :=
  s.upd (fun d => d.bankRetention (bankSail b) (bankAt b).1 (bankAt b).2)

/-- BANK_WAKE (R359): An access wakes a bank from retention and is granted within 2 µs. -/
def execBankWake (b : Bank) (s : State) : Res := s.upd (fun d => d.bankWake (bankSail b) (bankAt b).1 (bankAt b).2)

/-- STACK_SELF_REFRESH_ENTRY (R360): A stack enters self-refresh on request, after IDLE_US idle, or before a die reset. -/
def execStackSelfRefreshEntry (n : Fin 8) (s : State) : Res := s.upd (fun d => d.stackSleep n.val)

/-- STACK_SELF_REFRESH_EXIT (R360): An access starts exit from self-refresh and is served within 3 µs. -/
def execStackSelfRefreshExit (n : Fin 8) (s : State) : Res := s.upd (fun d => d.stackWake n.val)

/-- STACK_CA_RETRY (R349): A command-address parity failure is retried, and the third failure sets CA_FATAL. -/
def execStackCaRetry (n : Fin 8) (ok : Bool) (s : State) : Res := s.upd (fun d => d.stackRetry n.val ok)

end Sys2Proof.Machine
end

