-- ==== Sys2Proof/Machine/ExecClock.lean ====
section
/-!
DEFINITION. The meaning of each command of one family: clocks, fabric time and determinism (02, 03).
-/
namespace Sys2Proof.Machine

/-- REGISTER_WRITE (R7): A write to a register that has no row of its own takes effect under the register's type, lock
and issuer rights. A read of BAR0 answers with the register's value (R5). -/
def execRegisterWrite (x : Fin 4) (f : Fin 17) (off : Nat) (acc : HostAcc) (s : State) : Res :=
  s.updIf (acc.inside off (bar0Size f.val)) (fun d => d.hostAccess s.fuses x.val f.val (.mem f.val 0 off acc))

/-- STOPPED_ISLAND_ACCESS_RESUME (R58): An access held at an island stopped without reset completes when that island's
clock starts again. -/
def execStoppedIslandAccessResume (g : Fin 1520) (s : State) : Res := s.upd (fun d => d.stoppedResume s.fuses g.val)

/-- POWER_ON_RESET (R94): VDD_AON rises through its threshold, the always-on island starts and sets
MST_RST_CAUSE.POWER_ON. -/
def execPowerOnReset (inOrder : Bool) (s : State) : Res := s.upd (fun d => d.powerOn s.fuses inOrder)

/-- RESET_N_PULSE (R95): A low pulse of at least 1 µs on RESET_N causes a device reset. -/
def execResetNPulse (s : State) : Res := s.upd (fun d => d.resetPulse s.fuses)

/-- RESET_N_RELEASE (R95): The always-on island takes the release of RESET_N on a SYSREF edge with all rails good, which
is time zero. -/
def execResetNRelease (sysref : Bool) (helm : Fin 4) (vsail : BitVec 16) (s : State) : Res :=
  if s.dev.clk.phase = .held ∧ s.dev.clk.badStart then .fault .startUndefined
  else s.upd (fun d => d.resetRelease sysref helm.val vsail.toNat)

/-- BROWNOUT (R97): A rail leaves tolerance for 2 µs while RESET_N is high, so the device enters device reset until every
monitor reads good. -/
def execBrownout (good : BitVec 11) (s : State) : Res :=
  s.updIf (railLost good) (fun d => d.brownout s.fuses good.toNat)

/-- RAILS_GOOD_RESTART (R97): After a brownout every monitor reads good again and the device restarts as on a RESET_N
release. -/
def execRailsGoodRestart (sysref : Bool) (helm : Fin 4) (vsail : BitVec 16) (s : State) : Res :=
  s.upd (fun d => d.railsGood sysref helm.val vsail.toNat)

/-- SYSREF_LOSS (R47): SYSREF shows no edge for 64 ns, so the Mast moves to its backup oscillator, stops every island and
raises a fatal fault. The table has no row for the return of its edges: with SYSREF absent, this row is their return (DESIGN
CHOICE, log 69). -/
def execSysrefLoss (s : State) : Res := s.upd (fun d => if d.clk.sysref then d.sysrefLoss else d.sysrefBack)

/-- PLL_LOCK (R61): A die's PLLs lock and the die reports lock to the Mast. -/
def execPllLock (n : Fin 25) (s : State) : Res := s.upd (fun d => d.pllLock n.val)

/-- PLL_TIMEOUT (R62): A die's lock is not seen within 100 µs, so Hoist stops with PLL_TIMEOUT. -/
def execPllTimeout (n : Fin 25) (s : State) : Res := s.upd (fun d => d.pllTimeout n.val)

/-- HOIST_SYNC (R61): At the first frame start after last lock plus 1 µs, HOIST_SYNC resets the frame counters and fabric
time starts at 0. -/
def execHoistSync (s : State) : Res := s.upd (fun d => d.hoistSync)

/-- ISLAND_RESET_RELEASE (R61): At frame 25 the reset of every in-service island is released on one SYSREF edge. -/
def execIslandResetRelease (miss : List (Fin 25 × Nat)) (s : State) : Res :=
  s.upd (fun d => d.islandRelease (miss.map (fun x => (x.1.val, x.2))))

/-- HOIST_DONE (R61): At frame 33 MST_HOIST_STAT.DONE is set and FREE_XING records the free crossings. -/
def execHoistDone (s : State) : Res := s.upd (fun d => d.hoistDone)

/-- HOIST_SYNC_MARK (R63): A periodic HOIST_SYNC mark, every 256th frame, is checked by each die against its frame
counter. -/
def execHoistSyncMark (slips : List (Fin 25)) (s : State) : Res :=
  s.upd (fun d => d.hoistMark (slips.map (fun n => n.val)))

/-- RESET_INDICATOR_ASSERT (R55): A crossing's reset indicator asserts, and the receiving side flushes, completes its
pending requests with UNIT_RESET and discards replies. -/
def execResetIndicatorAssert (n : Fin 25) (g : Fin 1520) (k : Nat) (s : State) : Res :=
  s.upd (fun d => d.resetIndicator n.val g.val k)

/-- ISLAND_CLOCK_STOP (R58): An island that is reefed or changing ratio clears its clock-on bit, finishes the transfers
it has taken and stops. -/
def execIslandClockStop (g : Fin 1520) (s : State) : Res := s.upd (fun d => d.islandStop g.val)

/-- CLK_HOLD_WRITE (R59): A write of MST_CLK_HOLD defers or releases the non-reset stops of the islands it covers. -/
def execClkHoldWrite (iss : Issuer) (i : Fin 48) (v : BitVec 32) (s : State) : Res :=
  s.upd (fun d => d.regRow s.fuses iss RegName.MST_CLK_HOLD [i.val] v.toNat)

/-- HOLD_LONG (R60): A hold bit stays set for more than 10 ms and sets HOLD_LONG. -/
def execHoldLong (s : State) : Res := s.upd (fun d => d.holdLong)

/-- FAB_STEP_WRITE (R72): A write of FAB_STEP from the helm host or PLAN schedules a fabric-time step for the next frame
start. -/
def execFabStepWrite (iss : Issuer) (v : BitVec 64) (s : State) : Res :=
  s.upd (fun d => d.regRow s.fuses iss RegName.FAB_STEP [] v.toNat)

/-- FABRIC_TIME_STEP (R65): At a frame start fabric time steps in every copy, and events whose scheduled time has passed
take effect in time order. -/
def execFabricTimeStep (s : State) : Res := s.upd (fun d => d.timeStep.afterStep d.fabTime)

/-- TIMEX_REQUEST_SEND (R66): A port starts a time exchange, at port up or every 65,536 frames, by sending a TIMEX
REQUEST. -/
def execTimexRequestSend (p : Fin 8) (e : Fin 32) (exch : BitVec 16) (s : State) : Res :=
  s.upd (fun d => d.timexRequest (p.val, e.val) exch.toNat)

/-- TIMEX_REQUEST_RECEIVE (R189): A received TIMEX REQUEST is stamped and answered with a REPLY within 64 codeword
periods. -/
def execTimexRequestReceive (p : Fin 8) (e : Fin 32) (block : List (BitVec 8)) (ago : Fin 64) (sym : Fin 17000) (s : State) :
    Res :=
  s.updIf (timexBlockOk block) (fun d => d.timexReceive (p.val, e.val) block ago.val sym.val)

/-- TIMEX_REPLY_RECEIVE (R66): A received REPLY yields the peer offset and delay, sets DRIFT when the offset moves, and
is accepted from the parent when ALIGNED. -/
def execTimexReplyReceive (p : Fin 8) (e : Fin 32) (block : List (BitVec 8)) (rx : Fin 64 × Fin 17000) (s : State) : Res :=
  s.updIf (timexBlockOk block) (fun d => d.timexReply (p.val, e.val) block rx.1.val rx.2.val)

/-- TIMEX_LOST (R189): A REPLY does not arrive within 4 µs, so the exchange is counted lost and is repeated after 1,024
frames. -/
def execTimexLost (p : Fin 8) (e : Fin 32) (s : State) : Res := s.upd (fun d => d.timexLost (p.val, e.val))

/-- AUTO_STEP_ALIGN (R67): At the next frame start fabric time steps by the first accepted parent offset and ALIGNED is
set. -/
def execAutoStepAlign (s : State) : Res := s.upd (fun d => d.autoStep.afterStep d.fabTime)

/-- DET_ANCHOR_WRITE (R74): A write of MST_DET_ANCHOR or ANCHOR_EN arms, replaces or clears the run anchor that holds
dispatch. -/
def execDetAnchorWrite (iss : Issuer) (v : BitVec 64) (s : State) : Res :=
  s.upd (fun d => d.regRow s.fuses iss RegName.MST_DET_ANCHOR [] v.toNat)

/-- ANCHOR_RELEASE (R74): At the first frame start at or after the anchor, every tackle begins dispatch. -/
def execAnchorRelease (s : State) : Res := s.upd (fun d => d.anchorRelease)

/-- DET_CLR (R93): Writing MST_DET_CTRL.CLR clears the timing-dependent choice counters and first-choice records. -/
def execDetClr (iss : Issuer) (v : BitVec 32) (s : State) : Res :=
  s.upd (fun d => d.regRow s.fuses iss RegName.MST_DET_CTRL [] (v.toNat ||| 0x2))

end Sys2Proof.Machine
end

