-- ==== Sys2Proof/Machine/ExecColl.lean ====
section
/-!
DEFINITION. The meaning of each command of one family: collectives and capstans (12).
-/
namespace Sys2Proof.Machine

/-- CHUNK_INTAKE (R316): A granted CHUNK part is seal-checked and added exactly into its slot. -/
def execChunkIntake (y : Fin 4) (s : State) : Res := s.upd (fun d => d.chunkIntake y.val)

/-- GRANT_RECEIVE (R312): A GRANT arrives and releases the waiting stage output or contribution. -/
def execGrantReceive (y : Fin 4) (s : State) : Res := s.upd (fun d => d.grantReceive y.val)

/-- UP_GRANT_ISSUE (R311): An owner capstan with a free up slot grants the next chunk to every contributor. -/
def execUpGrantIssue (id : Nat) (st : Fin 4) (y : Fin 4) (s : State) : Res :=
  s.upd (fun d => d.upGrant id st.val y.val)

/-- RETURN_GRANT_ISSUE (R313): A participant with a free return slot grants it to the owner. -/
def execReturnGrantIssue (id : Nat) (st : Fin 4) (y : Fin 4) (s : State) : Res :=
  s.upd (fun d => d.returnGrant id st.val y.val)

/-- STAGE_COMPLETE (R324): Every contribution of a stage has been added, and the value is rounded to its wire format. -/
def execStageComplete (id : Nat) (n : Nat) (st : Fin 4) (s : State) : Res :=
  s.upd (fun d => d.stageComplete id n st.val)

/-- STAGE_OUTPUT_SEND (R324): With the next owner's grant, the stage output is sealed and sent, and the slot freed. -/
def execStageOutputSend (id : Nat) (n : Nat) (st : Fin 4) (s : State) : Res :=
  s.upd (fun d => d.stageSend id n st.val)

/-- ROOT_FINAL (R325): At the root the result is rounded once to OUT_FMT, then written, kept for the down path, or taken
from the join. -/
def execRootFinal (id : Nat) (n : Nat) (s : State) : Res := s.upd (fun d => d.rootFinal id n)

/-- FINAL_COPY_DOWN (R326): A holder of a result sends FINAL copies to each participant that granted a return slot. -/
def execFinalCopyDown (id : Nat) (n : Nat) (st : Fin 4) (i : Fin 32) (s : State) : Res :=
  s.upd (fun d => d.copyDown id n st.val i.val)

/-- T_DELIVERY (R327): A holder delivers a chunk's result to its accelerators or local memory. -/
def execTDelivery (id : Nat) (n : Nat) (s : State) : Res := s.upd (fun d => d.tDelivery id n)

/-- CHUNK_SIGNAL (R328): A device that finishes its last role for a chunk raises a notice, record or counter signal. -/
def execChunkSignal (id : Nat) (n : Nat) (s : State) : Res := s.upd (fun d => d.chunkSignal id n)

/-- CHUNK_TIMEOUT (R332): A chunk waits longer than TIMEOUT, checked once per frame, and is abandoned with TIMEOUT. -/
def execChunkTimeout (id : Nat) (n : Nat) (s : State) : Res := s.upd (fun d => d.chunkTimeout id n)

/-- CONTEXT_END (R310): Every chunk of a context has finished on a device, so the context record is written and the
staging returned. -/
def execContextEnd (id : Nat) (s : State) : Res := s.upd (fun d => d.contextEnd id)

/-- CAPSTAN_SELFTEST (R336): After 65,536 stage completions or on RUN, a capstan starts its known-answer test. -/
def execCapstanSelftest (y : Fin 4) (c : Fin 17) (cause : TestCause) (s : State) : Res :=
  match cause with
  | .due => s.upd (fun d => d.selftest y.val c.val)
  | .run iss => s.upd (fun d => d.regRow s.fuses iss RegName.CPS_ST_CTRL [y.val, c.val] 1)

/-- CAPSTAN_SELFTEST_DONE (R336): A known-answer test completes, passing or setting ST_FAIL. -/
def execCapstanSelftestDone (y : Fin 4) (c : Fin 17) (pass : Bool) (s : State) : Res :=
  s.upd (fun d => d.selftestDone y.val c.val pass)

/-- CAPSTAN_SPARE_SWAP (R333): A failed capstan's chunks are abandoned and its logical index moves to the spare or the
next index. -/
def execCapstanSpareSwap (y : Fin 4) (c : Fin 17) (s : State) : Res := s.upd (fun d => d.spareSwap y.val c.val)

/-- COLL_OVF_WRITE (R338): A write of YRD_COLL_OVF sets the overflow region, or is discarded while contexts are open. -/
def execCollOvfWrite (iss : Issuer) (y : Fin 4) (v : BitVec 64) (s : State) : Res :=
  s.upd (fun d => d.regRow s.fuses iss RegName.YRD_COLL_OVF [y.val] v.toNat)

end Sys2Proof.Machine
end

