-- ==== Sys2Proof/Machine/ExecEndpoint.lean ====
section
/-!
DEFINITION. The meaning of each command of one family: packets at their destinations (07, 09).
-/
namespace Sys2Proof.Machine

/-- PUT_RECEIVE (R194): A PUT's payload is written at its destination, its seal checked, and PUT_ACK sent if requested. -/
def execPutReceive (n : Fin 25) (s : State) : Res := s.upd (fun d => d.putReceive (destOf n.val))

/-- GET_RECEIVE (R195): A GET is served and answered with GET_DATA at the landing address. -/
def execGetReceive (n : Fin 25) (s : State) : Res := s.upd (fun d => d.getReceive (destOf n.val))

/-- NOTIFY_RECEIVE (R192): A NOTIFY raises a USER notice at its destination. -/
def execNotifyReceive (n : Fin 25) (s : State) : Res := s.upd (fun d => d.notifyReceive (destOf n.val))

/-- NOTICE_RECEIVE (R198): A NOTICE is written at RADDR or delivered as a record to the flow's ring. -/
def execNoticeReceive (n : Fin 25) (s : State) : Res := s.upd (fun d => d.noticeReceive (destOf n.val))

/-- PUT_ACK_RECEIVE (R389): A PUT_ACK answers an outstanding request of a fabric engine. -/
def execPutAckReceive (n : Fin 25) (s : State) : Res := s.upd (fun d => d.putAckReceive (destOf n.val))

/-- GET_DATA_RECEIVE (R195): GET_DATA lands at its landing address and completes its request. -/
def execGetDataReceive (n : Fin 25) (s : State) : Res := s.upd (fun d => d.getDataReceive (destOf n.val))

/-- REFUSE_NOTICE_RECEIVE (R442): A REFUSE notice completes the named outstanding request with its status. -/
def execRefuseNoticeReceive (n : Fin 25) (s : State) : Res := s.upd (fun d => d.refuseReceive (destOf n.val))

/-- FLOW_RESPONSE_TIMEOUT (R111): A flow's response timer runs out and the unanswered request completes with UNIT_RESET. -/
def execFlowResponseTimeout (f : Fin 262144) (tag : Fin 4096) (s : State) : Res :=
  s.upd (fun d => d.respTimeout f.val tag.val)

end Sys2Proof.Machine
end

