-- ==== Sys2Proof/Machine/ExecEngine.lean ====
section
/-!
DEFINITION. The meaning of each command of one family: engine, fabric, collective and plan commands (16).
-/
namespace Sys2Proof.Machine

/-- MOVE (R419): MOVE copies bytes from SRC to DST. -/
def execMove (t : Fin 65536) (k : Nat) (s : State) : Res := s.upd (fun d => d.move t.val k)

/-- GATHER (R420): GATHER copies stream-addressed pieces of a span into a local region. -/
def execGather (t : Fin 65536) (k : Nat) (s : State) : Res := s.upd (fun d => d.gather t.val k)

/-- SCATTER (R420): SCATTER copies local pieces to stream-addressed places in a span. -/
def execScatter (t : Fin 65536) (k : Nat) (s : State) : Res := s.upd (fun d => d.scatter t.val k)

/-- FILL (R422): FILL writes an 8-byte pattern over a region. -/
def execFill (t : Fin 65536) (k : Nat) (s : State) : Res := s.upd (fun d => d.fill t.val k)

/-- SEALCHK (R423): SEALCHK writes or checks the chunk seals of consecutive pieces. -/
def execSealchk (t : Fin 65536) (k : Nat) (s : State) : Res := s.upd (fun d => d.sealchk t.val k)

/-- MMA (R425): MMA computes D = A·Bᵀ + C on matrix cores. -/
def execMma (t : Fin 65536) (k : Nat) (s : State) : Res := s.upd (fun d => d.mma t.val k)

/-- GMMA (R426): GMMA multiplies resident B by activation pieces that a stream emits. -/
def execGmma (t : Fin 65536) (k : Nat) (s : State) : Res := s.upd (fun d => d.gmma t.val k)

/-- VOP (R428): VOP applies one elementwise sub-operation to N elements. -/
def execVop (t : Fin 65536) (k : Nat) (s : State) : Res := s.upd (fun d => d.vop t.val k)

/-- CVT (R431): CVT converts N elements between formats. -/
def execCvt (t : Fin 65536) (k : Nat) (s : State) : Res := s.upd (fun d => d.cvt t.val k)

/-- VRED (R432): VRED reduces an operand along one axis. -/
def execVred (t : Fin 65536) (k : Nat) (s : State) : Res := s.upd (fun d => d.vred t.val k)

/-- UPDATE (R433): UPDATE applies one optimizer step to N parameters. -/
def execUpdate (t : Fin 65536) (k : Nat) (s : State) : Res := s.upd (fun d => d.update t.val k)

/-- ATTN (R436): ATTN computes one attention triple over cached tokens on every vector engine of its die. -/
def execAttn (t : Fin 65536) (k : Nat) (s : State) : Res := s.upd (fun d => d.attn t.val k)

/-- PUT (R439): PUT sends a source region as PUT packets to a remote address. -/
def execPut (t : Fin 65536) (k : Nat) (s : State) : Res := s.upd (fun d => d.put t.val k)

/-- GET (R440): GET sends read requests whose data lands at LAND. -/
def execGet (t : Fin 65536) (k : Nat) (s : State) : Res := s.upd (fun d => d.get t.val k)

/-- NOTIFY (R441): NOTIFY sends one NOTIFY packet with an 8-byte value. -/
def execNotify (t : Fin 65536) (k : Nat) (s : State) : Res := s.upd (fun d => d.notify t.val k)

/-- COLL_OPEN (R308): COLL OPEN creates a collective context's entries and reserves staging in every yard. -/
def execCollOpen (t : Fin 65536) (k : Nat) (s : State) : Res := s.upd (fun d => d.collOpen t.val k)

/-- COLL_START (R340): COLL START lets a context grant and raises its local chunk limit. -/
def execCollStart (t : Fin 65536) (k : Nat) (s : State) : Res := s.upd (fun d => d.collStart t.val k)

/-- COLL_ABORT (R310): COLL ABORT ends a context at once and abandons its unfinished chunks. -/
def execCollAbort (t : Fin 65536) (k : Nat) (s : State) : Res := s.upd (fun d => d.collAbort t.val k)

/-- COLLJOIN (R309): COLLJOIN contributes a region to an open context as a join slot or ROOT. -/
def execColljoin (t : Fin 65536) (k : Nat) (s : State) : Res := s.upd (fun d => d.colljoin t.val k)

/-- PLAN_LOAD (R447): PLAN LOAD checks a section and applies its register entries, then puts it in force. -/
def execPlanLoad (t : Fin 65536) (k : Nat) (s : State) : Res := s.upd (fun d => d.planLoad s.fuses t.val k)

/-- PLAN_DROP (R447): PLAN DROP removes a section from force and from the plan digest. -/
def execPlanDrop (t : Fin 65536) (k : Nat) (s : State) : Res := s.upd (fun d => d.planDrop t.val k)

/-- GATE (R265): GATE schedules a gate-list takeover at fabric time T, or refuses it. -/
def execGate (t : Fin 65536) (k : Nat) (s : State) : Res := s.upd (fun d => d.gate t.val k)

end Sys2Proof.Machine
end

