-- ==== Sys2Proof/Machine/ExecFault.lean ====
section
/-!
DEFINITION. The meaning of each command of one family: faults and units out of service (18).
-/
namespace Sys2Proof.Machine

/-- CONTROL_CHECK_ERROR (R464): A checked control structure has an error that is corrected or has the uncorrectable
effect stated for it. -/
def execControlCheckError (c : Ctrl) (s : State) : Res := s.updIf (c.ok) (fun d => d.controlCheck c)

/-- FAULT_PULSE_END (R469): At the first frame start at least 2 µs after the pulse began, FAULT_N is released. -/
def execFaultPulseEnd (s : State) : Res := s.upd (fun d => d.pulseEnd)

/-- FAULT_PULSED_CLEAR (R469): Clearing PULSED re-arms FAULT_N. -/
def execFaultPulsedClear (iss : Issuer) (s : State) : Res :=
  s.upd (fun d => d.regRow s.fuses iss RegName.MST_FAULT_STAT [] 1)

/-- FAULT_HOLD_WRITE (R470): A write of MST_FAULT_HOLD asserts or releases FAULT_N. -/
def execFaultHoldWrite (iss : Issuer) (v : BitVec 32) (s : State) : Res :=
  s.upd (fun d => d.regRow s.fuses iss RegName.MST_FAULT_HOLD [] v.toNat)

/-- UNIT_OUT_OF_SERVICE (R472): A unit leaves service, so its islands are held in reset and its commands complete with
UNIT_RESET. -/
def execUnitOutOfService (t : Fin 65536) (cause : OutCause) (s : State) : Res :=
  s.upd (fun d => d.unitOutEvent t.val cause)

/-- MAST_LOST (R475): The Mast is lost, so its islands stop and the device becomes headless. -/
def execMastLost (s : State) : Res := s.upd (fun d => d.mastLost)

/-- TAKE_OUT (R479): A management command takes a unit out of service if its epoch matches. -/
def execTakeOut (s : State) : Res := s.upd (fun d => d.takeOut)

/-- HALT_QUEUES (R479): A management command halts all four queues of a tackle if its epoch matches. -/
def execHaltQueues (s : State) : Res := s.upd (fun d => d.haltQueues)

/-- RESUME_QUEUES (R479): A management command clears HALTED on all four queues of a tackle if its epoch matches. -/
def execResumeQueues (s : State) : Res := s.upd (fun d => d.resumeQueues)

end Sys2Proof.Machine
end

