-- ==== Sys2Proof/Machine/ExecHost.lean ====
section
/-!
DEFINITION. The meaning of each command of one family: host ports, rings and the protection set-up (05).
-/
namespace Sys2Proof.Machine

/-- APERTURE_READ (R121): A BAR4 read reaches device-local memory within the partition's aperture range. -/
def execApertureRead (x : Fin 4) (off : Nat) (n : Nat) (s : State) : Res :=
  s.updIf ((HostAcc.read n).inside off bar4Size) (fun d => d.hostAccess s.fuses x.val 0 (.mem 0 4 off (.read n)))

/-- APERTURE_WRITE (R121): A BAR4 write is checked against the aperture range and bank cleats and is refused whole if any
byte fails. -/
def execApertureWrite (x : Fin 4) (off : Nat) (bytes : List (BitVec 8)) (s : State) : Res :=
  s.updIf ((HostAcc.write bytes).inside off bar4Size) (fun d => d.hostAccess s.fuses x.val 0 (.mem 0 4 off (.write bytes)))

/-- IND_ACCESS_GO (R122): Writing HST_IND_CTRL.GO starts one indirect register read or write. -/
def execIndAccessGo (iss : Issuer) (x : Fin 4) (write : Bool) (size64 : Bool) (s : State) : Res :=
  s.upd (fun d => d.regRow s.fuses iss RegName.HST_IND_CTRL [x.val] (indGoWord write size64))

/-- IND_ACCESS_COMPLETE (R122): An indirect access completes and STATUS holds its outcome. -/
def execIndAccessComplete (x : Fin 4) (s : State) : Res := s.upd (fun d => d.indComplete s.fuses x.val)

/-- IND_ACCESS_ABORT (R122): Writing ABORT ends the indirect access in progress with ABORTED. -/
def execIndAccessAbort (iss : Issuer) (x : Fin 4) (s : State) : Res :=
  s.upd (fun d => d.regRow s.fuses iss RegName.HST_IND_CTRL [x.val] 8)

/-- CMD_RING_ARM (R124): ARM binds a command ring to a work queue of its tackle and allocates its slots. -/
def execCmdRingArm (iss : Issuer) (x : Fin 4) (f : Fin 17) (r : Fin 32) (s : State) : Res :=
  s.upd (fun d => d.regRow s.fuses iss RegName.HST_CR_CTRL [x.val, f.val, r.val] 1)

/-- CMD_RING_DISARM (R128): DISARM moves a command ring to DRAINING until its covered commands are dequeued. -/
def execCmdRingDisarm (iss : Issuer) (x : Fin 4) (f : Fin 17) (r : Fin 32) (s : State) : Res :=
  s.upd (fun d => d.regRow s.fuses iss RegName.HST_CR_CTRL [x.val, f.val, r.val] 2)

/-- CMD_RING_CFG_WRITE (R124): A write of HST_CR_CFG changes IRQ_EN and VECTOR, or leaves bound fields unchanged. -/
def execCmdRingCfgWrite (iss : Issuer) (x : Fin 4) (f : Fin 17) (r : Fin 32) (v : BitVec 32) (s : State) : Res :=
  s.upd (fun d => d.regRow s.fuses iss RegName.HST_CR_CFG [x.val, f.val, r.val] v.toNat)

/-- PUSH_WRITE (R125): A push write places command bytes in a ring slot, and is held while the slot is busy. A read of a push
window returns zero. -/
def execPushWrite (x : Fin 4) (f : Fin 17) (r : Fin 32) (off : Nat) (acc : HostAcc) (s : State) : Res :=
  s.updIf (acc.inside off 0x20000) (fun d => d.hostAccess s.fuses x.val f.val (.mem f.val 2 (r.val * 0x20000 + off) acc))

/-- PUSH_WRITE_RELEASE (R125): A held push write completes once its slot is dequeued, releasing the port's posted-write
path. -/
def execPushWriteRelease (x : Fin 4) (s : State) : Res := s.upd (fun d => d.pushRelease s.fuses x.val)

/-- DOORBELL (R126): A doorbell write hands the covered commands to the bound queue, or is discarded with DB_RANGE. -/
def execDoorbell (iss : Issuer) (x : Fin 4) (f : Fin 17) (r : Fin 32) (producer : BitVec 64) (s : State) : Res :=
  s.upd (fun d => d.regRow s.fuses iss RegName.HST_CR_DB [x.val, f.val, r.val] producer.toNat)

/-- RECORD_RING_ARM (R130): ARM arms a record ring with its pointers restarted at zero, or fails with RESERVED_OP. -/
def execRecordRingArm (iss : Issuer) (x : Fin 4) (f : Fin 17) (q : Fin 16) (s : State) : Res :=
  s.upd (fun d => d.regRow s.fuses iss RegName.HST_RR_CTRL [x.val, f.val, q.val] 1)

/-- RECORD_RING_DISARM (R130): DISARM disarms a record ring at once, and waiting records are discarded. -/
def execRecordRingDisarm (iss : Issuer) (x : Fin 4) (f : Fin 17) (q : Fin 16) (s : State) : Res :=
  s.upd (fun d => d.regRow s.fuses iss RegName.HST_RR_CTRL [x.val, f.val, q.val] 2)

/-- RECORD_RELEASE (R131): A write of RELEASED in HST_RR_COUNT frees ring space for waiting records. -/
def execRecordRelease (iss : Issuer) (x : Fin 4) (f : Fin 17) (q : Fin 16) (v : BitVec 64) (s : State) : Res :=
  s.upd (fun d => d.regRow s.fuses iss RegName.HST_RR_COUNT [x.val, f.val, q.val] v.toNat)

/-- RECORD_WRITE (R129): A record is reserved in a ring and written with its length word last, or discarded if the ring
is not armed. -/
def execRecordWrite (ring : Fin 2048) (src : Fin 26) (s : State) : Res :=
  s.upd (fun d => d.recordWrite s.fuses.debugClosed ring.val src.val)

/-- PROT_SETUP_WRITE (R136): An accepted write to a protection set-up item becomes change g and increments MST_PROT_GEN. -/
def execProtSetupWrite (iss : Issuer) (item : ProtReg) (v : BitVec 32) (s : State) : Res :=
  s.upd (fun d => d.regRow s.fuses iss (protReg item).1 (protReg item).2 v.toNat)

/-- PROT_DRAINED (R136): Every checking unit has taken change g and the old admissions have completed, so
MST_PROT_DRAINED advances. -/
def execProtDrained (s : State) : Res := s.upd (fun d => d.protDrained)

/-- PORT_CFG_WRITE (R150): A write of PRT_PORT_CFG forms, changes or disables a port, or is discarded with CFG_REJECT. -/
def execPortCfgWrite (iss : Issuer) (p : Fin 8) (e : Fin 32) (v : BitVec 32) (s : State) : Res :=
  s.upd (fun d => d.regRow s.fuses iss RegName.PRT_PORT_CFG [p.val, e.val] v.toNat)

end Sys2Proof.Machine
end

