-- ==== Sys2Proof/Machine/ExecLane.lean ====
section
/-!
DEFINITION. The meaning of each command of one family: lanes and ports (06).
-/
namespace Sys2Proof.Machine

/-- LANE_DETECT (R153): A lane detects its peer and enters TRAIN. -/
def execLaneDetect (p : Fin 8) (l : Fin 132) (s : State) : Res := s.upd (fun d => d.laneDetect p.val l.val)

/-- LANE_TRAIN_DONE (R153): Link training and adaptation complete, and the lane enters LOCK. -/
def execLaneTrainDone (p : Fin 8) (l : Fin 132) (taps : BitVec 30) (ctle : BitVec 5) (gain : BitVec 5) (precode : Bool) (s : State) : Res :=
  s.upd (fun d => d.trainDone p.val l.val taps.toNat ctle.toNat gain.toNat precode)

/-- LANE_LOCK_DONE (R154): The codeword boundary is found and deskew completes, and the lane enters CAPS. -/
def execLaneLockDone (p : Fin 8) (found : LaneFound) (s : State) : Res :=
  s.upd (fun d => d.lockDone p.val found.lane.val found.slip.val)

/-- LANE_STATE_TIMEOUT (R153): A lane exceeds its time in a state and retries from DETECT, entering SELFTEST after the
third retry. -/
def execLaneStateTimeout (p : Fin 8) (l : Fin 132) (s : State) : Res := s.upd (fun d => d.laneTimeout p.val l.val)

/-- CAPS_RECEIVE (R156): A received capability block is stored and accepted, or the lane enters MISMATCH. -/
def execCapsReceive (p : Fin 8) (l : Fin 132) (block : List (BitVec 8)) (ack : Bool) (phaseOk : Bool) (s : State) : Res :=
  s.updIf (capsBlockOk block) (fun d => d.capsReceive p.val l.val block ack phaseOk)

/-- PORT_UP (R157): At SEQ 0 after every lane of the set has exchanged CAPS_ACK, the port's lanes enter ACTIVE. -/
def execPortUp (p : Fin 8) (e : Fin 32) (m : PortMeasure) (s : State) : Res :=
  s.upd (fun d => d.portComesUp (p.val, e.val) (m.lat.map (fun x => (x.1.toNat, x.2.1.toNat, x.2.2.toNat))) m.lag.val)

/-- LANE_FAULT (R160): An active lane has a fault, so its codewords are treated as uncorrectable and DROP and DROP_REQ
are announced. -/
def execLaneFault (p : Fin 8) (l : Fin 132) (cause : LaneCause) (s : State) : Res :=
  s.upd (fun d => d.laneFault p.val l.val cause)

/-- LANE_SELFTEST_DONE (R162): A lane's near-end loopback completes and the lane is spared or narrowed out. -/
def execLaneSelftestDone (p : Fin 8) (l : Fin 132) (pass : Bool) (s : State) : Res :=
  s.upd (fun d => d.laneSelftestDone p.val l.val pass)

/-- NARROW_RETRY (R162): Every RETRY_S seconds a narrowed-out circuit retrains from DETECT. -/
def execNarrowRetry (p : Fin 8) (l : Fin 132) (s : State) : Res := s.upd (fun d => d.narrowRetry p.val l.val)

/-- LANE_SET_ANNOUNCE (R148): A pending lane-set change is announced in the periods with SEQ 224 to 227. -/
def execLaneSetAnnounce (p : Fin 8) (e : Fin 32) (s : State) : Res :=
  s.upd (fun d => d.laneSetAnnounce (p.val, e.val))

/-- SWITCH_POINT (R148): At the next SEQ 0 an announced DROP or ADD changes the live set of its direction. -/
def execSwitchPoint (p : Fin 8) (e : Fin 32) (tx : Bool) (s : State) : Res :=
  s.upd (fun d => d.switchPoint (p.val, e.val) tx)

/-- RX_DROP (R148): A received DROP removes a lane from the receive live set at the switch point. -/
def execRxDrop (p : Fin 8) (e : Fin 32) (i : Fin 16) (s : State) : Res :=
  s.upd (fun d => d.rxDrop (p.val, e.val) i.val)

/-- RX_ADD (R148): A received ADD adds a lane back to the receive live set at the switch point. -/
def execRxAdd (p : Fin 8) (e : Fin 32) (i : Fin 16) (s : State) : Res := s.upd (fun d => d.rxAdd (p.val, e.val) i.val)

/-- RX_DROP_REQ (R148): A received DROP_REQ makes the port announce DROP of that lane in its next window. -/
def execRxDropReq (p : Fin 8) (e : Fin 32) (i : Fin 16) (s : State) : Res :=
  s.upd (fun d => d.rxDropReq (p.val, e.val) i.val)

/-- RX_RESERVED_CTRL (R146): A codeword with a reserved CTRL is delivered and counted in LNE_CTRL_RSVD. -/
def execRxReservedCtrl (p : Fin 8) (l : Fin 132) (s : State) : Res := s.upd (fun d => d.rxReservedCtrl p.val l.val)

/-- PORT_LOSS_OF_SIGNAL (R161): Every live lane loses signal within 1 µs, so the port goes down and its lanes return to
DETECT. -/
def execPortLossOfSignal (p : Fin 8) (e : Fin 32) (s : State) : Res := s.upd (fun d => d.lossOfSignal (p.val, e.val))

/-- LANE_RETRAIN (R169): LNE_CTRL.RETRAIN drops the lane and restarts it at DETECT. -/
def execLaneRetrain (iss : Issuer) (p : Fin 8) (l : Fin 132) (v : BitVec 32) (s : State) : Res :=
  s.upd (fun d => d.regRow s.fuses iss RegName.LNE_CTRL [p.val, l.val] (v.toNat ||| 0x10))

/-- LANE_SELFTEST_CMD (R169): LNE_CTRL.SELFTEST drops the lane and runs its self-test. -/
def execLaneSelftestCmd (iss : Issuer) (p : Fin 8) (l : Fin 132) (v : BitVec 32) (s : State) : Res :=
  s.upd (fun d => d.regRow s.fuses iss RegName.LNE_CTRL [p.val, l.val] (v.toNat ||| 0x20))

/-- LANE_BITSLIP (R154): A BITSLIP write moves the receive boundary by n symbols while AUTO_ALIGN is 0. -/
def execLaneBitslip (iss : Issuer) (p : Fin 8) (l : Fin 132) (v : BitVec 32) (s : State) : Res :=
  s.upd (fun d => d.regRow s.fuses iss RegName.LNE_CTRL [p.val, l.val] v.toNat)

/-- TXEQ_WRITE (R158): A write of LNE_TXEQ sets the transmitter taps, or is discarded with EQ_REJECT. -/
def execTxeqWrite (iss : Issuer) (p : Fin 8) (l : Fin 132) (v : BitVec 32) (s : State) : Res :=
  s.upd (fun d => d.regRow s.fuses iss RegName.LNE_TXEQ [p.val, l.val] v.toNat)

/-- EYE_MEASURE (R159): START measures one PAM4 eye on a shadow slicer. -/
def execEyeMeasure (iss : Issuer) (p : Fin 8) (l : Fin 132) (v : BitVec 32) (s : State) : Res :=
  s.upd (fun d => d.regRow s.fuses iss RegName.LNE_EYE_CTRL [p.val, l.val] (v.toNat ||| 0x1))

/-- EYE_MEASURE_DONE (R159): The eye measurement finishes and its result stands in LNE_EYE. -/
def execEyeMeasureDone (p : Fin 8) (l : Fin 132) (height : BitVec 8) (width : BitVec 8) (snr : BitVec 8) (s : State) : Res :=
  s.upd (fun d => d.eyeDone p.val l.val height.toNat width.toNat snr.toNat)

/-- REEF_REQ_SEND (R164): After the idle period with no TC0 window near, the port sends REEF_REQ and holds new flits. -/
def execReefReqSend (p : Fin 8) (e : Fin 32) (idle : Nat) (since : Nat) (s : State) : Res :=
  s.upd (fun d => d.reefReq (p.val, e.val) idle since)

/-- RX_REEF_REQ (R164): A received REEF_REQ is answered with REEF_ACK or REEF_NAK within 16 periods. -/
def execRxReefReq (p : Fin 8) (e : Fin 32) (since : Nat) (s : State) : Res :=
  s.upd (fun d => d.rxReefReq (p.val, e.val) since)

/-- RX_REEF_ACK (R165): A received REEF_ACK sets the agreement point, and the lanes enter electrical idle. -/
def execRxReefAck (p : Fin 8) (e : Fin 32) (s : State) : Res := s.upd (fun d => d.rxReefAck (p.val, e.val))

/-- RX_REEF_NAK (R164): A received REEF_NAK refuses the reef and held flits resume. -/
def execRxReefNak (p : Fin 8) (e : Fin 32) (s : State) : Res := s.upd (fun d => d.rxReefNak (p.val, e.val))

/-- REEF_NO_ANSWER (R164): No answer within 64 periods makes the requester treat its request as refused. -/
def execReefNoAnswer (p : Fin 8) (e : Fin 32) (s : State) : Res := s.upd (fun d => d.reefNoAnswer (p.val, e.val))

/-- REEF_ENTRY_DONE (R165): Entry completes within 230 ns of the agreement point, and the lanes read REEFED. -/
def execReefEntryDone (p : Fin 8) (e : Fin 32) (s : State) : Res := s.upd (fun d => d.reefEntered (p.val, e.val))

/-- REEF_WAKE (R166): A wake trigger starts exit: drivers on, training burst and data at the next period boundary. -/
def execReefWake (p : Fin 8) (w : GatePos) (s : State) : Res :=
  s.upd (fun d => d.reefWake (p.val, w.e.val) w.since)

/-- WAKE_BURST_DETECT (R166): A wake detector sees the peer's burst and starts its own exit within 20 ns. -/
def execWakeBurstDetect (p : Fin 8) (e : Fin 32) (s : State) : Res := s.upd (fun d => d.wakeBurst (p.val, e.val))

end Sys2Proof.Machine
end

