-- ==== Sys2Proof/Machine/ExecLink.lean ====
section
/-!
DEFINITION. The meaning of each command of one family: flits, replay and port down (07).
-/
namespace Sys2Proof.Machine

/-- RX_IDLE_FLIT (R174): A good IDLE flit delivers its ACK and credit fields. -/
def execRxIdleFlit (p : Fin 8) (e : Fin 32) (flit : List (BitVec 8)) (s : State) : Res :=
  s.updIf (flitOk flit) (fun d => d.rxIdle (p.val, e.val) flit)

/-- RX_DATA_FLIT (R183): A DATA flit is accepted in order, treated as a duplicate, or handled as bad. -/
def execRxDataFlit (p : Fin 8) (e : Fin 32) (flit : List (BitVec 8)) (s : State) : Res :=
  s.updIf (flitOk flit) (fun d => d.rxData (p.val, e.val) flit)

/-- RX_BAD_FLIT (R176): A flit with marked bytes or a failing HCRC is discarded, and a NAK for RX_EXPECT is sent. -/
def execRxBadFlit (p : Fin 8) (e : Fin 32) (flit : List (BitVec 8)) (marked : Bool) (s : State) : Res :=
  s.updIf (flitOk flit) (fun d => d.rxBad (p.val, e.val) flit marked)

/-- RX_ABORT_FLIT (R180): A received ABORT flit discards the open packet and passes the abort downstream if it was cut
through. -/
def execRxAbortFlit (p : Fin 8) (e : Fin 32) (flit : List (BitVec 8)) (s : State) : Res :=
  s.updIf (flitOk flit) (fun d => d.rxAbortFlit (p.val, e.val) flit)

/-- RX_NAK_FLIT (R184): A good NAK makes the sender replay from the requested SEQ. -/
def execRxNakFlit (p : Fin 8) (e : Fin 32) (flit : List (BitVec 8)) (s : State) : Res :=
  s.updIf (flitOk flit) (fun d => d.rxNak (p.val, e.val) flit)

/-- RX_TIMEX_FLIT (R190): A TIMEX flit carries a time-exchange block to the port engine. -/
def execRxTimexFlit (p : Fin 8) (e : Fin 32) (flit : List (BitVec 8)) (s : State) : Res :=
  s.updIf (flitOk flit) (fun d => d.rxTimex (p.val, e.val) flit)

/-- RX_RESERVED_FLIT (R174): A flit of reserved TYPE delivers its ACK and credit fields and is counted as malformed. -/
def execRxReservedFlit (p : Fin 8) (e : Fin 32) (flit : List (BitVec 8)) (s : State) : Res :=
  s.updIf (flitOk flit) (fun d => d.rxReserved (p.val, e.val) flit)

/-- ACK_TIMEOUT (R184): ACK has not advanced for ACK_TIMEOUT, so the sender replays or the receiver repeats its NAK. -/
def execAckTimeout (p : Fin 8) (e : Fin 32) (s : State) : Res := s.upd (fun d => d.ackTimeoutEvent (p.val, e.val))

/-- PORT_DOWN (R219): A port goes down: the link state is cleared and its queues are flushed. -/
def execPortDown (p : Fin 8) (e : Fin 32) (s : State) : Res := s.upd (fun d => d.portDown (p.val, e.val))

/-- PORT_FLUSH_DONE (R219): The flush of a down port's queues ends within 50 µs and FLUSHED is set. -/
def execPortFlushDone (p : Fin 8) (e : Fin 32) (s : State) : Res := s.upd (fun d => d.flushDone (p.val, e.val))

/-- FAIRLEAD_EN_CLEAR (R231): Within 1 µs of a port down, every port die clears that port's EN bits in its fairlead
entries. -/
def execFairleadEnClear (q : Fin 8) (id : Fin 256) (s : State) : Res := s.upd (fun d => d.enClear q.val id.val)

end Sys2Proof.Machine
end

