-- ==== Sys2Proof/Machine/ExecOptical.lean ====
section
/-!
DEFINITION. The meaning of each command of one family: optical modules and their ledger (19).
-/
namespace Sys2Proof.Machine

/-- SIDEBAND_SCAN (R485): One 1,024-bit sideband scan updates module control outputs and samples presence and interrupts. -/
def execSidebandScan (present : BitVec 128) (int : BitVec 128) (s : State) : Res :=
  s.upd (fun d => d.scan present.toNat int.toNat)

/-- MODULE_INSERT (R486): Presence is confirmed over 4 scans, so the module is reset and polled. -/
def execModuleInsert (m : Fin 128) (ok : Bool) (s : State) : Res := s.upd (fun d => d.moduleInsert m.val ok)

/-- MODULE_ANSWER (R486): The module answers, its identity is read and checked against the allow-list and the ledger. -/
def execModuleAnswer (m : Fin 128) (vendor : List (BitVec 8)) (part : List (BitVec 8)) (serial : List (BitVec 8)) (app : Bool) (dur : Nat) (ok : Bool) (s : State) : Res :=
  s.updIf (identityOk vendor part serial) (fun d => d.moduleAnswer m.val vendor part serial app dur ok)

/-- MODULE_POLL_TIMEOUT (R486): No answer within 2.5 s puts the slot in FAULT. -/
def execModulePollTimeout (m : Fin 128) (s : State) : Res := s.upd (fun d => d.pollTimeout m.val)

/-- MODULE_READY (R487): The module reaches ModuleReady and its data path is activated. -/
def execModuleReady (m : Fin 128) (s : State) : Res := s.upd (fun d => d.moduleReady m.val)

/-- MODULE_READY_TIMEOUT (R487): The module misses its power-up time limit, so the slot enters FAULT. -/
def execModuleReadyTimeout (m : Fin 128) (s : State) : Res := s.upd (fun d => d.readyTimeout m.val)

/-- MODULE_REMOVE (R495): Removal is confirmed, so the ledger record is written and the slot set EMPTY. -/
def execModuleRemove (m : Fin 128) (ok : Bool) (s : State) : Res := s.upd (fun d => d.moduleRemove m.val ok)

/-- MODULE_INT (R494): INT_N seen low makes the Mast read the module's latched flags and write a FLAG record. -/
def execModuleInt (m : Fin 128) (fault : Bool) (los : Bool) (s : State) : Res :=
  s.upd (fun d => d.moduleInt m.val fault los)

/-- LASER_MINUTE (R490): Each minute of transmitting adds to a module's laser time and checks its life threshold. -/
def execLaserMinute (m : Fin 128) (ok : Bool) (s : State) : Res := s.upd (fun d => d.laserMinute m.val ok)

/-- BIAS_DRIFT_SAMPLE (R490): Every 10 minutes the lane bias base is stored or the drift computed. -/
def execBiasDriftSample (m : Fin 128) (bias : List (BitVec 16)) (ok : Bool) (s : State) : Res :=
  s.updIf (decide (bias.length = 8)) (fun d => d.biasSample m.val (bias.map (fun x => x.toNat)) ok)

/-- LEDGER_HOURLY_WRITE (R491): Every hour changed ledger records are appended to the active region. -/
def execLedgerHourlyWrite (ok : Bool) (s : State) : Res := s.upd (fun d => d.ledHourly ok)

/-- OPM_FLUSH (R491): OPM_CTRL.FLUSH writes changed ledger records now. -/
def execOpmFlush (ok : Bool) (s : State) : Res := s.upd (fun d => d.ledFlushDue ok)

/-- OPM_DUMP (R494): OPM_CTRL.DUMP writes every ledger record as a 0x61 record. -/
def execOpmDump (iss : Issuer) (v : BitVec 32) (s : State) : Res :=
  s.upd (fun d => d.regRow s.fuses iss RegName.OPM_CTRL [] (v.toNat ||| 0x8))

/-- OPM_REINIT (R488): OPM_SLOT_CFG.REINIT resets a module and brings it up again. -/
def execOpmReinit (iss : Issuer) (m : Fin 128) (v : BitVec 32) (s : State) : Res :=
  s.upd (fun d => d.regRow s.fuses iss RegName.OPM_SLOT_CFG [m.val] (v.toNat ||| 0x2))

/-- OPM_MANUAL_WRITE (R496): Setting MANUAL hands a module to the pass-through and stops its management. -/
def execOpmManualWrite (iss : Issuer) (m : Fin 128) (v : BitVec 32) (s : State) : Res :=
  s.upd (fun d => d.regRow s.fuses iss RegName.OPM_SLOT_CFG [m.val] v.toNat)

/-- OPM_PASS_GO (R496): OPM_PASS_CTRL.GO performs one byte access to a module page. -/
def execOpmPassGo (iss : Issuer) (v : BitVec 32) (s : State) : Res :=
  s.upd (fun d => d.regRow s.fuses iss RegName.OPM_PASS_CTRL [] (v.toNat ||| 0x2000000))

/-- OPM_PASS_DONE (R496): A pass-through access completes with its status. -/
def execOpmPassDone (nack : Bool) (v : BitVec 8) (s : State) : Res := s.upd (fun d => d.passDone nack v.toNat)

end Sys2Proof.Machine
end

