-- ==== Sys2Proof/Machine/ExecPower.lean ====
section
/-!
DEFINITION. The meaning of each command of one family: ratios, sensors and the always-on events (21).
-/
namespace Sys2Proof.Machine

/-- SAIL_RATIO_WRITE (R520): A write of PWR_SAIL_CTRL.RATIO stops the sail's islands to change ratio, or is rejected. -/
def execSailRatioWrite (iss : Issuer) (k : Fin 4) (v : BitVec 32) (s : State) : Res :=
  s.upd (fun d => d.regRow s.fuses iss RegName.PWR_SAIL_CTRL [k.val] v.toNat)

/-- SAIL_RATIO_RELOCK (R520): The sail PLL relocks and the islands restart at the next frame start with the new ratio. -/
def execSailRatioRelock (k : Fin 4) (s : State) : Res := s.upd (fun d => d.ratioRelock k.val)

/-- SENSOR_CONVERSION (R524): Each 1 ms conversion window ends and its readings are published 0.2 ms later. -/
def execSensorConversion (codes : List (BitVec 16)) (ohmsA : Nat) (ohmsB : Nat) (vsail : BitVec 16) (s : State) : Res :=
  s.updIf (decide (codes.length = 97)) (fun d => d.conversionRail s.fuses (codes.map (fun x => x.toNat)) ohmsA ohmsB vsail.toNat)

/-- THROTTLE_FORCE_WRITE (R522): A write of FORCE raises the throttle level to at least FORCE on the next group. -/
def execThrottleForceWrite (iss : Issuer) (k : Fin 4) (v : BitVec 32) (s : State) : Res :=
  s.upd (fun d => d.regRow s.fuses iss RegName.PWR_SAIL_CTRL [k.val] v.toNat)

/-- THERMISTOR_OPEN (R526): An open persisting 10 µs sets OPEN_NOW and withholds conversions. -/
def execThermistorOpen (x : Fin 2) (s : State) : Res := s.upd (fun d => d.thermOpen x.val)

/-- THERMISTOR_CLOSE (R526): No open for 10 µs clears OPEN_NOW and publication resumes. -/
def execThermistorClose (x : Fin 2) (s : State) : Res := s.upd (fun d => d.thermClose x.val)

/-- THERMAL_TRIP (R528): A trip comparator fires, so THERMTRIP_N latches low and every island stops. -/
def execThermalTrip (n : Fin 25) (s : State) : Res := s.upd (fun d => d.thermalTrip n.val)

/-- VDD_AON_FALL (R94): VDD_AON falls below its monitor threshold, and the whole device is held in power-on reset. -/
def execVddAonFall (s : State) : Res := s.upd (fun d => d.aonFall)

/-- HOST_PORT_RESET_RELEASE (R102): PERST_x_N is released or a host port's reset ends, and host port island x leaves
reset, starting the interval that its READY bound is measured from. -/
def execHostPortResetRelease (x : Fin 4) (s : State) : Res := s.upd (fun d => d.hostPortRelease x.val)

/-- PCIE_LINK_UP (R102): The PCIe link of a host port trains with the root port, and HST_PORT_STAT.LINK_UP rises with its
rate, width and flit mode. -/
def execPcieLinkUp (x : Fin 4) (rate : BitVec 3) (width : BitVec 4) (flit : Bool) (fns : FnSetup) (s : State) : Res :=
  s.updIf (linkOk rate width flit) (fun d => d.pcieLinkUp x.val rate.toNat width.toNat flit fns.vfs.val (fns.d3hot.map (·.val)))

end Sys2Proof.Machine
end

