-- ==== Sys2Proof/Machine/ExecQueue.lean ====
section
/-!
DEFINITION. The meaning of each command of one family: queues, control commands and stream programs (15).
-/
namespace Sys2Proof.Machine

/-- COMMAND_DEQUEUE (R367): A tackle dequeues a command from its bound ring into a queue with room and checks opcode and
reserved fields. -/
def execCommandDequeue (t : Fin 65536) (q : Fin 4) (s : State) : Res := s.upd (fun d => d.dequeue t.val q.val)

/-- COMMAND_DISPATCH (R379): A queue head that meets its slot, scoreboard and stream conditions dispatches and claims its
regions. -/
def execCommandDispatch (t : Fin 65536) (s : State) : Res := s.upd (fun d => d.dispatch t.val)

/-- COMMAND_COMPLETE (R393): A command completes, releases its entries, writes its record and counts in TCK_DONE. -/
def execCommandComplete (t : Fin 65536) (k : Nat) (s : State) : Res := s.upd (fun d => d.commandComplete t.val k)

/-- QUEUE_RESUME (R369): Writing TCK_QCTL.RESUME clears HALTED on one queue. -/
def execQueueResume (iss : Issuer) (t : Fin 65536) (q : Fin 4) (s : State) : Res :=
  s.updIf (tackleExists t.val) (fun d => d.regRow s.fuses iss RegName.TCK_QCTL [t.val, q.val] 1)

/-- SEQ_CTR_WRITE (R381): A write of SEQ_CTR sets a sequencer counter. -/
def execSeqCtrWrite (iss : Issuer) (t : Fin 65536) (c : Fin 16) (v : BitVec 32) (s : State) : Res :=
  s.updIf (tackleExists t.val) (fun d => d.regRow s.fuses iss RegName.SEQ_CTR [t.val, c.val] v.toNat)

/-- NOP (R369): NOP completes at dispatch. -/
def execNop (t : Fin 65536) (q : Fin 4) (s : State) : Res := s.upd (fun d => d.runNop t.val q.val)

/-- FENCE (R369): FENCE completes when every earlier command of its queue has completed. -/
def execFence (t : Fin 65536) (q : Fin 4) (s : State) : Res := s.upd (fun d => d.runFence t.val q.val)

/-- WAIT (R383): WAIT completes when a counter reaches a value, or with TIMEOUT. -/
def execWait (t : Fin 65536) (q : Fin 4) (s : State) : Res := s.upd (fun d => d.runWait t.val q.val)

/-- WAIT_TIMEOUT (R383): A WAIT's timeout expires and it completes with TIMEOUT. -/
def execWaitTimeout (t : Fin 65536) (q : Fin 4) (s : State) : Res := s.upd (fun d => d.waitTimeout t.val q.val)

/-- SIGNAL (R382): SIGNAL adds to a sequencer counter after its queue's earlier commands complete. -/
def execSignal (t : Fin 65536) (q : Fin 4) (s : State) : Res := s.upd (fun d => d.runSignal t.val q.val)

/-- MARK (R409): MARK records a marker value for trace and digest windows. -/
def execMark (t : Fin 65536) (q : Fin 4) (s : State) : Res := s.upd (fun d => d.runMark t.val q.val)

/-- HALT (R369): HALT sets its queue HALTED. -/
def execHalt (t : Fin 65536) (q : Fin 4) (s : State) : Res := s.upd (fun d => d.runHalt t.val q.val)

/-- HANDOVER (R356): HANDOVER claims a bank for a new owner when the current owner admits the command. -/
def execHandover (t : Fin 65536) (k : Nat) (s : State) : Res := s.upd (fun d => d.handover t.val k)

/-- DIGEST_OPEN (R82): DIGEST OPEN opens a provenance window with its scope, markers and ring. -/
def execDigestOpen (t : Fin 65536) (k : Nat) (s : State) : Res := s.upd (fun d => d.digestOpen t.val k)

/-- DIGEST_RANGE (R82): DIGEST RANGE adds a weight, input or result range to a window. -/
def execDigestRange (t : Fin 65536) (k : Nat) (s : State) : Res := s.upd (fun d => d.digestRange t.val k)

/-- DIGEST_CLOSE (R85): DIGEST CLOSE forces a window to close. -/
def execDigestClose (t : Fin 65536) (k : Nat) (s : State) : Res := s.upd (fun d => d.digestClose t.val k)

/-- DIGEST_HASH (R82): DIGEST HASH writes the SHA-256 of one region. -/
def execDigestHash (t : Fin 65536) (k : Nat) (s : State) : Res := s.upd (fun d => d.digestHash t.val k)

/-- DIGEST_WINDOW_CLOSE (R85): A window's queues pass their close markers and covered commands complete, so its records
are written. -/
def execDigestWindowClose (no : Nat) (s : State) : Res := s.upd (fun d => d.closeWindow no)

/-- SEQLOAD (R417): SEQLOAD checks a stream program and writes it into a program slot. -/
def execSeqload (t : Fin 65536) (k : Nat) (s : State) : Res := s.upd (fun d => d.seqload t.val k)

/-- EMIT (R386): EMIT hands the next addresses of an address generator to the engine as pieces. -/
def execEmit (t : Fin 65536) (k : Nat) (s : State) : Res := s.upd (fun d => d.emitIns t.val k)

/-- WAITC (R386): WAITC stalls the stream until a comparator is true. -/
def execWaitc (t : Fin 65536) (k : Nat) (s : State) : Res := s.upd (fun d => d.waitc t.val k)

/-- SKIP (R386): SKIP skips forward when a comparator is true. -/
def execSkip (t : Fin 65536) (k : Nat) (s : State) : Res := s.upd (fun d => d.skipIns t.val k)

/-- INC (R386): INC adds 1 to a counter. -/
def execInc (t : Fin 65536) (k : Nat) (s : State) : Res := s.upd (fun d => d.incIns t.val k)

/-- CLR (R386): CLR sets a counter to 0. -/
def execClr (t : Fin 65536) (k : Nat) (s : State) : Res := s.upd (fun d => d.clrIns t.val k)

/-- END (R386): END ends a pass, and ends the stream when its generators are exhausted. -/
def execEnd_ (t : Fin 65536) (k : Nat) (s : State) : Res := s.upd (fun d => d.endIns t.val k)

end Sys2Proof.Machine
end

