-- ==== Sys2Proof/Machine/ExecReset.lean ====
section
/-!
DEFINITION. The meaning of each command of one family: boot, readiness, resets and fuses (04).
-/
namespace Sys2Proof.Machine

/-- SECURE_BOOT (R100): The boot ROM checks slots A and then B, and starts the first image that passes every check. -/
def execSecureBoot (errA : Bool) (errB : Bool) (s : State) : Res := s.upd (fun d => d.secureBoot s.fuses errA errB)

/-- RECOVERY_GO (R101): Writing MST_BOOT_CTRL.GO checks the image in the recovery window and starts it, or records the
failure. -/
def execRecoveryGo (iss : Issuer) (s : State) : Res :=
  s.upd (fun d => d.regRow s.fuses iss RegName.MST_BOOT_CTRL [] 1)

/-- RECOVERY_WINDOW_WRITE (R101): A write into the recovery window is taken only from the helm host while RESULT is
WAIT_RECOVERY. -/
def execRecoveryWindowWrite (iss : Issuer) (w : Fin 1048576) (v : BitVec 32) (s : State) : Res :=
  s.upd (fun d => d.regRow s.fuses iss RegName.MST_RECOVERY [w.val] v.toNat)

/-- FUNCTION_READY (R102): A function raises its READY bit, and commands held for it begin to dispatch. -/
def execFunctionReady (f : Fin 37) (s : State) : Res := s.upd (fun d => d.functionReady f.val)

/-- STACK_TRAIN_TEST (R350): At device reset a base die trains and tests its stack, then raises READY or sets TEST_FAIL. -/
def execStackTrainTest (n : Fin 8) (pass : Bool) (s : State) : Res := s.upd (fun d => d.stackTest n.val pass)

/-- RST_REQ_DEVICE (R104): MST_RST_REQ with SCOPE DEVICE holds the device in reset for 1 µs and restarts it at a new time
zero. -/
def execRstReqDevice (iss : Issuer) (key : BitVec 8) (s : State) : Res :=
  s.upd (fun d => d.regRow s.fuses iss RegName.MST_RST_REQ [] (rstReqWord 1 false key 0))

/-- RST_REQ_DIE (R107): MST_RST_REQ with SCOPE DIE holds every island of one die in reset. -/
def execRstReqDie (iss : Issuer) (key : BitVec 8) (target : BitVec 16) (s : State) : Res :=
  s.upd (fun d => d.regRow s.fuses iss RegName.MST_RST_REQ [] (rstReqWord 2 false key target))

/-- RST_REQ_ISLAND (R107): MST_RST_REQ with SCOPE ISLAND resets one island. -/
def execRstReqIsland (iss : Issuer) (key : BitVec 8) (target : BitVec 16) (s : State) : Res :=
  s.upd (fun d => d.regRow s.fuses iss RegName.MST_RST_REQ [] (rstReqWord 3 false key target))

/-- RST_REQ_TACKLE (R108): MST_RST_REQ with SCOPE TACKLE resets one tackle, and with FLUSH completes its queued commands
with UNIT_RESET. -/
def execRstReqTackle (iss : Issuer) (key : BitVec 8) (target : BitVec 16) (flush : Bool) (s : State) : Res :=
  s.upd (fun d => d.regRow s.fuses iss RegName.MST_RST_REQ [] (rstReqWord 4 flush key target))

/-- PARTIAL_RESET_RELEASE (R107): A die, island or tackle reset releases on a frame start or HOIST_SYNC mark, BUSY clears
and PART_RESET is counted. -/
def execPartialResetRelease (s : State) : Res := s.upd (fun d => d.partialRelease)

/-- HOST_PORT_RESET (R133): PERST, hot reset, link down or function-level reset resets one host port or function and puts
its record rings in DISCARD. -/
def execHostPortReset (x : Fin 4) (kind : HostReset) (f : Fin 17) (s : State) : Res :=
  s.upd (fun d => d.hostPortReset x.val (hostResetCode kind) f.val)

/-- RAISE_SEC_VER (R113): A fuse operation raises the minimum security version. -/
def execRaiseSecVer (iss : Issuer) (arg : BitVec 8) (confirm : BitVec 16) (s : State) : Res :=
  s.upd (fun d => d.regRow s.fuses iss RegName.MST_FUSE_PROG [] (fuseProgWord 1 arg confirm))

/-- REVOKE_KEY (R113): A fuse operation revokes one boot key slot. -/
def execRevokeKey (iss : Issuer) (arg : BitVec 8) (confirm : BitVec 16) (s : State) : Res :=
  s.upd (fun d => d.regRow s.fuses iss RegName.MST_FUSE_PROG [] (fuseProgWord 2 arg confirm))

/-- DEBUG_CLOSE (R112): A fuse operation blows the debug-close fuse and permanently disables scan, JTAG memory access and
trace export. -/
def execDebugClose (iss : Issuer) (arg : BitVec 8) (confirm : BitVec 16) (s : State) : Res :=
  s.upd (fun d => d.regRow s.fuses iss RegName.MST_FUSE_PROG [] (fuseProgWord 3 arg confirm))

/-- FUSE_PROG_DONE (R113): A fuse operation finishes within 2 ms and PROG_BUSY clears. -/
def execFuseProgDone (s : State) : Res :=
  .next s.fuseDone

/-- MST_LOCK_WRITE (R119): A write from the helm host's PF sets lock bits that freeze the RWL fields they cover until
device reset. -/
def execMstLockWrite (iss : Issuer) (v : BitVec 32) (s : State) : Res :=
  s.upd (fun d => d.regRow s.fuses iss RegName.MST_LOCK [] v.toNat)

end Sys2Proof.Machine
end

