-- ==== Sys2Proof/Machine/ExecSched.lean ====
section
/-!
DEFINITION. The meaning of each command of one family: rate control, congestion maps and egress schedules (09, 10).
-/
namespace Sys2Proof.Machine

/-- RATE_DECREASE (R243): An echo decreases a flow's RATE if PERIOD has passed since the last decrease. -/
def execRateDecrease (f : Fin 262144) (s : State) : Res := s.upd (fun d => d.rateDecrease f.val)

/-- RATE_INCREASE (R243): PERIOD after the last change, a flow below MAX increases its RATE by INC_STEP. -/
def execRateIncrease (f : Fin 262144) (s : State) : Res := s.upd (fun d => d.rateIncrease f.val)

/-- RATE_PROFILE_CLAMP (R250): At the frame start after a profile write, open flows are clamped to the new MIN and MAX. -/
def execRateProfileClamp (p : Fin 8) (k : Fin 8) (s : State) : Res := s.upd (fun d => d.rateClamp p.val k.val)

/-- CMAP_SAMPLE (R245): Every 2^SAMPLE_LOG2 frames, each port and class depth is binned. -/
def execCmapSample (p : Fin 8) (s : State) : Res := s.upd (fun d => d.cmapSample p.val)

/-- CMAP_SNAPSHOT (R246): On SNAP or at PRT_CMAP_AT, the live bins are copied out and cleared. -/
def execCmapSnapshot (p : Fin 8) (s : State) : Res := s.upd (fun d => d.cmapSnapshot p.val)

/-- SHAPER_REFILL (R259): At every frame start each shaper adds its tokens up to its burst, taking new RATE and BURST
values. -/
def execShaperRefill (p : Fin 8) (e : Fin 32) (s : State) : Res := s.upd (fun d => d.shaperRefill (p.val, e.val))

/-- GATE_ENTRY_ADVANCE (R263): An active gate entry's DURATION expires and the list moves to its next entry. -/
def execGateEntryAdvance (p : Fin 8) (e : Fin 32) (s : State) : Res := s.upd (fun d => d.gateAdvance (p.val, e.val))

/-- GATE_TAKEOVER (R265): At the first cycle at or after T the pending gate list becomes active at entry 0. -/
def execGateTakeover (p : Fin 8) (e : Fin 32) (s : State) : Res := s.upd (fun d => d.gateTakeover (p.val, e.val))

/-- SCH_TCQ_WRITE (R255): A write of PRT_SCH_TCQ maps classes to weighted queues, or is discarded with CFG_REJECT. -/
def execSchTcqWrite (iss : Issuer) (p : Fin 8) (e : Fin 32) (v : BitVec 32) (s : State) : Res :=
  s.upd (fun d => d.regRow s.fuses iss RegName.PRT_SCH_TCQ [p.val, e.val] v.toNat)

/-- FRESH_WRITE (R258): A write of FRESH sets a queue's fresh mode, or is refused beyond 4 fresh queues. -/
def execFreshWrite (iss : Issuer) (p : Fin 8) (e : Fin 32) (q : Fin 13) (v : BitVec 32) (s : State) : Res :=
  s.upd (fun d => d.regRow s.fuses iss RegName.PRT_SCH_WQ [p.val, e.val, q.val + 3] v.toNat)

end Sys2Proof.Machine
end

