-- ==== Sys2Proof/Machine/ExecSwitch.lean ====
section
/-!
DEFINITION. The meaning of each command of one family: packets, cells, routing tables and groups (08, 09).
-/
namespace Sys2Proof.Machine

/-- PACKET_HEAD_PARSE (R228): An ingress engine parses a packet head, checks key and destination, routes it and sends
admission requests. -/
def execPacketHeadParse (src : Source) (vc : Fin 4) (s : State) : Res :=
  s.upd (fun d => d.parse (sourceKey src) vc.val)

/-- MAST_PACKET_DELIVER (R202): A packet addressed to the Mast is delivered whole over the Mast ratline. -/
def execMastPacketDeliver (id : Nat) (s : State) : Res := s.upd (fun d => d.mastDeliver id)

/-- ADMISSION_GRANT (R206): A yard grants a waiting share request whole from small or large cells. -/
def execAdmissionGrant (y : Fin 4) (cls : Fin 5) (s : State) : Res := s.upd (fun d => d.admission y.val cls.val)

/-- CELL_WRITE (R202): A cell is written into a yard's buffer and its cell notice is sent to the destination die. -/
def execCellWrite (id : Nat) (s : State) : Res := s.upd (fun d => d.cellWrite id)

/-- VOID_NOTICE (R218): An ingress loss after admission writes void notices for the packet's remaining cells. -/
def execVoidNotice (id : Nat) (s : State) : Res := s.upd (fun d => d.voidNotice id)

/-- RESEQUENCER_RELEASE (R212): A notice is released in CSEQ order and its packet is enqueued, discarded at a down port,
or delivered to a sail or base die. -/
def execResequencerRelease (n : Fin 25) (src : Source) (vc : Fin 4) (s : State) : Res :=
  s.upd (fun d => d.rsqRelease n.val (sourceKey src) vc.val)

/-- GAP_TIMEOUT (R213): A gap stays open for TIMEOUT, so its cells are lost and the packet is aborted or discarded. -/
def execGapTimeout (n : Fin 25) (src : Source) (vc : Fin 4) (s : State) : Res :=
  s.upd (fun d => d.gapExpire n.val (sourceKey src) vc.val)

/-- EGRESS_FLIT_SLOT (R254): At each flit slot the egress sends TC0, continues an open packet, or starts the next
eligible packet. -/
def execEgressFlitSlot (p : Fin 8) (e : Fin 32) (w : SlotTime) (s : State) : Res :=
  s.upd (fun d => d.flitSlot (p.val, e.val) w.since w.sym.val)

/-- CELL_FREE (R208): A cell is freed, or a double free sets FREE_ERR. -/
def execCellFree (y : Fin 4) (id : Nat) (i : Nat) (s : State) : Res := s.upd (fun d => d.cellFree y.val id i)

/-- MULTICAST_COPY_DONE (R216): A port finishes its multicast copy, and the named port frees the cells when the pending
count allows. -/
def execMulticastCopyDone (id : Nat) (p : Fin 8) (e : Fin 32) (s : State) : Res :=
  s.upd (fun d => d.copyDone id (p.val, e.val))

/-- LEAK_AUDIT_PASS (R210): The end of an audit pass updates the owner counts and leak registers, and orphans are freed. -/
def execLeakAuditPass (y : Fin 4) (s : State) : Res := s.upd (fun d => d.audit y.val)

/-- POOL_CFG_WRITE (R204): A write of YRD_POOL_CFG sets the large pool before the first allocation, or is rejected. -/
def execPoolCfgWrite (iss : Issuer) (y : Fin 4) (v : BitVec 32) (s : State) : Res :=
  s.upd (fun d => d.regRow s.fuses iss RegName.YRD_POOL_CFG [y.val] v.toNat)

/-- SPRAY_EPOCH_CHANGE (R203): At the frame start after a yard leaves or returns, each source uses the new yard list and
toggles its spray epoch. -/
def execSprayEpochChange (s : State) : Res := s.upd (fun d => d.sprayChange)

/-- FABADDR_APPLY (R227): A write of MST_FABADDR takes effect at every port die on the next frame start. -/
def execFabaddrApply (s : State) : Res := s.upd (fun d => d.fabaddrApply)

/-- FAIRLEAD_COMMIT (R232): A write to word +0x00 commits a fairlead entry with its staged words. -/
def execFairleadCommit (iss : Issuer) (p : Fin 8) (dim : Fin 3) (c : Fin 16) (v : BitVec 32) (s : State) : Res :=
  s.upd (fun d => d.regRow s.fuses iss RegName.PRT_FL_CTL [p.val, dim.val + 1, c.val] v.toNat)

/-- MC_GROUP_COMMIT (R238): A write to a master multicast entry commits it at the Mast, or rejects it. -/
def execMcGroupCommit (iss : Issuer) (g : Fin 4096) (v : BitVec 32) (s : State) : Res :=
  s.upd (fun d => d.regRow s.fuses iss RegName.MST_MC_CTL [g.val] v.toNat)

/-- MC_GROUP_APPLY (R238): An accepted group commit is applied in all yards on one frame start. -/
def execMcGroupApply (s : State) : Res := s.upd (fun d => d.groupsApply)

end Sys2Proof.Machine
end

