-- ==== Sys2Proof/Machine/ExecTelemetry.lean ====
section
/-!
DEFINITION. The meaning of each command of one family: trace, counters, snapshots and JTAG (20).
-/
namespace Sys2Proof.Machine

/-- TRACE_BUFFER_ENTER (R501): A record waiting for a full die trace buffer enters it, releasing the waiting tackle. -/
def execTraceBufferEnter (n : Fin 25) (s : State) : Res := s.upd (fun d => d.traceEnter n.val)

/-- COUNTER_SET_SAMPLE (R505): On a frame start that is a multiple of the set's period, the named registers are latched
and written as one record. -/
def execCounterSetSample (k : Fin 8) (s : State) : Res := s.upd (fun d => d.counterSample k.val)

/-- SNAP_GO (R508): MST_SNAP_CTRL.GO triggers a crow's-nest snapshot. -/
def execSnapGo (iss : Issuer) (v : BitVec 32) (s : State) : Res :=
  s.upd (fun d => d.regRow s.fuses iss RegName.MST_SNAP_CTRL [] (v.toNat ||| 0x1))

/-- SNAP_AT (R508): Fabric time reaches MST_SNAP_AT while AT_EN is set and triggers a snapshot. -/
def execSnapAt (s : State) : Res := s.upd (fun d => d.snapAt)

/-- SNAP_CUT (R509): At the first frame start after a trigger every island latches its snapshot state, halting queues if
HALT_ALL is set. -/
def execSnapCut (s : State) : Res := s.upd (fun d => d.snapCut)

/-- SNAP_COLLECT (R511): The Mast collects the shadows and writes them as 0x46 records, clearing BUSY at the last. -/
def execSnapCollect (s : State) : Res := s.upd (fun d => d.snapCollect)

/-- JTAG_EXTEST (R512): EXTEST drives boundary-scan cells. -/
def execJtagExtest (tdi : List Bool) (s : State) : Res := s.upd (fun d => d.boundary 0 tdi)

/-- JTAG_SAMPLE_PRELOAD (R512): SAMPLE/PRELOAD captures or preloads boundary-scan cells. -/
def execJtagSamplePreload (tdi : List Bool) (s : State) : Res := s.upd (fun d => d.boundary 1 tdi)

/-- JTAG_IDCODE (R512): IDCODE shifts out the 32-bit IDCODE. -/
def execJtagIdcode (s : State) : Res := s.upd (fun d => d.jtagId)

/-- JTAG_CLAMP (R512): CLAMP holds boundary outputs with bypass selected. -/
def execJtagClamp (tdi : List Bool) (s : State) : Res := s.upd (fun d => d.jtagBypass 3 tdi)

/-- JTAG_HIGHZ (R512): HIGHZ places outputs in high impedance. -/
def execJtagHighz (tdi : List Bool) (s : State) : Res := s.upd (fun d => d.jtagBypass 4 tdi)

/-- JTAG_REG_ACCESS (R513): REG_ACCESS performs a register access with Plan rights, or bypasses after debug closure. -/
def execJtagRegAccess (w : BitVec 120) (s : State) : Res := s.upd (fun d => d.jtagAccess s.fuses false w.toNat)

/-- JTAG_MEM_ACCESS (R513): MEM_ACCESS reads or writes stacked memory and unowned banks. -/
def execJtagMemAccess (w : BitVec 120) (s : State) : Res := s.upd (fun d => d.jtagAccess s.fuses true w.toNat)

/-- JTAG_TRACE_EXPORT (R514): TRACE_EXPORT shifts out one 32-byte word of the export buffer. -/
def execJtagTraceExport (tdi : List Bool) (s : State) : Res := s.upd (fun d => d.jtagExport s.fuses tdi)

/-- JTAG_SCAN (R512): SCAN selects the scan chains and stops every island except the always-on island. -/
def execJtagScan (tdi : List Bool) (s : State) : Res := s.upd (fun d => d.jtagScan s.fuses tdi)

/-- JTAG_BYPASS (R512): BYPASS selects the 1-bit bypass register. -/
def execJtagBypass (tdi : List Bool) (s : State) : Res := s.upd (fun d => d.jtagBypass 0xff tdi)

/-- TRST_N_ASSERT (R513): TRST_N low resets the TAP and aborts a JTAG register access. -/
def execTrstNAssert (s : State) : Res := s.upd (fun d => d.trst)

end Sys2Proof.Machine
end

