-- ==== Sys2Proof/Machine/Dispatch.lean ====
section
/-!
DEFINITION. One arm per command.
-/
namespace Sys2Proof.Machine

def exec (i : Instr) (s : State) : Host.Outcome State Fault Refusal :=
  match i with
  | .registerWrite x f off acc => Sys2Proof.Machine.execRegisterWrite x f off acc s
  | .stoppedIslandAccessResume g => Sys2Proof.Machine.execStoppedIslandAccessResume g s
  | .powerOnReset inOrder => Sys2Proof.Machine.execPowerOnReset inOrder s
  | .resetNPulse => Sys2Proof.Machine.execResetNPulse s
  | .resetNRelease sysref helm vsail => Sys2Proof.Machine.execResetNRelease sysref helm vsail s
  | .brownout good => Sys2Proof.Machine.execBrownout good s
  | .railsGoodRestart sysref helm vsail => Sys2Proof.Machine.execRailsGoodRestart sysref helm vsail s
  | .sysrefLoss => Sys2Proof.Machine.execSysrefLoss s
  | .pllLock n => Sys2Proof.Machine.execPllLock n s
  | .pllTimeout n => Sys2Proof.Machine.execPllTimeout n s
  | .hoistSync => Sys2Proof.Machine.execHoistSync s
  | .islandResetRelease miss => Sys2Proof.Machine.execIslandResetRelease miss s
  | .hoistDone => Sys2Proof.Machine.execHoistDone s
  | .hoistSyncMark slips => Sys2Proof.Machine.execHoistSyncMark slips s
  | .resetIndicatorAssert n g k => Sys2Proof.Machine.execResetIndicatorAssert n g k s
  | .islandClockStop g => Sys2Proof.Machine.execIslandClockStop g s
  | .clkHoldWrite iss i1 v => Sys2Proof.Machine.execClkHoldWrite iss i1 v s
  | .holdLong => Sys2Proof.Machine.execHoldLong s
  | .fabStepWrite iss v => Sys2Proof.Machine.execFabStepWrite iss v s
  | .fabricTimeStep => Sys2Proof.Machine.execFabricTimeStep s
  | .timexRequestSend p e exch => Sys2Proof.Machine.execTimexRequestSend p e exch s
  | .timexRequestReceive p e block ago sym => Sys2Proof.Machine.execTimexRequestReceive p e block ago sym s
  | .timexReplyReceive p e block rx => Sys2Proof.Machine.execTimexReplyReceive p e block rx s
  | .timexLost p e => Sys2Proof.Machine.execTimexLost p e s
  | .autoStepAlign => Sys2Proof.Machine.execAutoStepAlign s
  | .detAnchorWrite iss v => Sys2Proof.Machine.execDetAnchorWrite iss v s
  | .anchorRelease => Sys2Proof.Machine.execAnchorRelease s
  | .detClr iss v => Sys2Proof.Machine.execDetClr iss v s
  | .secureBoot errA errB => Sys2Proof.Machine.execSecureBoot errA errB s
  | .recoveryGo iss => Sys2Proof.Machine.execRecoveryGo iss s
  | .recoveryWindowWrite iss w v => Sys2Proof.Machine.execRecoveryWindowWrite iss w v s
  | .functionReady f => Sys2Proof.Machine.execFunctionReady f s
  | .stackTrainTest n pass => Sys2Proof.Machine.execStackTrainTest n pass s
  | .rstReqDevice iss key => Sys2Proof.Machine.execRstReqDevice iss key s
  | .rstReqDie iss key target => Sys2Proof.Machine.execRstReqDie iss key target s
  | .rstReqIsland iss key target => Sys2Proof.Machine.execRstReqIsland iss key target s
  | .rstReqTackle iss key target flush => Sys2Proof.Machine.execRstReqTackle iss key target flush s
  | .partialResetRelease => Sys2Proof.Machine.execPartialResetRelease s
  | .hostPortReset x kind f => Sys2Proof.Machine.execHostPortReset x kind f s
  | .raiseSecVer iss arg confirm => Sys2Proof.Machine.execRaiseSecVer iss arg confirm s
  | .revokeKey iss arg confirm => Sys2Proof.Machine.execRevokeKey iss arg confirm s
  | .debugClose iss arg confirm => Sys2Proof.Machine.execDebugClose iss arg confirm s
  | .fuseProgDone => Sys2Proof.Machine.execFuseProgDone s
  | .mstLockWrite iss v => Sys2Proof.Machine.execMstLockWrite iss v s
  | .apertureRead x off n => Sys2Proof.Machine.execApertureRead x off n s
  | .apertureWrite x off bytes => Sys2Proof.Machine.execApertureWrite x off bytes s
  | .indAccessGo iss x write size64 => Sys2Proof.Machine.execIndAccessGo iss x write size64 s
  | .indAccessComplete x => Sys2Proof.Machine.execIndAccessComplete x s
  | .indAccessAbort iss x => Sys2Proof.Machine.execIndAccessAbort iss x s
  | .cmdRingArm iss x f r => Sys2Proof.Machine.execCmdRingArm iss x f r s
  | .cmdRingDisarm iss x f r => Sys2Proof.Machine.execCmdRingDisarm iss x f r s
  | .cmdRingCfgWrite iss x f r v => Sys2Proof.Machine.execCmdRingCfgWrite iss x f r v s
  | .pushWrite x f r off acc => Sys2Proof.Machine.execPushWrite x f r off acc s
  | .pushWriteRelease x => Sys2Proof.Machine.execPushWriteRelease x s
  | .doorbell iss x f r producer => Sys2Proof.Machine.execDoorbell iss x f r producer s
  | .recordRingArm iss x f q => Sys2Proof.Machine.execRecordRingArm iss x f q s
  | .recordRingDisarm iss x f q => Sys2Proof.Machine.execRecordRingDisarm iss x f q s
  | .recordRelease iss x f q v => Sys2Proof.Machine.execRecordRelease iss x f q v s
  | .recordWrite ring src => Sys2Proof.Machine.execRecordWrite ring src s
  | .protSetupWrite iss item v => Sys2Proof.Machine.execProtSetupWrite iss item v s
  | .protDrained => Sys2Proof.Machine.execProtDrained s
  | .portCfgWrite iss p e v => Sys2Proof.Machine.execPortCfgWrite iss p e v s
  | .laneDetect p l => Sys2Proof.Machine.execLaneDetect p l s
  | .laneTrainDone p l taps ctle gain precode => Sys2Proof.Machine.execLaneTrainDone p l taps ctle gain precode s
  | .laneLockDone p found => Sys2Proof.Machine.execLaneLockDone p found s
  | .laneStateTimeout p l => Sys2Proof.Machine.execLaneStateTimeout p l s
  | .capsReceive p l block ack phaseOk => Sys2Proof.Machine.execCapsReceive p l block ack phaseOk s
  | .portUp p e m => Sys2Proof.Machine.execPortUp p e m s
  | .laneFault p l cause => Sys2Proof.Machine.execLaneFault p l cause s
  | .laneSelftestDone p l pass => Sys2Proof.Machine.execLaneSelftestDone p l pass s
  | .narrowRetry p l => Sys2Proof.Machine.execNarrowRetry p l s
  | .laneSetAnnounce p e => Sys2Proof.Machine.execLaneSetAnnounce p e s
  | .switchPoint p e tx => Sys2Proof.Machine.execSwitchPoint p e tx s
  | .rxDrop p e i1 => Sys2Proof.Machine.execRxDrop p e i1 s
  | .rxAdd p e i1 => Sys2Proof.Machine.execRxAdd p e i1 s
  | .rxDropReq p e i1 => Sys2Proof.Machine.execRxDropReq p e i1 s
  | .rxReservedCtrl p l => Sys2Proof.Machine.execRxReservedCtrl p l s
  | .portLossOfSignal p e => Sys2Proof.Machine.execPortLossOfSignal p e s
  | .laneRetrain iss p l v => Sys2Proof.Machine.execLaneRetrain iss p l v s
  | .laneSelftestCmd iss p l v => Sys2Proof.Machine.execLaneSelftestCmd iss p l v s
  | .laneBitslip iss p l v => Sys2Proof.Machine.execLaneBitslip iss p l v s
  | .txeqWrite iss p l v => Sys2Proof.Machine.execTxeqWrite iss p l v s
  | .eyeMeasure iss p l v => Sys2Proof.Machine.execEyeMeasure iss p l v s
  | .eyeMeasureDone p l height width snr => Sys2Proof.Machine.execEyeMeasureDone p l height width snr s
  | .reefReqSend p e idle since => Sys2Proof.Machine.execReefReqSend p e idle since s
  | .rxReefReq p e since => Sys2Proof.Machine.execRxReefReq p e since s
  | .rxReefAck p e => Sys2Proof.Machine.execRxReefAck p e s
  | .rxReefNak p e => Sys2Proof.Machine.execRxReefNak p e s
  | .reefNoAnswer p e => Sys2Proof.Machine.execReefNoAnswer p e s
  | .reefEntryDone p e => Sys2Proof.Machine.execReefEntryDone p e s
  | .reefWake p w => Sys2Proof.Machine.execReefWake p w s
  | .wakeBurstDetect p e => Sys2Proof.Machine.execWakeBurstDetect p e s
  | .rxIdleFlit p e flit => Sys2Proof.Machine.execRxIdleFlit p e flit s
  | .rxDataFlit p e flit => Sys2Proof.Machine.execRxDataFlit p e flit s
  | .rxBadFlit p e flit marked => Sys2Proof.Machine.execRxBadFlit p e flit marked s
  | .rxAbortFlit p e flit => Sys2Proof.Machine.execRxAbortFlit p e flit s
  | .rxNakFlit p e flit => Sys2Proof.Machine.execRxNakFlit p e flit s
  | .rxTimexFlit p e flit => Sys2Proof.Machine.execRxTimexFlit p e flit s
  | .rxReservedFlit p e flit => Sys2Proof.Machine.execRxReservedFlit p e flit s
  | .ackTimeout p e => Sys2Proof.Machine.execAckTimeout p e s
  | .portDown p e => Sys2Proof.Machine.execPortDown p e s
  | .portFlushDone p e => Sys2Proof.Machine.execPortFlushDone p e s
  | .fairleadEnClear q id => Sys2Proof.Machine.execFairleadEnClear q id s
  | .packetHeadParse src vc => Sys2Proof.Machine.execPacketHeadParse src vc s
  | .mastPacketDeliver id => Sys2Proof.Machine.execMastPacketDeliver id s
  | .admissionGrant y cls => Sys2Proof.Machine.execAdmissionGrant y cls s
  | .cellWrite id => Sys2Proof.Machine.execCellWrite id s
  | .voidNotice id => Sys2Proof.Machine.execVoidNotice id s
  | .resequencerRelease n src vc => Sys2Proof.Machine.execResequencerRelease n src vc s
  | .gapTimeout n src vc => Sys2Proof.Machine.execGapTimeout n src vc s
  | .egressFlitSlot p e w => Sys2Proof.Machine.execEgressFlitSlot p e w s
  | .cellFree y id i1 => Sys2Proof.Machine.execCellFree y id i1 s
  | .multicastCopyDone id p e => Sys2Proof.Machine.execMulticastCopyDone id p e s
  | .leakAuditPass y => Sys2Proof.Machine.execLeakAuditPass y s
  | .poolCfgWrite iss y v => Sys2Proof.Machine.execPoolCfgWrite iss y v s
  | .sprayEpochChange => Sys2Proof.Machine.execSprayEpochChange s
  | .fabaddrApply => Sys2Proof.Machine.execFabaddrApply s
  | .fairleadCommit iss p dim c v => Sys2Proof.Machine.execFairleadCommit iss p dim c v s
  | .mcGroupCommit iss g v => Sys2Proof.Machine.execMcGroupCommit iss g v s
  | .mcGroupApply => Sys2Proof.Machine.execMcGroupApply s
  | .rateDecrease f => Sys2Proof.Machine.execRateDecrease f s
  | .rateIncrease f => Sys2Proof.Machine.execRateIncrease f s
  | .rateProfileClamp p k => Sys2Proof.Machine.execRateProfileClamp p k s
  | .cmapSample p => Sys2Proof.Machine.execCmapSample p s
  | .cmapSnapshot p => Sys2Proof.Machine.execCmapSnapshot p s
  | .shaperRefill p e => Sys2Proof.Machine.execShaperRefill p e s
  | .gateEntryAdvance p e => Sys2Proof.Machine.execGateEntryAdvance p e s
  | .gateTakeover p e => Sys2Proof.Machine.execGateTakeover p e s
  | .schTcqWrite iss p e v => Sys2Proof.Machine.execSchTcqWrite iss p e v s
  | .freshWrite iss p e q v => Sys2Proof.Machine.execFreshWrite iss p e q v s
  | .putReceive n => Sys2Proof.Machine.execPutReceive n s
  | .getReceive n => Sys2Proof.Machine.execGetReceive n s
  | .notifyReceive n => Sys2Proof.Machine.execNotifyReceive n s
  | .noticeReceive n => Sys2Proof.Machine.execNoticeReceive n s
  | .putAckReceive n => Sys2Proof.Machine.execPutAckReceive n s
  | .getDataReceive n => Sys2Proof.Machine.execGetDataReceive n s
  | .refuseNoticeReceive n => Sys2Proof.Machine.execRefuseNoticeReceive n s
  | .flowResponseTimeout f tag => Sys2Proof.Machine.execFlowResponseTimeout f tag s
  | .chunkIntake y => Sys2Proof.Machine.execChunkIntake y s
  | .grantReceive y => Sys2Proof.Machine.execGrantReceive y s
  | .upGrantIssue id st y => Sys2Proof.Machine.execUpGrantIssue id st y s
  | .returnGrantIssue id st y => Sys2Proof.Machine.execReturnGrantIssue id st y s
  | .stageComplete id n st => Sys2Proof.Machine.execStageComplete id n st s
  | .stageOutputSend id n st => Sys2Proof.Machine.execStageOutputSend id n st s
  | .rootFinal id n => Sys2Proof.Machine.execRootFinal id n s
  | .finalCopyDown id n st i1 => Sys2Proof.Machine.execFinalCopyDown id n st i1 s
  | .tDelivery id n => Sys2Proof.Machine.execTDelivery id n s
  | .chunkSignal id n => Sys2Proof.Machine.execChunkSignal id n s
  | .chunkTimeout id n => Sys2Proof.Machine.execChunkTimeout id n s
  | .contextEnd id => Sys2Proof.Machine.execContextEnd id s
  | .capstanSelftest y c cause => Sys2Proof.Machine.execCapstanSelftest y c cause s
  | .capstanSelftestDone y c pass => Sys2Proof.Machine.execCapstanSelftestDone y c pass s
  | .capstanSpareSwap y c => Sys2Proof.Machine.execCapstanSpareSwap y c s
  | .collOvfWrite iss y v => Sys2Proof.Machine.execCollOvfWrite iss y v s
  | .cleatOwnerWrite iss b v => Sys2Proof.Machine.execCleatOwnerWrite iss b v s
  | .cleatClaimResolve b => Sys2Proof.Machine.execCleatClaimResolve b s
  | .ownerMapWrite iss o v => Sys2Proof.Machine.execOwnerMapWrite iss o v s
  | .bankRetentionEntry b => Sys2Proof.Machine.execBankRetentionEntry b s
  | .bankWake b => Sys2Proof.Machine.execBankWake b s
  | .stackSelfRefreshEntry n => Sys2Proof.Machine.execStackSelfRefreshEntry n s
  | .stackSelfRefreshExit n => Sys2Proof.Machine.execStackSelfRefreshExit n s
  | .stackCaRetry n ok => Sys2Proof.Machine.execStackCaRetry n ok s
  | .commandDequeue t q => Sys2Proof.Machine.execCommandDequeue t q s
  | .commandDispatch t => Sys2Proof.Machine.execCommandDispatch t s
  | .commandComplete t k => Sys2Proof.Machine.execCommandComplete t k s
  | .queueResume iss t q => Sys2Proof.Machine.execQueueResume iss t q s
  | .seqCtrWrite iss t c v => Sys2Proof.Machine.execSeqCtrWrite iss t c v s
  | .nop t q => Sys2Proof.Machine.execNop t q s
  | .fence t q => Sys2Proof.Machine.execFence t q s
  | .wait t q => Sys2Proof.Machine.execWait t q s
  | .waitTimeout t q => Sys2Proof.Machine.execWaitTimeout t q s
  | .signal t q => Sys2Proof.Machine.execSignal t q s
  | .mark t q => Sys2Proof.Machine.execMark t q s
  | .halt t q => Sys2Proof.Machine.execHalt t q s
  | .handover t k => Sys2Proof.Machine.execHandover t k s
  | .digestOpen t k => Sys2Proof.Machine.execDigestOpen t k s
  | .digestRange t k => Sys2Proof.Machine.execDigestRange t k s
  | .digestClose t k => Sys2Proof.Machine.execDigestClose t k s
  | .digestHash t k => Sys2Proof.Machine.execDigestHash t k s
  | .digestWindowClose no => Sys2Proof.Machine.execDigestWindowClose no s
  | .seqload t k => Sys2Proof.Machine.execSeqload t k s
  | .emit t k => Sys2Proof.Machine.execEmit t k s
  | .waitc t k => Sys2Proof.Machine.execWaitc t k s
  | .skip t k => Sys2Proof.Machine.execSkip t k s
  | .inc t k => Sys2Proof.Machine.execInc t k s
  | .clr t k => Sys2Proof.Machine.execClr t k s
  | .end_ t k => Sys2Proof.Machine.execEnd_ t k s
  | .move t k => Sys2Proof.Machine.execMove t k s
  | .gather t k => Sys2Proof.Machine.execGather t k s
  | .scatter t k => Sys2Proof.Machine.execScatter t k s
  | .fill t k => Sys2Proof.Machine.execFill t k s
  | .sealchk t k => Sys2Proof.Machine.execSealchk t k s
  | .mma t k => Sys2Proof.Machine.execMma t k s
  | .gmma t k => Sys2Proof.Machine.execGmma t k s
  | .vop t k => Sys2Proof.Machine.execVop t k s
  | .cvt t k => Sys2Proof.Machine.execCvt t k s
  | .vred t k => Sys2Proof.Machine.execVred t k s
  | .update t k => Sys2Proof.Machine.execUpdate t k s
  | .attn t k => Sys2Proof.Machine.execAttn t k s
  | .put t k => Sys2Proof.Machine.execPut t k s
  | .get t k => Sys2Proof.Machine.execGet t k s
  | .notify t k => Sys2Proof.Machine.execNotify t k s
  | .collOpen t k => Sys2Proof.Machine.execCollOpen t k s
  | .collStart t k => Sys2Proof.Machine.execCollStart t k s
  | .collAbort t k => Sys2Proof.Machine.execCollAbort t k s
  | .colljoin t k => Sys2Proof.Machine.execColljoin t k s
  | .planLoad t k => Sys2Proof.Machine.execPlanLoad t k s
  | .planDrop t k => Sys2Proof.Machine.execPlanDrop t k s
  | .gate t k => Sys2Proof.Machine.execGate t k s
  | .controlCheckError c => Sys2Proof.Machine.execControlCheckError c s
  | .faultPulseEnd => Sys2Proof.Machine.execFaultPulseEnd s
  | .faultPulsedClear iss => Sys2Proof.Machine.execFaultPulsedClear iss s
  | .faultHoldWrite iss v => Sys2Proof.Machine.execFaultHoldWrite iss v s
  | .unitOutOfService t cause => Sys2Proof.Machine.execUnitOutOfService t cause s
  | .mastLost => Sys2Proof.Machine.execMastLost s
  | .takeOut => Sys2Proof.Machine.execTakeOut s
  | .haltQueues => Sys2Proof.Machine.execHaltQueues s
  | .resumeQueues => Sys2Proof.Machine.execResumeQueues s
  | .sidebandScan present int => Sys2Proof.Machine.execSidebandScan present int s
  | .moduleInsert m ok => Sys2Proof.Machine.execModuleInsert m ok s
  | .moduleAnswer m vendor part serial app dur ok => Sys2Proof.Machine.execModuleAnswer m vendor part serial app dur ok s
  | .modulePollTimeout m => Sys2Proof.Machine.execModulePollTimeout m s
  | .moduleReady m => Sys2Proof.Machine.execModuleReady m s
  | .moduleReadyTimeout m => Sys2Proof.Machine.execModuleReadyTimeout m s
  | .moduleRemove m ok => Sys2Proof.Machine.execModuleRemove m ok s
  | .moduleInt m fault los => Sys2Proof.Machine.execModuleInt m fault los s
  | .laserMinute m ok => Sys2Proof.Machine.execLaserMinute m ok s
  | .biasDriftSample m bias ok => Sys2Proof.Machine.execBiasDriftSample m bias ok s
  | .ledgerHourlyWrite ok => Sys2Proof.Machine.execLedgerHourlyWrite ok s
  | .opmFlush ok => Sys2Proof.Machine.execOpmFlush ok s
  | .opmDump iss v => Sys2Proof.Machine.execOpmDump iss v s
  | .opmReinit iss m v => Sys2Proof.Machine.execOpmReinit iss m v s
  | .opmManualWrite iss m v => Sys2Proof.Machine.execOpmManualWrite iss m v s
  | .opmPassGo iss v => Sys2Proof.Machine.execOpmPassGo iss v s
  | .opmPassDone nack v => Sys2Proof.Machine.execOpmPassDone nack v s
  | .traceBufferEnter n => Sys2Proof.Machine.execTraceBufferEnter n s
  | .counterSetSample k => Sys2Proof.Machine.execCounterSetSample k s
  | .snapGo iss v => Sys2Proof.Machine.execSnapGo iss v s
  | .snapAt => Sys2Proof.Machine.execSnapAt s
  | .snapCut => Sys2Proof.Machine.execSnapCut s
  | .snapCollect => Sys2Proof.Machine.execSnapCollect s
  | .jtagExtest tdi => Sys2Proof.Machine.execJtagExtest tdi s
  | .jtagSamplePreload tdi => Sys2Proof.Machine.execJtagSamplePreload tdi s
  | .jtagIdcode => Sys2Proof.Machine.execJtagIdcode s
  | .jtagClamp tdi => Sys2Proof.Machine.execJtagClamp tdi s
  | .jtagHighz tdi => Sys2Proof.Machine.execJtagHighz tdi s
  | .jtagRegAccess w => Sys2Proof.Machine.execJtagRegAccess w s
  | .jtagMemAccess w => Sys2Proof.Machine.execJtagMemAccess w s
  | .jtagTraceExport tdi => Sys2Proof.Machine.execJtagTraceExport tdi s
  | .jtagScan tdi => Sys2Proof.Machine.execJtagScan tdi s
  | .jtagBypass tdi => Sys2Proof.Machine.execJtagBypass tdi s
  | .trstNAssert => Sys2Proof.Machine.execTrstNAssert s
  | .sailRatioWrite iss k v => Sys2Proof.Machine.execSailRatioWrite iss k v s
  | .sailRatioRelock k => Sys2Proof.Machine.execSailRatioRelock k s
  | .sensorConversion codes ohmsA ohmsB vsail => Sys2Proof.Machine.execSensorConversion codes ohmsA ohmsB vsail s
  | .throttleForceWrite iss k v => Sys2Proof.Machine.execThrottleForceWrite iss k v s
  | .thermistorOpen x => Sys2Proof.Machine.execThermistorOpen x s
  | .thermistorClose x => Sys2Proof.Machine.execThermistorClose x s
  | .thermalTrip n => Sys2Proof.Machine.execThermalTrip n s
  | .vddAonFall => Sys2Proof.Machine.execVddAonFall s
  | .hostPortResetRelease x => Sys2Proof.Machine.execHostPortResetRelease x s
  | .pcieLinkUp x rate width flit fns => Sys2Proof.Machine.execPcieLinkUp x rate width flit fns s

end Sys2Proof.Machine
end

