-- ==== Sys2Proof/Machine/Step.lean ====
section
/-!
DEFINITION. One step: the command at the front of the queue, with the queue's rest; on an empty queue one frame passes.
-/
namespace Sys2Proof.Machine

/-- One step (log 1) (DESIGN CHOICE, log 12). -/
def step (s : State) : Host.Outcome State Fault Refusal :=
  match s.pending with
  | [] => .next { s with dev := s.dev.framePasses }
  | i :: rest => exec i { s with pending := rest }

/-- `s` with the command that a table word spells at the front of its queue (DESIGN CHOICE, log 12). -/
def State.withFetchWord (s : State) (nbits w : Nat) : State :=
  match decodeTableWord nbits w with
  | some i => { s with pending := i :: s.pending }
  | none => s

end Sys2Proof.Machine
end

