-- ==== Sys2Proof/Safety.lean ====
section
/-!
DEFINITION. The terms that the statements use: a command completes, what a step leaves alone, and a register write that
reaches its register.
-/
namespace Sys2Proof.Machine

/-- Command `i` completes from `s`: exec answers a next state, with the queue and the fuses of `s`, whose device satisfies `P`. -/
def Completes (i : Instr) (s : State) (P : Dev → Prop) : Prop :=
  ∃ t, exec i s = .next t ∧ t.pending = s.pending ∧ t.fuses = s.fuses ∧ P t.dev

/-- Every field of every register but the listed ones reads in `d'` as in `d`. -/
def SameRegs (d d' : Dev) (but : List (Field × List Nat)) : Prop :=
  ∀ (f : Field) (i : List Nat), (∀ e ∈ but, ¬(e.1.reg = f.reg ∧ e.1.lo = f.lo ∧ e.2 = i)) → d'.getF f i = d.getF f i

/-- Every field of every register but the listed fields, whatever their indices, reads in `d'` as in `d`. -/
def SameFields (d d' : Dev) (but : List Field) : Prop :=
  ∀ (f : Field) (i : List Nat), (∀ e ∈ but, ¬(e.reg = f.reg ∧ e.lo = f.lo)) → d'.getF f i = d.getF f i

/-- Only registers differ: memory, queues, packets, links and every engine stand as they did. -/
def OnlyRegs (d d' : Dev) : Prop := d' = { d with regs := d'.regs }

/-- Every byte of memory reads as before. -/
def SameMem (d d' : Dev) : Prop := ∀ a, d'.byte a = d.byte a

/-- Every byte of memory outside the `n` bytes at `a` reads as before. -/
def SameMemBut (d d' : Dev) (a n : Nat) : Prop := ∀ b, ¬(a ≤ b ∧ b < a + n) → d'.byte b = d.byte b

/-- Every byte of memory outside the listed runs (address, length) reads as before. -/
def SameMemRuns (d d' : Dev) (l : List (Nat × Nat)) : Prop := ∀ b, (∀ u ∈ l, ¬(u.1 ≤ b ∧ b < u.1 + u.2)) → d'.byte b = d.byte b

/-- Memory holds the bytes `l` from address `a` on. -/
def Stored (d : Dev) (a : Nat) (l : List Byte) : Prop := ∀ i : Nat, i < l.length → some (d.byte (a + i)) = l[i]?

/-- A write of `n` bytes at `a` by `w` lies in one place, whose owner admits it. -/
def Dev.mayStore (d : Dev) (w : Writes) (a n : Nat) : Bool := d.canWrite w a n && decide (a + n ≤ placeEnd a)

/-- `v` mV is a good VDD_SAIL: at most 760, and at least the minimum for the ratio of every sail in service, less 30 (R519, R538). -/
abbrev Dev.vsailGood (d : Dev) (v : Nat) : Prop :=
  v ≤ 760 ∧ sailMin 8 ≤ v + 30 ∧ ∀ k : Fin 4, d.dieOk (13 + k.val) = true → sailMin (d.getF F.PWR_SAIL_STAT_RATIO [k.val]) ≤ v + 30

/-- Slot `k` of tackle `t` holds run `r`, whose opcode is `o` and whose effect is still to come: no status, no parts and no access under
way. -/
abbrev Dev.runs (d : Dev) (t k o : Nat) (r : Run) : Prop :=
  d.runAt t k = some r ∧ opcode r.cmd.bytes = o ∧ r.status = none ∧ r.partsLeft = 0 ∧ r.partSts = [] ∧ d.bank.met = 0

/-- So does it on a tackle whose island runs, where the command executes. -/
abbrev Dev.executes (d : Dev) (t k o : Nat) (r : Run) : Prop := d.runs t k o r ∧ d.tckRuns t = true

/-- The islands that serve the `n` bytes at `a` run, so that an access there is neither held nor answered UNIT_RESET (R22, R58). -/
abbrev Dev.memUp (d : Dev) (a n : Nat) : Prop := ∀ i, i < max 1 n → d.islandOn (placeIsland (place (a + i))) = true

/-- So do those of every one of the runs (address, length). -/
abbrev Dev.runsUp (d : Dev) (l : List (Nat × Nat)) : Prop := ∀ u ∈ l, d.memUp u.1 u.2

/-- The command in slot `k` of tackle `t` has status `st`. -/
def Dev.hasStatus (d : Dev) (t k : Nat) (st : Status) : Prop := ∃ y, d.runAt t k = some y ∧ y.status = some st

/-- No posted access of the issuer's own host port, which must run, stands before a write of the issuer's, whose function must be on
(R115, R120, R125). -/
def Dev.portClear (d : Dev) : Issuer → Bool
  | .pf x => d.fnRuns x.val 0 && (nget [] d.host.posted [x.val]).isEmpty
  | .vf x f => d.fnRuns x.val f.val && (nget [] d.host.posted [x.val]).isEmpty
  | .plan _ => true
  | .jtag => true

/-- A write of `v` by `iss` takes effect at register `r`: nothing stands before it, the issuer has the right (R118), the
register's island runs (R553) and no lock changes the word (R7, R119). -/
def Dev.lands (d : Dev) (iss : Issuer) (r : RegName) (idx : List Nat) (v : Nat) : Bool :=
  match descOf r with
  | some x =>
    d.portClear iss && d.mayWrite iss x.writer r idx && decide (d.reach r idx = .open) && decide (v < 2 ^ x.width)
      && decide (d.unlocked iss r idx v = v)
  | none => false

/-- The codewords with control code `c` and argument `arg` that a port sends in the period with SEQ `seq`: one on each lane of its
transmit live set (R145). -/
def Dev.codewords (d : Dev) (k : Nat × Nat) (c : CtrlCode) (arg seq : Nat) : List Out :=
  (onesOf 16 (d.live16 k true)).map (fun i => .codeword k.1 (d.laneOf k i) (CtrlField.mk i c arg seq).enc [])

/-- The codewords of an announcement: its code in each of the periods with SEQ 224 to 227 (R148). -/
def Dev.announcement (d : Dev) (k : Nat × Nat) (c : CtrlCode) (arg : Nat) : List Out :=
  (List.range 4).flatMap (fun j => d.codewords k c arg (224 + j))

/-- Command `c` of queue `q` of tackle `t` reports status `st`: when it asks for a record, the queue has a ring for it and the device
is not headless, a completion
record with its index and that status waits for the ring (R396). -/
def Reports (d d' : Dev) (t q : Nat) (c : Cmd) (st : Status) : Prop :=
  d.headless = false → c.parent = none → cbit c.bytes 1 0 = true → d.flag F.TCK_QCFG_REC_EN [t, q] = true →
    ∃ x ∈ d'.host.recs, x.ring = d.getF F.TCK_QCFG_REC_RING [t, q] ∧ x.owner = some t ∧ cb x.bytes 4 = 0x41 ∧ cb x.bytes 5 = st.code
      ∧ leAt x.bytes 12 4 = c.index % 2 ^ 32

/-- Command `c` completes: it leaves the head of its queue, TCK_DONE counts it, and it reports its status. -/
def HeadCompletes (d d' : Dev) (t q : Nat) (c : Cmd) (st : Status) : Prop :=
  (d'.queue t q).map (·.bytes) = ((d.queue t q).map (·.bytes)).tail
    ∧ d'.getF F.TCK_DONE_COUNT [t] = (d.getF F.TCK_DONE_COUNT [t] + 1) % 2 ^ 64 ∧ Reports d d' t q c st

/-- What a reset leaves no trace of, and every step keeps: memory in its one canonical form. -/
def Dev.MemOk (d : Dev) : Prop := Memory.wf d.mem = true

end Sys2Proof.Machine
end

