-- ==== Sys2Proof/Certificates/Slice0/Obligations.lean ====
section
/-!
DEFINITION. The statements. Each completion clause names the conditions under which a row has its own effect, and that effect.
-/
open Sys2Proof Sys2Proof.Machine

/-- A step runs the command at the front of the queue. For every command c, rest of a queue and state s whose queue is c followed
by rest, step s is exec of c on s with the queue rest. (The queue is the model's form of the order in which commands arrive,
log 1.) Basis: 95_what_each_step_holds. -/
def Obligations.StepRunsTheFrontCommand : Prop :=
  ∀ (c : Instr) (rest : List Instr) (s : State), s.pending = c :: rest → step s = exec c { s with pending := rest }

/-- On an empty queue one frame of 160 ns passes. On an empty queue a step answers a next state in which time has moved by 6,400
units of 25 ps, one frame more once Hoist has synchronised, and fabric time on by 6,400 units modulo 2^64 where it runs; all of
memory, the fuses, the queue and every other register stand but the digest engine's backlog, the lanes' codeword counts and the count
of open contexts of a controller whose context's entries come to exist; before Hoist has synchronised no register changes. That a
step on an empty queue is one frame is the model's choice (log 1). Basis: R48, R64. -/
def Obligations.AnEmptyQueuePassesOneFrame : Prop :=
  ∀ s : State, s.pending = [] → ∃ t, step s = .next t ∧ t.pending = [] ∧ t.fuses = s.fuses ∧ t.dev.clk.now = s.dev.clk.now + 6400 ∧
    SameFields s.dev t.dev [F.FAB_TIME_TIME, F.MST_DIG_STAT_BACKLOG, F.YRD_COLL_OPEN_COUNT, F.LNE_FEC_CW_COUNT, F.LNE_FEC_CORR_COUNT,
      F.LNE_FEC_UCW_COUNT, F.LNE_FEC_HIST_COUNT] ∧ SameMem s.dev t.dev ∧
    (¬(s.dev.clk.phase = .synced ∨ s.dev.clk.phase = .released ∨ s.dev.clk.phase = .running) → SameRegs s.dev t.dev []) ∧
    ((s.dev.clk.phase = .synced ∨ s.dev.clk.phase = .released ∨ s.dev.clk.phase = .running) →
      t.dev.clk.frame = s.dev.clk.frame + 1 ∧
      (s.dev.clk.fabRun = true → t.dev.fabTime = (s.dev.fabTime + 6400) % 2 ^ 64) ∧ (s.dev.clk.fabRun = false → t.dev.fabTime = s.dev.fabTime))

/-- Every well-formed command answers a next state and leaves the queue alone. A command whose operands are well formed answers a
next state with the queue unchanged, and with the fuses unchanged unless it is FUSE_PROG_DONE; the one exception is
RESET_N_RELEASE after a start whose rails rose out of order, which ends in the fault startUndefined (R542). A command with
ill-formed operands is refused as ill formed (the model's own check). Where the rules leave a point open, the model's choice
is meant: log 13. Basis: R542, R94. -/
def Obligations.EveryWellFormedCommandCompletes : Prop :=
  (∀ (i : Instr) (s : State), i.wf = true →
      (∃ a b c, i = .resetNRelease a b c ∧ s.dev.clk.phase = .held ∧ s.dev.clk.badStart = true ∧ exec i s = .fault .startUndefined) ∨
      (∃ t, exec i s = .next t ∧ t.pending = s.pending ∧ (i ≠ .fuseProgDone → t.fuses = s.fuses))) ∧
  (∀ (i : Instr) (s : State), i.wf = false → exec i s = .refused .illFormed)

/-- No step ever unblows a fuse. For every state s, if step s answers next t, then every key revoked in s is revoked in t, the
least firmware version allowed by the fuses is no lower, debug closed in s is closed in t, and the fuses that name the good
units and the keys are the same. Basis: R112, R113. -/
def Obligations.FusesAreOnlyEverBlown : Prop :=
  ∀ s t : State, step s = .next t →
    (∀ k, bit s.fuses.keyRevoked k = true → bit t.fuses.keyRevoked k = true) ∧ s.fuses.secVerMin ≤ t.fuses.secVerMin ∧
    (s.fuses.debugClosed = true → t.fuses.debugClosed = true) ∧
    t.fuses.unitsOk = s.fuses.unitsOk ∧ t.fuses.coreOk = s.fuses.coreOk ∧ t.fuses.vecOk = s.fuses.vecOk ∧
    t.fuses.bseVecOk = s.fuses.bseVecOk ∧ t.fuses.keyHash = s.fuses.keyHash

/-- PLL locks, HOIST_SYNC, island release, the end of Hoist and its timeout. PLL_LOCK in the 100 µs that Hoist waits for locks sets the
die's lock bit and no other, and later than that it sets none; the last one fixes the time L; HOIST_SYNC, with every die locked for 1 µs, starts the frame
counters and fabric time at 0; ISLAND_RESET_RELEASE at frame 25 sets the clock-on bit of every island in service; HOIST_DONE
at frame 33 sets DONE and FREE_XING; PLL_TIMEOUT 100 µs after time zero sets FAIL to PLL and FAIL_DIE, and releases islands of the
Mast alone, where its own PLL has locked. None writes memory.
Where the rules leave a point open, the model's choice is meant: log 6. Basis: R61, R62, R63. -/
def Obligations.HoistRunsInItsOrder : Prop :=
  (∀ (s : State) (n : Fin 25), s.dev.clk.phase = .locking → s.dev.clk.now ≤ s.dev.clk.timeZero + us 100 →
    Completes (.pllLock n) s (fun d => d.locked n.val = true ∧ (∀ m : Fin 25, m ≠ n → d.locked m.val = s.dev.locked m.val) ∧ SameMem s.dev d ∧
      d.clk.phase = .locking ∧ SameRegs s.dev d [((lockBit n.val).1, [])] ∧
      (s.dev.locked n.val = false → d.allLocked = true → d.clk.lastLock = s.dev.clk.now))) ∧
  (∀ (s : State) (n : Fin 25), s.dev.clk.phase = .locking → s.dev.clk.timeZero + us 100 < s.dev.clk.now →
    exec (.pllLock n) s = .next s) ∧
  (∀ s : State, s.dev.clk.phase = .locking → s.dev.allLocked = true → s.dev.clk.lastLock + us 1 ≤ s.dev.clk.now →
    Completes .hoistSync s (fun d => d.clk.phase = .synced ∧ d.clk.frame = 0 ∧ d.clk.fabRun = true ∧ d.fabTime = 0 ∧
      SameRegs s.dev d [(F.FAB_TIME_TIME, [])] ∧ SameMem s.dev d)) ∧
  (∀ (s : State) (miss : List (Fin 25 × Nat)), s.dev.clk.phase = .synced → 25 ≤ s.dev.clk.frame → s.dev.jtag.scanned = false →
    Completes (.islandResetRelease miss) s (fun d => d.clk.phase = .released ∧ SameMem s.dev d ∧
      ∀ g : Fin 1520, s.dev.islandInService g.val = true → d.islandOn g.val = true)) ∧
  (∀ s : State, s.dev.clk.phase = .released → 33 ≤ s.dev.clk.frame →
    Completes .hoistDone s (fun d => d.clk.phase = .running ∧ d.flag F.MST_HOIST_STAT_DONE = true ∧
      d.getF F.MST_HOIST_STAT_FREE_XING = s.dev.freeTotal % 2 ^ F.MST_HOIST_STAT_FREE_XING.w ∧
      SameRegs s.dev d [(F.MST_HOIST_STAT_DONE, []), (F.MST_HOIST_STAT_FREE_XING, []), (F.MST_DET_STAT_HELD_START, [])] ∧ SameMem s.dev d)) ∧
  (∀ (s : State) (n : Fin 25), s.dev.clk.phase = .locking → s.dev.locked n.val = false → s.dev.clk.timeZero + us 100 ≤ s.dev.clk.now →
    Completes (.pllTimeout n) s (fun d => d.clk.phase = .pllFailed ∧ d.getF F.MST_HOIST_STAT_FAIL = 1 ∧ d.getF F.MST_HOIST_STAT_FAIL_DIE = n.val ∧ SameMem s.dev d ∧
      ∀ g : Fin 1520, d.islandOn g.val = (s.dev.islandOn g.val ||
        (s.dev.locked 0 && decide (islandDie g.val = 0) && s.dev.islandInService g.val && (!s.dev.jtag.scanned || g.val == 0)))))

/-- Fabric time changes by whole steps at frame starts, and time exchanges are sent and received. FABRIC_TIME_STEP adds the oldest
waiting step to fabric time modulo 2^64 and counts it; where the new time passes no scheduled event nothing else happens, and a
forward step lets the events that it passes take effect one after another in the order of their times; AUTO_STEP_ALIGN steps by the
offset of the first accepted parent exchange and sets ALIGNED; TIMEX_REQUEST_SEND queues a request with the EXCH_ID that the port chooses and
waits for its reply; TIMEX_REQUEST_RECEIVE queues the reply with the request's EXCH_ID and the time at which it came; TIMEX_REPLY_RECEIVE stores
the peer's offset and delay by R66; TIMEX_LOST, 4 µs after the request, ends the wait and counts it. None writes memory. Where the rules
leave a point open, the model's choice is meant: logs 15, 81. Basis: R65, R66, R67, R72. -/
def Obligations.FabricTimeStepsAndExchanges : Prop :=
  (∀ (s : State) (v : Nat) (rest : List Nat), s.dev.clk.steps = v :: rest → s.dev.clk.fabRun = true → s.dev.headless = false →
    (∀ x ∈ s.dev.scheduled, (s.dev.fabTime + v) % 2 ^ 64 < x.1) →
    Completes .fabricTimeStep s (fun d => d.fabTime = (s.dev.fabTime + v) % 2 ^ 64 ∧ d.clk.steps = rest ∧
      d.getF F.FAB_STAT_STEP_CNT = (s.dev.getF F.FAB_STAT_STEP_CNT + 1) % 2 ^ F.FAB_STAT_STEP_CNT.w ∧
      SameRegs s.dev d [(F.FAB_TIME_TIME, []), (F.FAB_STAT_STEP_CNT, []), (F.FAB_STAT_ALIGNED, [])] ∧ SameMem s.dev d)) ∧
  (∀ (s : State) (v : Nat) (rest : List Nat), s.dev.clk.steps = v :: rest → s.dev.clk.fabRun = true → s.dev.headless = false →
    0 < v → v < 2 ^ 63 →
    Completes .fabricTimeStep s (fun d => ∃ u : Dev, u.fabTime = (s.dev.fabTime + v) % 2 ^ 64 ∧
      SameRegs s.dev u [(F.FAB_TIME_TIME, []), (F.FAB_STAT_STEP_CNT, []), (F.FAB_STAT_ALIGNED, [])] ∧ SameMem s.dev u ∧
      (∀ x ∈ s.dev.scheduled, x.1 ≤ u.fabTime → x ∈ u.passed) ∧ u.passed.Pairwise (fun x y => x.1 ≤ y.1) ∧
      d = u.passed.foldl (fun a x => a.timed x.2) u)) ∧
  (∀ (s : State) (o : Nat), s.dev.clk.autoStep = some o → s.dev.clk.fabRun = true → s.dev.headless = false → s.dev.flag F.FAB_CTRL_AUTO_STEP = true →
    (∀ x ∈ s.dev.scheduled, (s.dev.fabTime + o) % 2 ^ 64 < x.1) →
    Completes .autoStepAlign s (fun d => d.fabTime = (s.dev.fabTime + o) % 2 ^ 64 ∧ d.flag F.FAB_STAT_ALIGNED = true ∧ d.clk.autoStep = none ∧
      d.getF F.FAB_STAT_STEP_CNT = (s.dev.getF F.FAB_STAT_STEP_CNT + 1) % 2 ^ F.FAB_STAT_STEP_CNT.w ∧
      SameRegs s.dev d [(F.FAB_TIME_TIME, []), (F.FAB_STAT_STEP_CNT, []), (F.FAB_STAT_ALIGNED, [])] ∧ SameMem s.dev d)) ∧
  (∀ (s : State) (p : Fin 8) (e : Fin 32) (exch : BitVec 16), s.dev.portUp (p.val, e.val) = true → s.dev.peerFeat (p.val, e.val) 1 = true →
    s.dev.timexDue (p.val, e.val) = true →
    Completes (.timexRequestSend p e exch) s (fun d => (d.timexOf (p.val, e.val)).waiting = true ∧
      (d.timexOf (p.val, e.val)).exch = exch.toNat ∧ (d.timexOf (p.val, e.val)).sentAt = s.dev.clk.now ∧
      (d.link (p.val, e.val)).timex = (s.dev.link (p.val, e.val)).timex ++
        [timexBlock 1 (s.dev.getF F.FAB_STAT_ALIGNED) exch.toNat 0 0] ∧ SameRegs s.dev d [] ∧ SameMem s.dev d)) ∧
  (∀ (s : State) (p : Fin 8) (e : Fin 32) (b : List (BitVec 8)) (ago : Fin 64) (sym : Fin 17000), s.dev.portUp (p.val, e.val) = true →
    s.dev.peerFeat (p.val, e.val) 1 = true → b.length = 240 → leAt b 0 1 = 1 →
    Completes (.timexRequestReceive p e b ago sym) s (fun d => (d.link (p.val, e.val)).timex = (s.dev.link (p.val, e.val)).timex ++
        [timexBlock 2 (s.dev.getF F.FAB_STAT_ALIGNED) (leAt b 2 2) 0 (s.dev.stampAt ago.val sym.val)] ∧ SameRegs s.dev d [] ∧ SameMem s.dev d)) ∧
  (∀ (s : State) (p : Fin 8) (e : Fin 32) (b : List (BitVec 8)) (rx : Fin 64 × Fin 17000), s.dev.portUp (p.val, e.val) = true → b.length = 240 →
    (s.dev.timexOf (p.val, e.val)).waiting = true → leAt b 0 1 = 2 → leAt b 2 2 = (s.dev.timexOf (p.val, e.val)).exch →
    Completes (.timexReplyReceive p e b rx) s (fun d => (d.timexOf (p.val, e.val)).waiting = false ∧
      (∀ v, v = timexValues 0 (stampDiff (leAt b 24 8 * 256 + leAt b 32 1) (s.dev.timexOf (p.val, e.val)).t1) 0
          (stampDiff (s.dev.stampAt rx.1.val rx.2.val) (leAt b 8 8 * 256 + leAt b 16 1)) (toSigned 32 (s.dev.getF F.FAB_ASYM_ASYM [p.val, e.val])) →
        d.getF F.FAB_PEER_OFS_OFS [p.val, e.val] = ofSigned 64 v.1 ∧ d.getF F.FAB_PEER_DLY_DLY [p.val, e.val] = ofSigned 32 v.2) ∧
      SameRegs s.dev d [(F.FAB_PEER_OFS_OFS, [p.val, e.val]), (F.FAB_PEER_DLY_DLY, [p.val, e.val]), (F.FAB_STAT_DRIFT, [])] ∧ SameMem s.dev d)) ∧
  (∀ (s : State) (p : Fin 8) (e : Fin 32), (s.dev.timexOf (p.val, e.val)).waiting = true →
    (s.dev.timexOf (p.val, e.val)).sentAt + us 4 ≤ s.dev.clk.now →
    Completes (.timexLost p e) s (fun d => (d.timexOf (p.val, e.val)).waiting = false ∧
      d.getF F.PRT_LNK_TIMEX_LOST_COUNT [p.val, e.val] = min (s.dev.getF F.PRT_LNK_TIMEX_LOST_COUNT [p.val, e.val] + 1) (2 ^ 32 - 1) ∧
      SameRegs s.dev d [(F.PRT_LNK_TIMEX_LOST_COUNT, [p.val, e.val])] ∧ SameMem s.dev d))

/-- Clock holds, fabric-time steps, the run anchor and the choice counters. A write of MST_CLK_HOLD that lands stores the holds
(the last word has 16); HOLD_LONG sets its bit once some hold has stood for more than 10 ms; ISLAND_CLOCK_STOP of a lane
island that is reefed, with no hold on it, clears the clock-on bit and stops the island without reset; a write of FAB_STEP
waits for the next frame start; a write of MST_DET_ANCHOR stores the time, clears ANCHOR_PASSED and, where ANCHOR_EN is 1, holds
dispatch from the next frame start on, or goes on holding it; ANCHOR_RELEASE at a later frame start ends the hold once fabric time has
reached the anchor, or ANCHOR_EN was cleared; MST_DET_CTRL.CLR zeroes every choice counter.
None writes memory. Basis: R58, R59, R60, R72, R74, R80, R93. -/
def Obligations.HoldsStepsAndTheRunAnchor : Prop :=
  (∀ (s : State) (iss : Issuer) (i : Fin 48) (v : BitVec 32), s.dev.lands iss .MST_CLK_HOLD [i.val] v.toNat = true →
    Completes (.clkHoldWrite iss i v) s (fun d => d.getF F.MST_CLK_HOLD_HOLD [i.val] = (if i.val = 47 then v.toNat % 65536 else v.toNat) ∧
      SameRegs s.dev d [(F.MST_CLK_HOLD_HOLD, [i.val])] ∧ SameMem s.dev d)) ∧
  (∀ (s : State) (h : List Nat × Nat), h ∈ s.dev.clk.holdSince → h.2 + ms 10 < s.dev.clk.now →
    Completes .holdLong s (fun d => d.flag F.MST_CLK_STAT_HOLD_LONG = true ∧ SameRegs s.dev d [(F.MST_CLK_STAT_HOLD_LONG, [])] ∧ OnlyRegs s.dev d)) ∧
  (∀ (s : State) (g : Fin 1520) (p l : Nat), laneIsland g.val = some (p, l) → s.dev.laneState p l = 6 → s.dev.islandOn g.val = true →
    s.dev.islandHeldOn g.val = false → ratioIsland g.val = none →
    Completes (.islandClockStop g) s (fun d => d.islandOn g.val = false ∧ d.islandStopped g.val = true ∧ d.islandInReset g.val = false ∧
      SameRegs s.dev d [(F.MST_CLKON_ON, [g.val / 32])] ∧ SameMem s.dev d)) ∧
  (∀ (s : State) (iss : Issuer) (v : BitVec 64), s.dev.lands iss .FAB_STEP [] v.toNat = true →
    Completes (.fabStepWrite iss v) s (fun d => d.clk.steps = s.dev.clk.steps ++ [v.toNat] ∧ d.fabTime = s.dev.fabTime ∧ SameRegs s.dev d [] ∧ SameMem s.dev d)) ∧
  (∀ (s : State) (iss : Issuer) (v : BitVec 64), s.dev.lands iss .MST_DET_ANCHOR [] v.toNat = true →
    Completes (.detAnchorWrite iss v) s (fun d => d.getF F.MST_DET_ANCHOR_ANCHOR = v.toNat ∧ d.flag F.MST_DET_STAT_ANCHOR_PASSED = false ∧
      (s.dev.flag F.MST_DET_CTRL_ANCHOR_EN = true →
        d.eng.anchorFrom = some (s.dev.eng.anchorFrom.getD (s.dev.clk.now + 6400)) ∧ d.eng.anchorAt = s.dev.clk.now) ∧
      SameRegs s.dev d [(F.MST_DET_ANCHOR_ANCHOR, []), (F.MST_DET_STAT_ANCHOR_PASSED, [])] ∧ SameMem s.dev d)) ∧
  (∀ s : State, s.dev.anchorHolds = true → s.dev.eng.anchorAt < s.dev.clk.now → s.dev.flag F.MST_DET_CTRL_ANCHOR_EN = true → s.dev.getF F.MST_DET_ANCHOR_ANCHOR ≤ s.dev.fabTime →
    Completes .anchorRelease s (fun d => d.anchorHolds = false ∧ d.flag F.MST_DET_STAT_ANCHOR_PASSED = true ∧
      SameRegs s.dev d [(F.MST_DET_STAT_ANCHOR_PASSED, [])] ∧ SameMem s.dev d)) ∧
  (∀ s : State, s.dev.anchorHolds = true → s.dev.eng.anchorAt < s.dev.clk.now → s.dev.flag F.MST_DET_CTRL_ANCHOR_EN = false →
    Completes .anchorRelease s (fun d => d.anchorHolds = false ∧ SameRegs s.dev d [] ∧ SameMem s.dev d)) ∧
  (∀ (s : State) (iss : Issuer) (v : BitVec 32), s.dev.lands iss .MST_DET_CTRL [] (v.toNat ||| 0x2) = true →
    Completes (.detClr iss v) s (fun d => d.getF F.MST_TDC_TOTAL_TOTAL = 0 ∧ d.flag F.MST_DET_STAT_TDC_ANY = false ∧ d.getF F.MST_TDC_FIRST_TIME = 0 ∧
      (∀ c : Fin 16, d.getF F.MST_TDC_CNT_COUNT [c.val] = 0) ∧ SameMem s.dev d))

/-- Power, the reset pin, brownout, lost reference and headlessness. After VDD_AON rises the device is held, with every register
at its reset value but those the fuses give, and nothing in memory; a low pulse on RESET_N and a brownout hold a device that
was running and set their cause, with every queue, packet and ring gone; RESET_N_RELEASE and RAILS_GOOD_RESTART with SYSREF
present fix time zero, take HELM from the strap and let the PLLs lock; SYSREF_LOSS while edges arrive sets REF_LOST and AO_BACKUP, and holds every island but
the always-on one; while the device is held it shows the loss alone, and edges that return show in REF_PRESENT alone; VDD_AON_FALL and a thermal trip end the same way. A start whose rails rose out of order stops with
startUndefined (R542). Where the rules leave a point open, the model's choice is meant: logs 3, 4, 69. Basis: R47, R94, R95, R96, R104, R105, R112, R117, R540, R541, R542. -/
def Obligations.ResetsAndStartsOfTheDevice : Prop :=
  (∀ (s : State) (inOrder : Bool), s.dev.clk.phase = .off →
    Completes (.powerOnReset inOrder) s (fun d => d.clk.phase = .held ∧ d.mem = [] ∧ d.flag F.MST_RST_CAUSE_POWER_ON = true ∧ d.clk.badStart = !inOrder ∧
      d.getF F.MST_SEC_FUSE_SEC_VER_MIN = s.fuses.secVerMin % 2 ^ F.MST_SEC_FUSE_SEC_VER_MIN.w ∧ d.boot.flash = s.dev.boot.flash)) ∧
  (∀ s : State, s.dev.clk.phase ≠ .off →
    Completes .resetNPulse s (fun d => d.clk.phase = .held ∧ d.clk.badStart = false ∧ d.mem = memLose s.dev.mem (fun a => decide (a < 0x300020000000)) ∧
      d.flag F.MST_RST_CAUSE_PIN = true ∧ d.net = NetSt.zero ∧ d.eng = EngSt.zero ∧ d.coll = CollSt.zero ∧ d.host = { HostSt.zero with perst := s.dev.host.perst })) ∧
  (∀ (s : State) (helm : Fin 4) (vsail : BitVec 16), s.dev.clk.phase = .held → s.dev.clk.badStart = false → s.dev.clk.brown = false → s.dev.holdRunning = false →
    Completes (.resetNRelease true helm vsail) s (fun d => d.clk.phase = .locking ∧ d.clk.timeZero = s.dev.clk.now ∧ d.clk.helm = helm.val ∧
      d.getF F.MST_HELM_HELM = helm.val ∧ d.flag F.MST_CLK_STAT_REF_PRESENT = true ∧ d.flag F.MST_RST_STAT_BUSY = false ∧ d.islandOn 0 = true ∧ SameMem s.dev d)) ∧
  (∀ (s : State) (sysref : Bool) (helm : Fin 4) (vsail : BitVec 16), s.dev.clk.phase = .held → s.dev.clk.badStart = true →
    exec (.resetNRelease sysref helm vsail) s = .fault .startUndefined) ∧
  (∀ (s : State) (good : BitVec 11), good ≠ 0x7FF → s.dev.clk.phase = .running →
    Completes (.brownout good) s (fun d => d.clk.phase = .held ∧ d.clk.brown = true ∧ d.getF F.PWR_RAIL_STAT_GOOD = good.toNat ∧
      d.flag F.MST_RST_CAUSE_BROWNOUT = true ∧ d.net = NetSt.zero ∧ d.eng = EngSt.zero ∧ d.mem = memLose s.dev.mem (fun a => decide (a < 0x300020000000)))) ∧
  (∀ (s : State) (helm : Fin 4) (vsail : BitVec 16), s.dev.clk.phase = .held → s.dev.clk.brown = true →
    Completes (.railsGoodRestart true helm vsail) s (fun d => d.clk.phase = .locking ∧ d.clk.brown = false ∧ d.clk.timeZero = s.dev.clk.now ∧
      d.getF F.MST_HELM_HELM = helm.val ∧ d.getF F.PWR_RAIL_STAT_GOOD = 0x7FF ∧ SameMem s.dev d)) ∧
  (∀ s : State, s.dev.clk.phase = .running → s.dev.clk.sysref = true →
    Completes .sysrefLoss s (fun d => d.clk.phase = .refLost ∧ d.flag F.MST_CLK_STAT_REF_LOST = true ∧ d.flag F.MST_CLK_STAT_REF_PRESENT = false ∧
      d.flag F.MST_CLK_STAT_AO_BACKUP = true ∧
      (∀ g : Fin 1520, g.val ≠ 0 → d.islandOn g.val = false) ∧ d.net = NetSt.zero ∧ d.eng = EngSt.zero ∧ SameMem s.dev d)) ∧
  (∀ s : State, s.dev.clk.phase = .held → s.dev.clk.sysref = true →
    Completes .sysrefLoss s (fun d => d.clk.phase = .held ∧ d.flag F.MST_CLK_STAT_REF_LOST = true ∧ d.flag F.MST_CLK_STAT_AO_BACKUP = true ∧
      d.flag F.MST_CLK_STAT_REF_PRESENT = false ∧ SameMem s.dev d)) ∧
  (∀ s : State, s.dev.clk.phase ≠ .off → s.dev.clk.sysref = false →
    Completes .sysrefLoss s (fun d => d.clk.phase = s.dev.clk.phase ∧ d.flag F.MST_CLK_STAT_REF_PRESENT = true ∧
      SameRegs s.dev d [(F.MST_CLK_STAT_REF_PRESENT, [])] ∧ SameMem s.dev d)) ∧
  (∀ s : State, s.dev.clk.phase ≠ .off →
    Completes .vddAonFall s (fun d => d.clk.phase = .off ∧ d.regs = [] ∧ d.mem = memLose s.dev.mem (fun a => decide (a < 0x300020000000)) ∧ d.net = NetSt.zero ∧ d.boot.flash = s.dev.boot.flash)) ∧
  (∀ (s : State) (n : Fin 25), s.dev.clk.phase ≠ .off → s.dev.pwr.trip = false →
    Completes (.thermalTrip n) s (fun d => d.clk.phase = .tripped ∧ d.pwr.trip = true ∧ d.net = NetSt.zero ∧ d.eng = EngSt.zero))

/-- MST_RST_REQ by scope, and the release of a partial reset. A write of MST_RST_REQ with KEY 0xA5 that lands: DEVICE holds the
device in reset with SOFTWARE as a cause and BUSY set, but where only RESET_N restarts the device it is recorded alone; DIE puts the named die into its reset from now on; ISLAND puts the
island into its reset; TACKLE puts the tackle into its reset (each when no request runs and the target is there and in
service); PARTIAL_RESET_RELEASE ends a tackle or island request and clears BUSY. A request with another key has no effect.
Where the rules leave a point open, the model's choice is meant: log 62. Basis: R104, R105, R106, R107, R108. -/
def Obligations.ResetRequestsAndTheirRelease : Prop :=
  (∀ (s : State) (iss : Issuer), s.dev.lands iss .MST_RST_REQ [] (rstReqWord 1 false 0xA5 0) = true →
    s.dev.clk.phase ≠ .off → s.dev.clk.phase ≠ .refAbsent → s.dev.clk.phase ≠ .tripped →
    Completes (.rstReqDevice iss 0xA5) s (fun d => d.clk.phase = .held ∧ d.flag F.MST_RST_CAUSE_SOFTWARE = true ∧ d.flag F.MST_RST_STAT_BUSY = true ∧
      d.rst.req = some ⟨1, 0, s.dev.clk.now⟩ ∧ d.net = NetSt.zero ∧ d.eng = EngSt.zero ∧ d.mem = memLose s.dev.mem (fun a => decide (a < 0x300020000000)))) ∧
  (∀ (s : State) (iss : Issuer), s.dev.lands iss .MST_RST_REQ [] (rstReqWord 1 false 0xA5 0) = true →
    (s.dev.clk.phase = .refAbsent ∨ s.dev.clk.phase = .tripped) →
    Completes (.rstReqDevice iss 0xA5) s (fun d => d.clk = s.dev.clk ∧ d.flag F.MST_RST_CAUSE_SOFTWARE = true ∧ d.flag F.MST_RST_STAT_BUSY = true ∧
      SameRegs s.dev d [(F.MST_RST_CAUSE_SOFTWARE, []), (F.MST_RST_CAUSE_COUNT, []), (F.MST_RST_STAT_BUSY, []), (F.MST_RST_STAT_LAST_TARGET, [])] ∧
      SameMem s.dev d)) ∧
  (∀ (s : State) (iss : Issuer) (target : BitVec 16) (n : DieNo), s.dev.lands iss .MST_RST_REQ [] (rstReqWord 2 false 0xA5 target) = true →
    s.dev.flag F.MST_RST_STAT_BUSY = false → resetDie target.toNat = some n → s.dev.dieAbsent n = false →
    Completes (.rstReqDie iss 0xA5 target) s (fun d => nget? d.rst.dies [n] = some s.dev.clk.now)) ∧
  (∀ (s : State) (iss : Issuer) (target : BitVec 16), s.dev.lands iss .MST_RST_REQ [] (rstReqWord 3 false 0xA5 target) = true →
    s.dev.flag F.MST_RST_STAT_BUSY = false → 8 ≤ target.toNat → target.toNat < 1520 → s.dev.dieAbsent (islandDie target.toNat) = false →
    s.dev.islandOut target.toNat = false →
    Completes (.rstReqIsland iss 0xA5 target) s (fun d => (nget? d.rst.islands [target.toNat]).isSome = true)) ∧
  (∀ (s : State) (iss : Issuer) (target : BitVec 16) (flush : Bool), s.dev.lands iss .MST_RST_REQ [] (rstReqWord 4 flush 0xA5 target) = true →
    s.dev.flag F.MST_RST_STAT_BUSY = false → s.dev.resetTargetOk 4 target.toNat = true → s.dev.unitOut target.toNat = false →
    Completes (.rstReqTackle iss 0xA5 target flush) s (fun d => d.tckInReset target.toNat = true ∧ ∀ q < 4, d.halted target.toNat q = false)) ∧
  (∀ (s : State) (iss : Issuer) (key : BitVec 8) (target : BitVec 16), key ≠ 0xA5 → s.dev.lands iss .MST_RST_REQ [] (rstReqWord 2 false key target) = true →
    Completes (.rstReqDie iss key target) s (fun d => d = s.dev)) ∧
  (∀ (s : State) (t since : Nat), s.dev.rst.req = some ⟨4, t, since⟩ → s.dev.clk.phase = .running → s.dev.unitOut t = false →
    Completes .partialResetRelease s (fun d => d.rst.req = none ∧ d.tckInReset t = false ∧ d.flag F.MST_RST_STAT_BUSY = false ∧ SameMem s.dev d ∧
      d.getF F.MST_TDC_TOTAL_TOTAL = (s.dev.getF F.MST_TDC_TOTAL_TOTAL + 1) % 2 ^ F.MST_TDC_TOTAL_TOTAL.w)) ∧
  (∀ (s : State) (g : Fin 1520) (since : Nat), s.dev.rst.req = some ⟨3, g.val, since⟩ → s.dev.clk.phase = .running → s.dev.islandOut g.val = false →
    s.dev.jtag.scanned = false → s.dev.islandInService g.val = true →
    Completes .partialResetRelease s (fun d => d.rst.req = none ∧ d.islandOn g.val = true ∧ d.flag F.MST_RST_STAT_BUSY = false ∧ SameMem s.dev d))

/-- MST_FUSE_PROG starts one operation, and its end blows the fuses. A write of MST_FUSE_PROG that lands, with the confirm code
0xF05E while no operation runs, starts RAISE_SEC_VER (for an argument from SEC_VER_MIN up to the running image's version and
64), REVOKE_KEY (0 to 3) or DEBUG_CLOSE, and sets PROG_BUSY; with another confirm code it sets PROG_FAIL and starts nothing.
FUSE_PROG_DONE blows the fuses of the operation, shows them and clears PROG_BUSY. None writes memory. Where the rules leave a
point open, the model's choice is meant: log 47. Basis: R112, R113. -/
def Obligations.FusesAreProgrammedThroughOneRegister : Prop :=
  (∀ (s : State) (iss : Issuer) (arg : BitVec 8), s.dev.lands iss .MST_FUSE_PROG [] (fuseProgWord 1 arg 0xF05E) = true →
    s.dev.flag F.MST_SEC_FUSE_PROG_BUSY = false → s.dev.getF F.MST_SEC_FUSE_SEC_VER_MIN ≤ arg.toNat → arg.toNat ≤ s.dev.getF F.MST_BOOT_STAT_SEC_VER →
    arg.toNat ≤ 64 →
    Completes (.raiseSecVer iss arg 0xF05E) s (fun d => d.flag F.MST_SEC_FUSE_PROG_BUSY = true ∧ d.boot.prog = some (1, arg.toNat) ∧
      SameRegs s.dev d [(F.MST_SEC_FUSE_PROG_BUSY, [])] ∧ SameMem s.dev d)) ∧
  (∀ (s : State) (iss : Issuer) (arg : BitVec 8), s.dev.lands iss .MST_FUSE_PROG [] (fuseProgWord 2 arg 0xF05E) = true →
    s.dev.flag F.MST_SEC_FUSE_PROG_BUSY = false → arg.toNat ≤ 3 →
    Completes (.revokeKey iss arg 0xF05E) s (fun d => d.flag F.MST_SEC_FUSE_PROG_BUSY = true ∧ d.boot.prog = some (2, arg.toNat) ∧
      SameRegs s.dev d [(F.MST_SEC_FUSE_PROG_BUSY, [])] ∧ SameMem s.dev d)) ∧
  (∀ (s : State) (iss : Issuer) (arg : BitVec 8), s.dev.lands iss .MST_FUSE_PROG [] (fuseProgWord 3 arg 0xF05E) = true →
    s.dev.flag F.MST_SEC_FUSE_PROG_BUSY = false →
    Completes (.debugClose iss arg 0xF05E) s (fun d => d.flag F.MST_SEC_FUSE_PROG_BUSY = true ∧ d.boot.prog = some (3, arg.toNat) ∧
      SameRegs s.dev d [(F.MST_SEC_FUSE_PROG_BUSY, [])] ∧ SameMem s.dev d)) ∧
  (∀ (s : State) (iss : Issuer) (arg : BitVec 8) (confirm : BitVec 16), confirm ≠ 0xF05E → s.dev.lands iss .MST_FUSE_PROG [] (fuseProgWord 2 arg confirm) = true →
    Completes (.revokeKey iss arg confirm) s (fun d => d.flag F.MST_SEC_FUSE_PROG_FAIL = true ∧ d.boot = s.dev.boot ∧
      SameRegs s.dev d [(F.MST_SEC_FUSE_PROG_FAIL, [])] ∧ OnlyRegs s.dev d)) ∧
  (∀ (s : State) (op arg : Nat), s.dev.boot.prog = some (op, arg) →
    ∃ t, exec .fuseProgDone s = .next t ∧ t.pending = s.pending ∧ t.fuses = s.fuses.blow op arg ∧ t.dev.boot.prog = none ∧
      t.dev.flag F.MST_SEC_FUSE_PROG_BUSY = false ∧
      t.dev.getF F.MST_SEC_FUSE_SEC_VER_MIN = t.fuses.secVerMin % 2 ^ F.MST_SEC_FUSE_SEC_VER_MIN.w ∧
      t.dev.getF F.MST_SEC_FUSE_KEY_REVOKED = t.fuses.keyRevoked % 2 ^ F.MST_SEC_FUSE_KEY_REVOKED.w ∧
      t.dev.flag F.MST_SEC_FUSE_DEBUG_CLOSED = t.fuses.debugClosed ∧ SameMem s.dev t.dev)

/-- Secure boot, recovery, readiness and the stacks' test. SECURE_BOOT starts slot A when it passes every check of R99, else slot
B when that passes, else waits for recovery, with the cause of each failure; RECOVERY_WINDOW_WRITE stores its word;
RECOVERY_GO checks the window and starts its image when it passes; FUNCTION_READY sets the READY bit of a host port, or of a
stack that has passed its test; STACK_TRAIN_TEST leaves the stack's contents undefined and the stack tested. Where the rules
leave a point open, the model's choice is meant: logs 4, 47. Basis: R98, R99, R100, R101, R102, R103, R350. -/
def Obligations.BootReadinessAndStackTests : Prop :=
  (∀ s : State, s.dev.boot.started = false → s.dev.islandOn 7 = true →
    Completes (.secureBoot false false) s (fun d =>
      ∀ a b, a = slotCheck (fun o n => s.dev.flashRead o n) s.fuses (s.dev.getF F.MST_SEC_FUSE_SEC_VER_MIN) →
        b = slotCheck (fun o n => s.dev.flashRead (0x800000 + o) n) s.fuses (s.dev.getF F.MST_SEC_FUSE_SEC_VER_MIN) →
        (a = 0 → d.getF F.MST_BOOT_STAT_RESULT = 1 ∧ d.boot.image.isSome = true) ∧
        (a ≠ 0 → d.getF F.MST_BOOT_STAT_FAIL_A = a ∧ (b = 0 → d.getF F.MST_BOOT_STAT_RESULT = 2 ∧ d.boot.image.isSome = true) ∧
          (b ≠ 0 → d.getF F.MST_BOOT_STAT_FAIL_B = b ∧ d.getF F.MST_BOOT_STAT_RESULT = 4 ∧ d.boot.image = s.dev.boot.image)) ∧ SameMem s.dev d)) ∧
  (∀ (s : State) (iss : Issuer) (w : Fin 1048576) (v : BitVec 32), s.dev.lands iss .MST_RECOVERY [w.val] v.toNat = true →
    Completes (.recoveryWindowWrite iss w v) s (fun d => d.getF F.MST_RECOVERY_WORD [w.val] = v.toNat ∧
      SameRegs s.dev d [(F.MST_RECOVERY_WORD, [w.val])] ∧ OnlyRegs s.dev d)) ∧
  (∀ (s : State) (iss : Issuer), s.dev.lands iss .MST_BOOT_CTRL [] 1 = true → s.dev.getF F.MST_BOOT_STAT_RESULT = 4 →
    Completes (.recoveryGo iss) s (fun d => ∀ c, c = slotCheck s.dev.windowRead s.fuses (s.dev.getF F.MST_SEC_FUSE_SEC_VER_MIN) →
      d.getF F.MST_BOOT_STAT_FAIL_REC = c ∧ (c = 0 → d.getF F.MST_BOOT_STAT_RESULT = 3 ∧ d.boot.image.isSome = true) ∧
      (c ≠ 0 → d.getF F.MST_BOOT_STAT_RESULT = 4 ∧ d.boot.image = s.dev.boot.image) ∧ SameMem s.dev d)) ∧
  (∀ (s : State) (x : Fin 4) (f : Fin 37), f.val = 25 + x.val → s.dev.clk.phase = .running → s.dev.islandOn (1 + x.val) = true →
    Completes (.functionReady f) s (fun d => d.bitF F.MST_READY_HOST [] x.val = true ∧ SameRegs s.dev d [(F.MST_READY_HOST, [])] ∧ OnlyRegs s.dev d)) ∧
  (∀ (s : State) (k : Fin 8) (f : Fin 37), f.val = 29 + k.val → s.dev.clk.phase = .running → s.dev.dieOk (17 + k.val) = true →
    nget? s.dev.rst.dies [17 + k.val] = none → k.val ∈ s.dev.bank.tested →
    Completes (.functionReady f) s (fun d => d.bitF F.MST_READY_STACK_STACK [] k.val = true ∧ d.flag F.BSE_STK_STAT_READY [k.val] = true ∧
      SameRegs s.dev d [(F.MST_READY_STACK_STACK, []), (F.BSE_STK_STAT_READY, [k.val])] ∧ OnlyRegs s.dev d)) ∧
  (∀ (s : State) (k : Fin 8), s.dev.clk.phase = .running → s.dev.dieOk (17 + k.val) = true → nget? s.dev.rst.dies [17 + k.val] = none →
    k.val ∉ s.dev.bank.tested →
    Completes (.stackTrainTest k true) s (fun d => k.val ∈ d.bank.tested ∧ SameRegs s.dev d [] ∧
      SameMemBut s.dev d (stackBase k.val) 0xC00000000 ∧ (∀ a, stackBase k.val ≤ a → a < stackBase (k.val + 1) → d.byte a = Config.lostByte s.dev.bank.lostGen a)))

/-- A host port goes into reset, leaves it, and its link comes up. A hot reset of a running host port holds its island in reset,
clears its READY bit and drops its waiting accesses; HOST_PORT_RESET_RELEASE while the device runs starts the island;
PCIE_LINK_UP with a rate and width that a link can have shows the link and the functions' power states. None writes memory. Basis: R102, R109, R133. -/
def Obligations.HostPortsResetAndLinkUp : Prop :=
  (∀ (s : State) (x : Fin 4) (f : Fin 17), s.dev.islandOn (1 + x.val) = true →
    Completes (.hostPortReset x .hot f) s (fun d => d.islandOn (1 + x.val) = false ∧ d.bitF F.MST_READY_HOST [] x.val = false ∧
      nget? d.host.posted [x.val] = none ∧ nget? d.host.ind [x.val] = none ∧ SameMem s.dev d)) ∧
  (∀ (s : State) (x : Fin 4), s.dev.clk.phase = .running → s.dev.headless = false → s.dev.islandOn (1 + x.val) = false → s.dev.jtag.scanned = false →
    Completes (.hostPortResetRelease x) s (fun d => d.islandOn (1 + x.val) = true ∧ nget? d.host.upSince [x.val] = some s.dev.clk.now ∧
      SameRegs s.dev d [(F.MST_CLKON_ON, [0])] ∧ SameMem s.dev d)) ∧
  (∀ (s : State) (x : Fin 4) (rate : BitVec 3) (width : BitVec 4) (flit : Bool) (vfs : Fin 17) (d3 : List (Fin 17)), s.dev.islandOn (1 + x.val) = true →
    linkOk rate width flit = true →
    Completes (.pcieLinkUp x rate width flit ⟨vfs, d3⟩) s (fun d => d.flag F.HST_PORT_STAT_LINK_UP [x.val] = true ∧ d.getF F.HST_PORT_STAT_RATE [x.val] = rate.toNat ∧
      d.getF F.HST_PORT_STAT_WIDTH [x.val] = width.toNat ∧ d.flag F.HST_PORT_STAT_FLIT [x.val] = flit ∧ d.getF F.HST_PORT_STAT_NUM_VF [x.val] = vfs.val ∧
      SameRegs s.dev d [(F.HST_PORT_STAT_LINK_UP, [x.val]), (F.HST_PORT_STAT_RATE, [x.val]), (F.HST_PORT_STAT_WIDTH, [x.val]),
        (F.HST_PORT_STAT_FLIT, [x.val]), (F.HST_PORT_STAT_NUM_VF, [x.val])] ∧
      (∀ f : Fin 17, d.fnOn x.val f.val = (decide (f.val ≤ vfs.val) && !d3.contains f)) ∧
      d = { s.dev with regs := d.regs, host := { s.dev.host with d3 := d.host.d3 } }))

/-- BAR0 accesses, the aperture and the indirect window. A BAR0 write of a PF at the address of its record ring's base register, of
that register's width, sets the base and nothing else; a write of another width, or at a reserved address, sets ACCESS_ERR and nothing
else. A BAR0 read of a register's width gives its word; of another width, or at a reserved address, it gives zero and sets ACCESS_ERR.
An aperture read
that is allowed and served sends the bytes that memory holds; an aperture write inside one stack stores its bytes there and no
others; one that is refused sets ACCESS_ERR and writes nothing. IND_ACCESS_GO starts an access of the window's address and
data, unless one runs; IND_ACCESS_COMPLETE of a read puts the register's word into HST_IND_DATA with STATUS OK;
IND_ACCESS_ABORT ends it with ABORTED. Where the rules leave a point open, the model's choice is meant: logs 61, 66. Basis: R5, R118, R120, R121, R122, R125. -/
def Obligations.HostRegisterAndApertureAccesses : Prop :=
  (∀ (s : State) (x : Fin 4) (q : Fin 16) (off : Nat) (bytes : List (BitVec 8)) (r : RegDesc), r.reg = .HST_RR_BASE → r.width = 64 → off < 0x1000000 →
    regAt (mastBlock + off) = some (r, [x.val, 0, q.val]) → bytes.length = 8 → s.dev.lands (.pf x) .HST_RR_BASE [x.val, 0, q.val] (ofLE bytes) = true →
    Completes (.registerWrite x 0 off (.write bytes)) s (fun d => d.getF F.HST_RR_BASE_BASE [x.val, 0, q.val] = ofLE bytes ∧
      SameRegs s.dev d [(F.HST_RR_BASE_BASE, [x.val, 0, q.val])] ∧ OnlyRegs s.dev d)) ∧
  (∀ (s : State) (x : Fin 4) (off : Nat) (bytes : List (BitVec 8)) (r : RegDesc) (idx : List Nat), off < 0x1000000 →
    regAt (mastBlock + off) = some (r, idx) → 0 < bytes.length → bytes.length ≤ 512 → 8 * bytes.length ≠ r.width → s.dev.portClear (.pf x) = true →
    Completes (.registerWrite x 0 off (.write bytes)) s (fun d => d.flag F.HST_PORT_ERR_ACCESS_ERR [x.val] = true ∧
      SameRegs s.dev d [(F.HST_PORT_ERR_ACCESS_ERR, [x.val])] ∧ OnlyRegs s.dev d)) ∧
  (∀ (s : State) (x : Fin 4) (off : Nat) (bytes : List (BitVec 8)), off < 0x1000000 → regAt (mastBlock + off) = none →
    0 < bytes.length → bytes.length ≤ 512 → s.dev.portClear (.pf x) = true →
    Completes (.registerWrite x 0 off (.write bytes)) s (fun d => d.flag F.HST_PORT_ERR_ACCESS_ERR [x.val] = true ∧
      SameRegs s.dev d [(F.HST_PORT_ERR_ACCESS_ERR, [x.val])] ∧ OnlyRegs s.dev d)) ∧
  (∀ (s : State) (x : Fin 4) (off n : Nat), off < 0x1000000 → 0 < n → n ≤ 4096 → s.dev.portClear (.pf x) = true →
    (∀ r idx, regAt (mastBlock + off) = some (r, idx) → 8 * n ≠ r.width) →
    Completes (.registerWrite x 0 off (.read n)) s (fun d => d.flag F.HST_PORT_ERR_ACCESS_ERR [x.val] = true ∧ d.out = s.dev.out ++ [.mmio x.val 0] ∧
      SameRegs s.dev d [(F.HST_PORT_ERR_ACCESS_ERR, [x.val])] ∧ SameMem s.dev d)) ∧
  (∀ (s : State) (x : Fin 4) (off n : Nat) (r : RegDesc) (idx : List Nat), off < 0x1000000 → regAt (mastBlock + off) = some (r, idx) → 8 * n = r.width →
    0 < n → n ≤ 4096 → s.dev.portClear (.pf x) = true → s.dev.reach r.reg idx = .open →
    Completes (.registerWrite x 0 off (.read n)) s (fun d => d = (s.dev.regWord r.reg idx).2.emit (.mmio x.val (s.dev.regWord r.reg idx).1))) ∧
  (∀ (s : State) (x : Fin 4) (off n a : Nat), 0 < n → n ≤ 4096 → off + n ≤ bar4Size → a = s.dev.getF F.HST_APER_BASE_BASE [x.val] * 2 ^ 36 + off → s.dev.portClear (.pf x) = true →
    s.dev.aperRefused x.val a n false = none → s.dev.memStopped a n = none → s.dev.memServed a n = true →
    Completes (.apertureRead x off n) s (fun d => d.out = s.dev.out ++ [.mmio x.val (ofLE (s.dev.read a n))] ∧ SameMem s.dev d)) ∧
  (∀ (s : State) (x : Fin 4) (off a k : Nat) (bytes : List (BitVec 8)), 0 < bytes.length → bytes.length ≤ 512 → off + bytes.length ≤ bar4Size →
    a = s.dev.getF F.HST_APER_BASE_BASE [x.val] * 2 ^ 36 + off → place a = .stack k → a + bytes.length ≤ (k + 1) * 0xC00000000 →
    s.dev.portClear (.pf x) = true → s.dev.aperRefused x.val a bytes.length true = none → s.dev.memStopped a bytes.length = none →
    s.dev.memServed a bytes.length = true →
    Completes (.apertureWrite x off bytes) s (fun d => (∀ i (h : i < bytes.length), d.byte (a + i) = bytes[i]) ∧ SameMemBut s.dev d a bytes.length)) ∧
  (∀ (s : State) (x : Fin 4) (off a : Nat) (bytes : List (BitVec 8)), 0 < bytes.length → bytes.length ≤ 512 → off + bytes.length ≤ bar4Size →
    a = s.dev.getF F.HST_APER_BASE_BASE [x.val] * 2 ^ 36 + off → s.dev.portClear (.pf x) = true → s.dev.aperRefused x.val a bytes.length true = some false →
    Completes (.apertureWrite x off bytes) s (fun d => d.flag F.HST_PORT_ERR_ACCESS_ERR [x.val] = true ∧
      SameRegs s.dev d [(F.HST_PORT_ERR_ACCESS_ERR, [x.val])] ∧ OnlyRegs s.dev d)) ∧
  (∀ (s : State) (iss : Issuer) (x : Fin 4) (write size64 : Bool), s.dev.lands iss .HST_IND_CTRL [x.val] (indGoWord write size64) = true →
    s.dev.flag F.HST_IND_STAT_BUSY [x.val] = false →
    Completes (.indAccessGo iss x write size64) s (fun d => d.flag F.HST_IND_STAT_BUSY [x.val] = true ∧
      nget? d.host.ind [x.val] = some ⟨iss, s.dev.getF F.HST_IND_ADDR_ADDR [x.val], s.dev.getF F.HST_IND_DATA_DATA [x.val], write, size64⟩ ∧
      SameRegs s.dev d [(F.HST_IND_STAT_BUSY, [x.val])] ∧ SameMem s.dev d)) ∧
  (∀ (s : State) (x : Fin 4) (a : IndAcc) (r : RegDesc) (idx : List Nat), nget? s.dev.host.ind [x.val] = some a → a.write = false → s.dev.portRuns x.val = true →
    regAt a.addr = some (r, idx) → (if a.size64 then 64 else 32) = r.width → s.dev.reach r.reg idx = .open →
    Completes (.indAccessComplete x) s (fun d => d.flag F.HST_IND_STAT_BUSY [x.val] = false ∧ d.getF F.HST_IND_STAT_STATUS [x.val] = 0 ∧
      nget? d.host.ind [x.val] = none ∧ d.getF F.HST_IND_DATA_DATA [x.val] = (s.dev.regWord r.reg idx).1 % 2 ^ 64 ∧ SameMem s.dev d)) ∧
  (∀ (s : State) (iss : Issuer) (x : Fin 4), s.dev.lands iss .HST_IND_CTRL [x.val] 8 = true → s.dev.flag F.HST_IND_STAT_BUSY [x.val] = true →
    Completes (.indAccessAbort iss x) s (fun d => d.flag F.HST_IND_STAT_BUSY [x.val] = false ∧ d.getF F.HST_IND_STAT_STATUS [x.val] = 13 ∧
      nget? d.host.ind [x.val] = none ∧ d.flag F.HST_PORT_ERR_IND_ABORT [x.val] = true ∧
      SameRegs s.dev d [(F.HST_IND_STAT_BUSY, [x.val]), (F.HST_IND_STAT_STATUS, [x.val]), (F.HST_PORT_ERR_IND_ABORT, [x.val])] ∧ SameMem s.dev d))

/-- Command rings are configured, armed, filled, rung and disarmed. CMD_RING_CFG_WRITE on an unbound ring stores its fields;
CMD_RING_ARM of a sound ring binds it to the lowest free queue of its tackle with both counts 0; CMD_RING_DISARM of a ring in
RESET leaves it DISARMED, and of an armed ring with commands outstanding leaves it draining; PUSH_WRITE of one 32-byte slot
that is free stores it, of one that is not free waits at the port, and a read of a push window gives zero; PUSH_WRITE_RELEASE performs the held push once its slot is free; DOORBELL within range, with
the two copies of the ring's pointers equal, sets PRODUCED.
None writes device memory. Where the rules leave a point open, the model's choice is meant: logs 59, 60. Basis: R124, R125, R126, R128. -/
def Obligations.CommandRingsAndPushes : Prop :=
  (∀ (s : State) (iss : Issuer) (x : Fin 4) (f : Fin 17) (r : Fin 32) (v : BitVec 32), s.dev.lands iss .HST_CR_CFG [x.val, f.val, r.val] v.toNat = true →
    s.dev.getF F.HST_CR_STAT_STATE [x.val, f.val, r.val] = 0 →
    Completes (.cmdRingCfgWrite iss x f r v) s (fun d => d.getF F.HST_CR_CFG_SIZE_LOG2 [x.val, f.val, r.val] = bits v.toNat 0 4 ∧
      d.getF F.HST_CR_CFG_IRQ_EN [x.val, f.val, r.val] = bits v.toNat 4 1 ∧ d.getF F.HST_CR_CFG_VECTOR [x.val, f.val, r.val] = bits v.toNat 8 6 ∧
      d.getF F.HST_CR_CFG_TACKLE [x.val, f.val, r.val] = bits v.toNat 16 16 ∧ OnlyRegs s.dev d)) ∧
  (∀ (s : State) (iss : Issuer) (x : Fin 4) (f : Fin 17) (r : Fin 32) (q : Nat), s.dev.lands iss .HST_CR_CTRL [x.val, f.val, r.val] 1 = true →
    s.dev.getF F.HST_CR_STAT_STATE [x.val, f.val, r.val] = 0 → s.dev.armCheck [x.val, f.val, r.val] = .ok q →
    Completes (.cmdRingArm iss x f r) s (fun d => d.getF F.HST_CR_STAT_STATE [x.val, f.val, r.val] = 1 ∧ d.getF F.HST_CR_STAT_QUEUE [x.val, f.val, r.val] = q % 4 ∧
      d.getF F.HST_CR_STAT_STATUS [x.val, f.val, r.val] = 0 ∧ d.getF F.HST_CR_COUNT_CONSUMED [x.val, f.val, r.val] = 0 ∧
      d.getF F.HST_CR_COUNT_PRODUCED [x.val, f.val, r.val] = 0 ∧
      nget? d.host.binds [x.val, f.val, r.val] = some ⟨s.dev.getF F.HST_CR_CFG_TACKLE [x.val, f.val, r.val], q, 2 ^ s.dev.getF F.HST_CR_CFG_SIZE_LOG2 [x.val, f.val, r.val],
        s.dev.host.armCount⟩ ∧ d.ptrsOk 0 [x.val, f.val, r.val] = true ∧ SameMem s.dev d)) ∧
  (∀ (s : State) (iss : Issuer) (x : Fin 4) (f : Fin 17) (r : Fin 32), s.dev.lands iss .HST_CR_CTRL [x.val, f.val, r.val] 2 = true →
    Completes (.cmdRingDisarm iss x f r) s (fun d =>
      (s.dev.getF F.HST_CR_STAT_STATE [x.val, f.val, r.val] = 3 → d.getF F.HST_CR_STAT_STATE [x.val, f.val, r.val] = 0) ∧
      (s.dev.getF F.HST_CR_STAT_STATE [x.val, f.val, r.val] = 1 → s.dev.getF F.HST_CR_COUNT_CONSUMED [x.val, f.val, r.val] ≠ s.dev.getF F.HST_CR_COUNT_PRODUCED [x.val, f.val, r.val] →
        d.getF F.HST_CR_STAT_STATE [x.val, f.val, r.val] = 2 ∧ d.host.binds = s.dev.host.binds) ∧
      (s.dev.getF F.HST_CR_STAT_STATE [x.val, f.val, r.val] = 1 → s.dev.getF F.HST_CR_COUNT_CONSUMED [x.val, f.val, r.val] = s.dev.getF F.HST_CR_COUNT_PRODUCED [x.val, f.val, r.val] →
        d.getF F.HST_CR_STAT_STATE [x.val, f.val, r.val] = 0 ∧ nget? d.host.binds [x.val, f.val, r.val] = none) ∧
      SameRegs s.dev d [(F.HST_CR_STAT_STATE, [x.val, f.val, r.val])] ∧ SameMem s.dev d)) ∧
  (∀ (s : State) (x : Fin 4) (f : Fin 17) (r : Fin 32) (k : Nat) (bytes : List (BitVec 8)), bytes.length = 32 → 32 * k + 32 ≤ 0x20000 → (nget emptySlot s.dev.host.slots [x.val, f.val, r.val, k]).length = 32 → s.dev.fnRuns x.val f.val = true →
    nget [] s.dev.host.posted [x.val] = [] → s.dev.pushOk [x.val, f.val, r.val] (32 * k) bytes = true → s.dev.pushHeld [x.val, f.val, r.val] (32 * k) bytes = false →
    Completes (.pushWrite x f r (32 * k) (.write bytes)) s (fun d => nget? d.host.slots [x.val, f.val, r.val, k] = some bytes ∧ SameRegs s.dev d [] ∧ SameMem s.dev d)) ∧
  (∀ (s : State) (x : Fin 4) (f : Fin 17) (r : Fin 32) (off n : Nat), 0 < n → n ≤ 4096 → off + n ≤ 0x20000 → s.dev.fnRuns x.val f.val = true →
    nget [] s.dev.host.posted [x.val] = [] →
    Completes (.pushWrite x f r off (.read n)) s (fun d => d = s.dev.emit (.mmio x.val 0))) ∧
  (∀ (s : State) (x : Fin 4) (f : Fin 17) (r : Fin 32) (k : Nat) (bytes : List (BitVec 8)), bytes.length = 32 → 32 * k + 32 ≤ 0x20000 → s.dev.fnRuns x.val f.val = true →
    nget [] s.dev.host.posted [x.val] = [] → s.dev.pushHeld [x.val, f.val, r.val] (32 * k) bytes = true →
    Completes (.pushWrite x f r (32 * k) (.write bytes)) s (fun d =>
      nget [] d.host.posted [x.val] = [.mem f.val 2 (r.val * 0x20000 + 32 * k) (.write bytes)] ∧ d.host.slots = s.dev.host.slots ∧
      SameRegs s.dev d [] ∧ SameMem s.dev d)) ∧
  (∀ (s : State) (x : Fin 4) (f : Fin 17) (r : Fin 32) (k : Nat) (bytes : List (BitVec 8)), bytes.length = 32 → 32 * k + 32 ≤ 0x20000 → (nget emptySlot s.dev.host.slots [x.val, f.val, r.val, k]).length = 32 → s.dev.portRuns x.val = true →
    nget [] s.dev.host.posted [x.val] = [.mem f.val 2 (r.val * 0x20000 + 32 * k) (.write bytes)] →
    s.dev.pushOk [x.val, f.val, r.val] (32 * k) bytes = true → s.dev.pushHeld [x.val, f.val, r.val] (32 * k) bytes = false →
    Completes (.pushWriteRelease x) s (fun d => nget? d.host.slots [x.val, f.val, r.val, k] = some bytes ∧ nget [] d.host.posted [x.val] = [] ∧
      SameRegs s.dev d [] ∧ SameMem s.dev d)) ∧
  (∀ (s : State) (iss : Issuer) (x : Fin 4) (f : Fin 17) (r : Fin 32) (n : BitVec 32) (b : RingBind), s.dev.lands iss .HST_CR_DB [x.val, f.val, r.val] n.toNat = true →
    nget? s.dev.host.binds [x.val, f.val, r.val] = some b → s.dev.getF F.HST_CR_STAT_STATE [x.val, f.val, r.val] = 1 →
    (n.toNat + 2 ^ 32 - s.dev.getF F.HST_CR_COUNT_CONSUMED [x.val, f.val, r.val]) % 2 ^ 32 ≤ b.size →
    (n.toNat + 2 ^ 32 - s.dev.getF F.HST_CR_COUNT_PRODUCED [x.val, f.val, r.val]) % 2 ^ 32 ≤ b.size →
    s.dev.ptrsOk 0 [x.val, f.val, r.val] = true →
    Completes (.doorbell iss x f r (n.setWidth 64)) s (fun d => d.getF F.HST_CR_COUNT_PRODUCED [x.val, f.val, r.val] = n.toNat ∧
      d.getF F.HST_CR_COUNT_CONSUMED [x.val, f.val, r.val] = s.dev.getF F.HST_CR_COUNT_CONSUMED [x.val, f.val, r.val] % 2 ^ 32 ∧
      d.getF F.HST_CR_STAT_STATE [x.val, f.val, r.val] = 1 ∧ SameMem s.dev d))

/-- Record rings are armed, disarmed, released, and take records. RECORD_RING_ARM of a sound ring that is not ARMED or in RESET
zeroes its counts and arms it; RECORD_RING_DISARM leaves it DISARMED, with no record left that waits for it; RECORD_RELEASE sets
RELEASED, where the two copies of the ring's pointers are equal; RECORD_WRITE of a record that fits before the ring's end sends the record's bytes to the host with LENGTH last and moves PRODUCED by its size rounded
up to 8 bytes. None writes device memory. Basis: R129, R130, R131. -/
def Obligations.RecordRings : Prop :=
  (∀ (s : State) (iss : Issuer) (x : Fin 4) (f : Fin 17) (q : Fin 16), s.dev.lands iss .HST_RR_CTRL [x.val, f.val, q.val] 1 = true →
    s.dev.getF F.HST_RR_STAT_STATE [x.val, f.val, q.val] = 0 → 12 ≤ s.dev.getF F.HST_RR_CFG_SIZE_LOG2 [x.val, f.val, q.val] →
    s.dev.getF F.HST_RR_CFG_SIZE_LOG2 [x.val, f.val, q.val] ≤ 26 →
    s.dev.getF F.HST_RR_BASE_BASE [x.val, f.val, q.val] % 2 ^ s.dev.getF F.HST_RR_CFG_SIZE_LOG2 [x.val, f.val, q.val] = 0 →
    Completes (.recordRingArm iss x f q) s (fun d => d.getF F.HST_RR_STAT_STATE [x.val, f.val, q.val] = 1 ∧ d.getF F.HST_RR_STAT_STATUS [x.val, f.val, q.val] = 0 ∧
      d.getF F.HST_RR_COUNT_PRODUCED [x.val, f.val, q.val] = 0 ∧ d.getF F.HST_RR_COUNT_RELEASED [x.val, f.val, q.val] = 0 ∧
      d.getF F.HST_RR_DISCARD_COUNT [x.val, f.val, q.val] = 0 ∧ SameMem s.dev d)) ∧
  (∀ (s : State) (iss : Issuer) (x : Fin 4) (f : Fin 17) (q : Fin 16), s.dev.lands iss .HST_RR_CTRL [x.val, f.val, q.val] 2 = true →
    Completes (.recordRingDisarm iss x f q) s (fun d => d.getF F.HST_RR_STAT_STATE [x.val, f.val, q.val] = 0 ∧
      (s.dev.getF F.HST_RR_STAT_STATE [x.val, f.val, q.val] = 1 →
        ∀ r ∈ d.host.recs ++ d.tel.traceBuf.map (·.2), exportRing r.ring = false → ringIdx r.ring ≠ some [x.val, f.val, q.val]) ∧
      SameFields s.dev d [F.HST_RR_STAT_STATE, F.HST_RR_DISCARD_COUNT, F.TRC_STAT_LEVEL, F.TRC_DISCARD_COUNT] ∧ SameMem s.dev d)) ∧
  (∀ (s : State) (iss : Issuer) (x : Fin 4) (f : Fin 17) (q : Fin 16) (v : BitVec 64), s.dev.lands iss .HST_RR_COUNT [x.val, f.val, q.val] v.toNat = true →
    s.dev.ptrsOk 1 [x.val, f.val, q.val] = true → s.dev.getF F.HST_RR_COUNT_PRODUCED [x.val, f.val, q.val] < 2 ^ 32 →
    Completes (.recordRelease iss x f q v) s (fun d => d.getF F.HST_RR_COUNT_RELEASED [x.val, f.val, q.val] = v.toNat / 2 ^ 32 ∧
      SameRegs s.dev d [(F.HST_RR_COUNT_RELEASED, [x.val, f.val, q.val])] ∧ SameMem s.dev d)) ∧
  (∀ (s : State) (ring : Fin 2048) (r : Rec) (rest : List Rec) (i : List Nat), s.dev.headless = false → s.dev.host.recs = r :: rest → r.ring = ring.val →
    s.dev.recFate s.fuses.debugClosed r = .ring i → s.dev.getF F.HST_RR_COUNT_PRODUCED i % s.dev.rrBytes i + recSize r.bytes ≤ s.dev.rrBytes i →
    s.dev.ptrsOk 1 i = true → s.dev.getF F.HST_RR_COUNT_RELEASED i < 2 ^ 32 →
    Completes (.recordWrite ring 25) s (fun d => d.host.recs = rest ∧
      d.getF F.HST_RR_COUNT_PRODUCED i = (s.dev.getF F.HST_RR_COUNT_PRODUCED i + recSize r.bytes) % 2 ^ 32 ∧
      (∀ a, a = s.dev.getF F.HST_RR_BASE_BASE i + s.dev.getF F.HST_RR_COUNT_PRODUCED i % s.dev.rrBytes i →
        d.out = s.dev.out ++ [.hostWrite (ix i 0) (ix i 1) (a + 4) (r.bytes.drop 4), .hostWrite (ix i 0) (ix i 1) a (r.bytes.take 4)]) ∧
      SameRegs s.dev d [(F.HST_RR_COUNT_PRODUCED, i)] ∧ SameMem s.dev d))

/-- Changes of the protection set-up are numbered and drain, and ports are formed. A write of a partition key entry that lands
stores the key, its limit and VALID, and is change MST_PROT_GEN + 1; PROT_DRAINED of the one change left, when everything
admitted before it is done, sets MST_PROT_DRAINED to its number; PORT_CFG_WRITE of a sound formation stores it. None writes
memory. Basis: R136, R137, R139, R150, R236. -/
def Obligations.ProtectionSetUpChanges : Prop :=
  (∀ (s : State) (iss : Issuer) (p : Fin 8) (e : Fin 32) (i : Fin 64) (v : BitVec 32), s.dev.lands iss .PRT_PKEY [p.val, e.val, i.val] v.toNat = true →
    Completes (.protSetupWrite iss (.key p e i) v) s (fun d => d.getF F.PRT_PKEY_KEY [p.val, e.val, i.val] = bits v.toNat 0 16 ∧
      d.getF F.PRT_PKEY_LIMIT [p.val, e.val, i.val] = bits v.toNat 16 12 ∧ d.getF F.PRT_PKEY_VALID [p.val, e.val, i.val] = bits v.toNat 31 1 ∧
      d.getF F.MST_PROT_GEN_GEN = (s.dev.getF F.MST_PROT_GEN_GEN + 1) % 2 ^ 32 ∧ d.host.prot ≠ [] ∧ SameMem s.dev d)) ∧
  (∀ (s : State) (c : ProtChg), s.dev.host.prot = [c] → s.dev.protDone c = true → c.num < 2 ^ 32 →
    Completes .protDrained s (fun d => d.host.prot = [] ∧ d.getF F.MST_PROT_DRAINED_DRAINED = c.num ∧ d.getF F.MST_PROT_STAT_PENDING = 0 ∧
      SameRegs s.dev d [(F.MST_PROT_DRAINED_DRAINED, []), (F.MST_PROT_STAT_PENDING, [])] ∧ SameMem s.dev d)) ∧
  (∀ (s : State) (iss : Issuer) (p : Fin 8) (e : Fin 32) (v : BitVec 32), s.dev.lands iss .PRT_PORT_CFG [p.val, e.val] v.toNat = true →
    s.dev.portCfgBad p.val e.val v.toNat = false → s.dev.flag F.PRT_PORT_CFG_EN [p.val, e.val] = false →
    Completes (.portCfgWrite iss p e v) s (fun d => d.getF F.PRT_PORT_CFG_BASE_POS [p.val, e.val] = bits v.toNat 0 7 ∧
      d.getF F.PRT_PORT_CFG_WIDTH_LOG2 [p.val, e.val] = bits v.toNat 7 3 ∧ d.getF F.PRT_PORT_CFG_MODE [p.val, e.val] = bits v.toNat 10 2 ∧
      d.getF F.PRT_PORT_CFG_MIN_LIVE [p.val, e.val] = bits v.toNat 12 5 ∧ d.getF F.PRT_PORT_CFG_EN [p.val, e.val] = bits v.toNat 17 1 ∧ SameMem s.dev d))

/-- A lane circuit goes through DETECT, TRAIN, LOCK and CAPS, and its port comes up. LANE_DETECT takes a circuit that may train
from DETECT to TRAIN; LANE_TRAIN_DONE stores the taps and equaliser values and goes to LOCK; LANE_LOCK_DONE goes to CAPS;
LANE_STATE_TIMEOUT returns it to DETECT and the third in a row to SELFTEST; CAPS_RECEIVE stores the peer's block and stops in
MISMATCH on one that fails its checks; PORT_UP, with every lane of the set ready, makes the set live in both directions and
its lanes ACTIVE; LANE_SELFTEST_DONE that passes narrows the position out, and one that fails steers a free spare;
NARROW_RETRY returns a narrowed circuit to DETECT. None writes memory. Where the rules leave a point open, the model's choice
is meant: log 50. Basis: R153, R154, R155, R156, R157, R158, R162. -/
def Obligations.LanesComeUp : Prop :=
  (∀ (s : State) (p : Fin 8) (l : Fin 132) (k : Nat × Nat) (i : Nat), s.dev.flag F.LNE_CTRL_EN [p.val, l.val] = true → s.dev.laneDenied p.val l.val = false →
    s.dev.laneOwner p.val l.val = some (k, i) → s.dev.laneState p.val l.val = 1 →
    Completes (.laneDetect p l) s (fun d => d.laneState p.val l.val = 2 ∧ (d.lane p.val l.val).since = s.dev.clk.now ∧ (d.lane p.val l.val).accepted = false ∧
      SameRegs s.dev d [(F.LNE_STAT_STATE, [p.val, l.val]), (F.LNE_STAT_SYNC_OK, [p.val, l.val])] ∧ SameMem s.dev d)) ∧
  (∀ (s : State) (p : Fin 8) (l : Fin 132) (k : Nat × Nat) (i : Nat) (taps : BitVec 30) (ctle gain : BitVec 5) (pre : Bool), s.dev.laneState p.val l.val = 2 →
    s.dev.laneOwner p.val l.val = some (k, i) →
    Completes (.laneTrainDone p l taps ctle gain pre) s (fun d => d.laneState p.val l.val = 3 ∧
      (s.dev.flag F.LNE_CTRL_AUTO_EQ [p.val, l.val] = true → s.dev.getF F.PRT_PORT_CFG_MODE [k.1, k.2] ≠ 2 →
        d.getF F.LNE_TXEQ_C_M3 [p.val, l.val] = bits taps.toNat 0 6 ∧ d.getF F.LNE_TXEQ_C_M2 [p.val, l.val] = bits taps.toNat 6 6 ∧ d.getF F.LNE_TXEQ_C_M1 [p.val, l.val] = bits taps.toNat 12 6 ∧
        d.getF F.LNE_TXEQ_C_0 [p.val, l.val] = bits taps.toNat 18 6 ∧ d.getF F.LNE_TXEQ_C_P1 [p.val, l.val] = bits taps.toNat 24 6) ∧
      (s.dev.flag F.LNE_RXEQ_FREEZE [p.val, l.val] = false → d.getF F.LNE_RXEQ_CTLE [p.val, l.val] = ctle.toNat ∧ d.getF F.LNE_RXEQ_GAIN [p.val, l.val] = gain.toNat) ∧ SameMem s.dev d)) ∧
  (∀ (s : State) (p : Fin 8) (l : Fin 132) (slip : Fin 2720), s.dev.laneState p.val l.val = 3 →
    Completes (.laneLockDone p ⟨l, slip⟩) s (fun d => d.laneState p.val l.val = 4 ∧ d.flag F.LNE_STAT_SYNC_OK [p.val, l.val] = true ∧
      (d.lane p.val l.val).boundary = (if s.dev.flag F.LNE_CTRL_AUTO_ALIGN [p.val, l.val] then ((s.dev.lane p.val l.val).boundary + slip.val) % 2720
        else (s.dev.lane p.val l.val).boundary) ∧
      (∀ k i, s.dev.laneOwner p.val l.val = some (k, i) → (s.dev.lane p.val l.val).accepted = false →
        d.out = s.dev.out ++ [.codeword p.val l.val (CtrlField.mk i .caps 0 s.dev.seqNow).enc (s.dev.capsBlock k i ++ List.replicate (cwBytes - 32) 0)]) ∧
      SameRegs s.dev d [(F.LNE_STAT_STATE, [p.val, l.val]), (F.LNE_STAT_SYNC_OK, [p.val, l.val])] ∧ SameMem s.dev d)) ∧
  (∀ (s : State) (p : Fin 8) (l : Fin 132) (t : Nat), s.dev.laneLimit p.val l.val = some t → (s.dev.lane p.val l.val).since + t ≤ s.dev.clk.now →
    Completes (.laneStateTimeout p l) s (fun d =>
      ((s.dev.lane p.val l.val).retries < 2 → d.laneState p.val l.val = 1 ∧ (d.lane p.val l.val).retries = (s.dev.lane p.val l.val).retries + 1) ∧
      (2 ≤ (s.dev.lane p.val l.val).retries → d.laneState p.val l.val = 0xB ∧ (d.lane p.val l.val).retries = 0 ∧ d.flag F.LNE_STAT_TRAIN_FAIL [p.val, l.val] = true) ∧
      SameRegs s.dev d [(F.LNE_STAT_STATE, [p.val, l.val]), (F.LNE_STAT_SYNC_OK, [p.val, l.val]), (F.LNE_STAT_TRAIN_FAIL, [p.val, l.val])] ∧ SameMem s.dev d)) ∧
  (∀ (s : State) (p : Fin 8) (l : Fin 132) (k : Nat × Nat) (i : Nat) (b : List (BitVec 8)) (ack ok : Bool), b.length = 32 → s.dev.laneState p.val l.val = 4 →
    s.dev.laneOwner p.val l.val = some (k, i) → s.dev.portUp k = false →
    Completes (.capsReceive p l b ack ok) s (fun d => (∀ j : Fin 8, d.getF F.LNE_CAPS_PEER_BYTES [p.val, l.val, j.val] = leAt b (4 * j.val) 4) ∧
      (capsCheck (s.dev.portSpan k).2 b ok = 0 → d.laneState p.val l.val = 4 ∧ (d.lane p.val l.val).acked = ((s.dev.lane p.val l.val).acked || ack)) ∧
      (capsCheck (s.dev.portSpan k).2 b ok ≠ 0 → d.laneState p.val l.val = 0xA ∧ d.getF F.LNE_STAT_MISMATCH [p.val, l.val] = capsCheck (s.dev.portSpan k).2 b ok) ∧
      SameMem s.dev d)) ∧
  (∀ (s : State) (p : Fin 8) (e : Fin 32) (lat : List (BitVec 16 × BitVec 8 × BitVec 8)) (lag : Fin 256), s.dev.flag F.PRT_PORT_CFG_EN [p.val, e.val] = true →
    s.dev.portUp (p.val, e.val) = false → s.dev.upLanes (p.val, e.val) ≠ [] →
    s.dev.getF F.PRT_PORT_CFG_MIN_LIVE [p.val, e.val] ≤ (s.dev.upLanes (p.val, e.val)).length → lat.length = (s.dev.upLanes (p.val, e.val)).length →
    s.dev.seqBegins 0 0 = true → (∀ j ∈ s.dev.upLanes (p.val, e.val), s.dev.laneReady (p.val, e.val) j = true) →
    Completes (.portUp p e ⟨lat, lag⟩) s (fun d => d.portUp (p.val, e.val) = true ∧ d.live16 (p.val, e.val) true = ofOnes (s.dev.upLanes (p.val, e.val)) % 2 ^ 16 ∧
      d.live16 (p.val, e.val) false = ofOnes (s.dev.upLanes (p.val, e.val)) % 2 ^ 16 ∧ (d.portLn (p.val, e.val)).rxLag = lag.val ∧
      (∀ j ∈ s.dev.upLanes (p.val, e.val), d.laneState p.val (s.dev.laneOf (p.val, e.val) j) = 5 ∧ bit (d.portLn (p.val, e.val)).narrowed j = false) ∧ SameMem s.dev d)) ∧
  (∀ (s : State) (p : Fin 8) (l : Fin 132) (k : Nat × Nat) (i q : Nat), s.dev.laneState p.val l.val = 0xB → s.dev.laneOwner p.val l.val = some (k, i) →
    s.dev.positionOf p.val l.val = some q → i < 16 →
    Completes (.laneSelftestDone p l true) s (fun d => d.laneState p.val l.val = 8 ∧ d.flag F.LNE_STAT_FAULT_CHANNEL [p.val, l.val] = true ∧
      bit (d.portLn k).narrowed i = true ∧ d.flag F.PRT_PORT_STAT_NARROWED [k.1, k.2] = true ∧ SameMem s.dev d)) ∧
  (∀ (s : State) (p : Fin 8) (l : Fin 132) (k : Nat × Nat) (i q : Nat), s.dev.laneState p.val l.val = 0xB → s.dev.laneOwner p.val l.val = some (k, i) →
    s.dev.positionOf p.val l.val = some q → q < 128 → l.val % 33 ≠ 32 → s.dev.laneState p.val (33 * (q / 32) + 32) = 9 →
    Completes (.laneSelftestDone p l false) s (fun d => d.laneState p.val l.val = 8 ∧ d.flag F.LNE_STAT_FAULT_CIRCUIT [p.val, l.val] = true ∧
      d.flag F.LNE_SPARE_IN_USE [p.val, q / 32] = true ∧ d.getF F.LNE_SPARE_POS [p.val, q / 32] = q ∧ d.laneState p.val (33 * (q / 32) + 32) = 1 ∧ SameMem s.dev d)) ∧
  (∀ (s : State) (p : Fin 8) (l : Fin 132) (k : Nat × Nat) (i : Nat), s.dev.laneOwner p.val l.val = some (k, i) → s.dev.laneState p.val l.val = 8 →
    bit (s.dev.portLn k).narrowed i = true → (s.dev.lane p.val l.val).since + sec (s.dev.getF F.PRT_PORT_CFG_RETRY_S [k.1, k.2]) ≤ s.dev.clk.now →
    Completes (.narrowRetry p l) s (fun d => d.laneState p.val l.val = 1 ∧ SameRegs s.dev d [(F.LNE_STAT_STATE, [p.val, l.val]), (F.LNE_STAT_SYNC_OK, [p.val, l.val])] ∧ SameMem s.dev d))

/-- Lane faults decide drops, and ports announce and switch lane sets. LANE_FAULT on an ACTIVE lane, with its cause there, sets the
die's source bit, remembers what the circuit does once dropped, and asks the peer for a drop; LANE_SET_ANNOUNCE, where a period with
SEQ 224 begins, sends the oldest decided change and the oldest DROP_REQ on every live lane in four periods; SWITCH_POINT of an
announced ADD, where a period with SEQ 0 begins, makes the lane live; RX_DROP and RX_ADD remember the peer's change; RX_DROP_REQ
decides the drop of a live lane, and wakes a reefed port; RX_RESERVED_CTRL counts. None writes memory. Where the rules leave a point open, the model's choice is
meant: log 50. Basis: R146, R147, R148, R160, R161, R162. -/
def Obligations.LaneFaultsAndLaneSetChanges : Prop :=
  (∀ (s : State) (p : Fin 8) (l : Fin 132) (cause : LaneCause) (k : Nat × Nat) (i : Nat), s.dev.laneOwner p.val l.val = some (k, i) → s.dev.portUp k = true →
    s.dev.laneState p.val l.val = 5 → (s.dev.lane p.val l.val).after = none → s.dev.causeHolds p.val l.val cause = true →
    Completes (.laneFault p l cause) s (fun d => d.bitF F.FLT_STAT_SRC [5 + p.val] 8 = true ∧
      (d.lane p.val l.val).after = some (if cause = .islandReset then .retrain else .selftest) ∧ i ∈ (d.portLn k).dropReqs ∧ SameMem s.dev d)) ∧
  (∀ (s : State) (p : Fin 8) (e : Fin 32), s.dev.portUp (p.val, e.val) = true → (s.dev.portLn (p.val, e.val)).reef = .none →
    (s.dev.portLn (p.val, e.val)).announced = none → ((s.dev.portLn (p.val, e.val)).queue ≠ [] ∨ (s.dev.portLn (p.val, e.val)).dropReqs ≠ []) →
    s.dev.seqBegins 0 224 = true →
    Completes (.laneSetAnnounce p e) s (fun d => (d.portLn (p.val, e.val)).announced = (s.dev.portLn (p.val, e.val)).queue.head? ∧
      (d.portLn (p.val, e.val)).queue = (s.dev.portLn (p.val, e.val)).queue.tail ∧ (d.portLn (p.val, e.val)).dropReqs = (s.dev.portLn (p.val, e.val)).dropReqs.tail ∧
      d.out = s.dev.out ++ (s.dev.portLn (p.val, e.val)).queue.head?.toList.flatMap (fun c => s.dev.announcement (p.val, e.val) (if c.1 then .add else .drop) c.2)
        ++ (s.dev.portLn (p.val, e.val)).dropReqs.head?.toList.flatMap (fun i => s.dev.announcement (p.val, e.val) .dropReq i) ∧
      SameRegs s.dev d [(F.PRT_PORT_STAT_CHANGE_PENDING, [p.val, e.val])] ∧ SameMem s.dev d)) ∧
  (∀ (s : State) (p : Fin 8) (e : Fin 32) (i : Fin 16), (s.dev.portLn (p.val, e.val)).announced = some (true, i.val) →
    s.dev.seqBegins 0 0 = true → s.dev.getF F.PRT_PORT_CFG_MIN_LIVE [p.val, e.val] ≤ (onesOf 16 (setBit (s.dev.live16 (p.val, e.val) true) i.val)).length →
    Completes (.switchPoint p e true) s (fun d => d.live16 (p.val, e.val) true = setBit (s.dev.live16 (p.val, e.val) true) i.val % 2 ^ 16 ∧ (d.portLn (p.val, e.val)).announced = none ∧
      SameRegs s.dev d [(F.PRT_PORT_STAT_CHANGE_PENDING, [p.val, e.val]), (F.PRT_PORT_LIVE_TX_MASK, [p.val, e.val]), (F.PRT_PORT_STAT_LIVE_TX, [p.val, e.val])] ∧ SameMem s.dev d)) ∧
  (∀ (s : State) (p : Fin 8) (e : Fin 32) (i : Fin 16), s.dev.portUp (p.val, e.val) = true → (s.dev.portLn (p.val, e.val)).rxChange = none → i.val < (s.dev.portSpan (p.val, e.val)).2 →
    Completes (.rxDrop p e i) s (fun d => (d.portLn (p.val, e.val)).rxChange = some (false, i.val) ∧ SameRegs s.dev d [(F.PRT_PORT_STAT_CHANGE_PENDING, [p.val, e.val])] ∧ SameMem s.dev d)) ∧
  (∀ (s : State) (p : Fin 8) (e : Fin 32) (i : Fin 16), s.dev.portUp (p.val, e.val) = true → (s.dev.portLn (p.val, e.val)).rxChange = none → i.val < (s.dev.portSpan (p.val, e.val)).2 →
    Completes (.rxAdd p e i) s (fun d => (d.portLn (p.val, e.val)).rxChange = some (true, i.val) ∧ SameRegs s.dev d [(F.PRT_PORT_STAT_CHANGE_PENDING, [p.val, e.val])] ∧ SameMem s.dev d)) ∧
  (∀ (s : State) (p : Fin 8) (e : Fin 32) (i : Fin 16), s.dev.portUp (p.val, e.val) = true → i.val < (s.dev.portSpan (p.val, e.val)).2 → bit (s.dev.live16 (p.val, e.val) true) i.val = true →
    (s.dev.portLn (p.val, e.val)).announced ≠ some (false, i.val) → (s.dev.portLn (p.val, e.val)).reef ≠ .reefed →
    Completes (.rxDropReq p e i) s (fun d => (false, i.val) ∈ (d.portLn (p.val, e.val)).queue ∧ SameRegs s.dev d [(F.PRT_PORT_STAT_CHANGE_PENDING, [p.val, e.val])] ∧ SameMem s.dev d)) ∧
  (∀ (s : State) (p : Fin 8) (e : Fin 32) (i : Fin 16), s.dev.portUp (p.val, e.val) = true → i.val < (s.dev.portSpan (p.val, e.val)).2 → bit (s.dev.live16 (p.val, e.val) true) i.val = true →
    (s.dev.portLn (p.val, e.val)).announced ≠ some (false, i.val) → (s.dev.portLn (p.val, e.val)).reef = .reefed →
    Completes (.rxDropReq p e i) s (fun d => (false, i.val) ∈ (d.portLn (p.val, e.val)).queue ∧ (d.portLn (p.val, e.val)).reef = .waking ∧ SameMem s.dev d)) ∧
  (∀ (s : State) (p : Fin 8) (l : Fin 132), (s.dev.laneState p.val l.val = 4 ∨ s.dev.laneState p.val l.val = 5) →
    Completes (.rxReservedCtrl p l) s (fun d => d.getF F.LNE_CTRL_RSVD_COUNT [p.val, l.val] = min (s.dev.getF F.LNE_CTRL_RSVD_COUNT [p.val, l.val] + 1) (2 ^ 32 - 1) ∧
      SameRegs s.dev d [(F.LNE_CTRL_RSVD_COUNT, [p.val, l.val])] ∧ OnlyRegs s.dev d))

/-- LNE_CTRL, LNE_TXEQ and the eye measurement. On a lane of a port that is down, RETRAIN starts it again at DETECT with MISMATCH
cleared, SELFTEST starts its self-test, and BITSLIP with AUTO_ALIGN 0 moves the boundary and clears SYNC_OK; LNE_TXEQ stores
taps whose absolute values sum to at most 63 and otherwise sets EQ_REJECT; START measures the eye, or does nothing while a
measurement runs, and EYE_MEASURE_DONE shows the result. None writes memory. Basis: R119, R154, R158, R159, R169. -/
def Obligations.LaneRegisterCommands : Prop :=
  (∀ (s : State) (iss : Issuer) (p : Fin 8) (l : Fin 132) (v : BitVec 32) (k : Nat × Nat) (i : Nat), s.dev.lands iss .LNE_CTRL [p.val, l.val] (v.toNat ||| 0x10) = true →
    bit v.toNat 5 = false → bits v.toNat 8 8 = 0 → s.dev.laneOwner p.val l.val = some (k, i) → s.dev.portUp k = false → s.dev.laneState p.val l.val = 0xA →
    Completes (.laneRetrain iss p l v) s (fun d => d.laneState p.val l.val = 1 ∧ d.getF F.LNE_STAT_MISMATCH [p.val, l.val] = 0 ∧ d.getF F.LNE_CTRL_EN [p.val, l.val] = bits v.toNat 0 1 ∧ SameMem s.dev d)) ∧
  (∀ (s : State) (iss : Issuer) (p : Fin 8) (l : Fin 132) (v : BitVec 32) (k : Nat × Nat) (i : Nat), s.dev.lands iss .LNE_CTRL [p.val, l.val] (v.toNat ||| 0x20) = true →
    bit v.toNat 4 = false → bits v.toNat 8 8 = 0 → s.dev.laneOwner p.val l.val = some (k, i) → s.dev.portUp k = false →
    1 ≤ s.dev.laneState p.val l.val → s.dev.laneState p.val l.val ≤ 7 →
    Completes (.laneSelftestCmd iss p l v) s (fun d => d.laneState p.val l.val = 0xB ∧ d.getF F.LNE_CTRL_EN [p.val, l.val] = bits v.toNat 0 1 ∧ SameMem s.dev d)) ∧
  (∀ (s : State) (iss : Issuer) (p : Fin 8) (l : Fin 132) (v : BitVec 32), s.dev.lands iss .LNE_CTRL [p.val, l.val] v.toNat = true →
    bit v.toNat 1 = false → bit v.toNat 4 = false → bit v.toNat 5 = false → bits v.toNat 8 8 ≠ 0 →
    Completes (.laneBitslip iss p l v) s (fun d => (d.lane p.val l.val).boundary = ((s.dev.lane p.val l.val).boundary + bits v.toNat 8 8) % 2720 ∧
      d.flag F.LNE_STAT_SYNC_OK [p.val, l.val] = false ∧ d.getF F.LNE_CTRL_EN [p.val, l.val] = bits v.toNat 0 1 ∧ SameMem s.dev d)) ∧
  (∀ (s : State) (iss : Issuer) (p : Fin 8) (l : Fin 132) (v : BitVec 32), s.dev.lands iss .LNE_TXEQ [p.val, l.val] v.toNat = true →
    Completes (.txeqWrite iss p l v) s (fun d =>
      (tapSum v.toNat ≤ 63 → d.getF F.LNE_TXEQ_C_M3 [p.val, l.val] = bits v.toNat 0 6 ∧ d.getF F.LNE_TXEQ_C_M2 [p.val, l.val] = bits v.toNat 6 6 ∧ d.getF F.LNE_TXEQ_C_M1 [p.val, l.val] = bits v.toNat 12 6 ∧
        d.getF F.LNE_TXEQ_C_0 [p.val, l.val] = bits v.toNat 18 6 ∧ d.getF F.LNE_TXEQ_C_P1 [p.val, l.val] = bits v.toNat 24 6) ∧
      (63 < tapSum v.toNat → d.flag F.LNE_STAT_EQ_REJECT [p.val, l.val] = true ∧ SameRegs s.dev d [(F.LNE_STAT_EQ_REJECT, [p.val, l.val])]) ∧ OnlyRegs s.dev d)) ∧
  (∀ (s : State) (iss : Issuer) (p : Fin 8) (l : Fin 132) (v : BitVec 32), s.dev.lands iss .LNE_EYE_CTRL [p.val, l.val] (v.toNat ||| 0x1) = true →
    s.dev.flag F.LNE_EYE_CTRL_BUSY [p.val, l.val] = true → exec (.eyeMeasure iss p l v) s = .next s) ∧
  (∀ (s : State) (iss : Issuer) (p : Fin 8) (l : Fin 132) (v : BitVec 32), s.dev.lands iss .LNE_EYE_CTRL [p.val, l.val] (v.toNat ||| 0x1) = true →
    s.dev.flag F.LNE_EYE_CTRL_BUSY [p.val, l.val] = false →
    Completes (.eyeMeasure iss p l v) s (fun d => d.flag F.LNE_EYE_CTRL_BUSY [p.val, l.val] = true ∧ d.getF F.LNE_EYE_CTRL_EYE [p.val, l.val] = bits v.toNat 2 2 ∧
      SameRegs s.dev d [(F.LNE_EYE_CTRL_BUSY, [p.val, l.val]), (F.LNE_EYE_CTRL_EYE, [p.val, l.val])] ∧ OnlyRegs s.dev d)) ∧
  (∀ (s : State) (p : Fin 8) (l : Fin 132) (h w snr : BitVec 8), s.dev.flag F.LNE_EYE_CTRL_BUSY [p.val, l.val] = true →
    Completes (.eyeMeasureDone p l h w snr) s (fun d => d.flag F.LNE_EYE_CTRL_BUSY [p.val, l.val] = false ∧ d.getF F.LNE_EYE_HEIGHT [p.val, l.val] = h.toNat ∧
      d.getF F.LNE_EYE_WIDTH [p.val, l.val] = w.toNat ∧ d.getF F.LNE_EYE_SNR [p.val, l.val] = snr.toNat ∧
      SameRegs s.dev d [(F.LNE_EYE_CTRL_BUSY, [p.val, l.val]), (F.LNE_EYE_HEIGHT, [p.val, l.val]), (F.LNE_EYE_WIDTH, [p.val, l.val]), (F.LNE_EYE_SNR, [p.val, l.val])] ∧ OnlyRegs s.dev d))

/-- A port asks for reef, enters it and wakes. REEF_REQ_SEND of an idle port that may reef, with no clock hold on its lanes, asks its
peer; RX_REEF_REQ answers REEF_ACK where the port may reef and REEF_NAK where it may not, and counts as the answer to its own request;
RX_REEF_ACK enters; RX_REEF_NAK, and REEF_NO_ANSWER 64 periods after the request, end it; REEF_ENTRY_DONE leaves the live lanes REEFED
unless a clock hold covers one; WAKE_BURST_DETECT of a reefed port starts its exit, and so does REEF_WAKE where a trigger of this side
holds; REEF_WAKE of a waking one ends it. None writes memory. Where the rules leave a point open,
the model's choice is meant: log 51. Basis: R164, R165, R166, R167, R168. -/
def Obligations.PortsReefAndWake : Prop :=
  (∀ (s : State) (p : Fin 8) (e : Fin 32) (idle since : Nat), s.dev.portUp (p.val, e.val) = true → (s.dev.portLn (p.val, e.val)).reef = .none → s.dev.portIdle (p.val, e.val) = true →
    s.dev.getF F.PRT_PORT_REEF_IDLE [p.val, e.val] ≤ idle → s.dev.reefFree (p.val, e.val) since = true → s.dev.reefHeld (p.val, e.val) = false →
    Completes (.reefReqSend p e idle since) s (fun d => (d.portLn (p.val, e.val)).reef = .asked ∧
      d.out = s.dev.out ++ s.dev.codewords (p.val, e.val) .reefReq 0 s.dev.seqNow ∧
      SameRegs s.dev d [(F.PRT_PORT_STAT_CHANGE_PENDING, [p.val, e.val])] ∧ SameMem s.dev d)) ∧
  (∀ (s : State) (p : Fin 8) (e : Fin 32) (since : Nat), s.dev.portUp (p.val, e.val) = true →
    Completes (.rxReefReq p e since) s (fun d =>
      ((s.dev.portLn (p.val, e.val)).reef = .asked → (d.portLn (p.val, e.val)).reef = .entering ∧ d.out = s.dev.out) ∧
      ((s.dev.portLn (p.val, e.val)).reef = .none → s.dev.reefFree (p.val, e.val) since = true → (d.portLn (p.val, e.val)).reef = .entering ∧ d.out = s.dev.out ++ s.dev.codewords (p.val, e.val) .reefAck 0 s.dev.seqNow) ∧
      ((s.dev.portLn (p.val, e.val)).reef = .none → s.dev.reefFree (p.val, e.val) since = false → (d.portLn (p.val, e.val)).reef = .none ∧ d.out = s.dev.out ++ s.dev.codewords (p.val, e.val) .reefNak 0 s.dev.seqNow) ∧
      SameRegs s.dev d [(F.PRT_PORT_STAT_CHANGE_PENDING, [p.val, e.val])] ∧ SameMem s.dev d)) ∧
  (∀ (s : State) (p : Fin 8) (e : Fin 32), s.dev.portUp (p.val, e.val) = true → (s.dev.portLn (p.val, e.val)).reef = .asked →
    Completes (.rxReefAck p e) s (fun d => (d.portLn (p.val, e.val)).reef = .entering ∧ SameRegs s.dev d [(F.PRT_PORT_STAT_CHANGE_PENDING, [p.val, e.val])] ∧ SameMem s.dev d)) ∧
  (∀ (s : State) (p : Fin 8) (e : Fin 32), (s.dev.portLn (p.val, e.val)).reef = .asked →
    Completes (.rxReefNak p e) s (fun d => (d.portLn (p.val, e.val)).reef = .none ∧ SameRegs s.dev d [(F.PRT_PORT_STAT_CHANGE_PENDING, [p.val, e.val])] ∧ SameMem s.dev d)) ∧
  (∀ (s : State) (p : Fin 8) (e : Fin 32), s.dev.clk.now < (s.dev.portLn (p.val, e.val)).reefAt + 64 * 1024 → exec (.reefNoAnswer p e) s = .next s) ∧
  (∀ (s : State) (p : Fin 8) (e : Fin 32), (s.dev.portLn (p.val, e.val)).reef = .asked → (s.dev.portLn (p.val, e.val)).reefAt + 64 * 1024 ≤ s.dev.clk.now →
    Completes (.reefNoAnswer p e) s (fun d => (d.portLn (p.val, e.val)).reef = .none ∧ SameRegs s.dev d [(F.PRT_PORT_STAT_CHANGE_PENDING, [p.val, e.val])] ∧ SameMem s.dev d)) ∧
  (∀ (s : State) (p : Fin 8) (e : Fin 32), (s.dev.portLn (p.val, e.val)).reef = .entering → s.dev.reefHeld (p.val, e.val) = true → exec (.reefEntryDone p e) s = .next s) ∧
  (∀ (s : State) (p : Fin 8) (e : Fin 32), (s.dev.portLn (p.val, e.val)).reef = .entering → (s.dev.portLn (p.val, e.val)).wake = false →
    s.dev.reefHeld (p.val, e.val) = false →
    Completes (.reefEntryDone p e) s (fun d => (d.portLn (p.val, e.val)).reef = .reefed ∧ d.flag F.PRT_PORT_STAT_REEFED [p.val, e.val] = true ∧
      (∀ l ∈ s.dev.liveCircuits (p.val, e.val), d.laneState p.val l = 6) ∧ SameMem s.dev d)) ∧
  (∀ (s : State) (p : Fin 8) (e : Fin 32), (s.dev.portLn (p.val, e.val)).reef = .reefed →
    Completes (.wakeBurstDetect p e) s (fun d => (d.portLn (p.val, e.val)).reef = .waking ∧ d.flag F.PRT_PORT_STAT_REEFED [p.val, e.val] = false ∧
      (∀ l ∈ s.dev.liveCircuits (p.val, e.val), d.laneState p.val l = 7) ∧ SameMem s.dev d)) ∧
  (∀ (s : State) (p : Fin 8) (e : Fin 32) (since : Nat), (s.dev.portLn (p.val, e.val)).reef = .reefed →
    (s.dev.wakeDue (p.val, e.val) since = false → exec (.reefWake p ⟨e, since⟩) s = .next s) ∧
    (s.dev.wakeDue (p.val, e.val) since = true → Completes (.reefWake p ⟨e, since⟩) s (fun d => (d.portLn (p.val, e.val)).reef = .waking ∧ SameMem s.dev d))) ∧
  (∀ (s : State) (p : Fin 8) (e : Fin 32) (since : Nat), (s.dev.portLn (p.val, e.val)).reef = .waking →
    Completes (.reefWake p ⟨e, since⟩) s (fun d => (d.portLn (p.val, e.val)).reef = .none ∧ (∀ l ∈ s.dev.liveCircuits (p.val, e.val), s.dev.laneState p.val l = 7 → d.laneState p.val l = 5) ∧ SameMem s.dev d))

/-- IDLE, TIMEX and reserved flits deliver their ACK and credit fields. A good IDLE, TIMEX or reserved flit at a port that is up
acknowledges the sent flits up to its ACK and sets the credits held on its CR_VC to CR_TOTAL less the flits consumed, or,
where that is above 32,767, sets CREDIT_ERR and the LINK_ERR source; a flit of reserved TYPE counts as malformed besides. No
other register and no memory changes. Basis: R173, R174, R184, R186, R187, R190. -/
def Obligations.FlitsDeliverAcksAndCredits : Prop :=
  (∀ (s : State) (p : Fin 8) (e : Fin 32) (flit : List (BitVec 8)) (total held : Nat), flitOk flit = true → s.dev.portUp (p.val, e.val) = true → s.dev.rxDead (p.val, e.val) = false → flitGood flit = true →
    (FlitHdr.dec flit).type = 0 → total = (FlitHdr.dec flit).crTotal → held = (total + 65536 - (s.dev.link (p.val, e.val)).used.getD (FlitHdr.dec flit).crVc 0 % 65536) % 65536 →
    Completes (.rxIdleFlit p e flit) s (fun d => d.link (p.val, e.val) = (s.dev.link (p.val, e.val)).acked s.dev.clk.now (FlitHdr.dec flit).ack ∧
      (held ≤ 32767 → d.getF (crField (FlitHdr.dec flit).crVc) [p.val, e.val] = held ∧ SameRegs s.dev d [(crField (FlitHdr.dec flit).crVc, [p.val, e.val])]) ∧
      (32767 < held → d.flag F.PRT_LNK_ERR_CREDIT_ERR [p.val, e.val] = true ∧ d.bitF F.FLT_STAT_SRC [5 + p.val] 11 = true) ∧ SameMem s.dev d)) ∧
  (∀ (s : State) (p : Fin 8) (e : Fin 32) (flit : List (BitVec 8)) (total held : Nat), flitOk flit = true → s.dev.portUp (p.val, e.val) = true → s.dev.rxDead (p.val, e.val) = false → flitGood flit = true →
    (FlitHdr.dec flit).type = 4 → total = (FlitHdr.dec flit).crTotal → held = (total + 65536 - (s.dev.link (p.val, e.val)).used.getD (FlitHdr.dec flit).crVc 0 % 65536) % 65536 →
    Completes (.rxTimexFlit p e flit) s (fun d => d.link (p.val, e.val) = (s.dev.link (p.val, e.val)).acked s.dev.clk.now (FlitHdr.dec flit).ack ∧
      (held ≤ 32767 → d.getF (crField (FlitHdr.dec flit).crVc) [p.val, e.val] = held ∧ SameRegs s.dev d [(crField (FlitHdr.dec flit).crVc, [p.val, e.val])]) ∧
      (32767 < held → d.flag F.PRT_LNK_ERR_CREDIT_ERR [p.val, e.val] = true ∧ d.bitF F.FLT_STAT_SRC [5 + p.val] 11 = true) ∧ SameMem s.dev d)) ∧
  (∀ (s : State) (p : Fin 8) (e : Fin 32) (flit : List (BitVec 8)) (total held : Nat), flitOk flit = true → s.dev.portUp (p.val, e.val) = true → s.dev.rxDead (p.val, e.val) = false → flitGood flit = true →
    5 ≤ (FlitHdr.dec flit).type → total = (FlitHdr.dec flit).crTotal → held = (total + 65536 - (s.dev.link (p.val, e.val)).used.getD (FlitHdr.dec flit).crVc 0 % 65536) % 65536 →
    Completes (.rxReservedFlit p e flit) s (fun d => d.link (p.val, e.val) = (s.dev.link (p.val, e.val)).acked s.dev.clk.now (FlitHdr.dec flit).ack ∧
      (held ≤ 32767 → d.getF (crField (FlitHdr.dec flit).crVc) [p.val, e.val] = held ∧ SameRegs s.dev d [(crField (FlitHdr.dec flit).crVc, [p.val, e.val]), (F.PRT_LNK_MALFORMED_COUNT, [p.val, e.val])]) ∧
      (32767 < held → d.flag F.PRT_LNK_ERR_CREDIT_ERR [p.val, e.val] = true ∧ d.bitF F.FLT_STAT_SRC [5 + p.val] 11 = true) ∧
      d.getF F.PRT_LNK_MALFORMED_COUNT [p.val, e.val] = min (s.dev.getF F.PRT_LNK_MALFORMED_COUNT [p.val, e.val] + 1) (2 ^ 32 - 1) ∧ SameMem s.dev d))

/-- DATA and ABORT flits in order, bad flits, NAKs and the replay of a port. A DATA flit whose SEQ is RX_EXPECT advances RX_EXPECT
and its ACK, and one with SOP and EOP enters its packet at the ingress; one SEQ back to 32,768 back is a duplicate, which only
counts; a bad flit, and any flit while every live lane has a fault, is counted and asks for a NAK unless one is outstanding; an ABORT
flit in order loses the open packet with its status, and with none open it is malformed; a NAK for a SEQ in the replay buffer sends again from it, and ACK_TIMEOUT from the oldest unacknowledged flit.
None writes memory. Where the rules leave a point open, the model's choice is meant: log 52. Basis: R176, R177, R180, R183, R184. -/
def Obligations.FlitsInOrderDuplicatesAndReplay : Prop :=
  (∀ (s : State) (p : Fin 8) (e : Fin 32) (flit : List (BitVec 8)) (b : List Byte), flitOk flit = true → s.dev.portUp (p.val, e.val) = true → s.dev.rxDead (p.val, e.val) = false → flitGood flit = true →
    (FlitHdr.dec flit).type = 1 → (FlitHdr.dec flit).seq = s.dev.getF F.PRT_LNK_STAT_RX_EXPECT [p.val, e.val] → (FlitHdr.dec flit).sop = 1 → (FlitHdr.dec flit).eop = 1 → (FlitHdr.dec flit).valid ≤ 240 →
    b = (flit.drop 16).take (FlitHdr.dec flit).valid → 32 ≤ b.length → b.length = (PktHdr.dec b).size → (PktHdr.dec b).len ≤ 4096 → openIdx (s.dev.link (p.val, e.val)).inq ((FlitHdr.dec flit).tc == 0) = none →
    Completes (.rxDataFlit p e flit) s (fun d => d.getF F.PRT_LNK_STAT_RX_EXPECT [p.val, e.val] = (s.dev.getF F.PRT_LNK_STAT_RX_EXPECT [p.val, e.val] + 1) % 2 ^ 16 ∧
      (d.link (p.val, e.val)).ackSeq = (FlitHdr.dec flit).seq ∧ (d.link (p.val, e.val)).nakOut = none ∧
      (d.link (p.val, e.val)).inq = (s.dev.link (p.val, e.val)).inq ++ [⟨(FlitHdr.dec flit).vc, (FlitHdr.dec flit).tc, b, true, none, none, false, .outside, 1⟩] ∧ SameMem s.dev d)) ∧
  (∀ (s : State) (p : Fin 8) (e : Fin 32) (flit : List (BitVec 8)) (back : Nat), flitOk flit = true → s.dev.portUp (p.val, e.val) = true → s.dev.rxDead (p.val, e.val) = false → flitGood flit = true →
    (FlitHdr.dec flit).type = 1 → back = (s.dev.getF F.PRT_LNK_STAT_RX_EXPECT [p.val, e.val] + 65536 - (FlitHdr.dec flit).seq) % 65536 → s.dev.getF F.PRT_LNK_STAT_RX_EXPECT [p.val, e.val] < 65536 →
    (s.dev.link (p.val, e.val)).nakOut = none → 1 ≤ back → back ≤ 32768 →
    Completes (.rxDataFlit p e flit) s (fun d => d.getF F.PRT_LNK_DUP_COUNT [p.val, e.val] = min (s.dev.getF F.PRT_LNK_DUP_COUNT [p.val, e.val] + 1) (2 ^ 32 - 1) ∧
      SameRegs s.dev d [(F.PRT_LNK_DUP_COUNT, [p.val, e.val])] ∧ OnlyRegs s.dev d)) ∧
  (∀ (s : State) (p : Fin 8) (e : Fin 32) (flit : List (BitVec 8)) (marked : Bool), flitOk flit = true → s.dev.portUp (p.val, e.val) = true → (marked = true ∨ flitGood flit = false) →
    Completes (.rxBadFlit p e flit marked) s (fun d => d.getF F.PRT_LNK_BAD_COUNT [p.val, e.val] = min (s.dev.getF F.PRT_LNK_BAD_COUNT [p.val, e.val] + 1) (2 ^ 32 - 1) ∧
      ((s.dev.link (p.val, e.val)).nakOut = none → (d.link (p.val, e.val)).nakOut = some s.dev.clk.now ∧ (d.link (p.val, e.val)).nakDue = true) ∧ ((s.dev.link (p.val, e.val)).nakOut ≠ none → d.link (p.val, e.val) = (s.dev.link (p.val, e.val))) ∧
      SameRegs s.dev d [(F.PRT_LNK_BAD_COUNT, [p.val, e.val])] ∧ SameMem s.dev d)) ∧
  (∀ (s : State) (p : Fin 8) (e : Fin 32) (flit : List (BitVec 8)) (x : InPkt), flitOk flit = true → s.dev.portUp (p.val, e.val) = true → s.dev.rxDead (p.val, e.val) = false → flitGood flit = true →
    (FlitHdr.dec flit).type = 2 → (FlitHdr.dec flit).seq = s.dev.getF F.PRT_LNK_STAT_RX_EXPECT [p.val, e.val] → (s.dev.link (p.val, e.val)).inq = [x] → x.complete = false → x.lost = none → (x.tc == 0) = ((FlitHdr.dec flit).tc == 0) →
    x.flight = none → (FlitHdr.dec flit).sop = 0 →
    Completes (.rxAbortFlit p e flit) s (fun d => d.getF F.PRT_LNK_STAT_RX_EXPECT [p.val, e.val] = (s.dev.getF F.PRT_LNK_STAT_RX_EXPECT [p.val, e.val] + 1) % 2 ^ 16 ∧
      d.getF F.PRT_LNK_ABORT_RX_COUNT [p.val, e.val] = min (s.dev.getF F.PRT_LNK_ABORT_RX_COUNT [p.val, e.val] + 1) (2 ^ 32 - 1) ∧
      (∀ q ∈ (d.link (p.val, e.val)).inq, q.lost = some (Status.ofCode (leAt flit 16 1)) ∧ q.flits = 0) ∧ SameMem s.dev d)) ∧
  (∀ (s : State) (p : Fin 8) (e : Fin 32) (flit : List (BitVec 8)), flitOk flit = true → s.dev.portUp (p.val, e.val) = true → s.dev.rxDead (p.val, e.val) = false → flitGood flit = true →
    (FlitHdr.dec flit).type = 2 → (FlitHdr.dec flit).seq = s.dev.getF F.PRT_LNK_STAT_RX_EXPECT [p.val, e.val] → openIdx (s.dev.link (p.val, e.val)).inq ((FlitHdr.dec flit).tc == 0) = none →
    Completes (.rxAbortFlit p e flit) s (fun d => d.getF F.PRT_LNK_MALFORMED_COUNT [p.val, e.val] = min (s.dev.getF F.PRT_LNK_MALFORMED_COUNT [p.val, e.val] + 1) (2 ^ 32 - 1) ∧
      d.flag F.PRT_LNK_ERR_MALFORMED [p.val, e.val] = true ∧ d.getF F.PRT_LNK_ABORT_RX_COUNT [p.val, e.val] = s.dev.getF F.PRT_LNK_ABORT_RX_COUNT [p.val, e.val] ∧ SameMem s.dev d)) ∧
  (∀ (s : State) (p : Fin 8) (e : Fin 32) (flit : List (BitVec 8)), flitOk flit = true → s.dev.portUp (p.val, e.val) = true → s.dev.rxDead (p.val, e.val) = true →
    Completes (.rxDataFlit p e flit) s (fun d => d.getF F.PRT_LNK_BAD_COUNT [p.val, e.val] = min (s.dev.getF F.PRT_LNK_BAD_COUNT [p.val, e.val] + 1) (2 ^ 32 - 1) ∧
      (d.link (p.val, e.val)).inq = (s.dev.link (p.val, e.val)).inq ∧ SameRegs s.dev d [(F.PRT_LNK_BAD_COUNT, [p.val, e.val])] ∧ SameMem s.dev d)) ∧
  (∀ (s : State) (p : Fin 8) (e : Fin 32) (flit : List (BitVec 8)) (l : LinkSt) (i : Nat), flitOk flit = true → s.dev.portUp (p.val, e.val) = true → s.dev.rxDead (p.val, e.val) = false → flitGood flit = true →
    (FlitHdr.dec flit).type = 3 → l = (s.dev.link (p.val, e.val)).acked s.dev.clk.now (FlitHdr.dec flit).ack → l.replay.findIdx? (fun x => x.seq == leAt flit 16 2) = some i →
    l.lastReplay ≠ some (leAt flit 16 2) → 2 ≤ s.dev.getF F.PRT_LNK_CFG_REPLAY_LIMIT [p.val, e.val] →
    Completes (.rxNakFlit p e flit) s (fun d => (d.link (p.val, e.val)).resend = l.replay.drop i ∧ (d.link (p.val, e.val)).replay = l.replay ∧ (d.link (p.val, e.val)).replays = 1 ∧
      d.getF F.PRT_LNK_REPLAY_COUNT [p.val, e.val] = min (s.dev.getF F.PRT_LNK_REPLAY_COUNT [p.val, e.val] + 1) (2 ^ 32 - 1) ∧ d.portUp (p.val, e.val) = true ∧ SameMem s.dev d)) ∧
  (∀ (s : State) (p : Fin 8) (e : Fin 32) (x : SentFlit) (rest : List SentFlit), s.dev.portUp (p.val, e.val) = true → (s.dev.link (p.val, e.val)).nakOut = none → (s.dev.link (p.val, e.val)).replay = x :: rest →
    (s.dev.link (p.val, e.val)).lastReplay ≠ some x.seq → (s.dev.link (p.val, e.val)).ackAt + us (s.dev.getF F.PRT_LNK_CFG_ACK_TIMEOUT [p.val, e.val]) ≤ s.dev.clk.now → 2 ≤ s.dev.getF F.PRT_LNK_CFG_REPLAY_LIMIT [p.val, e.val] →
    Completes (.ackTimeout p e) s (fun d => (d.link (p.val, e.val)).resend = x :: rest ∧ (d.link (p.val, e.val)).ackAt = s.dev.clk.now ∧ (d.link (p.val, e.val)).replays = 1 ∧
      d.getF F.PRT_LNK_REPLAY_COUNT [p.val, e.val] = min (s.dev.getF F.PRT_LNK_REPLAY_COUNT [p.val, e.val] + 1) (2 ^ 32 - 1) ∧ d.portUp (p.val, e.val) = true ∧ SameMem s.dev d))

/-- A port goes down, is flushed, and leaves the fairlead entries. PORT_LOSS_OF_SIGNAL and PORT_DOWN of a port that is up clear
UP, both live sets, the replay buffer, the sequence numbers and every credit, count the flits not acknowledged as lost, and
start the flush; PORT_FLUSH_DONE removes what the port's queues hold and sets FLUSHED; FAIRLEAD_EN_CLEAR clears the EN bits of
the port in a port die's entries. None writes memory. Where the rules leave a point open, the model's choice is meant: logs
40, 52. Basis: R161, R185, R219, R231. -/
def Obligations.PortsGoDown : Prop :=
  (∀ (s : State) (p : Fin 8) (e : Fin 32), s.dev.portUp (p.val, e.val) = true →
    Completes (.portLossOfSignal p e) s (fun d => d.portUp (p.val, e.val) = false ∧ d.flag F.PRT_FLUSH_STAT_FLUSHING [p.val, e.val] = true ∧ (d.link (p.val, e.val)).replay = [] ∧ (d.link (p.val, e.val)).resend = [] ∧
      (d.link (p.val, e.val)).used = [0, 0, 0, 0] ∧ (d.link (p.val, e.val)).freed = [0, 0, 0, 0] ∧ d.getF F.PRT_LNK_STAT_TX_NEXT [p.val, e.val] = 0 ∧ d.getF F.PRT_LNK_STAT_RX_EXPECT [p.val, e.val] = 0 ∧
      (∀ vc : Fin 4, d.credits (p.val, e.val) vc.val = 0) ∧ d.live16 (p.val, e.val) true = 0 ∧ d.live16 (p.val, e.val) false = 0 ∧
      d.getF F.PRT_LNK_LOST_COUNT [p.val, e.val] = min (s.dev.getF F.PRT_LNK_LOST_COUNT [p.val, e.val] + (s.dev.link (p.val, e.val)).replay.length) (2 ^ 32 - 1) ∧
      d.net.enDue = s.dev.net.enDue ++ (List.range 8).map (fun q => (q, p.val * 32 + e.val)) ∧ SameMem s.dev d)) ∧
  (∀ (s : State) (p : Fin 8) (e : Fin 32), s.dev.portUp (p.val, e.val) = true →
    Completes (.portDown p e) s (fun d => d.portUp (p.val, e.val) = false ∧ d.flag F.PRT_FLUSH_STAT_FLUSHING [p.val, e.val] = true ∧ (d.link (p.val, e.val)).replay = [] ∧ (d.link (p.val, e.val)).resend = [] ∧
      (d.link (p.val, e.val)).used = [0, 0, 0, 0] ∧ (d.link (p.val, e.val)).freed = [0, 0, 0, 0] ∧ d.getF F.PRT_LNK_STAT_TX_NEXT [p.val, e.val] = 0 ∧ d.getF F.PRT_LNK_STAT_RX_EXPECT [p.val, e.val] = 0 ∧
      (∀ vc : Fin 4, d.credits (p.val, e.val) vc.val = 0) ∧ d.live16 (p.val, e.val) true = 0 ∧ d.live16 (p.val, e.val) false = 0 ∧
      d.getF F.PRT_LNK_LOST_COUNT [p.val, e.val] = min (s.dev.getF F.PRT_LNK_LOST_COUNT [p.val, e.val] + (s.dev.link (p.val, e.val)).replay.length) (2 ^ 32 - 1) ∧
      d.net.enDue = s.dev.net.enDue ++ (List.range 8).map (fun q => (q, p.val * 32 + e.val)) ∧ SameMem s.dev d)) ∧
  (∀ (s : State) (p : Fin 8) (e : Fin 32) (t : Nat), (s.dev.link (p.val, e.val)).flushing = some t →
    Completes (.portFlushDone p e) s (fun d => (d.link (p.val, e.val)).queues = [] ∧ (d.link (p.val, e.val)).tx0 = none ∧ (d.link (p.val, e.val)).txN = none ∧ (d.link (p.val, e.val)).flushing = none ∧
      (d.link (p.val, e.val)).flushed = true ∧ d.flag F.PRT_FLUSH_STAT_FLUSHING [p.val, e.val] = false ∧ d.flag F.PRT_FLUSH_STAT_FLUSHED [p.val, e.val] = true ∧ SameMem s.dev d)) ∧
  (∀ (s : State) (q : Fin 8) (id : Fin 256), (q.val, id.val) ∈ s.dev.net.enDue →
    Completes (.fairleadEnClear q id) s (fun d => (q.val, id.val) ∉ d.net.enDue ∧
      (∀ (dim : Fin 3) (c : Fin 16) (i : Fin 8), s.dev.flPortId q.val (dim.val + 1) c.val i.val = id.val → d.bitF F.PRT_FL_CTL_EN [q.val, dim.val + 1, c.val] i.val = false) ∧
      SameRegs s.dev d ((List.range 3).flatMap (fun dim => (List.range 16).map (fun c => (F.PRT_FL_CTL_EN, [q.val, dim + 1, c])))) ∧ SameMem s.dev d))

/-- A packet head is parsed and routed, its cells are granted, written, or withdrawn. PACKET_HEAD_PARSE of a packet that passes
its checks, whose key is admitted without limit and which has a route, enters it as the next flight with the route's
destinations and channel; without an address of its own the device discards it with NO_ROUTE. MAST_PACKET_DELIVER hands a
whole packet to the Mast. ADMISSION_GRANT grants the oldest request of a class its whole share from small cells where they
suffice, and from large cells where neither the shared part nor the reserve does. CELL_WRITE writes the next cell, a
port die's when it is its ratline's next transfer and a capstan's when its bytes are in, and sends its notice with the cell's epoch. A
ratline transfers a committed cell first, then one of TC0 priority, else its oldest. VOID_NOTICE of a lost packet withdraws its requests and writes void notices for the cells not yet
written. None changes memory. Where the rules leave a point open, the model's choice is meant: logs 32, 53. Basis: R193, R202, R206, R207, R218, R227, R228, R236. -/
def Obligations.PacketsAreParsedAndAdmitted : Prop :=
  (∀ (s : State) (src : Source) (vc : Fin 4) (k : Nat × Nat) (i : Nat) (x : InPkt) (h : PktHdr) (dests : List Dest) (nvc : Nat), k = sourceKey src →
    (s.dev.link k).inq.findIdx? (fun q => !q.parsed && q.vc == vc.val && decide (32 ≤ q.bytes.length)) = some i → (s.dev.link k).inq[i]? = some x →
    h = PktHdr.dec x.bytes → x.lost = none → s.dev.addrOk = true →
    (isCapstan k = true ∨ h.ok = true ∧ h.dstOk = true ∧ (h.op ≠ opGET ∨ getOk (x.bytes.drop 32) = true)) →
    (isLink k = true → ∃ j, s.dev.keyEntry k h.pkey = some j ∧ s.dev.getF F.PRT_PKEY_LIMIT [k.1, k.2, j] = 0) → 2 ≤ h.tc →
    s.dev.route k h = .to dests nvc false false → (isCapstan k = true → s.dev.dieOk (1 + (k.1 - 8)) = true) → s.dev.net.yl ≠ [] →
    Completes (.packetHeadParse src vc) s (fun d =>
      (∃ f, d.flight s.dev.net.nextId = some f ∧ f.src = k ∧ f.vc = nvc ∧ f.hdr = h ∧ f.bytes = x.bytes ∧ f.dests = dests ∧ f.lost = none ∧
        (destDies dests ≠ [] → f.cells.length = cellsOf h.size)) ∧
      d.net.nextId = s.dev.net.nextId + 1 ∧ (d.link k).inq[i]? = some { x with parsed := true, flight := some s.dev.net.nextId } ∧ SameRegs s.dev d [] ∧ SameMem s.dev d)) ∧
  (∀ (s : State) (p : Fin 8) (e : Fin 32) (vc : Fin 4) (i : Nat) (x : InPkt),
    (s.dev.link (p.val, e.val)).inq.findIdx? (fun q => !q.parsed && q.vc == vc.val && decide (32 ≤ q.bytes.length)) = some i → (s.dev.link (p.val, e.val)).inq[i]? = some x → x.lost = none → s.dev.addrOk = false →
    Completes (.packetHeadParse (.port p e) vc) s (fun d =>
      d.getF F.PRT_RT_NOROUTE_COUNT [p.val] = min (s.dev.getF F.PRT_RT_NOROUTE_COUNT [p.val] + 1) (2 ^ 32 - 1) ∧ d.net.flights = s.dev.net.flights ∧ SameMem s.dev d)) ∧
  (∀ (s : State) (id : Nat) (f : Flight), s.dev.flight id = some f → f.dests = [.mast] → f.complete = true → f.lost = none →
    Completes (.mastPacketDeliver id) s (fun d => d.net.arrivals = s.dev.net.arrivals ++ [⟨.mast, id, f.hdr, f.bytes.drop 32, true⟩] ∧ d.flight id = none ∧
      SameRegs s.dev d [] ∧ SameMem s.dev d)) ∧
  (∀ (s : State) (y : Fin 4) (cls : Fin 5) (id : Nat) (rest : List Nat) (f : Flight), nget [] s.dev.net.waits [y.val, cls.val] = id :: rest → s.dev.flight id = some f →
    s.dev.yardUp y.val = true → f.cells.countP (fun c => c.yard == y.val) ≤ s.dev.sharedFree y.val →
    Completes (.admissionGrant y cls) s (fun d => nget [] d.net.waits [y.val, cls.val] = rest ∧
      (∃ g, d.flight id = some g ∧ g.waiting = f.waiting.filter (· ≠ y.val) ∧ g.cells.length = f.cells.length ∧
        (∀ c ∈ g.cells, c.yard = y.val → c.hold = .shared ∧ c.owner = s.dev.ownerOf f ∧ c.at_ = s.dev.clk.frame / 64)) ∧ SameMem s.dev d)) ∧
  (∀ (s : State) (y : Fin 4) (cls : Fin 5) (id : Nat) (rest : List Nat) (f : Flight) (n : Nat), nget [] s.dev.net.waits [y.val, cls.val] = id :: rest → s.dev.flight id = some f →
    s.dev.yardUp y.val = true → n = f.cells.countP (fun c => c.yard == y.val) → s.dev.sharedFree y.val < n → s.dev.reserveFree y.val cls.val < n →
    ceilDiv n 4 ≤ s.dev.largeFree y.val →
    Completes (.admissionGrant y cls) s (fun d => nget [] d.net.waits [y.val, cls.val] = rest ∧ d.flag F.YRD_POOL_STAT_FALLBACK [y.val] = true ∧
      d.getF F.YRD_FALLBACK_CNT_COUNT [y.val] = min (s.dev.getF F.YRD_FALLBACK_CNT_COUNT [y.val] + n) (2 ^ 32 - 1) ∧
      (∃ g, d.flight id = some g ∧ (∀ c ∈ g.cells, c.yard = y.val → c.hold = .large ∨ c.hold = .follower)) ∧ SameMem s.dev d)) ∧
  (∀ (s : State) (id i n c : Nat) (f : Flight) (x : Cell), s.dev.flight id = some f → f.waiting = [] → f.lost = none → f.cells.findIdx? (fun x => !x.written) = some i →
    f.cells[i]? = some x → f.cseq = [(n, c)] →
    (isCapstan f.src = true ∧ min (256 * (i + 1)) f.hdr.size ≤ f.bytes.length ∧ s.dev.noticeRoom n f.vc = true ∨
      isCapstan f.src = false ∧ ∃ r, ratNext s.dev.ratOk (s.dev.ratQueue f.src.1 x.yard) = some r ∧ r.flight = id ∧ r.cell = i) →
    ((c + i) % 65536 + 65536 - (s.dev.strm n f.src f.vc).next) % 65536 < 32768 →
    Completes (.cellWrite id) s (fun d => (∃ g, d.flight id = some g ∧ ∃ z, g.cells[i]? = some z ∧ z.written = true ∧ z.epoch = some (x.epoch.getD s.dev.net.epoch)) ∧
      (d.strm n f.src f.vc).wait = (s.dev.strm n f.src f.vc).wait ++ [⟨(c + i) % 65536, x.epoch.getD s.dev.net.epoch, id, i, false⟩] ∧ SameRegs s.dev d [] ∧ SameMem s.dev d)) ∧
  (∀ (s : State) (id n c i : Nat) (f : Flight) (st : Status) (x : Cell), s.dev.flight id = some f → f.lost = some st → f.cseq = [(n, c)] → f.cells[i]? = some x → x.written = false →
    ((c + i) % 65536 + 65536 - (s.dev.strm n f.src f.vc).next) % 65536 < 32768 →
    Completes (.voidNotice id) s (fun d => (∀ g, d.flight id = some g → g.waiting = [] ∧ ∀ z ∈ g.cells, z.written = true) ∧
      (∀ y ∈ f.waiting, id ∉ nget [] d.net.waits [y, f.cls]) ∧
      NoticeC.mk ((c + i) % 65536) (x.epoch.getD s.dev.net.epoch) id i true ∈ (d.strm n f.src f.vc).wait ∧ SameRegs s.dev d [] ∧ SameMem s.dev d))

/-- Notices are released in order, cells freed, and pools audited. RESEQUENCER_RELEASE takes the notice whose CSEQ is next: a cell
for a sail falls due, its bank grants or refuses the packet's write with the first, and the packet has arrived with its last one, and a packet of one cell for a port that is up enters its
egress queue; GAP_TIMEOUT of a port die declares the missing cells lost; CELL_FREE frees a cell that is due, and a second free
only sets FREE_ERR; MULTICAST_COPY_DONE gives up a finished port's claim; LEAK_AUDIT_PASS counts the pass and, with
ORPHAN_FREE 0, shows the cells of the selected owner and sets LEAK for leaked ones; POOL_CFG_WRITE before the first allocation
sets LARGE_MIB and is otherwise rejected; SPRAY_EPOCH_CHANGE takes the new yards and toggles the epoch. None changes memory.
Where the rules leave a point open, the model's choice is meant: logs 33, 53. Basis: R204, R208, R209, R210, R211, R212, R213, R216, R203. -/
def Obligations.CellsAreReleasedFreedAndAudited : Prop :=
  (∀ (s : State) (n : Fin 25) (src : Source) (vc : Fin 4) (k : Nat × Nat) (x : NoticeC) (f : Flight) (j : Nat), k = sourceKey src →
    (s.dev.strm n.val k vc.val).wait.find? (fun z => z.cseq == (s.dev.strm n.val k vc.val).next) = some x → x.void = false → s.dev.flight x.flight = some f →
    f.dests = [.sail j] → n.val ∉ f.dropped →
    Completes (.resequencerRelease n src vc) s (fun d => (d.strm n.val k vc.val).next = ((s.dev.strm n.val k vc.val).next + 1) % 65536 ∧
      (∃ g, d.flight x.flight = some g ∧ (∀ c, g.cells[x.cell]? = some c → c.due = true)) ∧
      (x.cell + 1 = f.cells.length → d.net.arrivals = s.dev.net.arrivals ++ [⟨.sail j, x.flight, f.hdr, f.bytes.drop 32, f.granted.getD (s.dev.grantWrite f.hdr)⟩]) ∧
      (x.cell + 1 ≠ f.cells.length → d.net.arrivals = s.dev.net.arrivals) ∧ SameRegs s.dev d [] ∧ SameMem s.dev d)) ∧
  (∀ (s : State) (p : Fin 8) (e : Fin 32) (src : Source) (vc : Fin 4) (k : Nat × Nat) (x : NoticeC) (f : Flight) (n : Fin 25), k = sourceKey src → n.val = 5 + p.val →
    (s.dev.strm n.val k vc.val).wait.find? (fun z => z.cseq == (s.dev.strm n.val k vc.val).next) = some x → x.void = false → s.dev.flight x.flight = some f →
    f.dests = [.port p.val e.val] → f.hdr.mc = 0 → f.cells.length = 1 → x.cell = 0 → n.val ∉ f.dropped → s.dev.portUp (p.val, e.val) = true → s.dev.canCut (p.val, e.val) f = false →
    (s.dev.link (p.val, e.val)).sending x.flight = false → (∀ q ∈ (s.dev.link (p.val, e.val)).queues, ∀ z ∈ q.2, z.flight ≠ x.flight) → s.dev.descs p.val (fun z => !z.rsv) < 65536 - 6144 →
    Completes (.resequencerRelease n src vc) s (fun d =>
      (d.link (p.val, e.val)).sub (s.dev.queueOf (p.val, e.val) f.hdr) (vcRank f.vc) = (s.dev.link (p.val, e.val)).sub (s.dev.queueOf (p.val, e.val) f.hdr) (vcRank f.vc) ++ [⟨x.flight, f.vc, false, false⟩] ∧
      d.getF F.PRT_SW_STORE_COUNT [p.val, e.val] = min (s.dev.getF F.PRT_SW_STORE_COUNT [p.val, e.val] + 1) (2 ^ 32 - 1) ∧
      SameRegs s.dev d [(F.PRT_SW_STORE_COUNT, [p.val, e.val]), (F.PRT_DESC_FREE_FREE, [p.val])] ∧ SameMem s.dev d)) ∧
  (∀ (s : State) (p : Fin 8) (src : Source) (vc : Fin 4) (k : Nat × Nat) (x : NoticeC) (n : Fin 25) (t m : Nat), k = sourceKey src → n.val = 5 + p.val →
    (s.dev.strm n.val k vc.val).gapAt = some t → t + us (max 1 (s.dev.getF F.PRT_RSQ_CFG_TIMEOUT [p.val])) ≤ s.dev.clk.now →
    (s.dev.strm n.val k vc.val).wait = [x] → x.cseq < 65536 → m = (x.cseq + 65536 - (s.dev.strm n.val k vc.val).next) % 65536 → 1 ≤ m →
    (s.dev.strm n.val k vc.val).next < 65536 →
    Completes (.gapTimeout n src vc) s (fun d => (d.strm n.val k vc.val).next = x.cseq ∧ d.flag F.PRT_RSQ_STAT_GAP_TIMEOUT [p.val] = true ∧
      d.bitF F.FLT_STAT_SRC [n.val] 12 = true ∧
      d.getF F.PRT_RSQ_LOST_COUNT [p.val] = min (s.dev.getF F.PRT_RSQ_LOST_COUNT [p.val] + m) (2 ^ 32 - 1) ∧ SameMem s.dev d)) ∧
  (∀ (s : State) (y : Fin 4) (id i : Nat) (f : Flight) (c : Cell), s.dev.flight id = some f → f.cells[i]? = some c → c.yard = y.val → c.hold ≠ .freed → c.hold ≠ .large →
    c.due = true →
    Completes (.cellFree y id i) s (fun d => (∀ g, d.flight id = some g → g.cells[i]? = some { c with hold := .freed }) ∧
      SameRegs s.dev d [(F.YRD_POOL_FREE_S_FREE, [y.val]), (F.YRD_POOL_FREE_L_FREE, [y.val])] ∧ SameMem s.dev d)) ∧
  (∀ (s : State) (y : Fin 4) (id i : Nat) (f : Flight) (c : Cell), s.dev.flight id = some f → f.cells[i]? = some c → c.yard = y.val → c.hold = .freed →
    Completes (.cellFree y id i) s (fun d => d.flag F.YRD_POOL_STAT_FREE_ERR [y.val] = true ∧
      SameRegs s.dev d [(F.YRD_POOL_STAT_FREE_ERR, [y.val])] ∧ OnlyRegs s.dev d)) ∧
  (∀ (s : State) (id : Nat) (p : Fin 8) (e : Fin 32) (f : Flight), s.dev.flight id = some f → (p.val, e.val) ∈ f.doneCopies → (p.val, e.val) ∈ f.pendingPorts →
    (f.named ≠ some (p.val, e.val) ∨ f.pendingPorts = [(p.val, e.val)]) →
    Completes (.multicastCopyDone id p e) s (fun d => ∃ g, d.flight id = some g ∧ g.pendingPorts = f.pendingPorts.filter (· ≠ (p.val, e.val)) ∧
      (f.pendingPorts = [(p.val, e.val)] → ∀ c ∈ g.cells, c.due = true) ∧ SameRegs s.dev d [] ∧ SameMem s.dev d)) ∧
  (∀ (s : State) (y : Fin 4) (all : List Cell), s.dev.dieOk (1 + y.val) = true → s.dev.flag F.YRD_AUDIT_CTRL_ORPHAN_FREE [y.val] = false →
    all = s.dev.net.flights.flatMap (fun x => x.2.cells.filter (entryIn y.val)) →
    Completes (.leakAuditPass y) s (fun d => d.getF F.YRD_AUDIT_PASS_COUNT [y.val] = min (s.dev.getF F.YRD_AUDIT_PASS_COUNT [y.val] + 1) (2 ^ 32 - 1) ∧
      d.getF F.YRD_AUDIT_CNT_CELLS [y.val] = (all.filter (fun c => c.owner == some (s.dev.getF F.YRD_AUDIT_SEL_OWNER [y.val]))).length % 2 ^ 20 ∧
      ((∃ c ∈ all, s.dev.getF F.YRD_AUDIT_CTRL_AGE_LIMIT [y.val] < s.dev.cellAge c ∨ s.dev.orphan y.val c = true) →
        d.flag F.YRD_POOL_STAT_LEAK [y.val] = true ∧ d.bitF F.FLT_STAT_SRC [1 + y.val] 9 = true) ∧ d.net = s.dev.net ∧ SameMem s.dev d)) ∧
  (∀ (s : State) (iss : Issuer) (y : Fin 4) (v : BitVec 32), s.dev.lands iss .YRD_POOL_CFG [y.val] v.toNat = true → bits v.toNat 0 6 ≤ 32 → y.val ∉ s.dev.net.allocated →
    Completes (.poolCfgWrite iss y v) s (fun d => d.getF F.YRD_POOL_CFG_LARGE_MIB [y.val] = bits v.toNat 0 6 ∧
      SameRegs s.dev d [(F.YRD_POOL_CFG_LARGE_MIB, [y.val]), (F.YRD_POOL_FREE_S_FREE, [y.val]), (F.YRD_POOL_FREE_L_FREE, [y.val])] ∧ OnlyRegs s.dev d)) ∧
  (∀ (s : State) (iss : Issuer) (y : Fin 4) (v : BitVec 32), s.dev.lands iss .YRD_POOL_CFG [y.val] v.toNat = true → (32 < bits v.toNat 0 6 ∨ y.val ∈ s.dev.net.allocated) →
    Completes (.poolCfgWrite iss y v) s (fun d => d.flag F.YRD_POOL_STAT_CFG_REJECT [y.val] = true ∧
      SameRegs s.dev d [(F.YRD_POOL_STAT_CFG_REJECT, [y.val])] ∧ OnlyRegs s.dev d)) ∧
  (∀ (s : State) (yl : List Nat), s.dev.net.sprayDue = some yl →
    Completes .sprayEpochChange s (fun d => d.net.yl = yl ∧ d.net.epoch = 1 - s.dev.net.epoch ∧ d.net.sprayDue = none ∧
      SameFields s.dev d [F.YRD_POOL_FREE_S_FREE, F.YRD_POOL_FREE_L_FREE] ∧ SameMem s.dev d))

/-- What a flit slot of a port that is up carries. EGRESS_FLIT_SLOT sends the NAK that is due, else the oldest flit to send again,
else a time exchange with the time at which it leaves, else the TC0 packet that is eligible (here one that fits one flit: it leaves
its queue, takes the next SEQ and one credit), and IDLE when nothing waits; while a reef request is open it sends no new flit, and
nothing while the port is reefed. An eligible packet has its gate, both shapers and credits, is not aged, and is stored whole unless it
is cut through. The clauses on one slot are for slots in which no packet is aged out. None changes memory.
Basis: R165, R172, R178, R183, R184, R186, R187, R216, R253, R254. -/
def Obligations.EgressFlitSlotsFollowTheirOrder : Prop :=
  (∀ (s : State) (p : Fin 8) (e : Fin 32) (since : Nat) (sym : Fin 17000), s.dev.portUp (p.val, e.val) = true → (s.dev.portLn (p.val, e.val)).reef = .none → s.dev.dropAged (p.val, e.val) = s.dev → (s.dev.link (p.val, e.val)).nakDue = true →
    Completes (.egressFlitSlot p e ⟨since, sym⟩) s (fun d => (d.link (p.val, e.val)).nakDue = false ∧ (d.link (p.val, e.val)).nakOut = some s.dev.clk.now ∧
      d.getF F.PRT_LNK_NAK_TX_COUNT [p.val, e.val] = min (s.dev.getF F.PRT_LNK_NAK_TX_COUNT [p.val, e.val] + 1) (2 ^ 32 - 1) ∧
      (∃ b, d.out = s.dev.out ++ [.flit p.val e.val 3 0 b]) ∧ SameRegs s.dev d [(F.PRT_LNK_NAK_TX_COUNT, [p.val, e.val])] ∧ SameMem s.dev d)) ∧
  (∀ (s : State) (p : Fin 8) (e : Fin 32) (since : Nat) (sym : Fin 17000) (x : SentFlit) (rest : List SentFlit), s.dev.portUp (p.val, e.val) = true → (s.dev.portLn (p.val, e.val)).reef = .none → s.dev.dropAged (p.val, e.val) = s.dev → (s.dev.link (p.val, e.val)).nakDue = false → (s.dev.link (p.val, e.val)).resend = x :: rest →
    Completes (.egressFlitSlot p e ⟨since, sym⟩) s (fun d => (d.link (p.val, e.val)).resend = rest ∧ (d.link (p.val, e.val)).replay = (s.dev.link (p.val, e.val)).replay ∧ (d.link (p.val, e.val)).used = (s.dev.link (p.val, e.val)).used ∧
      (∃ b, d.out = s.dev.out ++ [.flit p.val e.val x.type x.seq b]) ∧ SameRegs s.dev d [] ∧ SameMem s.dev d)) ∧
  (∀ (s : State) (p : Fin 8) (e : Fin 32) (since : Nat) (sym : Fin 17000) (x : List Byte) (rest : List (List Byte)), s.dev.portUp (p.val, e.val) = true → (s.dev.portLn (p.val, e.val)).reef = .none → s.dev.dropAged (p.val, e.val) = s.dev → (s.dev.link (p.val, e.val)).nakDue = false → (s.dev.link (p.val, e.val)).resend = [] → (s.dev.link (p.val, e.val)).timex = x :: rest →
    Completes (.egressFlitSlot p e ⟨since, sym⟩) s (fun d => (d.link (p.val, e.val)).timex = rest ∧
      (∀ y, nget? s.dev.clk.timex [p.val, e.val] = some y → leAt x 0 1 = 1 → (d.timexOf (p.val, e.val)).t1 = s.dev.stampAt 0 sym.val) ∧ (∃ b, d.out = s.dev.out ++ [.flit p.val e.val 4 0 b]) ∧
      SameRegs s.dev d [] ∧ SameMem s.dev d)) ∧
  (∀ (s : State) (p : Fin 8) (e : Fin 32) (since : Nat) (sym : Fin 17000) (x : EDesc) (f : Flight), s.dev.portUp (p.val, e.val) = true → (s.dev.portLn (p.val, e.val)).reef = .none → s.dev.dropAged (p.val, e.val) = s.dev → (s.dev.link (p.val, e.val)).nakDue = false → (s.dev.link (p.val, e.val)).resend = [] → (s.dev.link (p.val, e.val)).timex = [] →
    (s.dev.link (p.val, e.val)).replay.length < 2048 → (s.dev.link (p.val, e.val)).tx0 = none → s.dev.eligible (p.val, e.val) 0 since sym.val = some (x, f) → f.hdr.tc = 0 → f.hdr.mc = 0 → f.hdr.size ≤ 240 → x.cut = false →
    5 + p.val ∉ f.dropped → x.vc < 4 →
    Completes (.egressFlitSlot p e ⟨since, sym⟩) s (fun d => (d.link (p.val, e.val)).sub 0 (vcRank x.vc) = ((s.dev.link (p.val, e.val)).sub 0 (vcRank x.vc)).tail ∧ (d.link (p.val, e.val)).tx0 = none ∧
      d.getF F.PRT_LNK_STAT_TX_NEXT [p.val, e.val] = (s.dev.getF F.PRT_LNK_STAT_TX_NEXT [p.val, e.val] + 1) % 2 ^ 16 ∧
      d.credits (p.val, e.val) x.vc = (s.dev.credits (p.val, e.val) x.vc - 1) % 2 ^ 16 ∧ (d.link (p.val, e.val)).replay.length = (s.dev.link (p.val, e.val)).replay.length + 1 ∧
      (∃ b, d.out = s.dev.out ++ [.flit p.val e.val 1 (s.dev.getF F.PRT_LNK_STAT_TX_NEXT [p.val, e.val]) b]) ∧ SameMem s.dev d)) ∧
  (∀ (s : State) (p : Fin 8) (e : Fin 32) (since : Nat) (sym : Fin 17000), s.dev.portUp (p.val, e.val) = true → (s.dev.portLn (p.val, e.val)).reef = .none → s.dev.dropAged (p.val, e.val) = s.dev → (s.dev.link (p.val, e.val)).nakDue = false → (s.dev.link (p.val, e.val)).resend = [] → (s.dev.link (p.val, e.val)).timex = [] → (s.dev.link (p.val, e.val)).queues = [] →
    (s.dev.link (p.val, e.val)).tx0 = none → (s.dev.link (p.val, e.val)).txN = none →
    Completes (.egressFlitSlot p e ⟨since, sym⟩) s (fun d => (∃ b, d.out = s.dev.out ++ [.flit p.val e.val 0 0 b]) ∧ SameRegs s.dev d [] ∧ SameMem s.dev d)) ∧
  (∀ (s : State) (p : Fin 8) (e : Fin 32) (since : Nat) (sym : Fin 17000), s.dev.portUp (p.val, e.val) = true → s.dev.dropAged (p.val, e.val) = s.dev →
    ((s.dev.portLn (p.val, e.val)).reef = .asked ∧ (s.dev.link (p.val, e.val)).nakDue = false ∧ (s.dev.link (p.val, e.val)).resend = [] ∨
      (s.dev.portLn (p.val, e.val)).reef = .entering ∧ (s.dev.portLn (p.val, e.val)).reefAt = s.dev.clk.now) →
    Completes (.egressFlitSlot p e ⟨since, sym⟩) s (fun d => (∃ b, d.out = s.dev.out ++ [.flit p.val e.val 0 0 b]) ∧
      (d.link (p.val, e.val)).timex = (s.dev.link (p.val, e.val)).timex ∧ (d.link (p.val, e.val)).queues = (s.dev.link (p.val, e.val)).queues ∧
      SameRegs s.dev d [] ∧ SameMem s.dev d)) ∧
  (∀ (s : State) (p : Fin 8) (e : Fin 32) (since : Nat) (sym : Fin 17000),
    ((s.dev.portLn (p.val, e.val)).reef = .reefed ∨ (s.dev.portLn (p.val, e.val)).reef = .waking) → exec (.egressFlitSlot p e ⟨since, sym⟩) s = .next s) ∧
  (∀ (d : Dev) (k : Nat × Nat) (q since sym : Nat) (x : EDesc) (f : Flight), d.eligible k q since sym = some (x, f) →
    d.creditOk k f x.vc = true ∧ d.gateAdmits k f since sym = true ∧ d.aged k f = false ∧ d.shaperOk k q (d.charge k f.hdr.size) = true ∧
    d.shaperOk k (16 + f.hdr.tc) (d.charge k f.hdr.size) = true ∧ (x.cut = true ∨ f.cells.length ≤ f.releasedAt (5 + k.1)))

/-- The own address, fairlead entries and multicast groups. FABADDR_APPLY puts MST_FABADDR in force; FAIRLEAD_COMMIT puts a
fairlead entry's control word and its four staged words in force together; MC_GROUP_COMMIT that passes its checks queues the
entry for the yards and one that fails sets REJECT with its group; MC_GROUP_APPLY puts every queued entry in force. None
changes memory. Where the rules leave a point open, the model's choice is meant: log 54. Basis: R227, R230, R232, R238. -/
def Obligations.RoutingTablesAndGroupsTakeEffect : Prop :=
  (∀ s : State, s.dev.net.fabDue = true →
    Completes .fabaddrApply s (fun d => d.net.fabAddr = (s.dev.getF F.MST_FABADDR_HALL, s.dev.getF F.MST_FABADDR_ROW, s.dev.getF F.MST_FABADDR_RACK, s.dev.flag F.MST_FABADDR_VALID) ∧
      d.net.fabDue = false ∧ SameRegs s.dev d [] ∧ SameMem s.dev d)) ∧
  (∀ (s : State) (iss : Issuer) (p : Fin 8) (dim : Fin 3) (c : Fin 16) (v : BitVec 32) (i : List Nat), i = [p.val, dim.val + 1, c.val] → s.dev.lands iss .PRT_FL_CTL i v.toNat = true →
    Completes (.fairleadCommit iss p dim c v) s (fun d => d.getF F.PRT_FL_CTL_EN i = bits v.toNat 0 8 ∧ d.getF F.PRT_FL_CTL_VALID i = bits v.toNat 31 1 ∧
      d.flWord p.val (dim.val + 1) c.val 0 = s.dev.getF F.PRT_FL_PORTS_PORTS (i ++ [0]) ∧ d.flWord p.val (dim.val + 1) c.val 1 = s.dev.getF F.PRT_FL_PORTS_PORTS (i ++ [1]) ∧
      d.flWord p.val (dim.val + 1) c.val 2 = s.dev.getF F.PRT_FL_SEL_LO_SEL i ∧ d.flWord p.val (dim.val + 1) c.val 3 = s.dev.getF F.PRT_FL_SEL_HI_SEL i ∧
      SameRegs s.dev d [(F.PRT_FL_CTL_EN, i), (F.PRT_FL_CTL_FORCE_DETOUR, i), (F.PRT_FL_CTL_DT_COORD, i), (F.PRT_FL_CTL_DT_VALID, i), (F.PRT_FL_CTL_VALID, i)] ∧ SameMem s.dev d)) ∧
  (∀ (s : State) (iss : Issuer) (g : Fin 4096) (v : BitVec 32), s.dev.lands iss .MST_MC_CTL [g.val] v.toNat = true →
    (∀ id ∈ s.dev.masterPorts F.MST_MC_LOCAL_LOCAL g.val, s.dev.dimOf id = 0) → (∀ id ∈ s.dev.masterPorts F.MST_MC_PEER_PEER g.val, s.dev.dimOf id = bits v.toNat 0 2) →
    (s.dev.masterPorts F.MST_MC_PEER_PEER g.val = [] ∨ bits v.toNat 0 2 ≠ 0) →
    Completes (.mcGroupCommit iss g v) s (fun d => d.getF F.MST_MC_CTL_DIM [g.val] = bits v.toNat 0 2 ∧ d.getF F.MST_MC_CTL_VALID [g.val] = bits v.toNat 31 1 ∧
      nget? d.net.groupsDue [g.val] = some (d.readWord .MST_MC_CTL [g.val] :: ((List.range 8).map (fun j => s.dev.getF F.MST_MC_LOCAL_LOCAL [g.val, j]) ++
        (List.range 8).map (fun j => s.dev.getF F.MST_MC_PEER_PEER [g.val, j]))) ∧
      SameRegs s.dev d [(F.MST_MC_CTL_DIM, [g.val]), (F.MST_MC_CTL_VALID, [g.val])] ∧ SameMem s.dev d)) ∧
  (∀ (s : State) (iss : Issuer) (g : Fin 4096) (v : BitVec 32), s.dev.lands iss .MST_MC_CTL [g.val] v.toNat = true →
    (∃ id ∈ s.dev.masterPorts F.MST_MC_LOCAL_LOCAL g.val, s.dev.dimOf id ≠ 0) →
    Completes (.mcGroupCommit iss g v) s (fun d => d.flag F.MST_MC_STAT_REJECT = true ∧ d.getF F.MST_MC_STAT_REJ_GROUP = g.val ∧
      SameRegs s.dev d [(F.MST_MC_STAT_REJECT, []), (F.MST_MC_STAT_REJ_GROUP, [])] ∧ OnlyRegs s.dev d)) ∧
  (∀ s : State, (s.dev.net.groupsDue.map (·.1)).Nodup →
    Completes .mcGroupApply s (fun d => (∀ x ∈ s.dev.net.groupsDue, nget? d.net.groups x.1 = some x.2) ∧
      (∀ g, g ∉ s.dev.net.groupsDue.map (·.1) → nget? d.net.groups g = nget? s.dev.net.groups g) ∧ d.net.groupsDue = [] ∧ SameRegs s.dev d [] ∧ SameMem s.dev d))

/-- Echoes lower a flow's rate, time raises it, a new profile clamps it. RATE_DECREASE of a flow with an echo lowers RATE by RATE
shifted right by DEC_SHIFT, not below MIN, when PERIOD has passed since the last decrease, and only takes the echo otherwise;
RATE_INCREASE adds INC_STEP, not above MAX, when PERIOD has passed since the last change; RATE_PROFILE_CLAMP moves the open
flows of the profile inside MIN and MAX. PERIOD as written takes effect with a flow's next change of RATE. None changes memory. Basis: R243, R244, R250. -/
def Obligations.FlowRatesFollowTheirProfiles : Prop :=
  (∀ (s : State) (f : Fin 262144) (x : Flow), s.dev.flow f.val = some x → 0 < x.echoes →
    (∀ t, x.lastDec = some t → t + x.period ≤ s.dev.clk.now) →
    Completes (.rateDecrease f) s (fun d => ∃ y, d.flow f.val = some y ∧
      y.rate = max (s.dev.getF F.PRT_RC_PROF_MIN [flowDie f.val, x.profile]) (x.rate - x.rate / 2 ^ s.dev.getF F.PRT_RC_PROF2_DEC_SHIFT [flowDie f.val, x.profile]) ∧
      y.lastDec = some s.dev.clk.now ∧ y.echoes = x.echoes - 1 ∧
      y.period = (if y.rate = x.rate then x.period else s.dev.ratePeriod (flowDie f.val) x.profile) ∧ SameMem s.dev d)) ∧
  (∀ (s : State) (f : Fin 262144) (x : Flow) (t : Nat), s.dev.flow f.val = some x → 0 < x.echoes → x.lastDec = some t →
    s.dev.clk.now < t + x.period →
    Completes (.rateDecrease f) s (fun d => d.flow f.val = some { x with echoes := x.echoes - 1 } ∧ SameRegs s.dev d [] ∧ SameMem s.dev d)) ∧
  (∀ (s : State) (f : Fin 262144) (x : Flow), s.dev.flow f.val = some x → 3 ≤ x.tc → x.rate < s.dev.getF F.PRT_RC_PROF_MAX [flowDie f.val, x.profile] →
    x.lastChg + x.period ≤ s.dev.clk.now →
    Completes (.rateIncrease f) s (fun d => ∃ y, d.flow f.val = some y ∧
      y.rate = min (s.dev.getF F.PRT_RC_PROF_MAX [flowDie f.val, x.profile]) (x.rate + s.dev.getF F.PRT_RC_PROF2_INC_STEP [flowDie f.val, x.profile]) ∧
      (y.rate ≠ x.rate → y.lastChg = s.dev.clk.now ∧ y.period = s.dev.ratePeriod (flowDie f.val) x.profile) ∧ SameMem s.dev d)) ∧
  (∀ (s : State) (p : Fin 8) (k : Fin 8) (f : Nat) (x : Flow), (p.val, k.val) ∈ s.dev.net.profDue → (s.dev.net.flows.map (·.1)).Nodup → (∀ z ∈ s.dev.net.flows, z.1 = [ix z.1 0]) →
    s.dev.flow f = some x → flowDie f = p.val → x.profile = k.val →
    Completes (.rateProfileClamp p k) s (fun d => (p.val, k.val) ∉ d.net.profDue ∧ ∃ y, d.flow f = some y ∧
      y.rate = max (s.dev.getF F.PRT_RC_PROF_MIN [p.val, k.val]) (min (s.dev.getF F.PRT_RC_PROF_MAX [p.val, k.val]) x.rate) ∧ SameMem s.dev d))

/-- Congestion maps, shaper refills and gate lists. CMAP_SAMPLE in a sampled frame counts every port and class in the bin of its
depth; CMAP_SNAPSHOT that is requested copies the bins to the registers and empties them; SHAPER_REFILL puts RATE and BURST in
force and adds two bytes per unit of RATE to each shaper, up to its burst, where one that was unshaped starts full; GATE_ENTRY_ADVANCE goes to the next entry and from
the last to the first; GATE_TAKEOVER at its time makes the pending list active at entry 0. None changes memory. Basis: R245, R246, R259, R260, R262, R263, R265. -/
def Obligations.MapsShapersAndGatesFollowTheirTimes : Prop :=
  (∀ (s : State) (p : Fin 8), s.dev.clk.frame % 2 ^ s.dev.getF F.PRT_CMAP_CTRL_SAMPLE_LOG2 [p.val] = 0 →
    Completes (.cmapSample p) s (fun d => (∀ (e : Fin 32) (t b : Fin 8), nget 0 d.net.bins [p.val, e.val, t.val, b.val] = nget 0 s.dev.net.bins [p.val, e.val, t.val, b.val] +
        (if cmapBin (s.dev.classDepth (p.val, e.val) t.val) (s.dev.getF F.PRT_CM_THRESH_THRESH [p.val, e.val]) = b.val then 1 else 0)) ∧ SameRegs s.dev d [] ∧ SameMem s.dev d)) ∧
  (∀ (s : State) (p : Fin 8), p.val ∈ s.dev.net.snapDue →
    Completes (.cmapSnapshot p) s (fun d => (∀ (e : Fin 32) (t b : Fin 8), d.getF F.PRT_CMAP_COUNT [p.val, e.val, t.val, b.val] = min (nget 0 s.dev.net.bins [p.val, e.val, t.val, b.val]) (2 ^ 32 - 1) ∧
        nget 0 d.net.bins [p.val, e.val, t.val, b.val] = 0) ∧ p.val ∉ d.net.snapDue ∧ d.flag F.PRT_CMAP_STAT_DONE [p.val] = true ∧
      d.getF F.PRT_CMAP_TAKEN_TIME [p.val] = s.dev.fabTime % 2 ^ 64 ∧ d.getF F.PRT_CMAP_STAT_SNAPS [p.val] = (s.dev.getF F.PRT_CMAP_STAT_SNAPS [p.val] + 1) % 2 ^ 16 ∧ SameMem s.dev d)) ∧
  (∀ (s : State) (p : Fin 8) (e : Fin 32),
    Completes (.shaperRefill p e) s (fun d =>
      (∀ q : Fin 16, d.shape (p.val, e.val) q.val = (s.dev.getF F.PRT_SHP_Q_RATE [p.val, e.val, q.val], s.dev.getF F.PRT_SHP_Q_BURST [p.val, e.val, q.val]) ∧
        d.getF F.PRT_SHP_QTOK_TOKENS [p.val, e.val, q.val] = ofSigned 32 (refill (s.dev.shape (p.val, e.val) q.val).1 (toSigned 32 (s.dev.getF F.PRT_SHP_QTOK_TOKENS [p.val, e.val, q.val]))
          (s.dev.getF F.PRT_SHP_Q_RATE [p.val, e.val, q.val]) (s.dev.getF F.PRT_SHP_Q_BURST [p.val, e.val, q.val])) % 2 ^ 32) ∧
      (∀ t : Fin 8, d.shape (p.val, e.val) (16 + t.val) = (s.dev.getF F.PRT_SHP_C_RATE [p.val, e.val, t.val], s.dev.getF F.PRT_SHP_C_BURST [p.val, e.val, t.val]) ∧
        d.getF F.PRT_SHP_CTOK_TOKENS [p.val, e.val, t.val] = ofSigned 32 (refill (s.dev.shape (p.val, e.val) (16 + t.val)).1 (toSigned 32 (s.dev.getF F.PRT_SHP_CTOK_TOKENS [p.val, e.val, t.val]))
          (s.dev.getF F.PRT_SHP_C_RATE [p.val, e.val, t.val]) (s.dev.getF F.PRT_SHP_C_BURST [p.val, e.val, t.val])) % 2 ^ 32) ∧
      (∀ t : Fin 2, d.polTokens [p.val, e.val, 24 + t.val] = refill (s.dev.shape (p.val, e.val) (24 + t.val)).1 (s.dev.polTokens [p.val, e.val, 24 + t.val])
          (s.dev.getF F.PRT_POL_RATE [p.val, e.val, t.val]) (s.dev.getF F.PRT_POL_BURST [p.val, e.val, t.val])) ∧ SameMem s.dev d)) ∧
  (∀ (s : State) (p : Fin 8) (e : Fin 32),
    Completes (.gateEntryAdvance p e) s (fun d => (d.link (p.val, e.val)).gateIdx = ((s.dev.link (p.val, e.val)).gateIdx + 1) % s.dev.gateLen (p.val, e.val) (s.dev.getF F.PRT_SCH_STAT_ACTIVE [p.val, e.val]) ∧
      SameRegs s.dev d [] ∧ SameMem s.dev d)) ∧
  (∀ (s : State) (p : Fin 8) (e : Fin 32), s.dev.flag F.PRT_SCH_STAT_PENDING [p.val, e.val] = true → s.dev.getF F.PRT_GATE_AT_TIME [p.val, e.val] < s.dev.fabTime + frameUnits →
    Completes (.gateTakeover p e) s (fun d => d.getF F.PRT_SCH_STAT_ACTIVE [p.val, e.val] = (1 - s.dev.getF F.PRT_SCH_STAT_ACTIVE [p.val, e.val]) % 2 ∧ d.flag F.PRT_SCH_STAT_PENDING [p.val, e.val] = false ∧
      (d.link (p.val, e.val)).gateIdx = 0 ∧ d.getF F.PRT_GATE_TAKE_COUNT [p.val, e.val] = min (s.dev.getF F.PRT_GATE_TAKE_COUNT [p.val, e.val] + 1) (2 ^ 32 - 1) ∧
      SameRegs s.dev d [(F.PRT_SCH_STAT_ACTIVE, [p.val, e.val]), (F.PRT_SCH_STAT_PENDING, [p.val, e.val]), (F.PRT_GATE_TAKE_COUNT, [p.val, e.val])] ∧ SameMem s.dev d))

/-- PRT_SCH_TCQ and FRESH. A write of PRT_SCH_TCQ that lands and gives every class its own queues within 3 to 15 stores its five
fields, and any other sets CFG_REJECT; a write of PRT_SCH_WQ that lands stores WEIGHT, BURST and FRESH unless it sets FRESH
beside four other fresh queues of the port, when it sets FRESH_REJECT. Basis: R255, R258. -/
def Obligations.QueueMapsAndFreshQueues : Prop :=
  (∀ (s : State) (iss : Issuer) (p : Fin 8) (e : Fin 32) (v : BitVec 32), s.dev.lands iss .PRT_SCH_TCQ [p.val, e.val] v.toNat = true → tcqOk v.toNat = true →
    Completes (.schTcqWrite iss p e v) s (fun d => d.getF F.PRT_SCH_TCQ_TC3 [p.val, e.val] = bits v.toNat 0 6 ∧ d.getF F.PRT_SCH_TCQ_TC4 [p.val, e.val] = bits v.toNat 6 6 ∧
      d.getF F.PRT_SCH_TCQ_TC5 [p.val, e.val] = bits v.toNat 12 6 ∧ d.getF F.PRT_SCH_TCQ_TC6 [p.val, e.val] = bits v.toNat 18 6 ∧ d.getF F.PRT_SCH_TCQ_TC7 [p.val, e.val] = bits v.toNat 24 6 ∧ OnlyRegs s.dev d)) ∧
  (∀ (s : State) (iss : Issuer) (p : Fin 8) (e : Fin 32) (v : BitVec 32), s.dev.lands iss .PRT_SCH_TCQ [p.val, e.val] v.toNat = true → tcqOk v.toNat = false →
    Completes (.schTcqWrite iss p e v) s (fun d => d.flag F.PRT_SCH_STAT_CFG_REJECT [p.val, e.val] = true ∧ SameRegs s.dev d [(F.PRT_SCH_STAT_CFG_REJECT, [p.val, e.val])] ∧ OnlyRegs s.dev d)) ∧
  (∀ (s : State) (iss : Issuer) (p : Fin 8) (e : Fin 32) (q : Fin 13) (v : BitVec 32) (i : List Nat), i = [p.val, e.val, q.val + 3] → s.dev.lands iss .PRT_SCH_WQ i v.toNat = true →
    (bit v.toNat 31 = true → (((List.range 13).map (· + 3)).filter (fun j => j != q.val + 3 && s.dev.flag F.PRT_SCH_WQ_FRESH [p.val, e.val, j])).length < 4) →
    Completes (.freshWrite iss p e q v) s (fun d => d.getF F.PRT_SCH_WQ_WEIGHT i = bits v.toNat 0 8 ∧ d.getF F.PRT_SCH_WQ_BURST i = bits v.toNat 8 12 ∧
      d.getF F.PRT_SCH_WQ_FRESH i = bits v.toNat 31 1 ∧ SameMem s.dev d)) ∧
  (∀ (s : State) (iss : Issuer) (p : Fin 8) (e : Fin 32) (q : Fin 13) (v : BitVec 32) (i : List Nat), i = [p.val, e.val, q.val + 3] → s.dev.lands iss .PRT_SCH_WQ i v.toNat = true →
    bit v.toNat 31 = true → 4 ≤ (((List.range 13).map (· + 3)).filter (fun j => j != q.val + 3 && s.dev.flag F.PRT_SCH_WQ_FRESH [p.val, e.val, j])).length →
    Completes (.freshWrite iss p e q v) s (fun d => d.flag F.PRT_SCH_STAT_FRESH_REJECT [p.val, e.val] = true ∧ SameRegs s.dev d [(F.PRT_SCH_STAT_FRESH_REJECT, [p.val, e.val])] ∧ OnlyRegs s.dev d))

/-- PUT, GET and NOTIFY at an internal endpoint. The first packet at a ready endpoint that names a place the endpoint takes:
PUT_RECEIVE writes a payload that lies in one place whose owner admits fabric receive, leaves every other byte, and with
ACK_REQ and no seal answers PUT_ACK with OK; GET_RECEIVE answers GET_DATA with the bytes read at the landing address and
writes nothing; NOTIFY_RECEIVE with RADDR 0 on a device that is not headless delivers a USER notice with the value as a record
to the ring of the flow. Where the rules leave a point open, the model's choice is meant: logs 31, 56. Basis: R192, R194, R195, R198, R354, R355, R392. -/
def Obligations.EndpointsTakeRequests : Prop :=
  (∀ (s : State) (n : Fin 25) (a : Arrival), s.dev.firstAt (destOf n.val) = some a → a.hdr.op = opPUT → s.dev.endpointReady a.hdr = true → (destOf n.val).takes a.hdr.raddr a.hdr.len = true → (destOf n.val) ≠ .mast → s.dev.memStopped a.hdr.raddr a.hdr.len = none → s.dev.memServed a.hdr.raddr a.hdr.len = true →
    a.granted = true → a.bytes.length = a.hdr.len → a.hdr.raddr + a.hdr.len ≤ placeEnd a.hdr.raddr → a.hdr.ackReq = 1 → a.hdr.sealB = 0 →
    Completes (.putReceive n) s (fun d => (∀ i : Nat, i < a.hdr.len → some (d.byte (a.hdr.raddr + i)) = a.bytes[i]?) ∧ SameMemBut s.dev d a.hdr.raddr a.hdr.len ∧
      d.net.arrivals = s.dev.net.arrivals.erase a ∧
      (∃ x ra, (d.link (answerSrc a.hdr.flow)).inq = (s.dev.link (answerSrc a.hdr.flow)).inq ++ [x] ∧ x.bytes = (answerHdr a.hdr opPUT_ACK .ok ra 0).enc))) ∧
  (∀ (s : State) (n : Fin 25) (a : Arrival) (m : Nat), s.dev.firstAt (destOf n.val) = some a → a.hdr.op = opGET → s.dev.endpointReady a.hdr = true → m = leAt a.bytes 8 4 → (destOf n.val).takes a.hdr.raddr m = true → (destOf n.val) ≠ .mast → s.dev.memStopped a.hdr.raddr m = none → s.dev.memServed a.hdr.raddr m = true →
    Completes (.getReceive n) s (fun d => d.net.arrivals = s.dev.net.arrivals.erase a ∧
      (∃ x, (d.link (answerSrc a.hdr.flow)).inq = (s.dev.link (answerSrc a.hdr.flow)).inq ++ [x] ∧
        x.bytes = (answerHdr a.hdr opGET_DATA .ok (leAt a.bytes 0 8 % 2 ^ 56) (s.dev.read a.hdr.raddr m).length).enc ++ s.dev.read a.hdr.raddr m) ∧ SameMem s.dev d)) ∧
  (∀ (s : State) (n : Fin 25) (a : Arrival) (fl : Flow) (ring : Nat), s.dev.firstAt (destOf n.val) = some a → a.hdr.op = opNOTIFY → s.dev.endpointReady a.hdr = true → s.dev.headless = false → a.hdr.raddr = 0 → a.hdr.cm = 0 → s.dev.flow a.hdr.flow = some fl →
    fl.ring = some ring → fl.ctr = none →
    Completes (.notifyReceive n) s (fun d => d.host.recs = s.dev.host.recs ++ [⟨ring, leBytes 4 40 ++ leBytes 1 0x40 ++ leBytes 3 0 ++
        noticeBytes kindUSER 0 (s.dev.addr (destOf n.val).endpoint) a.hdr.flow 0 (leAt a.bytes 0 8) s.dev.fabTime, none⟩] ∧ SameRegs s.dev d [] ∧ SameMem s.dev d))

/-- Notices, acknowledgements, data and their absence complete requests. The first packet at a ready endpoint: NOTICE_RECEIVE of a
notice other than REFUSE and ECHO with RADDR 0 on a device that is not headless delivers it as a record; REFUSE_NOTICE_RECEIVE
completes the outstanding request that its INDEX names; PUT_ACK_RECEIVE and GET_DATA_RECEIVE at a fabric receive complete the
request of their flow and tag, the latter after its bytes have landed; FLOW_RESPONSE_TIMEOUT completes a request that has been
open for the flow's timer. Where the rules leave a point open, the model's choice is meant: logs 56, 57. Basis: R111, R195, R198, R389, R440, R442. -/
def Obligations.EndpointsTakeResponses : Prop :=
  (∀ (s : State) (n : Fin 25) (a : Arrival) (fl : Flow) (ring : Nat), s.dev.firstAt (destOf n.val) = some a → a.hdr.op = opNOTICE → s.dev.endpointReady a.hdr = true → s.dev.headless = false → cb a.bytes 0 ≠ kindREFUSE → cb a.bytes 0 ≠ kindECHO → a.hdr.raddr = 0 →
    a.hdr.cm = 0 → a.hdr.ce = 0 → s.dev.flow a.hdr.flow = some fl → fl.ring = some ring →
    Completes (.noticeReceive n) s (fun d => d.host.recs = s.dev.host.recs ++ [⟨ring, leBytes 4 40 ++ leBytes 1 0x40 ++ leBytes 3 0 ++ a.payload, none⟩] ∧
      SameRegs s.dev d [] ∧ SameMem s.dev d)) ∧
  (∀ (s : State) (n : Fin 25) (a : Arrival), s.dev.firstAt (destOf n.val) = some a → a.hdr.op = opNOTICE → s.dev.endpointReady a.hdr = true → cb a.bytes 0 = kindREFUSE → a.hdr.raddr = 0 → bits (leAt a.bytes 12 4) 0 8 ≠ opNOTIFY →
    (∃ fl ring, s.dev.flow a.hdr.flow = some fl ∧ fl.ring = some ring) →
    (∃ t ∈ s.dev.eng.tck, ∃ q ∈ t.2.runs, ∃ z ∈ q.reqs, z.flow = a.hdr.flow ∧ z.tag = bits (leAt a.bytes 12 4) 8 12 ∧ z.op = bits (leAt a.bytes 12 4) 0 8 ∧ z.status = none) →
    Completes (.refuseNoticeReceive n) s (fun d => (∀ t ∈ d.eng.tck, ∀ q ∈ t.2.runs, ∀ z ∈ q.reqs, z.flow = a.hdr.flow → z.tag = bits (leAt a.bytes 12 4) 8 12 → z.op ≠ opNOTIFY → z.status ≠ none) ∧ SameRegs s.dev d [] ∧ SameMem s.dev d)) ∧
  (∀ (s : State) (n : Fin 25) (a : Arrival), s.dev.firstAt (destOf n.val) = some a → a.hdr.op = opPUT_ACK → s.dev.endpointReady a.hdr = true → 13 ≤ n.val → n.val < 21 →
    (∃ t ∈ s.dev.eng.tck, ∃ q ∈ t.2.runs, ∃ z ∈ q.reqs, z.flow = a.hdr.flow ∧ z.tag = a.hdr.tag ∧ z.op = opPUT ∧ z.status = none) →
    Completes (.putAckReceive n) s (fun d => (∀ t ∈ d.eng.tck, ∀ q ∈ t.2.runs, ∀ z ∈ q.reqs, z.flow = a.hdr.flow → z.tag = a.hdr.tag → z.op ≠ opNOTIFY → z.status ≠ none) ∧ SameRegs s.dev d [] ∧ SameMem s.dev d)) ∧
  (∀ (s : State) (n : Fin 25) (a : Arrival), s.dev.firstAt (destOf n.val) = some a → a.hdr.op = opGET_DATA → s.dev.endpointReady a.hdr = true → 13 ≤ n.val → n.val < 21 → a.hdr.status = 0 → (destOf n.val).takes a.hdr.raddr a.hdr.len = true → (destOf n.val) ≠ .mast → s.dev.memStopped a.hdr.raddr a.hdr.len = none → s.dev.memServed a.hdr.raddr a.hdr.len = true →
    a.granted = true → a.bytes.length = a.hdr.len → a.hdr.raddr + a.hdr.len ≤ placeEnd a.hdr.raddr →
    (∃ t ∈ s.dev.eng.tck, ∃ q ∈ t.2.runs, ∃ z ∈ q.reqs, z.flow = a.hdr.flow ∧ z.tag = a.hdr.tag ∧ z.op = opGET ∧ z.status = none) →
    Completes (.getDataReceive n) s (fun d => (∀ i : Nat, i < a.hdr.len → some (d.byte (a.hdr.raddr + i)) = a.bytes[i]?) ∧ SameMemBut s.dev d a.hdr.raddr a.hdr.len ∧
      (∀ t ∈ d.eng.tck, ∀ q ∈ t.2.runs, ∀ z ∈ q.reqs, z.flow = a.hdr.flow → z.tag = a.hdr.tag → z.op ≠ opNOTIFY → z.status ≠ none))) ∧
  (∀ (s : State) (f : Fin 262144) (tag : Fin 4096) (fl : Flow), s.dev.flow f.val = some fl →
    (∃ t ∈ s.dev.eng.tck, ∃ q ∈ t.2.runs, ∃ z ∈ q.reqs, z.flow = f.val ∧ z.tag = tag.val ∧ z.op ≠ opNOTIFY ∧ z.status = none ∧ z.sentAt + us fl.timer ≤ s.dev.clk.now) →
    Completes (.flowResponseTimeout f tag) s (fun d => (∀ t ∈ d.eng.tck, ∀ q ∈ t.2.runs, ∀ z ∈ q.reqs, z.flow = f.val → z.tag = tag.val → z.op ≠ opNOTIFY → z.status ≠ none) ∧ SameRegs s.dev d [] ∧ SameMem s.dev d))

/-- Claims on banks, owner ids, retention, self-refresh, pseudo-channels and command-address retries. Every aligned 16 KiB block of
stacked memory has one 256-byte granule in each of the 64 pseudo-channels. A write of a cleat register that lands with
an owner id that is not reserved becomes a claim, and CLEAT_CLAIM_RESOLVE of a single claim, once no granted write is on its way, makes its
owner the bank's owner, advances EPOCH and keeps the previous owner; OWNER_MAP_WRITE stores the tackle an owner id names; BANK_RETENTION_ENTRY puts a
bank with RET into retention and BANK_WAKE ends it with a count; STACK_SELF_REFRESH_ENTRY on SR_REQ puts a ready stack into
self-refresh and STACK_SELF_REFRESH_EXIT ends it with a count; STACK_CA_RETRY counts a first failure. None changes memory.
Where the rules leave a point open, the model's choice is meant: log 65. Basis: R344, R349, R353, R356, R357, R358, R359, R360, R363. -/
def Obligations.BanksAndStacks : Prop :=
  (∀ b a : Nat, (∀ p : Fin 64, ∃! g : Fin 64, pseudoChannel (16384 * b + 256 * g.val) = p.val) ∧ pseudoChannel a = pseudoChannel (a / 256 * 256) ∧
    stackChannel a = (pseudoChannel a / 2, pseudoChannel a % 2)) ∧ stackChannel 0x002403456780 = (3, 0) ∧
  (∀ (s : State) (iss : Issuer) (b : Bank) (v : BitVec 32), s.dev.lands iss (bankCleat b).1 (bankCleat b).2 v.toNat = true → ownerOk (bits v.toNat 0 8) = true →
    Completes (.cleatOwnerWrite iss b v) s (fun d => (∃ c, d.bank.claims = s.dev.bank.claims ++ [c] ∧ c.sail = bankSail b ∧ (c.die, c.bank) = bankAt b ∧ c.owner = bits v.toNat 0 8) ∧
      SameRegs s.dev d [] ∧ SameMem s.dev d)) ∧
  (∀ (s : State) (b : Bank) (c : CleatClaim) (old : Nat), s.dev.bank.claims = [c] → c.sail = bankSail b → (c.die, c.bank) = bankAt b → c.run = none → c.owner < 256 →
    old = s.dev.bankOwner (bankSail b) (bankAt b).1 (bankAt b).2 → old < 256 →
    s.dev.grantedInto (bankRange (bankSail b) (bankAt b).1 (bankAt b).2).1 (bankRange (bankSail b) (bankAt b).1 (bankAt b).2).2 = false →
    Completes (.cleatClaimResolve b) s (fun d => d.bankOwner (bankSail b) (bankAt b).1 (bankAt b).2 = c.owner ∧ d.bank.claims = [] ∧
      (bankSail b = true → d.getF F.SAL_CLEAT_EPOCH (bankCleat b).2 = (s.dev.getF F.SAL_CLEAT_EPOCH (bankCleat b).2 + 1) % 256 ∧
        d.getF F.SAL_CLEAT_STATUS_WINNER (bankCleat b).2 = c.owner ∧ d.getF F.SAL_CLEAT_STATUS_PREV (bankCleat b).2 = old) ∧
      (bankSail b = false → d.getF F.BSE_CLEAT_EPOCH (bankCleat b).2 = (s.dev.getF F.BSE_CLEAT_EPOCH (bankCleat b).2 + 1) % 256 ∧
        d.getF F.BSE_CLEAT_STATUS_WINNER (bankCleat b).2 = c.owner ∧ d.getF F.BSE_CLEAT_STATUS_PREV (bankCleat b).2 = old) ∧ SameMem s.dev d)) ∧
  (∀ (s : State) (iss : Issuer) (o : Fin 112) (v : BitVec 32), s.dev.lands iss .MST_OWNER_MAP [o.val + 16] v.toNat = true → s.dev.tackleOk (bits v.toNat 0 16) = true →
    Completes (.ownerMapWrite iss o v) s (fun d => d.getF F.MST_OWNER_MAP_TACKLE [o.val + 16] = bits v.toNat 0 16 ∧ d.getF F.MST_OWNER_MAP_VALID [o.val + 16] = bits v.toNat 31 1 ∧
      d.getF F.MST_PROT_GEN_GEN = (s.dev.getF F.MST_PROT_GEN_GEN + 1) % 2 ^ 32 ∧ SameMem s.dev d)) ∧
  (∀ (s : State) (k : Fin 4) (b : Fin 80), s.dev.flag F.SAL_BANK_PWR_RET [k.val, b.val] = true → s.dev.islandOn (regIsland .SAL_BANK_PWR [k.val, b.val]) = true →
    Completes (.bankRetentionEntry (.sail k b)) s (fun d => d.flag F.SAL_BANK_PWR_IN_RET [k.val, b.val] = true ∧
      SameRegs s.dev d [(F.SAL_BANK_PWR_IN_RET, [k.val, b.val])] ∧ OnlyRegs s.dev d)) ∧
  (∀ (s : State) (k : Fin 8) (b : Fin 16), s.dev.flag F.BSE_BANK_PWR_RET [k.val, b.val] = true → s.dev.islandOn (regIsland .BSE_BANK_PWR [k.val, b.val]) = true →
    Completes (.bankRetentionEntry (.base k b)) s (fun d => d.flag F.BSE_BANK_PWR_IN_RET [k.val, b.val] = true ∧
      SameRegs s.dev d [(F.BSE_BANK_PWR_IN_RET, [k.val, b.val])] ∧ OnlyRegs s.dev d)) ∧
  (∀ (s : State) (k : Fin 4) (b : Fin 80), s.dev.flag F.SAL_BANK_PWR_IN_RET [k.val, b.val] = true →
    Completes (.bankWake (.sail k b)) s (fun d => d.flag F.SAL_BANK_PWR_IN_RET [k.val, b.val] = false ∧
      d.getF F.SAL_BANK_WAKES_COUNT [k.val, b.val] = min (s.dev.getF F.SAL_BANK_WAKES_COUNT [k.val, b.val] + 1) (2 ^ 32 - 1) ∧
      SameRegs s.dev d [(F.SAL_BANK_PWR_IN_RET, [k.val, b.val]), (F.SAL_BANK_WAKES_COUNT, [k.val, b.val])] ∧ OnlyRegs s.dev d)) ∧
  (∀ (s : State) (n : Fin 8), s.dev.stackReady n.val = true → s.dev.flag F.BSE_STK_CTRL_SR_REQ [n.val] = true →
    Completes (.stackSelfRefreshEntry n) s (fun d => d.flag F.BSE_STK_STAT_IN_SR [n.val] = true ∧ SameRegs s.dev d [(F.BSE_STK_STAT_IN_SR, [n.val])] ∧ OnlyRegs s.dev d)) ∧
  (∀ (s : State) (n : Fin 8), s.dev.flag F.BSE_STK_STAT_IN_SR [n.val] = true →
    Completes (.stackSelfRefreshExit n) s (fun d => d.flag F.BSE_STK_STAT_IN_SR [n.val] = false ∧
      d.getF F.BSE_STK_SR_EXITS_COUNT [n.val] = min (s.dev.getF F.BSE_STK_SR_EXITS_COUNT [n.val] + 1) (2 ^ 32 - 1) ∧
      SameRegs s.dev d [(F.BSE_STK_STAT_IN_SR, [n.val]), (F.BSE_STK_SR_EXITS_COUNT, [n.val])] ∧ SameMem s.dev d)) ∧
  (∀ (s : State) (n : Fin 8) (ok : Bool), s.dev.stackReady n.val = true → nget 0 s.dev.bank.caFails [n.val] < 2 →
    Completes (.stackCaRetry n ok) s (fun d => d.getF F.BSE_STK_CA_RETRY_COUNT [n.val] = min (s.dev.getF F.BSE_STK_CA_RETRY_COUNT [n.val] + 1) (2 ^ 32 - 1) ∧
      d.flag F.BSE_STK_STAT_CA_RETRY [n.val] = true ∧ d.bitF F.FLT_STAT_SRC [17 + n.val] 8 = true ∧
      nget 0 d.bank.caFails [n.val] = (if ok then 0 else nget 0 s.dev.bank.caFails [n.val] + 1) ∧ SameMem s.dev d))

/-- Capstans take contributions, results and grants. CHUNK_INTAKE of a sealed part from an expected contributor notes the part in
the chunk's up slot, and of a FINAL of the right length holds it as the chunk's result; a packet for a context that is not
open is a stray, which only counts; GRANT_RECEIVE of an up grant of the owner that names this device, and of a return grant from a
participant below, notes it, and of an up grant that names another contributor counts a stray. None changes memory while no
entry lies in the overflow region. An entry is 16 bytes, with the index of a promoted value in bits 95:0 and PROM, OVF and NaN
in their places. Where the rules leave a point open, the model's choice is meant: logs 36,
37. Basis: R287, R311, R312, R313, R314, R316, R317, R325, R331. -/
def Obligations.ContributionsAndGrantsAreTaken : Prop :=
  (∀ (s : State) (y : Fin 4) (id n : Nat) (a : Arrival) (x : Ctx) (c : Chunk) (u : USlot) (k : Nat × Nat), s.dev.net.arrivals.find? (fun z => z.at_ == .capstan y.val) = some a → a.hdr.op = opCHUNK → a.hdr.coll = id → a.hdr.chunk = n → endpointOf a.hdr.dst = 48 + n % 4 →
    s.dev.openChunk id n = some (x, c) →
    a.hdr.stage ≤ 3 → k = contribParts a.hdr.stage a.hdr.contrib → c.ups.find? (fun v => v.stage == a.hdr.stage) = some u → cdDown x.desc = false →
    k.1 ∈ contributors x.desc a.hdr.stage → k.2 < partsAt x.desc a.hdr.stage → (∀ g ∈ u.got, ¬(g.1 = k.1 ∧ g.2.1 = k.2)) → (∀ o ∈ c.outs, o.stage ≠ a.hdr.stage) →
    c.result = none → c.written = false → a.hdr.len * partsAt x.desc a.hdr.stage = cdContribSize x.desc a.hdr.stage → (a.hdr.stage = 0 ∨ k.1 ≠ s.dev.coord a.hdr.stage) →
    leAt a.bytes a.hdr.len 4 = sealOf id n a.hdr.stage a.hdr.contrib (a.bytes.take a.hdr.len) →
    (∀ e ∈ u.entries, e.held ≠ 2) → u.entries.length ≤ s.dev.getF F.YRD_COLL_PROM_FREE_FREE [x.yardOf n] →
    Completes (.chunkIntake y) s (fun d => (∃ z, d.ctx id = some z ∧ ∃ v ∈ (z.chunk n).ups, v.stage = a.hdr.stage ∧ ∃ b, (k.1, k.2, b) ∈ v.got) ∧
      d.net.arrivals = s.dev.net.arrivals.erase a ∧ SameMem s.dev d)) ∧
  (∀ (s : State) (y : Fin 4) (id n : Nat) (a : Arrival) (x : Ctx) (c : Chunk), s.dev.net.arrivals.find? (fun z => z.at_ == .capstan y.val) = some a → a.hdr.op = opCHUNK → a.hdr.coll = id → a.hdr.chunk = n → endpointOf a.hdr.dst = 48 + n % 4 →
    s.dev.openChunk id n = some (x, c) →
    a.hdr.stage = 4 → c.rets ≠ [] → c.result = none → a.hdr.contrib = 0 → a.hdr.len = cdO x.desc →
    leAt a.bytes a.hdr.len 4 = sealOf id n 4 0 (a.bytes.take a.hdr.len) →
    Completes (.chunkIntake y) s (fun d => (∃ z, d.ctx id = some z ∧ (z.chunk n).result = some (a.bytes.take a.hdr.len) ∧ (z.chunk n).heldAt = s.dev.clk.frame) ∧
      SameRegs s.dev d [] ∧ SameMem s.dev d)) ∧
  (∀ (s : State) (y : Fin 4) (a : Arrival), s.dev.net.arrivals.find? (fun z => z.at_ == .capstan y.val) = some a → a.hdr.op = opCHUNK → s.dev.ctx a.hdr.coll = none →
    Completes (.chunkIntake y) s (fun d => d.getF F.YRD_COLL_STRAY_COUNT [y.val] = min (s.dev.getF F.YRD_COLL_STRAY_COUNT [y.val] + 1) (2 ^ 32 - 1) ∧
      d.flag F.YRD_COLL_STAT_STRAY [y.val] = true ∧ d.coll = s.dev.coll ∧
      SameRegs s.dev d [(F.YRD_COLL_STRAY_COUNT, [y.val]), (F.YRD_COLL_STAT_STRAY, [y.val])] ∧ SameMem s.dev d)) ∧
  (∀ (s : State) (y : Fin 4) (id n : Nat) (a : Arrival) (x : Ctx) (c : Chunk) (st : Nat), s.dev.net.arrivals.find? (fun z => z.at_ == .capstan y.val) = some a → a.hdr.op = opGRANT → a.hdr.coll = id → a.hdr.chunk = n → endpointOf a.hdr.dst = 48 + n % 4 →
    s.dev.openChunk id n = some (x, c) → st = a.hdr.stage → 1 ≤ st → st ≤ 3 → cdEn x.desc st = true →
    cdDown x.desc = false → s.dev.takesPart x.desc st n = true → s.dev.owns x.desc st n = false → (∀ g ∈ c.grants, g.1 ≠ st) →
    a.hdr.contrib = s.dev.coord st → a.hdr.src = s.dev.peerAddr st (ownerAt x.desc st n) (48 + n % 4) →
    Completes (.grantReceive y) s (fun d => (∃ z, d.ctx id = some z ∧ (z.chunk n).grants = c.grants ++ [(st, a.hdr.src)]) ∧ SameRegs s.dev d [] ∧ SameMem s.dev d)) ∧
  (∀ (s : State) (y : Fin 4) (id n : Nat) (a : Arrival) (x : Ctx) (c : Chunk) (t : Nat), s.dev.net.arrivals.find? (fun z => z.at_ == .capstan y.val) = some a → a.hdr.op = opGRANT → a.hdr.coll = id → a.hdr.chunk = n → endpointOf a.hdr.dst = 48 + n % 4 →
    s.dev.openChunk id n = some (x, c) → a.hdr.stage = 4 → s.dev.stageOf a.hdr.src = some t → cdDir x.desc ≠ 0 →
    s.dev.owns x.desc t n = true → bit (cdMask x.desc t) a.hdr.contrib = true → a.hdr.src = s.dev.peerAddr t a.hdr.contrib (48 + n % 4) → (t, a.hdr.contrib) ∉ c.retGrants →
    Completes (.grantReceive y) s (fun d => (∃ z, d.ctx id = some z ∧ (z.chunk n).retGrants = c.retGrants ++ [(t, a.hdr.contrib)]) ∧ SameRegs s.dev d [] ∧ SameMem s.dev d)) ∧
  (∀ (s : State) (y : Fin 4) (a : Arrival), s.dev.net.arrivals.find? (fun z => z.at_ == .capstan y.val) = some a → a.hdr.op = opGRANT → 1 ≤ a.hdr.stage → a.hdr.stage ≤ 3 →
    a.hdr.contrib ≠ s.dev.coord a.hdr.stage →
    Completes (.grantReceive y) s (fun d => d.getF F.YRD_COLL_STRAY_COUNT [y.val] = min (s.dev.getF F.YRD_COLL_STRAY_COUNT [y.val] + 1) (2 ^ 32 - 1) ∧
      d.flag F.YRD_COLL_STAT_STRAY [y.val] = true ∧ d.coll = s.dev.coll ∧ SameMem s.dev d)) ∧
  (∀ e : Entry, e.idx < 2 ^ 96 → (∀ k, e.ext = some k → k < 2 ^ 96) → e.bytes.length = 16 ∧ (e.held ≠ 0 → leAt e.bytes 0 12 = e.idx) ∧ cbit e.bytes 14 4 = (e.held == 1) ∧ cbit e.bytes 14 5 = (e.held == 2) ∧ cbit e.bytes 14 1 = e.nan)

/-- Slots are granted, stages complete, outputs and the root's result. UP_GRANT_ISSUE gives the next chunk of a yard its up slot
of the stage and RETURN_GRANT_ISSUE its return slot with a GRANT to the owner above; STAGE_COMPLETE of a full slot below the
root with no entry in the overflow region makes the wire partial its output and counts it; STAGE_OUTPUT_SEND sends the next part to the owner that has granted;
ROOT_FINAL at the root holds the result, or without a down path writes it where the descriptor says. Where the rules leave a
point open, the model's choice is meant: logs 36, 37. Basis: R311, R313, R319, R323, R324, R325, R340. -/
def Obligations.SlotsAreGrantedAndStagesCompleted : Prop :=
  (∀ (s : State) (id : Nat) (st y : Fin 4) (x : Ctx) (n : Nat), s.dev.ctx id = some x → s.dev.live x = true → x.started = true → y.val ∈ x.serve → cdEn x.desc st.val = true →
    s.dev.flag F.YRD_COLL_STAT_PROM_STOP [y.val] = false → x.usedUp st.val y.val < cdUpSlots x.desc st.val → nget (cdFirst x.desc) x.nextUp [st.val, y.val] = n →
    n < cdFirst x.desc + cdCount x.desc → x.yardOf n = y.val → s.dev.upFor x st.val n = true → (cdDown x.desc = true → n < x.limit) →
    Completes (.upGrantIssue id st y) s (fun d => (∃ z, d.ctx id = some z ∧ (∃ off, (z.chunk n).ups = (x.chunk n).ups ++ [newSlot x.desc st.val s.dev.clk.frame off]) ∧
        nget (cdFirst x.desc) z.nextUp [st.val, y.val] = n + 1 ∧ (st.val = 0 → n < x.limit → z.granted = x.granted ++ [n])) ∧ SameRegs s.dev d [] ∧ SameMem s.dev d)) ∧
  (∀ (s : State) (id : Nat) (st y : Fin 4) (x : Ctx) (n : Nat), s.dev.ctx id = some x → s.dev.live x = true → x.started = true → y.val ∈ x.serve → st.val ≠ 0 → cdEn x.desc st.val = true → cdDir x.desc ≠ 0 →
    x.usedRet st.val y.val < cdRetSlots x.desc st.val → nget (cdFirst x.desc) x.nextRet [st.val, y.val] = n → n < cdFirst x.desc + cdCount x.desc → x.yardOf n = y.val →
    (x.chunk n).fin = none → s.dev.takesPart x.desc st.val n = true → s.dev.owns x.desc st.val n = false →
    Completes (.returnGrantIssue id st y) s (fun d => (∃ z, d.ctx id = some z ∧ ∃ off, (z.chunk n).rets = (x.chunk n).rets ++ [(st.val, s.dev.clk.frame, off)]) ∧
      (∃ p, (d.link (8 + x.yardOf n, s.dev.capOf (x.yardOf n) n)).inq = (s.dev.link (8 + x.yardOf n, s.dev.capOf (x.yardOf n) n)).inq ++ [p] ∧ p.origin = .capstan id n false ∧ p.complete = true) ∧ SameRegs s.dev d [] ∧ SameMem s.dev d)) ∧
  (∀ (s : State) (id n : Nat) (st : Fin 4) (x : Ctx) (c : Chunk) (u : USlot) (cap : Nat), s.dev.openChunk id n = some (x, c) → c.ready x.desc st.val = some u → st.val ≠ cdTop x.desc →
    cap = s.dev.capPhys (x.yardOf n) n → (∀ e ∈ u.entries, e.held ≠ 2) →
    Completes (.stageComplete id n st) s (fun d => (∃ z, d.ctx id = some z ∧ (z.chunk n).outs = c.outs ++ [⟨st.val, s.dev.clk.frame, (u.wire x.desc).1, 0⟩]) ∧
      d.getF F.CPS_CHUNKS_COUNT [x.yardOf n, cap] = (s.dev.getF F.CPS_CHUNKS_COUNT [x.yardOf n, cap] + 1) % 2 ^ 64 ∧
      nget 0 d.coll.since [x.yardOf n, cap] = nget 0 s.dev.coll.since [x.yardOf n, cap] + 1 ∧ SameMem s.dev d)) ∧
  (∀ (s : State) (id n : Nat) (st : Fin 4) (x : Ctx) (c : Chunk) (o : StageOut) (up : Nat) (g : Nat × Nat), s.dev.openChunk id n = some (x, c) → c.outs.find? (fun v => v.stage == st.val) = some o →
    nextStage x.desc st.val = some up → s.dev.takesPart x.desc up n = true → s.dev.owns x.desc up n = false → c.grants.find? (fun v => v.1 == up) = some g →
    Completes (.stageOutputSend id n st) s (fun d => (∃ p, (d.link (8 + x.yardOf n, s.dev.capOf (x.yardOf n) n)).inq = (s.dev.link (8 + x.yardOf n, s.dev.capOf (x.yardOf n) n)).inq ++ [p] ∧ p.origin = .capstan id n false ∧ p.tc = 2 ∧ p.complete = true) ∧
      (o.sent + 1 ≠ cdP x.desc → ∃ z, d.ctx id = some z ∧ (z.chunk n).outs = c.outs.map (fun v => if v.stage = st.val then { v with sent := v.sent + 1 } else v)) ∧ SameMem s.dev d)) ∧
  (∀ (s : State) (id n : Nat) (x : Ctx) (c : Chunk) (u : USlot), s.dev.openChunk id n = some (x, c) → c.ready x.desc (cdTop x.desc) = some u → s.dev.isRoot x.desc n = true → cdDir x.desc ≠ 0 → (∀ e ∈ u.entries, e.held ≠ 2) →
    Completes (.rootFinal id n) s (fun d => (∃ z, d.ctx id = some z ∧ (z.chunk n).result = some (u.result x.desc).1 ∧ (z.chunk n).heldAt = s.dev.clk.frame) ∧ SameMem s.dev d)) ∧
  (∀ (s : State) (id n : Nat) (x : Ctx) (c : Chunk) (u : USlot) (l : List Byte) (at_ : Nat), s.dev.openChunk id n = some (x, c) → c.ready x.desc (cdTop x.desc) = some u → s.dev.isRoot x.desc n = true →
    cdDir x.desc = 0 → l = (u.result x.desc).1 → at_ = resAddr x.desc n → (∀ e ∈ u.entries, e.held ≠ 2) → s.dev.landWaits at_ l.length = false → s.dev.memServed at_ l.length = true → s.dev.canWrite .fabric at_ l.length = true → at_ + l.length ≤ placeEnd at_ →
    Completes (.rootFinal id n) s (fun d => (∃ z, d.ctx id = some z ∧ (z.chunk n).written = true) ∧ (∀ i : Nat, i < l.length → some (d.byte (at_ + i)) = l[i]?) ∧
      SameMemBut s.dev d at_ l.length))

/-- Copies down, deliveries, signals, timeouts and the end of a context. FINAL_COPY_DOWN hands the result to a participant that
has granted; T_DELIVERY starts the chunk's deliveries and with RES_LOCAL writes the result at its address; CHUNK_SIGNAL of a
chunk that has reached its finish point counts it done; CHUNK_TIMEOUT of a chunk that is late counts and abandons it with
TIMEOUT; CONTEXT_END of a context whose chunks have all ended, on a device that is not headless, writes its record and closes
it. Where the rules leave a point open, the model's choice is meant: logs 35, 37. Basis: R310, R326, R327, R328, R330, R332, R337. -/
def Obligations.ResultsGoDownAndChunksEnd : Prop :=
  (∀ (s : State) (id n : Nat) (st : Fin 4) (i : Fin 32) (x : Ctx) (c : Chunk) (res : List Byte), s.dev.openChunk id n = some (x, c) → c.result = some res → (st.val, i.val) ∈ s.dev.copiesDue x n →
    (st.val, i.val) ∈ c.retGrants → (st.val, i.val) ∉ c.copies →
    Completes (.finalCopyDown id n st i) s (fun d => (∃ z, d.ctx id = some z ∧ (z.chunk n).copies = c.copies ++ [(st.val, i.val)]) ∧
      (∃ p, (d.link (8 + x.yardOf n, s.dev.capOf (x.yardOf n) n)).inq = (s.dev.link (8 + x.yardOf n, s.dev.capOf (x.yardOf n) n)).inq ++ [p] ∧ p.origin = .capstan id n false ∧ p.complete = true) ∧ SameMem s.dev d)) ∧
  (∀ (s : State) (id n : Nat) (x : Ctx) (c : Chunk) (res : List Byte), s.dev.openChunk id n = some (x, c) → c.result = some res → c.tStarted = false → cdResLocal x.desc = true →
    s.dev.landWaits (resAddr x.desc n) res.length = false → s.dev.memServed (resAddr x.desc n) res.length = true → s.dev.canWrite .fabric (resAddr x.desc n) res.length = true → resAddr x.desc n + res.length ≤ placeEnd (resAddr x.desc n) →
    Completes (.tDelivery id n) s (fun d => (∃ z, d.ctx id = some z ∧ (z.chunk n).tStarted = true) ∧
      (∀ j : Nat, j < res.length → some (d.byte (resAddr x.desc n + j)) = res[j]?) ∧ SameMemBut s.dev d (resAddr x.desc n) res.length)) ∧
  (∀ (s : State) (id n : Nat) (x : Ctx) (c : Chunk), s.dev.openChunk id n = some (x, c) → s.dev.chunkOver x c n = true →
    ¬(cdSigMode x.desc = 3 ∧ s.dev.seqStopped (cdSigTackle x.desc) = true) →
    Completes (.chunkSignal id n) s (fun d => (∃ z, d.ctx id = some z ∧ z.doneCnt = x.doneCnt + 1 ∧ (z.chunk n).fin = some .ok ∧ (z.chunk n).sigDue = false) ∧ SameMem s.dev d)) ∧
  (∀ (s : State) (id n : Nat) (x : Ctx) (c : Chunk), s.dev.openChunk id n = some (x, c) → s.dev.chunkLate x c n = true →
    Completes (.chunkTimeout id n) s (fun d => (∃ z, d.ctx id = some z ∧ z.failCnt = x.failCnt + 1 ∧ (z.chunk n).fin = some .timeout) ∧
      d.getF F.YRD_COLL_TIMEOUT_COUNT [x.yardOf n] = min (s.dev.getF F.YRD_COLL_TIMEOUT_COUNT [x.yardOf n] + 1) (2 ^ 32 - 1) ∧
      d.flag F.YRD_COLL_STAT_TIMEOUT [x.yardOf n] = true ∧ SameMem s.dev d)) ∧
  (∀ (s : State) (id : Nat) (x : Ctx), s.dev.ctx id = some x → s.dev.live x = true → s.dev.headless = false → x.doneCnt + x.failCnt = cdCount x.desc → (∀ z ∈ x.chunks, z.2.sigDue = false) → x.joins = [] →
    Completes (.contextEnd id) s (fun d => d.ctx id = none ∧ d.host.recs = s.dev.host.recs ++ [⟨cdCtxRing x.desc, s.dev.ctxRecord id x, none⟩] ∧
      (∀ y : Fin 4, x.serve.getD y.val 4 = y.val → d.getF F.YRD_COLL_STG_FREE_KIB [y.val] = (s.dev.getF F.YRD_COLL_STG_FREE_KIB [y.val] + cdStaging x.desc) % 2 ^ 17) ∧ SameMem s.dev d))

/-- Capstan self-tests, the spare capstan, and the overflow region. CAPSTAN_SELFTEST after 65,536 stage completions, or by a write
of RUN that lands, starts the test of a capstan that is not out of service; CAPSTAN_SELFTEST_DONE that passes counts the run
and one that fails sets ST_FAIL and the fault source; CAPSTAN_SPARE_SWAP of a failed capstan puts the spare in its place; a
write of YRD_COLL_OVF that lands while no context is open, with a region inside stacked memory, is stored, and any other sets
CFG_REJECT. None changes memory. Where the rules leave a point open, the model's choice is meant: log 38. Basis: R27, R333, R336, R338. -/
def Obligations.CapstansAreTestedAndSpared : Prop :=
  (∀ (s : State) (y : Fin 4) (c : Fin 17), 65536 ≤ nget 0 s.dev.coll.since [y.val, c.val] → (y.val, c.val) ∉ s.dev.coll.testing → s.dev.flag F.CPS_STAT_FAILED [y.val, c.val] = false →
    Completes (.capstanSelftest y c .due) s (fun d => (y.val, c.val) ∈ d.coll.testing ∧ d.flag F.CPS_ST_CTRL_BUSY [y.val, c.val] = true ∧ nget 0 d.coll.since [y.val, c.val] = 0 ∧
      SameRegs s.dev d [(F.CPS_ST_CTRL_BUSY, [y.val, c.val])] ∧ SameMem s.dev d)) ∧
  (∀ (s : State) (iss : Issuer) (y : Fin 4) (c : Fin 17), s.dev.lands iss .CPS_ST_CTRL [y.val, c.val] 1 = true → (y.val, c.val) ∉ s.dev.coll.testing →
    s.dev.flag F.CPS_STAT_FAILED [y.val, c.val] = false →
    Completes (.capstanSelftest y c (.run iss)) s (fun d => (y.val, c.val) ∈ d.coll.testing ∧ d.flag F.CPS_ST_CTRL_BUSY [y.val, c.val] = true ∧
      SameRegs s.dev d [(F.CPS_ST_CTRL_BUSY, [y.val, c.val])] ∧ SameMem s.dev d)) ∧
  (∀ (s : State) (y : Fin 4) (c : Fin 17), (y.val, c.val) ∈ s.dev.coll.testing →
    Completes (.capstanSelftestDone y c true) s (fun d => (y.val, c.val) ∉ d.coll.testing ∧ d.flag F.CPS_ST_CTRL_BUSY [y.val, c.val] = false ∧
      d.getF F.CPS_ST_RUNS_COUNT [y.val, c.val] = min (s.dev.getF F.CPS_ST_RUNS_COUNT [y.val, c.val] + 1) (2 ^ 32 - 1) ∧
      SameRegs s.dev d [(F.CPS_ST_CTRL_BUSY, [y.val, c.val]), (F.CPS_ST_RUNS_COUNT, [y.val, c.val])] ∧ SameMem s.dev d)) ∧
  (∀ (s : State) (y : Fin 4) (c : Fin 17), (y.val, c.val) ∈ s.dev.coll.testing →
    Completes (.capstanSelftestDone y c false) s (fun d => (y.val, c.val) ∉ d.coll.testing ∧ (y.val, c.val) ∈ d.coll.failing ∧ d.flag F.CPS_STAT_ST_FAIL [y.val, c.val] = true ∧
      d.flag F.YRD_COLL_STAT_SELFTEST_FAIL [y.val] = true ∧ d.bitF F.FLT_STAT_SRC [1 + y.val] 10 = true ∧ SameMem s.dev d)) ∧
  (∀ (s : State) (y : Fin 4) (c : Fin 17) (j : Nat), c.val < 16 → (y.val, c.val) ∈ s.dev.coll.failing → s.dev.flag F.CPS_STAT_FAILED [y.val, c.val] = false →
    s.dev.flag F.CPS_STAT_IN_SERVICE [y.val, c.val] = true → s.dev.flag F.CPS_STAT_SPARE [y.val, 16] = true → j = s.dev.getF F.CPS_STAT_LOGICAL [y.val, c.val] → j < 16 →
    Completes (.capstanSpareSwap y c) s (fun d => d.flag F.CPS_STAT_FAILED [y.val, c.val] = true ∧ d.flag F.CPS_STAT_IN_SERVICE [y.val, c.val] = false ∧
      d.flag F.CPS_STAT_IN_SERVICE [y.val, 16] = true ∧ d.flag F.CPS_STAT_SPARE [y.val, 16] = false ∧ d.getF F.CPS_STAT_LOGICAL [y.val, 16] = j ∧
      d.getF F.YRD_CPS_MAP_PHYS [y.val, j] = 16 ∧ SameMem s.dev d)) ∧
  (∀ (s : State) (iss : Issuer) (y : Fin 4) (v : BitVec 64), s.dev.lands iss .YRD_COLL_OVF [y.val] v.toNat = true → s.dev.getF F.YRD_COLL_OPEN_COUNT [y.val] = 0 →
    bits v.toNat 21 27 * 2 ^ 21 + 201326592 ≤ 0x6000000000 →
    Completes (.collOvfWrite iss y v) s (fun d => d.getF F.YRD_COLL_OVF_EN [y.val] = bits v.toNat 0 1 ∧ d.getF F.YRD_COLL_OVF_BASE [y.val] = bits v.toNat 21 27 ∧
      SameRegs s.dev d [(F.YRD_COLL_OVF_EN, [y.val]), (F.YRD_COLL_OVF_BASE, [y.val])] ∧ OnlyRegs s.dev d)) ∧
  (∀ (s : State) (iss : Issuer) (y : Fin 4) (v : BitVec 64), s.dev.lands iss .YRD_COLL_OVF [y.val] v.toNat = true →
    (0 < s.dev.getF F.YRD_COLL_OPEN_COUNT [y.val] ∨ 0x6000000000 < bits v.toNat 21 27 * 2 ^ 21 + 201326592) →
    Completes (.collOvfWrite iss y v) s (fun d => d.flag F.YRD_COLL_STAT_CFG_REJECT [y.val] = true ∧ SameRegs s.dev d [(F.YRD_COLL_STAT_CFG_REJECT, [y.val])] ∧ OnlyRegs s.dev d))

/-- Dequeue, dispatch, completion, resume and counter writes. COMMAND_DEQUEUE from a ring that holds a command appends a command
that passes its checks to the queue and advances CONSUMED and TCK_QIDX, leaving every other register and memory; one that
fails a check completes at once with RESERVED_OP in the queue's place: it is counted in TCK_DONE, sets CMD_ERR and REJECT, and
enters no queue. COMMAND_DISPATCH of the queue that is next puts an engine command into the lowest free slot with the
scoreboard entries it claims and as many open parts as it divides into, and leaves a WAIT or FENCE waiting at the head.
COMMAND_COMPLETE of a run with a status frees its slot, counts it and reports the status. QUEUE_RESUME clears HALTED;
SEQ_CTR_WRITE sets a counter. Where the rules leave a point open, the model's choice is meant: log 21. Basis: R124, R367, R368, R369, R379, R380, R381, R393, R395, R396. -/
def Obligations.CommandsAreDequeuedDispatchedAndCompleted : Prop :=
  (∀ (s : State) (t : Fin 65536) (q : Fin 4) (i : List Nat) (b : RingBind) (n : Nat) (l : List Byte), s.dev.ringOf t.val q.val = some (i, b) → s.dev.canDequeue t.val q.val = true → s.dev.getF F.HST_CR_STAT_STATE i = 1 → s.dev.getF F.HST_CR_COUNT_CONSUMED i = n →
    n ≠ s.dev.getF F.HST_CR_COUNT_PRODUCED i → l = nget emptySlot s.dev.host.slots (i ++ [n % b.size]) →
    (handlePos l = [] ∨ s.dev.flag F.MST_READY_MAST = true) → (∀ p ∈ handlePos l, s.dev.broken [6, leAt l p 2] = false) → s.dev.broken (5 :: i ++ [n % b.size]) = false →
    s.dev.ptrsOk 0 i = true → s.dev.digStall t.val q.val (s.dev.partOf t.val q.val) = false → s.dev.getF F.HST_CR_COUNT_PRODUCED i < 2 ^ 32 →
    s.dev.acceptCmd t.val l (s.dev.copyDescs t.val l) = true → (s.dev.tck t.val).queues.length = 4 →
    Completes (.commandDequeue t q) s (fun d => (d.queue t.val q.val).map (·.bytes) = (s.dev.queue t.val q.val).map (·.bytes) ++ [l] ∧
      d.getF F.HST_CR_COUNT_CONSUMED i = (n + 1) % 2 ^ 32 ∧ d.getF F.TCK_QIDX_INDEX [t.val, q.val] = (s.dev.getF F.TCK_QIDX_INDEX [t.val, q.val] + 1) % 2 ^ 32 ∧
      SameRegs s.dev d [(F.HST_CR_COUNT_CONSUMED, i), (F.TCK_QIDX_INDEX, [t.val, q.val]), (F.MST_DIG_STAT_BACKLOG, [])] ∧ SameMem s.dev d)) ∧
  (∀ (s : State) (t : Fin 65536) (q : Fin 4) (i : List Nat) (b : RingBind) (n : Nat) (l : List Byte), s.dev.ringOf t.val q.val = some (i, b) → s.dev.canDequeue t.val q.val = true → s.dev.getF F.HST_CR_STAT_STATE i = 1 → s.dev.getF F.HST_CR_COUNT_CONSUMED i = n →
    n ≠ s.dev.getF F.HST_CR_COUNT_PRODUCED i → l = nget emptySlot s.dev.host.slots (i ++ [n % b.size]) →
    (handlePos l = [] ∨ s.dev.flag F.MST_READY_MAST = true) → (∀ p ∈ handlePos l, s.dev.broken [6, leAt l p 2] = false) → s.dev.broken (5 :: i ++ [n % b.size]) = false →
    s.dev.ptrsOk 0 i = true → s.dev.digStall t.val q.val (s.dev.partOf t.val q.val) = false → s.dev.getF F.HST_CR_COUNT_PRODUCED i < 2 ^ 32 →
    s.dev.acceptCmd t.val l (s.dev.copyDescs t.val l) = false →
    Completes (.commandDequeue t q) s (fun d => d.queue t.val q.val = s.dev.queue t.val q.val ∧ d.getF F.TCK_DONE_COUNT [t.val] = (s.dev.getF F.TCK_DONE_COUNT [t.val] + 1) % 2 ^ 64 ∧ d.flag F.TCK_ERR_CMD_ERR [t.val] = true ∧
      d.flag F.TCK_ERR_REJECT [t.val] = true ∧ d.getF F.HST_CR_COUNT_CONSUMED i = (n + 1) % 2 ^ 32 ∧ SameMem s.dev d)) ∧
  (∀ (s : State) (t : Fin 65536) (q k : Nat) (g : Launch), s.dev.nextQueue t.val = some q → s.dev.launch t.val q = some g → headOp (opcode g.cmd.bytes) = false → g.bad = none →
    freeSlot (s.dev.tck t.val).runs = some k → (s.dev.tck t.val).queues.length = 4 →
    Completes (.commandDispatch t) s (fun d => (∃ r, d.runAt t.val k = some r ∧ r.cmd = g.cmd ∧ r.queue = q ∧ r.status = none ∧ r.partsLeft = g.parts.length) ∧
      (∀ p ∈ g.claims, ∀ x ∈ p.2, ∃ c ∈ d.held p.1, c.tackle = t.val ∧ c.uid = g.cmd.uid ∧ c.lo = x.lo ∧ c.hi = x.hi ∧ c.write = x.write) ∧
      (g.parts = [] → (d.queue t.val q).map (·.bytes) = ((s.dev.queue t.val q).map (·.bytes)).tail) ∧ SameMem s.dev d)) ∧
  (∀ (s : State) (t : Fin 65536) (q : Nat) (g : Launch), s.dev.nextQueue t.val = some q → s.dev.launch t.val q = some g → (opcode g.cmd.bytes = 1 ∨ opcode g.cmd.bytes = 2) → (s.dev.tck t.val).queues.length = 4 →
    Completes (.commandDispatch t) s (fun d => (∃ c, (d.queue t.val q).head? = some c ∧ c.bytes = g.cmd.bytes ∧ c.waitAt = some s.dev.clk.now) ∧
      (d.tck t.val).runs = (s.dev.tck t.val).runs ∧ (d.tck t.val).last = q ∧ SameMem s.dev d)) ∧
  (∀ (s : State) (t : Fin 65536) (k : Nat) (r : Run) (st : Status), s.dev.runAt t.val k = some r → r.final = some st → s.dev.flowBusy r.cmd.bytes = false → r.ended = 0 →
    s.dev.traceStall t.val r.queue false = false → r.partSts = [] → closesFlow r.cmd.bytes = false → s.dev.tckRuns t.val = true → s.dev.sealStall t.val r.cmd.uid = false →
    (opcode r.cmd.bytes = 0x41 → s.dev.covered (r.origin t.val) = false) →
    Completes (.commandComplete t k) s (fun d => d.runAt t.val k = none ∧ d.getF F.TCK_DONE_COUNT [t.val] = (s.dev.getF F.TCK_DONE_COUNT [t.val] + 1) % 2 ^ 64 ∧ Reports s.dev d t.val r.queue r.cmd st ∧
      (∀ m ∈ d.eng.board, ∀ c ∈ m.2, ¬(c.tackle = t.val ∧ c.uid = r.cmd.uid)) ∧ SameMem s.dev d)) ∧
  (∀ (s : State) (iss : Issuer) (t : Fin 65536) (q : Fin 4), tackleExists t.val = true → s.dev.lands iss .TCK_QCTL [t.val, q.val] 1 = true →
    Completes (.queueResume iss t q) s (fun d => d.halted t.val q.val = false ∧
      SameRegs s.dev d [(F.TCK_STAT_HALTED, [t.val]), (F.TCK_STAT_EPOCH, [t.val])] ∧ OnlyRegs s.dev d)) ∧
  (∀ (s : State) (iss : Issuer) (t : Fin 65536) (c : Fin 16) (v : BitVec 32), tackleExists t.val = true → s.dev.lands iss .SEQ_CTR [t.val, c.val] v.toNat = true →
    Completes (.seqCtrWrite iss t c v) s (fun d => d.ctr t.val c.val = v.toNat ∧ SameRegs s.dev d [(F.SEQ_CTR_VALUE, [t.val, c.val])] ∧ OnlyRegs s.dev d))

/-- NOP, FENCE, WAIT, SIGNAL, MARK and HALT complete at the head of their queue. NOP, MARK and HALT, when theirs is the queue that
dispatches next, leave its head with OK, and HALT halts the queue; FENCE does once no earlier command of the queue runs; WAIT
does with OK when its counter minus v is zero or more as a signed number, with UNIT_RESET when its sequencer is gone, and with
TIMEOUT after T; SIGNAL adds to its counter and completes with OK, or with UNIT_RESET when the sequencer is in reset; both wait
while the sequencer's island is stopped. None changes memory. Basis: R367, R368, R369, R381, R382, R383, R395, R396, R409. -/
def Obligations.CommandsOfTheQueueHead : Prop :=
  (∀ (s : State) (t : Fin 65536) (q : Fin 4) (c : Cmd), s.dev.headNow t.val q.val 0 = some c → (s.dev.tck t.val).queues.length = 4 →
    Completes (.nop t q) s (fun d => HeadCompletes s.dev d t.val q.val c .ok ∧ (c.parent = none → (d.tck t.val).runs = (s.dev.tck t.val).runs) ∧ SameMem s.dev d)) ∧
  (∀ (s : State) (t : Fin 65536) (q : Fin 4) (c : Cmd), (s.dev.queue t.val q.val).head? = some c → opcode c.bytes = 1 → c.waitAt.isSome = true → s.dev.queueIdle t.val q.val = true → s.dev.tckRuns t.val = true →
    s.dev.traceStall t.val q.val false = false → (s.dev.tck t.val).queues.length = 4 →
    Completes (.fence t q) s (fun d => HeadCompletes s.dev d t.val q.val c .ok ∧ SameMem s.dev d)) ∧
  (∀ (s : State) (t : Fin 65536) (q : Fin 4) (c : Cmd), (s.dev.queue t.val q.val).head? = some c → opcode c.bytes = 2 → c.waitAt.isSome = true → s.dev.seqAlive (leAt c.bytes 4 2) = true → s.dev.seqStopped (leAt c.bytes 4 2) = false → s.dev.tckRuns t.val = true →
    (s.dev.ctr (leAt c.bytes 4 2) (cbits c.bytes 6 0 4) + 2 ^ 32 - leAt c.bytes 8 4) % 2 ^ 32 < 2 ^ 31 → s.dev.traceStall t.val q.val false = false → (s.dev.tck t.val).queues.length = 4 →
    Completes (.wait t q) s (fun d => HeadCompletes s.dev d t.val q.val c .ok ∧ SameMem s.dev d)) ∧
  (∀ (s : State) (t : Fin 65536) (q : Fin 4) (c : Cmd), (s.dev.queue t.val q.val).head? = some c → opcode c.bytes = 2 → c.waitAt.isSome = true → s.dev.seqAlive (leAt c.bytes 4 2) = false → c.parent = none → s.dev.tckRuns t.val = true →
    s.dev.traceStall t.val q.val false = false → (s.dev.tck t.val).queues.length = 4 →
    Completes (.wait t q) s (fun d => HeadCompletes s.dev d t.val q.val c .unitReset ∧ d.flag F.TCK_ERR_CMD_ERR [t.val] = true ∧ SameMem s.dev d)) ∧
  (∀ (s : State) (t : Fin 65536) (q : Fin 4) (c : Cmd) (w : Nat), (s.dev.queue t.val q.val).head? = some c → opcode c.bytes = 2 → c.waitAt = some w → s.dev.seqAlive (leAt c.bytes 4 2) = true → s.dev.tckRuns t.val = true →
    leAt c.bytes 12 2 ≠ 0 → w + us (leAt c.bytes 12 2) ≤ s.dev.clk.now → s.dev.waitHolds c.bytes = false → s.dev.traceStall t.val q.val false = false → c.parent = none → (s.dev.tck t.val).queues.length = 4 →
    Completes (.waitTimeout t q) s (fun d => HeadCompletes s.dev d t.val q.val c .timeout ∧ d.flag F.TCK_ERR_CMD_ERR [t.val] = true ∧ d.flag F.TCK_ERR_TIMEOUT [t.val] = true ∧ SameMem s.dev d)) ∧
  (∀ (s : State) (t : Fin 65536) (q : Fin 4) (c : Cmd) (g n : Nat), s.dev.headNow t.val q.val 3 = some c → g = leAt c.bytes 4 2 → n = cbits c.bytes 6 0 4 → s.dev.seqAlive g = true → s.dev.seqStopped g = false → (s.dev.tck t.val).queues.length = 4 →
    Completes (.signal t q) s (fun d => HeadCompletes s.dev d t.val q.val c .ok ∧ d.ctr g n = (s.dev.ctr g n + leAt c.bytes 8 2) % 2 ^ 32 ∧ SameMem s.dev d)) ∧
  (∀ (s : State) (t : Fin 65536) (q : Fin 4) (c : Cmd) (g n : Nat), s.dev.headNow t.val q.val 3 = some c → g = leAt c.bytes 4 2 → n = cbits c.bytes 6 0 4 → s.dev.seqAlive g = false → (s.dev.tck t.val).queues.length = 4 →
    Completes (.signal t q) s (fun d => HeadCompletes s.dev d t.val q.val c .unitReset ∧ d.ctr g n = s.dev.ctr g n ∧ SameMem s.dev d)) ∧
  (∀ (s : State) (t : Fin 65536) (q : Fin 4) (c : Cmd), (s.dev.queue t.val q.val).head? = some c → s.dev.seqStopped (leAt c.bytes 4 2) = true →
    (opcode c.bytes = 3 → Completes (.signal t q) s (fun d => d = s.dev)) ∧ (opcode c.bytes = 2 → Completes (.wait t q) s (fun d => d = s.dev))) ∧
  (∀ (s : State) (t : Fin 65536) (q : Fin 4) (c : Cmd), s.dev.headNow t.val q.val 4 = some c → (s.dev.tck t.val).queues.length = 4 →
    Completes (.mark t q) s (fun d => HeadCompletes s.dev d t.val q.val c .ok ∧ (s.dev.flag F.TRC_Q_MARK_EN [traceDie t.val, q.val] = true → s.dev.ringArmed (s.dev.traceRing t.val q.val) = true →
        s.dev.traceFull (traceDie t.val) = false →
        d.tel.traceBuf = s.dev.tel.traceBuf ++ [(traceDie t.val, ⟨s.dev.traceRing t.val q.val, markRec s.dev t.val q.val c, none⟩)]) ∧ SameMem s.dev d)) ∧
  (∀ (s : State) (t : Fin 65536) (q : Fin 4) (c : Cmd), s.dev.headNow t.val q.val 0x7F = some c → (s.dev.tck t.val).queues.length = 4 →
    Completes (.halt t q) s (fun d => HeadCompletes s.dev d t.val q.val c .ok ∧ d.halted t.val q.val = true ∧ SameMem s.dev d))

/-- DIGEST OPEN, RANGE, CLOSE and HASH, and the end of a window. DIGEST OPEN of a window number that is not open, with fewer than
16 open, opens it with its scope, partitions, markers and ring; RANGE adds a range to an open window with fewer than 8 of the
class; CLOSE ends its coverage with the flag of a forced close; HASH stores the SHA-256 of its region at an address whose
owner admits the write; a window whose queues have all passed their close markers and whose covered commands have completed
writes its provenance record last and closes. Each command's status is OK, or NO_CONTEXT for a window that is not open. Where
the rules leave a point open, the model's choice is meant: logs 27, 28. Basis: R82, R83, R85, R90, R91, R413. -/
def Obligations.DigestWindowsOpenAndClose : Prop :=
  (∀ (s : State) (t : Fin 65536) (k w : Nat) (r : Run), s.dev.runs t.val k 5 r → s.dev.tckInReset 0x1001 = false → s.dev.islandOn 5 = true → cbits r.cmd.bytes 4 0 4 = 0 → w = leAt r.cmd.bytes 6 2 → nget? s.dev.eng.windows [w] = none → s.dev.eng.windows.length < 16 →
    Completes (.digestOpen t k) s (fun d => (∃ x, nget? d.eng.windows [w] = some x ∧ x.scope = leAt r.cmd.bytes 8 2 ∧ x.pmask = cbits r.cmd.bytes 5 0 4 ∧
        x.openMark = leAt r.cmd.bytes 12 4 ∧ x.closeMark = leAt r.cmd.bytes 16 4 ∧ x.ring = leAt r.cmd.bytes 10 2 % 2048 ∧ x.queues = [] ∧ x.streams = []) ∧
      d.runAt t.val k = some { r with status := some .ok } ∧ SameRegs s.dev d [(F.MST_DIG_STAT_OPEN_WIN, []), (F.MST_DIG_STAT_BACKLOG, [])] ∧ SameMem s.dev d)) ∧
  (∀ (s : State) (t : Fin 65536) (k w : Nat) (r : Run) (x : Window), s.dev.runs t.val k 5 r → s.dev.tckInReset 0x1001 = false → s.dev.islandOn 5 = true → cbits r.cmd.bytes 4 0 4 = 1 → w = leAt r.cmd.bytes 6 2 → nget? s.dev.eng.windows [w] = some x →
    x.ranges.countP (fun y => y.1 == cbits r.cmd.bytes 4 4 2) < 8 →
    Completes (.digestRange t k) s (fun d => nget? d.eng.windows [w] = some { x with ranges := x.ranges ++ [(cbits r.cmd.bytes 4 4 2, leAt r.cmd.bytes 8 6, leAt r.cmd.bytes 16 6)] } ∧
      d.runAt t.val k = some { r with status := some .ok } ∧ SameRegs s.dev d [(F.MST_DIG_STAT_BACKLOG, [])] ∧ SameMem s.dev d)) ∧
  (∀ (s : State) (t : Fin 65536) (k w : Nat) (r : Run) (x : Window), s.dev.runs t.val k 5 r → s.dev.tckInReset 0x1001 = false → s.dev.islandOn 5 = true → cbits r.cmd.bytes 4 0 4 = 2 → w = leAt r.cmd.bytes 6 2 → nget? s.dev.eng.windows [w] = some x →
    Completes (.digestClose t k) s (fun d => (∃ y, nget? d.eng.windows [w] = some y ∧ y.closing = true ∧ bit y.flags 1 = true ∧ (∀ z ∈ y.queues, z.2 = 2)) ∧
      d.runAt t.val k = some { r with status := some .ok } ∧ SameRegs s.dev d [(F.MST_DIG_STAT_BACKLOG, [])] ∧ SameMem s.dev d)) ∧
  (∀ (s : State) (t : Fin 65536) (k w : Nat) (r : Run), s.dev.runs t.val k 5 r → s.dev.tckInReset 0x1001 = false → s.dev.islandOn 5 = true → cbits r.cmd.bytes 4 0 4 = 2 → w = leAt r.cmd.bytes 6 2 → nget? s.dev.eng.windows [w] = none →
    Completes (.digestClose t k) s (fun d => d.eng.windows = s.dev.eng.windows ∧ d.runAt t.val k = some { r with status := some .noContext } ∧ SameRegs s.dev d [(F.MST_DIG_STAT_BACKLOG, [])] ∧ SameMem s.dev d)) ∧
  (∀ (s : State) (t : Fin 65536) (k a : Nat) (r : Run), s.dev.runs t.val k 5 r → s.dev.tckInReset 0x1001 = false → s.dev.islandOn 5 = true → cbits r.cmd.bytes 4 0 4 = 3 → a = leAt r.cmd.bytes 20 6 → s.dev.canWrite (r.writer t.val) a 32 = true → a + 32 ≤ placeEnd a →
    s.dev.memUp (leAt r.cmd.bytes 8 6) (leAt r.cmd.bytes 16 4) → s.dev.memUp a 32 →
    Completes (.digestHash t k) s (fun d => (∀ i : Nat, i < 32 → some (d.byte (a + i)) = (sha256 (s.dev.read (leAt r.cmd.bytes 8 6) (leAt r.cmd.bytes 16 4)))[i]?) ∧
      d.runAt t.val k = some { r with status := some .ok } ∧ SameMemBut s.dev d a 32)) ∧
  (∀ (s : State) (w : Nat) (x : Window), nget? s.dev.eng.windows [w] = some x → x.done = true → s.dev.fed w x = false → s.dev.headless = false → s.dev.tckInReset 0x1001 = false → s.dev.islandOn 5 = true →
    Completes (.digestWindowClose w) s (fun d => nget? d.eng.windows [w] = none ∧
      (∃ l, d.host.recs = s.dev.host.recs ++ l ++ [⟨x.ring, s.dev.provenance w x, none⟩] ∧ ∀ y ∈ l, y.ring = x.ring ∧ cb y.bytes 4 = 0x51) ∧
      SameRegs s.dev d [(F.MST_DIG_STAT_OPEN_WIN, [])] ∧ SameMem s.dev d))

/-- Stream programs: SEQLOAD and the six instructions. SEQLOAD of a program that passes its checks writes it into its slot and any
other completes with RESERVED_OP; EMIT hands the next addresses of its generator, as many as it asks for and are left, to the
engine; WAITC passes when its comparator is true and stalls while it is false; SKIP skips when true; INC adds 1 to a counter
modulo 2^32 and CLR clears it; END starts the next pass, or ends the stream when every generator the program emits from is
exhausted. None changes memory. Basis: R381, R384, R385, R386, R398, R414, R417. -/
def Obligations.StreamProgramsRun : Prop :=
  (∀ (s : State) (t : Fin 65536) (k : Nat) (r : Run), s.dev.executes t.val k 6 r → s.dev.memUp (leAt r.cmd.bytes 8 6) (leAt r.cmd.bytes 6 2) → progOk (s.dev.read (leAt r.cmd.bytes 8 6) (leAt r.cmd.bytes 6 2)) (leAt r.cmd.bytes 6 2) = true →
    Completes (.seqload t k) s (fun d => d.prog t.val (cbits r.cmd.bytes 4 0 3) = some (s.dev.read (leAt r.cmd.bytes 8 6) (leAt r.cmd.bytes 6 2)) ∧ d.runAt t.val k = some { r with status := some .ok } ∧ SameMem s.dev d)) ∧
  (∀ (s : State) (t : Fin 65536) (k : Nat) (r : Run), s.dev.executes t.val k 6 r → s.dev.memUp (leAt r.cmd.bytes 8 6) (leAt r.cmd.bytes 6 2) → progOk (s.dev.read (leAt r.cmd.bytes 8 6) (leAt r.cmd.bytes 6 2)) (leAt r.cmd.bytes 6 2) = false →
    Completes (.seqload t k) s (fun d => d.eng.progs = s.dev.eng.progs ∧ d.runAt t.val k = some { r with status := some .reservedOp } ∧ SameMem s.dev d)) ∧
  (∀ (s : State) (t : Fin 65536) (k n : Nat) (r : Run) (g : Stream) (p : List Byte) (w : Nat), s.dev.streamIns t.val k 1 = some (r, g, p, w) → g.pieces.length - g.done < 64 → g.taken.length = 4 →
    n = min (bits w 0 8 + 1) (agTotal p (bits w 11 2) - g.taken.getD (bits w 11 2) 0) →
    (∀ j : Nat, j < n → pieceOk t.val r.cmd.bytes (agAddr p (bits w 11 2) (g.taken.getD (bits w 11 2) 0 + j)) (g.pieces.length + j) = true) →
    Completes (.emit t k) s (fun d => (∃ y, d.runAt t.val k = some y ∧ y.stream = some { g with pc := g.pc + 1, taken := g.taken.set (bits w 11 2) (g.taken.getD (bits w 11 2) 0 + n), pieces := g.pieces ++ (List.range n).map (fun j => agAddr p (bits w 11 2) (g.taken.getD (bits w 11 2) 0 + j)) }) ∧
      SameRegs s.dev d [] ∧ SameMem s.dev d)) ∧
  (∀ (s : State) (t : Fin 65536) (k : Nat) (r : Run) (g : Stream) (p : List Byte) (w : Nat), s.dev.streamIns t.val k 2 = some (r, g, p, w) → s.dev.cmp g.seq p (bits w 0 3) = true →
    Completes (.waitc t k) s (fun d => (∃ y, d.runAt t.val k = some y ∧ y.stream = some { g with pc := g.pc + 1 }) ∧ SameRegs s.dev d [] ∧ SameMem s.dev d)) ∧
  (∀ (s : State) (t : Fin 65536) (k : Nat) (r : Run) (g : Stream) (p : List Byte) (w : Nat), s.dev.streamIns t.val k 2 = some (r, g, p, w) → s.dev.cmp g.seq p (bits w 0 3) = false →
    Completes (.waitc t k) s (fun d => d = s.dev)) ∧
  (∀ (s : State) (t : Fin 65536) (k : Nat) (r : Run) (g : Stream) (p : List Byte) (w : Nat), s.dev.streamIns t.val k 3 = some (r, g, p, w) →
    Completes (.skip t k) s (fun d => (∃ y, d.runAt t.val k = some y ∧ y.stream = some { g with pc := if s.dev.cmp g.seq p (bits w 6 3) then g.pc + 1 + bits w 0 6 else g.pc + 1 }) ∧ SameRegs s.dev d [] ∧ SameMem s.dev d)) ∧
  (∀ (s : State) (t : Fin 65536) (k : Nat) (r : Run) (g : Stream) (p : List Byte) (w : Nat), s.dev.streamIns t.val k 4 = some (r, g, p, w) →
    Completes (.inc t k) s (fun d => (∃ y, d.runAt t.val k = some y ∧ y.stream = some { g with pc := g.pc + 1 }) ∧ d.ctr g.seq (bits w 0 4) = (s.dev.ctr g.seq (bits w 0 4) + 1) % 2 ^ 32 ∧
      SameRegs s.dev d [(F.SEQ_CTR_VALUE, [g.seq, bits w 0 4])] ∧ SameMem s.dev d)) ∧
  (∀ (s : State) (t : Fin 65536) (k : Nat) (r : Run) (g : Stream) (p : List Byte) (w : Nat), s.dev.streamIns t.val k 5 = some (r, g, p, w) →
    Completes (.clr t k) s (fun d => (∃ y, d.runAt t.val k = some y ∧ y.stream = some { g with pc := g.pc + 1 }) ∧ d.ctr g.seq (bits w 0 4) = 0 ∧ SameRegs s.dev d [(F.SEQ_CTR_VALUE, [g.seq, bits w 0 4])] ∧ SameMem s.dev d)) ∧
  (∀ (s : State) (t : Fin 65536) (k : Nat) (r : Run) (g : Stream) (p : List Byte) (w : Nat), s.dev.streamIns t.val k 0 = some (r, g, p, w) →
    (∀ i : Nat, i < cb p 0 → progIns p i / 8192 = 1 → agTotal p (bits (progIns p i) 11 2) ≤ g.taken.getD (bits (progIns p i) 11 2) 0) →
    Completes (.end_ t k) s (fun d => (∃ y, d.runAt t.val k = some y ∧ y.stream = some { g with ended := true }) ∧ d.getF F.SEQ_STREAMS_COUNT [g.seq] = (s.dev.getF F.SEQ_STREAMS_COUNT [g.seq] + 1) % 2 ^ 32 ∧
      SameRegs s.dev d [(F.SEQ_STREAMS_COUNT, [g.seq])] ∧ SameMem s.dev d)) ∧
  (∀ (s : State) (t : Fin 65536) (k i : Nat) (r : Run) (g : Stream) (p : List Byte) (w : Nat), s.dev.streamIns t.val k 0 = some (r, g, p, w) → i < cb p 0 → progIns p i / 8192 = 1 →
    g.taken.getD (bits (progIns p i) 11 2) 0 < agTotal p (bits (progIns p i) 11 2) →
    Completes (.end_ t k) s (fun d => (∃ y, d.runAt t.val k = some y ∧ y.stream = some { g with pc := 0 }) ∧ SameRegs s.dev d [] ∧ SameMem s.dev d))

/-- MOVE, GATHER, SCATTER, FILL and SEALCHK. Every MOVE and FILL whose operands decode and lie behind islands that run completes
with OK or OWNER and changes no byte outside its destination; a MOVE from a place whose island is in reset completes with
UNIT_RESET, and one from a place whose island is stopped waits; where source and destination are one run each and the owner admits the write, MOVE copies the
bytes and FILL repeats its pattern from the first byte. GATHER and SCATTER copy the next piece between its span address and
its place in the local region, change nothing else in memory, and have their status once the stream has ended and every piece
is copied. SEALCHK writes the seal of a piece at its place in the list, and in CHECK mode writes the number of the first piece
whose seal differs, or all ones. Where the rules leave a point open, the model's choice is meant: logs 51, 80. Basis: R22, R58, R86, R354, R355, R419, R420, R421, R422, R423. -/
def Obligations.MoveEngineCommands : Prop :=
  (∀ (s : State) (t : Fin 65536) (k : Nat) (r : Run) (x : Dec) (a c : Opnd), s.dev.executes t.val k 0x10 r → r.dec t.val = some x → x.ops = [a, c] → s.dev.runsUp (a.runs (r.sel x) ++ c.runs (r.sel x)) →
    Completes (.move t k) s (fun d => (d.hasStatus t.val k .ok ∨ d.hasStatus t.val k .owner) ∧ SameMemRuns s.dev d (c.runs (r.sel x)))) ∧
  (∀ (s : State) (t : Fin 65536) (k : Nat) (r : Run) (x : Dec) (a c : Opnd) (p q n : Nat), s.dev.executes t.val k 0x10 r → r.dec t.val = some x → x.ops = [a, c] → a.runs (r.sel x) = [(p, n)] →
    c.runs (r.sel x) = [(q, n)] → s.dev.mayStore (r.writer t.val) q n = true → s.dev.memUp p n → s.dev.memUp q n →
    Completes (.move t k) s (fun d => d.hasStatus t.val k .ok ∧ Stored d q (s.dev.read p n) ∧ SameMemBut s.dev d q n)) ∧
  (∀ (s : State) (t : Fin 65536) (k : Nat) (r : Run) (x : Dec) (a c : Opnd) (u : Nat × Nat), s.dev.executes t.val k 0x10 r → r.dec t.val = some x → x.ops = [a, c] → u ∈ a.runs (r.sel x) → 0 < u.2 →
    s.dev.islandOn (placeIsland (place u.1)) = false → s.dev.islandStopped (placeIsland (place u.1)) = false →
    Completes (.move t k) s (fun d => d.hasStatus t.val k .unitReset ∧ SameMem s.dev d)) ∧
  (∀ (s : State) (t : Fin 65536) (k p n : Nat) (r : Run) (x : Dec) (a c : Opnd), s.dev.executes t.val k 0x10 r → r.dec t.val = some x → x.ops = [a, c] → a.runs (r.sel x) = [(p, n)] → 0 < n →
    (∀ i, i < n → s.dev.islandStopped (placeIsland (place (p + i))) = true) → s.dev.runsUp (c.runs (r.sel x)) →
    Completes (.move t k) s (fun d => d.runAt t.val k = some r ∧ SameMem s.dev d)) ∧
  (∀ (s : State) (t : Fin 65536) (k : Nat) (r : Run) (x : Dec) (c : Opnd), s.dev.executes t.val k 0x13 r → r.dec t.val = some x → x.ops = [c] → s.dev.runsUp (c.runs (r.sel x)) →
    Completes (.fill t k) s (fun d => (d.hasStatus t.val k .ok ∨ d.hasStatus t.val k .owner) ∧ SameMemRuns s.dev d (c.runs (r.sel x)))) ∧
  (∀ (s : State) (t : Fin 65536) (k : Nat) (r : Run) (x : Dec) (c : Opnd) (q n : Nat), s.dev.executes t.val k 0x13 r → r.dec t.val = some x → x.ops = [c] → r.sel x = [[(0, n)], [(0, 1)], [(0, 1)], [(0, 1)]] →
    c.runs (r.sel x) = [(q, n)] → s.dev.mayStore (r.writer t.val) q n = true → s.dev.memUp q n →
    Completes (.fill t k) s (fun d => d.hasStatus t.val k .ok ∧ (∀ i : Nat, i < n → d.byte (q + i) = r.cmd.bytes.getD (24 + i % 8) 0) ∧ SameMemBut s.dev d q n)) ∧
  (∀ (s : State) (t : Fin 65536) (k p q n : Nat) (r : Run) (g : Stream), s.dev.executes t.val k 0x11 r → r.stream = some g → g.done < g.pieces.length → p = g.pieces.getD g.done 0 →
    n = leAt r.cmd.bytes 16 3 → q = leAt r.cmd.bytes 8 6 + g.done * n → s.dev.mayStore (r.writer t.val) q n = true → s.dev.memUp p n → s.dev.memUp q n →
    Completes (.gather t k) s (fun d => Stored d q (s.dev.read p n) ∧ SameMemBut s.dev d q n ∧
      d.runAt t.val k = some { r with stream := some { g with done := g.done + 1 } })) ∧
  (∀ (s : State) (t : Fin 65536) (k p q n : Nat) (r : Run) (g : Stream), s.dev.executes t.val k 0x12 r → r.stream = some g → g.done < g.pieces.length → p = g.pieces.getD g.done 0 →
    n = leAt r.cmd.bytes 16 3 → q = leAt r.cmd.bytes 8 6 + g.done * n → s.dev.mayStore (r.writer t.val) p n = true → s.dev.memUp q n → s.dev.memUp p n →
    Completes (.scatter t k) s (fun d => Stored d p (s.dev.read q n) ∧ SameMemBut s.dev d p n ∧
      d.runAt t.val k = some { r with stream := some { g with done := g.done + 1 } })) ∧
  (∀ (s : State) (t : Fin 65536) (k : Nat) (r : Run) (g : Stream), s.dev.executes t.val k 0x11 r → r.stream = some g → g.done = g.pieces.length → g.ended = true →
    Completes (.gather t k) s (fun d => d.hasStatus t.val k (if r.seqErr then .reservedOp else if r.acc = [] then .ok else .owner) ∧ SameRegs s.dev d [(F.MST_DIG_STAT_BACKLOG, [])] ∧ SameMem s.dev d)) ∧
  (∀ (s : State) (t : Fin 65536) (k : Nat) (r : Run) (g : Stream), s.dev.executes t.val k 0x12 r → r.stream = some g → g.done = g.pieces.length → g.ended = true →
    Completes (.scatter t k) s (fun d => d.hasStatus t.val k (if r.seqErr then .reservedOp else if r.acc = [] then .ok else .owner) ∧ SameRegs s.dev d [(F.MST_DIG_STAT_BACKLOG, [])] ∧ SameMem s.dev d)) ∧
  (∀ (s : State) (t : Fin 65536) (k j q : Nat) (r : Run) (x : Dec), s.dev.executes t.val k 0x14 r → r.dec t.val = some x → cbit r.cmd.bytes 4 0 = false → rangesIdx ((r.sel x).getD 0 [(0, 1)]) = [j] →
    q = leAt r.cmd.bytes 24 6 + 4 * j → s.dev.mayStore (r.writer t.val) q 4 = true → s.dev.memUp (leAt r.cmd.bytes 8 6 + j * sealPiece r.cmd.bytes) (sealPiece r.cmd.bytes) → s.dev.memUp q 4 →
    Completes (.sealchk t k) s (fun d => d.hasStatus t.val k .ok ∧ SameMemBut s.dev d q 4 ∧ Stored d q (leBytes 4 (sealOf (leAt r.cmd.bytes 6 2) ((leAt r.cmd.bytes 20 3 + j) % 2 ^ 24)
      (cbits r.cmd.bytes 5 0 4) (leAt r.cmd.bytes 14 2) (s.dev.read (leAt r.cmd.bytes 8 6 + j * sealPiece r.cmd.bytes) (sealPiece r.cmd.bytes)))))) ∧
  (∀ (s : State) (t : Fin 65536) (k q : Nat) (r : Run) (x : Dec), s.dev.executes t.val k 0x14 r → r.dec t.val = some x → cbit r.cmd.bytes 4 0 = true → r.cmd.parent = none → q = leAt r.cmd.bytes 24 6 + 4 * leAt r.cmd.bytes 16 4 →
    s.dev.mayStore (r.writer t.val) q 4 = true → (∀ j ∈ rangesIdx ((r.sel x).getD 0 [(0, 1)]), s.dev.memUp (leAt r.cmd.bytes 8 6 + j * sealPiece r.cmd.bytes) (sealPiece r.cmd.bytes) ∧ s.dev.memUp (leAt r.cmd.bytes 24 6 + 4 * j) 4) → s.dev.memUp q 4 →
    (∀ j ∈ rangesIdx ((r.sel x).getD 0 [(0, 1)]), s.dev.pieceSeal r.cmd.bytes j = ofLE (s.dev.read (leAt r.cmd.bytes 24 6 + 4 * j) 4)) →
    Completes (.sealchk t k) s (fun d => d.hasStatus t.val k .ok ∧ Stored d q (leBytes 4 0xFFFFFFFF) ∧ SameMemBut s.dev d q 4)) ∧
  (∀ (s : State) (t : Fin 65536) (k q j : Nat) (r : Run) (x : Dec), s.dev.executes t.val k 0x14 r → r.dec t.val = some x → cbit r.cmd.bytes 4 0 = true → r.cmd.parent = none → q = leAt r.cmd.bytes 24 6 + 4 * leAt r.cmd.bytes 16 4 →
    s.dev.mayStore (r.writer t.val) q 4 = true → (∀ i ∈ rangesIdx ((r.sel x).getD 0 [(0, 1)]), s.dev.memUp (leAt r.cmd.bytes 8 6 + i * sealPiece r.cmd.bytes) (sealPiece r.cmd.bytes) ∧ s.dev.memUp (leAt r.cmd.bytes 24 6 + 4 * i) 4) → s.dev.memUp q 4 →
    j ∈ rangesIdx ((r.sel x).getD 0 [(0, 1)]) → s.dev.pieceSeal r.cmd.bytes j ≠ ofLE (s.dev.read (leAt r.cmd.bytes 24 6 + 4 * j) 4) →
    (∀ i ∈ rangesIdx ((r.sel x).getD 0 [(0, 1)]), i < j → s.dev.pieceSeal r.cmd.bytes i = ofLE (s.dev.read (leAt r.cmd.bytes 24 6 + 4 * i) 4)) →
    Completes (.sealchk t k) s (fun d => d.hasStatus t.val k .sealFail ∧ Stored d q (leBytes 4 j) ∧ SameMemBut s.dev d q 4))

/-- MMA and GMMA. Every MMA whose operands decode and lie behind islands that run completes with OK or OWNER and changes no byte outside D; for one output element
in a place whose owner admits it, D becomes the accumulator, rounded to D's format, after the product groups of its row of A
and row of B from the start that C or zero gives. GMMA with a piece waiting accumulates it and writes nothing; after the last
piece it writes D once, and after a stream error it completes with RESERVED_OP and leaves D as it was. Where the rules leave a
point open, the model's choice is meant: log 19. Basis: R286, R299, R418, R424, R425, R426, R427. -/
def Obligations.MatrixCommands : Prop :=
  (∀ (s : State) (t : Fin 65536) (k : Nat) (r : Run) (x : Dec) (a b c : Opnd), s.dev.executes t.val k 0x20 r → r.dec t.val = some x → x.ops = [a, b, c] →
    s.dev.runsUp (a.runs [[(0, leAt r.cmd.bytes 30 2)], (r.sel x).getD 1 [(0, 1)]] ++ b.runs [[(0, leAt r.cmd.bytes 30 2)], (r.sel x).getD 0 [(0, 1)]] ++ c.runs (r.sel x)) →
    Completes (.mma t k) s (fun d => (d.hasStatus t.val k .ok ∨ d.hasStatus t.val k .owner) ∧ SameMemRuns s.dev d (c.runs (r.sel x)))) ∧
  (∀ (s : State) (t : Fin 65536) (k m n q : Nat) (r : Run) (x : Dec) (a b c : Opnd), s.dev.executes t.val k 0x20 r → r.dec t.val = some x → x.ops = [a, b, c] → rangesIdx ((r.sel x).getD 1 [(0, 1)]) = [m] →
    rangesIdx ((r.sel x).getD 0 [(0, 1)]) = [n] → c.runs (r.sel x) = [(q, c.bitsOf / 8)] → s.dev.mayStore (r.writer t.val) q (c.bitsOf / 8) = true →
    s.dev.runsUp (a.runs [[(0, leAt r.cmd.bytes 30 2)], (r.sel x).getD 1 [(0, 1)]] ++ b.runs [[(0, leAt r.cmd.bytes 30 2)], (r.sel x).getD 0 [(0, 1)]] ++ c.runs (r.sel x)) →
    Completes (.mma t k) s (fun d => d.hasStatus t.val k .ok ∧ SameMemBut s.dev d q (c.bitsOf / 8) ∧ Stored d q (leBytes (c.bitsOf / 8) (accOut c.fmt (satBit r.cmd.bytes) (ftzBit r.cmd.bytes)
      (s.dev.mmaElem a b (satBit r.cmd.bytes) (ftzBit r.cmd.bytes) (leAt r.cmd.bytes 30 2) 0 m n (s.dev.accStart c (cbit r.cmd.bytes 4 3) (ftzBit r.cmd.bytes) n m)).1).1))) ∧
  (∀ (s : State) (t : Fin 65536) (k acc : Nat) (r : Run) (x : Dec) (g : Stream) (b c : Opnd), s.dev.executes t.val k 0x21 r → r.dec t.val = some x → x.ops = [b, c] → r.stream = some g → g.done < g.pieces.length →
    leAt r.cmd.bytes 28 2 = 1 → leAt r.cmd.bytes 30 2 = 1 → r.acc = [acc] →
    s.dev.runsUp ((gmmaPiece t.val r.cmd.bytes (g.pieces.getD g.done 0)).runs [[(0, 32 * cb r.cmd.bytes 7)], [(0, leAt r.cmd.bytes 28 2)]] ++
      b.runs [[(g.done * (32 * cb r.cmd.bytes 7), 32 * cb r.cmd.bytes 7)], [(0, leAt r.cmd.bytes 30 2)]]) →
    Completes (.gmma t k) s (fun d => (∃ y, d.runAt t.val k = some y ∧ y.stream = some { g with done := g.done + 1 } ∧ y.status = none ∧
      y.acc = [(s.dev.mmaElem (gmmaPiece t.val r.cmd.bytes (g.pieces.getD g.done 0)) b (satBit r.cmd.bytes) (ftzBit r.cmd.bytes) (32 * cb r.cmd.bytes 7) (g.done * (32 * cb r.cmd.bytes 7)) 0 0 (acc, Arith.zero)).1]) ∧ SameMem s.dev d)) ∧
  (∀ (s : State) (t : Fin 65536) (k : Nat) (r : Run) (x : Dec) (g : Stream) (b c : Opnd), s.dev.executes t.val k 0x21 r → r.dec t.val = some x → x.ops = [b, c] → r.stream = some g → g.done < g.pieces.length →
    s.dev.runsUp ((gmmaPiece t.val r.cmd.bytes (g.pieces.getD g.done 0)).runs [[(0, 32 * cb r.cmd.bytes 7)], [(0, leAt r.cmd.bytes 28 2)]] ++
      b.runs [[(g.done * (32 * cb r.cmd.bytes 7), 32 * cb r.cmd.bytes 7)], [(0, leAt r.cmd.bytes 30 2)]]) →
    Completes (.gmma t k) s (fun d => (∃ y, d.runAt t.val k = some y ∧ y.stream = some { g with done := g.done + 1 } ∧ y.status = none) ∧ SameMem s.dev d)) ∧
  (∀ (s : State) (t : Fin 65536) (k acc q : Nat) (r : Run) (x : Dec) (g : Stream) (b c : Opnd), s.dev.executes t.val k 0x21 r → r.dec t.val = some x → x.ops = [b, c] → r.stream = some g → g.done = g.pieces.length →
    g.ended = true → r.seqErr = false → r.acc = [acc] → c.runs [[(0, leAt r.cmd.bytes 30 2)], [(0, leAt r.cmd.bytes 28 2)], [(0, 1)], [(0, 1)]] = [(q, c.bitsOf / 8)] →
    s.dev.mayStore (r.writer t.val) q (c.bitsOf / 8) = true → s.dev.memUp q (c.bitsOf / 8) →
    Completes (.gmma t k) s (fun d => d.hasStatus t.val k .ok ∧ SameMemBut s.dev d q (c.bitsOf / 8) ∧
      Stored d q (leBytes (c.bitsOf / 8) (accOut c.fmt (satBit r.cmd.bytes) (ftzBit r.cmd.bytes) acc).1))) ∧
  (∀ (s : State) (t : Fin 65536) (k : Nat) (r : Run) (x : Dec) (g : Stream) (b c : Opnd), s.dev.executes t.val k 0x21 r → r.dec t.val = some x → x.ops = [b, c] → r.stream = some g → g.done = g.pieces.length →
    g.ended = true → r.seqErr = true →
    Completes (.gmma t k) s (fun d => d.hasStatus t.val k .reservedOp ∧ SameRegs s.dev d [(F.MST_DIG_STAT_BACKLOG, [])] ∧ SameMem s.dev d))

/-- VOP, CVT, VRED, UPDATE and ATTN. Every VOP, CVT and VRED whose operands decode and lie behind islands that run completes with
OK or OWNER and changes no byte outside D. On one row in a place whose owner admits it, VOP stores its sub-operation of the elements, CVT the elements in D's
format, and VRED the reduction along its axis, each rounded once. UPDATE of one parameter stores the new parameter and state,
and ATTN, with no earlier ATTN of its tackle under way, stores its triple m, l, o; no other byte of memory changes.
A read of a group tackle's TCK_ARITH is the OR of its leaves' and a write clears the written bits in every leaf. Where the
rules leave a point open, the model's choice is meant: logs 11, 17, 18, 20. Basis: R285, R296, R299, R428, R429, R431, R432, R433, R435, R436, R437. -/
def Obligations.VectorCommands : Prop :=
  (∀ (d : Dev) (t i : Nat), isGroup t = true → bit (d.regWord .TCK_ARITH [t]).1 i = (leavesOf t).any (fun l => bit (d.readWord .TCK_ARITH [l]) i)) ∧
  (∀ (d : Dev) (fz : Fuses) (iss : Issuer) (t v l : Nat) (f : Field), isGroup t = true → l ∈ leavesOf t → f ∈ fieldsOf .TCK_ARITH →
    (d.regEffect fz iss .TCK_ARITH [t] v).getF f [l] = (if bit v f.lo then 0 else d.getF f [l] % 2)) ∧
  (∀ (s : State) (t : Fin 65536) (k : Nat) (r : Run) (x : Dec) (a b c : Opnd), s.dev.executes t.val k 0x30 r → r.dec t.val = some x → x.ops = [a, b, c] →
    s.dev.runsUp (a.runs (r.sel x) ++ (if vopUnary (cb r.cmd.bytes 4) || cbit r.cmd.bytes 6 7 then [] else b.runs (r.sel x)) ++ c.runs (r.sel x)) →
    Completes (.vop t k) s (fun d => (d.hasStatus t.val k .ok ∨ d.hasStatus t.val k .owner) ∧ SameMemRuns s.dev d (c.runs (r.sel x)))) ∧
  (∀ (s : State) (t : Fin 65536) (k q : Nat) (r : Run) (x : Dec) (a b c : Opnd) (w : Nat × Nat × Nat × (Nat × Nat)) (out : List Byte), s.dev.executes t.val k 0x30 r → r.dec t.val = some x → x.ops = [a, b, c] →
    selRows (r.sel x) = [w] → c.runs (r.sel x) = [(q, out.length)] → s.dev.mayStore (r.writer t.val) q out.length = true →
    out = (rowOut c.fmt (satBit r.cmd.bytes) (ftzBit r.cmd.bytes) ((rowIdx w).map (fun i => vopVal (cb r.cmd.bytes 4) (s.dev.rd a r.cmd.bytes i).1
      (if vopUnary (cb r.cmd.bytes 4) then Val.zero else if cbit r.cmd.bytes 6 7 then (readElem (ftzBit r.cmd.bytes) (if vopInt (cb r.cmd.bytes 4) then 11 else 0) (leAt r.cmd.bytes 14 4)).1 else (s.dev.rd b r.cmd.bytes i).1)
      (if cb r.cmd.bytes 4 = 4 then (s.dev.rd c r.cmd.bytes i).1 else Val.zero)))).1 →
    s.dev.runsUp (a.runs (r.sel x) ++ (if vopUnary (cb r.cmd.bytes 4) || cbit r.cmd.bytes 6 7 then [] else b.runs (r.sel x)) ++ c.runs (r.sel x)) →
    Completes (.vop t k) s (fun d => d.hasStatus t.val k .ok ∧ Stored d q out ∧ SameMemBut s.dev d q out.length)) ∧
  (∀ (s : State) (t : Fin 65536) (k : Nat) (r : Run) (x : Dec) (a c : Opnd), s.dev.executes t.val k 0x31 r → r.dec t.val = some x → x.ops = [a, c] →
    s.dev.runsUp (a.runs (r.sel x) ++ c.runs (r.sel x)) →
    Completes (.cvt t k) s (fun d => (d.hasStatus t.val k .ok ∨ d.hasStatus t.val k .owner) ∧ SameMemRuns s.dev d (c.runs (r.sel x)))) ∧
  (∀ (s : State) (t : Fin 65536) (k q : Nat) (r : Run) (x : Dec) (a c : Opnd) (w : Nat × Nat × Nat × (Nat × Nat)) (out : List Byte), s.dev.executes t.val k 0x31 r → r.dec t.val = some x → x.ops = [a, c] →
    selRows (r.sel x) = [w] → c.runs (r.sel x) = [(q, out.length)] → s.dev.mayStore (r.writer t.val) q out.length = true →
    out = (rowOut c.fmt (satBit r.cmd.bytes) (ftzBit r.cmd.bytes) ((rowIdx w).map (fun i => (s.dev.rd a r.cmd.bytes i).1))).1 →
    s.dev.runsUp (a.runs (r.sel x) ++ c.runs (r.sel x)) →
    Completes (.cvt t k) s (fun d => d.hasStatus t.val k .ok ∧ Stored d q out ∧ SameMemBut s.dev d q out.length)) ∧
  (∀ (s : State) (t : Fin 65536) (k : Nat) (r : Run) (x : Dec) (a c : Opnd), s.dev.executes t.val k 0x32 r → r.dec t.val = some x → x.ops = [a, c] →
    s.dev.runsUp (a.runs (redSel (cbits r.cmd.bytes 4 4 2) (a.n (cbits r.cmd.bytes 4 4 2)) (r.sel x)) ++ c.runs (r.sel x)) →
    Completes (.vred t k) s (fun d => (d.hasStatus t.val k .ok ∨ d.hasStatus t.val k .owner) ∧ SameMemRuns s.dev d (c.runs (r.sel x)))) ∧
  (∀ (s : State) (t : Fin 65536) (k q : Nat) (r : Run) (x : Dec) (a c : Opnd) (w : Nat × Nat × Nat × (Nat × Nat)) (out : List Byte), s.dev.executes t.val k 0x32 r → r.dec t.val = some x → x.ops = [a, c] →
    selRows (r.sel x) = [w] → c.runs (r.sel x) = [(q, out.length)] → s.dev.mayStore (r.writer t.val) q out.length = true →
    out = (rowOut c.fmt (satBit r.cmd.bytes) (ftzBit r.cmd.bytes) ((rowIdx w).map (fun i => redVal (cbits r.cmd.bytes 4 0 4) ((List.range (a.n (cbits r.cmd.bytes 4 4 2))).map (fun j => (s.dev.rd a r.cmd.bytes (redIdx (cbits r.cmd.bytes 4 4 2) i j)).1))))).1 →
    s.dev.runsUp (a.runs (redSel (cbits r.cmd.bytes 4 4 2) (a.n (cbits r.cmd.bytes 4 4 2)) (r.sel x)) ++ c.runs (r.sel x)) →
    Completes (.vred t k) s (fun d => d.hasStatus t.val k .ok ∧ Stored d q out ∧ SameMemBut s.dev d q out.length)) ∧
  (∀ (s : State) (t : Fin 65536) (k : Nat) (r : Run) (x : Dec) (g p m1 m2 : Opnd) (ub : List Byte), s.dev.executes t.val k 0x33 r → r.dec t.val = some x → x.ops = [g, p, m1, m2] → ubOf r.cmd.descs = some ub →
    s.dev.runsUp (g.runs (r.sel x) ++ p.runs (r.sel x) ++ m1.runs (r.sel x) ++ (if cbits r.cmd.bytes 4 0 2 = 0 then m2.runs (r.sel x) else [])) →
    Completes (.update t k) s (fun d => (d.hasStatus t.val k .ok ∨ d.hasStatus t.val k .owner) ∧ SameMemRuns s.dev d (p.runs (r.sel x) ++ m1.runs (r.sel x) ++ m2.runs (r.sel x)))) ∧
  (∀ (s : State) (t : Fin 65536) (k qp q1 q2 : Nat) (r : Run) (x : Dec) (g p m1 m2 : Opnd) (ub : List Byte) (i : List Nat) (u : Val × Val × Val × Arith), s.dev.executes t.val k 0x33 r → r.dec t.val = some x →
    x.ops = [g, p, m1, m2] → ubOf r.cmd.descs = some ub → cbits r.cmd.bytes 4 0 2 = 0 → selIdx (r.sel x) = [i] → p.runs (r.sel x) = [(qp, 4)] → m1.runs (r.sel x) = [(q1, 4)] →
    m2.runs (r.sel x) = [(q2, 4)] → (qp + 4 ≤ q1 ∧ q1 + 4 ≤ q2) → s.dev.mayStore (r.writer t.val) qp 4 = true → s.dev.mayStore (r.writer t.val) q1 4 = true → s.dev.mayStore (r.writer t.val) q2 4 = true →
    u = updateElem 0 (satBit r.cmd.bytes) (ftzBit r.cmd.bytes) ub (s.dev.rd g r.cmd.bytes i).1 (s.dev.rd p r.cmd.bytes i).1 (s.dev.rd m1 r.cmd.bytes i).1 (s.dev.rd m2 r.cmd.bytes i).1
      ((((s.dev.rd g r.cmd.bytes i).2.add (s.dev.rd p r.cmd.bytes i).2).add (s.dev.rd m1 r.cmd.bytes i).2).add (s.dev.rd m2 r.cmd.bytes i).2) →
    s.dev.runsUp (g.runs (r.sel x) ++ p.runs (r.sel x) ++ m1.runs (r.sel x) ++ (if cbits r.cmd.bytes 4 0 2 = 0 then m2.runs (r.sel x) else [])) →
    Completes (.update t k) s (fun d => d.hasStatus t.val k .ok ∧ Stored d qp (bytes32 [u.1]) ∧ Stored d q1 (bytes32 [u.2.1]) ∧ Stored d q2 (bytes32 [u.2.2.1]))) ∧
  (∀ (s : State) (t : Fin 65536) (k q D : Nat) (r : Run) (x : Dec) (a kv : Opnd) (z : Nat × Nat × List Nat × Arith) (out : List Byte), s.dev.executes t.val k 0x34 r → r.dec t.val = some x → x.ops = [a, kv] →
    (∀ o ∈ (s.dev.tck t.val).runs, opcode o.cmd.bytes = 0x34 → o.status = none → r.cmd.uid ≤ o.cmd.uid) → q = leAt r.cmd.bytes 20 6 → D = leAt r.cmd.bytes 26 2 →
    z = attnTriple (cbits r.cmd.bytes 5 0 4) (satBit r.cmd.bytes) (ftzBit r.cmd.bytes) (bf16.decode (leAt r.cmd.bytes 6 2)) ((List.range D).map (fun i => (s.dev.rd a r.cmd.bytes [i]).1))
      ((List.range (leAt r.cmd.bytes 28 4)).map (fun n => (List.range D).map (fun i => (s.dev.rd kv r.cmd.bytes [i, n, 0]).1)))
      ((List.range (leAt r.cmd.bytes 28 4)).map (fun n => (List.range D).map (fun i => (s.dev.rd kv r.cmd.bytes [i, n, 1]).1))) →
    out = leBytes 4 z.1 ++ leBytes 4 z.2.1 ++ z.2.2.1.flatMap (leBytes (fmtBits (cbits r.cmd.bytes 5 0 4) / 8)) → s.dev.mayStore (r.writer t.val) q out.length = true →
    s.dev.runsUp (a.runs [[(0, D)]] ++ kv.runs [[(0, D)], [(0, leAt r.cmd.bytes 28 4)], [(0, 2)]] ++ [(q, out.length)]) →
    Completes (.attn t k) s (fun d => d.hasStatus t.val k .ok ∧ Stored d q out ∧ SameMemBut s.dev d q out.length))

/-- PUT, GET and NOTIFY send their packets on a flow. PUT, GET or NOTIFY on an open flow whose traffic class it may use, with room
for a request and the flow's pace allowing it, sends its first packet from its engine and counts it as outstanding; on a flow
that is not open, without FOPEN, it completes with NO_CONTEXT and sends nothing; with FOPEN and a valid template it opens the
flow as the template says, at its profile's MAX rate, and sends. None changes memory. Where the rules leave a point open, the
model's choice is meant: logs 16, 31. Basis: R192, R243, R388, R389, R390, R438, R439, R440, R441. -/
def Obligations.FabricCommands : Prop :=
  (∀ (s : State) (t : Fin 65536) (k p : Nat) (r : Run) (x : Dec) (fl : Flow), s.dev.executes t.val k 0x40 r → r.dec t.val = some x → r.acc = [] → r.sent = 0 → (r.packets x)[0]? = some p →
    s.dev.flowDieOk (flowOf r.cmd.bytes) = true → cbit r.cmd.bytes 4 1 = false → s.dev.flow (flowOf r.cmd.bytes) = some fl → tcOk 1 fl.tc = true → fl.outstanding.length < 4096 → s.dev.engineOut t.val < 4096 →
    (s.dev.paceAt fl (fabFlits r.cmd.bytes p)).1.isSome = true → s.dev.memStopped (fabSrc r.cmd.bytes p).1 (fabSrc r.cmd.bytes p).2 = none → s.dev.memServed (fabSrc r.cmd.bytes p).1 (fabSrc r.cmd.bytes p).2 = true →
    Completes (.put t k) s (fun d => (∃ tag z rest, (d.link (engineSrc t.val)).inq = (s.dev.link (engineSrc t.val)).inq ++ [z] ∧ z.complete = true ∧
        z.bytes = (s.dev.fabPacket r.cmd.bytes fl tag p).1.1.enc ++ rest ∧ (leAt r.cmd.bytes 12 6 + (p + 1) * packetSize r.cmd.bytes ≤ 0x300000000000 → rest = (s.dev.fabPacket r.cmd.bytes fl tag p).1.2.1)) ∧
      (∃ y, d.runAt t.val k = some y ∧ y.sent = 1 ∧ y.status = none ∧ y.reqs.length = r.reqs.length + 1) ∧ (∃ z, d.flow (flowOf r.cmd.bytes) = some z ∧ z.outstanding.length = fl.outstanding.length + 1) ∧
      SameMem s.dev d)) ∧
  (∀ (s : State) (t : Fin 65536) (k p : Nat) (r : Run) (x : Dec) (fl : Flow), s.dev.executes t.val k 0x41 r → r.dec t.val = some x → r.acc = [] → r.sent = 0 → (r.packets x)[0]? = some p →
    s.dev.flowDieOk (flowOf r.cmd.bytes) = true → cbit r.cmd.bytes 4 1 = false → s.dev.flow (flowOf r.cmd.bytes) = some fl → tcOk 2 fl.tc = true → fl.outstanding.length < 4096 → s.dev.engineOut t.val < 4096 →
    (s.dev.paceAt fl (fabFlits r.cmd.bytes p)).1.isSome = true →
    Completes (.get t k) s (fun d => (∃ tag z rest, (d.link (engineSrc t.val)).inq = (s.dev.link (engineSrc t.val)).inq ++ [z] ∧ z.complete = true ∧
        z.bytes = (s.dev.fabPacket r.cmd.bytes fl tag p).1.1.enc ++ rest ∧ (rest = (s.dev.fabPacket r.cmd.bytes fl tag p).1.2.1)) ∧
      (∃ y, d.runAt t.val k = some y ∧ y.sent = 1 ∧ y.status = none ∧ y.reqs.length = r.reqs.length + 1) ∧ (∃ z, d.flow (flowOf r.cmd.bytes) = some z ∧ z.outstanding.length = fl.outstanding.length + 1) ∧
      SameMem s.dev d)) ∧
  (∀ (s : State) (t : Fin 65536) (k p : Nat) (r : Run) (x : Dec) (fl : Flow), s.dev.executes t.val k 0x42 r → r.dec t.val = some x → r.acc = [] → r.sent = 0 → (r.packets x)[0]? = some p →
    s.dev.flowDieOk (flowOf r.cmd.bytes) = true → cbit r.cmd.bytes 4 1 = false → s.dev.flow (flowOf r.cmd.bytes) = some fl → tcOk 3 fl.tc = true → fl.outstanding.length < 4096 → s.dev.engineOut t.val < 4096 →
    (s.dev.paceAt fl (fabFlits r.cmd.bytes p)).1.isSome = true →
    Completes (.notify t k) s (fun d => (∃ tag z rest, (d.link (engineSrc t.val)).inq = (s.dev.link (engineSrc t.val)).inq ++ [z] ∧ z.complete = true ∧
        z.bytes = (s.dev.fabPacket r.cmd.bytes fl tag p).1.1.enc ++ rest ∧ (rest = (s.dev.fabPacket r.cmd.bytes fl tag p).1.2.1)) ∧
      (∃ y, d.runAt t.val k = some y ∧ y.sent = 1 ∧ y.status = none ∧ y.reqs.length = r.reqs.length + 1) ∧ (∃ z, d.flow (flowOf r.cmd.bytes) = some z ∧ z.outstanding.length = fl.outstanding.length + 1) ∧
      SameMem s.dev d)) ∧
  (∀ (s : State) (t : Fin 65536) (k : Nat) (r : Run) (x : Dec), s.dev.executes t.val k 0x40 r → r.dec t.val = some x → r.acc = [] → s.dev.flowDieOk (flowOf r.cmd.bytes) = true → cbit r.cmd.bytes 4 1 = false → s.dev.flow (flowOf r.cmd.bytes) = none →
    Completes (.put t k) s (fun d => d.hasStatus t.val k .noContext ∧ d.net = s.dev.net ∧ SameRegs s.dev d [(F.MST_DIG_STAT_BACKLOG, [])] ∧ SameMem s.dev d)) ∧
  (∀ (s : State) (t : Fin 65536) (k : Nat) (r : Run) (x : Dec), s.dev.executes t.val k 0x41 r → r.dec t.val = some x → r.acc = [] → s.dev.flowDieOk (flowOf r.cmd.bytes) = true → cbit r.cmd.bytes 4 1 = false → s.dev.flow (flowOf r.cmd.bytes) = none →
    Completes (.get t k) s (fun d => d.hasStatus t.val k .noContext ∧ d.net = s.dev.net ∧ SameRegs s.dev d [(F.MST_DIG_STAT_BACKLOG, [])] ∧ SameMem s.dev d)) ∧
  (∀ (s : State) (t : Fin 65536) (k : Nat) (r : Run) (x : Dec), s.dev.executes t.val k 0x42 r → r.dec t.val = some x → r.acc = [] → s.dev.flowDieOk (flowOf r.cmd.bytes) = true → cbit r.cmd.bytes 4 1 = false → s.dev.flow (flowOf r.cmd.bytes) = none →
    Completes (.notify t k) s (fun d => d.hasStatus t.val k .noContext ∧ d.net = s.dev.net ∧ SameRegs s.dev d [(F.MST_DIG_STAT_BACKLOG, [])] ∧ SameMem s.dev d)) ∧
  (∀ (s : State) (t : Fin 65536) (k p j : Nat) (r : Run) (x : Dec), s.dev.executes t.val k 0x40 r → r.dec t.val = some x → r.acc = [] → r.sent = 0 → (r.packets x)[0]? = some p → s.dev.flowDieOk (flowOf r.cmd.bytes) = true →
    cbit r.cmd.bytes 4 1 = true → j = cbits r.cmd.bytes 5 0 4 → s.dev.broken [8, j] = false → s.dev.flag F.MST_FLOW_TMPL_VALID [j] = true → tcOk 1 (s.dev.getF F.MST_FLOW_TMPL_TC [j]) = true →
    s.dev.flow (flowOf r.cmd.bytes) = none → s.dev.engineOut t.val < 4096 →
    s.dev.memStopped (fabSrc r.cmd.bytes p).1 (fabSrc r.cmd.bytes p).2 = none → s.dev.memServed (fabSrc r.cmd.bytes p).1 (fabSrc r.cmd.bytes p).2 = true →
    Completes (.put t k) s (fun d => (∃ z, d.flow (flowOf r.cmd.bytes) = some z ∧ z.tc = s.dev.getF F.MST_FLOW_TMPL_TC [j] ∧ z.pkey = s.dev.getF F.MST_FLOW_TMPL_PKEY [j] ∧
        z.profile = s.dev.getF F.MST_FLOW_TMPL_PROFILE [j] ∧ z.rate = s.dev.getF F.PRT_RC_PROF_MAX [flowDie (flowOf r.cmd.bytes), z.profile] ∧ z.outstanding.length = 1) ∧
      (∃ y, d.runAt t.val k = some y ∧ y.sent = 1) ∧ SameMem s.dev d)) ∧
  (∀ (s : State) (t : Fin 65536) (k p j : Nat) (r : Run) (x : Dec), s.dev.executes t.val k 0x41 r → r.dec t.val = some x → r.acc = [] → r.sent = 0 → (r.packets x)[0]? = some p → s.dev.flowDieOk (flowOf r.cmd.bytes) = true →
    cbit r.cmd.bytes 4 1 = true → j = cbits r.cmd.bytes 5 0 4 → s.dev.broken [8, j] = false → s.dev.flag F.MST_FLOW_TMPL_VALID [j] = true → tcOk 2 (s.dev.getF F.MST_FLOW_TMPL_TC [j]) = true →
    s.dev.flow (flowOf r.cmd.bytes) = none → s.dev.engineOut t.val < 4096 →
    Completes (.get t k) s (fun d => (∃ z, d.flow (flowOf r.cmd.bytes) = some z ∧ z.tc = s.dev.getF F.MST_FLOW_TMPL_TC [j] ∧ z.pkey = s.dev.getF F.MST_FLOW_TMPL_PKEY [j] ∧
        z.profile = s.dev.getF F.MST_FLOW_TMPL_PROFILE [j] ∧ z.rate = s.dev.getF F.PRT_RC_PROF_MAX [flowDie (flowOf r.cmd.bytes), z.profile] ∧ z.outstanding.length = 1) ∧
      (∃ y, d.runAt t.val k = some y ∧ y.sent = 1) ∧ SameMem s.dev d)) ∧
  (∀ (s : State) (t : Fin 65536) (k p j : Nat) (r : Run) (x : Dec), s.dev.executes t.val k 0x42 r → r.dec t.val = some x → r.acc = [] → r.sent = 0 → (r.packets x)[0]? = some p → s.dev.flowDieOk (flowOf r.cmd.bytes) = true →
    cbit r.cmd.bytes 4 1 = true → j = cbits r.cmd.bytes 5 0 4 → s.dev.broken [8, j] = false → s.dev.flag F.MST_FLOW_TMPL_VALID [j] = true → tcOk 3 (s.dev.getF F.MST_FLOW_TMPL_TC [j]) = true →
    s.dev.flow (flowOf r.cmd.bytes) = none → s.dev.engineOut t.val < 4096 →
    Completes (.notify t k) s (fun d => (∃ z, d.flow (flowOf r.cmd.bytes) = some z ∧ z.tc = s.dev.getF F.MST_FLOW_TMPL_TC [j] ∧ z.pkey = s.dev.getF F.MST_FLOW_TMPL_PKEY [j] ∧
        z.profile = s.dev.getF F.MST_FLOW_TMPL_PROFILE [j] ∧ z.rate = s.dev.getF F.PRT_RC_PROF_MAX [flowDie (flowOf r.cmd.bytes), z.profile] ∧ z.outstanding.length = 1) ∧
      (∃ y, d.runAt t.val k = some y ∧ y.sent = 1) ∧ SameMem s.dev d))

/-- COLL OPEN, START and ABORT, and COLLJOIN. COLL OPEN of a valid descriptor whose id is not open, with staging free in every
yard, creates the context for two frames later and reserves its staging; its entries exist, counted and with the time, from that
frame on, and the command then completes with OK. COLL START of an open context lets it grant and raises its limit; COLL ABORT ends the context at once and
completes when its record has left for its ring. COLLJOIN of a role of an open context joins it, sends the next granted chunk
of a join slot to its capstan as a sealed CHUNK, and completes when every chunk of its role has been sent or has ended. Where
the rules leave a point open, the model's choice is meant: logs 35, 36. Basis: R308, R309, R310, R340, R341, R443, R444. -/
def Obligations.CollectiveCommands : Prop :=
  (∀ (s : State) (t : Fin 65536) (k : Nat) (r : Run) (c : List Byte), s.dev.executes t.val k 0x50 r → cbits r.cmd.bytes 4 0 2 = 0 → r.acc = [] → c = s.dev.collDesc (leAt r.cmd.bytes 6 2) →
    s.dev.broken [7, leAt r.cmd.bytes 6 2] = false → s.dev.cdOk c = true → s.dev.ctx (cdId c) = none →
    (∀ y ∈ s.dev.yards, cdStaging c ≤ s.dev.getF F.YRD_COLL_STG_FREE_KIB [y] ∧ s.dev.flag F.YRD_COLL_OVF_EN [y] = true) →
    Completes (.collOpen t k) s (fun d => (∃ x, d.ctx (cdId c) = some x ∧ x.desc = c ∧ x.frame = s.dev.clk.frame + 2 ∧ x.started = false) ∧
      d.runAt t.val k = some { r with acc := [cdId c] } ∧
      (∀ y ∈ s.dev.yards, d.getF F.YRD_COLL_STG_FREE_KIB [y] = (s.dev.getF F.YRD_COLL_STG_FREE_KIB [y] - cdStaging c) % 2 ^ 17) ∧ SameMem s.dev d)) ∧
  (∀ (s : State) (t : Fin 65536) (k id : Nat) (r : Run) (x : Ctx), s.dev.executes t.val k 0x50 r → cbits r.cmd.bytes 4 0 2 = 0 → r.acc = [id] → s.dev.ctx id = some x → x.frame ≤ s.dev.clk.frame →
    Completes (.collOpen t k) s (fun d => d.hasStatus t.val k .ok ∧ d.ctx id = some x ∧ SameRegs s.dev d [(F.MST_DIG_STAT_BACKLOG, [])] ∧ SameMem s.dev d)) ∧
  (∀ (d : Dev) (id : Nat) (x : Ctx), d.coll.ctxs = [([id], x)] → x.frame = d.clk.frame →
    d.collFrame.ctx id = some { x with openTime := d.fabTime } ∧ SameFields d d.collFrame [F.YRD_COLL_OPEN_COUNT] ∧
      (∀ y : Fin 4, x.serve.getD y.val 4 = y.val → d.collFrame.getF F.YRD_COLL_OPEN_COUNT [y.val] = (d.getF F.YRD_COLL_OPEN_COUNT [y.val] + 1) % 2 ^ 16)) ∧
  (∀ (s : State) (t : Fin 65536) (k id : Nat) (r : Run) (x : Ctx), s.dev.executes t.val k 0x50 r → cbits r.cmd.bytes 4 0 2 = 1 → id = leAt r.cmd.bytes 6 2 % 32768 → s.dev.ctx id = some x →
    s.dev.live x = true →
    Completes (.collStart t k) s (fun d => d.hasStatus t.val k .ok ∧ (∃ z, d.ctx id = some z ∧ z.started = true ∧ z.limit = max x.limit (leAt r.cmd.bytes 8 4 % 2 ^ 25) ∧ z.chunks = x.chunks) ∧
      SameRegs s.dev d [(F.MST_DIG_STAT_BACKLOG, [])] ∧ SameMem s.dev d)) ∧
  (∀ (s : State) (t : Fin 65536) (k id : Nat) (r : Run) (x : Ctx), s.dev.executes t.val k 0x50 r → cbits r.cmd.bytes 4 0 2 = 2 → r.acc = [] → id = leAt r.cmd.bytes 6 2 % 32768 → s.dev.ctx id = some x →
    s.dev.live x = true →
    Completes (.collAbort t k) s (fun d => d.ctx id = none ∧ (∃ y, d.runAt t.val k = some y ∧ y.acc = [id]) ∧ SameMem s.dev d)) ∧
  (∀ (s : State) (t : Fin 65536) (k id : Nat) (r : Run), s.dev.executes t.val k 0x50 r → cbits r.cmd.bytes 4 0 2 = 2 → r.acc = [id] → s.dev.ctxRecWaits (leAt r.cmd.bytes 6 2 % 32768) = false →
    Completes (.collAbort t k) s (fun d => d.hasStatus t.val k .ok ∧ SameRegs s.dev d [(F.MST_DIG_STAT_BACKLOG, [])] ∧ SameMem s.dev d)) ∧
  (∀ (s : State) (t : Fin 65536) (k id : Nat) (r : Run) (x : Ctx), s.dev.executes t.val k 0x51 r → id = leAt r.cmd.bytes 6 2 % 32768 → s.dev.ctx id = some x → s.dev.live x = true →
    roleOk x.desc (cb r.cmd.bytes 4) = true → ((s.dev.joinRegion r.cmd.bytes).map Region.ok).getD true = true → (∀ j ∈ x.joins, ¬(j.tackle = t.val ∧ j.uid = r.cmd.uid)) →
    Completes (.colljoin t k) s (fun d => (∃ z j, d.ctx id = some z ∧ z.joins = x.joins ++ [j] ∧ j.role = cb r.cmd.bytes 4 ∧ j.base = leAt r.cmd.bytes 8 6 ∧ j.tackle = t.val) ∧
      d.runAt t.val k = some r ∧ SameRegs s.dev d [(F.MST_DIG_STAT_BACKLOG, [])] ∧ SameMem s.dev d)) ∧
  (∀ (s : State) (t : Fin 65536) (k id n role : Nat) (r : Run) (x : Ctx) (j : Join), s.dev.executes t.val k 0x51 r → id = leAt r.cmd.bytes 6 2 % 32768 → s.dev.ctx id = some x → s.dev.live x = true →
    role = cb r.cmd.bytes 4 → roleOk x.desc role = true → ((s.dev.joinRegion r.cmd.bytes).map Region.ok).getD true = true → role ≠ 0xFF → x.joins.find? (fun i => i.tackle == t.val && i.uid == r.cmd.uid) = some j → x.nextJoin j = some n →
    s.dev.memUp ((j.base + (n - cdFirst x.desc) * cdChunk x.desc) % 2 ^ 48) (cdChunk x.desc) →
    Completes (.colljoin t k) s (fun d => (∃ a, d.net.arrivals = s.dev.net.arrivals ++ [a] ∧ a.at_ = .capstan (x.yardOf n) ∧ a.hdr.op = opCHUNK ∧ a.hdr.chunk = n ∧ a.hdr.contrib = role ∧
      a.bytes = s.dev.read ((j.base + (n - cdFirst x.desc) * cdChunk x.desc) % 2 ^ 48) (cdChunk x.desc) ++
        leBytes 4 (sealOf id n 0 role (s.dev.read ((j.base + (n - cdFirst x.desc) * cdChunk x.desc) % 2 ^ 48) (cdChunk x.desc)))) ∧ SameMem s.dev d)) ∧
  (∀ (s : State) (t : Fin 65536) (k id : Nat) (r : Run) (x : Ctx) (j : Join), s.dev.executes t.val k 0x51 r → id = leAt r.cmd.bytes 6 2 % 32768 → s.dev.ctx id = some x → s.dev.live x = true →
    roleOk x.desc (cb r.cmd.bytes 4) = true → ((s.dev.joinRegion r.cmd.bytes).map Region.ok).getD true = true → x.joins.find? (fun i => i.tackle == t.val && i.uid == r.cmd.uid) = some j → x.nextJoin j = none → s.dev.joinOver x j = true →
    Completes (.colljoin t k) s (fun d => d.hasStatus t.val k .ok ∧ SameRegs s.dev d [(F.MST_DIG_STAT_BACKLOG, [])] ∧ SameMem s.dev d))

/-- PLAN LOAD, PLAN DROP and GATE. PLAN LOAD of a section that passes its checks reads it, applies its entries one after another
to registers whose islands run, and, when all are applied and no claim of its own waits, puts the section in force and
recomputes the plan digest; a section that fails a check changes nothing and completes with RESERVED_OP. PLAN DROP takes a
section out of force and the digest. GATE at least 2 us ahead, of the list that is not active, sets T and PENDING, and a later
one only GATE_STALE with the status STALE. None changes memory. Where the rules leave a point open, the model's choice is
meant: logs 29, 34. Basis: R92, R265, R445, R446, R447, R448. -/
def Obligations.PlanCommands : Prop :=
  (∀ (s : State) (t : Fin 65536) (k : Nat) (r : Run) (l : List Byte), s.dev.executes t.val k 0x60 r → s.dev.tckInReset t.val = false → cbits r.cmd.bytes 4 0 2 = 0 → r.acc = [] →
    l = s.dev.read (leAt r.cmd.bytes 8 6) (leAt r.cmd.bytes 16 4) → s.dev.memUp (leAt r.cmd.bytes 8 6) (leAt r.cmd.bytes 16 4) → s.dev.sectionOk r.cmd.hp l = true → s.dev.sectionLost (some (leAt l 6 2)) = false → sectionsFit (s.dev.withSection l) = true →
    Completes (.planLoad t k) s (fun d => d.runAt t.val k = some { r with acc := l.map (·.toNat), sent := 0 } ∧ d.eng.sections = s.dev.eng.sections ∧ SameMem s.dev d)) ∧
  (∀ (s : State) (t : Fin 65536) (k : Nat) (r : Run) (l : List Byte), s.dev.executes t.val k 0x60 r → s.dev.tckInReset t.val = false → cbits r.cmd.bytes 4 0 2 = 0 → r.acc = [] →
    l = s.dev.read (leAt r.cmd.bytes 8 6) (leAt r.cmd.bytes 16 4) → s.dev.memUp (leAt r.cmd.bytes 8 6) (leAt r.cmd.bytes 16 4) → s.dev.sectionOk r.cmd.hp l = false →
    Completes (.planLoad t k) s (fun d => d.hasStatus t.val k .reservedOp ∧ d.eng.sections = s.dev.eng.sections ∧ SameMem s.dev d)) ∧
  (∀ (s : State) (t : Fin 65536) (k v : Nat) (r : Run) (g : RegDesc) (i : List Nat) (e : Dev), s.dev.executes t.val k 0x60 r → s.dev.tckInReset t.val = false → cbits r.cmd.bytes 4 0 2 = 0 → r.acc ≠ [] →
    r.sent < secCount r.section → regAt ((secEntry r.section r.sent).1 % 2 ^ 48) = some (g, i) → v = (secEntry r.section r.sent).2 → s.dev.reach g.reg i = .open →
    e = (s.dev.regWrite s.fuses (.plan (Fin.ofNat 4 r.cmd.hp)) g i v).1 → e.runAt t.val k = some r → e.bank.met = 0 →
    Completes (.planLoad t k) s (fun d => d.runAt t.val k = some { r with sent := r.sent + 1 } ∧ SameRegs e d [(F.MST_DIG_STAT_BACKLOG, [])] ∧ SameMem e d)) ∧
  (∀ (s : State) (t : Fin 65536) (k : Nat) (r : Run), s.dev.executes t.val k 0x60 r → s.dev.tckInReset t.val = false → cbits r.cmd.bytes 4 0 2 = 0 → r.acc ≠ [] → secCount r.section ≤ r.sent → r.lost = none → s.dev.sectionLost (some (leAt r.section 6 2)) = false →
    (∀ c ∈ s.dev.bank.claims, c.run ≠ some (t.val, r.cmd.uid)) →
    Completes (.planLoad t k) s (fun d => d.hasStatus t.val k .ok ∧ nget? d.eng.sections [leAt r.section 6 2] = some r.section ∧
      (∀ j : Fin 8, d.getF F.MST_PLAN_DIGEST_DIGEST [j.val] = leAt (sha256 (d.eng.sections.flatMap (·.2))) (4 * j.val) 4) ∧ SameRegs s.dev d [(F.MST_PLAN_DIGEST_DIGEST, [0]), (F.MST_PLAN_DIGEST_DIGEST, [1]), (F.MST_PLAN_DIGEST_DIGEST, [2]), (F.MST_PLAN_DIGEST_DIGEST, [3]), (F.MST_PLAN_DIGEST_DIGEST, [4]), (F.MST_PLAN_DIGEST_DIGEST, [5]), (F.MST_PLAN_DIGEST_DIGEST, [6]), (F.MST_PLAN_DIGEST_DIGEST, [7]), (F.MST_DIG_STAT_BACKLOG, [])] ∧ SameMem s.dev d)) ∧
  (∀ (s : State) (t : Fin 65536) (k n : Nat) (r : Run), s.dev.executes t.val k 0x60 r → s.dev.tckInReset t.val = false → cbits r.cmd.bytes 4 0 2 = 1 → n = leAt r.cmd.bytes 6 2 → (nget? s.dev.eng.sections [n]).isSome = true →
    s.dev.sectionLost (some n) = false →
    Completes (.planDrop t k) s (fun d => d.hasStatus t.val k .ok ∧ nget? d.eng.sections [n] = none ∧
      (∀ j : Fin 8, d.getF F.MST_PLAN_DIGEST_DIGEST [j.val] = leAt (sha256 (d.eng.sections.flatMap (·.2))) (4 * j.val) 4) ∧ SameRegs s.dev d [(F.MST_PLAN_DIGEST_DIGEST, [0]), (F.MST_PLAN_DIGEST_DIGEST, [1]), (F.MST_PLAN_DIGEST_DIGEST, [2]), (F.MST_PLAN_DIGEST_DIGEST, [3]), (F.MST_PLAN_DIGEST_DIGEST, [4]), (F.MST_PLAN_DIGEST_DIGEST, [5]), (F.MST_PLAN_DIGEST_DIGEST, [6]), (F.MST_PLAN_DIGEST_DIGEST, [7]), (F.MST_DIG_STAT_BACKLOG, [])] ∧ SameMem s.dev d)) ∧
  (∀ (s : State) (t : Fin 65536) (k : Nat) (r : Run) (i : List Nat), s.dev.executes t.val k 0x61 r → s.dev.tckInReset t.val = false → i = [cb r.cmd.bytes 4 / 32, cb r.cmd.bytes 4 % 32] → s.dev.sectionLost none = false → s.dev.dieOk (5 + cb r.cmd.bytes 4 / 32) = true →
    s.dev.islandInReset (regIsland .PRT_SCH_STAT i) = false → s.dev.islandStopped (regIsland .PRT_SCH_STAT i) = false → cbits r.cmd.bytes 5 0 1 ≠ s.dev.getF F.PRT_SCH_STAT_ACTIVE i → s.dev.fabTime + us 2 ≤ leAt r.cmd.bytes 8 8 →
    Completes (.gate t k) s (fun d => d.hasStatus t.val k .ok ∧ d.getF F.PRT_GATE_AT_TIME i = leAt r.cmd.bytes 8 8 ∧ d.flag F.PRT_SCH_STAT_PENDING i = true ∧
      (s.dev.flag F.PRT_SCH_STAT_PENDING i = true → d.flag F.PRT_SCH_STAT_GATE_REPLACED i = true) ∧
      SameRegs s.dev d [(F.PRT_GATE_AT_TIME, i), (F.PRT_SCH_STAT_PENDING, i), (F.PRT_SCH_STAT_GATE_REPLACED, i), (F.MST_PLAN_DIGEST_DIGEST, [0]), (F.MST_PLAN_DIGEST_DIGEST, [1]), (F.MST_PLAN_DIGEST_DIGEST, [2]), (F.MST_PLAN_DIGEST_DIGEST, [3]), (F.MST_PLAN_DIGEST_DIGEST, [4]), (F.MST_PLAN_DIGEST_DIGEST, [5]), (F.MST_PLAN_DIGEST_DIGEST, [6]), (F.MST_PLAN_DIGEST_DIGEST, [7]), (F.MST_DIG_STAT_BACKLOG, [])] ∧ SameMem s.dev d)) ∧
  (∀ (s : State) (t : Fin 65536) (k : Nat) (r : Run) (i : List Nat), s.dev.executes t.val k 0x61 r → s.dev.tckInReset t.val = false → i = [cb r.cmd.bytes 4 / 32, cb r.cmd.bytes 4 % 32] → s.dev.sectionLost none = false → s.dev.dieOk (5 + cb r.cmd.bytes 4 / 32) = true →
    s.dev.islandInReset (regIsland .PRT_SCH_STAT i) = false → s.dev.islandStopped (regIsland .PRT_SCH_STAT i) = false → cbits r.cmd.bytes 5 0 1 ≠ s.dev.getF F.PRT_SCH_STAT_ACTIVE i → leAt r.cmd.bytes 8 8 < s.dev.fabTime + us 2 →
    Completes (.gate t k) s (fun d => d.hasStatus t.val k .stale ∧ d.flag F.PRT_SCH_STAT_GATE_STALE i = true ∧ SameRegs s.dev d [(F.PRT_SCH_STAT_GATE_STALE, i), (F.MST_PLAN_DIGEST_DIGEST, [0]), (F.MST_PLAN_DIGEST_DIGEST, [1]), (F.MST_PLAN_DIGEST_DIGEST, [2]), (F.MST_PLAN_DIGEST_DIGEST, [3]), (F.MST_PLAN_DIGEST_DIGEST, [4]), (F.MST_PLAN_DIGEST_DIGEST, [5]), (F.MST_PLAN_DIGEST_DIGEST, [6]), (F.MST_PLAN_DIGEST_DIGEST, [7]), (F.MST_DIG_STAT_BACKLOG, [])] ∧ SameMem s.dev d))

/-- Control-check errors, FAULT_N, units that leave service, the loss of the Mast and management commands. CONTROL_CHECK_ERROR
counts a corrected error and sets its source, and in a cleat or owner map counts it there too; in a descriptor it sets CTRL_UNC and leaves the descriptor broken; in a free
list it takes the yard out of service. FAULT_PULSE_END at least 2 us after a pulse began leaves FAULT_N to HOLD and HEADLESS;
a write of PULSED clears it and a write of MST_FAULT_HOLD drives FAULT_N. A core that fails to restart leaves service: masked,
its die's mirror cleared, its queues and slots empty, UNIT_OUT set. MAST_LOST makes the device headless: FAULT_N asserted,
host links down, Mast islands 1 to 7 held. A management command that waits for a unit whose epoch it names, in an island out
of reset, has its effect and ends with status OK: TAKE_OUT of a core takes it out of service, HALT_QUEUES halts all four
queues and RESUME_QUEUES clears their halts; on another epoch each ends with STALE and the epoch it saw, for a unit out of service
with RESERVED_OP and for one in reset with UNIT_RESET, and changes nothing else. Where the rules leave a point open, the model's choice is meant: logs 39, 43. Basis: R464, R466, R467, R469, R470, R472, R473, R475, R476, R479. -/
def Obligations.FaultsAndManagementCommands : Prop :=
  (∀ (s : State) (n : Fin 25) (o : Bool), Completes (.controlCheckError (.corrected n.val o)) s (fun d =>
      d.getF F.FLT_COR_CNT_COUNT [n.val] = min (s.dev.getF F.FLT_COR_CNT_COUNT [n.val] + 1) (2 ^ 32 - 1) ∧
      (∀ b : Fin 8, n.val = 17 + b.val → o = true → d.getF F.BSE_CLEAT_ECC_CORRECTED [b.val] = min (s.dev.getF F.BSE_CLEAT_ECC_CORRECTED [b.val] + 1) (2 ^ 16 - 1)) ∧ d.bitF F.FLT_STAT_SRC [n.val] 2 = true ∧ SameMem s.dev d)) ∧
  (∀ (s : State) (h : Nat), h < 65536 →
    Completes (.controlCheckError (.tensorDesc h)) s (fun d => d.broken [6, h] = true ∧ d.bitF F.FLT_STAT_SRC [0] 0 = true ∧ SameMem s.dev d)) ∧
  (∀ (s : State) (y : Fin 4), s.dev.unitOut (0x20FF + 256 * y.val) = false →
    Completes (.controlCheckError (.freeList y.val)) s (fun d => d.bitF F.MST_UNITS_YARD_OK [] y.val = false ∧ d.bitF F.FLT_STAT_SRC [1 + y.val] 1 = true ∧ d.bitF F.FLT_STAT_SRC [1 + y.val] 8 = true ∧ d.bitF F.FLT_STAT_SRC [1 + y.val] 3 = true)) ∧
  (∀ (s : State) (b : Fin 80), Completes (.controlCheckError (.cleat true 0 b.val)) s (fun d => d.getF F.SAL_CLEAT_OWNER [0, b.val] = 0xFF ∧ d.bitF F.FLT_STAT_SRC [13] 0 = true ∧ SameMem s.dev d)) ∧
  (∀ (s : State) (w : Nat), s.dev.flt.pulse = some w → w + us 2 ≤ s.dev.clk.now →
    Completes .faultPulseEnd s (fun d => d.flt.pulse = none ∧ d.flag F.MST_FAULT_STAT_ASSERTED = (s.dev.flag F.MST_FAULT_HOLD_HOLD || s.dev.flag F.MST_FAULT_STAT_HEADLESS) ∧
      SameRegs s.dev d [(F.MST_FAULT_STAT_ASSERTED, [])] ∧ SameMem s.dev d)) ∧
  (∀ (s : State) (iss : Issuer), s.dev.lands iss .MST_FAULT_STAT [] 1 = true →
    Completes (.faultPulsedClear iss) s (fun d => d.flag F.MST_FAULT_STAT_PULSED = false ∧ SameRegs s.dev d [(F.MST_FAULT_STAT_PULSED, [])] ∧ OnlyRegs s.dev d)) ∧
  (∀ (s : State) (iss : Issuer) (v : BitVec 32), s.dev.lands iss .MST_FAULT_HOLD [] v.toNat = true →
    Completes (.faultHoldWrite iss v) s (fun d => d.getF F.MST_FAULT_HOLD_HOLD = bits v.toNat 0 1 ∧
      d.flag F.MST_FAULT_STAT_ASSERTED = (s.dev.flt.pulse.isSome || bit v.toNat 0 || s.dev.flag F.MST_FAULT_STAT_HEADLESS) ∧
      SameRegs s.dev d [(F.MST_FAULT_HOLD_HOLD, []), (F.MST_FAULT_STAT_ASSERTED, [])] ∧ OnlyRegs s.dev d)) ∧
  (∀ (s : State) (t : Fin 65536) (i u : Nat), t.val = 0x4000 + 256 * i + u → i < 4 → u < 64 → s.dev.unitOut t.val = false →
    Completes (.unitOutOfService t .restartFailed) s (fun d => d.unitOut t.val = true ∧ d.flag F.TCK_STAT_MASKED [t.val] = true ∧ d.bitF F.SAL_CORE_OK_CORES [i] u = false ∧
      (d.tck t.val).runs = [] ∧ (∀ q : Fin 4, d.queue t.val q.val = []) ∧ d.islandOn (tackleIsland t.val) = false ∧ d.bitF F.FLT_STAT_SRC [13 + i] 3 = true)) ∧
  (∀ (s : State), s.dev.headless = false →
    Completes .mastLost s (fun d => d.headless = true ∧ d.flag F.MST_FAULT_STAT_HEADLESS = true ∧ d.flag F.MST_FAULT_STAT_ASSERTED = true ∧
      (∀ g : Nat, 1 ≤ g → g < 8 → d.islandOn g = false) ∧ (∀ x : Fin 4, d.flag F.HST_PORT_STAT_LINK_UP [x.val] = false) ∧ d.host.recs = [] ∧ SameMem s.dev d)) ∧
  (∀ (s : State) (t e i u : Nat), s.dev.flt.mgmt = some (t, e, 1) → s.dev.headless = false → s.dev.islandOn (tackleIsland t) = true → s.dev.epochOf t = e → t = 0x4000 + 256 * i + u → i < 4 → u < 64 → s.dev.unitOut t = false → e < 256 →
    Completes .takeOut s (fun d => d.unitOut t = true ∧ d.bitF F.SAL_CORE_OK_CORES [i] u = false ∧ (d.tck t).runs = [] ∧ d.flt.mgmt = none ∧ d.flag F.MST_MGMT_STAT_BUSY = false ∧ d.getF F.MST_MGMT_STAT_STATUS = 0 ∧ d.getF F.MST_MGMT_STAT_EPOCH_SEEN = e)) ∧
  (∀ (s : State) (t e : Nat), s.dev.flt.mgmt = some (t, e, 1) → s.dev.headless = false → s.dev.islandOn (tackleIsland t) = true → s.dev.epochOf t ≠ e →
    Completes .takeOut s (fun d => d.flt.mgmt = none ∧ d.flag F.MST_MGMT_STAT_BUSY = false ∧ d.getF F.MST_MGMT_STAT_STATUS = Status.stale.code ∧ d.getF F.MST_MGMT_STAT_EPOCH_SEEN = s.dev.epochOf t ∧ SameRegs s.dev d [(F.MST_MGMT_STAT_BUSY, []), (F.MST_MGMT_STAT_STATUS, []), (F.MST_MGMT_STAT_EPOCH_SEEN, [])] ∧ SameMem s.dev d)) ∧
  (∀ (s : State) (t e : Nat), s.dev.flt.mgmt = some (t, e, 2) → s.dev.headless = false → s.dev.islandOn (tackleIsland t) = true → s.dev.epochOf t = e → e < 256 → s.dev.unitOut t = false →
    Completes .haltQueues s (fun d => (∀ q : Fin 4, d.halted t q.val = true) ∧ d.flt.mgmt = none ∧ d.flag F.MST_MGMT_STAT_BUSY = false ∧ d.getF F.MST_MGMT_STAT_STATUS = 0 ∧ d.getF F.MST_MGMT_STAT_EPOCH_SEEN = e ∧ SameRegs s.dev d [(F.TCK_STAT_HALTED, [t]), (F.TCK_STAT_EPOCH, [t]), (F.MST_MGMT_STAT_BUSY, []), (F.MST_MGMT_STAT_STATUS, []), (F.MST_MGMT_STAT_EPOCH_SEEN, [])] ∧ SameMem s.dev d)) ∧
  (∀ (s : State) (t e : Nat), s.dev.flt.mgmt = some (t, e, 2) → s.dev.headless = false → s.dev.islandOn (tackleIsland t) = true → s.dev.epochOf t = e → s.dev.unitOut t = true →
    Completes .haltQueues s (fun d => d.flt.mgmt = none ∧ d.flag F.MST_MGMT_STAT_BUSY = false ∧ d.getF F.MST_MGMT_STAT_STATUS = Status.reservedOp.code ∧ SameRegs s.dev d [(F.MST_MGMT_STAT_BUSY, []), (F.MST_MGMT_STAT_STATUS, []), (F.MST_MGMT_STAT_EPOCH_SEEN, [])] ∧ SameMem s.dev d)) ∧
  (∀ (s : State) (t e : Nat), s.dev.flt.mgmt = some (t, e, 3) → s.dev.headless = false → s.dev.islandInReset (tackleIsland t) = true →
    Completes .resumeQueues s (fun d => d.flt.mgmt = none ∧ d.flag F.MST_MGMT_STAT_BUSY = false ∧ d.getF F.MST_MGMT_STAT_STATUS = Status.unitReset.code ∧ SameRegs s.dev d [(F.MST_MGMT_STAT_BUSY, []), (F.MST_MGMT_STAT_STATUS, []), (F.MST_MGMT_STAT_EPOCH_SEEN, [])] ∧ SameMem s.dev d)) ∧
  (∀ (s : State) (t e : Nat), s.dev.flt.mgmt = some (t, e, 3) → s.dev.headless = false → s.dev.islandOn (tackleIsland t) = true → s.dev.epochOf t = e → e < 256 → s.dev.unitOut t = false →
    Completes .resumeQueues s (fun d => (∀ q : Fin 4, d.halted t q.val = false) ∧ d.flt.mgmt = none ∧ d.flag F.MST_MGMT_STAT_BUSY = false ∧ d.getF F.MST_MGMT_STAT_STATUS = 0 ∧ d.getF F.MST_MGMT_STAT_EPOCH_SEEN = e ∧ SameRegs s.dev d [(F.TCK_STAT_HALTED, [t]), (F.TCK_STAT_EPOCH, [t]), (F.MST_MGMT_STAT_BUSY, []), (F.MST_MGMT_STAT_STATUS, []), (F.MST_MGMT_STAT_EPOCH_SEEN, [])] ∧ SameMem s.dev d))

/-- The sideband scan and the states of a module slot. A sideband scan samples every slot's interrupt line and changes its
presence after four scans that agree against it. A confirmed insertion starts the module's reset and polling with 2.5 s to
answer; an answer in time, of an allowed module with the application, gives the slot its serial and powers the module up with
its time limit, one that is not allowed is denied; readiness in time makes the slot ready and transmitting; a limit passed
leaves the slot in FAULT with BUS_ERR; a confirmed removal empties it; an interrupt of a present module writes its record.
None changes memory. Where the rules leave a point open, the model's choice is meant: log 45. Basis: R485, R486, R487, R488, R489, R494, R495. -/
def Obligations.ModulesComeUpAndGo : Prop :=
  (∀ (s : State) (present int : BitVec 128) (m : Fin 128), s.dev.optRuns = true →
    Completes (.sidebandScan present int) s (fun d => d.flag F.OPM_SLOT_STAT_INT [m.val] = bit int.toNat m.val ∧
      (bit present.toNat m.val = s.dev.flag F.OPM_SLOT_STAT_PRESENT [m.val] → (d.slot m.val).deb = 0 ∧ d.flag F.OPM_SLOT_STAT_PRESENT [m.val] = s.dev.flag F.OPM_SLOT_STAT_PRESENT [m.val]) ∧
      (bit present.toNat m.val ≠ s.dev.flag F.OPM_SLOT_STAT_PRESENT [m.val] → (s.dev.slot m.val).deb < 3 →
        (d.slot m.val).deb = (s.dev.slot m.val).deb + 1 ∧ d.flag F.OPM_SLOT_STAT_PRESENT [m.val] = s.dev.flag F.OPM_SLOT_STAT_PRESENT [m.val]) ∧
      (bit present.toNat m.val ≠ s.dev.flag F.OPM_SLOT_STAT_PRESENT [m.val] → 3 ≤ (s.dev.slot m.val).deb →
        (d.slot m.val).deb = 0 ∧ (d.slot m.val).confirmed = some (bit present.toNat m.val) ∧ d.flag F.OPM_SLOT_STAT_PRESENT [m.val] = bit present.toNat m.val) ∧ SameMem s.dev d)) ∧
  (∀ (s : State) (m : Fin 128) (ok : Bool), s.dev.optOn = true → (s.dev.slot m.val).confirmed = some true → s.dev.flag F.OPM_SLOT_CFG_MANUAL [m.val] = false → s.dev.passOn m.val = false →
    Completes (.moduleInsert m ok) s (fun d => d.slotState m.val = 1 ∧ (d.slot m.val).confirmed = none ∧ (d.slot m.val).oReset = false ∧ (d.slot m.val).oLp = true ∧ (d.slot m.val).limit = s.dev.clk.now + ms 2500 ∧ SameMem s.dev d)) ∧
  (∀ (s : State) (m : Fin 128) (vn pn sn : List Byte) (dur : Nat) (ok : Bool), identityOk vn pn sn = true → s.dev.optOn = true → s.dev.slotState m.val = 1 → (s.dev.slot m.val).resetN = true →
    s.dev.clk.now ≤ (s.dev.slot m.val).limit → s.dev.duplicate m.val sn = false → s.dev.allowed (partHash vn pn) = true →
    Completes (.moduleAnswer m vn pn sn true dur ok) s (fun d => d.slotState m.val = 3 ∧ (d.slot m.val).serial = some sn ∧ (d.slot m.val).oLp = false ∧ (d.slot m.val).limit = s.dev.clk.now + ms dur * 11 / 10 ∧
      d.getF F.OPM_SLOT_ID_PART_HASH [m.val] = partHash vn pn % 2 ^ 32 ∧ (d.led sn).isSome = true ∧ SameMem s.dev d)) ∧
  (∀ (s : State) (m : Fin 128) (vn pn sn : List Byte) (app : Bool) (dur : Nat) (ok : Bool), identityOk vn pn sn = true → s.dev.optOn = true → s.dev.slotState m.val = 1 →
    (s.dev.slot m.val).resetN = true → s.dev.clk.now ≤ (s.dev.slot m.val).limit → s.dev.allowed (partHash vn pn) = false →
    Completes (.moduleAnswer m vn pn sn app dur ok) s (fun d => d.slotState m.val = 2 ∧ (∃ r, d.led sn = some r ∧ r.denied = true) ∧ SameMem s.dev d)) ∧
  (∀ (s : State) (m : Fin 128), s.dev.optOn = true → s.dev.slotState m.val = 1 → (s.dev.slot m.val).limit < s.dev.clk.now →
    Completes (.modulePollTimeout m) s (fun d => d.slotState m.val = 5 ∧ d.flag F.OPM_SLOT_STAT_BUS_ERR [m.val] = true ∧ (d.slot m.val).oLp = true ∧ (d.slot m.val).tx = false ∧ SameMem s.dev d)) ∧
  (∀ (s : State) (m : Fin 128), s.dev.optOn = true → s.dev.slotState m.val = 3 → s.dev.clk.now ≤ (s.dev.slot m.val).limit →
    Completes (.moduleReady m) s (fun d => d.slotState m.val = 4 ∧ (d.slot m.val).tx = true ∧ (d.slot m.val).minAt = s.dev.clk.now ∧ SameRegs s.dev d [(F.OPM_SLOT_STAT_STATE, [m.val])] ∧ SameMem s.dev d)) ∧
  (∀ (s : State) (m : Fin 128), s.dev.optOn = true → s.dev.slotState m.val = 3 → (s.dev.slot m.val).limit < s.dev.clk.now →
    Completes (.moduleReadyTimeout m) s (fun d => d.slotState m.val = 5 ∧ d.flag F.OPM_SLOT_STAT_BUS_ERR [m.val] = true ∧ (d.slot m.val).oLp = true ∧ (d.slot m.val).tx = false ∧ SameMem s.dev d)) ∧
  (∀ (s : State) (m : Fin 128) (ok : Bool), s.dev.optOn = true → (s.dev.slot m.val).confirmed = some false →
    Completes (.moduleRemove m ok) s (fun d => d.slotState m.val = 0 ∧ (d.slot m.val).serial = none ∧ (d.slot m.val).tx = false ∧ (d.slot m.val).confirmed = none ∧ d.getF F.OPM_SLOT_ID_PART_HASH [m.val] = 0 ∧ SameMem s.dev d)) ∧
  (∀ (s : State) (m : Fin 128) (a b : Bool), s.dev.optOn = true → s.dev.flag F.OPM_SLOT_STAT_INT [m.val] = true → s.dev.slotState m.val ≠ 0 → s.dev.slotState m.val ≠ 6 →
    s.dev.flag F.OPM_CTRL_RING_EN = true →
    Completes (.moduleInt m a b) s (fun d => (∃ x, d.host.recs = s.dev.host.recs ++ [⟨s.dev.getF F.OPM_CTRL_RING, x, none⟩] ∧ cb x 4 = 0x60 ∧ cb x 5 = 6 ∧ cb x 6 = m.val) ∧
      SameRegs s.dev d [] ∧ SameMem s.dev d))

/-- Laser time, drift, the ledger, and the pass-through. A minute of transmitting adds one to the module's laser minutes; the
first bias sample of a serial becomes its base and a later one keeps the largest drift; an hourly write or a flush that was
asked for writes a changed record at the active region's free place with the next sequence number; DUMP writes every ledger
record to its ring; REINIT starts a present module again; MANUAL hands a present module to the pass-through; GO for a present
module under MANUAL starts one access, which ends only once the slot's select is driven, and its end stores a read byte and the status
OK, or TIMEOUT on a NACK. None changes memory. Where the rules leave a point open, the model's choice is meant: log 45. Basis: R488, R490, R491, R492, R494, R496. -/
def Obligations.ModuleLifeLedgerAndPassThrough : Prop :=
  (∀ (s : State) (m : Fin 128) (r : LedRec) (ok : Bool), s.dev.shining m.val = some r → (s.dev.opt.led.map LedRec.serial).Nodup → (s.dev.slot m.val).minAt + sec 60 ≤ s.dev.clk.now →
    Completes (.laserMinute m ok) s (fun d => d.getF F.OPM_SLOT_MIN_LASER_MIN [m.val] = fit 32 (r.mins + 1) ∧ (d.slot m.val).minAt = (s.dev.slot m.val).minAt + sec 60 ∧
      (∃ z, d.led r.serial = some z ∧ z.mins = r.mins + 1) ∧ SameMem s.dev d)) ∧
  (∀ (s : State) (m : Fin 128) (r : LedRec) (l : List (BitVec 16)) (ok : Bool), l.length = 8 → s.dev.shining m.val = some r → s.dev.slotState m.val = 4 → (s.dev.slot m.val).biasAt + sec 600 ≤ s.dev.clk.now → r.bias = [] →
    Completes (.biasDriftSample m l ok) s (fun d => (∃ z, d.led r.serial = some z ∧ z.bias = l.map (·.toNat) ∧ z.mins = r.mins) ∧ (d.slot m.val).biasAt = s.dev.clk.now ∧
      SameRegs s.dev d [] ∧ SameMem s.dev d)) ∧
  (∀ (s : State) (m : Fin 128) (r : LedRec) (l : List (BitVec 16)) (ok : Bool), l.length = 8 → s.dev.shining m.val = some r → s.dev.slotState m.val = 4 → (s.dev.slot m.val).biasAt + sec 600 ≤ s.dev.clk.now → r.bias ≠ [] → (s.dev.opt.led.map LedRec.serial).Nodup →
    Completes (.biasDriftSample m l ok) s (fun d => (∃ z, d.led r.serial = some z ∧ z.bias = r.bias ∧ r.drift ≤ z.drift ∧
      (∀ i : Fin 8, drift (r.bias.getD i.val 0) ((l.map (·.toNat)).getD i.val 0) ≤ z.drift)) ∧ SameMem s.dev d)) ∧
  (∀ (s : State) (r : LedRec), s.dev.optOn = true → s.dev.opt.hourAt + sec 3600 ≤ s.dev.clk.now → s.dev.opt.led.filter LedRec.dirty = [r] → s.dev.opt.pos < 32768 →
    Completes (.ledgerHourlyWrite true) s (fun d => d.flashRead (ledBase s.dev.opt.active + 64 * s.dev.opt.pos) 64 = ({ r with seq := (r.seq + 1) % 2 ^ 32 } : LedRec).bytes ∧
      d.opt.pos = s.dev.opt.pos + 1 ∧ d.opt.hourAt = s.dev.clk.now ∧ SameRegs s.dev d [] ∧ SameMem s.dev d)) ∧
  (∀ (s : State) (r : LedRec), s.dev.optOn = true → s.dev.opt.flushDue = true → s.dev.opt.led.filter LedRec.dirty = [r] → s.dev.opt.pos < 32768 →
    Completes (.opmFlush true) s (fun d => d.flashRead (ledBase s.dev.opt.active + 64 * s.dev.opt.pos) 64 = ({ r with seq := (r.seq + 1) % 2 ^ 32 } : LedRec).bytes ∧
      d.opt.pos = s.dev.opt.pos + 1 ∧ d.opt.flushDue = false ∧ SameRegs s.dev d [] ∧ SameMem s.dev d)) ∧
  (∀ (s : State) (iss : Issuer) (v : BitVec 32), s.dev.lands iss .OPM_CTRL [] (v.toNat ||| 0x8) = true → s.dev.optRuns = true → bit v.toNat 0 = true →
    Completes (.opmDump iss v) s (fun d => d.host.recs = s.dev.host.recs ++ s.dev.opt.led.map (fun r => ⟨bits v.toNat 16 11, leBytes 4 72 ++ leBytes 1 0x61 ++ leBytes 3 0 ++ r.bytes, none⟩) ∧
      SameMem s.dev d)) ∧
  (∀ (s : State) (iss : Issuer) (m : Fin 128) (v : BitVec 32), s.dev.lands iss .OPM_SLOT_CFG [m.val] (v.toNat ||| 0x2) = true → s.dev.optOn = true → s.dev.slotState m.val ≠ 0 →
    s.dev.slotState m.val ≠ 6 → bit v.toNat 0 = false → s.dev.flag F.OPM_SLOT_CFG_MANUAL [m.val] = false →
    Completes (.opmReinit iss m v) s (fun d => d.slotState m.val = 1 ∧ (d.slot m.val).oReset = false ∧ (d.slot m.val).tx = false ∧ SameRegs s.dev d [(F.OPM_SLOT_STAT_STATE, [m.val])] ∧ SameMem s.dev d)) ∧
  (∀ (s : State) (iss : Issuer) (m : Fin 128), s.dev.lands iss .OPM_SLOT_CFG [m.val] 1 = true → s.dev.slotState m.val ≠ 0 → s.dev.slotState m.val ≠ 6 →
    s.dev.flag F.OPM_SLOT_CFG_MANUAL [m.val] = false →
    Completes (.opmManualWrite iss m 1) s (fun d => d.slotState m.val = 6 ∧ d.flag F.OPM_SLOT_CFG_MANUAL [m.val] = true ∧
      SameRegs s.dev d [(F.OPM_SLOT_STAT_STATE, [m.val]), (F.OPM_SLOT_CFG_MANUAL, [m.val])] ∧ SameMem s.dev d)) ∧
  (∀ (s : State) (iss : Issuer) (v : BitVec 32) (m : Nat), s.dev.lands iss .OPM_PASS_CTRL [] (v.toNat ||| 0x2000000) = true → s.dev.optRuns = true → s.dev.flag F.OPM_PASS_DATA_BUSY = false →
    m = bits v.toNat 0 7 → s.dev.flag F.OPM_SLOT_STAT_PRESENT [m] = true → (bit v.toNat 24 = true → s.dev.flag F.OPM_SLOT_CFG_MANUAL [m] = true) →
    Completes (.opmPassGo iss v) s (fun d => d.opt.pass = some ⟨m, bits v.toNat 8 8, bits v.toNat 16 8, bit v.toNat 24, s.dev.getF F.OPM_PASS_DATA_DATA⟩ ∧
      d.flag F.OPM_PASS_DATA_BUSY = true ∧ (d.slot m).oSel = false ∧ SameMem s.dev d)) ∧
  (∀ (s : State) (v : BitVec 8) (p : PassAcc), s.dev.opt.pass = some p → (s.dev.slot p.slot).selN = false → p.write = false →
    Completes (.opmPassDone false v) s (fun d => d.opt.pass = none ∧ d.flag F.OPM_PASS_DATA_BUSY = false ∧ d.getF F.OPM_PASS_DATA_STATUS = 0 ∧ d.getF F.OPM_PASS_DATA_DATA = v.toNat ∧
      d.out = s.dev.out ++ [.module p.slot p.page p.byte none] ∧ SameRegs s.dev d [(F.OPM_PASS_DATA_DATA, []), (F.OPM_PASS_DATA_BUSY, []), (F.OPM_PASS_DATA_STATUS, [])] ∧ SameMem s.dev d)) ∧
  (∀ (s : State) (v : BitVec 8) (p : PassAcc), s.dev.opt.pass = some p → (s.dev.slot p.slot).selN = false → p.write = true →
    Completes (.opmPassDone false v) s (fun d => d.opt.pass = none ∧ d.flag F.OPM_PASS_DATA_BUSY = false ∧ d.getF F.OPM_PASS_DATA_STATUS = 0 ∧
      d.out = s.dev.out ++ [.module p.slot p.page p.byte (some p.data)] ∧ SameRegs s.dev d [(F.OPM_PASS_DATA_BUSY, []), (F.OPM_PASS_DATA_STATUS, [])] ∧ SameMem s.dev d)) ∧
  (∀ (s : State) (nack : Bool) (v : BitVec 8) (p : PassAcc), s.dev.opt.pass = some p → (s.dev.slot p.slot).selN = true → Completes (.opmPassDone nack v) s (fun d => d = s.dev)) ∧
  (∀ (s : State) (v : BitVec 8) (p : PassAcc), s.dev.opt.pass = some p → (s.dev.slot p.slot).selN = false →
    Completes (.opmPassDone true v) s (fun d => d.opt.pass = none ∧ d.flag F.OPM_PASS_DATA_BUSY = false ∧ d.getF F.OPM_PASS_DATA_STATUS = Status.timeout.code ∧
      SameRegs s.dev d [(F.OPM_PASS_DATA_BUSY, []), (F.OPM_PASS_DATA_STATUS, [])] ∧ SameMem s.dev d))

/-- Trace buffers, counter sets and snapshots. TRACE_BUFFER_ENTER moves the oldest record that waits at a die with room into its
buffer, and counts it. COUNTER_SET_SAMPLE of an enabled set on a frame of its period hands one record to its ring, with the
set, its sample number, the time and the values (a sampled LNE_RXEQ shows the receiver's adapted values, which its fields then hold); while its last record still waits it only counts a skipped sample. GO and
fabric time reaching MST_SNAP_AT trigger a snapshot while none is collected and records are on; GO during a collection counts
as missed. The cut sets BUSY, counts the snapshot, notes its time, and with HALT_ALL halts every queue of every tackle.
SNAP_COLLECT hands the next record of at most 64 entries to its ring, and after the last clears BUSY once no snapshot record
waits. None changes memory. Where the rules leave a point open, the model's choice is meant: logs 22, 23, 24. Basis: R501, R505, R506, R508, R509, R511. -/
def Obligations.TelemetryRecordsAndSnapshots : Prop :=
  (∀ (s : State) (n : Fin 25) (x : Nat × Rec × Option (Nat × Nat)) (rest : List (Nat × Rec × Option (Nat × Nat))), pull (fun y => y.1 == n.val) s.dev.tel.traceWait = some (x, rest) →
    s.dev.ringArmed x.2.1.ring = true → s.dev.traceFull n.val = false →
    Completes (.traceBufferEnter n) s (fun d => d.tel.traceBuf = s.dev.tel.traceBuf ++ [(n.val, { x.2.1 with bytes := restamp s.dev x.2.1.bytes })] ∧ d.tel.traceWait = rest ∧
      d.getF F.TRC_STAT_LEVEL [n.val] = (s.dev.getF F.TRC_STAT_LEVEL [n.val] + 1) % 2 ^ 13 ∧ d.getF F.TRC_RECS_COUNT [n.val] = (s.dev.getF F.TRC_RECS_COUNT [n.val] + 1) % 2 ^ 64 ∧
      SameRegs s.dev d [(F.TRC_STAT_LEVEL, [n.val]), (F.TRC_RECS_COUNT, [n.val]), (F.TRC_STALL_CYCLES, [n.val])] ∧ SameMem s.dev d)) ∧
  (∀ (s : State) (k : Fin 8) (n : Nat), s.dev.flag F.MST_TEL_CFG_EN [k.val] = true → s.dev.clk.phase = .running → s.dev.headless = false →
    s.dev.clk.frame % 2 ^ s.dev.getF F.MST_TEL_CFG_PERIOD_LOG2 [k.val] = 0 → s.dev.samplePending k.val = false → n = s.dev.getF F.MST_TEL_CFG_COUNT [k.val] → n < 128 →
    Completes (.counterSetSample k) s (fun d => (∃ x, d.host.recs = s.dev.host.recs ++ [⟨s.dev.getF F.MST_TEL_CFG_RING [k.val], x, none⟩] ∧ x.length = 32 + 8 * n ∧
        leAt x 0 4 = 32 + 8 * n ∧ cb x 4 = 0x4A ∧ cb x 5 = k.val ∧ leAt x 6 2 = n ∧ leAt x 8 4 = (nget 0 s.dev.tel.setSeq [k.val] + 1) % 2 ^ 32 ∧ leAt x 16 8 = s.dev.fabTime % 2 ^ 64) ∧
      SameFields s.dev d [F.LNE_RXEQ_CTLE, F.LNE_RXEQ_GAIN] ∧ SameMem s.dev d)) ∧
  (∀ (s : State) (k : Fin 8), s.dev.flag F.MST_TEL_CFG_EN [k.val] = true → s.dev.clk.phase = .running → s.dev.headless = false →
    s.dev.clk.frame % 2 ^ s.dev.getF F.MST_TEL_CFG_PERIOD_LOG2 [k.val] = 0 → s.dev.samplePending k.val = true →
    Completes (.counterSetSample k) s (fun d => d.host = s.dev.host ∧ d.getF F.MST_TEL_SKIPPED_COUNT = min (s.dev.getF F.MST_TEL_SKIPPED_COUNT + 1) (2 ^ 32 - 1) ∧
      SameRegs s.dev d [(F.MST_TEL_SKIPPED_COUNT, [])] ∧ SameMem s.dev d)) ∧
  (∀ (s : State) (iss : Issuer) (v : BitVec 32), s.dev.lands iss .MST_SNAP_CTRL [] (v.toNat ||| 0x1) = true → s.dev.headless = false → s.dev.flag F.MST_SNAP_STAT_BUSY = false → bit v.toNat 15 = true →
    Completes (.snapGo iss v) s (fun d => d.tel.snapPending = true ∧ d.flag F.MST_SNAP_CTRL_RING_EN = true ∧ d.getF F.MST_SNAP_CTRL_RING = bits v.toNat 16 11 ∧ SameMem s.dev d)) ∧
  (∀ (s : State) (iss : Issuer) (v : BitVec 32), s.dev.lands iss .MST_SNAP_CTRL [] (v.toNat ||| 0x1) = true → s.dev.headless = false → s.dev.flag F.MST_SNAP_STAT_BUSY = true →
    Completes (.snapGo iss v) s (fun d => d.tel = s.dev.tel ∧ d.getF F.MST_SNAP_MISSED_COUNT = min (s.dev.getF F.MST_SNAP_MISSED_COUNT + 1) (2 ^ 32 - 1) ∧ SameMem s.dev d)) ∧
  (∀ (s : State), s.dev.flag F.MST_SNAP_CTRL_AT_EN = true → s.dev.getF F.MST_SNAP_AT_TIME ≤ s.dev.fabTime → s.dev.headless = false → s.dev.flag F.MST_SNAP_STAT_BUSY = false →
    s.dev.flag F.MST_SNAP_CTRL_RING_EN = true →
    Completes .snapAt s (fun d => d.tel.snapPending = true ∧ d.flag F.MST_SNAP_CTRL_AT_EN = false ∧ SameRegs s.dev d [(F.MST_SNAP_CTRL_AT_EN, [])] ∧ SameMem s.dev d)) ∧
  (∀ (s : State), s.dev.tel.snapPending = true → s.dev.headless = false → s.dev.flag F.MST_SNAP_CTRL_HALT_ALL = false →
    Completes .snapCut s (fun d => d.tel.snapPending = false ∧ d.flag F.MST_SNAP_STAT_BUSY = true ∧ d.getF F.MST_SNAP_STAT_SNAPS = (s.dev.getF F.MST_SNAP_STAT_SNAPS + 1) % 2 ^ 16 ∧
      d.getF F.MST_SNAP_TIME_TIME = s.dev.fabTime % 2 ^ 64 ∧ d.tel.snapEntries.length ≤ 65536 ∧ d.tel.snapPart = 0 ∧
      SameRegs s.dev d [(F.MST_SNAP_STAT_BUSY, []), (F.MST_SNAP_STAT_SNAPS, []), (F.MST_SNAP_TIME_TIME, [])] ∧ SameMem s.dev d)) ∧
  (∀ (s : State) (t : Nat) (q : Fin 4), s.dev.tel.snapPending = true → s.dev.headless = false → s.dev.flag F.MST_SNAP_CTRL_HALT_ALL = true → t ∈ allTackles →
    Completes .snapCut s (fun d => d.flag F.MST_SNAP_STAT_BUSY = true ∧ d.halted t q.val = true ∧ SameMem s.dev d)) ∧
  (∀ (s : State), s.dev.flag F.MST_SNAP_STAT_BUSY = true → s.dev.headless = false → s.dev.tel.snapEntries ≠ [] →
    Completes .snapCollect s (fun d => (∃ x, d.host.recs = s.dev.host.recs ++ [⟨s.dev.getF F.MST_SNAP_CTRL_RING, x, none⟩] ∧ cb x 4 = 0x46 ∧
        leAt x 12 4 = min 64 s.dev.tel.snapEntries.length ∧ x.drop 32 = (s.dev.tel.snapEntries.take 64).flatten) ∧ d.tel.snapEntries = s.dev.tel.snapEntries.drop 64 ∧
      d.tel.snapPart = s.dev.tel.snapPart + 1 ∧ SameRegs s.dev d [(F.MST_SNAP_STAT_TRUNC, [])] ∧ SameMem s.dev d)) ∧
  (∀ (s : State), s.dev.flag F.MST_SNAP_STAT_BUSY = true → s.dev.headless = false → s.dev.tel.snapEntries = [] → s.dev.snapWaits = false →
    Completes .snapCollect s (fun d => d.flag F.MST_SNAP_STAT_BUSY = false ∧ SameRegs s.dev d [(F.MST_SNAP_STAT_BUSY, [])] ∧ OnlyRegs s.dev d))

/-- The instructions of the JTAG port. EXTEST and SAMPLE/PRELOAD take the bits shifted in as the boundary cells; IDCODE shifts out
the identity; CLAMP, HIGHZ and BYPASS delay by one bit. With debug open and no access under way, REG_ACCESS of a register
whose island runs completes with its value or its write, MEM_ACCESS reads memory or writes memory that no one owns,
TRACE_EXPORT shifts out the oldest exported word and SCAN stops every island but the always-on one; with debug closed each is
a bypass, and without VDD_AON no access starts. TRST_N selects IDCODE and ends a register access with ABORTED. Where the rules leave a point open, the model's
choice is meant: logs 25, 26. Basis: R112, R122, R353, R512, R513, R514. -/
def Obligations.JtagPort : Prop :=
  (∀ (s : State) (l : List Bool), Completes (.jtagExtest l) s (fun d => d.jtag.ir = 0 ∧ d.jtag.cells = l ∧ (∃ o, d.out = s.dev.out ++ [.jtag o] ∧ o.length = l.length) ∧ SameRegs s.dev d [] ∧ SameMem s.dev d)) ∧
  (∀ (s : State) (l : List Bool), Completes (.jtagSamplePreload l) s (fun d => d.jtag.ir = 1 ∧ d.jtag.cells = l ∧ (∃ o, d.out = s.dev.out ++ [.jtag o] ∧ o.length = l.length) ∧ SameRegs s.dev d [] ∧ SameMem s.dev d)) ∧
  (∀ (s : State), Completes .jtagIdcode s (fun d => d.jtag.ir = 2 ∧ d.out = s.dev.out ++ [.jtag (bitsOut 32 idcode)] ∧ SameRegs s.dev d [] ∧ SameMem s.dev d)) ∧
  (∀ (s : State) (l : List Bool), Completes (.jtagClamp l) s (fun d => d.jtag.ir = 3 ∧ d.out = s.dev.out ++ [.jtag ((false :: l).take l.length)] ∧ SameRegs s.dev d [] ∧ SameMem s.dev d)) ∧
  (∀ (s : State) (l : List Bool), Completes (.jtagHighz l) s (fun d => d.jtag.ir = 4 ∧ d.out = s.dev.out ++ [.jtag ((false :: l).take l.length)] ∧ SameRegs s.dev d [] ∧ SameMem s.dev d)) ∧
  (∀ (s : State) (l : List Bool), Completes (.jtagBypass l) s (fun d => d.jtag.ir = 0xff ∧ d.out = s.dev.out ++ [.jtag ((false :: l).take l.length)] ∧ SameRegs s.dev d [] ∧ SameMem s.dev d)) ∧
  (∀ (s : State) (w : BitVec 120) (g : RegDesc) (i : List Nat), s.dev.clk.phase ≠ .off → s.fuses.closed = false → s.dev.jtag.busy = false → regAt (bits w.toNat 64 48) = some (g, i) → g.width = (if bit w.toNat 113 then 64 else 32) →
    s.dev.reach g.reg i = .open → bit w.toNat 112 = false → g.reg ≠ .SEQ_STAT → g.reg ≠ .LNE_RXEQ →
    Completes (.jtagRegAccess w) s (fun d => d.jtag.busy = false ∧ d.jtag.status = 0 ∧ d.jtag.data = (s.dev.regWord g.reg i).1 ∧ SameRegs s.dev d [] ∧ SameMem s.dev d)) ∧
  (∀ (s : State) (w : BitVec 120) (g : RegDesc) (t c : Nat), s.dev.clk.phase ≠ .off → s.fuses.closed = false → s.dev.jtag.busy = false → regAt (bits w.toNat 64 48) = some (g, [t, c]) → g.reg = .SEQ_CTR → g.width = 32 →
    bit w.toNat 113 = false → s.dev.reach .SEQ_CTR [t, c] = .open → bit w.toNat 112 = true → s.dev.mayWrite .jtag g.writer .SEQ_CTR [t, c] = true →
    Completes (.jtagRegAccess w) s (fun d => d.jtag.busy = false ∧ d.jtag.status = 0 ∧ d.ctr t c = bits w.toNat 0 32 ∧ SameRegs s.dev d [(F.SEQ_CTR_VALUE, [t, c])] ∧ SameMem s.dev d)) ∧
  (∀ (s : State) (w : BitVec 120) (g : RegDesc) (i : List Nat), s.dev.clk.phase ≠ .off → s.fuses.closed = false → s.dev.jtag.busy = false → regAt (bits w.toNat 64 48) = some (g, i) →
    g.width = (if bit w.toNat 113 then 64 else 32) → s.dev.reach g.reg i = .open → bit w.toNat 112 = false →
    Completes (.jtagRegAccess w) s (fun d => d.jtag.busy = false ∧ d.jtag.status = 0 ∧ SameFields s.dev d [F.LNE_RXEQ_CTLE, F.LNE_RXEQ_GAIN] ∧ SameMem s.dev d)) ∧
  (∀ (s : State) (w : BitVec 120), s.dev.clk.phase = .off → Completes (.jtagRegAccess w) s (fun d => d = s.dev) ∧ Completes (.jtagMemAccess w) s (fun d => d = s.dev)) ∧
  (∀ (s : State) (w : BitVec 120), s.dev.clk.phase ≠ .off → s.fuses.closed = true →
    Completes (.jtagRegAccess w) s (fun d => d.out = s.dev.out ++ [.jtag ((false :: bitsOut 120 w.toNat).take 120)] ∧ SameRegs s.dev d [] ∧ SameMem s.dev d)) ∧
  (∀ (s : State) (w : BitVec 120) (a n : Nat), s.dev.clk.phase ≠ .off → s.fuses.closed = false → s.dev.jtag.busy = false → a = bits w.toNat 64 48 → n = (if bit w.toNat 113 then 8 else 4) → (placesOf a n).all memPlace = true → placesOf a n ≠ [] →
    s.dev.memStopped a n = none → s.dev.memServed a n = true → bit w.toNat 112 = false →
    Completes (.jtagMemAccess w) s (fun d => d.jtag.busy = false ∧ d.jtag.status = 0 ∧ d.jtag.data = ofLE (s.dev.read a n) ∧ SameMem s.dev d)) ∧
  (∀ (s : State) (w : BitVec 120) (a n : Nat), s.dev.clk.phase ≠ .off → s.fuses.closed = false → s.dev.jtag.busy = false → a = bits w.toNat 64 48 → n = (if bit w.toNat 113 then 8 else 4) → (placesOf a n).all memPlace = true → placesOf a n ≠ [] →
    s.dev.memStopped a n = none → s.dev.memServed a n = true → bit w.toNat 112 = true → (placesOf a n).all s.dev.jtagOwns = true →
    Completes (.jtagMemAccess w) s (fun d => d.jtag.busy = false ∧ d.jtag.status = 0 ∧ Stored d a (leBytes n (bits w.toNat 0 64)) ∧ SameMemBut s.dev d a n)) ∧
  (∀ (s : State) (l : List Bool) (x : List Byte) (rest : List (List Byte)), s.fuses.closed = false → s.dev.tel.exportBuf = x :: rest →
    Completes (.jtagTraceExport l) s (fun d => d.tel.exportBuf = rest ∧ d.out = s.dev.out ++ [.jtag (bitsOut 264 (ofLE (x.drop 1) + 2 ^ 256 + cb x 0 * 2 ^ 257))] ∧ SameRegs s.dev d [] ∧ SameMem s.dev d)) ∧
  (∀ (s : State) (l : List Bool), s.fuses.closed = false → s.dev.tel.exportBuf = [] →
    Completes (.jtagTraceExport l) s (fun d => d.out = s.dev.out ++ [.jtag (bitsOut 264 0)] ∧ SameRegs s.dev d [] ∧ SameMem s.dev d)) ∧
  (∀ (s : State) (l : List Bool) (g : Nat), s.fuses.closed = false → 1 ≤ g → g < 1520 →
    Completes (.jtagScan l) s (fun d => d.islandOn g = false ∧ d.islandOn 0 = s.dev.islandOn 0 ∧ d.jtag.scanned = true ∧ (∃ o, d.out = s.dev.out ++ [.jtag o] ∧ o.length = l.length) ∧ SameMem s.dev d)) ∧
  (∀ (s : State), s.dev.jtag.busy = true → s.dev.jtag.access = none →
    Completes .trstNAssert s (fun d => d.jtag.ir = 2 ∧ d.jtag.busy = false ∧ d.jtag.status = Status.aborted.code ∧ SameRegs s.dev d [] ∧ SameMem s.dev d))

/-- Ratio changes, throttling, conversions and thermistors. A write of PWR_SAIL_CTRL that names a new ratio which the sail may
take starts a change, and one that it may not only sets REJECTED; at relock, with every island of the sail stopped, the ratio
is in force and the islands run. FORCE above the level of a sail that does not change raises it. A conversion with a good supply publishes every
diode code with its validity, the supply, and the resistance of an unbroken thermistor in its range, and a sail with a hot
diode reads HOT; a conversion that reads VDD_SAIL more than 30 mV below the minimum for the ratio of a sail in service is a
brownout. An open wire sets OPEN_NOW and its mending clears it. None but the brownout changes memory. Where the rules leave a point
open, the model's choice is meant: logs 48, 49, 82. Basis: R519, R520, R521, R522, R524, R526, R549. -/
def Obligations.PowerAndSensors : Prop :=
  (∀ (s : State) (iss : Issuer) (k : Fin 4) (v : BitVec 32), s.dev.lands iss .PWR_SAIL_CTRL [k.val] v.toNat = true → 8 ≤ bits v.toNat 0 4 → bits v.toNat 0 4 ≤ 12 → s.dev.flag F.PWR_SAIL_STAT_CHANGING [k.val] = false →
    (s.dev.getF F.PWR_SAIL_STAT_RATIO [k.val] < bits v.toNat 0 4 → 560 + 30 * (bits v.toNat 0 4 - 8) ≤ s.dev.getF F.PWR_VSAIL_MV) → bits v.toNat 0 4 ≠ s.dev.getF F.PWR_SAIL_STAT_RATIO [k.val] →
    Completes (.sailRatioWrite iss k v) s (fun d => d.flag F.PWR_SAIL_STAT_CHANGING [k.val] = true ∧ d.getF F.PWR_SAIL_CTRL_RATIO [k.val] = bits v.toNat 0 4 ∧
      nget? d.pwr.ratio [k.val] = some (bits v.toNat 0 4, false) ∧ d.getF F.PWR_SAIL_CTRL_FORCE [k.val] = bits v.toNat 8 3 ∧
      SameRegs s.dev d [(F.PWR_SAIL_STAT_CHANGING, [k.val]), (F.PWR_SAIL_CTRL_RATIO, [k.val]), (F.PWR_SAIL_CTRL_FORCE, [k.val])] ∧ SameMem s.dev d)) ∧
  (∀ (s : State) (iss : Issuer) (k : Fin 4) (v : BitVec 32), s.dev.lands iss .PWR_SAIL_CTRL [k.val] v.toNat = true → (bits v.toNat 0 4 < 8 ∨ 12 < bits v.toNat 0 4 ∨ s.dev.flag F.PWR_SAIL_STAT_CHANGING [k.val] = true ∨
      (s.dev.getF F.PWR_SAIL_STAT_RATIO [k.val] < bits v.toNat 0 4 ∧ s.dev.getF F.PWR_VSAIL_MV < 560 + 30 * (bits v.toNat 0 4 - 8))) → bits v.toNat 8 3 ≤ s.dev.getF F.PWR_SAIL_STAT_LEVEL [k.val] →
    Completes (.sailRatioWrite iss k v) s (fun d => d.flag F.PWR_SAIL_STAT_REJECTED [k.val] = true ∧ d.pwr = s.dev.pwr ∧
      SameRegs s.dev d [(F.PWR_SAIL_STAT_REJECTED, [k.val]), (F.PWR_SAIL_CTRL_FORCE, [k.val])] ∧ SameMem s.dev d)) ∧
  (∀ (s : State) (k : Fin 4) (r : Nat), nget? s.dev.pwr.ratio [k.val] = some (r, true) → s.dev.dieOk (13 + k.val) = true → (∀ g ∈ sailIslands k.val, s.dev.islandOn g = false) → r < 16 →
    Completes (.sailRatioRelock k) s (fun d => d.getF F.PWR_SAIL_STAT_RATIO [k.val] = r ∧ d.flag F.PWR_SAIL_STAT_CHANGING [k.val] = false ∧ nget? d.pwr.ratio [k.val] = none ∧
      d.getF F.PWR_SAIL_RATIO_CNT_COUNT [k.val] = min (s.dev.getF F.PWR_SAIL_RATIO_CNT_COUNT [k.val] + 1) (2 ^ 32 - 1) ∧ d.locked (13 + k.val) = true ∧
      (s.dev.jtag.scanned = false → ∀ g ∈ sailIslands k.val, s.dev.islandStopped g = true → d.islandOn g = true) ∧ SameMem s.dev d)) ∧
  (∀ (s : State) (iss : Issuer) (k : Fin 4) (v : BitVec 32), s.dev.lands iss .PWR_SAIL_CTRL [k.val] v.toNat = true → bits v.toNat 0 4 = s.dev.getF F.PWR_SAIL_STAT_RATIO [k.val] → 8 ≤ bits v.toNat 0 4 → bits v.toNat 0 4 ≤ 12 → s.dev.flag F.PWR_SAIL_STAT_CHANGING [k.val] = false →
    s.dev.dieOk (13 + k.val) = true → s.dev.getF F.PWR_SAIL_STAT_LEVEL [k.val] < bits v.toNat 8 3 →
    Completes (.throttleForceWrite iss k v) s (fun d => d.getF F.PWR_SAIL_STAT_LEVEL [k.val] = bits v.toNat 8 3 ∧ d.getF F.PWR_SAIL_CTRL_FORCE [k.val] = bits v.toNat 8 3 ∧
      d.getF F.PWR_SAIL_THR_CNT_COUNT [k.val] = min (s.dev.getF F.PWR_SAIL_THR_CNT_COUNT [k.val] + 1) (2 ^ 32 - 1) ∧ d.flag F.SNS_STAT_THROTTLED = true ∧ SameMem s.dev d)) ∧
  (∀ (s : State) (l : List (BitVec 16)) (a b : Nat) (v : BitVec 16) (j : Fin 97), l.length = 97 → s.dev.vsailGood v.toNat → s.dev.clk.phase ≠ .off → (s.dev.pwr.windows + 1) * ms 1 + us 200 ≤ s.dev.clk.now →
    Completes (.sensorConversion l a b v) s (fun d => d.getF F.SNS_TEMP_TEMP [j.val] = (l.getD j.val 0).toNat ∧
      (d.flag F.SNS_TEMP_VALID [j.val] = true ↔ -640 ≤ (l.getD j.val 0).toInt ∧ (l.getD j.val 0).toInt ≤ 2400) ∧ d.getF F.PWR_VSAIL_MV = v.toNat % 2 ^ 12 ∧
      d.pwr.windows = s.dev.pwr.windows + 1 ∧ SameMem s.dev d)) ∧
  (∀ (s : State) (l : List (BitVec 16)) (a b : Nat) (v : BitVec 16), l.length = 97 → s.dev.vsailGood v.toNat → s.dev.clk.phase ≠ .off → (s.dev.pwr.windows + 1) * ms 1 + us 200 ≤ s.dev.clk.now →
    nget? s.dev.pwr.therm [0] = none → 100 ≤ a → a ≤ 1500000 →
    Completes (.sensorConversion l a b v) s (fun d => d.getF F.SNS_REM_RES_OHMS [0] = min a 1000000 ∧ d.flag F.SNS_REM_VALID [0] = true)) ∧
  (∀ (s : State) (l : List (BitVec 16)) (a b : Nat) (v : BitVec 16) (k : Fin 4) (i : Fin 8), l.length = 97 → s.dev.vsailGood v.toNat → s.dev.clk.phase ≠ .off → (s.dev.pwr.windows + 1) * ms 1 + us 200 ≤ s.dev.clk.now →
    s.dev.levelLive k.val = true → s.dev.getF F.PWR_SAIL_CTRL_FORCE [k.val] < 8 → s.dev.getF F.PWR_SAIL_STAT_LEVEL [k.val] < 8 → toSigned 16 (s.dev.getF F.SNS_SAIL_THR_HI) ≤ (l.getD (49 + 8 * k.val + i.val) 0).toInt → -640 ≤ (l.getD (49 + 8 * k.val + i.val) 0).toInt →
    (l.getD (49 + 8 * k.val + i.val) 0).toInt ≤ 2400 →
    Completes (.sensorConversion l a b v) s (fun d => d.flag F.PWR_SAIL_STAT_HOT [k.val] = true ∧
      d.getF F.PWR_SAIL_STAT_LEVEL [k.val] = max (s.dev.getF F.PWR_SAIL_CTRL_FORCE [k.val]) (min 7 (s.dev.getF F.PWR_SAIL_STAT_LEVEL [k.val] + 1)))) ∧
  (∀ (s : State) (l : List (BitVec 16)) (a b : Nat) (v : BitVec 16) (k : Fin 4), l.length = 97 → s.dev.clk.phase = .running → (s.dev.pwr.windows + 1) * ms 1 + us 200 ≤ s.dev.clk.now →
    s.dev.dieOk (13 + k.val) = true → v.toNat + 30 < sailMin (s.dev.getF F.PWR_SAIL_STAT_RATIO [k.val]) →
    Completes (.sensorConversion l a b v) s (fun d => d.clk.phase = .held ∧ d.clk.brown = true ∧ d.flag F.MST_RST_CAUSE_BROWNOUT = true ∧ bit (d.getF F.PWR_RAIL_STAT_GOOD) 1 = false ∧
      d.net = NetSt.zero ∧ d.eng = EngSt.zero)) ∧
  (∀ (s : State) (x : Fin 2), s.dev.clk.phase ≠ .off → s.dev.flag F.SNS_REM_OPEN_NOW [x.val] = false → nget? s.dev.pwr.therm [x.val] = none →
    Completes (.thermistorOpen x) s (fun d => d.flag F.SNS_REM_OPEN_NOW [x.val] = true ∧ nget? d.pwr.therm [x.val] = some ⟨s.dev.clk.now - us 10, none⟩ ∧
      SameRegs s.dev d [(F.SNS_REM_OPEN_NOW, [x.val])] ∧ SameMem s.dev d)) ∧
  (∀ (s : State) (x : Fin 2) (t : Therm), s.dev.flag F.SNS_REM_OPEN_NOW [x.val] = true → nget? s.dev.pwr.therm [x.val] = some t →
    Completes (.thermistorClose x) s (fun d => d.flag F.SNS_REM_OPEN_NOW [x.val] = false ∧ nget? d.pwr.therm [x.val] = some { t with wholeAt := some (s.dev.clk.now - us 10) } ∧
      SameRegs s.dev d [(F.SNS_REM_OPEN_NOW, [x.val])] ∧ SameMem s.dev d))

/-- Frame slips, crossings in reset, held accesses, locks and HANDOVER. A Hoist mark in a running device at which a die in service
disagrees sets FRAME_SLIP with its number and clears HELD_START. The reset indicator of an island in reset counts the replies
discarded at the crossing and sets its source. A write that waited at a stopped island takes effect when the island runs
again. A write of MST_LOCK sets the locks it names and clears none. HANDOVER whose bank's owner admits the command claims the
bank for the owner it names, and otherwise completes with OWNER. Where the rules leave a point open, the model's choice is
meant: log 6. Basis: R52, R54, R55, R58, R93, R119, R356, R466. -/
def Obligations.SlipsCrossingsLocksAndHandover : Prop :=
  (∀ (s : State) (n : Fin 25), s.dev.clk.phase = .running → s.dev.clk.frame % 256 = 0 → 256 ≤ s.dev.clk.frame → s.dev.headless = false → s.dev.dieOk n.val = true →
    s.dev.flag F.MST_CLK_STAT_FRAME_SLIP = false →
    Completes (.hoistSyncMark [n]) s (fun d => d.flag F.MST_CLK_STAT_FRAME_SLIP = true ∧ d.getF F.MST_CLK_STAT_SLIP_DIE = n.val ∧ d.flag F.MST_DET_STAT_HELD_START = false ∧ SameMem s.dev d)) ∧
  (∀ (s : State) (n : Fin 25) (g : Fin 1520) (k : Nat), s.dev.islandInReset g.val = true → 0 < k → s.dev.clk.held = [] → s.dev.clk.heldAper = [] →
    Completes (.resetIndicatorAssert n g k) s (fun d => d.getF F.XING_DISCARD_COUNT [n.val] = min (s.dev.getF F.XING_DISCARD_COUNT [n.val] + k) (2 ^ 32 - 1) ∧
      d.bitF F.FLT_STAT_SRC [n.val] 5 = true ∧ SameMem s.dev d)) ∧
  (∀ (s : State) (g : Fin 1520) (h : HeldAccess) (x : RegDesc) (t c : Nat), s.dev.islandStopped g.val = false → s.dev.clk.held = [h] → s.dev.clk.heldAper = [] → s.dev.jtag.access = none →
    regIsland h.reg h.idx = g.val → h.reg = .SEQ_CTR → h.idx = [t, c] → h.write = true → h.via = .plan → descOf .SEQ_CTR = some x → s.dev.mayWrite h.iss x.writer .SEQ_CTR [t, c] = true →
    s.dev.reach .SEQ_CTR [t, c] = .open →
    Completes (.stoppedIslandAccessResume g) s (fun d => d.ctr t c = h.value % 2 ^ 32 ∧ d.clk.held = [] ∧ SameRegs s.dev d [(F.SEQ_CTR_VALUE, [t, c])] ∧ SameMem s.dev d)) ∧
  (∀ (s : State) (iss : Issuer) (v : BitVec 32), s.dev.lands iss .MST_LOCK [] v.toNat = true →
    Completes (.mstLockWrite iss v) s (fun d => (∀ i : Nat, i < 5 → d.bitF F.MST_LOCK_LOCK [] i = (s.dev.bitF F.MST_LOCK_LOCK [] i || bit v.toNat i)) ∧
      SameRegs s.dev d [(F.MST_LOCK_LOCK, [])] ∧ OnlyRegs s.dev d)) ∧
  (∀ (s : State) (t : Fin 65536) (k die b : Nat) (sail : Bool) (r : Run), s.dev.executes t.val k 7 r → bankOf (leAt r.cmd.bytes 8 6) = some (sail, die, b) →
    (∀ c ∈ s.dev.bank.claims, c.run ≠ some (t.val, r.cmd.uid)) → s.dev.admits (s.dev.bankOwner sail die b) (r.writer t.val) = true →
    Completes (.handover t k) s (fun d => d.bank.claims = s.dev.bank.claims ++ [⟨sail, die, b, cb r.cmd.bytes 4, r.cmd.hp, false, t.val, some (t.val, r.cmd.uid)⟩] ∧
      d.runAt t.val k = some r ∧ SameRegs s.dev d [(F.MST_DIG_STAT_BACKLOG, [])] ∧ SameMem s.dev d)) ∧
  (∀ (s : State) (t : Fin 65536) (k die b : Nat) (sail : Bool) (r : Run), s.dev.executes t.val k 7 r → bankOf (leAt r.cmd.bytes 8 6) = some (sail, die, b) →
    (∀ c ∈ s.dev.bank.claims, c.run ≠ some (t.val, r.cmd.uid)) → s.dev.admits (s.dev.bankOwner sail die b) (r.writer t.val) = false →
    Completes (.handover t k) s (fun d => d.bank.claims = s.dev.bank.claims ∧ d.hasStatus t.val k .owner ∧ SameRegs s.dev d [(F.MST_DIG_STAT_BACKLOG, [])] ∧ SameMem s.dev d))

/-- Packet headers, flit headers and codewords decode to what was encoded. Every packet header whose fields are within their widths takes 32 bytes
and is read back from them, with whatever follows; every 32 bytes are the encoding of the header that they spell, so no bit is
dropped; every flit header within its widths takes 16 bytes, is read back from a flit that begins with them, and that flit's
HCRC matches; a codeword's 5,140 message bits give back its control field and its 640 flit bytes; and the codewords of one
period of a port, in whichever order its lanes come in, give back the port's flit bytes. Basis: R33, R144, R145, R147, R173, R191. -/
def Obligations.HeadersAreReadAsTheyWereWritten : Prop :=
  (∀ (h : PktHdr) (l : List Byte), h.wf = true → h.enc.length = 32 ∧ PktHdr.dec (h.enc ++ l) = h) ∧
  (∀ l : List Byte, l.length = 32 → (PktHdr.dec l).wf = true ∧ (PktHdr.dec l).enc = l) ∧
  (∀ (h : FlitHdr) (l : List Byte), h.wf = true → h.enc.length = 16 ∧ FlitHdr.dec (h.enc ++ l) = h ∧ flitGood (h.enc ++ l) = true) ∧
  (∀ (c : CtrlField) (l : List Byte), c.lane < 16 → c.arg < 16 → c.seq < 256 → l.length = 640 → (cwMessage c l).length = 5140 ∧ cwRead (cwMessage c l) = (c, l) ∧
    bits c.enc 0 4 = c.lane ∧ bits c.enc 4 4 = c.ctrl.num ∧ bits c.enc 8 4 = c.arg ∧ bits c.enc 12 8 = c.seq) ∧
  (∀ (seq : Nat) (lanes : List Nat) (l : List Byte) (p : List (CtrlField × List Byte)), lanes.Pairwise (· < ·) → l.length = 640 * lanes.length → p.Perm (layPeriod seq lanes l) →
    readPeriod p = l)

/-- Memory reads what was written and keeps its canonical form. After a write every byte of it reads as written and every other
byte as before; a write and the loss of an interval at a reset keep the memory's one canonical form, in which addresses rise
and no listed byte equals what an unlisted one reads as; a loss leaves every byte outside the interval as it was. The form is
the model's (INVENTORY.md, Memory and ordering; log 4). Basis: R29, R30, R105, R193. -/
def Obligations.MemoryReadsWhatWasWritten : Prop :=
  (∀ (d : Dev) (a : Nat) (l : List Byte), Stored (d.write a l) a l ∧ SameMemBut d (d.write a l) a l.length ∧ (d.MemOk → (d.write a l).MemOk)) ∧
  (∀ (d : Dev) (lo hi : Nat), (d.MemOk → (d.loseMem lo hi).MemOk) ∧ ∀ b : Nat, ¬(lo ≤ b ∧ b < hi) → (d.loseMem lo hi).byte b = d.byte b)

/-- Maximum and minimum compare values numerically. Between two finite values the maximum is the greater number and the minimum
the smaller; −infinity lies below and +infinity above every finite value; of the zeros max takes +0 and min −0; a NaN operand
is ignored and the result is NaN exactly when every operand is. VOP maximum and minimum, VRED along an axis and the capstan
operations use these. Basis: R284. -/
def Obligations.MaximumAndMinimum : Prop :=
  (∀ (n k : Bool) (m p : Nat) (e f : Int), (if n then -1 else 1) * (m : ℚ) * (2 : ℚ) ^ e < (if k then -1 else 1) * (p : ℚ) * (2 : ℚ) ^ f →
    (Val.fin n m e).max (.fin k p f) = .fin k p f ∧ (Val.fin k p f).max (.fin n m e) = .fin k p f ∧ (Val.fin n m e).min (.fin k p f) = .fin n m e ∧
      (Val.fin k p f).min (.fin n m e) = .fin n m e) ∧
  (∀ (n : Bool) (m : Nat) (e : Int), (Val.inf true).max (.fin n m e) = .fin n m e ∧ (Val.fin n m e).max (.inf true) = .fin n m e ∧ (Val.inf true).min (.fin n m e) = .inf true ∧
    (Val.fin n m e).min (.inf true) = .inf true ∧ (Val.inf false).max (.fin n m e) = .inf false ∧ (Val.fin n m e).max (.inf false) = .inf false ∧
    (Val.inf false).min (.fin n m e) = .fin n m e ∧ (Val.fin n m e).min (.inf false) = .fin n m e ∧ (Val.inf true).max (.inf false) = .inf false ∧
    (Val.inf false).max (.inf true) = .inf false ∧ (Val.inf true).min (.inf false) = .inf true ∧ (Val.inf false).min (.inf true) = .inf true) ∧
  (∀ e f : Int, (Val.fin false 0 e).max (.fin true 0 f) = .fin false 0 e ∧ (Val.fin true 0 f).max (.fin false 0 e) = .fin false 0 e ∧
    (Val.fin false 0 e).min (.fin true 0 f) = .fin true 0 f ∧ (Val.fin true 0 f).min (.fin false 0 e) = .fin true 0 f) ∧
  (∀ a b : Val, Val.nan.max a = a ∧ a.max .nan = a ∧ Val.nan.min a = a ∧ a.min .nan = a ∧ (a.max b = .nan ↔ a = .nan ∧ b = .nan) ∧ (a.min b = .nan ↔ a = .nan ∧ b = .nan)) ∧
  (∀ a b c : Val, vopVal 6 a b c = a.max b ∧ vopVal 7 a b c = a.min b) ∧
  (∀ l : List Val, (redVal 2 l = .nan ↔ ∀ v ∈ l, v = .nan) ∧ (redVal 3 l = .nan ↔ ∀ v ∈ l, v = .nan) ∧ (redVal 2 l ≠ .nan → redVal 2 l ∈ l) ∧ (redVal 3 l ≠ .nan → redVal 3 l ∈ l) ∧
    (∀ v ∈ l, (redVal 2 l).lt v = false) ∧ (∀ v ∈ l, v.lt (redVal 3 l) = false)) ∧
  (∀ (x : Entry) (v : Val) (k : Nat), (x.addExt true .nan).ext = x.ext ∧ (x.addExt false .nan).ext = x.ext ∧ (v ≠ .nan → x.ext = some k →
    (x.addExt true v).ext = some (wp64.round false false ((wp64.decode k).max v)).code ∧ (x.addExt false v).ext = some (wp64.round false false ((wp64.decode k).min v)).code) ∧
    (v ≠ .nan → x.ext = none → (x.addExt true v).ext = some (wp64.round false false v).code ∧ (x.addExt false v).ext = some (wp64.round false false v).code))

/-- HCRC is the CRC-16 of header bytes 0 to 13. The CRC of a byte string is the remainder taken bit by bit, each byte most
significant bit first, with polynomial 0x1021 from 0xFFFF and no final XOR; a flit header carries at offset 14, least
significant byte first, that CRC of its bytes 0 to 13; over the ASCII bytes of 123456789 it is 0x29B1. Basis: R175. -/
def Obligations.HeaderCrc : Prop :=
  (∀ l : List Byte, crc16 0xFFFF l = (l.flatMap (fun b => (List.range 8).map (fun i => bit b.toNat (7 - i)))).foldl
    (fun c b => if (c / 32768 % 2 == 1) != b then (c * 2 % 65536) ^^^ 0x1021 else c * 2 % 65536) 0xFFFF) ∧
  (∀ h : FlitHdr, h.enc.length = 16 ∧ leAt h.enc 14 2 = crc16 0xFFFF (h.enc.take 14) ∧ h.enc.getD 14 0 = BitVec.ofNat 8 (crc16 0xFFFF (h.enc.take 14) % 256)) ∧
  (crc16 0xFFFF [0x31, 0x32, 0x33, 0x34, 0x35, 0x36, 0x37, 0x38, 0x39] = 0x29B1)

/-- One clock-on bit per island. Bit g mod 32 of the word of MST_CLKON_(g div 32) reads 1 exactly while island g is neither
stopped nor in reset. Starting an island sets that bit, unless a JTAG SCAN has stopped the device (R512), and stopping or
holding it clears it; no other island's bit changes. Basis: R57. -/
def Obligations.ClockOnBits : Prop :=
  (∀ (d : Dev) (g : Nat), g < 1520 → bit (d.readWord .MST_CLKON [g / 32]) (g % 32) = d.islandOn g ∧ (d.islandOn g = false ↔ (d.islandStopped g = true ∨ d.islandInReset g = true))) ∧
  (∀ (d : Dev) (g h : Nat), g < 1520 → h < 1520 → (d.stopIsland g).islandOn h = (decide (h ≠ g) && d.islandOn h) ∧ (d.holdIsland g).islandOn h = (decide (h ≠ g) && d.islandOn h) ∧
    (d.jtag.scanned = false → (d.startIsland g).islandOn h = (decide (h = g) || d.islandOn h))) ∧
  (∀ (d : Dev) (g : Nat), g < 1520 → (d.stopIsland g).islandStopped g = true ∧ (d.holdIsland g).islandInReset g = true)

/-- What power-on reset leaves. After power-on reset every field of every register reads the value of its Reset column, RST_CAUSE
shows POWER_ON, every bank and cleat is unowned, every sail stands at ratio 12 and no island but those the table names runs;
no command waits, no record, packet, link, lane or collective stands, memory lists nothing and keeps its form. Values that the
spec gives no reset for are the model's (logs 3 and 4). Basis: R6, R94, R171, R353. -/
def Obligations.StateAfterPowerOnReset : Prop :=
  (∀ (f : Field) (i : List Nat), State.reset.dev.getF f i = f.reset i) ∧
  (State.reset.pending = [] ∧ State.reset.dev.mem = [] ∧ State.reset.dev.MemOk ∧ State.reset.dev.host = HostSt.zero ∧ State.reset.dev.net = NetSt.zero ∧ State.reset.dev.coll = CollSt.zero) ∧
  (State.reset.dev.flag F.MST_RST_CAUSE_POWER_ON = true ∧ (∀ g : Nat, 1 ≤ g → g < 1520 → State.reset.dev.islandOn g = false)) ∧
  (∀ s b : Nat, State.reset.dev.bankOwner true s b = 0xFF ∧ State.reset.dev.bankOwner false s b = 0xFF ∧ State.reset.dev.getF F.PWR_SAIL_STAT_RATIO [s] = 12 ∧
    State.reset.dev.getF F.SNS_SAIL_THR_HI = 1600 ∧ State.reset.dev.getF F.OPM_LIFE_CFG_PCT = 90)
end

