-- ==== Sys2Proof/Laws/Map.lean ====
section
/-!
SUPPORT. Reading a table after a write of it. No law needs the table to be in order.
-/
namespace Sys2Proof.Machine

variable {κ α : Type} [DecidableEq κ]

theorem tget_tdel_same (x : α) (k : κ) (m : List (κ × α)) : tget x (tdel k m) k = x := by
  induction m with
  | nil => simp [tdel, tget]
  | cons e t ih => obtain ⟨a, b⟩ := e; simp only [tdel]; split_ifs <;> simp_all [tget]

theorem tget_tdel_ne (x : α) {k j : κ} (h : k ≠ j) (m : List (κ × α)) : tget x (tdel k m) j = tget x m j := by
  induction m with
  | nil => simp [tdel, tget]
  | cons e t ih => obtain ⟨a, b⟩ := e; simp only [tdel]; split_ifs <;> simp_all [tget]

theorem tget_tins_same (x : α) (lt : κ → κ → Bool) (k : κ) (v : α) (m : List (κ × α)) : tget x (tins lt k v m) k = v := by
  induction m with
  | nil => simp [tins, tget]
  | cons e t ih => obtain ⟨a, b⟩ := e; simp only [tins]; split_ifs <;> simp_all [tget]

theorem tget_tins_ne (x : α) (lt : κ → κ → Bool) {k j : κ} (h : k ≠ j) (v : α) (m : List (κ × α)) :
    tget x (tins lt k v m) j = tget x m j := by
  induction m with
  | nil => simp [tins, tget, h]
  | cons e t ih => obtain ⟨a, b⟩ := e; simp only [tins]; split_ifs <;> simp_all [tget]

variable [DecidableEq α]

theorem tget_tput_same (lt : κ → κ → Bool) (x : α) (k : κ) (v : α) (m : List (κ × α)) : tget x (tput lt x k v m) k = v := by
  by_cases h : v = x
  · simp [tput, h, tget_tdel_same]
  · simp [tput, h, tget_tins_same]

theorem tget_tput_ne (lt : κ → κ → Bool) (x y : α) {k j : κ} (h : k ≠ j) (v : α) (m : List (κ × α)) :
    tget y (tput lt x k v m) j = tget y m j := by
  by_cases hv : v = x
  · simp [tput, hv, tget_tdel_ne y h]
  · simp [tput, hv, tget_tins_ne y lt h]

@[simp] theorem nget_nput_same (x : α) (m : NMap α) (k : List Nat) (v : α) : nget x (nput x m k v) k = v := tget_tput_same _ _ _ _ _

theorem nget_nput_ne (x : α) (m : NMap α) {k j : List Nat} (h : k ≠ j) (v : α) : nget x (nput x m k v) j = nget x m j :=
  tget_tput_ne _ _ _ h _ _

omit [DecidableEq α] in
@[simp] theorem nget_nset_same (x : α) (m : NMap α) (k : List Nat) (v : α) : nget x (nset m k v) k = v := tget_tins_same _ _ _ _ _

omit [DecidableEq α] in
theorem nget_nset_ne (x : α) (m : NMap α) {k j : List Nat} (h : k ≠ j) (v : α) : nget x (nset m k v) j = nget x m j :=
  tget_tins_ne _ _ h _ _

omit [DecidableEq α] in
@[simp] theorem nget?_nset_same (m : NMap α) (k : List Nat) (v : α) : nget? (nset m k v) k = some v := by
  unfold nset
  induction m with
  | nil => simp_all [tins, nget?]
  | cons e t ih => obtain ⟨a, b⟩ := e; simp only [tins]; split_ifs <;> simp_all [nget?]

omit [DecidableEq α] in
theorem nget?_nset_ne (m : NMap α) {k j : List Nat} (h : k ≠ j) (v : α) : nget? (nset m k v) j = nget? m j := by
  unfold nset
  induction m with
  | nil => simp_all [tins, nget?]
  | cons e t ih => obtain ⟨a, b⟩ := e; simp only [tins]; split_ifs <;> simp_all [nget?]

omit [DecidableEq α] in
@[simp] theorem nget?_ndel_same (m : NMap α) (k : List Nat) : nget? (ndel m k) k = none := by
  unfold ndel
  induction m with
  | nil => simp_all [tdel, nget?]
  | cons e t ih => obtain ⟨a, b⟩ := e; simp only [tdel]; split_ifs <;> simp_all [nget?]

omit [DecidableEq α] in
theorem nget?_ndel_ne (m : NMap α) {k j : List Nat} (h : k ≠ j) : nget? (ndel m k) j = nget? m j := by
  unfold ndel
  induction m with
  | nil => simp_all [tdel, nget?]
  | cons e t ih => obtain ⟨a, b⟩ := e; simp only [tdel]; split_ifs <;> simp_all [nget?]

end Sys2Proof.Machine
end

