-- ==== Sys2Proof/Laws/State.lean ====
section
/-!
SUPPORT. What each named update of the state leaves alone, one lemma per part and update, true by definition.
-/
namespace Sys2Proof.Machine

/-! ## A command that changes the device only -/

theorem upd_eq (s : State) (f : Dev → Dev) : s.upd f = .next { s with dev := f s.dev } := rfl

theorem updIf_true (s : State) (c : Bool) (f : Dev → Dev) (h : c = true) : s.updIf c f = .next { s with dev := f s.dev } := by
  simp [State.updIf, h, State.upd]

theorem updIf_false (s : State) (c : Bool) (f : Dev → Dev) (h : c = false) : s.updIf c f = .refused .illFormed := by
  simp [State.updIf, h]

/-! ## Reading a field past an update of another part -/

/-- `getF` looks at the register file only. -/
@[simp] theorem getF_mk (d : Dev) (x0 x1 x2 x3 x4 x5 x6 x7 x8 x9 x10 x11 x12 x13 x14 x15 x16) (f : Field) (i : List Nat) :
    (Dev.mk d.regs x0 x1 x2 x3 x4 x5 x6 x7 x8 x9 x10 x11 x12 x13 x14 x15 x16).getF f i = d.getF f i := rfl

/-- `flag` looks at the register file only. -/
@[simp] theorem flag_mk (d : Dev) (x0 x1 x2 x3 x4 x5 x6 x7 x8 x9 x10 x11 x12 x13 x14 x15 x16) (f : Field) (i : List Nat) :
    (Dev.mk d.regs x0 x1 x2 x3 x4 x5 x6 x7 x8 x9 x10 x11 x12 x13 x14 x15 x16).flag f i = d.flag f i := rfl

/-- `bitF` looks at the register file only. -/
@[simp] theorem bitF_mk (d : Dev) (x0 x1 x2 x3 x4 x5 x6 x7 x8 x9 x10 x11 x12 x13 x14 x15 x16) (f : Field) (i : List Nat) (b : Nat) :
    (Dev.mk d.regs x0 x1 x2 x3 x4 x5 x6 x7 x8 x9 x10 x11 x12 x13 x14 x15 x16).bitF f i b = d.bitF f i b := rfl

/-! ## A register update leaves every other part -/

@[simp] theorem setF_mem (d : Dev) (f : Field) (i : List Nat) (v : Nat) : (d.setF f i v).mem = d.mem := rfl
@[simp] theorem setF_clk (d : Dev) (f : Field) (i : List Nat) (v : Nat) : (d.setF f i v).clk = d.clk := rfl
@[simp] theorem setF_boot (d : Dev) (f : Field) (i : List Nat) (v : Nat) : (d.setF f i v).boot = d.boot := rfl
@[simp] theorem setF_rst (d : Dev) (f : Field) (i : List Nat) (v : Nat) : (d.setF f i v).rst = d.rst := rfl
@[simp] theorem setF_host (d : Dev) (f : Field) (i : List Nat) (v : Nat) : (d.setF f i v).host = d.host := rfl
@[simp] theorem setF_flt (d : Dev) (f : Field) (i : List Nat) (v : Nat) : (d.setF f i v).flt = d.flt := rfl
@[simp] theorem setF_bank (d : Dev) (f : Field) (i : List Nat) (v : Nat) : (d.setF f i v).bank = d.bank := rfl
@[simp] theorem setF_eng (d : Dev) (f : Field) (i : List Nat) (v : Nat) : (d.setF f i v).eng = d.eng := rfl
@[simp] theorem setF_coll (d : Dev) (f : Field) (i : List Nat) (v : Nat) : (d.setF f i v).coll = d.coll := rfl
@[simp] theorem setF_net (d : Dev) (f : Field) (i : List Nat) (v : Nat) : (d.setF f i v).net = d.net := rfl
@[simp] theorem setF_tel (d : Dev) (f : Field) (i : List Nat) (v : Nat) : (d.setF f i v).tel = d.tel := rfl
@[simp] theorem setF_ln (d : Dev) (f : Field) (i : List Nat) (v : Nat) : (d.setF f i v).ln = d.ln := rfl
@[simp] theorem setF_opt (d : Dev) (f : Field) (i : List Nat) (v : Nat) : (d.setF f i v).opt = d.opt := rfl
@[simp] theorem setF_pwr (d : Dev) (f : Field) (i : List Nat) (v : Nat) : (d.setF f i v).pwr = d.pwr := rfl
@[simp] theorem setF_jtag (d : Dev) (f : Field) (i : List Nat) (v : Nat) : (d.setF f i v).jtag = d.jtag := rfl
@[simp] theorem setF_out (d : Dev) (f : Field) (i : List Nat) (v : Nat) : (d.setF f i v).out = d.out := rfl
@[simp] theorem setF_freeCtr (d : Dev) (f : Field) (i : List Nat) (v : Nat) : (d.setF f i v).freeCtr = d.freeCtr := rfl
@[simp] theorem raise_mem (d : Dev) (f : Field) (i : List Nat) : (d.raise f i).mem = d.mem := rfl
@[simp] theorem raise_clk (d : Dev) (f : Field) (i : List Nat) : (d.raise f i).clk = d.clk := rfl
@[simp] theorem raise_boot (d : Dev) (f : Field) (i : List Nat) : (d.raise f i).boot = d.boot := rfl
@[simp] theorem raise_rst (d : Dev) (f : Field) (i : List Nat) : (d.raise f i).rst = d.rst := rfl
@[simp] theorem raise_host (d : Dev) (f : Field) (i : List Nat) : (d.raise f i).host = d.host := rfl
@[simp] theorem raise_flt (d : Dev) (f : Field) (i : List Nat) : (d.raise f i).flt = d.flt := rfl
@[simp] theorem raise_bank (d : Dev) (f : Field) (i : List Nat) : (d.raise f i).bank = d.bank := rfl
@[simp] theorem raise_eng (d : Dev) (f : Field) (i : List Nat) : (d.raise f i).eng = d.eng := rfl
@[simp] theorem raise_coll (d : Dev) (f : Field) (i : List Nat) : (d.raise f i).coll = d.coll := rfl
@[simp] theorem raise_net (d : Dev) (f : Field) (i : List Nat) : (d.raise f i).net = d.net := rfl
@[simp] theorem raise_tel (d : Dev) (f : Field) (i : List Nat) : (d.raise f i).tel = d.tel := rfl
@[simp] theorem raise_ln (d : Dev) (f : Field) (i : List Nat) : (d.raise f i).ln = d.ln := rfl
@[simp] theorem raise_opt (d : Dev) (f : Field) (i : List Nat) : (d.raise f i).opt = d.opt := rfl
@[simp] theorem raise_pwr (d : Dev) (f : Field) (i : List Nat) : (d.raise f i).pwr = d.pwr := rfl
@[simp] theorem raise_jtag (d : Dev) (f : Field) (i : List Nat) : (d.raise f i).jtag = d.jtag := rfl
@[simp] theorem raise_out (d : Dev) (f : Field) (i : List Nat) : (d.raise f i).out = d.out := rfl
@[simp] theorem raise_freeCtr (d : Dev) (f : Field) (i : List Nat) : (d.raise f i).freeCtr = d.freeCtr := rfl
@[simp] theorem clear_mem (d : Dev) (f : Field) (i : List Nat) : (d.clear f i).mem = d.mem := rfl
@[simp] theorem clear_clk (d : Dev) (f : Field) (i : List Nat) : (d.clear f i).clk = d.clk := rfl
@[simp] theorem clear_boot (d : Dev) (f : Field) (i : List Nat) : (d.clear f i).boot = d.boot := rfl
@[simp] theorem clear_rst (d : Dev) (f : Field) (i : List Nat) : (d.clear f i).rst = d.rst := rfl
@[simp] theorem clear_host (d : Dev) (f : Field) (i : List Nat) : (d.clear f i).host = d.host := rfl
@[simp] theorem clear_flt (d : Dev) (f : Field) (i : List Nat) : (d.clear f i).flt = d.flt := rfl
@[simp] theorem clear_bank (d : Dev) (f : Field) (i : List Nat) : (d.clear f i).bank = d.bank := rfl
@[simp] theorem clear_eng (d : Dev) (f : Field) (i : List Nat) : (d.clear f i).eng = d.eng := rfl
@[simp] theorem clear_coll (d : Dev) (f : Field) (i : List Nat) : (d.clear f i).coll = d.coll := rfl
@[simp] theorem clear_net (d : Dev) (f : Field) (i : List Nat) : (d.clear f i).net = d.net := rfl
@[simp] theorem clear_tel (d : Dev) (f : Field) (i : List Nat) : (d.clear f i).tel = d.tel := rfl
@[simp] theorem clear_ln (d : Dev) (f : Field) (i : List Nat) : (d.clear f i).ln = d.ln := rfl
@[simp] theorem clear_opt (d : Dev) (f : Field) (i : List Nat) : (d.clear f i).opt = d.opt := rfl
@[simp] theorem clear_pwr (d : Dev) (f : Field) (i : List Nat) : (d.clear f i).pwr = d.pwr := rfl
@[simp] theorem clear_jtag (d : Dev) (f : Field) (i : List Nat) : (d.clear f i).jtag = d.jtag := rfl
@[simp] theorem clear_out (d : Dev) (f : Field) (i : List Nat) : (d.clear f i).out = d.out := rfl
@[simp] theorem clear_freeCtr (d : Dev) (f : Field) (i : List Nat) : (d.clear f i).freeCtr = d.freeCtr := rfl
@[simp] theorem setBitF_mem (d : Dev) (f : Field) (i : List Nat) (b : Nat) : (d.setBitF f i b).mem = d.mem := rfl
@[simp] theorem setBitF_clk (d : Dev) (f : Field) (i : List Nat) (b : Nat) : (d.setBitF f i b).clk = d.clk := rfl
@[simp] theorem setBitF_boot (d : Dev) (f : Field) (i : List Nat) (b : Nat) : (d.setBitF f i b).boot = d.boot := rfl
@[simp] theorem setBitF_rst (d : Dev) (f : Field) (i : List Nat) (b : Nat) : (d.setBitF f i b).rst = d.rst := rfl
@[simp] theorem setBitF_host (d : Dev) (f : Field) (i : List Nat) (b : Nat) : (d.setBitF f i b).host = d.host := rfl
@[simp] theorem setBitF_flt (d : Dev) (f : Field) (i : List Nat) (b : Nat) : (d.setBitF f i b).flt = d.flt := rfl
@[simp] theorem setBitF_bank (d : Dev) (f : Field) (i : List Nat) (b : Nat) : (d.setBitF f i b).bank = d.bank := rfl
@[simp] theorem setBitF_eng (d : Dev) (f : Field) (i : List Nat) (b : Nat) : (d.setBitF f i b).eng = d.eng := rfl
@[simp] theorem setBitF_coll (d : Dev) (f : Field) (i : List Nat) (b : Nat) : (d.setBitF f i b).coll = d.coll := rfl
@[simp] theorem setBitF_net (d : Dev) (f : Field) (i : List Nat) (b : Nat) : (d.setBitF f i b).net = d.net := rfl
@[simp] theorem setBitF_tel (d : Dev) (f : Field) (i : List Nat) (b : Nat) : (d.setBitF f i b).tel = d.tel := rfl
@[simp] theorem setBitF_ln (d : Dev) (f : Field) (i : List Nat) (b : Nat) : (d.setBitF f i b).ln = d.ln := rfl
@[simp] theorem setBitF_opt (d : Dev) (f : Field) (i : List Nat) (b : Nat) : (d.setBitF f i b).opt = d.opt := rfl
@[simp] theorem setBitF_pwr (d : Dev) (f : Field) (i : List Nat) (b : Nat) : (d.setBitF f i b).pwr = d.pwr := rfl
@[simp] theorem setBitF_jtag (d : Dev) (f : Field) (i : List Nat) (b : Nat) : (d.setBitF f i b).jtag = d.jtag := rfl
@[simp] theorem setBitF_out (d : Dev) (f : Field) (i : List Nat) (b : Nat) : (d.setBitF f i b).out = d.out := rfl
@[simp] theorem setBitF_freeCtr (d : Dev) (f : Field) (i : List Nat) (b : Nat) : (d.setBitF f i b).freeCtr = d.freeCtr := rfl
@[simp] theorem clrBitF_mem (d : Dev) (f : Field) (i : List Nat) (b : Nat) : (d.clrBitF f i b).mem = d.mem := rfl
@[simp] theorem clrBitF_clk (d : Dev) (f : Field) (i : List Nat) (b : Nat) : (d.clrBitF f i b).clk = d.clk := rfl
@[simp] theorem clrBitF_boot (d : Dev) (f : Field) (i : List Nat) (b : Nat) : (d.clrBitF f i b).boot = d.boot := rfl
@[simp] theorem clrBitF_rst (d : Dev) (f : Field) (i : List Nat) (b : Nat) : (d.clrBitF f i b).rst = d.rst := rfl
@[simp] theorem clrBitF_host (d : Dev) (f : Field) (i : List Nat) (b : Nat) : (d.clrBitF f i b).host = d.host := rfl
@[simp] theorem clrBitF_flt (d : Dev) (f : Field) (i : List Nat) (b : Nat) : (d.clrBitF f i b).flt = d.flt := rfl
@[simp] theorem clrBitF_bank (d : Dev) (f : Field) (i : List Nat) (b : Nat) : (d.clrBitF f i b).bank = d.bank := rfl
@[simp] theorem clrBitF_eng (d : Dev) (f : Field) (i : List Nat) (b : Nat) : (d.clrBitF f i b).eng = d.eng := rfl
@[simp] theorem clrBitF_coll (d : Dev) (f : Field) (i : List Nat) (b : Nat) : (d.clrBitF f i b).coll = d.coll := rfl
@[simp] theorem clrBitF_net (d : Dev) (f : Field) (i : List Nat) (b : Nat) : (d.clrBitF f i b).net = d.net := rfl
@[simp] theorem clrBitF_tel (d : Dev) (f : Field) (i : List Nat) (b : Nat) : (d.clrBitF f i b).tel = d.tel := rfl
@[simp] theorem clrBitF_ln (d : Dev) (f : Field) (i : List Nat) (b : Nat) : (d.clrBitF f i b).ln = d.ln := rfl
@[simp] theorem clrBitF_opt (d : Dev) (f : Field) (i : List Nat) (b : Nat) : (d.clrBitF f i b).opt = d.opt := rfl
@[simp] theorem clrBitF_pwr (d : Dev) (f : Field) (i : List Nat) (b : Nat) : (d.clrBitF f i b).pwr = d.pwr := rfl
@[simp] theorem clrBitF_jtag (d : Dev) (f : Field) (i : List Nat) (b : Nat) : (d.clrBitF f i b).jtag = d.jtag := rfl
@[simp] theorem clrBitF_out (d : Dev) (f : Field) (i : List Nat) (b : Nat) : (d.clrBitF f i b).out = d.out := rfl
@[simp] theorem clrBitF_freeCtr (d : Dev) (f : Field) (i : List Nat) (b : Nat) : (d.clrBitF f i b).freeCtr = d.freeCtr := rfl
@[simp] theorem addSat_mem (d : Dev) (f : Field) (i : List Nat) (n : Nat) : (d.addSat f i n).mem = d.mem := rfl
@[simp] theorem addSat_clk (d : Dev) (f : Field) (i : List Nat) (n : Nat) : (d.addSat f i n).clk = d.clk := rfl
@[simp] theorem addSat_boot (d : Dev) (f : Field) (i : List Nat) (n : Nat) : (d.addSat f i n).boot = d.boot := rfl
@[simp] theorem addSat_rst (d : Dev) (f : Field) (i : List Nat) (n : Nat) : (d.addSat f i n).rst = d.rst := rfl
@[simp] theorem addSat_host (d : Dev) (f : Field) (i : List Nat) (n : Nat) : (d.addSat f i n).host = d.host := rfl
@[simp] theorem addSat_flt (d : Dev) (f : Field) (i : List Nat) (n : Nat) : (d.addSat f i n).flt = d.flt := rfl
@[simp] theorem addSat_bank (d : Dev) (f : Field) (i : List Nat) (n : Nat) : (d.addSat f i n).bank = d.bank := rfl
@[simp] theorem addSat_eng (d : Dev) (f : Field) (i : List Nat) (n : Nat) : (d.addSat f i n).eng = d.eng := rfl
@[simp] theorem addSat_coll (d : Dev) (f : Field) (i : List Nat) (n : Nat) : (d.addSat f i n).coll = d.coll := rfl
@[simp] theorem addSat_net (d : Dev) (f : Field) (i : List Nat) (n : Nat) : (d.addSat f i n).net = d.net := rfl
@[simp] theorem addSat_tel (d : Dev) (f : Field) (i : List Nat) (n : Nat) : (d.addSat f i n).tel = d.tel := rfl
@[simp] theorem addSat_ln (d : Dev) (f : Field) (i : List Nat) (n : Nat) : (d.addSat f i n).ln = d.ln := rfl
@[simp] theorem addSat_opt (d : Dev) (f : Field) (i : List Nat) (n : Nat) : (d.addSat f i n).opt = d.opt := rfl
@[simp] theorem addSat_pwr (d : Dev) (f : Field) (i : List Nat) (n : Nat) : (d.addSat f i n).pwr = d.pwr := rfl
@[simp] theorem addSat_jtag (d : Dev) (f : Field) (i : List Nat) (n : Nat) : (d.addSat f i n).jtag = d.jtag := rfl
@[simp] theorem addSat_out (d : Dev) (f : Field) (i : List Nat) (n : Nat) : (d.addSat f i n).out = d.out := rfl
@[simp] theorem addSat_freeCtr (d : Dev) (f : Field) (i : List Nat) (n : Nat) : (d.addSat f i n).freeCtr = d.freeCtr := rfl
@[simp] theorem incSat_mem (d : Dev) (f : Field) (i : List Nat) : (d.incSat f i).mem = d.mem := rfl
@[simp] theorem incSat_clk (d : Dev) (f : Field) (i : List Nat) : (d.incSat f i).clk = d.clk := rfl
@[simp] theorem incSat_boot (d : Dev) (f : Field) (i : List Nat) : (d.incSat f i).boot = d.boot := rfl
@[simp] theorem incSat_rst (d : Dev) (f : Field) (i : List Nat) : (d.incSat f i).rst = d.rst := rfl
@[simp] theorem incSat_host (d : Dev) (f : Field) (i : List Nat) : (d.incSat f i).host = d.host := rfl
@[simp] theorem incSat_flt (d : Dev) (f : Field) (i : List Nat) : (d.incSat f i).flt = d.flt := rfl
@[simp] theorem incSat_bank (d : Dev) (f : Field) (i : List Nat) : (d.incSat f i).bank = d.bank := rfl
@[simp] theorem incSat_eng (d : Dev) (f : Field) (i : List Nat) : (d.incSat f i).eng = d.eng := rfl
@[simp] theorem incSat_coll (d : Dev) (f : Field) (i : List Nat) : (d.incSat f i).coll = d.coll := rfl
@[simp] theorem incSat_net (d : Dev) (f : Field) (i : List Nat) : (d.incSat f i).net = d.net := rfl
@[simp] theorem incSat_tel (d : Dev) (f : Field) (i : List Nat) : (d.incSat f i).tel = d.tel := rfl
@[simp] theorem incSat_ln (d : Dev) (f : Field) (i : List Nat) : (d.incSat f i).ln = d.ln := rfl
@[simp] theorem incSat_opt (d : Dev) (f : Field) (i : List Nat) : (d.incSat f i).opt = d.opt := rfl
@[simp] theorem incSat_pwr (d : Dev) (f : Field) (i : List Nat) : (d.incSat f i).pwr = d.pwr := rfl
@[simp] theorem incSat_jtag (d : Dev) (f : Field) (i : List Nat) : (d.incSat f i).jtag = d.jtag := rfl
@[simp] theorem incSat_out (d : Dev) (f : Field) (i : List Nat) : (d.incSat f i).out = d.out := rfl
@[simp] theorem incSat_freeCtr (d : Dev) (f : Field) (i : List Nat) : (d.incSat f i).freeCtr = d.freeCtr := rfl
@[simp] theorem addWrap_mem (d : Dev) (f : Field) (i : List Nat) (n : Nat) : (d.addWrap f i n).mem = d.mem := rfl
@[simp] theorem addWrap_clk (d : Dev) (f : Field) (i : List Nat) (n : Nat) : (d.addWrap f i n).clk = d.clk := rfl
@[simp] theorem addWrap_boot (d : Dev) (f : Field) (i : List Nat) (n : Nat) : (d.addWrap f i n).boot = d.boot := rfl
@[simp] theorem addWrap_rst (d : Dev) (f : Field) (i : List Nat) (n : Nat) : (d.addWrap f i n).rst = d.rst := rfl
@[simp] theorem addWrap_host (d : Dev) (f : Field) (i : List Nat) (n : Nat) : (d.addWrap f i n).host = d.host := rfl
@[simp] theorem addWrap_flt (d : Dev) (f : Field) (i : List Nat) (n : Nat) : (d.addWrap f i n).flt = d.flt := rfl
@[simp] theorem addWrap_bank (d : Dev) (f : Field) (i : List Nat) (n : Nat) : (d.addWrap f i n).bank = d.bank := rfl
@[simp] theorem addWrap_eng (d : Dev) (f : Field) (i : List Nat) (n : Nat) : (d.addWrap f i n).eng = d.eng := rfl
@[simp] theorem addWrap_coll (d : Dev) (f : Field) (i : List Nat) (n : Nat) : (d.addWrap f i n).coll = d.coll := rfl
@[simp] theorem addWrap_net (d : Dev) (f : Field) (i : List Nat) (n : Nat) : (d.addWrap f i n).net = d.net := rfl
@[simp] theorem addWrap_tel (d : Dev) (f : Field) (i : List Nat) (n : Nat) : (d.addWrap f i n).tel = d.tel := rfl
@[simp] theorem addWrap_ln (d : Dev) (f : Field) (i : List Nat) (n : Nat) : (d.addWrap f i n).ln = d.ln := rfl
@[simp] theorem addWrap_opt (d : Dev) (f : Field) (i : List Nat) (n : Nat) : (d.addWrap f i n).opt = d.opt := rfl
@[simp] theorem addWrap_pwr (d : Dev) (f : Field) (i : List Nat) (n : Nat) : (d.addWrap f i n).pwr = d.pwr := rfl
@[simp] theorem addWrap_jtag (d : Dev) (f : Field) (i : List Nat) (n : Nat) : (d.addWrap f i n).jtag = d.jtag := rfl
@[simp] theorem addWrap_out (d : Dev) (f : Field) (i : List Nat) (n : Nat) : (d.addWrap f i n).out = d.out := rfl
@[simp] theorem addWrap_freeCtr (d : Dev) (f : Field) (i : List Nat) (n : Nat) : (d.addWrap f i n).freeCtr = d.freeCtr := rfl
@[simp] theorem subF_mem (d : Dev) (f : Field) (i : List Nat) (n : Nat) : (d.subF f i n).mem = d.mem := rfl
@[simp] theorem subF_clk (d : Dev) (f : Field) (i : List Nat) (n : Nat) : (d.subF f i n).clk = d.clk := rfl
@[simp] theorem subF_boot (d : Dev) (f : Field) (i : List Nat) (n : Nat) : (d.subF f i n).boot = d.boot := rfl
@[simp] theorem subF_rst (d : Dev) (f : Field) (i : List Nat) (n : Nat) : (d.subF f i n).rst = d.rst := rfl
@[simp] theorem subF_host (d : Dev) (f : Field) (i : List Nat) (n : Nat) : (d.subF f i n).host = d.host := rfl
@[simp] theorem subF_flt (d : Dev) (f : Field) (i : List Nat) (n : Nat) : (d.subF f i n).flt = d.flt := rfl
@[simp] theorem subF_bank (d : Dev) (f : Field) (i : List Nat) (n : Nat) : (d.subF f i n).bank = d.bank := rfl
@[simp] theorem subF_eng (d : Dev) (f : Field) (i : List Nat) (n : Nat) : (d.subF f i n).eng = d.eng := rfl
@[simp] theorem subF_coll (d : Dev) (f : Field) (i : List Nat) (n : Nat) : (d.subF f i n).coll = d.coll := rfl
@[simp] theorem subF_net (d : Dev) (f : Field) (i : List Nat) (n : Nat) : (d.subF f i n).net = d.net := rfl
@[simp] theorem subF_tel (d : Dev) (f : Field) (i : List Nat) (n : Nat) : (d.subF f i n).tel = d.tel := rfl
@[simp] theorem subF_ln (d : Dev) (f : Field) (i : List Nat) (n : Nat) : (d.subF f i n).ln = d.ln := rfl
@[simp] theorem subF_opt (d : Dev) (f : Field) (i : List Nat) (n : Nat) : (d.subF f i n).opt = d.opt := rfl
@[simp] theorem subF_pwr (d : Dev) (f : Field) (i : List Nat) (n : Nat) : (d.subF f i n).pwr = d.pwr := rfl
@[simp] theorem subF_jtag (d : Dev) (f : Field) (i : List Nat) (n : Nat) : (d.subF f i n).jtag = d.jtag := rfl
@[simp] theorem subF_out (d : Dev) (f : Field) (i : List Nat) (n : Nat) : (d.subF f i n).out = d.out := rfl
@[simp] theorem subF_freeCtr (d : Dev) (f : Field) (i : List Nat) (n : Nat) : (d.subF f i n).freeCtr = d.freeCtr := rfl
@[simp] theorem resetRegs_mem (d : Dev) (p : RegKey → Bool) : (d.resetRegs p).mem = d.mem := rfl
@[simp] theorem resetRegs_clk (d : Dev) (p : RegKey → Bool) : (d.resetRegs p).clk = d.clk := rfl
@[simp] theorem resetRegs_boot (d : Dev) (p : RegKey → Bool) : (d.resetRegs p).boot = d.boot := rfl
@[simp] theorem resetRegs_rst (d : Dev) (p : RegKey → Bool) : (d.resetRegs p).rst = d.rst := rfl
@[simp] theorem resetRegs_host (d : Dev) (p : RegKey → Bool) : (d.resetRegs p).host = d.host := rfl
@[simp] theorem resetRegs_flt (d : Dev) (p : RegKey → Bool) : (d.resetRegs p).flt = d.flt := rfl
@[simp] theorem resetRegs_bank (d : Dev) (p : RegKey → Bool) : (d.resetRegs p).bank = d.bank := rfl
@[simp] theorem resetRegs_eng (d : Dev) (p : RegKey → Bool) : (d.resetRegs p).eng = d.eng := rfl
@[simp] theorem resetRegs_coll (d : Dev) (p : RegKey → Bool) : (d.resetRegs p).coll = d.coll := rfl
@[simp] theorem resetRegs_net (d : Dev) (p : RegKey → Bool) : (d.resetRegs p).net = d.net := rfl
@[simp] theorem resetRegs_tel (d : Dev) (p : RegKey → Bool) : (d.resetRegs p).tel = d.tel := rfl
@[simp] theorem resetRegs_ln (d : Dev) (p : RegKey → Bool) : (d.resetRegs p).ln = d.ln := rfl
@[simp] theorem resetRegs_opt (d : Dev) (p : RegKey → Bool) : (d.resetRegs p).opt = d.opt := rfl
@[simp] theorem resetRegs_pwr (d : Dev) (p : RegKey → Bool) : (d.resetRegs p).pwr = d.pwr := rfl
@[simp] theorem resetRegs_jtag (d : Dev) (p : RegKey → Bool) : (d.resetRegs p).jtag = d.jtag := rfl
@[simp] theorem resetRegs_out (d : Dev) (p : RegKey → Bool) : (d.resetRegs p).out = d.out := rfl
@[simp] theorem resetRegs_freeCtr (d : Dev) (p : RegKey → Bool) : (d.resetRegs p).freeCtr = d.freeCtr := rfl

/-! ## What leaves the device, and memory -/

@[simp] theorem emit_regs (d : Dev) (x : Out) : (d.emit x).regs = d.regs := rfl
@[simp] theorem addRec_regs (d : Dev) (g : Nat) (l : List Byte) (w : Option Nat) : (d.addRec g l w).regs = d.regs := rfl
@[simp] theorem write_regs (d : Dev) (a : Nat) (l : List Byte) : (d.write a l).regs = d.regs := rfl
@[simp] theorem loseMem_regs (d : Dev) (a b : Nat) : (d.loseMem a b).regs = d.regs := rfl
@[simp] theorem emit_mem (d : Dev) (x : Out) : (d.emit x).mem = d.mem := rfl
@[simp] theorem addRec_mem (d : Dev) (g : Nat) (l : List Byte) (w : Option Nat) : (d.addRec g l w).mem = d.mem := rfl
@[simp] theorem emit_clk (d : Dev) (x : Out) : (d.emit x).clk = d.clk := rfl
@[simp] theorem addRec_clk (d : Dev) (g : Nat) (l : List Byte) (w : Option Nat) : (d.addRec g l w).clk = d.clk := rfl
@[simp] theorem write_clk (d : Dev) (a : Nat) (l : List Byte) : (d.write a l).clk = d.clk := rfl
@[simp] theorem loseMem_clk (d : Dev) (a b : Nat) : (d.loseMem a b).clk = d.clk := rfl
@[simp] theorem emit_boot (d : Dev) (x : Out) : (d.emit x).boot = d.boot := rfl
@[simp] theorem addRec_boot (d : Dev) (g : Nat) (l : List Byte) (w : Option Nat) : (d.addRec g l w).boot = d.boot := rfl
@[simp] theorem write_boot (d : Dev) (a : Nat) (l : List Byte) : (d.write a l).boot = d.boot := rfl
@[simp] theorem loseMem_boot (d : Dev) (a b : Nat) : (d.loseMem a b).boot = d.boot := rfl
@[simp] theorem emit_rst (d : Dev) (x : Out) : (d.emit x).rst = d.rst := rfl
@[simp] theorem addRec_rst (d : Dev) (g : Nat) (l : List Byte) (w : Option Nat) : (d.addRec g l w).rst = d.rst := rfl
@[simp] theorem write_rst (d : Dev) (a : Nat) (l : List Byte) : (d.write a l).rst = d.rst := rfl
@[simp] theorem loseMem_rst (d : Dev) (a b : Nat) : (d.loseMem a b).rst = d.rst := rfl
@[simp] theorem emit_host (d : Dev) (x : Out) : (d.emit x).host = d.host := rfl
@[simp] theorem write_host (d : Dev) (a : Nat) (l : List Byte) : (d.write a l).host = d.host := rfl
@[simp] theorem loseMem_host (d : Dev) (a b : Nat) : (d.loseMem a b).host = d.host := rfl
@[simp] theorem emit_flt (d : Dev) (x : Out) : (d.emit x).flt = d.flt := rfl
@[simp] theorem addRec_flt (d : Dev) (g : Nat) (l : List Byte) (w : Option Nat) : (d.addRec g l w).flt = d.flt := rfl
@[simp] theorem write_flt (d : Dev) (a : Nat) (l : List Byte) : (d.write a l).flt = d.flt := rfl
@[simp] theorem loseMem_flt (d : Dev) (a b : Nat) : (d.loseMem a b).flt = d.flt := rfl
@[simp] theorem emit_bank (d : Dev) (x : Out) : (d.emit x).bank = d.bank := rfl
@[simp] theorem addRec_bank (d : Dev) (g : Nat) (l : List Byte) (w : Option Nat) : (d.addRec g l w).bank = d.bank := rfl
@[simp] theorem emit_eng (d : Dev) (x : Out) : (d.emit x).eng = d.eng := rfl
@[simp] theorem addRec_eng (d : Dev) (g : Nat) (l : List Byte) (w : Option Nat) : (d.addRec g l w).eng = d.eng := rfl
@[simp] theorem write_eng (d : Dev) (a : Nat) (l : List Byte) : (d.write a l).eng = d.eng := rfl
@[simp] theorem loseMem_eng (d : Dev) (a b : Nat) : (d.loseMem a b).eng = d.eng := rfl
@[simp] theorem emit_coll (d : Dev) (x : Out) : (d.emit x).coll = d.coll := rfl
@[simp] theorem addRec_coll (d : Dev) (g : Nat) (l : List Byte) (w : Option Nat) : (d.addRec g l w).coll = d.coll := rfl
@[simp] theorem write_coll (d : Dev) (a : Nat) (l : List Byte) : (d.write a l).coll = d.coll := rfl
@[simp] theorem loseMem_coll (d : Dev) (a b : Nat) : (d.loseMem a b).coll = d.coll := rfl
@[simp] theorem emit_net (d : Dev) (x : Out) : (d.emit x).net = d.net := rfl
@[simp] theorem addRec_net (d : Dev) (g : Nat) (l : List Byte) (w : Option Nat) : (d.addRec g l w).net = d.net := rfl
@[simp] theorem write_net (d : Dev) (a : Nat) (l : List Byte) : (d.write a l).net = d.net := rfl
@[simp] theorem loseMem_net (d : Dev) (a b : Nat) : (d.loseMem a b).net = d.net := rfl
@[simp] theorem emit_tel (d : Dev) (x : Out) : (d.emit x).tel = d.tel := rfl
@[simp] theorem addRec_tel (d : Dev) (g : Nat) (l : List Byte) (w : Option Nat) : (d.addRec g l w).tel = d.tel := rfl
@[simp] theorem write_tel (d : Dev) (a : Nat) (l : List Byte) : (d.write a l).tel = d.tel := rfl
@[simp] theorem loseMem_tel (d : Dev) (a b : Nat) : (d.loseMem a b).tel = d.tel := rfl
@[simp] theorem emit_ln (d : Dev) (x : Out) : (d.emit x).ln = d.ln := rfl
@[simp] theorem addRec_ln (d : Dev) (g : Nat) (l : List Byte) (w : Option Nat) : (d.addRec g l w).ln = d.ln := rfl
@[simp] theorem write_ln (d : Dev) (a : Nat) (l : List Byte) : (d.write a l).ln = d.ln := rfl
@[simp] theorem loseMem_ln (d : Dev) (a b : Nat) : (d.loseMem a b).ln = d.ln := rfl
@[simp] theorem emit_opt (d : Dev) (x : Out) : (d.emit x).opt = d.opt := rfl
@[simp] theorem addRec_opt (d : Dev) (g : Nat) (l : List Byte) (w : Option Nat) : (d.addRec g l w).opt = d.opt := rfl
@[simp] theorem write_opt (d : Dev) (a : Nat) (l : List Byte) : (d.write a l).opt = d.opt := rfl
@[simp] theorem loseMem_opt (d : Dev) (a b : Nat) : (d.loseMem a b).opt = d.opt := rfl
@[simp] theorem emit_pwr (d : Dev) (x : Out) : (d.emit x).pwr = d.pwr := rfl
@[simp] theorem addRec_pwr (d : Dev) (g : Nat) (l : List Byte) (w : Option Nat) : (d.addRec g l w).pwr = d.pwr := rfl
@[simp] theorem write_pwr (d : Dev) (a : Nat) (l : List Byte) : (d.write a l).pwr = d.pwr := rfl
@[simp] theorem loseMem_pwr (d : Dev) (a b : Nat) : (d.loseMem a b).pwr = d.pwr := rfl
@[simp] theorem emit_jtag (d : Dev) (x : Out) : (d.emit x).jtag = d.jtag := rfl
@[simp] theorem addRec_jtag (d : Dev) (g : Nat) (l : List Byte) (w : Option Nat) : (d.addRec g l w).jtag = d.jtag := rfl
@[simp] theorem write_jtag (d : Dev) (a : Nat) (l : List Byte) : (d.write a l).jtag = d.jtag := rfl
@[simp] theorem loseMem_jtag (d : Dev) (a b : Nat) : (d.loseMem a b).jtag = d.jtag := rfl
@[simp] theorem addRec_out (d : Dev) (g : Nat) (l : List Byte) (w : Option Nat) : (d.addRec g l w).out = d.out := rfl
@[simp] theorem write_out (d : Dev) (a : Nat) (l : List Byte) : (d.write a l).out = d.out := rfl
@[simp] theorem loseMem_out (d : Dev) (a b : Nat) : (d.loseMem a b).out = d.out := rfl
@[simp] theorem emit_freeCtr (d : Dev) (x : Out) : (d.emit x).freeCtr = d.freeCtr := rfl
@[simp] theorem addRec_freeCtr (d : Dev) (g : Nat) (l : List Byte) (w : Option Nat) : (d.addRec g l w).freeCtr = d.freeCtr := rfl
@[simp] theorem write_freeCtr (d : Dev) (a : Nat) (l : List Byte) : (d.write a l).freeCtr = d.freeCtr := rfl
@[simp] theorem loseMem_freeCtr (d : Dev) (a b : Nat) : (d.loseMem a b).freeCtr = d.freeCtr := rfl

end Sys2Proof.Machine
end

