-- ==== Sys2Proof/Laws/Word.lean ====
section
/-!
SUPPORT. Bits of numbers: setting, clearing and cutting to a width; and bytes of numbers.
-/
namespace Sys2Proof

theorem bit_eq_testBit (n i : Nat) : bit n i = n.testBit i := by
  simp only [bit, Nat.testBit_eq_decide_div_mod_eq]
  by_cases h : n / 2 ^ i % 2 = 1 <;> simp [h]

theorem bit_mod {i w : Nat} (n : Nat) (h : i < w) : bit (n % 2 ^ w) i = bit n i := by
  simp [bit_eq_testBit, Nat.testBit_mod_two_pow, h]

theorem add_eq_or (n m : Nat) (h : n &&& m = 0) : n + m = n ||| m := by
  have hw : n + m < 2 ^ (n + m) := Nat.lt_two_pow_self
  have hn : n < 2 ^ (n + m) := by omega
  have hm : m < 2 ^ (n + m) := by omega
  have e := BitVec.add_eq_or_of_and_eq_zero (BitVec.ofNat (n + m) n) (BitVec.ofNat (n + m) m) (by
    apply BitVec.eq_of_toNat_eq
    simp [Nat.mod_eq_of_lt hn, Nat.mod_eq_of_lt hm, h])
  have t := congrArg BitVec.toNat e
  simpa [Nat.mod_eq_of_lt hn, Nat.mod_eq_of_lt hm, Nat.mod_eq_of_lt hw] using t

theorem setBit_eq_lor (n i : Nat) : setBit n i = n ||| 2 ^ i := by
  unfold setBit
  split_ifs with h
  · rw [bit_eq_testBit] at h
    apply Nat.eq_of_testBit_eq
    intro j
    simp only [Nat.testBit_or, Nat.testBit_two_pow]
    by_cases hj : i = j
    · subst hj; simp [h]
    · simp [hj]
  · rw [bit_eq_testBit] at h
    apply Nat.eq_of_testBit_eq
    intro j
    rw [Nat.testBit_or, Nat.testBit_two_pow]
    by_cases hj : i = j
    · subst hj
      rw [Nat.add_comm, Nat.testBit_two_pow_add_eq]
      simp [h]
    · have key : n + 2 ^ i = n ||| 2 ^ i := by
        have h0 : n &&& 2 ^ i = 0 := by
          apply Nat.eq_of_testBit_eq
          intro k
          simp only [Nat.testBit_and, Nat.testBit_two_pow, Nat.zero_testBit]
          by_cases hk : i = k
          · subst hk; simp [h]
          · simp [hk]
        have := add_eq_or n (2 ^ i) h0
        exact this
      rw [key, Nat.testBit_or, Nat.testBit_two_pow]

theorem bit_setBit (n i j : Nat) : bit (setBit n i) j = (bit n j || decide (i = j)) := by
  simp [setBit_eq_lor, bit_eq_testBit, Nat.testBit_or, Nat.testBit_two_pow]

theorem bit_clrBit (n i j : Nat) : bit (clrBit n i) j = (bit n j && !decide (i = j)) := by
  unfold clrBit
  split_ifs with h
  · have hs : n = setBit (n - 2 ^ i) i := by
      have hle : 2 ^ i ≤ n := by
        rw [bit_eq_testBit] at h; exact Nat.ge_two_pow_of_testBit h
      have hb : bit (n - 2 ^ i) i = false := by
        rw [bit_eq_testBit] at h ⊢
        have : (n - 2 ^ i + 2 ^ i) = n := Nat.sub_add_cancel hle
        have h2 := Nat.testBit_two_pow_add_eq (n - 2 ^ i) i
        rw [Nat.add_comm, this, h] at h2
        simpa using h2
      unfold setBit
      rw [if_neg (by simp [hb])]
      omega
    have hb : bit (n - 2 ^ i) i = false := by
      rw [bit_eq_testBit] at h ⊢
      have hle : 2 ^ i ≤ n := Nat.ge_two_pow_of_testBit h
      have : (n - 2 ^ i + 2 ^ i) = n := Nat.sub_add_cancel hle
      have h2 := Nat.testBit_two_pow_add_eq (n - 2 ^ i) i
      rw [Nat.add_comm, this, h] at h2
      simpa using h2
    by_cases hj : i = j
    · subst hj; simp [hb]
    · have := bit_setBit (n - 2 ^ i) i j
      rw [← hs] at this
      simp [hj] at this ⊢
      exact this.symm
  · by_cases hj : i = j
    · subst hj; simpa using h
    · simp [hj]

@[simp] theorem length_leBytes (k n : Nat) : (leBytes k n).length = k := by
  induction k generalizing n with
  | zero => rfl
  | succ k ih => simp [leBytes, ih]

/-- A number's bytes spell it again, as far as they reach. -/
theorem ofLE_leBytes (k n : Nat) : ofLE (leBytes k n) = n % 256 ^ k := by
  induction k generalizing n with
  | zero => simp [leBytes, ofLE, Nat.mod_one]
  | succ k ih =>
    rw [leBytes, ofLE, ih, BitVec.toNat_ofNat, show 256 ^ (k + 1) = 256 * 256 ^ k from Nat.pow_succ', Nat.mod_mul]
    simp

/-- The bytes behind a list, read behind it. -/
theorem leAt_append (l m : List Byte) (k : Nat) : leAt (l ++ m) l.length k = leAt m 0 k := by
  simp [leAt, takeAt]

theorem leAt_leBytes (k n : Nat) : leAt (leBytes k n) 0 k = n % 256 ^ k := by
  rw [leAt, takeAt, List.drop_zero, List.take_of_length_le (by simp), ofLE_leBytes]

end Sys2Proof
end

