-- ==== Sys2Proof/Laws/Ops.lean ====
section
/-!
SUPPORT. What the register operations do: the field written takes the value, every other field keeps its own. Two fields are the
same when their register and lowest bit are.
-/
namespace Sys2Proof.Machine

/-- A field of another register, or at another place. -/
def fieldNe (f g : Field) : Bool := !(f.reg == g.reg && f.lo == g.lo)

@[simp] theorem getF_setF_same (d : Dev) (f : Field) (i : List Nat) (v : Nat) : (d.setF f i v).getF f i = v % 2 ^ f.w :=
  tget_tput_same _ _ _ _ _

theorem getF_setF_key (d : Dev) (f g : Field) (i j : List Nat) (v : Nat) (h : ¬(f.reg = g.reg ∧ f.lo = g.lo ∧ i = j)) :
    (d.setF f i v).getF g j = d.getF g j :=
  tget_tput_ne _ _ _ (fun e => h (by simpa using e)) _ _

theorem getF_setF_ne (d : Dev) (f g : Field) (i j : List Nat) (v : Nat) (h : fieldNe f g = true) :
    (d.setF f i v).getF g j = d.getF g j :=
  getF_setF_key d f g i j v (fun e => by simp [fieldNe, e.1, e.2.1] at h)

theorem getF_setF_idx (d : Dev) (f : Field) (i j : List Nat) (v : Nat) (h : i ≠ j) : (d.setF f i v).getF f j = d.getF f j :=
  getF_setF_key d f f i j v (fun e => h e.2.2)

/-- A one-bit field that has just been set reads 1. -/
theorem flag_raise (d : Dev) (f : Field) (i : List Nat) (h : f.w = 1) : (d.raise f i).flag f i = true := by
  simp [Dev.flag, Dev.raise, h]

/-- A field that has just been cleared reads 0. -/
theorem flag_clear (d : Dev) (f : Field) (i : List Nat) : (d.clear f i).flag f i = false := by
  simp [Dev.flag, Dev.clear]

/-- Bit `j` of a field after bit `b` is set. -/
theorem bitF_setBitF (d : Dev) (f : Field) (i : List Nat) (b j : Nat) (hj : j < f.w) :
    (d.setBitF f i b).bitF f i j = (d.bitF f i j || decide (b = j)) := by
  simp [Dev.bitF, Dev.setBitF, bit_mod _ hj, bit_setBit]

/-- Bit `j` of a field after bit `b` is cleared. -/
theorem bitF_clrBitF (d : Dev) (f : Field) (i : List Nat) (b j : Nat) (hj : j < f.w) :
    (d.clrBitF f i b).bitF f i j = (d.bitF f i j && !decide (b = j)) := by
  simp [Dev.bitF, Dev.clrBitF, bit_mod _ hj, bit_clrBit]

/-- A bit of another field. -/
theorem bitF_setF_ne (d : Dev) (f g : Field) (i j : List Nat) (v b : Nat) (h : fieldNe f g = true) :
    (d.setF f i v).bitF g j b = d.bitF g j b := by
  simp [Dev.bitF, getF_setF_ne d f g i j v h]

end Sys2Proof.Machine
end

