-- ==== Sys2Proof/Laws/Flags.lean ====
section
/-!
SUPPORT. What the shared reports do: a timing-dependent choice, a fault source, an MSI-X message. Each writes only its own
registers, and leaves memory, clocks and every engine alone.
-/
namespace Sys2Proof.Machine

/-- A register that a fault report may write. -/
def faultReg (r : RegName) : Bool :=
  r == .FLT_STAT || r == .FLT_MERGED || r == .MST_FAULT_STAT || r == .MST_FAULT_TIME || r == .MST_SNAP_MISSED

/-- A register that a timing-dependent choice may write. -/
def tdcReg (r : RegName) : Bool :=
  r == .MST_TDC_TOTAL || r == .MST_TDC_CNT || r == .MST_DET_STAT || r == .MST_TDC_FIRST || r == .MST_TDC_FIRST_SRC

theorem getF_setF_reg (d : Dev) (f g : Field) (i j : List Nat) (v : Nat) (h : f.reg ≠ g.reg) : (d.setF f i v).getF g j = d.getF g j :=
  getF_setF_key d f g i j v (fun e => h e.1)

theorem raise_getF_reg (d : Dev) (f g : Field) (i j : List Nat) (h : f.reg ≠ g.reg) : (d.raise f i).getF g j = d.getF g j :=
  getF_setF_reg d f g i j 1 h

theorem incSat_getF_reg (d : Dev) (f g : Field) (i j : List Nat) (h : f.reg ≠ g.reg) : (d.incSat f i).getF g j = d.getF g j :=
  getF_setF_reg d f g i j _ h

theorem setBitF_getF_reg (d : Dev) (f g : Field) (i j : List Nat) (b : Nat) (h : f.reg ≠ g.reg) : (d.setBitF f i b).getF g j = d.getF g j :=
  getF_setF_reg d f g i j _ h

/-! ## sendMsix -/

@[simp] theorem sendMsix_regs (d : Dev) (x f v : Nat) : (d.sendMsix x f v).regs = d.regs := by
  unfold Dev.sendMsix; split_ifs <;> rfl

@[simp] theorem sendMsix_getF (d : Dev) (x f v : Nat) (g : Field) (i : List Nat) : (d.sendMsix x f v).getF g i = d.getF g i := by
  simp [Dev.getF]

@[simp] theorem sendMsix_mem (d : Dev) (x f v : Nat) : (d.sendMsix x f v).mem = d.mem := by
  unfold Dev.sendMsix; split_ifs <;> rfl

@[simp] theorem sendMsix_clk (d : Dev) (x f v : Nat) : (d.sendMsix x f v).clk = d.clk := by
  unfold Dev.sendMsix; split_ifs <;> rfl

@[simp] theorem sendMsix_boot (d : Dev) (x f v : Nat) : (d.sendMsix x f v).boot = d.boot := by
  unfold Dev.sendMsix; split_ifs <;> rfl

@[simp] theorem sendMsix_rst (d : Dev) (x f v : Nat) : (d.sendMsix x f v).rst = d.rst := by
  unfold Dev.sendMsix; split_ifs <;> rfl

@[simp] theorem sendMsix_flt (d : Dev) (x f v : Nat) : (d.sendMsix x f v).flt = d.flt := by
  unfold Dev.sendMsix; split_ifs <;> rfl

@[simp] theorem sendMsix_bank (d : Dev) (x f v : Nat) : (d.sendMsix x f v).bank = d.bank := by
  unfold Dev.sendMsix; split_ifs <;> rfl

@[simp] theorem sendMsix_eng (d : Dev) (x f v : Nat) : (d.sendMsix x f v).eng = d.eng := by
  unfold Dev.sendMsix; split_ifs <;> rfl

@[simp] theorem sendMsix_coll (d : Dev) (x f v : Nat) : (d.sendMsix x f v).coll = d.coll := by
  unfold Dev.sendMsix; split_ifs <;> rfl

@[simp] theorem sendMsix_net (d : Dev) (x f v : Nat) : (d.sendMsix x f v).net = d.net := by
  unfold Dev.sendMsix; split_ifs <;> rfl

@[simp] theorem sendMsix_tel (d : Dev) (x f v : Nat) : (d.sendMsix x f v).tel = d.tel := by
  unfold Dev.sendMsix; split_ifs <;> rfl

@[simp] theorem sendMsix_ln (d : Dev) (x f v : Nat) : (d.sendMsix x f v).ln = d.ln := by
  unfold Dev.sendMsix; split_ifs <;> rfl

@[simp] theorem sendMsix_opt (d : Dev) (x f v : Nat) : (d.sendMsix x f v).opt = d.opt := by
  unfold Dev.sendMsix; split_ifs <;> rfl

@[simp] theorem sendMsix_pwr (d : Dev) (x f v : Nat) : (d.sendMsix x f v).pwr = d.pwr := by
  unfold Dev.sendMsix; split_ifs <;> rfl

@[simp] theorem sendMsix_jtag (d : Dev) (x f v : Nat) : (d.sendMsix x f v).jtag = d.jtag := by
  unfold Dev.sendMsix; split_ifs <;> rfl

@[simp] theorem sendMsix_freeCtr (d : Dev) (x f v : Nat) : (d.sendMsix x f v).freeCtr = d.freeCtr := by
  unfold Dev.sendMsix; split_ifs <;> rfl

/-! ## snapTrigger and fatalRise -/

theorem snapTrigger_getF (d : Dev) (g : Field) (i : List Nat) (h : faultReg g.reg = false) : d.snapTrigger.getF g i = d.getF g i := by
  unfold Dev.snapTrigger
  split_ifs
  · rfl
  · exact incSat_getF_reg d _ g _ i (by rintro e; simp [← e, faultReg, F.MST_SNAP_MISSED_COUNT] at h)
  · rfl

@[simp] theorem snapTrigger_mem (d : Dev) : (d.snapTrigger).mem = d.mem := by
  unfold Dev.snapTrigger; split_ifs <;> rfl

@[simp] theorem snapTrigger_clk (d : Dev) : (d.snapTrigger).clk = d.clk := by
  unfold Dev.snapTrigger; split_ifs <;> rfl

@[simp] theorem snapTrigger_boot (d : Dev) : (d.snapTrigger).boot = d.boot := by
  unfold Dev.snapTrigger; split_ifs <;> rfl

@[simp] theorem snapTrigger_rst (d : Dev) : (d.snapTrigger).rst = d.rst := by
  unfold Dev.snapTrigger; split_ifs <;> rfl

@[simp] theorem snapTrigger_flt (d : Dev) : (d.snapTrigger).flt = d.flt := by
  unfold Dev.snapTrigger; split_ifs <;> rfl

@[simp] theorem snapTrigger_host (d : Dev) : (d.snapTrigger).host = d.host := by
  unfold Dev.snapTrigger; split_ifs <;> rfl

@[simp] theorem snapTrigger_bank (d : Dev) : (d.snapTrigger).bank = d.bank := by
  unfold Dev.snapTrigger; split_ifs <;> rfl

@[simp] theorem snapTrigger_eng (d : Dev) : (d.snapTrigger).eng = d.eng := by
  unfold Dev.snapTrigger; split_ifs <;> rfl

@[simp] theorem snapTrigger_coll (d : Dev) : (d.snapTrigger).coll = d.coll := by
  unfold Dev.snapTrigger; split_ifs <;> rfl

@[simp] theorem snapTrigger_net (d : Dev) : (d.snapTrigger).net = d.net := by
  unfold Dev.snapTrigger; split_ifs <;> rfl

@[simp] theorem snapTrigger_ln (d : Dev) : (d.snapTrigger).ln = d.ln := by
  unfold Dev.snapTrigger; split_ifs <;> rfl

@[simp] theorem snapTrigger_opt (d : Dev) : (d.snapTrigger).opt = d.opt := by
  unfold Dev.snapTrigger; split_ifs <;> rfl

@[simp] theorem snapTrigger_pwr (d : Dev) : (d.snapTrigger).pwr = d.pwr := by
  unfold Dev.snapTrigger; split_ifs <;> rfl

@[simp] theorem snapTrigger_jtag (d : Dev) : (d.snapTrigger).jtag = d.jtag := by
  unfold Dev.snapTrigger; split_ifs <;> rfl

@[simp] theorem snapTrigger_out (d : Dev) : (d.snapTrigger).out = d.out := by
  unfold Dev.snapTrigger; split_ifs <;> rfl

@[simp] theorem snapTrigger_freeCtr (d : Dev) : (d.snapTrigger).freeCtr = d.freeCtr := by
  unfold Dev.snapTrigger; split_ifs <;> rfl

theorem fatalRise_getF (d : Dev) (n : DieNo) (g : Field) (i : List Nat) (h : faultReg g.reg = false) : (d.fatalRise n).getF g i = d.getF g i := by
  have h1 : RegName.MST_FAULT_STAT ≠ g.reg := by rintro e; simp [← e, faultReg] at h
  have h2 : RegName.MST_FAULT_TIME ≠ g.reg := by rintro e; simp [← e, faultReg] at h
  unfold Dev.fatalRise
  dsimp only
  split_ifs
  · rfl
  · rw [snapTrigger_getF _ _ _ h]
    simp only [Dev.faultPin]
    rw [getF_setF_reg _ _ _ _ _ _ (by exact h1), getF_mk, getF_setF_reg _ _ _ _ _ _ (by exact h2), getF_setF_reg _ _ _ _ _ _ (by exact h1),
      raise_getF_reg _ _ _ _ _ (by exact h1)]
  · simp only [Dev.faultPin]
    rw [getF_setF_reg _ _ _ _ _ _ (by exact h1), getF_mk, getF_setF_reg _ _ _ _ _ _ (by exact h2), getF_setF_reg _ _ _ _ _ _ (by exact h1),
      raise_getF_reg _ _ _ _ _ (by exact h1)]

@[simp] theorem fatalRise_mem (d : Dev) (n : DieNo) : (d.fatalRise n).mem = d.mem := by
  unfold Dev.fatalRise; dsimp only; split_ifs <;> simp [Dev.faultPin]

@[simp] theorem fatalRise_clk (d : Dev) (n : DieNo) : (d.fatalRise n).clk = d.clk := by
  unfold Dev.fatalRise; dsimp only; split_ifs <;> simp [Dev.faultPin]

@[simp] theorem fatalRise_boot (d : Dev) (n : DieNo) : (d.fatalRise n).boot = d.boot := by
  unfold Dev.fatalRise; dsimp only; split_ifs <;> simp [Dev.faultPin]

@[simp] theorem fatalRise_rst (d : Dev) (n : DieNo) : (d.fatalRise n).rst = d.rst := by
  unfold Dev.fatalRise; dsimp only; split_ifs <;> simp [Dev.faultPin]

@[simp] theorem fatalRise_host (d : Dev) (n : DieNo) : (d.fatalRise n).host = d.host := by
  unfold Dev.fatalRise; dsimp only; split_ifs <;> simp [Dev.faultPin]

@[simp] theorem fatalRise_bank (d : Dev) (n : DieNo) : (d.fatalRise n).bank = d.bank := by
  unfold Dev.fatalRise; dsimp only; split_ifs <;> simp [Dev.faultPin]

@[simp] theorem fatalRise_eng (d : Dev) (n : DieNo) : (d.fatalRise n).eng = d.eng := by
  unfold Dev.fatalRise; dsimp only; split_ifs <;> simp [Dev.faultPin]

@[simp] theorem fatalRise_coll (d : Dev) (n : DieNo) : (d.fatalRise n).coll = d.coll := by
  unfold Dev.fatalRise; dsimp only; split_ifs <;> simp [Dev.faultPin]

@[simp] theorem fatalRise_net (d : Dev) (n : DieNo) : (d.fatalRise n).net = d.net := by
  unfold Dev.fatalRise; dsimp only; split_ifs <;> simp [Dev.faultPin]

@[simp] theorem fatalRise_ln (d : Dev) (n : DieNo) : (d.fatalRise n).ln = d.ln := by
  unfold Dev.fatalRise; dsimp only; split_ifs <;> simp [Dev.faultPin]

@[simp] theorem fatalRise_opt (d : Dev) (n : DieNo) : (d.fatalRise n).opt = d.opt := by
  unfold Dev.fatalRise; dsimp only; split_ifs <;> simp [Dev.faultPin]

@[simp] theorem fatalRise_pwr (d : Dev) (n : DieNo) : (d.fatalRise n).pwr = d.pwr := by
  unfold Dev.fatalRise; dsimp only; split_ifs <;> simp [Dev.faultPin]

@[simp] theorem fatalRise_jtag (d : Dev) (n : DieNo) : (d.fatalRise n).jtag = d.jtag := by
  unfold Dev.fatalRise; dsimp only; split_ifs <;> simp [Dev.faultPin]

@[simp] theorem fatalRise_out (d : Dev) (n : DieNo) : (d.fatalRise n).out = d.out := by
  unfold Dev.fatalRise; dsimp only; split_ifs <;> simp [Dev.faultPin]

@[simp] theorem fatalRise_freeCtr (d : Dev) (n : DieNo) : (d.fatalRise n).freeCtr = d.freeCtr := by
  unfold Dev.fatalRise; dsimp only; split_ifs <;> simp [Dev.faultPin]

/-! ## fault -/

/-- A fault report writes only its own registers. -/
theorem fault_getF (d : Dev) (n : DieNo) (s : FSrc) (g : Field) (i : List Nat) (h : faultReg g.reg = false) : (d.fault n s).getF g i = d.getF g i := by
  have h1 : F.FLT_STAT_SRC.reg ≠ g.reg := by rintro e; simp [← e, faultReg, F.FLT_STAT_SRC] at h
  have h2 : F.FLT_MERGED_COUNT.reg ≠ g.reg := by rintro e; simp [← e, faultReg, F.FLT_MERGED_COUNT] at h
  unfold Dev.fault Dev.faultBit
  split_ifs
  · exact incSat_getF_reg d _ g _ i h2
  · dsimp only
    split_ifs <;> simp [fatalRise_getF _ _ _ _ h, setBitF_getF_reg _ _ _ _ _ _ h1]

/-- A flag outside the fault registers reads the same after a report. -/
theorem fault_flag (d : Dev) (n : DieNo) (s : FSrc) (g : Field) (i : List Nat) (h : faultReg g.reg = false) : (d.fault n s).flag g i = d.flag g i := by
  simp [Dev.flag, fault_getF d n s g i h]

@[simp] theorem fault_mem (d : Dev) (n : DieNo) (s : FSrc) : (d.fault n s).mem = d.mem := by
  unfold Dev.fault Dev.faultBit; dsimp only; split_ifs <;> simp

@[simp] theorem fault_clk (d : Dev) (n : DieNo) (s : FSrc) : (d.fault n s).clk = d.clk := by
  unfold Dev.fault Dev.faultBit; dsimp only; split_ifs <;> simp

@[simp] theorem fault_boot (d : Dev) (n : DieNo) (s : FSrc) : (d.fault n s).boot = d.boot := by
  unfold Dev.fault Dev.faultBit; dsimp only; split_ifs <;> simp

@[simp] theorem fault_rst (d : Dev) (n : DieNo) (s : FSrc) : (d.fault n s).rst = d.rst := by
  unfold Dev.fault Dev.faultBit; dsimp only; split_ifs <;> simp

@[simp] theorem fault_bank (d : Dev) (n : DieNo) (s : FSrc) : (d.fault n s).bank = d.bank := by
  unfold Dev.fault Dev.faultBit; dsimp only; split_ifs <;> simp

@[simp] theorem fault_eng (d : Dev) (n : DieNo) (s : FSrc) : (d.fault n s).eng = d.eng := by
  unfold Dev.fault Dev.faultBit; dsimp only; split_ifs <;> simp

@[simp] theorem fault_coll (d : Dev) (n : DieNo) (s : FSrc) : (d.fault n s).coll = d.coll := by
  unfold Dev.fault Dev.faultBit; dsimp only; split_ifs <;> simp

@[simp] theorem fault_net (d : Dev) (n : DieNo) (s : FSrc) : (d.fault n s).net = d.net := by
  unfold Dev.fault Dev.faultBit; dsimp only; split_ifs <;> simp

@[simp] theorem fault_ln (d : Dev) (n : DieNo) (s : FSrc) : (d.fault n s).ln = d.ln := by
  unfold Dev.fault Dev.faultBit; dsimp only; split_ifs <;> simp

@[simp] theorem fault_opt (d : Dev) (n : DieNo) (s : FSrc) : (d.fault n s).opt = d.opt := by
  unfold Dev.fault Dev.faultBit; dsimp only; split_ifs <;> simp

@[simp] theorem fault_pwr (d : Dev) (n : DieNo) (s : FSrc) : (d.fault n s).pwr = d.pwr := by
  unfold Dev.fault Dev.faultBit; dsimp only; split_ifs <;> simp

@[simp] theorem fault_jtag (d : Dev) (n : DieNo) (s : FSrc) : (d.fault n s).jtag = d.jtag := by
  unfold Dev.fault Dev.faultBit; dsimp only; split_ifs <;> simp

@[simp] theorem fault_freeCtr (d : Dev) (n : DieNo) (s : FSrc) : (d.fault n s).freeCtr = d.freeCtr := by
  unfold Dev.fault Dev.faultBit; dsimp only; split_ifs <;> simp

/-! ## tdc -/

/-- Counting a choice writes only its own registers. -/
theorem tdc_getF (d : Dev) (c : Tdc) (u : Nat) (g : Field) (i : List Nat) (h : tdcReg g.reg = false) : (d.tdc c u).getF g i = d.getF g i := by
  have k : ∀ r, tdcReg r = true → r ≠ g.reg := by rintro r hr e; simp [e, h] at hr
  have e0 : ((d.addWrap F.MST_TDC_TOTAL_TOTAL [] 1).incSat F.MST_TDC_CNT_COUNT [c.code]).getF g i = d.getF g i := by
    rw [incSat_getF_reg _ _ _ _ _ (k _ (by decide))]; exact getF_setF_reg _ _ _ _ _ _ (k _ (by decide))
  unfold Dev.tdc
  dsimp only
  split_ifs
  · exact e0
  · rw [getF_setF_reg _ _ _ _ _ _ (k _ (by decide)), getF_setF_reg _ _ _ _ _ _ (k _ (by decide)), getF_setF_reg _ _ _ _ _ _ (k _ (by decide)),
      raise_getF_reg _ _ _ _ _ (k _ (by decide)), e0]

@[simp] theorem tdc_mem (d : Dev) (c : Tdc) (u : Nat) : (d.tdc c u).mem = d.mem := by
  unfold Dev.tdc; dsimp only; split_ifs <;> rfl

@[simp] theorem tdc_clk (d : Dev) (c : Tdc) (u : Nat) : (d.tdc c u).clk = d.clk := by
  unfold Dev.tdc; dsimp only; split_ifs <;> rfl

@[simp] theorem tdc_boot (d : Dev) (c : Tdc) (u : Nat) : (d.tdc c u).boot = d.boot := by
  unfold Dev.tdc; dsimp only; split_ifs <;> rfl

@[simp] theorem tdc_rst (d : Dev) (c : Tdc) (u : Nat) : (d.tdc c u).rst = d.rst := by
  unfold Dev.tdc; dsimp only; split_ifs <;> rfl

@[simp] theorem tdc_flt (d : Dev) (c : Tdc) (u : Nat) : (d.tdc c u).flt = d.flt := by
  unfold Dev.tdc; dsimp only; split_ifs <;> rfl

@[simp] theorem tdc_host (d : Dev) (c : Tdc) (u : Nat) : (d.tdc c u).host = d.host := by
  unfold Dev.tdc; dsimp only; split_ifs <;> rfl

@[simp] theorem tdc_bank (d : Dev) (c : Tdc) (u : Nat) : (d.tdc c u).bank = d.bank := by
  unfold Dev.tdc; dsimp only; split_ifs <;> rfl

@[simp] theorem tdc_eng (d : Dev) (c : Tdc) (u : Nat) : (d.tdc c u).eng = d.eng := by
  unfold Dev.tdc; dsimp only; split_ifs <;> rfl

@[simp] theorem tdc_coll (d : Dev) (c : Tdc) (u : Nat) : (d.tdc c u).coll = d.coll := by
  unfold Dev.tdc; dsimp only; split_ifs <;> rfl

@[simp] theorem tdc_net (d : Dev) (c : Tdc) (u : Nat) : (d.tdc c u).net = d.net := by
  unfold Dev.tdc; dsimp only; split_ifs <;> rfl

@[simp] theorem tdc_tel (d : Dev) (c : Tdc) (u : Nat) : (d.tdc c u).tel = d.tel := by
  unfold Dev.tdc; dsimp only; split_ifs <;> rfl

@[simp] theorem tdc_ln (d : Dev) (c : Tdc) (u : Nat) : (d.tdc c u).ln = d.ln := by
  unfold Dev.tdc; dsimp only; split_ifs <;> rfl

@[simp] theorem tdc_opt (d : Dev) (c : Tdc) (u : Nat) : (d.tdc c u).opt = d.opt := by
  unfold Dev.tdc; dsimp only; split_ifs <;> rfl

@[simp] theorem tdc_pwr (d : Dev) (c : Tdc) (u : Nat) : (d.tdc c u).pwr = d.pwr := by
  unfold Dev.tdc; dsimp only; split_ifs <;> rfl

@[simp] theorem tdc_jtag (d : Dev) (c : Tdc) (u : Nat) : (d.tdc c u).jtag = d.jtag := by
  unfold Dev.tdc; dsimp only; split_ifs <;> rfl

@[simp] theorem tdc_out (d : Dev) (c : Tdc) (u : Nat) : (d.tdc c u).out = d.out := by
  unfold Dev.tdc; dsimp only; split_ifs <;> rfl

@[simp] theorem tdc_freeCtr (d : Dev) (c : Tdc) (u : Nat) : (d.tdc c u).freeCtr = d.freeCtr := by
  unfold Dev.tdc; dsimp only; split_ifs <;> rfl

end Sys2Proof.Machine
end

