-- ==== Sys2Proof/Laws/Memory.lean ====
section
/-!
SUPPORT. Memory keeps its canonical form under every operation on it, and a byte read is the byte written.
-/
namespace Sys2Proof.Machine

/-- A memory in canonical form from `lo` on is one from any lower address on. -/
theorem cellsFrom_mono {lo k : Nat} (h : k ≤ lo) {m : List Host.Cell} (hm : cellsFrom lo m = true) : cellsFrom k m = true := by
  cases m with
  | nil => rfl
  | cons c t =>
    obtain ⟨a, b⟩ := c
    simp only [cellsFrom, Bool.and_eq_true, decide_eq_true_eq] at hm ⊢
    exact ⟨⟨by omega, hm.1.2⟩, hm.2⟩

theorem cellsFrom_tdel (a : Nat) (m : List Host.Cell) (lo : Nat) (h : cellsFrom lo m = true) : cellsFrom lo (tdel a m) = true := by
  induction m generalizing lo with
  | nil => rfl
  | cons c t ih =>
    obtain ⟨k, b⟩ := c
    simp only [cellsFrom, Bool.and_eq_true, decide_eq_true_eq] at h
    rw [tdel]
    split_ifs with hk
    · exact ih lo (cellsFrom_mono (by omega) h.2)
    · simp only [cellsFrom, Bool.and_eq_true, decide_eq_true_eq]
      exact ⟨h.1, ih (k + 1) h.2⟩

theorem cellsFrom_tins (a : Nat) (v : Byte) (hv : v ≠ unlisted) (m : List Host.Cell) (lo : Nat) (hl : lo ≤ a)
    (h : cellsFrom lo m = true) : cellsFrom lo (tins (fun i j => decide (i < j)) a v m) = true := by
  induction m generalizing lo with
  | nil => simp [tins, cellsFrom, hl, hv]
  | cons c t ih =>
    obtain ⟨k, b⟩ := c
    simp only [cellsFrom, Bool.and_eq_true, decide_eq_true_eq] at h
    rw [tins]
    split_ifs with h1 h2
    · simp only [decide_eq_true_eq] at h1
      simp only [cellsFrom, Bool.and_eq_true, decide_eq_true_eq]
      exact ⟨⟨hl, hv⟩, ⟨by omega, h.1.2⟩, h.2⟩
    · subst h2
      simp only [cellsFrom, Bool.and_eq_true, decide_eq_true_eq]
      exact ⟨⟨hl, hv⟩, h.2⟩
    · simp only [decide_eq_true_eq] at h1
      simp only [cellsFrom, Bool.and_eq_true, decide_eq_true_eq]
      exact ⟨h.1, ih (k + 1) (by omega) h.2⟩

/-- Writing a byte keeps the canonical form. -/
theorem memPut_wf (m : List Host.Cell) (a : Nat) (b : Byte) (h : Memory.wf m = true) : Memory.wf (memPut m a b) = true := by
  unfold memPut tput
  split_ifs with hb
  · exact cellsFrom_tdel a m 0 h
  · exact cellsFrom_tins a b hb m 0 (Nat.zero_le a) h

/-- Writing bytes keeps the canonical form. -/
theorem memWrite_wf (l : List Byte) (m : List Host.Cell) (a : Nat) (h : Memory.wf m = true) : Memory.wf (memWrite m a l) = true := by
  induction l generalizing m a with
  | nil => exact h
  | cons b t ih => exact ih _ _ (memPut_wf m a b h)

/-- Forgetting contents keeps the canonical form. -/
theorem memLose_wf (m : List Host.Cell) (p : Nat → Bool) (h : Memory.wf m = true) : Memory.wf (memLose m p) = true := by
  have go : ∀ (m : List Host.Cell) (lo : Nat), cellsFrom lo m = true → cellsFrom lo (memLose m p) = true := by
    intro m
    induction m with
    | nil => exact fun _ _ => rfl
    | cons c t ih =>
      obtain ⟨k, b⟩ := c
      intro lo h
      simp only [cellsFrom, Bool.and_eq_true, decide_eq_true_eq] at h
      rw [memLose, List.filter_cons]
      split_ifs
      · simp only [cellsFrom, Bool.and_eq_true, decide_eq_true_eq]
        exact ⟨h.1, ih (k + 1) h.2⟩
      · exact ih lo (cellsFrom_mono (by omega) h.2)
  exact go m 0 h

/-- A byte written is the byte read; every other byte reads as before. -/
@[simp] theorem memGet_memPut_same (m : List Host.Cell) (a : Nat) (b : Byte) : memGet (memPut m a b) a = b := tget_tput_same _ _ _ _ _

theorem memGet_memPut_ne (m : List Host.Cell) {a c : Nat} (h : a ≠ c) (b : Byte) : memGet (memPut m a b) c = memGet m c :=
  tget_tput_ne _ _ _ h _ _

/-- Bytes outside the written run read as before. -/
theorem memGet_memWrite_out (l : List Byte) (m : List Host.Cell) (a c : Nat) (h : ¬(a ≤ c ∧ c < a + l.length)) :
    memGet (memWrite m a l) c = memGet m c := by
  induction l generalizing m a with
  | nil => rfl
  | cons b t ih =>
    simp only [List.length_cons] at h
    rw [memWrite, ih _ _ (by omega), memGet_memPut_ne _ (by omega)]

end Sys2Proof.Machine
end

