-- ==== Sys2Proof/Laws/RegRow.lean ====
section
/-!
SUPPORT. A register row whose write lands has the register's effect and nothing else.
-/
namespace Sys2Proof.Machine

theorem landWrite_open (d : Dev) (fz : Fuses) (iss : Issuer) (x : RegDesc) (idx : List Nat) (v : Nat)
    (hm : d.mayWrite iss x.writer x.reg idx = true) (hr : d.reach x.reg idx = .open) (hv : v < 2 ^ x.width)
    (hu : d.unlocked iss x.reg idx v = v) :
    d.landWrite fz iss x idx v = d.regEffect fz iss x.reg idx v := by
  simp [Dev.landWrite, hr, Dev.regWrite, hm, Nat.mod_eq_of_lt hv, hu]

/-- What a register row does when its write lands. -/
theorem regRow_lands (d : Dev) (fz : Fuses) (iss : Issuer) (r : RegName) (idx : List Nat) (v : Nat)
    (h : d.lands iss r idx v = true) : d.regRow fz iss r idx v = d.regEffect fz iss r idx v := by
  unfold Dev.lands at h
  cases hd : descOf r with
  | none => simp [hd] at h
  | some x =>
    have hx : x.reg = r := by simpa using List.find?_some hd
    subst hx
    simp only [hd, Bool.and_eq_true, decide_eq_true_eq] at h
    obtain ⟨⟨⟨⟨hp, hm⟩, hr⟩, hv⟩, hu⟩ := h
    have hl := landWrite_open d fz iss x idx v hm hr hv hu
    unfold Dev.regRow
    cases iss with
    | pf y => simp [Dev.portClear] at hp; simp [hd, Dev.hostAccess, hp.1, hp.2, Dev.postedHeld, Dev.hostDo, hl]
    | vf y f => simp [Dev.portClear] at hp; simp [hd, Dev.hostAccess, hp.1, hp.2, Dev.postedHeld, Dev.hostDo, hl]
    | plan y => simp [hd, hl]
    | jtag => simp [hd, hl]

end Sys2Proof.Machine
end

