-- ==== Sys2Proof/Laws/Safety.lean ====
section
/-!
SUPPORT. How the terms of Safety.lean are shown: a completion from the next device, and frames through register updates.
-/
namespace Sys2Proof.Machine

/-- A command that answers a device completes with what holds of it. -/
theorem completes_of_exec {i : Instr} {s : State} {d : Dev} {P : Dev → Prop} (h : exec i s = .next { s with dev := d }) (hp : P d) :
    Completes i s P := ⟨_, h, rfl, rfl, hp⟩

/-- A command whose operands are well formed completes with what holds of its device. -/
theorem completes_of_updIf {i : Instr} {s : State} {c : Bool} {f : Dev → Dev} {P : Dev → Prop} (h : exec i s = s.updIf c f)
    (hc : c = true) (hp : P (f s.dev)) : Completes i s P := completes_of_exec (by rw [h, updIf_true s c f hc]) hp

theorem sameRegs_refl (d : Dev) (l : List (Field × List Nat)) : SameRegs d d l := fun _ _ _ => rfl

/-- Writing a listed field keeps the frame. -/
theorem sameRegs_setF {d0 d : Dev} {f : Field} {i : List Nat} {v : Nat} {l : List (Field × List Nat)} (h : (f, i) ∈ l)
    (h0 : SameRegs d0 d l) : SameRegs d0 (d.setF f i v) l := fun g j hb => by
  rw [getF_setF_key d f g i j v (fun e => hb _ h e)]; exact h0 g j hb

/-- Changing any other part keeps the frame. -/
theorem sameRegs_mk {d0 d : Dev} {l : List (Field × List Nat)} (h : SameRegs d0 d l)
    (x0 x1 x2 x3 x4 x5 x6 x7 x8 x9 x10 x11 x12 x13 x14 x15 x16) :
    SameRegs d0 (Dev.mk d.regs x0 x1 x2 x3 x4 x5 x6 x7 x8 x9 x10 x11 x12 x13 x14 x15 x16) l := h

/-- Memory reads the same when the cells and the lost intervals do. -/
theorem sameMem_of {d d' : Dev} (h1 : d'.mem = d.mem) (h2 : d'.bank.lost = d.bank.lost) : SameMem d d' := fun a => by
  simp [Dev.byte, h1, h2]

theorem sameMem_trans {a b c : Dev} (h1 : SameMem a b) (h2 : SameMem b c) : SameMem a c := fun x => (h2 x).trans (h1 x)

end Sys2Proof.Machine
end

