-- ==== Sys2Proof/Laws/Seals.lean ====
section
/-!
SUPPORT. Seals (R197): a CRC-32C has 32 bits, and the four bytes behind a sealed payload spell its seal.
-/
namespace Sys2Proof.Machine

theorem crc32cStep_lt (k c : Nat) (h : c < 2 ^ 32) : crc32cStep k c < 2 ^ 32 := by
  induction k generalizing c with
  | zero => exact h
  | succ k ih =>
    rw [crc32cStep]
    split
    · exact ih _ (Nat.xor_lt_two_pow (by omega) (by decide))
    · exact ih _ (by omega)

theorem crc32c_lt (l : List Byte) : crc32c l < 2 ^ 32 := by
  have go : ∀ (l : List Byte) (c : Nat), c < 2 ^ 32 → l.foldl (fun c b => crc32cStep 8 (c ^^^ b.toNat)) c < 2 ^ 32 := by
    intro l
    induction l with
    | nil => exact fun c h => h
    | cons b t ih => exact fun c h => ih _ (crc32cStep_lt 8 _ (Nat.xor_lt_two_pow h (by have := b.isLt; omega)))
  exact Nat.xor_lt_two_pow (go l _ (by decide)) (by decide)
theorem sealOf_lt (coll chunk stage contrib : Nat) (l : List Byte) : sealOf coll chunk stage contrib l < 2 ^ 32 := crc32c_lt _

/-- A payload of `n` bytes followed by its seal passes the seal's check. -/
theorem leAt_sealed (coll chunk stage contrib n : Nat) (l : List Byte) (h : l.length = n) :
    leAt (l ++ leBytes 4 (sealOf coll chunk stage contrib l)) n 4 =
      sealOf coll chunk stage contrib ((l ++ leBytes 4 (sealOf coll chunk stage contrib l)).take n) := by
  subst h
  rw [leAt_append, leAt_leBytes, List.take_left']
  · exact Nat.mod_eq_of_lt (sealOf_lt _ _ _ _ _)
  · rfl

end Sys2Proof.Machine
end

