-- ==== Sys2Proof/Tests/Slice0.lean ====
section
/-!
SUPPORT. Tests: what WellFormed refuses, values worked out by hand from the spec, single steps on small states, and for every
statement that has hypotheses a state and operands that meet them, clause by clause.
-/
namespace Sys2Proof.Tests
open Sys2Proof Sys2Proof.Machine

set_option Elab.async false

/-! ## Small states -/

/-- A device in operation, some while after time zero: every island runs, every die, stack and host port is ready. -/
def up : Dev :=
  let d := State.reset.dev
  let d := { d with regs := (List.range 48).map (fun i => (⟨.MST_CLKON, 0, [i]⟩, if i = 47 then 0xFFFF else 0xFFFFFFFF)) }
  let d := ((d.setF F.MST_READY_STACK_STACK [] 0xFF).setF F.MST_READY_HOST [] 15).setF F.MST_READY_MAST [] 1
  let d := (((d.setF F.MST_READY_YARD [] 15).setF F.MST_READY_PORT [] 0xFF).setF F.MST_READY_SAIL [] 15).setF F.MST_READY_BASE [] 0xFF
  { d with clk := { d.clk with phase := .running, fabRun := true, now := 400000000000000, frame := 1048576 }
           bank := { d.bank with tested := List.range 8 } }

/-- The device in operation with some register fields set. -/
def on (l : List (Field × List Nat × Nat)) : Dev := l.foldl (fun d x => d.setF x.1 x.2.1 x.2.2) up

/-- A machine around a device: sound fuses, nothing waiting. -/
def st (d : Dev) : State := { State.reset with dev := d }

/-- The device in operation, its phase changed. -/
def phase (p : Phase) : Dev := { up with clk := { up.clk with phase := p } }

/-- Port engine 31 of port die 7 on its last position, with lane circuit 130, down or up, and some register fields set. -/
def prt (u : Nat) (l : List (Field × List Nat × Nat)) : Dev :=
  on ([(F.PRT_PORT_CFG_BASE_POS, [7, 31], 127), (F.PRT_PORT_CFG_EN, [7, 31], 1), (F.PRT_PORT_STAT_UP, [7, 31], u)] ++ l)

/-- The same port, 16 lanes wide, up. -/
def wide (l : List (Field × List Nat × Nat)) : Dev :=
  on ([(F.PRT_PORT_CFG_BASE_POS, [7, 31], 112), (F.PRT_PORT_CFG_WIDTH_LOG2, [7, 31], 4), (F.PRT_PORT_CFG_EN, [7, 31], 1),
    (F.PRT_PORT_STAT_UP, [7, 31], 1)] ++ l)

/-- That port up, with its link in a given state. -/
def lnk (x : LinkSt) : Dev := (prt 1 [(crField 0, [7, 31], 96)]).setLink (7, 31) x

/-- A device with its lane sets in a given state at that port. -/
def reefed (d : Dev) (x : PortLn) : Dev := { d with ln := { d.ln with ports := [([7, 31], x)] } }

/-- `n` bytes, zero but for some values, each with its offset and its width. -/
def bytesAt (n : Nat) (l : List (Nat × Nat × Nat)) : List Byte :=
  l.foldl (fun b x => b.take x.1 ++ leBytes x.2.1 x.2.2 ++ b.drop (x.1 + x.2.1)) (List.replicate n 0)

/-- A command of 32 bytes. -/
def cmd (l : List (Nat × Nat × Nat)) : List Byte := bytesAt 32 l

/-- A command in a queue, and one that runs. -/
def queued (l : List Byte) : Cmd := ⟨l, 0, 0, none, [], none, none, 1, none, none⟩
def run (l : List Byte) : Run :=
  ⟨3, 0, queued l, 0, 0, [], 0, 0, false, none, 0, false, none, [], 0, [], 0, none⟩

/-- Tackle `t` runs `r`; tackle `t` holds `c` at the head of its queue `q`. -/
def running (d : Dev) (t : Nat) (r : Run) : Dev := d.setTck t { d.tck t with runs := [r] }
def waiting (d : Dev) (t q : Nat) (c : Cmd) : Dev := d.setTck t { d.tck t with queues := (d.tck t).queues.set q [c] }

/-- A packet for endpoint `e` of the device at hall 0, row 0, rack position 0. -/
def hdrTo (e op : Nat) : PktHdr := { PktHdr.zero with dst := e, op := op, tc := 3 }

/-- A PUT packet from port 35 of port die 7, in its cells and for its destinations. -/
def flt (ds : List Dest) (cs : List Cell) : Flight where
  src := (7, 35)
  vc := 0
  cls := 4
  hdr := hdrTo 36 opPUT
  bytes := (hdrTo 36 opPUT).enc
  complete := true
  lost := none
  dests := ds
  cells := cs
  waiting := []
  cseq := [(16, 0)]
  admitted := 0
  lanes := 16
  key := none
  origin := .outside
  pendingPorts := []
  doneCopies := []
  left := false
  released := []
  dropped := []
  granted := none

/-- A packet whole in one cell, at the head of egress queue 0 of that port. -/
def atHead : Flight :=
  { flt [.port 7 31] [⟨3, .shared, none, some 0, true, true, 0⟩] with hdr := { hdrTo 36 opPUT with tc := 0 }, released := [(12, 1)] }
def sending : Dev :=
  let d := lnk { LinkSt.init with queues := [([3], [⟨5, 0, false, false⟩])] }
  { d with net := { d.net with flights := [([5], atHead)] } }

/-- A device at a frame. -/
def atFrame (d : Dev) (n : Nat) : Dev := { d with clk := { d.clk with frame := n } }

/-- The operands of a run. -/
def decOf (t : Nat) (r : Run) : Dec := (r.dec t).getD ⟨[], [], [], 0, 0⟩
def opAt (t : Nat) (r : Run) (i : Nat) : Opnd := (decOf t r).ops.getD i ⟨0, 0, [], [], none⟩

/-- The device with an address, and one packet at an internal endpoint. -/
def addressed (d : Dev) : Dev := { d with net := { d.net with fabAddr := (0, 0, 0, true) } }
def arrived (d : Dev) (a : Arrival) : Dev := { addressed d with net := { (addressed d).net with arrivals := [a] } }

/-- A collective over endpoint 35 and two rack positions: 8 chunks of 1 KiB in FP32, MAX, into bank 79 of sail 3. -/
def desc (own dir : Nat) : List Byte :=
  bytesAt 192 [(0, 2, 5), (2, 1, 2), (4, 1, dir), (16, 4, 8), (22, 2, 1), (28, 1, 4), (48, 6, 0x10003BC00000), (96, 8, 2 ^ 35), (112, 2, 4),
    (118, 1, 1), (120, 8, 3), (128, 8, own * 0x1111111111111111), (136, 2, 4), (138, 2, 4), (142, 1, 1)]

/-- Its context, with one chunk of it in a given state, and a device with that context. -/
def ctx (c : List Byte) (x : Chunk) : Ctx :=
  ⟨c, 0, 0, true, 8, [0, 1, 2, 3], [([7], x)], [([0, 3], 7)], [([1, 3], 7)], [], [], 0, 0, none, 0, 0, 0, 0, 0, 0, 0, []⟩
def chunk : Chunk := ⟨[], [], [], [], [], none, 0, [], false, 0, false, none, false⟩
def joined (d : Dev) (x : Ctx) : Dev := { d with coll := { d.coll with ctxs := [([5], x)] } }

/-- The device with the last bank of sail 3 owned by partition A, and by the fabric. -/
def owned : Dev := on [(F.SAL_CLEAT_OWNER, [3, 79], 1)]
def fab : Dev := addressed (on [(F.SAL_CLEAT_OWNER, [3, 79], 0x80)])

/-- A run of a command with a stream of pieces. -/
def streaming (l : List Byte) (pieces : List Nat) (done : Nat) (ended : Bool) : Run :=
  { run l with stream := some ⟨0x434F, 0, 0, [0, 0, 0, 0], pieces, done, ended⟩ }

/-- A stream program of two instructions, the second END: generator 0 counts 4 × 2 addresses, comparator 0 compares ≥, comparator 1 >. -/
def prog (w : Nat) : List Byte :=
  bytesAt 260 [(0, 1, 2), (1, 1, 1), (2, 1, 3), (8, 6, 0x10003BC00200), (16, 4, 4), (20, 4, 16), (24, 4, 2), (32, 4, 1), (40, 4, 1), (169, 1, 1), (256, 2, w)]

/-- A device with a state of module slot 127, and what the slot's management holds of it. -/
def slotted (l : List (Field × List Nat × Nat)) (x : Slot) : Dev :=
  let d := on ([(F.OPM_CTRL_EN, [], 1)] ++ l)
  { d with opt := { d.opt with slots := [([127], x)] } }

/-- A device that makes a pass-through access at slot 127, whose select is driven or not yet. -/
def passing (selN write : Bool) : Dev :=
  let d := slotted [] { Slot.init with selN := selN }
  { d with opt := { d.opt with pass := some ⟨127, 0, 0, write, 0⟩ } }

/-- A ledger record, and a device whose ledger holds it while its module shines. -/
def ledger : LedRec := ⟨List.replicate 16 0x41, 1, 0, 0, 0, 127, false, false, 1, [], 0, true⟩
def shiningIn (r : LedRec) : Dev :=
  let d := slotted [(F.OPM_SLOT_STAT_STATE, [127], 4)] { Slot.init with serial := some (List.replicate 16 0x41), tx := true }
  { d with opt := { d.opt with led := [r] } }

/-- A SEALCHK that checks one piece of 1,024 zeros. -/
def sealCmd : List Byte := cmd [(0, 1, 0x14), (4, 1, 1), (8, 6, 0x10003BC01000), (16, 4, 1), (24, 6, 0x10003BC00000)]

/-- CRC-32C over 128 zeros more. -/
def crc128 (c : Nat) : Nat := (List.replicate 128 (0 : Byte)).foldl (fun c b => crc32cStep 8 (c ^^^ b.toNat)) c

theorem crc_zeros (n c : Nat) : (List.replicate (128 + n) (0 : Byte)).foldl (fun c b => crc32cStep 8 (c ^^^ b.toNat)) c =
    (List.replicate n (0 : Byte)).foldl (fun c b => crc32cStep 8 (c ^^^ b.toNat)) (crc128 c) := by
  rw [List.replicate_add, List.foldl_append, crc128]

theorem seal_zeros : sealOf 0 0 0 0 (List.replicate 1024 0) = 2333143305 := by
  have h : (chunkIdentity 0 0 0 0).foldl (fun c b => crc32cStep 8 (c ^^^ b.toNat)) 0xFFFFFFFF = 3180291349 := by decide +kernel
  have c : crc128 3180291349 = 2481249946 ∧ crc128 2481249946 = 2002403192 ∧ crc128 2002403192 = 1259460872 ∧
      crc128 1259460872 = 877066998 ∧ crc128 877066998 = 1555790069 ∧ crc128 1555790069 = 3214726007 ∧
      crc128 3214726007 = 2913143082 ∧ crc128 2913143082 = 1961823990 := by decide +kernel
  obtain ⟨h1, h2, h3, h4, h5, h6, h7, h8⟩ := c
  rw [sealOf, crc32c, List.foldl_append, h, show 1024 = 128 + (128 + (128 + (128 + (128 + (128 + (128 + (128 + 0))))))) from rfl]
  rw [crc_zeros, h1, crc_zeros, h2, crc_zeros, h3, crc_zeros, h4, crc_zeros, h5, crc_zeros, h6, crc_zeros, h7, crc_zeros, h8]
  decide

theorem pieceSeal_zeros (d : Dev) (h : d.read 0x10003BC01000 1024 = List.replicate 1024 0) : d.pieceSeal sealCmd 0 = 2333143305 := by
  have h1 : leAt sealCmd 6 2 = 0 ∧ (leAt sealCmd 20 3 + 0) % 2 ^ 24 = 0 ∧ cbits sealCmd 5 0 4 = 0 ∧ leAt sealCmd 14 2 = 0 ∧
      leAt sealCmd 8 6 + 0 * sealPiece sealCmd = 0x10003BC01000 ∧ sealPiece sealCmd = 1024 := by decide +kernel
  rw [Dev.pieceSeal, h1.1, h1.2.1, h1.2.2.1, h1.2.2.2.1, h1.2.2.2.2.1, h1.2.2.2.2.2, h, seal_zeros]

/-- Memory whose addresses all lie in one running island takes a transfer. -/
theorem memUp_of {d : Dev} {a n m j : Nat} (h : m = max 1 n)
    (hl : (List.range m).all (fun i => placeIsland (place (a + i)) == j) = true) (hj : d.islandOn j = true) : d.memUp a n := by
  intro i hi
  rw [beq_iff_eq.mp (List.all_eq_true.mp hl i (List.mem_range.mpr (h ▸ hi)))]
  exact hj

theorem one_piece {l : List Nat} {P : Nat → Prop} (h : l = [0]) (p : P 0) : ∀ j ∈ l, P j := by
  subst h
  simpa using p

/-! ## WellFormed refuses an ill-formed term for each of its checks -/

theorem test_wf_payload : (Instr.registerWrite 0 0 0 (.write [])).wf = false ∧ (Instr.apertureWrite 0 0 []).wf = false ∧
    (Instr.apertureRead 0 0 0).wf = false ∧ (Instr.apertureRead 0 0 4097).wf = false ∧
    (Instr.pushWrite 0 0 0 0x1FFFF (.write [0, 0])).wf = false := by decide

theorem test_wf_railLost : (Instr.brownout 0x7FF).wf = false ∧ (Instr.brownout 0x7FE).wf = true := by decide

theorem test_wf_blocks : (Instr.timexRequestReceive 0 0 [] 0 0).wf = false ∧ (Instr.timexReplyReceive 0 0 [] (0, 0)).wf = false ∧
    (Instr.capsReceive 0 0 (List.replicate 31 0) true true).wf = false := by decide

theorem test_wf_flits : ([Instr.rxIdleFlit 0 0 [], .rxDataFlit 0 0 [], .rxBadFlit 0 0 [] false, .rxAbortFlit 0 0 [], .rxNakFlit 0 0 [],
    .rxTimexFlit 0 0 [], .rxReservedFlit 0 0 []].all (fun i => !i.wf)) = true := by decide

theorem test_wf_units : (Instr.controlCheckError (.portState 8 0)).wf = false ∧ (Instr.controlCheckError (.other 1520)).wf = false ∧
    (Instr.controlCheckError (.cleat true 4 0)).wf = false := by decide

theorem test_wf_tackles : (Instr.queueResume (.pf 0) 0x6000 0).wf = false ∧ (Instr.seqCtrWrite (.pf 0) 0x6000 0 0).wf = false ∧
    (Instr.queueResume (.pf 0) 0x4003 0).wf = true := by decide

theorem test_wf_modules : (Instr.moduleAnswer 0 [] [] [] 0 0 true).wf = false ∧ (Instr.biasDriftSample 0 [] 0).wf = false ∧
    (Instr.sensorConversion [] 0 0 0).wf = false := by decide

theorem test_illFormed_refused : exec (.apertureRead 0 0 0) State.reset = .refused .illFormed := rfl

/-! ## Values from the spec's worked examples -/

/-- R175: the CRC-16 of the nine digits. -/
theorem test_hcrc_check_value : crc16 0xFFFF [0x31, 0x32, 0x33, 0x34, 0x35, 0x36, 0x37, 0x38, 0x39] = 0x29B1 := by decide +kernel

/-- R197's CRC-32C over the nine digits, the check value of the polynomial 0x1EDC6F41. -/
theorem test_crc32c_check_value : crc32c [0x31, 0x32, 0x33, 0x34, 0x35, 0x36, 0x37, 0x38, 0x39] = 0xE3069283 := by decide +kernel

/-- "Worked example: one chunk contribution": the 32 bytes of the header. -/
theorem test_chunk_header :
    ({ PktHdr.zero with dst := 307, op := 0x20, sealB := 1, tc := 2, src := 261, flow := 10769, pkey := 0x42, len := 4096, contrib := 5, coll := 517, chunk := 1000003 } : PktHdr).enc =
      [0x33, 0x01, 0xA0, 0x20, 0x05, 0x01, 0, 0, 0, 0, 0, 0, 0, 0, 0, 0, 0x11, 0x2A, 0, 0, 0x42, 0, 0, 0x10, 0x05, 0x02, 0x14, 0,
        0x43, 0x42, 0x0F, 0] := by decide

/-- The same example: its chunk identity and its 18 flits. -/
theorem test_chunk_identity :
    chunkIdentity 517 1000003 0 5 = [5, 2, 0, 0, 0x43, 0x42, 0x0F, 0, 0, 0, 5, 0, 0, 0, 0, 0] ∧ flitsOf 4132 = 18 := by decide

/-- The MXFP4 block of "Number Formats": scale 0x7C, elements 4, 9, 7, 0 packed as 0x94 0x07. -/
theorem test_mx_block :
    mxBlock 9 false ([.fin false 5 (-4), .fin true 1 (-4), .fin false 23 (-5), .fin false 0x147AE1 (-26)] ++
      List.replicate 28 .zero) = (0x7C, [4, 9, 7, 0] ++ List.replicate 28 0, 0) := by decide +kernel

/-- The capstan example of "Number Formats": one rounding of 16,777,219 to FP32 gives 16,777,220; 4 and 3 in BF16. -/
theorem test_wire_rounding : (fp32.round false false (.fin false 16777219 0)).code = 0x4B800002 ∧
    (fp32.round false false (.fin false 16777219 0)).inexact = true ∧ (bf16.round false false (.fin false 4 0)).code = 0x4080 ∧
    (bf16.round false false (.fin false 3 0)).code = 0x4040 := by decide +kernel

/-- The same example in anchored mode: 0x0100_0003, and nothing lost. -/
theorem test_anchored_partial : (ap64Out 0 (.fin false 16777219 0)).1 = 0x1000003 ∧
    (ap64Out 0 (.fin false 16777219 0)).2.2 = ⟨false, false, false⟩ := by decide

/-- The chunk sizes of "Capstans and In-Network Collectives": E, W and P of FP8, and Q, W, P, O of SMERGE with BF16. -/
theorem test_chunk_sizes : (let c := bytesAt 192 [(2, 1, 0), (3, 1, 0x23), (4, 1, 8)]; (cdE c, cdW c, cdP c) = (4096, 16384, 4)) ∧
    (let c := bytesAt 192 [(2, 1, 8), (3, 1, 0x22), (4, 1, 8), (10, 2, 128)]; (cdQ c, cdW c, cdP c, cdO c) = (15, 8192, 2, 3840)) := by
  decide +kernel

/-- The time exchange of "Clocks, Islands and Crossings": offset 40,000 units, delay 1,800 units. -/
theorem test_timex_values : timexValues (256 * 1000000) (256 * 1041800) (256 * 1050000) (256 * 1011800) 0 = (40000, 1800) := by decide

/-- "Power, Thermal and Sensors": 5,800 Ω read 0x027D. -/
theorem test_thermistor : thermCode 5800 10000 3435 = 0x027D := by decide +kernel

/-- "Memory and Scratchpads": address 0x0024_0345_6780 lies in stack 3. -/
theorem test_stack_address : place 0x2403456780 = .stack 3 ∧ 0x2403456780 - stackBase 3 = 0x3456780 := by decide +kernel

/-- R344, worked example: the granule of 0x0024_0345_6780 lies in pseudo-channel 6, which is pseudo-channel 0 of channel 3. -/
theorem test_pseudo_channel : pseudoChannel 0x2403456780 = 6 ∧ stackChannel 0x2403456780 = (3, 0) := by decide +kernel

/-- R145, R146: DROP (0x6) of lane 11, sent on lane 5 in period 225, by hand 0xE1B65. -/
theorem test_control_field : (CtrlField.mk 5 .drop 11 225).enc = 0xE1B65 ∧ CtrlField.dec 0xE1B65 = ⟨5, .drop, 11, 225⟩ := by decide

/-- The FILL of the instruction reference: a row of 0x3C000 bytes at 0x1000_0000, written by move engine 0x5010. -/
theorem test_fill_example :
    ((decodeCmd 0x5010 [0x13, 1, 0, 0, 0, 0, 1, 0, 0, 0, 0, 0x10, 0, 0, 0, 0, 0, 0xC0, 3, 0, 0, 0, 0, 0, 0xC0, 0x7F, 0xC0, 0x7F, 0xC0,
      0x7F, 0xC0, 0x7F] []).map (fun x => x.regions)) = some [⟨0x10000000, 0x1003C000, true⟩] := by decide +kernel

/-- The gather program of the instruction reference. -/
def gatherProg : List Byte :=
  bytesAt 282 ([(0, 1, 13), (1, 1, 1), (2, 1, 15), (4, 2, 0xF0), (8, 6, 0x100008400000), (16, 4, 64), (20, 4, 4096), (24, 4, 1), (32, 4, 1),
    (40, 4, 1)] ++ (List.range 4).flatMap (fun k => [(168 + 8 * k, 1, k), (170 + 8 * k, 1, 4 + k)]) ++
    (List.range 4).flatMap (fun k => [(256 + 6 * k, 2, 0x4000 + k), (258 + 6 * k, 2, 0x2000), (260 + 6 * k, 2, 0x8004 + k)]))

theorem test_gather_program_accepted : progOk gatherProg 282 = true ∧ progOk gatherProg 280 = false := by decide +kernel

/-- The rate example of "Routing and Congestion Control": one echo takes 16,000 down by a quarter. -/
theorem test_rate_decrease : (let d := on [(F.PRT_RC_PROF2_DEC_SHIFT, [0, 0], 2), (F.PRT_RC_PROF_MIN, [0, 0], 10), (F.PRT_RC_PROF_MAX, [0, 0], 16000)]
    let x := { d.fromTemplate 0 with rate := 16000, echoes := 1, profile := 0 }
    ((d.setFlow 5 x).rateDecrease 5).flow 5 |>.map (·.rate)) = some 12000 := by decide +kernel

/-! ## Arithmetic at its edges -/

/-- R284: the zeros in order, a NaN ignored. -/
theorem test_max_min_zero : Val.max (.fin false 0 0) (.fin true 0 0) = .fin false 0 0 ∧ Val.min (.fin false 0 0) (.fin true 0 0) = .fin true 0 0 ∧
    Val.max .nan (.fin true 1 0) = .fin true 1 0 ∧ Val.max .nan .nan = .nan := by decide

/-- R279: ties to even in FP16, and R280: its largest finite value under SAT = 1. -/
theorem test_round_ties : (fp16.round false false (.fin false 2049 0)).code = 0x6800 ∧ (fp16.round false false (.fin false 2051 0)).code = 0x6802 ∧
    (fp16.round true false (.fin false 70000 0)).code = 0x7BFF ∧ (fp16.round false false (.fin false 70000 0)).code = 0x7C00 := by
  decide +kernel

/-- E4M3 has no infinity: its largest finite value is 448, its NaN 0x7F (R276, R282). -/
theorem test_e4m3_range : (e4m3.round true false (.fin false 500 0)).code = 0x7E ∧ e4m3.decode 0x7E = .fin false 14 5 ∧ e4m3.nanCode = 0x7F := by
  decide +kernel

/-- R430: e^0 is 1 exactly. -/
theorem test_transcendental_exact : (fp32.round false false (vopVal 0xC .zero .zero .zero)).code = 0x3F800000 := by decide +kernel

/-! ## Single steps on small states -/

/-- An empty queue: one frame passes (log 1). -/
theorem test_idle_step_is_a_frame : (up.framePasses.clk.frame, up.framePasses.clk.now) = (1048577, 400000000006400) := by decide +kernel

/-- The device after a command that completes. -/
def after (i : Instr) (d : Dev) : Dev :=
  match exec i (st d) with
  | .next t => t.dev
  | _ => d

/-- R227, R118: the helm host sets the device's address, hall 2, row 7, rack position 9; a virtual function cannot. -/
theorem test_fabaddr_write :
    let d := after (.registerWrite 0 0 0xC00 (.write (leBytes 4 (2 ^ 31 + 2 * 2 ^ 14 + 7 * 2 ^ 10 + 9 * 2 ^ 6)))) up
    (d.getF F.MST_FABADDR_HALL, d.getF F.MST_FABADDR_ROW, d.getF F.MST_FABADDR_RACK, d.net.fabAddr) = (2, 7, 9, up.net.fabAddr) ∧
      (after .fabaddrApply d).net.fabAddr = (2, 7, 9, true) ∧
      (after (.registerWrite 0 3 0xC00 (.write (leBytes 4 (2 ^ 31)))) up).getF F.MST_FABADDR_VALID = 0 := by decide +kernel

/-- The command header and the FILL of the instruction reference on one row of 16 bytes. -/
def fillRun : Run := run (cmd [(0, 1, 0x13), (6, 1, 1), (8, 6, 0x10003BC00000), (16, 4, 16), (24, 8, 0x7FC07FC07FC07FC0)])

/-- R422: the pattern from the row's first byte to its last, and the byte after untouched. -/
theorem test_fill_bytes :
    let d := after (.fill 0x433F 3) (running owned 0x433F fillRun)
    (d.read 0x10003BC00000 18 = [0xC0, 0x7F, 0xC0, 0x7F, 0xC0, 0x7F, 0xC0, 0x7F, 0xC0, 0x7F, 0xC0, 0x7F, 0xC0, 0x7F, 0xC0, 0x7F, 0, 0]) := by
  decide +kernel

/-- R422 over a bank of another owner: the command ends with OWNER and writes nothing. -/
theorem test_fill_other_owner :
    let d := after (.fill 0x433F 3) (running (on [(F.SAL_CLEAT_OWNER, [3, 79], 2)]) 0x433F fillRun)
    d.byte 0x10003BC00000 = 0 ∧ (d.runAt 0x433F 3).map (·.status) = some (some .owner) := by decide +kernel

/-- HOIST_SYNC follows the last PLL's lock and not before. -/
theorem test_hoist_sync :
    (after .hoistSync ((List.range 25).foldl (fun d n => d.setLocked n true) (phase .locking))).clk.phase = .synced ∧
      (after .hoistSync (phase .locking)).clk.phase = .locking := by decide +kernel

/-- SEQ_CTR_WRITE: a whole counter of a sequencer is written (R398). -/
theorem test_seq_ctr_write : (after (.seqCtrWrite (.pf 0) 0x404C 3 7) up).ctr 0x404C 3 = 7 := by decide +kernel

/-- A host writes a byte through its aperture into stack 0, and the memory reads it back. -/
theorem test_aperture_write_reads_back : (after (.apertureWrite 0 0 [0x5A]) up).byte 0 = 0x5A := by decide +kernel


/-- The example after R479: a yard that leaves service counts one step of its face's EPOCH, whatever it changes of the face. -/
theorem test_yard_out_steps_epoch_once : (up.unitLeaves 0x21FF).epochOf 0x21FF = up.epochOf 0x21FF + 1 := by decide +kernel

/-- R375, R419: MOVE reads a handle's elements at their stride as bytes: three FP16 elements 8 bytes apart. -/
theorem test_move_reads_strided :
    ((decodeMove ([0x10, 0, 0, 0, 1, 0, 1, 0] ++ leBytes 6 0 ++ leBytes 6 0x3000 ++ leBytes 4 6 ++ leBytes 8 0)
      [(8, leBytes 16 0x1000 ++ leBytes 4 3 ++ leBytes 4 1 ++ leBytes 4 1 ++ leBytes 4 1 ++ leBytes 4 8 ++ leBytes 24 0 ++ leBytes 1 1
        ++ leBytes 1 1 ++ leBytes 2 0)]).map (fun x => x.ops.map (fun o => o.runs (fullSel x.split))))
      = some [[(0x1000, 1), (0x1001, 1), (0x1008, 1), (0x1009, 1), (0x1010, 1), (0x1011, 1)], [(0x3000, 6)]] := by decide +kernel

/-! ## For every statement with hypotheses, clause by clause, a state and operands that meet them together -/

theorem witness_StepRunsTheFrontCommand :
    ∃ (c : Instr) (rest : List Instr) (s : State), s.pending = c :: rest :=
  ⟨.hoistDone, [], { st up with pending := [.hoistDone] }, by decide +kernel⟩

theorem witness_AnEmptyQueuePassesOneFrame :
    ∃ (s : State), s.pending = [] :=
  ⟨st up, by decide +kernel⟩

theorem witness_EveryWellFormedCommandCompletes :
    (∃ (i : Instr), i.wf = true) ∧
    (∃ (i : Instr), i.wf = false) :=
  ⟨⟨.resetNPulse, by decide +kernel⟩,
    ⟨.registerWrite 3 16 0 (.write []), by decide +kernel⟩⟩

theorem witness_FusesAreOnlyEverBlown :
    ∃ (s t : State), step s = .next t :=
  ⟨st up, { st up with dev := up.framePasses }, rfl⟩

theorem witness_HoistRunsInItsOrder :
    (∃ (s : State), s.dev.clk.phase = .locking ∧ s.dev.clk.now ≤ s.dev.clk.timeZero + us 100) ∧
    (∃ (s : State), s.dev.clk.phase = .locking ∧ s.dev.clk.timeZero + us 100 < s.dev.clk.now) ∧
    (∃ (s : State), s.dev.clk.phase = .locking ∧ s.dev.allLocked = true ∧ s.dev.clk.lastLock + us 1 ≤ s.dev.clk.now) ∧
    (∃ (s : State), s.dev.clk.phase = .synced ∧ 25 ≤ s.dev.clk.frame ∧ s.dev.jtag.scanned = false) ∧
    (∃ (s : State), s.dev.clk.phase = .released ∧ 33 ≤ s.dev.clk.frame) ∧
    (∃ (s : State) (n : Fin 25), s.dev.clk.phase = .locking ∧ s.dev.locked n.val = false ∧ s.dev.clk.timeZero + us 100
      ≤ s.dev.clk.now) :=
  ⟨⟨st ({ up with clk := { up.clk with phase := .locking, timeZero := up.clk.now } }), by decide +kernel⟩,
    ⟨st (phase .locking), by decide +kernel⟩,
    ⟨st ((List.range 25).foldl (fun d n => d.setLocked n true) (phase .locking)), by decide +kernel⟩,
    ⟨st (phase .synced), by decide +kernel⟩,
    ⟨st (phase .released), by decide +kernel⟩,
    ⟨st (phase .locking), 24, by decide +kernel⟩⟩

theorem witness_FabricTimeStepsAndExchanges :
    (∃ (s : State) (v : Nat) (rest : List Nat), s.dev.clk.steps = v :: rest ∧ s.dev.clk.fabRun = true ∧ s.dev.headless
      = false ∧ (∀ x ∈ s.dev.scheduled, (s.dev.fabTime + v) % 2 ^ 64 < x.1)) ∧
    (∃ (s : State) (v : Nat) (rest : List Nat), s.dev.clk.steps = v :: rest ∧ s.dev.clk.fabRun = true ∧ s.dev.headless
      = false ∧ 0 < v ∧ v < 2 ^ 63) ∧
    (∃ (s : State) (o : Nat), s.dev.clk.autoStep = some o ∧ s.dev.clk.fabRun = true ∧ s.dev.headless = false ∧
      s.dev.flag F.FAB_CTRL_AUTO_STEP = true ∧ (∀ x ∈ s.dev.scheduled, (s.dev.fabTime + o) % 2 ^ 64 < x.1)) ∧
    (∃ (s : State) (p : Fin 8) (e : Fin 32), s.dev.portUp (p.val, e.val) = true ∧ s.dev.peerFeat (p.val, e.val) 1 =
      true ∧ s.dev.timexDue (p.val, e.val) = true) ∧
    (∃ (s : State) (p : Fin 8) (e : Fin 32) (b : List (BitVec 8)), s.dev.portUp (p.val, e.val) = true ∧ s.dev.peerFeat
      (p.val, e.val) 1 = true ∧ b.length = 240 ∧ leAt b 0 1 = 1) ∧
    (∃ (s : State) (p : Fin 8) (e : Fin 32) (b : List (BitVec 8)), s.dev.portUp (p.val, e.val) = true ∧ b.length = 240
      ∧ (s.dev.timexOf (p.val, e.val)).waiting = true ∧ leAt b 0 1 = 2 ∧ leAt b 2 2 = (s.dev.timexOf (p.val,
      e.val)).exch) ∧
    (∃ (s : State) (p : Fin 8) (e : Fin 32), (s.dev.timexOf (p.val, e.val)).waiting = true ∧ (s.dev.timexOf (p.val,
      e.val)).sentAt + us 4 ≤ s.dev.clk.now) :=
  ⟨⟨st ({ up with clk := { up.clk with steps := [7] } }), 7, [], by decide +kernel⟩,
    ⟨st ({ up with clk := { up.clk with steps := [2 ^ 63 - 1] } }), 2 ^ 63 - 1, [], by decide +kernel⟩,
    ⟨st ({ on [(F.FAB_CTRL_AUTO_STEP, [], 1)] with clk := { up.clk with autoStep := some 5 } }), 5, by decide +kernel⟩,
    ⟨st (prt 1 [(F.LNE_CAPS_PEER_BYTES, [7, 130, 3], 0x2000000)]), 7, 31, by decide +kernel⟩,
    ⟨st (prt 1 [(F.LNE_CAPS_PEER_BYTES, [7, 130, 3], 0x2000000)]), 7, 31, 1 :: List.replicate 239 0,
      by decide +kernel⟩,
    ⟨st ({ prt 1 [] with clk := { up.clk with timex := [([7, 31], ⟨5, 0, 0, 0, true, false⟩)] } }), 7, 31, [2, 0, 5,
      0] ++ List.replicate 236 0, by decide +kernel⟩,
    ⟨st ({ up with clk := { up.clk with timex := [([7, 31], ⟨5, 0, 0, 0, true, false⟩)] } }), 7, 31,
      by decide +kernel⟩⟩

theorem witness_HoldsStepsAndTheRunAnchor :
    (∃ (s : State) (iss : Issuer) (i : Fin 48) (v : BitVec 32), s.dev.lands iss .MST_CLK_HOLD [i.val] v.toNat = true) ∧
    (∃ (s : State) (h : List Nat × Nat), h ∈ s.dev.clk.holdSince ∧ h.2 + ms 10 < s.dev.clk.now) ∧
    (∃ (s : State) (g : Fin 1520) (p l : Nat), laneIsland g.val = some (p, l) ∧ s.dev.laneState p l = 6 ∧
      s.dev.islandOn g.val = true ∧ s.dev.islandHeldOn g.val = false ∧ ratioIsland g.val = none) ∧
    (∃ (s : State) (iss : Issuer) (v : BitVec 64), s.dev.lands iss .FAB_STEP [] v.toNat = true) ∧
    (∃ (s : State) (iss : Issuer) (v : BitVec 64), s.dev.lands iss .MST_DET_ANCHOR [] v.toNat = true) ∧
    (∃ (s : State), s.dev.anchorHolds = true ∧ s.dev.eng.anchorAt < s.dev.clk.now ∧ s.dev.flag
      F.MST_DET_CTRL_ANCHOR_EN = true ∧ s.dev.getF F.MST_DET_ANCHOR_ANCHOR ≤ s.dev.fabTime) ∧
    (∃ (s : State), s.dev.anchorHolds = true ∧ s.dev.eng.anchorAt < s.dev.clk.now ∧ s.dev.flag
      F.MST_DET_CTRL_ANCHOR_EN = false) ∧
    (∃ (s : State) (iss : Issuer) (v : BitVec 32), s.dev.lands iss .MST_DET_CTRL [] (v.toNat ||| 0x2) = true) :=
  ⟨⟨st up, .pf 0, 47, 0xFFFF, by decide +kernel⟩,
    ⟨st ({ up with clk := { up.clk with holdSince := [([47], 0)] } }), ([47], 0), by decide +kernel⟩,
    ⟨st (on [(F.LNE_STAT_STATE, [7, 130], 6)]), 1114, 7, 130, by decide +kernel⟩,
    ⟨st up, .pf 0, 5, by decide +kernel⟩,
    ⟨st up, .plan 3, 5, by decide +kernel⟩,
    ⟨st ({ on [(F.MST_DET_CTRL_ANCHOR_EN, [], 1)] with eng := { up.eng with anchorFrom := some 0 } }),
      by decide +kernel⟩,
    ⟨st ({ up with eng := { up.eng with anchorFrom := some 0 } }), by decide +kernel⟩,
    ⟨st up, .pf 0, 0, by decide +kernel⟩⟩

theorem witness_ResetsAndStartsOfTheDevice :
    (∃ (s : State), s.dev.clk.phase = .off) ∧
    (∃ (s : State), s.dev.clk.phase ≠ .off) ∧
    (∃ (s : State), s.dev.clk.phase = .held ∧ s.dev.clk.badStart = false ∧ s.dev.clk.brown = false ∧ s.dev.holdRunning
      = false) ∧
    (∃ (s : State), s.dev.clk.phase = .held ∧ s.dev.clk.badStart = true) ∧
    (∃ (s : State) (good : BitVec 11), good ≠ 0x7FF ∧ s.dev.clk.phase = .running) ∧
    (∃ (s : State), s.dev.clk.phase = .held ∧ s.dev.clk.brown = true) ∧
    (∃ (s : State), s.dev.clk.phase = .running ∧ s.dev.clk.sysref = true) ∧
    (∃ (s : State), s.dev.clk.phase = .held ∧ s.dev.clk.sysref = true) ∧
    (∃ (s : State), s.dev.clk.phase ≠ .off ∧ s.dev.clk.sysref = false) ∧
    (∃ (s : State), s.dev.clk.phase ≠ .off) ∧
    (∃ (s : State), s.dev.clk.phase ≠ .off ∧ s.dev.pwr.trip = false) :=
  ⟨⟨st (phase .off), by decide +kernel⟩,
    ⟨st up, by decide +kernel⟩,
    ⟨State.reset, by decide +kernel⟩,
    ⟨st ({ up with clk := { up.clk with phase := .held, badStart := true } }), by decide +kernel⟩,
    ⟨st up, 0x7FE, by decide +kernel⟩,
    ⟨st ({ up with clk := { up.clk with phase := .held, brown := true } }), by decide +kernel⟩,
    ⟨st ({ up with clk := { up.clk with sysref := true } }), by decide +kernel⟩,
    ⟨st ({ up with clk := { up.clk with phase := .held, sysref := true } }), by decide +kernel⟩,
    ⟨st ({ up with clk := { up.clk with sysref := false } }), by decide +kernel⟩,
    ⟨st up, by decide +kernel⟩,
    ⟨st up, by decide +kernel⟩⟩

theorem witness_ResetRequestsAndTheirRelease :
    (∃ (s : State) (iss : Issuer), s.dev.lands iss .MST_RST_REQ [] (rstReqWord 1 false 0xA5 0) = true ∧
      s.dev.clk.phase ≠ .off ∧ s.dev.clk.phase ≠ .refAbsent ∧ s.dev.clk.phase ≠ .tripped) ∧
    (∃ (s : State) (iss : Issuer), s.dev.lands iss .MST_RST_REQ [] (rstReqWord 1 false 0xA5 0) = true ∧
      (s.dev.clk.phase = .refAbsent ∨ s.dev.clk.phase = .tripped)) ∧
    (∃ (s : State) (iss : Issuer) (target : BitVec 16) (n : DieNo), s.dev.lands iss .MST_RST_REQ [] (rstReqWord 2
      false 0xA5 target) = true ∧ s.dev.flag F.MST_RST_STAT_BUSY = false ∧ resetDie target.toNat = some n ∧
      s.dev.dieAbsent n = false) ∧
    (∃ (s : State) (iss : Issuer) (target : BitVec 16), s.dev.lands iss .MST_RST_REQ [] (rstReqWord 3 false 0xA5
      target) = true ∧ s.dev.flag F.MST_RST_STAT_BUSY = false ∧ 8 ≤ target.toNat ∧ target.toNat < 1520 ∧
      s.dev.dieAbsent (islandDie target.toNat) = false ∧ s.dev.islandOut target.toNat = false) ∧
    (∃ (s : State) (iss : Issuer) (target : BitVec 16) (flush : Bool), s.dev.lands iss .MST_RST_REQ [] (rstReqWord 4
      flush 0xA5 target) = true ∧ s.dev.flag F.MST_RST_STAT_BUSY = false ∧ s.dev.resetTargetOk 4 target.toNat = true ∧
      s.dev.unitOut target.toNat = false) ∧
    (∃ (s : State) (iss : Issuer) (key : BitVec 8) (target : BitVec 16), key ≠ 0xA5 ∧ s.dev.lands iss .MST_RST_REQ []
      (rstReqWord 2 false key target) = true) ∧
    (∃ (s : State) (t since : Nat), s.dev.rst.req = some ⟨4, t, since⟩ ∧ s.dev.clk.phase = .running ∧ s.dev.unitOut t
      = false) ∧
    (∃ (s : State) (g : Fin 1520) (since : Nat), s.dev.rst.req = some ⟨3, g.val, since⟩ ∧ s.dev.clk.phase = .running ∧
      s.dev.islandOut g.val = false ∧ s.dev.jtag.scanned = false ∧ s.dev.islandInService g.val = true) :=
  ⟨⟨st up, .pf 0, by decide +kernel⟩,
    ⟨st (phase .tripped), .pf 0, by decide +kernel⟩,
    ⟨st up, .pf 0, 0x43FF, 16, by decide +kernel⟩,
    ⟨st up, .pf 0, 1519, by decide +kernel⟩,
    ⟨st up, .pf 0, 0x5720, true, by decide +kernel⟩,
    ⟨st up, .pf 0, 0x5A, 0x43FF, by decide +kernel⟩,
    ⟨st ({ up with rst := { up.rst with req := some ⟨4, 0x4000, 0⟩ } }), 0x4000, 0, by decide +kernel⟩,
    ⟨st ({ up with rst := { up.rst with req := some ⟨3, 1519, 0⟩ } }), 1519, 0, by decide +kernel⟩⟩

theorem witness_FusesAreProgrammedThroughOneRegister :
    (∃ (s : State) (iss : Issuer) (arg : BitVec 8), s.dev.lands iss .MST_FUSE_PROG [] (fuseProgWord 1 arg 0xF05E) =
      true ∧ s.dev.flag F.MST_SEC_FUSE_PROG_BUSY = false ∧ s.dev.getF F.MST_SEC_FUSE_SEC_VER_MIN ≤ arg.toNat ∧
      arg.toNat ≤ s.dev.getF F.MST_BOOT_STAT_SEC_VER ∧ arg.toNat ≤ 64) ∧
    (∃ (s : State) (iss : Issuer) (arg : BitVec 8), s.dev.lands iss .MST_FUSE_PROG [] (fuseProgWord 2 arg 0xF05E) =
      true ∧ s.dev.flag F.MST_SEC_FUSE_PROG_BUSY = false ∧ arg.toNat ≤ 3) ∧
    (∃ (s : State) (iss : Issuer) (arg : BitVec 8), s.dev.lands iss .MST_FUSE_PROG [] (fuseProgWord 3 arg 0xF05E) =
      true ∧ s.dev.flag F.MST_SEC_FUSE_PROG_BUSY = false) ∧
    (∃ (s : State) (iss : Issuer) (arg : BitVec 8) (confirm : BitVec 16), confirm ≠ 0xF05E ∧ s.dev.lands iss
      .MST_FUSE_PROG [] (fuseProgWord 2 arg confirm) = true) ∧
    (∃ (s : State) (op arg : Nat), s.dev.boot.prog = some (op, arg)) :=
  ⟨⟨st (on [(F.MST_BOOT_STAT_SEC_VER, [], 64)]), .pf 0, 64, by decide +kernel⟩,
    ⟨st up, .pf 0, 3, by decide +kernel⟩,
    ⟨st up, .pf 0, 0, by decide +kernel⟩,
    ⟨st up, .pf 0, 3, 0, by decide +kernel⟩,
    ⟨st ({ up with boot := { up.boot with prog := some (2, 3) } }), 2, 3, by decide +kernel⟩⟩

theorem witness_BootReadinessAndStackTests :
    (∃ (s : State), s.dev.boot.started = false ∧ s.dev.islandOn 7 = true) ∧
    (∃ (s : State) (iss : Issuer) (w : Fin 1048576) (v : BitVec 32), s.dev.lands iss .MST_RECOVERY [w.val] v.toNat =
      true) ∧
    (∃ (s : State) (iss : Issuer), s.dev.lands iss .MST_BOOT_CTRL [] 1 = true ∧ s.dev.getF F.MST_BOOT_STAT_RESULT = 4) ∧
    (∃ (s : State) (x : Fin 4) (f : Fin 37), f.val = 25 + x.val ∧ s.dev.clk.phase = .running ∧ s.dev.islandOn (1 +
      x.val) = true) ∧
    (∃ (s : State) (k : Fin 8) (f : Fin 37), f.val = 29 + k.val ∧ s.dev.clk.phase = .running ∧ s.dev.dieOk (17 +
      k.val) = true ∧ nget? s.dev.rst.dies [17 + k.val] = none ∧ k.val ∈ s.dev.bank.tested) ∧
    (∃ (s : State) (k : Fin 8), s.dev.clk.phase = .running ∧ s.dev.dieOk (17 + k.val) = true ∧ nget? s.dev.rst.dies
      [17 + k.val] = none ∧ k.val ∉ s.dev.bank.tested) :=
  ⟨⟨st up, by decide +kernel⟩,
    ⟨st (on [(F.MST_BOOT_STAT_RESULT, [], 4)]), .pf 0, 1048575, 1, by decide +kernel⟩,
    ⟨st (on [(F.MST_BOOT_STAT_RESULT, [], 4)]), .pf 0, by decide +kernel⟩,
    ⟨st up, 3, 28, by decide +kernel⟩,
    ⟨st up, 7, 36, by decide +kernel⟩,
    ⟨st ({ up with bank := { up.bank with tested := [] } }), 7, by decide +kernel⟩⟩

theorem witness_HostPortsResetAndLinkUp :
    (∃ (s : State) (x : Fin 4), s.dev.islandOn (1 + x.val) = true) ∧
    (∃ (s : State) (x : Fin 4), s.dev.clk.phase = .running ∧ s.dev.headless = false ∧ s.dev.islandOn (1 + x.val) =
      false ∧ s.dev.jtag.scanned = false) ∧
    (∃ (s : State) (x : Fin 4) (rate : BitVec 3) (width : BitVec 4) (flit : Bool), s.dev.islandOn (1 + x.val) = true ∧
      linkOk rate width flit = true) :=
  ⟨⟨st up, 3, by decide +kernel⟩,
    ⟨st (on [(F.MST_CLKON_ON, [0], 0xFFFFFFEF)]), 3, by decide +kernel⟩,
    ⟨st up, 3, 5, 8, true, by decide +kernel⟩⟩

theorem witness_HostRegisterAndApertureAccesses :
    (∃ (s : State) (x : Fin 4) (q : Fin 16) (off : Nat) (bytes : List (BitVec 8)) (r : RegDesc), r.reg = .HST_RR_BASE
      ∧ r.width = 64 ∧ off < 0x1000000 ∧ regAt (mastBlock + off) = some (r, [x.val, 0, q.val]) ∧ bytes.length = 8 ∧
      s.dev.lands (.pf x) .HST_RR_BASE [x.val, 0, q.val] (ofLE bytes) = true) ∧
    (∃ (s : State) (x : Fin 4) (off : Nat) (bytes : List (BitVec 8)) (r : RegDesc) (idx : List Nat), off < 0x1000000 ∧
      regAt (mastBlock + off) = some (r, idx) ∧ 0 < bytes.length ∧ bytes.length ≤ 512 ∧ 8 * bytes.length ≠ r.width ∧
      s.dev.portClear (.pf x) = true) ∧
    (∃ (s : State) (x : Fin 4) (off : Nat) (bytes : List (BitVec 8)), off < 0x1000000 ∧ regAt (mastBlock + off) = none
      ∧ 0 < bytes.length ∧ bytes.length ≤ 512 ∧ s.dev.portClear (.pf x) = true) ∧
    (∃ (s : State) (x : Fin 4) (off n : Nat), off < 0x1000000 ∧ 0 < n ∧ n ≤ 4096 ∧ s.dev.portClear (.pf x) = true ∧ (∀
      r idx, regAt (mastBlock + off) = some (r, idx) → 8 * n ≠ r.width)) ∧
    (∃ (s : State) (x : Fin 4) (off n : Nat) (r : RegDesc) (idx : List Nat), off < 0x1000000 ∧ regAt (mastBlock + off)
      = some (r, idx) ∧ 8 * n = r.width ∧ 0 < n ∧ n ≤ 4096 ∧ s.dev.portClear (.pf x) = true ∧ s.dev.reach r.reg idx =
      .open) ∧
    (∃ (s : State) (x : Fin 4) (off n a : Nat), 0 < n ∧ n ≤ 4096 ∧ off + n ≤ bar4Size ∧ a = s.dev.getF
      F.HST_APER_BASE_BASE [x.val] * 2 ^ 36 + off ∧ s.dev.portClear (.pf x) = true ∧ s.dev.aperRefused x.val a n false
      = none ∧ s.dev.memStopped a n = none ∧ s.dev.memServed a n = true) ∧
    (∃ (s : State) (x : Fin 4) (off a k : Nat) (bytes : List (BitVec 8)), 0 < bytes.length ∧ bytes.length ≤ 512 ∧ off
      + bytes.length ≤ bar4Size ∧ a = s.dev.getF F.HST_APER_BASE_BASE [x.val] * 2 ^ 36 + off ∧ place a = .stack k ∧ a
      + bytes.length ≤ (k + 1) * 0xC00000000 ∧ s.dev.portClear (.pf x) = true ∧ s.dev.aperRefused x.val a bytes.length
      true = none ∧ s.dev.memStopped a bytes.length = none ∧ s.dev.memServed a bytes.length = true) ∧
    (∃ (s : State) (x : Fin 4) (off a : Nat) (bytes : List (BitVec 8)), 0 < bytes.length ∧ bytes.length ≤ 512 ∧ off +
      bytes.length ≤ bar4Size ∧ a = s.dev.getF F.HST_APER_BASE_BASE [x.val] * 2 ^ 36 + off ∧ s.dev.portClear (.pf x) =
      true ∧ s.dev.aperRefused x.val a bytes.length true = some false) ∧
    (∃ (s : State) (iss : Issuer) (x : Fin 4) (write size64 : Bool), s.dev.lands iss .HST_IND_CTRL [x.val] (indGoWord
      write size64) = true ∧ s.dev.flag F.HST_IND_STAT_BUSY [x.val] = false) ∧
    (∃ (s : State) (x : Fin 4) (a : IndAcc) (r : RegDesc) (idx : List Nat), nget? s.dev.host.ind [x.val] = some a ∧
      a.write = false ∧ s.dev.portRuns x.val = true ∧ regAt a.addr = some (r, idx) ∧ (if a.size64 then 64 else 32) =
      r.width ∧ s.dev.reach r.reg idx = .open) ∧
    (∃ (s : State) (iss : Issuer) (x : Fin 4), s.dev.lands iss .HST_IND_CTRL [x.val] 8 = true ∧ s.dev.flag
      F.HST_IND_STAT_BUSY [x.val] = true) :=
  ⟨⟨st up, 3, 15, 1448896, leBytes 8 0x1000, (descOf .HST_RR_BASE).get (by decide +kernel), by decide +kernel⟩,
    ⟨st up, 0, 2592, [0, 0, 0], (descOf .MST_RST_REQ).get (by decide +kernel), [], by decide +kernel⟩,
    ⟨st up, 0, 0xFFFFFF, [0], by decide +kernel⟩,
    ⟨st up, 0, 0xFFFFFF, 1, by decide +kernel, by decide +kernel, by decide +kernel, by decide +kernel, fun _ _ h =>
      nomatch (show regAt (mastBlock + 0xFFFFFF) = none by decide +kernel).symm.trans h⟩,
    ⟨st up, 0, 2592, 4, (descOf .MST_RST_REQ).get (by decide +kernel), [], by decide +kernel⟩,
    ⟨st up, 0, 0, 4096, 0, by decide +kernel⟩,
    ⟨st up, 0, 0xBFFFFFFFF, 0xBFFFFFFFF, 0, [1], by decide +kernel⟩,
    ⟨st (on [(F.HST_APER_BASE_BASE, [0], 6)]), 0, 0, 0x6000000000, [1], by decide +kernel⟩,
    ⟨st up, .pf 0, 3, true, true, by decide +kernel⟩,
    ⟨st ({ up with host := { up.host with ind := [([3], ⟨.pf 3, mastBlock + 2592, 0, false, false⟩)] } }), 3, ⟨.pf 3,
      mastBlock + 2592, 0, false, false⟩, (descOf .MST_RST_REQ).get (by decide +kernel), [], by decide +kernel⟩,
    ⟨st (on [(F.HST_IND_STAT_BUSY, [3], 1)]), .pf 0, 3, by decide +kernel⟩⟩

theorem witness_CommandRingsAndPushes :
    (∃ (s : State) (iss : Issuer) (x : Fin 4) (f : Fin 17) (r : Fin 32) (v : BitVec 32), s.dev.lands iss .HST_CR_CFG
      [x.val, f.val, r.val] v.toNat = true ∧ s.dev.getF F.HST_CR_STAT_STATE [x.val, f.val, r.val] = 0) ∧
    (∃ (s : State) (iss : Issuer) (x : Fin 4) (f : Fin 17) (r : Fin 32) (q : Nat), s.dev.lands iss .HST_CR_CTRL
      [x.val, f.val, r.val] 1 = true ∧ s.dev.getF F.HST_CR_STAT_STATE [x.val, f.val, r.val] = 0 ∧ s.dev.armCheck
      [x.val, f.val, r.val] = .ok q) ∧
    (∃ (s : State) (iss : Issuer) (x : Fin 4) (f : Fin 17) (r : Fin 32), s.dev.lands iss .HST_CR_CTRL [x.val, f.val,
      r.val] 2 = true) ∧
    (∃ (s : State) (x : Fin 4) (f : Fin 17) (r : Fin 32) (k : Nat) (bytes : List (BitVec 8)), bytes.length = 32 ∧ 32 *
      k + 32 ≤ 0x20000 ∧ (nget emptySlot s.dev.host.slots [x.val, f.val, r.val, k]).length = 32 ∧ s.dev.fnRuns x.val
      f.val = true ∧ nget [] s.dev.host.posted [x.val] = [] ∧ s.dev.pushOk [x.val, f.val, r.val] (32 * k) bytes = true
      ∧ s.dev.pushHeld [x.val, f.val, r.val] (32 * k) bytes = false) ∧
    (∃ (s : State) (x : Fin 4) (f : Fin 17) (off n : Nat), 0 < n ∧ n ≤ 4096 ∧ off + n ≤ 0x20000 ∧ s.dev.fnRuns x.val
      f.val = true ∧ nget [] s.dev.host.posted [x.val] = []) ∧
    (∃ (s : State) (x : Fin 4) (f : Fin 17) (r : Fin 32) (k : Nat) (bytes : List (BitVec 8)), bytes.length = 32 ∧ 32 *
      k + 32 ≤ 0x20000 ∧ s.dev.fnRuns x.val f.val = true ∧ nget [] s.dev.host.posted [x.val] = [] ∧ s.dev.pushHeld
      [x.val, f.val, r.val] (32 * k) bytes = true) ∧
    (∃ (s : State) (x : Fin 4) (f : Fin 17) (r : Fin 32) (k : Nat) (bytes : List (BitVec 8)), bytes.length = 32 ∧ 32 *
      k + 32 ≤ 0x20000 ∧ (nget emptySlot s.dev.host.slots [x.val, f.val, r.val, k]).length = 32 ∧ s.dev.portRuns x.val
      = true ∧ nget [] s.dev.host.posted [x.val] = [.mem f.val 2 (r.val * 0x20000 + 32 * k) (.write bytes)] ∧
      s.dev.pushOk [x.val, f.val, r.val] (32 * k) bytes = true ∧ s.dev.pushHeld [x.val, f.val, r.val] (32 * k) bytes =
      false) ∧
    (∃ (s : State) (iss : Issuer) (x : Fin 4) (f : Fin 17) (r : Fin 32) (n : BitVec 32) (b : RingBind), s.dev.lands
      iss .HST_CR_DB [x.val, f.val, r.val] n.toNat = true ∧ nget? s.dev.host.binds [x.val, f.val, r.val] = some b ∧
      s.dev.getF F.HST_CR_STAT_STATE [x.val, f.val, r.val] = 1 ∧ (n.toNat + 2 ^ 32 - s.dev.getF
      F.HST_CR_COUNT_CONSUMED [x.val, f.val, r.val]) % 2 ^ 32 ≤ b.size ∧ (n.toNat + 2 ^ 32 - s.dev.getF
      F.HST_CR_COUNT_PRODUCED [x.val, f.val, r.val]) % 2 ^ 32 ≤ b.size ∧ s.dev.ptrsOk 0 [x.val, f.val, r.val] = true) :=
  ⟨⟨st up, .pf 0, 3, 16, 31, 0, by decide +kernel⟩,
    ⟨st (on [(F.HST_CR_CFG_SIZE_LOG2, [3, 16, 31], 12), (F.HST_CR_CFG_TACKLE, [3, 16, 31], 0x4000)]), .pf 0, 3, 16,
      31, 3, by decide +kernel⟩,
    ⟨st up, .pf 0, 3, 16, 31, by decide +kernel⟩,
    ⟨st
      ({ on [(F.HST_PORT_STAT_NUM_VF, [3], 16)] with host := { up.host with binds := [([3, 16, 31], ⟨0x4000, 3, 4096, 0⟩)] } }),
      3, 16, 31, 4095, List.replicate 32 0, by decide +kernel⟩,
    ⟨st (on [(F.HST_PORT_STAT_NUM_VF, [3], 16)]), 3, 16, 0x1FFFF, 1, by decide +kernel⟩,
    ⟨st
      ({ on [(F.HST_PORT_STAT_NUM_VF, [3], 16), (F.HST_CR_COUNT_PRODUCED, [3, 16, 31], 4096)] with host := { up.host with binds := [([3, 16, 31], ⟨0x4000, 3, 4096, 0⟩)] } }),
      3, 16, 31, 4095, List.replicate 32 0, by decide +kernel⟩,
    ⟨st
      ({ up with host := { up.host with binds := [([3, 16, 31], ⟨0x4000, 3, 4096, 0⟩)], posted := [([3], [.mem 16 2 (31 * 0x20000 + 32 * 4095) (.write (List.replicate 32 0))])] } }),
      3, 16, 31, 4095, List.replicate 32 0, by decide +kernel⟩,
    ⟨st
      ({ on [(F.HST_CR_STAT_STATE, [3, 16, 31], 1)] with host := { up.host with binds := [([3, 16, 31], ⟨0x4000, 3, 4096, 0⟩)] } }),
      .pf 0, 3, 16, 31, 4096, ⟨0x4000, 3, 4096, 0⟩, by decide +kernel⟩⟩

theorem witness_RecordRings :
    (∃ (s : State) (iss : Issuer) (x : Fin 4) (f : Fin 17) (q : Fin 16), s.dev.lands iss .HST_RR_CTRL [x.val, f.val,
      q.val] 1 = true ∧ s.dev.getF F.HST_RR_STAT_STATE [x.val, f.val, q.val] = 0 ∧ 12 ≤ s.dev.getF
      F.HST_RR_CFG_SIZE_LOG2 [x.val, f.val, q.val] ∧ s.dev.getF F.HST_RR_CFG_SIZE_LOG2 [x.val, f.val, q.val] ≤ 26 ∧
      s.dev.getF F.HST_RR_BASE_BASE [x.val, f.val, q.val] % 2 ^ s.dev.getF F.HST_RR_CFG_SIZE_LOG2 [x.val, f.val,
      q.val] = 0) ∧
    (∃ (s : State) (iss : Issuer) (x : Fin 4) (f : Fin 17) (q : Fin 16), s.dev.lands iss .HST_RR_CTRL [x.val, f.val,
      q.val] 2 = true) ∧
    (∃ (s : State) (iss : Issuer) (x : Fin 4) (f : Fin 17) (q : Fin 16) (v : BitVec 64), s.dev.lands iss .HST_RR_COUNT
      [x.val, f.val, q.val] v.toNat = true ∧ s.dev.ptrsOk 1 [x.val, f.val, q.val] = true ∧ s.dev.getF
      F.HST_RR_COUNT_PRODUCED [x.val, f.val, q.val] < 2 ^ 32) ∧
    (∃ (s : State) (ring : Fin 2048) (r : Rec) (rest : List Rec) (i : List Nat), s.dev.headless = false ∧
      s.dev.host.recs = r :: rest ∧ r.ring = ring.val ∧ s.dev.recFate s.fuses.debugClosed r = .ring i ∧ s.dev.getF
      F.HST_RR_COUNT_PRODUCED i % s.dev.rrBytes i + recSize r.bytes ≤ s.dev.rrBytes i ∧ s.dev.ptrsOk 1 i = true ∧
      s.dev.getF F.HST_RR_COUNT_RELEASED i < 2 ^ 32) :=
  ⟨⟨st (on [(F.HST_RR_CFG_SIZE_LOG2, [3, 16, 15], 26)]), .pf 0, 3, 16, 15, by decide +kernel⟩,
    ⟨st up, .pf 0, 3, 16, 15, by decide +kernel⟩,
    ⟨st up, .pf 0, 3, 16, 15, 64, by decide +kernel⟩,
    ⟨st
      ({ on [(F.HST_RR_STAT_STATE, [0, 0, 0], 1), (F.HST_RR_CFG_SIZE_LOG2, [0, 0, 0], 12)] with host := { up.host with recs := [⟨0, cmd [(0, 4, 32)], none⟩] } }),
      0, ⟨0, cmd [(0, 4, 32)], none⟩, [], [0, 0, 0], by decide +kernel⟩⟩

theorem witness_ProtectionSetUpChanges :
    (∃ (s : State) (iss : Issuer) (p : Fin 8) (e : Fin 32) (i : Fin 64) (v : BitVec 32), s.dev.lands iss .PRT_PKEY
      [p.val, e.val, i.val] v.toNat = true) ∧
    (∃ (s : State) (c : ProtChg), s.dev.host.prot = [c] ∧ s.dev.protDone c = true ∧ c.num < 2 ^ 32) ∧
    (∃ (s : State) (iss : Issuer) (p : Fin 8) (e : Fin 32) (v : BitVec 32), s.dev.lands iss .PRT_PORT_CFG [p.val,
      e.val] v.toNat = true ∧ s.dev.portCfgBad p.val e.val v.toNat = false ∧ s.dev.flag F.PRT_PORT_CFG_EN [p.val,
      e.val] = false) :=
  ⟨⟨st up, .pf 0, 7, 31, 63, 1, by decide +kernel⟩,
    ⟨st ({ up with host := { up.host with prot := [⟨1, 0, [], []⟩] } }), ⟨1, 0, [], []⟩, by decide +kernel⟩,
    ⟨st up, .pf 0, 7, 31, BitVec.ofNat 32 (2 ^ F.PRT_PORT_CFG_MIN_LIVE.lo + 127), by decide +kernel⟩⟩

theorem witness_LanesComeUp :
    (∃ (s : State) (p : Fin 8) (l : Fin 132) (k : Nat × Nat) (i : Nat), s.dev.flag F.LNE_CTRL_EN [p.val, l.val] = true
      ∧ s.dev.laneDenied p.val l.val = false ∧ s.dev.laneOwner p.val l.val = some (k, i) ∧ s.dev.laneState p.val l.val
      = 1) ∧
    (∃ (s : State) (p : Fin 8) (l : Fin 132) (k : Nat × Nat) (i : Nat), s.dev.laneState p.val l.val = 2 ∧
      s.dev.laneOwner p.val l.val = some (k, i)) ∧
    (∃ (s : State) (p : Fin 8) (l : Fin 132), s.dev.laneState p.val l.val = 3) ∧
    (∃ (s : State) (p : Fin 8) (l : Fin 132) (t : Nat), s.dev.laneLimit p.val l.val = some t ∧ (s.dev.lane p.val
      l.val).since + t ≤ s.dev.clk.now) ∧
    (∃ (s : State) (p : Fin 8) (l : Fin 132) (k : Nat × Nat) (i : Nat) (b : List (BitVec 8)), b.length = 32 ∧
      s.dev.laneState p.val l.val = 4 ∧ s.dev.laneOwner p.val l.val = some (k, i) ∧ s.dev.portUp k = false) ∧
    (∃ (s : State) (p : Fin 8) (e : Fin 32) (lat : List (BitVec 16 × BitVec 8 × BitVec 8)), s.dev.flag
      F.PRT_PORT_CFG_EN [p.val, e.val] = true ∧ s.dev.portUp (p.val, e.val) = false ∧ s.dev.upLanes (p.val, e.val) ≠
      [] ∧ s.dev.getF F.PRT_PORT_CFG_MIN_LIVE [p.val, e.val] ≤ (s.dev.upLanes (p.val, e.val)).length ∧ lat.length =
      (s.dev.upLanes (p.val, e.val)).length ∧ s.dev.seqBegins 0 0 = true ∧ (∀ j ∈ s.dev.upLanes (p.val, e.val),
      s.dev.laneReady (p.val, e.val) j = true)) ∧
    (∃ (s : State) (p : Fin 8) (l : Fin 132) (k : Nat × Nat) (i q : Nat), s.dev.laneState p.val l.val = 0xB ∧
      s.dev.laneOwner p.val l.val = some (k, i) ∧ s.dev.positionOf p.val l.val = some q ∧ i < 16) ∧
    (∃ (s : State) (p : Fin 8) (l : Fin 132) (k : Nat × Nat) (i q : Nat), s.dev.laneState p.val l.val = 0xB ∧
      s.dev.laneOwner p.val l.val = some (k, i) ∧ s.dev.positionOf p.val l.val = some q ∧ q < 128 ∧ l.val % 33 ≠ 32 ∧
      s.dev.laneState p.val (33 * (q / 32) + 32) = 9) ∧
    (∃ (s : State) (p : Fin 8) (l : Fin 132) (k : Nat × Nat) (i : Nat), s.dev.laneOwner p.val l.val = some (k, i) ∧
      s.dev.laneState p.val l.val = 8 ∧ bit (s.dev.portLn k).narrowed i = true ∧ (s.dev.lane p.val l.val).since + sec
      (s.dev.getF F.PRT_PORT_CFG_RETRY_S [k.1, k.2]) ≤ s.dev.clk.now) :=
  ⟨⟨st (prt 0 [(F.LNE_STAT_STATE, [7, 130], 1), (F.LNE_CTRL_EN, [7, 130], 1)]), 7, 130, (7, 31), 0,
      by decide +kernel⟩,
    ⟨st (prt 0 [(F.LNE_STAT_STATE, [7, 130], 2)]), 7, 130, (7, 31), 0, by decide +kernel⟩,
    ⟨st (prt 0 [(F.LNE_STAT_STATE, [7, 130], 3)]), 7, 130, by decide +kernel⟩,
    ⟨st (prt 0 [(F.LNE_STAT_STATE, [7, 130], 4)]), 7, 130, ms 5, by decide +kernel⟩,
    ⟨st (prt 0 [(F.LNE_STAT_STATE, [7, 130], 4)]), 7, 130, (7, 31), 0, List.replicate 32 0, by decide +kernel⟩,
    ⟨st
      ({ prt 0 [(F.LNE_STAT_STATE, [7, 130], 4)] with ln := { up.ln with lanes := [([7, 130], { LaneSt.init with accepted := true, acked := true })] } }),
      7, 31, [(0, 0, 0)], by decide +kernel⟩,
    ⟨st (prt 0 [(F.LNE_STAT_STATE, [7, 130], 11)]), 7, 130, (7, 31), 0, 127, by decide +kernel⟩,
    ⟨st (prt 0 [(F.LNE_STAT_STATE, [7, 130], 11), (F.LNE_STAT_STATE, [7, 131], 9)]), 7, 130, (7, 31), 0, 127,
      by decide +kernel⟩,
    ⟨st (reefed (prt 0 [(F.LNE_STAT_STATE, [7, 130], 8)]) { PortLn.init with narrowed := 1 }), 7, 130, (7, 31), 0,
      by decide +kernel⟩⟩

theorem witness_LaneFaultsAndLaneSetChanges :
    (∃ (s : State) (p : Fin 8) (l : Fin 132) (cause : LaneCause) (k : Nat × Nat) (i : Nat), s.dev.laneOwner p.val
      l.val = some (k, i) ∧ s.dev.portUp k = true ∧ s.dev.laneState p.val l.val = 5 ∧ (s.dev.lane p.val l.val).after =
      none ∧ s.dev.causeHolds p.val l.val cause = true) ∧
    (∃ (s : State) (p : Fin 8) (e : Fin 32), s.dev.portUp (p.val, e.val) = true ∧ (s.dev.portLn (p.val, e.val)).reef =
      .none ∧ (s.dev.portLn (p.val, e.val)).announced = none ∧ ((s.dev.portLn (p.val, e.val)).queue ≠ [] ∨
      (s.dev.portLn (p.val, e.val)).dropReqs ≠ []) ∧ s.dev.seqBegins 0 224 = true) ∧
    (∃ (s : State) (p : Fin 8) (e : Fin 32) (i : Fin 16), (s.dev.portLn (p.val, e.val)).announced = some (true, i.val)
      ∧ s.dev.seqBegins 0 0 = true ∧ s.dev.getF F.PRT_PORT_CFG_MIN_LIVE [p.val, e.val] ≤ (onesOf 16 (setBit
      (s.dev.live16 (p.val, e.val) true) i.val)).length) ∧
    (∃ (s : State) (p : Fin 8) (e : Fin 32) (i : Fin 16), s.dev.portUp (p.val, e.val) = true ∧ (s.dev.portLn (p.val,
      e.val)).rxChange = none ∧ i.val < (s.dev.portSpan (p.val, e.val)).2) ∧
    (∃ (s : State) (p : Fin 8) (e : Fin 32) (i : Fin 16), s.dev.portUp (p.val, e.val) = true ∧ (s.dev.portLn (p.val,
      e.val)).rxChange = none ∧ i.val < (s.dev.portSpan (p.val, e.val)).2) ∧
    (∃ (s : State) (p : Fin 8) (e : Fin 32) (i : Fin 16), s.dev.portUp (p.val, e.val) = true ∧ i.val < (s.dev.portSpan
      (p.val, e.val)).2 ∧ bit (s.dev.live16 (p.val, e.val) true) i.val = true ∧ (s.dev.portLn (p.val,
      e.val)).announced ≠ some (false, i.val) ∧ (s.dev.portLn (p.val, e.val)).reef ≠ .reefed) ∧
    (∃ (s : State) (p : Fin 8) (e : Fin 32) (i : Fin 16), s.dev.portUp (p.val, e.val) = true ∧ i.val < (s.dev.portSpan
      (p.val, e.val)).2 ∧ bit (s.dev.live16 (p.val, e.val) true) i.val = true ∧ (s.dev.portLn (p.val,
      e.val)).announced ≠ some (false, i.val) ∧ (s.dev.portLn (p.val, e.val)).reef = .reefed) ∧
    (∃ (s : State) (p : Fin 8) (l : Fin 132), (s.dev.laneState p.val l.val = 4 ∨ s.dev.laneState p.val l.val = 5)) :=
  ⟨⟨st
      ({ prt 1 [(F.LNE_STAT_STATE, [7, 130], 5)] with ln := { up.ln with lanes := [([7, 130], { LaneSt.init with ucwRun := 8 })] } }),
      7, 130, .ucwRun, (7, 31), 0, by decide +kernel⟩,
    ⟨st (atFrame (reefed (wide []) { PortLn.init with queue := [(true, 15)] }) 1048611), 7, 31, by decide +kernel⟩,
    ⟨st (reefed (wide []) { PortLn.init with announced := some (true, 15) }), 7, 31, 15, by decide +kernel⟩,
    ⟨st (wide []), 7, 31, 15, by decide +kernel⟩,
    ⟨st (wide []), 7, 31, 15, by decide +kernel⟩,
    ⟨st (wide [(F.PRT_PORT_LIVE_TX_MASK, [7, 31], 0xFFFF)]), 7, 31, 15, by decide +kernel⟩,
    ⟨st (reefed (wide [(F.PRT_PORT_LIVE_TX_MASK, [7, 31], 0xFFFF)]) { PortLn.init with reef := .reefed }), 7, 31, 15,
      by decide +kernel⟩,
    ⟨st (prt 1 [(F.LNE_STAT_STATE, [7, 130], 5)]), 7, 130, by decide +kernel⟩⟩

theorem witness_LaneRegisterCommands :
    (∃ (s : State) (iss : Issuer) (p : Fin 8) (l : Fin 132) (v : BitVec 32) (k : Nat × Nat) (i : Nat), s.dev.lands iss
      .LNE_CTRL [p.val, l.val] (v.toNat ||| 0x10) = true ∧ bit v.toNat 5 = false ∧ bits v.toNat 8 8 = 0 ∧
      s.dev.laneOwner p.val l.val = some (k, i) ∧ s.dev.portUp k = false ∧ s.dev.laneState p.val l.val = 0xA) ∧
    (∃ (s : State) (iss : Issuer) (p : Fin 8) (l : Fin 132) (v : BitVec 32) (k : Nat × Nat) (i : Nat), s.dev.lands iss
      .LNE_CTRL [p.val, l.val] (v.toNat ||| 0x20) = true ∧ bit v.toNat 4 = false ∧ bits v.toNat 8 8 = 0 ∧
      s.dev.laneOwner p.val l.val = some (k, i) ∧ s.dev.portUp k = false ∧ 1 ≤ s.dev.laneState p.val l.val ∧
      s.dev.laneState p.val l.val ≤ 7) ∧
    (∃ (s : State) (iss : Issuer) (p : Fin 8) (l : Fin 132) (v : BitVec 32), s.dev.lands iss .LNE_CTRL [p.val, l.val]
      v.toNat = true ∧ bit v.toNat 1 = false ∧ bit v.toNat 4 = false ∧ bit v.toNat 5 = false ∧ bits v.toNat 8 8 ≠ 0) ∧
    (∃ (s : State) (iss : Issuer) (p : Fin 8) (l : Fin 132) (v : BitVec 32), s.dev.lands iss .LNE_TXEQ [p.val, l.val]
      v.toNat = true) ∧
    (∃ (s : State) (iss : Issuer) (p : Fin 8) (l : Fin 132) (v : BitVec 32), s.dev.lands iss .LNE_EYE_CTRL [p.val,
      l.val] (v.toNat ||| 0x1) = true ∧ s.dev.flag F.LNE_EYE_CTRL_BUSY [p.val, l.val] = true) ∧
    (∃ (s : State) (iss : Issuer) (p : Fin 8) (l : Fin 132) (v : BitVec 32), s.dev.lands iss .LNE_EYE_CTRL [p.val,
      l.val] (v.toNat ||| 0x1) = true ∧ s.dev.flag F.LNE_EYE_CTRL_BUSY [p.val, l.val] = false) ∧
    (∃ (s : State) (p : Fin 8) (l : Fin 132), s.dev.flag F.LNE_EYE_CTRL_BUSY [p.val, l.val] = true) :=
  ⟨⟨st (prt 0 [(F.LNE_STAT_STATE, [7, 130], 10)]), .pf 0, 7, 130, 1, (7, 31), 0, by decide +kernel⟩,
    ⟨st (prt 0 [(F.LNE_STAT_STATE, [7, 130], 7)]), .pf 0, 7, 130, 1, (7, 31), 0, by decide +kernel⟩,
    ⟨st up, .pf 0, 7, 131, 0xFF01, by decide +kernel⟩,
    ⟨st up, .pf 0, 7, 131, 0x20, by decide +kernel⟩,
    ⟨st (on [(F.LNE_EYE_CTRL_BUSY, [7, 131], 1)]), .pf 0, 7, 131, 0, by decide +kernel⟩,
    ⟨st up, .pf 0, 7, 131, 0, by decide +kernel⟩,
    ⟨st (on [(F.LNE_EYE_CTRL_BUSY, [7, 131], 1)]), 7, 131, by decide +kernel⟩⟩

theorem witness_PortsReefAndWake :
    (∃ (s : State) (p : Fin 8) (e : Fin 32) (idle since : Nat), s.dev.portUp (p.val, e.val) = true ∧ (s.dev.portLn
      (p.val, e.val)).reef = .none ∧ s.dev.portIdle (p.val, e.val) = true ∧ s.dev.getF F.PRT_PORT_REEF_IDLE [p.val,
      e.val] ≤ idle ∧ s.dev.reefFree (p.val, e.val) since = true ∧ s.dev.reefHeld (p.val, e.val) = false) ∧
    (∃ (s : State) (p : Fin 8) (e : Fin 32), s.dev.portUp (p.val, e.val) = true) ∧
    (∃ (s : State) (p : Fin 8) (e : Fin 32), s.dev.portUp (p.val, e.val) = true ∧ (s.dev.portLn (p.val, e.val)).reef =
      .asked) ∧
    (∃ (s : State) (p : Fin 8) (e : Fin 32), (s.dev.portLn (p.val, e.val)).reef = .asked) ∧
    (∃ (s : State) (p : Fin 8) (e : Fin 32), s.dev.clk.now < (s.dev.portLn (p.val, e.val)).reefAt + 64 * 1024) ∧
    (∃ (s : State) (p : Fin 8) (e : Fin 32), (s.dev.portLn (p.val, e.val)).reef = .asked ∧ (s.dev.portLn (p.val,
      e.val)).reefAt + 64 * 1024 ≤ s.dev.clk.now) ∧
    (∃ (s : State) (p : Fin 8) (e : Fin 32), (s.dev.portLn (p.val, e.val)).reef = .entering ∧ s.dev.reefHeld (p.val,
      e.val) = true) ∧
    (∃ (s : State) (p : Fin 8) (e : Fin 32), (s.dev.portLn (p.val, e.val)).reef = .entering ∧ (s.dev.portLn (p.val,
      e.val)).wake = false ∧ s.dev.reefHeld (p.val, e.val) = false) ∧
    (∃ (s : State) (p : Fin 8) (e : Fin 32), (s.dev.portLn (p.val, e.val)).reef = .reefed) ∧
    (∃ (s : State) (p : Fin 8) (e : Fin 32), (s.dev.portLn (p.val, e.val)).reef = .reefed) ∧
    (∃ (s : State) (p : Fin 8) (e : Fin 32), (s.dev.portLn (p.val, e.val)).reef = .waking) :=
  ⟨⟨st (prt 1 [(F.PRT_PORT_CFG_REEF_EN, [7, 31], 1), (F.LNE_CAPS_PEER_BYTES, [7, 130, 3], 0x1000000)]), 7, 31,
      0xFFFFFFFF, 0, by decide +kernel⟩,
    ⟨st (reefed (prt 1 []) { PortLn.init with reef := .asked }), 7, 31, by decide +kernel⟩,
    ⟨st (reefed (prt 1 []) { PortLn.init with reef := .asked }), 7, 31, by decide +kernel⟩,
    ⟨st (reefed (prt 1 []) { PortLn.init with reef := .asked }), 7, 31, by decide +kernel⟩,
    ⟨st (reefed (prt 1 []) { PortLn.init with reef := .asked, reefAt := 400000000000000 }), 7, 31, by decide +kernel⟩,
    ⟨st (reefed (prt 1 []) { PortLn.init with reef := .asked }), 7, 31, by decide +kernel⟩,
    ⟨st (reefed (prt 1 [(F.PRT_PORT_LIVE_TX_MASK, [7, 31], 1), (F.PRT_PORT_LIVE_RX_MASK, [7, 31], 1),
      (F.MST_CLK_HOLD_HOLD, [34], 2 ^ 26)]) { PortLn.init with reef := .entering }), 7, 31, by decide +kernel⟩,
    ⟨st (reefed (prt 1 []) { PortLn.init with reef := .entering }), 7, 31, by decide +kernel⟩,
    ⟨st (reefed (prt 1 []) { PortLn.init with reef := .reefed }), 7, 31, by decide +kernel⟩,
    ⟨st (reefed (prt 1 []) { PortLn.init with reef := .reefed }), 7, 31, by decide +kernel⟩,
    ⟨st (reefed (prt 1 []) { PortLn.init with reef := .waking }), 7, 31, by decide +kernel⟩⟩

theorem witness_FlitsDeliverAcksAndCredits :
    (∃ (s : State) (p : Fin 8) (e : Fin 32) (flit : List (BitVec 8)) (total held : Nat), flitOk flit = true ∧
      s.dev.portUp (p.val, e.val) = true ∧ s.dev.rxDead (p.val, e.val) = false ∧ flitGood flit = true ∧ (FlitHdr.dec
      flit).type = 0 ∧ total = (FlitHdr.dec flit).crTotal ∧ held = (total + 65536 - (s.dev.link (p.val,
      e.val)).used.getD (FlitHdr.dec flit).crVc 0 % 65536) % 65536) ∧
    (∃ (s : State) (p : Fin 8) (e : Fin 32) (flit : List (BitVec 8)) (total held : Nat), flitOk flit = true ∧
      s.dev.portUp (p.val, e.val) = true ∧ s.dev.rxDead (p.val, e.val) = false ∧ flitGood flit = true ∧ (FlitHdr.dec
      flit).type = 4 ∧ total = (FlitHdr.dec flit).crTotal ∧ held = (total + 65536 - (s.dev.link (p.val,
      e.val)).used.getD (FlitHdr.dec flit).crVc 0 % 65536) % 65536) ∧
    (∃ (s : State) (p : Fin 8) (e : Fin 32) (flit : List (BitVec 8)) (total held : Nat), flitOk flit = true ∧
      s.dev.portUp (p.val, e.val) = true ∧ s.dev.rxDead (p.val, e.val) = false ∧ flitGood flit = true ∧ 5 ≤
      (FlitHdr.dec flit).type ∧ total = (FlitHdr.dec flit).crTotal ∧ held = (total + 65536 - (s.dev.link (p.val,
      e.val)).used.getD (FlitHdr.dec flit).crVc 0 % 65536) % 65536) :=
  ⟨⟨st (lnk LinkSt.init), 7, 31, mkFlit ⟨0, 0, 0, 0, 0, 0, 0, 0xFFFF, 3, 5⟩ ([]), 5, 5, by decide +kernel⟩,
    ⟨st (lnk LinkSt.init), 7, 31, mkFlit ⟨4, 0, 0, 0, 0, 0, 0, 0xFFFF, 3, 5⟩ ([]), 5, 5, by decide +kernel⟩,
    ⟨st (lnk LinkSt.init), 7, 31, mkFlit ⟨15, 0, 0, 0, 0, 0, 0, 0xFFFF, 3, 5⟩ ([]), 5, 5, by decide +kernel⟩⟩

theorem witness_FlitsInOrderDuplicatesAndReplay :
    (∃ (s : State) (p : Fin 8) (e : Fin 32) (flit : List (BitVec 8)) (b : List Byte), flitOk flit = true ∧
      s.dev.portUp (p.val, e.val) = true ∧ s.dev.rxDead (p.val, e.val) = false ∧ flitGood flit = true ∧ (FlitHdr.dec
      flit).type = 1 ∧ (FlitHdr.dec flit).seq = s.dev.getF F.PRT_LNK_STAT_RX_EXPECT [p.val, e.val] ∧ (FlitHdr.dec
      flit).sop = 1 ∧ (FlitHdr.dec flit).eop = 1 ∧ (FlitHdr.dec flit).valid ≤ 240 ∧ b = (flit.drop 16).take
      (FlitHdr.dec flit).valid ∧ 32 ≤ b.length ∧ b.length = (PktHdr.dec b).size ∧ (PktHdr.dec b).len ≤ 4096 ∧ openIdx
      (s.dev.link (p.val, e.val)).inq ((FlitHdr.dec flit).tc == 0) = none) ∧
    (∃ (s : State) (p : Fin 8) (e : Fin 32) (flit : List (BitVec 8)) (back : Nat), flitOk flit = true ∧ s.dev.portUp
      (p.val, e.val) = true ∧ s.dev.rxDead (p.val, e.val) = false ∧ flitGood flit = true ∧ (FlitHdr.dec flit).type = 1
      ∧ back = (s.dev.getF F.PRT_LNK_STAT_RX_EXPECT [p.val, e.val] + 65536 - (FlitHdr.dec flit).seq) % 65536 ∧
      s.dev.getF F.PRT_LNK_STAT_RX_EXPECT [p.val, e.val] < 65536 ∧ (s.dev.link (p.val, e.val)).nakOut = none ∧ 1 ≤
      back ∧ back ≤ 32768) ∧
    (∃ (s : State) (p : Fin 8) (e : Fin 32) (flit : List (BitVec 8)) (marked : Bool), flitOk flit = true ∧
      s.dev.portUp (p.val, e.val) = true ∧ (marked = true ∨ flitGood flit = false)) ∧
    (∃ (s : State) (p : Fin 8) (e : Fin 32) (flit : List (BitVec 8)) (x : InPkt), flitOk flit = true ∧ s.dev.portUp
      (p.val, e.val) = true ∧ s.dev.rxDead (p.val, e.val) = false ∧ flitGood flit = true ∧ (FlitHdr.dec flit).type = 2
      ∧ (FlitHdr.dec flit).seq = s.dev.getF F.PRT_LNK_STAT_RX_EXPECT [p.val, e.val] ∧ (s.dev.link (p.val, e.val)).inq
      = [x] ∧ x.complete = false ∧ x.lost = none ∧ (x.tc == 0) = ((FlitHdr.dec flit).tc == 0) ∧ x.flight = none ∧
      (FlitHdr.dec flit).sop = 0) ∧
    (∃ (s : State) (p : Fin 8) (e : Fin 32) (flit : List (BitVec 8)), flitOk flit = true ∧ s.dev.portUp (p.val, e.val)
      = true ∧ s.dev.rxDead (p.val, e.val) = false ∧ flitGood flit = true ∧ (FlitHdr.dec flit).type = 2 ∧ (FlitHdr.dec
      flit).seq = s.dev.getF F.PRT_LNK_STAT_RX_EXPECT [p.val, e.val] ∧ openIdx (s.dev.link (p.val, e.val)).inq
      ((FlitHdr.dec flit).tc == 0) = none) ∧
    (∃ (s : State) (p : Fin 8) (e : Fin 32) (flit : List (BitVec 8)), flitOk flit = true ∧ s.dev.portUp (p.val, e.val)
      = true ∧ s.dev.rxDead (p.val, e.val) = true) ∧
    (∃ (s : State) (p : Fin 8) (e : Fin 32) (flit : List (BitVec 8)) (l : LinkSt) (i : Nat), flitOk flit = true ∧
      s.dev.portUp (p.val, e.val) = true ∧ s.dev.rxDead (p.val, e.val) = false ∧ flitGood flit = true ∧ (FlitHdr.dec
      flit).type = 3 ∧ l = (s.dev.link (p.val, e.val)).acked s.dev.clk.now (FlitHdr.dec flit).ack ∧ l.replay.findIdx?
      (fun x => x.seq == leAt flit 16 2) = some i ∧ l.lastReplay ≠ some (leAt flit 16 2) ∧ 2 ≤ s.dev.getF
      F.PRT_LNK_CFG_REPLAY_LIMIT [p.val, e.val]) ∧
    (∃ (s : State) (p : Fin 8) (e : Fin 32) (x : SentFlit) (rest : List SentFlit), s.dev.portUp (p.val, e.val) = true
      ∧ (s.dev.link (p.val, e.val)).nakOut = none ∧ (s.dev.link (p.val, e.val)).replay = x :: rest ∧ (s.dev.link
      (p.val, e.val)).lastReplay ≠ some x.seq ∧ (s.dev.link (p.val, e.val)).ackAt + us (s.dev.getF
      F.PRT_LNK_CFG_ACK_TIMEOUT [p.val, e.val]) ≤ s.dev.clk.now ∧ 2 ≤ s.dev.getF F.PRT_LNK_CFG_REPLAY_LIMIT [p.val,
      e.val]) :=
  ⟨⟨st (lnk LinkSt.init), 7, 31, mkFlit ⟨1, 0, 1, 1, 0, 32, 0, 0xFFFF, 3, 5⟩ (PktHdr.zero.enc), PktHdr.zero.enc,
      by decide +kernel⟩,
    ⟨st (lnk LinkSt.init), 7, 31, mkFlit ⟨1, 0, 0, 0, 0, 0, 65535, 0xFFFF, 3, 5⟩ ([]), 1, by decide +kernel⟩,
    ⟨st (lnk LinkSt.init), 7, 31, List.replicate 256 0, false, by decide +kernel⟩,
    ⟨st (lnk { LinkSt.init with inq := [⟨0, 0, [], false, none, none, false, .outside, 1⟩] }), 7, 31, mkFlit ⟨2, 0, 0,
      0, 0, 0, 0, 0xFFFF, 3, 5⟩ ([]), ⟨0, 0, [], false, none, none, false, .outside, 1⟩, by decide +kernel⟩,
    ⟨st (lnk LinkSt.init), 7, 31, mkFlit ⟨2, 0, 0, 0, 0, 0, 0, 0xFFFF, 3, 5⟩ ([]), by decide +kernel⟩,
    ⟨st
      ({ prt 1 [(F.PRT_PORT_LIVE_RX_MASK, [7, 31], 1)] with ln := { up.ln with lanes := [([7, 130], { LaneSt.init with after := some .selftest })] } }),
      7, 31, List.replicate 256 0, by decide +kernel⟩,
    ⟨st (lnk { LinkSt.init with replay := [⟨5, 1, 0, 1, 1, 0, 0, []⟩] }), 7, 31, mkFlit ⟨3, 0, 0, 0, 0, 0, 0, 0xFFFF,
      3, 5⟩ (leBytes 2 5), { LinkSt.init with replay := [⟨5, 1, 0, 1, 1, 0, 0, []⟩] }, 0, by decide +kernel⟩,
    ⟨st (lnk { LinkSt.init with replay := [⟨5, 1, 0, 1, 1, 0, 0, []⟩] }), 7, 31, ⟨5, 1, 0, 1, 1, 0, 0, []⟩, [],
      by decide +kernel⟩⟩

theorem witness_PortsGoDown :
    (∃ (s : State) (p : Fin 8) (e : Fin 32), s.dev.portUp (p.val, e.val) = true) ∧
    (∃ (s : State) (p : Fin 8) (e : Fin 32), s.dev.portUp (p.val, e.val) = true) ∧
    (∃ (s : State) (p : Fin 8) (e : Fin 32) (t : Nat), (s.dev.link (p.val, e.val)).flushing = some t) ∧
    (∃ (s : State) (q : Fin 8) (id : Fin 256), (q.val, id.val) ∈ s.dev.net.enDue) :=
  ⟨⟨st (prt 1 []), 7, 31, by decide +kernel⟩,
    ⟨st (prt 1 []), 7, 31, by decide +kernel⟩,
    ⟨st (lnk { LinkSt.init with flushing := some 0 }), 7, 31, 0, by decide +kernel⟩,
    ⟨st ({ up with net := { up.net with enDue := [(7, 255)] } }), 7, 255, by decide +kernel⟩⟩

theorem witness_PacketsAreParsedAndAdmitted :
    (∃ (s : State) (src : Source) (vc : Fin 4) (k : Nat × Nat) (i : Nat) (x : InPkt) (h : PktHdr) (dests : List Dest)
      (nvc : Nat), k = sourceKey src ∧ (s.dev.link k).inq.findIdx? (fun q => !q.parsed && q.vc == vc.val && decide (32
      ≤ q.bytes.length)) = some i ∧ (s.dev.link k).inq[i]? = some x ∧ h = PktHdr.dec x.bytes ∧ x.lost = none ∧
      s.dev.addrOk = true ∧ (isCapstan k = true ∨ h.ok = true ∧ h.dstOk = true ∧ (h.op ≠ opGET ∨ getOk (x.bytes.drop
      32) = true)) ∧ (isLink k = true → ∃ j, s.dev.keyEntry k h.pkey = some j ∧ s.dev.getF F.PRT_PKEY_LIMIT [k.1, k.2,
      j] = 0) ∧ 2 ≤ h.tc ∧ s.dev.route k h = .to dests nvc false false ∧ (isCapstan k = true → s.dev.dieOk (1 + (k.1 -
      8)) = true) ∧ s.dev.net.yl ≠ []) ∧
    (∃ (s : State) (p : Fin 8) (e : Fin 32) (vc : Fin 4) (i : Nat) (x : InPkt), (s.dev.link (p.val,
      e.val)).inq.findIdx? (fun q => !q.parsed && q.vc == vc.val && decide (32 ≤ q.bytes.length)) = some i ∧
      (s.dev.link (p.val, e.val)).inq[i]? = some x ∧ x.lost = none ∧ s.dev.addrOk = false) ∧
    (∃ (s : State) (id : Nat) (f : Flight), s.dev.flight id = some f ∧ f.dests = [.mast] ∧ f.complete = true ∧ f.lost
      = none) ∧
    (∃ (s : State) (y : Fin 4) (cls : Fin 5) (id : Nat) (rest : List Nat) (f : Flight), nget [] s.dev.net.waits
      [y.val, cls.val] = id :: rest ∧ s.dev.flight id = some f ∧ s.dev.yardUp y.val = true ∧ f.cells.countP (fun c =>
      c.yard == y.val) ≤ s.dev.sharedFree y.val) ∧
    (∃ (s : State) (y : Fin 4) (cls : Fin 5) (id : Nat) (rest : List Nat) (f : Flight) (n : Nat), nget []
      s.dev.net.waits [y.val, cls.val] = id :: rest ∧ s.dev.flight id = some f ∧ s.dev.yardUp y.val = true ∧ n =
      f.cells.countP (fun c => c.yard == y.val) ∧ s.dev.sharedFree y.val < n ∧ s.dev.reserveFree y.val cls.val < n ∧
      ceilDiv n 4 ≤ s.dev.largeFree y.val) ∧
    (∃ (s : State) (id i n c : Nat) (f : Flight) (x : Cell), s.dev.flight id = some f ∧ f.waiting = [] ∧ f.lost = none
      ∧ f.cells.findIdx? (fun x => !x.written) = some i ∧ f.cells[i]? = some x ∧ f.cseq = [(n, c)] ∧ (isCapstan f.src
      = true ∧ min (256 * (i + 1)) f.hdr.size ≤ f.bytes.length ∧ s.dev.noticeRoom n f.vc = true ∨ isCapstan f.src =
      false ∧ ∃ r, ratNext s.dev.ratOk (s.dev.ratQueue f.src.1 x.yard) = some r ∧ r.flight = id ∧ r.cell = i) ∧ ((c +
      i) % 65536 + 65536 - (s.dev.strm n f.src f.vc).next) % 65536 < 32768) ∧
    (∃ (s : State) (id n c i : Nat) (f : Flight) (st : Status) (x : Cell), s.dev.flight id = some f ∧ f.lost = some st
      ∧ f.cseq = [(n, c)] ∧ f.cells[i]? = some x ∧ x.written = false ∧ ((c + i) % 65536 + 65536 - (s.dev.strm n f.src
      f.vc).next) % 65536 < 32768) :=
  ⟨⟨st (addressed (up.setLink (7, 35)
      { LinkSt.init with inq := [⟨0, 3, (hdrTo 36 opPUT).enc, true, none, none, false, .outside, 0⟩] })), .engine 7 3,
      0, (7, 35), 0, ⟨0, 3, (hdrTo 36 opPUT).enc, true, none, none, false, .outside, 0⟩, hdrTo 36 opPUT, [.sail 3], 0,
      ⟨by decide +kernel, by decide +kernel, by decide +kernel, by decide +kernel, by decide +kernel,
      by decide +kernel, by decide +kernel, fun h => absurd h (by decide +kernel), by decide +kernel,
      by decide +kernel, fun h => absurd h (by decide +kernel), by decide +kernel⟩⟩,
    ⟨st (lnk { LinkSt.init with inq := [⟨0, 3, (hdrTo 36 opPUT).enc, true, none, none, false, .outside, 0⟩] }), 7, 31,
      0, 0, ⟨0, 3, (hdrTo 36 opPUT).enc, true, none, none, false, .outside, 0⟩, by decide +kernel⟩,
    ⟨st
      ({ addressed (prt 1 []) with net := { up.net with fabAddr := (0, 0, 0, true), flights := [([5], (flt [.mast] []))] } }),
      5, (flt [.mast] []), by decide +kernel⟩,
    ⟨st
      ({ addressed (prt 1 []) with net := { up.net with fabAddr := (0, 0, 0, true), flights := [([5], (flt [.sail 3] [⟨3, .none, none, none, false, false, 0⟩]))], waits := [([3, 4], [5])] } }),
      3, 4, 5, [], (flt [.sail 3] [⟨3, .none, none, none, false, false, 0⟩]), by decide +kernel⟩,
    ⟨st
      ({ addressed (on [(F.YRD_POOL_CFG_LARGE_MIB, [3], 1)]) with net := { up.net with flights := [([5], (flt [.sail 3] [⟨3, .none, none, none, false, false, 0⟩]))], waits := [([3, 4], [5])], retired := [([3, 0], 356352)] } }),
      3, 4, 5, [], (flt [.sail 3] [⟨3, .none, none, none, false, false, 0⟩]), 1, by decide +kernel⟩,
    ⟨st
      ({ addressed (prt 1 []) with net := { up.net with fabAddr := (0, 0, 0, true), flights := [([5], (flt [.sail 3] [⟨3, .none, none, none, false, false, 0⟩]))], ratq := [([7, 3], [⟨5, 0, false, false⟩])] } }),
      5, 0, 16, 0, (flt [.sail 3] [⟨3, .none, none, none, false, false, 0⟩]), ⟨3, .none, none, none, false, false, 0⟩,
      ⟨by decide +kernel, by decide +kernel, by decide +kernel, by decide +kernel, by decide +kernel,
      by decide +kernel, Or.inr ⟨by decide +kernel, ⟨5, 0, false, false⟩, by decide +kernel, rfl, rfl⟩,
      by decide +kernel⟩⟩,
    ⟨st
      ({ addressed (prt 1 []) with net := { up.net with fabAddr := (0, 0, 0, true), flights := [([5], { (flt [.sail 3] [⟨3, .none, none, none, false, false, 0⟩]) with lost := some .unitReset })] } }),
      5, 16, 0, 0, { (flt [.sail 3] [⟨3, .none, none, none, false, false, 0⟩]) with lost := some .unitReset },
      .unitReset, ⟨3, .none, none, none, false, false, 0⟩, by decide +kernel⟩⟩

theorem witness_CellsAreReleasedFreedAndAudited :
    (∃ (s : State) (n : Fin 25) (src : Source) (vc : Fin 4) (k : Nat × Nat) (x : NoticeC) (f : Flight) (j : Nat), k =
      sourceKey src ∧ (s.dev.strm n.val k vc.val).wait.find? (fun z => z.cseq == (s.dev.strm n.val k vc.val).next) =
      some x ∧ x.void = false ∧ s.dev.flight x.flight = some f ∧ f.dests = [.sail j] ∧ n.val ∉ f.dropped) ∧
    (∃ (s : State) (p : Fin 8) (e : Fin 32) (src : Source) (vc : Fin 4) (k : Nat × Nat) (x : NoticeC) (f : Flight) (n
      : Fin 25), k = sourceKey src ∧ n.val = 5 + p.val ∧ (s.dev.strm n.val k vc.val).wait.find? (fun z => z.cseq ==
      (s.dev.strm n.val k vc.val).next) = some x ∧ x.void = false ∧ s.dev.flight x.flight = some f ∧ f.dests = [.port
      p.val e.val] ∧ f.hdr.mc = 0 ∧ f.cells.length = 1 ∧ x.cell = 0 ∧ n.val ∉ f.dropped ∧ s.dev.portUp (p.val, e.val)
      = true ∧ s.dev.canCut (p.val, e.val) f = false ∧ (s.dev.link (p.val, e.val)).sending x.flight = false ∧ (∀ q ∈
      (s.dev.link (p.val, e.val)).queues, ∀ z ∈ q.2, z.flight ≠ x.flight) ∧ s.dev.descs p.val (fun z => !z.rsv) <
      65536 - 6144) ∧
    (∃ (s : State) (p : Fin 8) (src : Source) (vc : Fin 4) (k : Nat × Nat) (x : NoticeC) (n : Fin 25) (t m : Nat), k =
      sourceKey src ∧ n.val = 5 + p.val ∧ (s.dev.strm n.val k vc.val).gapAt = some t ∧ t + us (max 1 (s.dev.getF
      F.PRT_RSQ_CFG_TIMEOUT [p.val])) ≤ s.dev.clk.now ∧ (s.dev.strm n.val k vc.val).wait = [x] ∧ x.cseq < 65536 ∧ m =
      (x.cseq + 65536 - (s.dev.strm n.val k vc.val).next) % 65536 ∧ 1 ≤ m ∧ (s.dev.strm n.val k vc.val).next < 65536) ∧
    (∃ (s : State) (y : Fin 4) (id i : Nat) (f : Flight) (c : Cell), s.dev.flight id = some f ∧ f.cells[i]? = some c ∧
      c.yard = y.val ∧ c.hold ≠ .freed ∧ c.hold ≠ .large ∧ c.due = true) ∧
    (∃ (s : State) (y : Fin 4) (id i : Nat) (f : Flight) (c : Cell), s.dev.flight id = some f ∧ f.cells[i]? = some c ∧
      c.yard = y.val ∧ c.hold = .freed) ∧
    (∃ (s : State) (id : Nat) (p : Fin 8) (e : Fin 32) (f : Flight), s.dev.flight id = some f ∧ (p.val, e.val) ∈
      f.doneCopies ∧ (p.val, e.val) ∈ f.pendingPorts ∧ (f.named ≠ some (p.val, e.val) ∨ f.pendingPorts = [(p.val,
      e.val)])) ∧
    (∃ (s : State) (y : Fin 4) (all : List Cell), s.dev.dieOk (1 + y.val) = true ∧ s.dev.flag
      F.YRD_AUDIT_CTRL_ORPHAN_FREE [y.val] = false ∧ all = s.dev.net.flights.flatMap (fun x => x.2.cells.filter
      (entryIn y.val))) ∧
    (∃ (s : State) (iss : Issuer) (y : Fin 4) (v : BitVec 32), s.dev.lands iss .YRD_POOL_CFG [y.val] v.toNat = true ∧
      bits v.toNat 0 6 ≤ 32 ∧ y.val ∉ s.dev.net.allocated) ∧
    (∃ (s : State) (iss : Issuer) (y : Fin 4) (v : BitVec 32), s.dev.lands iss .YRD_POOL_CFG [y.val] v.toNat = true ∧
      (32 < bits v.toNat 0 6 ∨ y.val ∈ s.dev.net.allocated)) ∧
    (∃ (s : State) (yl : List Nat), s.dev.net.sprayDue = some yl) :=
  ⟨⟨st
      ({ addressed (prt 1 []) with net := { up.net with fabAddr := (0, 0, 0, true), flights := [([5], (flt [.sail 3] [⟨3, .shared, none, some 0, true, true, 0⟩]))], streams := [([16, 7, 35, 0], ⟨65535, 0, [⟨65535, 0, 5, 0, false⟩], some 0⟩)] } }),
      16, .engine 7 3, 0, (7, 35), ⟨65535, 0, 5, 0, false⟩, (flt [.sail 3] [⟨3, .shared, none, some 0, true, true,
      0⟩]), 3, by decide +kernel⟩,
    ⟨st
      ({ addressed (prt 1 [(F.PRT_CUT_CFG_CUT_EN, [7], 0)]) with net := { up.net with fabAddr := (0, 0, 0, true), flights := [([5], (flt [.port 7 31] [⟨3, .shared, none, some 0, true, true, 0⟩]))], streams := [([12, 7, 35, 0], ⟨65535, 0, [⟨65535, 0, 5, 0, false⟩], some 0⟩)] } }),
      7, 31, .engine 7 3, 0, (7, 35), ⟨65535, 0, 5, 0, false⟩, (flt [.port 7 31] [⟨3, .shared, none, some 0, true,
      true, 0⟩]), 12, by decide +kernel⟩,
    ⟨st
      ({ addressed (prt 1 []) with net := { up.net with fabAddr := (0, 0, 0, true), streams := [([12, 7, 35, 0], ⟨65535, 0, [⟨0, 0, 5, 1, false⟩], some 0⟩)] } }),
      7, .engine 7 3, 0, (7, 35), ⟨0, 0, 5, 1, false⟩, 12, 0, 1, by decide +kernel⟩,
    ⟨st
      ({ addressed (prt 1 []) with net := { up.net with fabAddr := (0, 0, 0, true), flights := [([5], (flt [.port 7 31] [⟨3, .shared, none, some 0, true, true, 0⟩]))] } }),
      3, 5, 0, (flt [.port 7 31] [⟨3, .shared, none, some 0, true, true, 0⟩]), ⟨3, .shared, none, some 0, true, true,
      0⟩, by decide +kernel⟩,
    ⟨st
      ({ addressed (prt 1 []) with net := { up.net with fabAddr := (0, 0, 0, true), flights := [([5], (flt [.sail 3] [⟨3, .freed, none, some 0, true, true, 0⟩]))] } }),
      3, 5, 0, (flt [.sail 3] [⟨3, .freed, none, some 0, true, true, 0⟩]), ⟨3, .freed, none, some 0, true, true, 0⟩,
      by decide +kernel⟩,
    ⟨st
      ({ addressed (prt 1 []) with net := { up.net with fabAddr := (0, 0, 0, true), flights := [([5], { (flt [.port 7 31] [⟨3, .shared, none, some 0, true, true, 0⟩]) with pendingPorts := [(7, 31)], doneCopies := [(7, 31)] })] } }),
      5, 7, 31,
      { (flt [.port 7 31] [⟨3, .shared, none, some 0, true, true, 0⟩]) with pendingPorts := [(7, 31)], doneCopies := [(7, 31)] },
      by decide +kernel⟩,
    ⟨st
      ({ addressed (prt 1 [(F.YRD_AUDIT_CTRL_ORPHAN_FREE, [3], 0)]) with net := { up.net with fabAddr := (0, 0, 0, true), flights := [([5], (flt [.port 7 31] [⟨3, .shared, none, some 0, true, true, 0⟩]))] } }),
      3, [⟨3, .shared, none, some 0, true, true, 0⟩], by decide +kernel⟩,
    ⟨st up, .pf 0, 3, 32, by decide +kernel⟩,
    ⟨st up, .pf 0, 3, 33, by decide +kernel⟩,
    ⟨st ({ up with net := { up.net with sprayDue := some [3] } }), [3], by decide +kernel⟩⟩

theorem witness_EgressFlitSlotsFollowTheirOrder :
    (∃ (s : State) (p : Fin 8) (e : Fin 32), s.dev.portUp (p.val, e.val) = true ∧ (s.dev.portLn (p.val, e.val)).reef =
      .none ∧ s.dev.dropAged (p.val, e.val) = s.dev ∧ (s.dev.link (p.val, e.val)).nakDue = true) ∧
    (∃ (s : State) (p : Fin 8) (e : Fin 32) (x : SentFlit) (rest : List SentFlit), s.dev.portUp (p.val, e.val) = true
      ∧ (s.dev.portLn (p.val, e.val)).reef = .none ∧ s.dev.dropAged (p.val, e.val) = s.dev ∧ (s.dev.link (p.val,
      e.val)).nakDue = false ∧ (s.dev.link (p.val, e.val)).resend = x :: rest) ∧
    (∃ (s : State) (p : Fin 8) (e : Fin 32) (x : List Byte) (rest : List (List Byte)), s.dev.portUp (p.val, e.val) =
      true ∧ (s.dev.portLn (p.val, e.val)).reef = .none ∧ s.dev.dropAged (p.val, e.val) = s.dev ∧ (s.dev.link (p.val,
      e.val)).nakDue = false ∧ (s.dev.link (p.val, e.val)).resend = [] ∧ (s.dev.link (p.val, e.val)).timex = x ::
      rest) ∧
    (∃ (s : State) (p : Fin 8) (e : Fin 32) (since : Nat) (sym : Fin 17000) (x : EDesc) (f : Flight), s.dev.portUp
      (p.val, e.val) = true ∧ (s.dev.portLn (p.val, e.val)).reef = .none ∧ s.dev.dropAged (p.val, e.val) = s.dev ∧
      (s.dev.link (p.val, e.val)).nakDue = false ∧ (s.dev.link (p.val, e.val)).resend = [] ∧ (s.dev.link (p.val,
      e.val)).timex = [] ∧ (s.dev.link (p.val, e.val)).replay.length < 2048 ∧ (s.dev.link (p.val, e.val)).tx0 = none ∧
      s.dev.eligible (p.val, e.val) 0 since sym.val = some (x, f) ∧ f.hdr.tc = 0 ∧ f.hdr.mc = 0 ∧ f.hdr.size ≤ 240 ∧
      x.cut = false ∧ 5 + p.val ∉ f.dropped ∧ x.vc < 4) ∧
    (∃ (s : State) (p : Fin 8) (e : Fin 32), s.dev.portUp (p.val, e.val) = true ∧ (s.dev.portLn (p.val, e.val)).reef =
      .none ∧ s.dev.dropAged (p.val, e.val) = s.dev ∧ (s.dev.link (p.val, e.val)).nakDue = false ∧ (s.dev.link (p.val,
      e.val)).resend = [] ∧ (s.dev.link (p.val, e.val)).timex = [] ∧ (s.dev.link (p.val, e.val)).queues = [] ∧
      (s.dev.link (p.val, e.val)).tx0 = none ∧ (s.dev.link (p.val, e.val)).txN = none) ∧
    (∃ (s : State) (p : Fin 8) (e : Fin 32), s.dev.portUp (p.val, e.val) = true ∧ s.dev.dropAged (p.val, e.val) =
      s.dev ∧ ((s.dev.portLn (p.val, e.val)).reef = .asked ∧ (s.dev.link (p.val, e.val)).nakDue = false ∧ (s.dev.link
      (p.val, e.val)).resend = [] ∨ (s.dev.portLn (p.val, e.val)).reef = .entering ∧ (s.dev.portLn (p.val,
      e.val)).reefAt = s.dev.clk.now)) ∧
    (∃ (s : State) (p : Fin 8) (e : Fin 32), ((s.dev.portLn (p.val, e.val)).reef = .reefed ∨ (s.dev.portLn (p.val,
      e.val)).reef = .waking)) ∧
    (∃ (d : Dev) (k : Nat × Nat) (q since sym : Nat) (x : EDesc) (f : Flight), d.eligible k q since sym = some (x, f)) :=
  ⟨⟨st (lnk { LinkSt.init with nakDue := true }), 7, 31, by decide +kernel⟩,
    ⟨st (lnk { LinkSt.init with resend := [⟨5, 1, 0, 1, 1, 0, 0, []⟩] }), 7, 31, ⟨5, 1, 0, 1, 1, 0, 0, []⟩, [],
      by decide +kernel⟩,
    ⟨st (lnk { LinkSt.init with timex := [[]] }), 7, 31, [], [], by decide +kernel⟩,
    ⟨st sending, 7, 31, 0, 0, ⟨5, 0, false, false⟩, atHead, by decide +kernel⟩,
    ⟨st (lnk LinkSt.init), 7, 31, by decide +kernel⟩,
    ⟨st (reefed (lnk LinkSt.init) { PortLn.init with reef := .asked }), 7, 31, by decide +kernel⟩,
    ⟨st (reefed (lnk LinkSt.init) { PortLn.init with reef := .reefed }), 7, 31, by decide +kernel⟩,
    ⟨sending, (7, 31), 0, 0, 0, ⟨5, 0, false, false⟩, atHead, by decide +kernel⟩⟩

theorem witness_RoutingTablesAndGroupsTakeEffect :
    (∃ (s : State), s.dev.net.fabDue = true) ∧
    (∃ (s : State) (iss : Issuer) (p : Fin 8) (dim : Fin 3) (c : Fin 16) (v : BitVec 32) (i : List Nat), i = [p.val,
      dim.val + 1, c.val] ∧ s.dev.lands iss .PRT_FL_CTL i v.toNat = true) ∧
    (∃ (s : State) (iss : Issuer) (g : Fin 4096) (v : BitVec 32), s.dev.lands iss .MST_MC_CTL [g.val] v.toNat = true ∧
      (∀ id ∈ s.dev.masterPorts F.MST_MC_LOCAL_LOCAL g.val, s.dev.dimOf id = 0) ∧ (∀ id ∈ s.dev.masterPorts
      F.MST_MC_PEER_PEER g.val, s.dev.dimOf id = bits v.toNat 0 2) ∧ (s.dev.masterPorts F.MST_MC_PEER_PEER g.val = []
      ∨ bits v.toNat 0 2 ≠ 0)) ∧
    (∃ (s : State) (iss : Issuer) (g : Fin 4096) (v : BitVec 32), s.dev.lands iss .MST_MC_CTL [g.val] v.toNat = true ∧
      (∃ id ∈ s.dev.masterPorts F.MST_MC_LOCAL_LOCAL g.val, s.dev.dimOf id ≠ 0)) ∧
    (∃ (s : State), (s.dev.net.groupsDue.map (·.1)).Nodup) :=
  ⟨⟨st ({ up with net := { up.net with fabDue := true } }), by decide +kernel⟩,
    ⟨st up, .pf 0, 7, 2, 15, 0, [7, 3, 15], by decide +kernel⟩,
    ⟨st up, .pf 0, 4095, 0, by decide +kernel⟩,
    ⟨st (on [(F.MST_MC_LOCAL_LOCAL, [4095, 7], 0x80000000), (F.PRT_RT_PORT_DIM, [7, 31], 1)]), .pf 0, 4095, 0,
      by decide +kernel⟩,
    ⟨st ({ up with net := { up.net with groupsDue := [([4095], [1, 2])] } }), by decide +kernel⟩⟩

theorem witness_FlowRatesFollowTheirProfiles :
    (∃ (s : State) (f : Fin 262144) (x : Flow), s.dev.flow f.val = some x ∧ 0 < x.echoes ∧ (∀ t, x.lastDec = some t →
      t + x.period ≤ s.dev.clk.now)) ∧
    (∃ (s : State) (f : Fin 262144) (x : Flow) (t : Nat), s.dev.flow f.val = some x ∧ 0 < x.echoes ∧ x.lastDec = some
      t ∧ s.dev.clk.now < t + x.period) ∧
    (∃ (s : State) (f : Fin 262144) (x : Flow), s.dev.flow f.val = some x ∧ 3 ≤ x.tc ∧ x.rate < s.dev.getF
      F.PRT_RC_PROF_MAX [flowDie f.val, x.profile] ∧ x.lastChg + x.period ≤ s.dev.clk.now) ∧
    (∃ (s : State) (p : Fin 8) (k : Fin 8) (f : Nat) (x : Flow), (p.val, k.val) ∈ s.dev.net.profDue ∧
      (s.dev.net.flows.map (·.1)).Nodup ∧ (∀ z ∈ s.dev.net.flows, z.1 = [ix z.1 0]) ∧ s.dev.flow f = some x ∧ flowDie
      f = p.val ∧ x.profile = k.val) :=
  ⟨⟨st
      ({ up with net := { up.net with flows := [([262143], (⟨3, 0x42, 7, some 0, none, 100, 0, none, 0, 1, none, 0, []⟩ : Flow))] } }),
      262143, (⟨3, 0x42, 7, some 0, none, 100, 0, none, 0, 1, none, 0, []⟩ : Flow), ⟨by decide +kernel,
      by decide +kernel, fun t h => by cases h⟩⟩,
    ⟨st
      ({ up with net := { up.net with flows := [([262143], (⟨3, 0x42, 7, some 0, none, 100, 0, some 400000000000000, 0, 1, none, 1, []⟩ : Flow))] } }),
      262143, (⟨3, 0x42, 7, some 0, none, 100, 0, some 400000000000000, 0, 1, none, 1, []⟩ : Flow), 400000000000000,
      by decide +kernel⟩,
    ⟨st
      ({ on [(F.PRT_RC_PROF_MAX, [7, 7], 100)] with net := { up.net with flows := [([262143], (⟨3, 0x42, 7, some 0, none, 100, 0, none, 0, 1, none, 0, []⟩ : Flow))] } }),
      262143, (⟨3, 0x42, 7, some 0, none, 100, 0, none, 0, 1, none, 0, []⟩ : Flow), by decide +kernel⟩,
    ⟨st
      ({ up with net := { up.net with flows := [([262143], (⟨3, 0x42, 7, some 0, none, 100, 0, none, 0, 1, none, 0, []⟩ : Flow))], profDue := [(7, 7)] } }),
      7, 7, 262143, (⟨3, 0x42, 7, some 0, none, 100, 0, none, 0, 1, none, 0, []⟩ : Flow), by decide +kernel⟩⟩

theorem witness_MapsShapersAndGatesFollowTheirTimes :
    (∃ (s : State) (p : Fin 8), s.dev.clk.frame % 2 ^ s.dev.getF F.PRT_CMAP_CTRL_SAMPLE_LOG2 [p.val] = 0) ∧
    (∃ (s : State) (p : Fin 8), p.val ∈ s.dev.net.snapDue) ∧
    (∃ (s : State) (p : Fin 8) (e : Fin 32), s.dev.flag F.PRT_SCH_STAT_PENDING [p.val, e.val] = true ∧ s.dev.getF
      F.PRT_GATE_AT_TIME [p.val, e.val] < s.dev.fabTime + frameUnits) :=
  ⟨⟨st up, 7, by decide +kernel⟩,
    ⟨st ({ up with net := { up.net with snapDue := [7] } }), 7, by decide +kernel⟩,
    ⟨st (on [(F.PRT_SCH_STAT_PENDING, [7, 31], 1)]), 7, 31, by decide +kernel⟩⟩

theorem witness_QueueMapsAndFreshQueues :
    (∃ (s : State) (iss : Issuer) (p : Fin 8) (e : Fin 32) (v : BitVec 32), s.dev.lands iss .PRT_SCH_TCQ [p.val,
      e.val] v.toNat = true ∧ tcqOk v.toNat = true) ∧
    (∃ (s : State) (iss : Issuer) (p : Fin 8) (e : Fin 32) (v : BitVec 32), s.dev.lands iss .PRT_SCH_TCQ [p.val,
      e.val] v.toNat = true ∧ tcqOk v.toNat = false) ∧
    (∃ (s : State) (iss : Issuer) (p : Fin 8) (e : Fin 32) (q : Fin 13) (v : BitVec 32) (i : List Nat), i = [p.val,
      e.val, q.val + 3] ∧ s.dev.lands iss .PRT_SCH_WQ i v.toNat = true ∧ (bit v.toNat 31 = true → (((List.range
      13).map (· + 3)).filter (fun j => j != q.val + 3 && s.dev.flag F.PRT_SCH_WQ_FRESH [p.val, e.val, j])).length <
      4)) ∧
    (∃ (s : State) (iss : Issuer) (p : Fin 8) (e : Fin 32) (q : Fin 13) (v : BitVec 32) (i : List Nat), i = [p.val,
      e.val, q.val + 3] ∧ s.dev.lands iss .PRT_SCH_WQ i v.toNat = true ∧ bit v.toNat 31 = true ∧ 4 ≤ (((List.range
      13).map (· + 3)).filter (fun j => j != q.val + 3 && s.dev.flag F.PRT_SCH_WQ_FRESH [p.val, e.val, j])).length) :=
  ⟨⟨st up, .pf 0, 7, 31, 259373539, by decide +kernel⟩,
    ⟨st up, .pf 0, 7, 31, 0, by decide +kernel⟩,
    ⟨st up, .pf 0, 7, 31, 12, 0x80000001, [7, 31, 15], by decide +kernel⟩,
    ⟨st (on [(F.PRT_SCH_WQ_FRESH, [7, 31, 3], 1), (F.PRT_SCH_WQ_FRESH, [7, 31, 4], 1), (F.PRT_SCH_WQ_FRESH, [7, 31,
      5], 1), (F.PRT_SCH_WQ_FRESH, [7, 31, 6], 1)]), .pf 0, 7, 31, 12, 0x80000001, [7, 31, 15], by decide +kernel⟩⟩

theorem witness_EndpointsTakeRequests :
    (∃ (s : State) (n : Fin 25) (a : Arrival), s.dev.firstAt (destOf n.val) = some a ∧ a.hdr.op = opPUT ∧
      s.dev.endpointReady a.hdr = true ∧ (destOf n.val).takes a.hdr.raddr a.hdr.len = true ∧ (destOf n.val) ≠ .mast ∧
      s.dev.memStopped a.hdr.raddr a.hdr.len = none ∧ s.dev.memServed a.hdr.raddr a.hdr.len = true ∧ a.granted = true
      ∧ a.bytes.length = a.hdr.len ∧ a.hdr.raddr + a.hdr.len ≤ placeEnd a.hdr.raddr ∧ a.hdr.ackReq = 1 ∧ a.hdr.sealB =
      0) ∧
    (∃ (s : State) (n : Fin 25) (a : Arrival) (m : Nat), s.dev.firstAt (destOf n.val) = some a ∧ a.hdr.op = opGET ∧
      s.dev.endpointReady a.hdr = true ∧ m = leAt a.bytes 8 4 ∧ (destOf n.val).takes a.hdr.raddr m = true ∧ (destOf
      n.val) ≠ .mast ∧ s.dev.memStopped a.hdr.raddr m = none ∧ s.dev.memServed a.hdr.raddr m = true) ∧
    (∃ (s : State) (n : Fin 25) (a : Arrival) (fl : Flow) (ring : Nat), s.dev.firstAt (destOf n.val) = some a ∧
      a.hdr.op = opNOTIFY ∧ s.dev.endpointReady a.hdr = true ∧ s.dev.headless = false ∧ a.hdr.raddr = 0 ∧ a.hdr.cm = 0
      ∧ s.dev.flow a.hdr.flow = some fl ∧ fl.ring = some ring ∧ fl.ctr = none) :=
  ⟨⟨st (arrived (on [(F.SAL_CLEAT_OWNER, [3, 79], 0x80)]) ⟨.sail 3, 5,
      { hdrTo 36 opPUT with raddr := 0x10003BC00000, len := 16, ackReq := 1 }, List.replicate 16 1, true⟩), 3, ⟨.sail
      3, 5, { hdrTo 36 opPUT with raddr := 0x10003BC00000, len := 16, ackReq := 1 }, List.replicate 16 1, true⟩,
      by decide +kernel⟩,
    ⟨st (arrived (up) ⟨.sail 3, 5, { hdrTo 36 opGET with raddr := 0x10003BC00000, len := 16 }, bytesAt 16 [(8, 4,
      4096)], true⟩), 3, ⟨.sail 3, 5, { hdrTo 36 opGET with raddr := 0x10003BC00000, len := 16 }, bytesAt 16 [(8, 4,
      4096)], true⟩, 4096, by decide +kernel⟩,
    ⟨st
      ({ arrived up ⟨.sail 3, 5, { hdrTo 36 opNOTIFY with flow := 262143, len := 8 }, leBytes 8 9, true⟩ with net := { (arrived up ⟨.sail 3, 5, { hdrTo 36 opNOTIFY with flow := 262143, len := 8 }, leBytes 8 9, true⟩).net with flows := [([262143], (⟨3, 0x42, 7, some 0, none, 100, 0, none, 0, 0, none, 0, []⟩ : Flow))] } }),
      3, ⟨.sail 3, 5, { hdrTo 36 opNOTIFY with flow := 262143, len := 8 }, leBytes 8 9, true⟩, (⟨3, 0x42, 7, some 0,
      none, 100, 0, none, 0, 0, none, 0, []⟩ : Flow), 0, by decide +kernel⟩⟩

theorem witness_EndpointsTakeResponses :
    (∃ (s : State) (n : Fin 25) (a : Arrival) (fl : Flow) (ring : Nat), s.dev.firstAt (destOf n.val) = some a ∧
      a.hdr.op = opNOTICE ∧ s.dev.endpointReady a.hdr = true ∧ s.dev.headless = false ∧ cb a.bytes 0 ≠ kindREFUSE ∧ cb
      a.bytes 0 ≠ kindECHO ∧ a.hdr.raddr = 0 ∧ a.hdr.cm = 0 ∧ a.hdr.ce = 0 ∧ s.dev.flow a.hdr.flow = some fl ∧ fl.ring
      = some ring) ∧
    (∃ (s : State) (n : Fin 25) (a : Arrival), s.dev.firstAt (destOf n.val) = some a ∧ a.hdr.op = opNOTICE ∧
      s.dev.endpointReady a.hdr = true ∧ cb a.bytes 0 = kindREFUSE ∧ a.hdr.raddr = 0 ∧ bits (leAt a.bytes 12 4) 0 8 ≠
      opNOTIFY ∧ (∃ fl ring, s.dev.flow a.hdr.flow = some fl ∧ fl.ring = some ring) ∧ (∃ t ∈ s.dev.eng.tck, ∃ q ∈
      t.2.runs, ∃ z ∈ q.reqs, z.flow = a.hdr.flow ∧ z.tag = bits (leAt a.bytes 12 4) 8 12 ∧ z.op = bits (leAt a.bytes
      12 4) 0 8 ∧ z.status = none)) ∧
    (∃ (s : State) (n : Fin 25) (a : Arrival), s.dev.firstAt (destOf n.val) = some a ∧ a.hdr.op = opPUT_ACK ∧
      s.dev.endpointReady a.hdr = true ∧ 13 ≤ n.val ∧ n.val < 21 ∧ (∃ t ∈ s.dev.eng.tck, ∃ q ∈ t.2.runs, ∃ z ∈ q.reqs,
      z.flow = a.hdr.flow ∧ z.tag = a.hdr.tag ∧ z.op = opPUT ∧ z.status = none)) ∧
    (∃ (s : State) (n : Fin 25) (a : Arrival), s.dev.firstAt (destOf n.val) = some a ∧ a.hdr.op = opGET_DATA ∧
      s.dev.endpointReady a.hdr = true ∧ 13 ≤ n.val ∧ n.val < 21 ∧ a.hdr.status = 0 ∧ (destOf n.val).takes a.hdr.raddr
      a.hdr.len = true ∧ (destOf n.val) ≠ .mast ∧ s.dev.memStopped a.hdr.raddr a.hdr.len = none ∧ s.dev.memServed
      a.hdr.raddr a.hdr.len = true ∧ a.granted = true ∧ a.bytes.length = a.hdr.len ∧ a.hdr.raddr + a.hdr.len ≤
      placeEnd a.hdr.raddr ∧ (∃ t ∈ s.dev.eng.tck, ∃ q ∈ t.2.runs, ∃ z ∈ q.reqs, z.flow = a.hdr.flow ∧ z.tag =
      a.hdr.tag ∧ z.op = opGET ∧ z.status = none)) ∧
    (∃ (s : State) (f : Fin 262144) (tag : Fin 4096) (fl : Flow), s.dev.flow f.val = some fl ∧ (∃ t ∈ s.dev.eng.tck, ∃
      q ∈ t.2.runs, ∃ z ∈ q.reqs, z.flow = f.val ∧ z.tag = tag.val ∧ z.op ≠ opNOTIFY ∧ z.status = none ∧ z.sentAt + us
      fl.timer ≤ s.dev.clk.now)) :=
  ⟨⟨st
      ({ arrived up ⟨.sail 3, 5, { hdrTo 36 opNOTICE with flow := 262143, len := 32, tc := 1 }, cmd [(0, 1, kindUSER)], true⟩ with net := { (arrived up ⟨.sail 3, 5, { hdrTo 36 opNOTICE with flow := 262143, len := 32, tc := 1 }, cmd [(0, 1, kindUSER)], true⟩).net with flows := [([262143], (⟨3, 0x42, 7, some 0, none, 100, 0, none, 0, 0, none, 0, []⟩ : Flow))] } }),
      3, ⟨.sail 3, 5, { hdrTo 36 opNOTICE with flow := 262143, len := 32, tc := 1 }, cmd [(0, 1, kindUSER)], true⟩,
      (⟨3, 0x42, 7, some 0, none, 100, 0, none, 0, 0, none, 0, []⟩ : Flow), 0, by decide +kernel⟩,
    ⟨st
      ({ arrived (up) ⟨.fabric 0, 5, { hdrTo 37 opNOTICE with len := 32, tc := 1 }, cmd [(0, 1, kindREFUSE), (12, 4, 256 * 9 + opPUT)], true⟩ with net := { (arrived (up) ⟨.fabric 0, 5, { hdrTo 37 opNOTICE with len := 32, tc := 1 }, cmd [(0, 1, kindREFUSE), (12, 4, 256 * 9 + opPUT)], true⟩).net with flows := [([0], (⟨3, 0x42, 7, some 0, none, 100, 0, none, 0, 0, none, 0, []⟩ : Flow))] }, eng := { up.eng with tck := [([0x3720], { TckSt.init with runs := [{ run [] with reqs := [⟨opPUT, 0, 9, 0, 0, 4, 0, none⟩] }] })] } }),
      13, ⟨.fabric 0, 5, { hdrTo 37 opNOTICE with len := 32, tc := 1 }, cmd [(0, 1, kindREFUSE), (12, 4, 256 * 9 +
      opPUT)], true⟩, ⟨by decide +kernel, by decide +kernel, by decide +kernel, by decide +kernel, by decide +kernel,
      by decide +kernel, ⟨(⟨3, 0x42, 7, some 0, none, 100, 0, none, 0, 0, none, 0, []⟩ : Flow), 0, by decide +kernel,
      rfl⟩, by decide +kernel⟩⟩,
    ⟨st
      ({ arrived (up) ⟨.fabric 0, 5, { hdrTo 37 opPUT_ACK with tag := 9 }, [], true⟩ with eng := { up.eng with tck := [([0x3720], { TckSt.init with runs := [{ run [] with reqs := [⟨opPUT, 0, 9, 0, 0, 4, 0, none⟩] }] })] } }),
      13, ⟨.fabric 0, 5, { hdrTo 37 opPUT_ACK with tag := 9 }, [], true⟩, by decide +kernel⟩,
    ⟨st
      ({ arrived (on [(F.SAL_CLEAT_OWNER, [3, 79], 0x80)]) ⟨.fabric 0, 5, { hdrTo 37 opGET_DATA with tag := 9, raddr := 0x10003BC00000, len := 4 }, [1, 2, 3, 4], true⟩ with eng := { up.eng with tck := [([0x3720], { TckSt.init with runs := [{ run [] with reqs := [⟨opGET, 0, 9, 0, 0, 4, 0, none⟩] }] })] } }),
      13, ⟨.fabric 0, 5, { hdrTo 37 opGET_DATA with tag := 9, raddr := 0x10003BC00000, len := 4 }, [1, 2, 3, 4],
      true⟩, by decide +kernel⟩,
    ⟨st
      ({ up with net := { up.net with flows := [([0], (⟨3, 0x42, 7, some 0, none, 100, 0, none, 0, 0, none, 0, []⟩ : Flow))] }, eng := { up.eng with tck := [([0x3720], { TckSt.init with runs := [{ run [] with reqs := [⟨opPUT, 0, 9, 0, 0, 4, 0, none⟩] }] })] } }),
      0, 9, (⟨3, 0x42, 7, some 0, none, 100, 0, none, 0, 0, none, 0, []⟩ : Flow), by decide +kernel⟩⟩

theorem witness_BanksAndStacks :
    (∃ (s : State) (iss : Issuer) (b : Bank) (v : BitVec 32), s.dev.lands iss (bankCleat b).1 (bankCleat b).2 v.toNat
      = true ∧ ownerOk (bits v.toNat 0 8) = true) ∧
    (∃ (s : State) (b : Bank) (c : CleatClaim) (old : Nat), s.dev.bank.claims = [c] ∧ c.sail = bankSail b ∧ (c.die,
      c.bank) = bankAt b ∧ c.run = none ∧ c.owner < 256 ∧ old = s.dev.bankOwner (bankSail b) (bankAt b).1 (bankAt b).2
      ∧ old < 256 ∧ s.dev.grantedInto (bankRange (bankSail b) (bankAt b).1 (bankAt b).2).1 (bankRange (bankSail b)
      (bankAt b).1 (bankAt b).2).2 = false) ∧
    (∃ (s : State) (iss : Issuer) (o : Fin 112) (v : BitVec 32), s.dev.lands iss .MST_OWNER_MAP [o.val + 16] v.toNat =
      true ∧ s.dev.tackleOk (bits v.toNat 0 16) = true) ∧
    (∃ (s : State) (k : Fin 4) (b : Fin 80), s.dev.flag F.SAL_BANK_PWR_RET [k.val, b.val] = true ∧ s.dev.islandOn
      (regIsland .SAL_BANK_PWR [k.val, b.val]) = true) ∧
    (∃ (s : State) (k : Fin 8) (b : Fin 16), s.dev.flag F.BSE_BANK_PWR_RET [k.val, b.val] = true ∧ s.dev.islandOn
      (regIsland .BSE_BANK_PWR [k.val, b.val]) = true) ∧
    (∃ (s : State) (k : Fin 4) (b : Fin 80), s.dev.flag F.SAL_BANK_PWR_IN_RET [k.val, b.val] = true) ∧
    (∃ (s : State) (n : Fin 8), s.dev.stackReady n.val = true ∧ s.dev.flag F.BSE_STK_CTRL_SR_REQ [n.val] = true) ∧
    (∃ (s : State) (n : Fin 8), s.dev.flag F.BSE_STK_STAT_IN_SR [n.val] = true) ∧
    (∃ (s : State) (n : Fin 8), s.dev.stackReady n.val = true ∧ nget 0 s.dev.bank.caFails [n.val] < 2) :=
  ⟨⟨st up, .pf 0, .base 7 15, 0x10, by decide +kernel⟩,
    ⟨st ({ up with bank := { up.bank with claims := [⟨false, 7, 15, 0x10, 0, false, 0, none⟩] } }), .base 7 15,
      ⟨false, 7, 15, 0x10, 0, false, 0, none⟩, 0xFF, by decide +kernel⟩,
    ⟨st up, .pf 0, 111, 0x4000, by decide +kernel⟩,
    ⟨st (on [(F.SAL_BANK_PWR_RET, [3, 79], 1)]), 3, 79, by decide +kernel⟩,
    ⟨st (on [(F.BSE_BANK_PWR_RET, [7, 15], 1)]), 7, 15, by decide +kernel⟩,
    ⟨st (on [(F.SAL_BANK_PWR_IN_RET, [3, 79], 1)]), 3, 79, by decide +kernel⟩,
    ⟨st (on [(F.BSE_STK_CTRL_SR_REQ, [7], 1)]), 7, by decide +kernel⟩,
    ⟨st (on [(F.BSE_STK_STAT_IN_SR, [7], 1)]), 7, by decide +kernel⟩,
    ⟨st up, 7, by decide +kernel⟩⟩

theorem witness_ContributionsAndGrantsAreTaken :
    (∃ (s : State) (y : Fin 4) (id n : Nat) (a : Arrival) (x : Ctx) (c : Chunk) (u : USlot) (k : Nat × Nat),
      s.dev.net.arrivals.find? (fun z => z.at_ == .capstan y.val) = some a ∧ a.hdr.op = opCHUNK ∧ a.hdr.coll = id ∧
      a.hdr.chunk = n ∧ endpointOf a.hdr.dst = 48 + n % 4 ∧ s.dev.openChunk id n = some (x, c) ∧ a.hdr.stage ≤ 3 ∧ k =
      contribParts a.hdr.stage a.hdr.contrib ∧ c.ups.find? (fun v => v.stage == a.hdr.stage) = some u ∧ cdDown x.desc
      = false ∧ k.1 ∈ contributors x.desc a.hdr.stage ∧ k.2 < partsAt x.desc a.hdr.stage ∧ (∀ g ∈ u.got, ¬(g.1 = k.1 ∧
      g.2.1 = k.2)) ∧ (∀ o ∈ c.outs, o.stage ≠ a.hdr.stage) ∧ c.result = none ∧ c.written = false ∧ a.hdr.len *
      partsAt x.desc a.hdr.stage = cdContribSize x.desc a.hdr.stage ∧ (a.hdr.stage = 0 ∨ k.1 ≠ s.dev.coord
      a.hdr.stage) ∧ leAt a.bytes a.hdr.len 4 = sealOf id n a.hdr.stage a.hdr.contrib (a.bytes.take a.hdr.len) ∧ (∀ e
      ∈ u.entries, e.held ≠ 2) ∧ u.entries.length ≤ s.dev.getF F.YRD_COLL_PROM_FREE_FREE [x.yardOf n]) ∧
    (∃ (s : State) (y : Fin 4) (id n : Nat) (a : Arrival) (x : Ctx) (c : Chunk), s.dev.net.arrivals.find? (fun z =>
      z.at_ == .capstan y.val) = some a ∧ a.hdr.op = opCHUNK ∧ a.hdr.coll = id ∧ a.hdr.chunk = n ∧ endpointOf
      a.hdr.dst = 48 + n % 4 ∧ s.dev.openChunk id n = some (x, c) ∧ a.hdr.stage = 4 ∧ c.rets ≠ [] ∧ c.result = none ∧
      a.hdr.contrib = 0 ∧ a.hdr.len = cdO x.desc ∧ leAt a.bytes a.hdr.len 4 = sealOf id n 4 0 (a.bytes.take
      a.hdr.len)) ∧
    (∃ (s : State) (y : Fin 4) (a : Arrival), s.dev.net.arrivals.find? (fun z => z.at_ == .capstan y.val) = some a ∧
      a.hdr.op = opCHUNK ∧ s.dev.ctx a.hdr.coll = none) ∧
    (∃ (s : State) (y : Fin 4) (id n : Nat) (a : Arrival) (x : Ctx) (c : Chunk) (st : Nat), s.dev.net.arrivals.find?
      (fun z => z.at_ == .capstan y.val) = some a ∧ a.hdr.op = opGRANT ∧ a.hdr.coll = id ∧ a.hdr.chunk = n ∧
      endpointOf a.hdr.dst = 48 + n % 4 ∧ s.dev.openChunk id n = some (x, c) ∧ st = a.hdr.stage ∧ 1 ≤ st ∧ st ≤ 3 ∧
      cdEn x.desc st = true ∧ cdDown x.desc = false ∧ s.dev.takesPart x.desc st n = true ∧ s.dev.owns x.desc st n =
      false ∧ (∀ g ∈ c.grants, g.1 ≠ st) ∧ a.hdr.contrib = s.dev.coord st ∧ a.hdr.src = s.dev.peerAddr st (ownerAt
      x.desc st n) (48 + n % 4)) ∧
    (∃ (s : State) (y : Fin 4) (id n : Nat) (a : Arrival) (x : Ctx) (c : Chunk) (t : Nat), s.dev.net.arrivals.find?
      (fun z => z.at_ == .capstan y.val) = some a ∧ a.hdr.op = opGRANT ∧ a.hdr.coll = id ∧ a.hdr.chunk = n ∧
      endpointOf a.hdr.dst = 48 + n % 4 ∧ s.dev.openChunk id n = some (x, c) ∧ a.hdr.stage = 4 ∧ s.dev.stageOf
      a.hdr.src = some t ∧ cdDir x.desc ≠ 0 ∧ s.dev.owns x.desc t n = true ∧ bit (cdMask x.desc t) a.hdr.contrib =
      true ∧ a.hdr.src = s.dev.peerAddr t a.hdr.contrib (48 + n % 4) ∧ (t, a.hdr.contrib) ∉ c.retGrants) ∧
    (∃ (s : State) (y : Fin 4) (a : Arrival), s.dev.net.arrivals.find? (fun z => z.at_ == .capstan y.val) = some a ∧
      a.hdr.op = opGRANT ∧ 1 ≤ a.hdr.stage ∧ a.hdr.stage ≤ 3 ∧ a.hdr.contrib ≠ s.dev.coord a.hdr.stage) ∧
    (∃ (e : Entry), e.idx < 2 ^ 96 ∧ (∀ k, e.ext = some k → k < 2 ^ 96)) :=
  ⟨⟨st
      ({ (joined (addressed up) (ctx (desc 0 1) { chunk with ups := [newSlot (desc 0 1) 0 0 0] })) with net := { ((joined (addressed up) (ctx (desc 0 1) { chunk with ups := [newSlot (desc 0 1) 0 0 0] }))).net with arrivals := [⟨.capstan 3, 5, { hdrTo 51 opCHUNK with coll := 5, chunk := 7, stage := 0, contrib := 35, len := 1024, src := 0 }, List.replicate 1024 0 ++ leBytes 4 (sealOf 5 7 0 35 (List.replicate 1024 0)), true⟩] } }),
      3, 5, 7, ⟨.capstan 3, 5,
      { hdrTo 51 opCHUNK with coll := 5, chunk := 7, stage := 0, contrib := 35, len := 1024, src := 0 },
      List.replicate 1024 0 ++ leBytes 4 (sealOf 5 7 0 35 (List.replicate 1024 0)), true⟩, ctx (desc 0 1)
      { chunk with ups := [newSlot (desc 0 1) 0 0 0] }, { chunk with ups := [newSlot (desc 0 1) 0 0 0] }, newSlot
      (desc 0 1) 0 0 0, (35, 0), ⟨rfl, by decide +kernel, by decide +kernel, by decide +kernel, by decide +kernel,
      by decide +kernel, by decide +kernel, by decide +kernel, by decide +kernel, by decide +kernel,
      by decide +kernel, by decide +kernel, by decide +kernel, by decide +kernel, by decide +kernel,
      by decide +kernel, by decide +kernel, by decide +kernel, leAt_sealed 5 7 0 35 1024 _ List.length_replicate,
      by decide +kernel, by decide +kernel⟩⟩,
    ⟨st
      ({ (joined (addressed up) (ctx (desc 1 1) { chunk with rets := [(1, 0)] })) with net := { ((joined (addressed up) (ctx (desc 1 1) { chunk with rets := [(1, 0)] }))).net with arrivals := [⟨.capstan 3, 5, { hdrTo 51 opCHUNK with coll := 5, chunk := 7, stage := 4, contrib := 0, len := 1024, src := 0 }, List.replicate 1024 0 ++ leBytes 4 (sealOf 5 7 4 0 (List.replicate 1024 0)), true⟩] } }),
      3, 5, 7, ⟨.capstan 3, 5,
      { hdrTo 51 opCHUNK with coll := 5, chunk := 7, stage := 4, contrib := 0, len := 1024, src := 0 }, List.replicate
      1024 0 ++ leBytes 4 (sealOf 5 7 4 0 (List.replicate 1024 0)), true⟩, ctx (desc 1 1)
      { chunk with rets := [(1, 0)] }, { chunk with rets := [(1, 0)] }, ⟨rfl, by decide +kernel, by decide +kernel,
      by decide +kernel, by decide +kernel, by decide +kernel, by decide +kernel, by decide +kernel,
      by decide +kernel, by decide +kernel, by decide +kernel, leAt_sealed 5 7 4 0 1024 _ List.length_replicate⟩⟩,
    ⟨st
      ({ (addressed up) with net := { ((addressed up)).net with arrivals := [⟨.capstan 3, 5, { hdrTo 51 opCHUNK with coll := 5, chunk := 7, stage := 0, contrib := 35, len := 0, src := 0 }, [], true⟩] } }),
      3, ⟨.capstan 3, 5,
      { hdrTo 51 opCHUNK with coll := 5, chunk := 7, stage := 0, contrib := 35, len := 0, src := 0 }, [], true⟩,
      by decide +kernel⟩,
    ⟨st
      ({ (joined (addressed up) (ctx (desc 1 1) chunk)) with net := { ((joined (addressed up) (ctx (desc 1 1) chunk))).net with arrivals := [⟨.capstan 3, 5, { hdrTo 51 opGRANT with coll := 5, chunk := 7, stage := 1, contrib := 0, len := 0, src := 115 }, [], true⟩] } }),
      3, 5, 7, ⟨.capstan 3, 5,
      { hdrTo 51 opGRANT with coll := 5, chunk := 7, stage := 1, contrib := 0, len := 0, src := 115 }, [], true⟩, ctx
      (desc 1 1) chunk, chunk, 1, by decide +kernel⟩,
    ⟨st
      ({ (joined (addressed up) (ctx (desc 0 1) chunk)) with net := { ((joined (addressed up) (ctx (desc 0 1) chunk))).net with arrivals := [⟨.capstan 3, 5, { hdrTo 51 opGRANT with coll := 5, chunk := 7, stage := 4, contrib := 1, len := 0, src := 115 }, [], true⟩] } }),
      3, 5, 7, ⟨.capstan 3, 5,
      { hdrTo 51 opGRANT with coll := 5, chunk := 7, stage := 4, contrib := 1, len := 0, src := 115 }, [], true⟩, ctx
      (desc 0 1) chunk, chunk, 1, by decide +kernel⟩,
    ⟨st
      ({ (joined (addressed up) (ctx (desc 1 1) chunk)) with net := { ((joined (addressed up) (ctx (desc 1 1) chunk))).net with arrivals := [⟨.capstan 3, 5, { hdrTo 51 opGRANT with coll := 5, chunk := 7, stage := 1, contrib := 9, len := 0, src := 115 }, [], true⟩] } }),
      3, ⟨.capstan 3, 5,
      { hdrTo 51 opGRANT with coll := 5, chunk := 7, stage := 1, contrib := 9, len := 0, src := 115 }, [], true⟩,
      by decide +kernel⟩,
    ⟨Entry.init 0, by decide +kernel, fun _ h => nomatch h⟩⟩

theorem witness_SlotsAreGrantedAndStagesCompleted :
    (∃ (s : State) (id : Nat) (st y : Fin 4) (x : Ctx) (n : Nat), s.dev.ctx id = some x ∧ s.dev.live x = true ∧
      x.started = true ∧ y.val ∈ x.serve ∧ cdEn x.desc st.val = true ∧ s.dev.flag F.YRD_COLL_STAT_PROM_STOP [y.val] =
      false ∧ x.usedUp st.val y.val < cdUpSlots x.desc st.val ∧ nget (cdFirst x.desc) x.nextUp [st.val, y.val] = n ∧ n
      < cdFirst x.desc + cdCount x.desc ∧ x.yardOf n = y.val ∧ s.dev.upFor x st.val n = true ∧ (cdDown x.desc = true →
      n < x.limit)) ∧
    (∃ (s : State) (id : Nat) (st y : Fin 4) (x : Ctx) (n : Nat), s.dev.ctx id = some x ∧ s.dev.live x = true ∧
      x.started = true ∧ y.val ∈ x.serve ∧ st.val ≠ 0 ∧ cdEn x.desc st.val = true ∧ cdDir x.desc ≠ 0 ∧ x.usedRet
      st.val y.val < cdRetSlots x.desc st.val ∧ nget (cdFirst x.desc) x.nextRet [st.val, y.val] = n ∧ n < cdFirst
      x.desc + cdCount x.desc ∧ x.yardOf n = y.val ∧ (x.chunk n).fin = none ∧ s.dev.takesPart x.desc st.val n = true ∧
      s.dev.owns x.desc st.val n = false) ∧
    (∃ (s : State) (id n : Nat) (st : Fin 4) (x : Ctx) (c : Chunk) (u : USlot) (cap : Nat), s.dev.openChunk id n =
      some (x, c) ∧ c.ready x.desc st.val = some u ∧ st.val ≠ cdTop x.desc ∧ cap = s.dev.capPhys (x.yardOf n) n ∧ (∀ e
      ∈ u.entries, e.held ≠ 2)) ∧
    (∃ (s : State) (id n : Nat) (st : Fin 4) (x : Ctx) (c : Chunk) (o : StageOut) (up : Nat) (g : Nat × Nat),
      s.dev.openChunk id n = some (x, c) ∧ c.outs.find? (fun v => v.stage == st.val) = some o ∧ nextStage x.desc
      st.val = some up ∧ s.dev.takesPart x.desc up n = true ∧ s.dev.owns x.desc up n = false ∧ c.grants.find? (fun v
      => v.1 == up) = some g) ∧
    (∃ (s : State) (id n : Nat) (x : Ctx) (c : Chunk) (u : USlot), s.dev.openChunk id n = some (x, c) ∧ c.ready x.desc
      (cdTop x.desc) = some u ∧ s.dev.isRoot x.desc n = true ∧ cdDir x.desc ≠ 0 ∧ (∀ e ∈ u.entries, e.held ≠ 2)) ∧
    (∃ (s : State) (id n : Nat) (x : Ctx) (c : Chunk) (u : USlot) (l : List Byte) (at_ : Nat), s.dev.openChunk id n =
      some (x, c) ∧ c.ready x.desc (cdTop x.desc) = some u ∧ s.dev.isRoot x.desc n = true ∧ cdDir x.desc = 0 ∧ l =
      (u.result x.desc).1 ∧ at_ = resAddr x.desc n ∧ (∀ e ∈ u.entries, e.held ≠ 2) ∧ s.dev.landWaits at_ l.length =
      false ∧ s.dev.memServed at_ l.length = true ∧ s.dev.canWrite .fabric at_ l.length = true ∧ at_ + l.length ≤
      placeEnd at_) :=
  ⟨⟨st (joined (addressed up) (ctx (desc 0 1) chunk)), 5, 0, 3, ctx (desc 0 1) chunk, 7, by decide +kernel⟩,
    ⟨st (joined (addressed up) (ctx (desc 1 1) chunk)), 5, 1, 3, ctx (desc 1 1) chunk, 7, by decide +kernel⟩,
    ⟨st (joined (addressed up) (ctx (desc 1 1)
      { chunk with ups := [{ newSlot (desc 1 1) 0 0 0 with got := [(35, 0, [], 0)] }] })), 5, 7, 0, ctx (desc 1 1)
      { chunk with ups := [{ newSlot (desc 1 1) 0 0 0 with got := [(35, 0, [], 0)] }] },
      { chunk with ups := [{ newSlot (desc 1 1) 0 0 0 with got := [(35, 0, [], 0)] }] },
      { newSlot (desc 1 1) 0 0 0 with got := [(35, 0, [], 0)] }, 1, by decide +kernel⟩,
    ⟨st (joined (addressed up) (ctx (desc 1 1)
      { chunk with outs := [⟨0, 0, List.replicate 1024 0, 0⟩], grants := [(1, 115)] })), 5, 7, 0, ctx (desc 1 1)
      { chunk with outs := [⟨0, 0, List.replicate 1024 0, 0⟩], grants := [(1, 115)] },
      { chunk with outs := [⟨0, 0, List.replicate 1024 0, 0⟩], grants := [(1, 115)] }, ⟨0, 0, List.replicate 1024 0,
      0⟩, 1, (1, 115), by decide +kernel⟩,
    ⟨st (joined (addressed up) (ctx (desc 0 1)
      { chunk with ups := [{ newSlot (desc 0 1) 1 0 0 with got := [(0, 0, [], 0), (1, 0, [], 0)] }] })), 5, 7, ctx
      (desc 0 1) { chunk with ups := [{ newSlot (desc 0 1) 1 0 0 with got := [(0, 0, [], 0), (1, 0, [], 0)] }] },
      { chunk with ups := [{ newSlot (desc 0 1) 1 0 0 with got := [(0, 0, [], 0), (1, 0, [], 0)] }] },
      { newSlot (desc 0 1) 1 0 0 with got := [(0, 0, [], 0), (1, 0, [], 0)] }, by decide +kernel⟩,
    ⟨st (joined (fab) (ctx (desc 0 0)
      { chunk with ups := [{ newSlot (desc 0 0) 1 0 0 with got := [(0, 0, [], 0), (1, 0, [], 0)] }] })), 5, 7, ctx
      (desc 0 0) { chunk with ups := [{ newSlot (desc 0 0) 1 0 0 with got := [(0, 0, [], 0), (1, 0, [], 0)] }] },
      { chunk with ups := [{ newSlot (desc 0 0) 1 0 0 with got := [(0, 0, [], 0), (1, 0, [], 0)] }] },
      { newSlot (desc 0 0) 1 0 0 with got := [(0, 0, [], 0), (1, 0, [], 0)] }, (USlot.result
      ({ newSlot (desc 0 0) 1 0 0 with got := [(0, 0, [], 0), (1, 0, [], 0)] }) (desc 0 0)).1, 0x10003BC01C00,
      by decide +kernel⟩⟩

theorem witness_ResultsGoDownAndChunksEnd :
    (∃ (s : State) (id n : Nat) (st : Fin 4) (i : Fin 32) (x : Ctx) (c : Chunk) (res : List Byte), s.dev.openChunk id
      n = some (x, c) ∧ c.result = some res ∧ (st.val, i.val) ∈ s.dev.copiesDue x n ∧ (st.val, i.val) ∈ c.retGrants ∧
      (st.val, i.val) ∉ c.copies) ∧
    (∃ (s : State) (id n : Nat) (x : Ctx) (c : Chunk) (res : List Byte), s.dev.openChunk id n = some (x, c) ∧ c.result
      = some res ∧ c.tStarted = false ∧ cdResLocal x.desc = true ∧ s.dev.landWaits (resAddr x.desc n) res.length =
      false ∧ s.dev.memServed (resAddr x.desc n) res.length = true ∧ s.dev.canWrite .fabric (resAddr x.desc n)
      res.length = true ∧ resAddr x.desc n + res.length ≤ placeEnd (resAddr x.desc n)) ∧
    (∃ (s : State) (id n : Nat) (x : Ctx) (c : Chunk), s.dev.openChunk id n = some (x, c) ∧ s.dev.chunkOver x c n =
      true ∧ ¬(cdSigMode x.desc = 3 ∧ s.dev.seqStopped (cdSigTackle x.desc) = true)) ∧
    (∃ (s : State) (id n : Nat) (x : Ctx) (c : Chunk), s.dev.openChunk id n = some (x, c) ∧ s.dev.chunkLate x c n =
      true) ∧
    (∃ (s : State) (id : Nat) (x : Ctx), s.dev.ctx id = some x ∧ s.dev.live x = true ∧ s.dev.headless = false ∧
      x.doneCnt + x.failCnt = cdCount x.desc ∧ (∀ z ∈ x.chunks, z.2.sigDue = false) ∧ x.joins = []) :=
  ⟨⟨st (joined (addressed up) (ctx (desc 0 1)
      { chunk with result := some (List.replicate 1024 0), retGrants := [(1, 1)] })), 5, 7, 1, 1, ctx (desc 0 1)
      { chunk with result := some (List.replicate 1024 0), retGrants := [(1, 1)] },
      { chunk with result := some (List.replicate 1024 0), retGrants := [(1, 1)] }, List.replicate 1024 0,
      by decide +kernel⟩,
    ⟨st (joined (fab) (ctx (desc 0 1) { chunk with result := some (List.replicate 1024 0) })), 5, 7, ctx (desc 0 1)
      { chunk with result := some (List.replicate 1024 0) }, { chunk with result := some (List.replicate 1024 0) },
      List.replicate 1024 0, by decide +kernel⟩,
    ⟨st (joined (addressed up) (ctx (desc 0 0) { chunk with written := true })), 5, 7, ctx (desc 0 0)
      { chunk with written := true }, { chunk with written := true }, by decide +kernel⟩,
    ⟨st (joined (addressed up) (ctx (desc 0 1) { chunk with ups := [newSlot (desc 0 1) 0 0 0] })), 5, 7, ctx (desc 0
      1) { chunk with ups := [newSlot (desc 0 1) 0 0 0] }, { chunk with ups := [newSlot (desc 0 1) 0 0 0] },
      by decide +kernel⟩,
    ⟨st (joined (addressed up) ({ ctx (desc 0 1) chunk with doneCnt := 8 })), 5,
      { ctx (desc 0 1) chunk with doneCnt := 8 }, by decide +kernel⟩⟩

theorem witness_CapstansAreTestedAndSpared :
    (∃ (s : State) (y : Fin 4) (c : Fin 17), 65536 ≤ nget 0 s.dev.coll.since [y.val, c.val] ∧ (y.val, c.val) ∉
      s.dev.coll.testing ∧ s.dev.flag F.CPS_STAT_FAILED [y.val, c.val] = false) ∧
    (∃ (s : State) (iss : Issuer) (y : Fin 4) (c : Fin 17), s.dev.lands iss .CPS_ST_CTRL [y.val, c.val] 1 = true ∧
      (y.val, c.val) ∉ s.dev.coll.testing ∧ s.dev.flag F.CPS_STAT_FAILED [y.val, c.val] = false) ∧
    (∃ (s : State) (y : Fin 4) (c : Fin 17), (y.val, c.val) ∈ s.dev.coll.testing) ∧
    (∃ (s : State) (y : Fin 4) (c : Fin 17), (y.val, c.val) ∈ s.dev.coll.testing) ∧
    (∃ (s : State) (y : Fin 4) (c : Fin 17) (j : Nat), c.val < 16 ∧ (y.val, c.val) ∈ s.dev.coll.failing ∧ s.dev.flag
      F.CPS_STAT_FAILED [y.val, c.val] = false ∧ s.dev.flag F.CPS_STAT_IN_SERVICE [y.val, c.val] = true ∧ s.dev.flag
      F.CPS_STAT_SPARE [y.val, 16] = true ∧ j = s.dev.getF F.CPS_STAT_LOGICAL [y.val, c.val] ∧ j < 16) ∧
    (∃ (s : State) (iss : Issuer) (y : Fin 4) (v : BitVec 64), s.dev.lands iss .YRD_COLL_OVF [y.val] v.toNat = true ∧
      s.dev.getF F.YRD_COLL_OPEN_COUNT [y.val] = 0 ∧ bits v.toNat 21 27 * 2 ^ 21 + 201326592 ≤ 0x6000000000) ∧
    (∃ (s : State) (iss : Issuer) (y : Fin 4) (v : BitVec 64), s.dev.lands iss .YRD_COLL_OVF [y.val] v.toNat = true ∧
      (0 < s.dev.getF F.YRD_COLL_OPEN_COUNT [y.val] ∨ 0x6000000000 < bits v.toNat 21 27 * 2 ^ 21 + 201326592)) :=
  ⟨⟨st ({ up with coll := { (up).coll with since := [([3, 16], 65536)] } }), 3, 16, by decide +kernel⟩,
    ⟨st up, .pf 0, 3, 16, by decide +kernel⟩,
    ⟨st ({ up with coll := { (up).coll with testing := [(3, 16)] } }), 3, 16, by decide +kernel⟩,
    ⟨st ({ up with coll := { (up).coll with testing := [(3, 16)] } }), 3, 16, by decide +kernel⟩,
    ⟨st ({ up with coll := { (up).coll with failing := [(3, 15)] } }), 3, 15, 15, by decide +kernel⟩,
    ⟨st up, .pf 0, 3, 0x80000000, by decide +kernel⟩,
    ⟨st (on [(F.YRD_COLL_OPEN_COUNT, [3], 1)]), .pf 0, 3, 0x80000000, by decide +kernel⟩⟩

theorem witness_CommandsAreDequeuedDispatchedAndCompleted :
    (∃ (s : State) (t : Fin 65536) (q : Fin 4) (i : List Nat) (b : RingBind) (n : Nat) (l : List Byte), s.dev.ringOf
      t.val q.val = some (i, b) ∧ s.dev.canDequeue t.val q.val = true ∧ s.dev.getF F.HST_CR_STAT_STATE i = 1 ∧
      s.dev.getF F.HST_CR_COUNT_CONSUMED i = n ∧ n ≠ s.dev.getF F.HST_CR_COUNT_PRODUCED i ∧ l = nget emptySlot
      s.dev.host.slots (i ++ [n % b.size]) ∧ (handlePos l = [] ∨ s.dev.flag F.MST_READY_MAST = true) ∧ (∀ p ∈
      handlePos l, s.dev.broken [6, leAt l p 2] = false) ∧ s.dev.broken (5 :: i ++ [n % b.size]) = false ∧
      s.dev.ptrsOk 0 i = true ∧ s.dev.digStall t.val q.val (s.dev.partOf t.val q.val) = false ∧ s.dev.getF
      F.HST_CR_COUNT_PRODUCED i < 2 ^ 32 ∧ s.dev.acceptCmd t.val l (s.dev.copyDescs t.val l) = true ∧ (s.dev.tck
      t.val).queues.length = 4) ∧
    (∃ (s : State) (t : Fin 65536) (q : Fin 4) (i : List Nat) (b : RingBind) (n : Nat) (l : List Byte), s.dev.ringOf
      t.val q.val = some (i, b) ∧ s.dev.canDequeue t.val q.val = true ∧ s.dev.getF F.HST_CR_STAT_STATE i = 1 ∧
      s.dev.getF F.HST_CR_COUNT_CONSUMED i = n ∧ n ≠ s.dev.getF F.HST_CR_COUNT_PRODUCED i ∧ l = nget emptySlot
      s.dev.host.slots (i ++ [n % b.size]) ∧ (handlePos l = [] ∨ s.dev.flag F.MST_READY_MAST = true) ∧ (∀ p ∈
      handlePos l, s.dev.broken [6, leAt l p 2] = false) ∧ s.dev.broken (5 :: i ++ [n % b.size]) = false ∧
      s.dev.ptrsOk 0 i = true ∧ s.dev.digStall t.val q.val (s.dev.partOf t.val q.val) = false ∧ s.dev.getF
      F.HST_CR_COUNT_PRODUCED i < 2 ^ 32 ∧ s.dev.acceptCmd t.val l (s.dev.copyDescs t.val l) = false) ∧
    (∃ (s : State) (t : Fin 65536) (q k : Nat) (g : Launch), s.dev.nextQueue t.val = some q ∧ s.dev.launch t.val q =
      some g ∧ headOp (opcode g.cmd.bytes) = false ∧ g.bad = none ∧ freeSlot (s.dev.tck t.val).runs = some k ∧
      (s.dev.tck t.val).queues.length = 4) ∧
    (∃ (s : State) (t : Fin 65536) (q : Nat) (g : Launch), s.dev.nextQueue t.val = some q ∧ s.dev.launch t.val q =
      some g ∧ (opcode g.cmd.bytes = 1 ∨ opcode g.cmd.bytes = 2) ∧ (s.dev.tck t.val).queues.length = 4) ∧
    (∃ (s : State) (t : Fin 65536) (k : Nat) (r : Run) (st : Status), s.dev.runAt t.val k = some r ∧ r.final = some st
      ∧ s.dev.flowBusy r.cmd.bytes = false ∧ r.ended = 0 ∧ s.dev.traceStall t.val r.queue false = false ∧ r.partSts =
      [] ∧ closesFlow r.cmd.bytes = false ∧ s.dev.tckRuns t.val = true ∧ s.dev.sealStall t.val r.cmd.uid = false ∧
      (opcode r.cmd.bytes = 0x41 → s.dev.covered (r.origin t.val) = false)) ∧
    (∃ (s : State) (iss : Issuer) (t : Fin 65536) (q : Fin 4), tackleExists t.val = true ∧ s.dev.lands iss .TCK_QCTL
      [t.val, q.val] 1 = true) ∧
    (∃ (s : State) (iss : Issuer) (t : Fin 65536) (c : Fin 16) (v : BitVec 32), tackleExists t.val = true ∧
      s.dev.lands iss .SEQ_CTR [t.val, c.val] v.toNat = true) :=
  ⟨⟨st
      ({ on [(F.HST_CR_STAT_STATE, [3, 16, 31], 1), (F.HST_CR_COUNT_PRODUCED, [3, 16, 31], 1)] with host := { up.host with binds := [([3, 16, 31], ⟨0x434F, 3, 4096, 0⟩)], ptr2 := [([0, 3, 16, 31], (0, 1))], slots := [([3, 16, 31, 0], cmd [(0, 1, 1)])] }, eng := { up.eng with tck := [([0x434F], TckSt.init)] } }),
      0x434F, 3, [3, 16, 31], ⟨0x434F, 3, 4096, 0⟩, 0, cmd [(0, 1, 1)], by decide +kernel⟩,
    ⟨st
      ({ on [(F.HST_CR_STAT_STATE, [3, 16, 31], 1), (F.HST_CR_COUNT_PRODUCED, [3, 16, 31], 1)] with host := { up.host with binds := [([3, 16, 31], ⟨0x434F, 3, 4096, 0⟩)], ptr2 := [([0, 3, 16, 31], (0, 1))], slots := [([3, 16, 31, 0], cmd [(0, 1, 0xFF)])] }, eng := { up.eng with tck := [([0x434F], TckSt.init)] } }),
      0x434F, 3, [3, 16, 31], ⟨0x434F, 3, 4096, 0⟩, 0, cmd [(0, 1, 0xFF)], by decide +kernel⟩,
    ⟨st (waiting (up) 0x434B 3 (queued (cmd [(0, 1, 0x10), (6, 2, 1), (8, 6, 0x10003BC00000), (14, 6, 0x10003BC00100),
      (20, 4, 16)]))), 0x434B, 3, 0, (Dev.launch (waiting up 0x434B 3 (queued (cmd [(0, 1, 0x10), (6, 2, 1), (8, 6,
      0x10003BC00000), (14, 6, 0x10003BC00100), (20, 4, 16)]))) 0x434B 3).get (by decide +kernel), by decide +kernel⟩,
    ⟨st (waiting (up) 0x434F 3 (queued (cmd [(0, 1, 1)]))), 0x434F, 3, (Dev.launch (waiting up 0x434F 3 (queued (cmd
      [(0, 1, 1)]))) 0x434F 3).get (by decide +kernel), by decide +kernel⟩,
    ⟨st (running (up) 0x434B
      ({ run (cmd [(0, 1, 0x10), (6, 2, 1), (8, 6, 0x10003BC00000), (14, 6, 0x10003BC00100), (20, 4, 16)]) with status := some .ok })),
      0x434B, 3,
      { run (cmd [(0, 1, 0x10), (6, 2, 1), (8, 6, 0x10003BC00000), (14, 6, 0x10003BC00100), (20, 4, 16)]) with status := some .ok },
      .ok, by decide +kernel⟩,
    ⟨st up, .pf 0, 0x434F, 3, by decide +kernel⟩,
    ⟨st up, .pf 0, 0x434F, 15, 0xFFFFFFFF, by decide +kernel⟩⟩

theorem witness_CommandsOfTheQueueHead :
    (∃ (s : State) (t : Fin 65536) (q : Fin 4) (c : Cmd), s.dev.headNow t.val q.val 0 = some c ∧ (s.dev.tck
      t.val).queues.length = 4) ∧
    (∃ (s : State) (t : Fin 65536) (q : Fin 4) (c : Cmd), (s.dev.queue t.val q.val).head? = some c ∧ opcode c.bytes =
      1 ∧ c.waitAt.isSome = true ∧ s.dev.queueIdle t.val q.val = true ∧ s.dev.tckRuns t.val = true ∧ s.dev.traceStall
      t.val q.val false = false ∧ (s.dev.tck t.val).queues.length = 4) ∧
    (∃ (s : State) (t : Fin 65536) (q : Fin 4) (c : Cmd), (s.dev.queue t.val q.val).head? = some c ∧ opcode c.bytes =
      2 ∧ c.waitAt.isSome = true ∧ s.dev.seqAlive (leAt c.bytes 4 2) = true ∧ s.dev.seqStopped (leAt c.bytes 4 2) =
      false ∧ s.dev.tckRuns t.val = true ∧ (s.dev.ctr (leAt c.bytes 4 2) (cbits c.bytes 6 0 4) + 2 ^ 32 - leAt c.bytes
      8 4) % 2 ^ 32 < 2 ^ 31 ∧ s.dev.traceStall t.val q.val false = false ∧ (s.dev.tck t.val).queues.length = 4) ∧
    (∃ (s : State) (t : Fin 65536) (q : Fin 4) (c : Cmd), (s.dev.queue t.val q.val).head? = some c ∧ opcode c.bytes =
      2 ∧ c.waitAt.isSome = true ∧ s.dev.seqAlive (leAt c.bytes 4 2) = false ∧ c.parent = none ∧ s.dev.tckRuns t.val =
      true ∧ s.dev.traceStall t.val q.val false = false ∧ (s.dev.tck t.val).queues.length = 4) ∧
    (∃ (s : State) (t : Fin 65536) (q : Fin 4) (c : Cmd) (w : Nat), (s.dev.queue t.val q.val).head? = some c ∧ opcode
      c.bytes = 2 ∧ c.waitAt = some w ∧ s.dev.seqAlive (leAt c.bytes 4 2) = true ∧ s.dev.tckRuns t.val = true ∧ leAt
      c.bytes 12 2 ≠ 0 ∧ w + us (leAt c.bytes 12 2) ≤ s.dev.clk.now ∧ s.dev.waitHolds c.bytes = false ∧
      s.dev.traceStall t.val q.val false = false ∧ c.parent = none ∧ (s.dev.tck t.val).queues.length = 4) ∧
    (∃ (s : State) (t : Fin 65536) (q : Fin 4) (c : Cmd) (g n : Nat), s.dev.headNow t.val q.val 3 = some c ∧ g = leAt
      c.bytes 4 2 ∧ n = cbits c.bytes 6 0 4 ∧ s.dev.seqAlive g = true ∧ s.dev.seqStopped g = false ∧ (s.dev.tck
      t.val).queues.length = 4) ∧
    (∃ (s : State) (t : Fin 65536) (q : Fin 4) (c : Cmd) (g n : Nat), s.dev.headNow t.val q.val 3 = some c ∧ g = leAt
      c.bytes 4 2 ∧ n = cbits c.bytes 6 0 4 ∧ s.dev.seqAlive g = false ∧ (s.dev.tck t.val).queues.length = 4) ∧
    (∃ (s : State) (t : Fin 65536) (q : Fin 4) (c : Cmd), (s.dev.queue t.val q.val).head? = some c ∧ s.dev.seqStopped
      (leAt c.bytes 4 2) = true) ∧
    (∃ (s : State) (t : Fin 65536) (q : Fin 4) (c : Cmd), s.dev.headNow t.val q.val 4 = some c ∧ (s.dev.tck
      t.val).queues.length = 4) ∧
    (∃ (s : State) (t : Fin 65536) (q : Fin 4) (c : Cmd), s.dev.headNow t.val q.val 0x7F = some c ∧ (s.dev.tck
      t.val).queues.length = 4) :=
  ⟨⟨st (waiting (up) 0x4040 3 (queued (cmd []))), 0x4040, 3, queued (cmd []), by decide +kernel⟩,
    ⟨st (waiting (up) 0x4040 3 ({ queued (cmd [(0, 1, 1)]) with waitAt := some 0 })), 0x4040, 3,
      { queued (cmd [(0, 1, 1)]) with waitAt := some 0 }, by decide +kernel⟩,
    ⟨st (waiting (up) 0x4040 3
      ({ queued (cmd [(0, 1, 2), (4, 2, 0x434F), (6, 1, 15), (8, 4, 0), (12, 2, 0)]) with waitAt := some 0 })),
      0x4040, 3,
      { queued (cmd [(0, 1, 2), (4, 2, 0x434F), (6, 1, 15), (8, 4, 0), (12, 2, 0)]) with waitAt := some 0 },
      by decide +kernel⟩,
    ⟨st (waiting (on [(F.TCK_STAT_MASKED, [0x434F], 1)]) 0x4040 3
      ({ queued (cmd [(0, 1, 2), (4, 2, 0x434F), (6, 1, 15), (8, 4, 0), (12, 2, 0)]) with waitAt := some 0 })),
      0x4040, 3,
      { queued (cmd [(0, 1, 2), (4, 2, 0x434F), (6, 1, 15), (8, 4, 0), (12, 2, 0)]) with waitAt := some 0 },
      by decide +kernel⟩,
    ⟨st (waiting (up) 0x4040 3
      ({ queued (cmd [(0, 1, 2), (4, 2, 0x434F), (6, 1, 15), (8, 4, 1), (12, 2, 65535)]) with waitAt := some 0 })),
      0x4040, 3,
      { queued (cmd [(0, 1, 2), (4, 2, 0x434F), (6, 1, 15), (8, 4, 1), (12, 2, 65535)]) with waitAt := some 0 }, 0,
      by decide +kernel⟩,
    ⟨st (waiting (up) 0x4040 3 (queued (cmd [(0, 1, 3), (4, 2, 0x434F), (6, 1, 15)]))), 0x4040, 3, queued (cmd [(0, 1,
      3), (4, 2, 0x434F), (6, 1, 15)]), 0x434F, 15, by decide +kernel⟩,
    ⟨st (waiting (on [(F.TCK_STAT_MASKED, [0x434F], 1)]) 0x4040 3 (queued (cmd [(0, 1, 3), (4, 2, 0x434F), (6, 1,
      15)]))), 0x4040, 3, queued (cmd [(0, 1, 3), (4, 2, 0x434F), (6, 1, 15)]), 0x434F, 15, by decide +kernel⟩,
    ⟨st (waiting (up.stopIsland (tackleIsland 0x434F)) 0x4040 3 (queued (cmd [(0, 1, 3), (4, 2, 0x434F), (6, 1,
      15)]))), 0x4040, 3, queued (cmd [(0, 1, 3), (4, 2, 0x434F), (6, 1, 15)]), by decide +kernel⟩,
    ⟨st (waiting (up) 0x4040 3 (queued (cmd [(0, 1, 4)]))), 0x4040, 3, queued (cmd [(0, 1, 4)]), by decide +kernel⟩,
    ⟨st (waiting (up) 0x4040 3 (queued (cmd [(0, 1, 0x7F)]))), 0x4040, 3, queued (cmd [(0, 1, 0x7F)]),
      by decide +kernel⟩⟩

theorem witness_DigestWindowsOpenAndClose :
    (∃ (s : State) (t : Fin 65536) (k w : Nat) (r : Run), s.dev.runs t.val k 5 r ∧ s.dev.tckInReset 0x1001 = false ∧
      s.dev.islandOn 5 = true ∧ cbits r.cmd.bytes 4 0 4 = 0 ∧ w = leAt r.cmd.bytes 6 2 ∧ nget? s.dev.eng.windows [w] =
      none ∧ s.dev.eng.windows.length < 16) ∧
    (∃ (s : State) (t : Fin 65536) (k w : Nat) (r : Run) (x : Window), s.dev.runs t.val k 5 r ∧ s.dev.tckInReset
      0x1001 = false ∧ s.dev.islandOn 5 = true ∧ cbits r.cmd.bytes 4 0 4 = 1 ∧ w = leAt r.cmd.bytes 6 2 ∧ nget?
      s.dev.eng.windows [w] = some x ∧ x.ranges.countP (fun y => y.1 == cbits r.cmd.bytes 4 4 2) < 8) ∧
    (∃ (s : State) (t : Fin 65536) (k w : Nat) (r : Run) (x : Window), s.dev.runs t.val k 5 r ∧ s.dev.tckInReset
      0x1001 = false ∧ s.dev.islandOn 5 = true ∧ cbits r.cmd.bytes 4 0 4 = 2 ∧ w = leAt r.cmd.bytes 6 2 ∧ nget?
      s.dev.eng.windows [w] = some x) ∧
    (∃ (s : State) (t : Fin 65536) (k w : Nat) (r : Run), s.dev.runs t.val k 5 r ∧ s.dev.tckInReset 0x1001 = false ∧
      s.dev.islandOn 5 = true ∧ cbits r.cmd.bytes 4 0 4 = 2 ∧ w = leAt r.cmd.bytes 6 2 ∧ nget? s.dev.eng.windows [w] =
      none) ∧
    (∃ (s : State) (t : Fin 65536) (k a : Nat) (r : Run), s.dev.runs t.val k 5 r ∧ s.dev.tckInReset 0x1001 = false ∧
      s.dev.islandOn 5 = true ∧ cbits r.cmd.bytes 4 0 4 = 3 ∧ a = leAt r.cmd.bytes 20 6 ∧ s.dev.canWrite (r.writer
      t.val) a 32 = true ∧ a + 32 ≤ placeEnd a ∧ s.dev.memUp (leAt r.cmd.bytes 8 6) (leAt r.cmd.bytes 16 4) ∧
      s.dev.memUp a 32) ∧
    (∃ (s : State) (w : Nat) (x : Window), nget? s.dev.eng.windows [w] = some x ∧ x.done = true ∧ s.dev.fed w x =
      false ∧ s.dev.headless = false ∧ s.dev.tckInReset 0x1001 = false ∧ s.dev.islandOn 5 = true) :=
  ⟨⟨st (running (up) 0x1001 (run (cmd [(0, 1, 5), (4, 1, 0), (6, 2, 65535)]))), 0x1001, 3, 65535, run (cmd [(0, 1,
      5), (4, 1, 0), (6, 2, 65535)]), by decide +kernel⟩,
    ⟨st (running
      ({ up with eng := { (up).eng with windows := [([65535], ⟨0, 0, 0, 0, 0, none, 0, 0, [], [], [], [], [], [0, 0, 0, 0], 0, false, 0, 0⟩)] } })
      0x1001 (run (cmd [(0, 1, 5), (4, 1, 1), (6, 2, 65535)]))), 0x1001, 3, 65535, run (cmd [(0, 1, 5), (4, 1, 1), (6,
      2, 65535)]), ⟨0, 0, 0, 0, 0, none, 0, 0, [], [], [], [], [], [0, 0, 0, 0], 0, false, 0, 0⟩, by decide +kernel⟩,
    ⟨st (running
      ({ up with eng := { (up).eng with windows := [([65535], ⟨0, 0, 0, 0, 0, none, 0, 0, [], [], [], [], [], [0, 0, 0, 0], 0, false, 0, 0⟩)] } })
      0x1001 (run (cmd [(0, 1, 5), (4, 1, 2), (6, 2, 65535)]))), 0x1001, 3, 65535, run (cmd [(0, 1, 5), (4, 1, 2), (6,
      2, 65535)]), ⟨0, 0, 0, 0, 0, none, 0, 0, [], [], [], [], [], [0, 0, 0, 0], 0, false, 0, 0⟩, by decide +kernel⟩,
    ⟨st (running (up) 0x1001 (run (cmd [(0, 1, 5), (4, 1, 2), (6, 2, 65535)]))), 0x1001, 3, 65535, run (cmd [(0, 1,
      5), (4, 1, 2), (6, 2, 65535)]), by decide +kernel⟩,
    ⟨st (running (owned) 0x1001 (run (cmd [(0, 1, 5), (4, 1, 3), (6, 2, 65535), (8, 6, 0x10003BC00000), (16, 4, 1),
      (20, 6, 0x10003BC00400)]))), 0x1001, 3, 0x10003BC00400, run (cmd [(0, 1, 5), (4, 1, 3), (6, 2, 65535), (8, 6,
      0x10003BC00000), (16, 4, 1), (20, 6, 0x10003BC00400)]), by decide +kernel⟩,
    ⟨st
      ({ up with eng := { (up).eng with windows := [([65535], ⟨0, 0, 0, 0, 0, none, 0, 0, [], [], [], [], [], [0, 0, 0, 0], 0, true, 0, 0⟩)] } }),
      65535, ⟨0, 0, 0, 0, 0, none, 0, 0, [], [], [], [], [], [0, 0, 0, 0], 0, true, 0, 0⟩, by decide +kernel⟩⟩

theorem witness_StreamProgramsRun :
    (∃ (s : State) (t : Fin 65536) (k : Nat) (r : Run), s.dev.executes t.val k 6 r ∧ s.dev.memUp (leAt r.cmd.bytes 8
      6) (leAt r.cmd.bytes 6 2) ∧ progOk (s.dev.read (leAt r.cmd.bytes 8 6) (leAt r.cmd.bytes 6 2)) (leAt r.cmd.bytes
      6 2) = true) ∧
    (∃ (s : State) (t : Fin 65536) (k : Nat) (r : Run), s.dev.executes t.val k 6 r ∧ s.dev.memUp (leAt r.cmd.bytes 8
      6) (leAt r.cmd.bytes 6 2) ∧ progOk (s.dev.read (leAt r.cmd.bytes 8 6) (leAt r.cmd.bytes 6 2)) (leAt r.cmd.bytes
      6 2) = false) ∧
    (∃ (s : State) (t : Fin 65536) (k n : Nat) (r : Run) (g : Stream) (p : List Byte) (w : Nat), s.dev.streamIns t.val
      k 1 = some (r, g, p, w) ∧ g.pieces.length - g.done < 64 ∧ g.taken.length = 4 ∧ n = min (bits w 0 8 + 1) (agTotal
      p (bits w 11 2) - g.taken.getD (bits w 11 2) 0) ∧ (∀ j : Nat, j < n → pieceOk t.val r.cmd.bytes (agAddr p (bits
      w 11 2) (g.taken.getD (bits w 11 2) 0 + j)) (g.pieces.length + j) = true)) ∧
    (∃ (s : State) (t : Fin 65536) (k : Nat) (r : Run) (g : Stream) (p : List Byte) (w : Nat), s.dev.streamIns t.val k
      2 = some (r, g, p, w) ∧ s.dev.cmp g.seq p (bits w 0 3) = true) ∧
    (∃ (s : State) (t : Fin 65536) (k : Nat) (r : Run) (g : Stream) (p : List Byte) (w : Nat), s.dev.streamIns t.val k
      2 = some (r, g, p, w) ∧ s.dev.cmp g.seq p (bits w 0 3) = false) ∧
    (∃ (s : State) (t : Fin 65536) (k : Nat) (r : Run) (g : Stream) (p : List Byte) (w : Nat), s.dev.streamIns t.val k
      3 = some (r, g, p, w)) ∧
    (∃ (s : State) (t : Fin 65536) (k : Nat) (r : Run) (g : Stream) (p : List Byte) (w : Nat), s.dev.streamIns t.val k
      4 = some (r, g, p, w)) ∧
    (∃ (s : State) (t : Fin 65536) (k : Nat) (r : Run) (g : Stream) (p : List Byte) (w : Nat), s.dev.streamIns t.val k
      5 = some (r, g, p, w)) ∧
    (∃ (s : State) (t : Fin 65536) (k : Nat) (r : Run) (g : Stream) (p : List Byte) (w : Nat), s.dev.streamIns t.val k
      0 = some (r, g, p, w) ∧ (∀ i : Nat, i < cb p 0 → progIns p i / 8192 = 1 → agTotal p (bits (progIns p i) 11 2) ≤
      g.taken.getD (bits (progIns p i) 11 2) 0)) ∧
    (∃ (s : State) (t : Fin 65536) (k i : Nat) (r : Run) (g : Stream) (p : List Byte) (w : Nat), s.dev.streamIns t.val
      k 0 = some (r, g, p, w) ∧ i < cb p 0 ∧ progIns p i / 8192 = 1 ∧ g.taken.getD (bits (progIns p i) 11 2) 0 <
      agTotal p (bits (progIns p i) 11 2)) :=
  ⟨⟨st (running (Dev.write up 0x10003BC00000 (prog 0x2000)) 0x434F (run (cmd [(0, 1, 6), (6, 2, 260), (8, 6,
      0x10003BC00000)]))), 0x434F, 3, run (cmd [(0, 1, 6), (6, 2, 260), (8, 6, 0x10003BC00000)]), by decide +kernel⟩,
    ⟨st (running (Dev.write up 0x10003BC00000 (prog 0x2800)) 0x434F (run (cmd [(0, 1, 6), (6, 2, 260), (8, 6,
      0x10003BC00000)]))), 0x434F, 3, run (cmd [(0, 1, 6), (6, 2, 260), (8, 6, 0x10003BC00000)]), by decide +kernel⟩,
    ⟨st (running ({ up with eng := { (up).eng with progs := [([0x434F, 0], prog 0x2003)] } }) 0x434B (streaming (cmd
      [(0, 1, 0x11), (5, 1, 8), (8, 6, 0x10003BC00000), (16, 3, 16), (20, 6, 0x10003BC00200), (28, 4, 8)]) [] 0
      false)), 0x434B, 3, 4, streaming (cmd [(0, 1, 0x11), (5, 1, 8), (8, 6, 0x10003BC00000), (16, 3, 16), (20, 6,
      0x10003BC00200), (28, 4, 8)]) [] 0 false, ⟨0x434F, 0, 0, [0, 0, 0, 0], [], 0, false⟩, prog 0x2003, 0x2003,
      by decide +kernel⟩,
    ⟨st (running ({ up with eng := { (up).eng with progs := [([0x434F, 0], prog 0x4000)] } }) 0x434B (streaming (cmd
      [(0, 1, 0x11), (5, 1, 8), (8, 6, 0x10003BC00000), (16, 3, 16), (20, 6, 0x10003BC00200), (28, 4, 8)]) [] 0
      false)), 0x434B, 3, streaming (cmd [(0, 1, 0x11), (5, 1, 8), (8, 6, 0x10003BC00000), (16, 3, 16), (20, 6,
      0x10003BC00200), (28, 4, 8)]) [] 0 false, ⟨0x434F, 0, 0, [0, 0, 0, 0], [], 0, false⟩, prog 0x4000, 0x4000,
      by decide +kernel⟩,
    ⟨st (running ({ up with eng := { (up).eng with progs := [([0x434F, 0], prog 0x4001)] } }) 0x434B (streaming (cmd
      [(0, 1, 0x11), (5, 1, 8), (8, 6, 0x10003BC00000), (16, 3, 16), (20, 6, 0x10003BC00200), (28, 4, 8)]) [] 0
      false)), 0x434B, 3, streaming (cmd [(0, 1, 0x11), (5, 1, 8), (8, 6, 0x10003BC00000), (16, 3, 16), (20, 6,
      0x10003BC00200), (28, 4, 8)]) [] 0 false, ⟨0x434F, 0, 0, [0, 0, 0, 0], [], 0, false⟩, prog 0x4001, 0x4001,
      by decide +kernel⟩,
    ⟨st (running ({ up with eng := { (up).eng with progs := [([0x434F, 0], prog 0x6001)] } }) 0x434B (streaming (cmd
      [(0, 1, 0x11), (5, 1, 8), (8, 6, 0x10003BC00000), (16, 3, 16), (20, 6, 0x10003BC00200), (28, 4, 8)]) [] 0
      false)), 0x434B, 3, streaming (cmd [(0, 1, 0x11), (5, 1, 8), (8, 6, 0x10003BC00000), (16, 3, 16), (20, 6,
      0x10003BC00200), (28, 4, 8)]) [] 0 false, ⟨0x434F, 0, 0, [0, 0, 0, 0], [], 0, false⟩, prog 0x6001, 0x6001,
      by decide +kernel⟩,
    ⟨st (running ({ up with eng := { (up).eng with progs := [([0x434F, 0], prog 0x8000)] } }) 0x434B (streaming (cmd
      [(0, 1, 0x11), (5, 1, 8), (8, 6, 0x10003BC00000), (16, 3, 16), (20, 6, 0x10003BC00200), (28, 4, 8)]) [] 0
      false)), 0x434B, 3, streaming (cmd [(0, 1, 0x11), (5, 1, 8), (8, 6, 0x10003BC00000), (16, 3, 16), (20, 6,
      0x10003BC00200), (28, 4, 8)]) [] 0 false, ⟨0x434F, 0, 0, [0, 0, 0, 0], [], 0, false⟩, prog 0x8000, 0x8000,
      by decide +kernel⟩,
    ⟨st (running ({ up with eng := { (up).eng with progs := [([0x434F, 0], prog 0xA000)] } }) 0x434B (streaming (cmd
      [(0, 1, 0x11), (5, 1, 8), (8, 6, 0x10003BC00000), (16, 3, 16), (20, 6, 0x10003BC00200), (28, 4, 8)]) [] 0
      false)), 0x434B, 3, streaming (cmd [(0, 1, 0x11), (5, 1, 8), (8, 6, 0x10003BC00000), (16, 3, 16), (20, 6,
      0x10003BC00200), (28, 4, 8)]) [] 0 false, ⟨0x434F, 0, 0, [0, 0, 0, 0], [], 0, false⟩, prog 0xA000, 0xA000,
      by decide +kernel⟩,
    ⟨st (running ({ up with eng := { (up).eng with progs := [([0x434F, 0], prog 0x2003)] } }) 0x434B
      ({ run (cmd [(0, 1, 0x11), (5, 1, 8), (8, 6, 0x10003BC00000), (16, 3, 16), (20, 6, 0x10003BC00200), (28, 4, 8)]) with stream := some ⟨0x434F, 0, 1, [8, 0, 0, 0], [], 0, false⟩ })),
      0x434B, 3,
      { run (cmd [(0, 1, 0x11), (5, 1, 8), (8, 6, 0x10003BC00000), (16, 3, 16), (20, 6, 0x10003BC00200), (28, 4, 8)]) with stream := some ⟨0x434F, 0, 1, [8, 0, 0, 0], [], 0, false⟩ },
      ⟨0x434F, 0, 1, [8, 0, 0, 0], [], 0, false⟩, prog 0x2003, 0, by decide +kernel⟩,
    ⟨st (running ({ up with eng := { (up).eng with progs := [([0x434F, 0], prog 0x2003)] } }) 0x434B
      ({ run (cmd [(0, 1, 0x11), (5, 1, 8), (8, 6, 0x10003BC00000), (16, 3, 16), (20, 6, 0x10003BC00200), (28, 4, 8)]) with stream := some ⟨0x434F, 0, 1, [7, 0, 0, 0], [], 0, false⟩ })),
      0x434B, 3, 0,
      { run (cmd [(0, 1, 0x11), (5, 1, 8), (8, 6, 0x10003BC00000), (16, 3, 16), (20, 6, 0x10003BC00200), (28, 4, 8)]) with stream := some ⟨0x434F, 0, 1, [7, 0, 0, 0], [], 0, false⟩ },
      ⟨0x434F, 0, 1, [7, 0, 0, 0], [], 0, false⟩, prog 0x2003, 0, by decide +kernel⟩⟩

theorem witness_MoveEngineCommands :
    (∃ (s : State) (t : Fin 65536) (k : Nat) (r : Run) (x : Dec) (a c : Opnd), s.dev.executes t.val k 0x10 r ∧ r.dec
      t.val = some x ∧ x.ops = [a, c] ∧ s.dev.runsUp (a.runs (r.sel x) ++ c.runs (r.sel x))) ∧
    (∃ (s : State) (t : Fin 65536) (k : Nat) (r : Run) (x : Dec) (a c : Opnd) (p q n : Nat), s.dev.executes t.val k
      0x10 r ∧ r.dec t.val = some x ∧ x.ops = [a, c] ∧ a.runs (r.sel x) = [(p, n)] ∧ c.runs (r.sel x) = [(q, n)] ∧
      s.dev.mayStore (r.writer t.val) q n = true ∧ s.dev.memUp p n ∧ s.dev.memUp q n) ∧
    (∃ (s : State) (t : Fin 65536) (k : Nat) (r : Run) (x : Dec) (a c : Opnd) (u : Nat × Nat), s.dev.executes t.val k
      0x10 r ∧ r.dec t.val = some x ∧ x.ops = [a, c] ∧ u ∈ a.runs (r.sel x) ∧ 0 < u.2 ∧ s.dev.islandOn (placeIsland
      (place u.1)) = false ∧ s.dev.islandStopped (placeIsland (place u.1)) = false) ∧
    (∃ (s : State) (t : Fin 65536) (k p n : Nat) (r : Run) (x : Dec) (a c : Opnd), s.dev.executes t.val k 0x10 r ∧
      r.dec t.val = some x ∧ x.ops = [a, c] ∧ a.runs (r.sel x) = [(p, n)] ∧ 0 < n ∧ (∀ i, i < n → s.dev.islandStopped
      (placeIsland (place (p + i))) = true) ∧ s.dev.runsUp (c.runs (r.sel x))) ∧
    (∃ (s : State) (t : Fin 65536) (k : Nat) (r : Run) (x : Dec) (c : Opnd), s.dev.executes t.val k 0x13 r ∧ r.dec
      t.val = some x ∧ x.ops = [c] ∧ s.dev.runsUp (c.runs (r.sel x))) ∧
    (∃ (s : State) (t : Fin 65536) (k : Nat) (r : Run) (x : Dec) (c : Opnd) (q n : Nat), s.dev.executes t.val k 0x13 r
      ∧ r.dec t.val = some x ∧ x.ops = [c] ∧ r.sel x = [[(0, n)], [(0, 1)], [(0, 1)], [(0, 1)]] ∧ c.runs (r.sel x) =
      [(q, n)] ∧ s.dev.mayStore (r.writer t.val) q n = true ∧ s.dev.memUp q n) ∧
    (∃ (s : State) (t : Fin 65536) (k p q n : Nat) (r : Run) (g : Stream), s.dev.executes t.val k 0x11 r ∧ r.stream =
      some g ∧ g.done < g.pieces.length ∧ p = g.pieces.getD g.done 0 ∧ n = leAt r.cmd.bytes 16 3 ∧ q = leAt
      r.cmd.bytes 8 6 + g.done * n ∧ s.dev.mayStore (r.writer t.val) q n = true ∧ s.dev.memUp p n ∧ s.dev.memUp q n) ∧
    (∃ (s : State) (t : Fin 65536) (k p q n : Nat) (r : Run) (g : Stream), s.dev.executes t.val k 0x12 r ∧ r.stream =
      some g ∧ g.done < g.pieces.length ∧ p = g.pieces.getD g.done 0 ∧ n = leAt r.cmd.bytes 16 3 ∧ q = leAt
      r.cmd.bytes 8 6 + g.done * n ∧ s.dev.mayStore (r.writer t.val) p n = true ∧ s.dev.memUp q n ∧ s.dev.memUp p n) ∧
    (∃ (s : State) (t : Fin 65536) (k : Nat) (r : Run) (g : Stream), s.dev.executes t.val k 0x11 r ∧ r.stream = some g
      ∧ g.done = g.pieces.length ∧ g.ended = true) ∧
    (∃ (s : State) (t : Fin 65536) (k : Nat) (r : Run) (g : Stream), s.dev.executes t.val k 0x12 r ∧ r.stream = some g
      ∧ g.done = g.pieces.length ∧ g.ended = true) ∧
    (∃ (s : State) (t : Fin 65536) (k j q : Nat) (r : Run) (x : Dec), s.dev.executes t.val k 0x14 r ∧ r.dec t.val =
      some x ∧ cbit r.cmd.bytes 4 0 = false ∧ rangesIdx ((r.sel x).getD 0 [(0, 1)]) = [j] ∧ q = leAt r.cmd.bytes 24 6
      + 4 * j ∧ s.dev.mayStore (r.writer t.val) q 4 = true ∧ s.dev.memUp (leAt r.cmd.bytes 8 6 + j * sealPiece
      r.cmd.bytes) (sealPiece r.cmd.bytes) ∧ s.dev.memUp q 4) ∧
    (∃ (s : State) (t : Fin 65536) (k q : Nat) (r : Run) (x : Dec), s.dev.executes t.val k 0x14 r ∧ r.dec t.val = some
      x ∧ cbit r.cmd.bytes 4 0 = true ∧ r.cmd.parent = none ∧ q = leAt r.cmd.bytes 24 6 + 4 * leAt r.cmd.bytes 16 4 ∧
      s.dev.mayStore (r.writer t.val) q 4 = true ∧ (∀ j ∈ rangesIdx ((r.sel x).getD 0 [(0, 1)]), s.dev.memUp (leAt
      r.cmd.bytes 8 6 + j * sealPiece r.cmd.bytes) (sealPiece r.cmd.bytes) ∧ s.dev.memUp (leAt r.cmd.bytes 24 6 + 4 *
      j) 4) ∧ s.dev.memUp q 4 ∧ (∀ j ∈ rangesIdx ((r.sel x).getD 0 [(0, 1)]), s.dev.pieceSeal r.cmd.bytes j = ofLE
      (s.dev.read (leAt r.cmd.bytes 24 6 + 4 * j) 4))) ∧
    (∃ (s : State) (t : Fin 65536) (k q j : Nat) (r : Run) (x : Dec), s.dev.executes t.val k 0x14 r ∧ r.dec t.val =
      some x ∧ cbit r.cmd.bytes 4 0 = true ∧ r.cmd.parent = none ∧ q = leAt r.cmd.bytes 24 6 + 4 * leAt r.cmd.bytes 16
      4 ∧ s.dev.mayStore (r.writer t.val) q 4 = true ∧ (∀ i ∈ rangesIdx ((r.sel x).getD 0 [(0, 1)]), s.dev.memUp (leAt
      r.cmd.bytes 8 6 + i * sealPiece r.cmd.bytes) (sealPiece r.cmd.bytes) ∧ s.dev.memUp (leAt r.cmd.bytes 24 6 + 4 *
      i) 4) ∧ s.dev.memUp q 4 ∧ j ∈ rangesIdx ((r.sel x).getD 0 [(0, 1)]) ∧ s.dev.pieceSeal r.cmd.bytes j ≠ ofLE
      (s.dev.read (leAt r.cmd.bytes 24 6 + 4 * j) 4) ∧ (∀ i ∈ rangesIdx ((r.sel x).getD 0 [(0, 1)]), i < j →
      s.dev.pieceSeal r.cmd.bytes i = ofLE (s.dev.read (leAt r.cmd.bytes 24 6 + 4 * i) 4))) :=
  ⟨⟨st (running (owned) 0x434B (run (cmd [(0, 1, 0x10), (6, 2, 1), (8, 6, 0x10003BC00000), (14, 6, 0x10003BC00100),
      (20, 4, 16)]))), 0x434B, 3, run (cmd [(0, 1, 0x10), (6, 2, 1), (8, 6, 0x10003BC00000), (14, 6, 0x10003BC00100),
      (20, 4, 16)]), decOf 0x434B (run (cmd [(0, 1, 0x10), (6, 2, 1), (8, 6, 0x10003BC00000), (14, 6, 0x10003BC00100),
      (20, 4, 16)])), opAt 0x434B (run (cmd [(0, 1, 0x10), (6, 2, 1), (8, 6, 0x10003BC00000), (14, 6, 0x10003BC00100),
      (20, 4, 16)])) 0, opAt 0x434B (run (cmd [(0, 1, 0x10), (6, 2, 1), (8, 6, 0x10003BC00000), (14, 6,
      0x10003BC00100), (20, 4, 16)])) 1, by decide +kernel⟩,
    ⟨st (running (owned) 0x434B (run (cmd [(0, 1, 0x10), (6, 2, 1), (8, 6, 0x10003BC00000), (14, 6, 0x10003BC00100),
      (20, 4, 16)]))), 0x434B, 3, run (cmd [(0, 1, 0x10), (6, 2, 1), (8, 6, 0x10003BC00000), (14, 6, 0x10003BC00100),
      (20, 4, 16)]), decOf 0x434B (run (cmd [(0, 1, 0x10), (6, 2, 1), (8, 6, 0x10003BC00000), (14, 6, 0x10003BC00100),
      (20, 4, 16)])), opAt 0x434B (run (cmd [(0, 1, 0x10), (6, 2, 1), (8, 6, 0x10003BC00000), (14, 6, 0x10003BC00100),
      (20, 4, 16)])) 0, opAt 0x434B (run (cmd [(0, 1, 0x10), (6, 2, 1), (8, 6, 0x10003BC00000), (14, 6,
      0x10003BC00100), (20, 4, 16)])) 1, 0x10003BC00000, 0x10003BC00100, 16, by decide +kernel⟩,
    ⟨st (running (owned.holdIsland 1318) 0x434B (run (cmd [(0, 1, 0x10), (6, 2, 1), (8, 6, 0x100030000000), (14, 6,
      0x10003BC00100), (20, 4, 16)]))), 0x434B, 3, (run (cmd [(0, 1, 0x10), (6, 2, 1), (8, 6, 0x100030000000), (14, 6,
      0x10003BC00100), (20, 4, 16)])), decOf 0x434B (run (cmd [(0, 1, 0x10), (6, 2, 1), (8, 6, 0x100030000000), (14,
      6, 0x10003BC00100), (20, 4, 16)])), opAt 0x434B (run (cmd [(0, 1, 0x10), (6, 2, 1), (8, 6, 0x100030000000), (14,
      6, 0x10003BC00100), (20, 4, 16)])) 0, opAt 0x434B (run (cmd [(0, 1, 0x10), (6, 2, 1), (8, 6, 0x100030000000),
      (14, 6, 0x10003BC00100), (20, 4, 16)])) 1, (0x100030000000, 16), by decide +kernel⟩,
    ⟨st (running (owned.stopIsland 1318) 0x434B (run (cmd [(0, 1, 0x10), (6, 2, 1), (8, 6, 0x100030000000), (14, 6,
      0x10003BC00100), (20, 4, 16)]))), 0x434B, 3, 0x100030000000, 16, (run (cmd [(0, 1, 0x10), (6, 2, 1), (8, 6,
      0x100030000000), (14, 6, 0x10003BC00100), (20, 4, 16)])), decOf 0x434B (run (cmd [(0, 1, 0x10), (6, 2, 1), (8,
      6, 0x100030000000), (14, 6, 0x10003BC00100), (20, 4, 16)])), opAt 0x434B (run (cmd [(0, 1, 0x10), (6, 2, 1), (8,
      6, 0x100030000000), (14, 6, 0x10003BC00100), (20, 4, 16)])) 0, opAt 0x434B (run (cmd [(0, 1, 0x10), (6, 2, 1),
      (8, 6, 0x100030000000), (14, 6, 0x10003BC00100), (20, 4, 16)])) 1, by decide +kernel⟩,
    ⟨st (running (owned) 0x434B (run (cmd [(0, 1, 0x13), (6, 2, 1), (8, 6, 0x10003BC00100), (16, 4, 16), (24, 4,
      0x04030201)]))), 0x434B, 3, run (cmd [(0, 1, 0x13), (6, 2, 1), (8, 6, 0x10003BC00100), (16, 4, 16), (24, 4,
      0x04030201)]), decOf 0x434B (run (cmd [(0, 1, 0x13), (6, 2, 1), (8, 6, 0x10003BC00100), (16, 4, 16), (24, 4,
      0x04030201)])), opAt 0x434B (run (cmd [(0, 1, 0x13), (6, 2, 1), (8, 6, 0x10003BC00100), (16, 4, 16), (24, 4,
      0x04030201)])) 0, by decide +kernel⟩,
    ⟨st (running (owned) 0x434B (run (cmd [(0, 1, 0x13), (6, 2, 1), (8, 6, 0x10003BC00100), (16, 4, 16), (24, 4,
      0x04030201)]))), 0x434B, 3, run (cmd [(0, 1, 0x13), (6, 2, 1), (8, 6, 0x10003BC00100), (16, 4, 16), (24, 4,
      0x04030201)]), decOf 0x434B (run (cmd [(0, 1, 0x13), (6, 2, 1), (8, 6, 0x10003BC00100), (16, 4, 16), (24, 4,
      0x04030201)])), opAt 0x434B (run (cmd [(0, 1, 0x13), (6, 2, 1), (8, 6, 0x10003BC00100), (16, 4, 16), (24, 4,
      0x04030201)])) 0, 0x10003BC00100, 16, by decide +kernel⟩,
    ⟨st (running (owned) 0x434B (streaming (cmd [(0, 1, 0x11), (5, 1, 8), (8, 6, 0x10003BC00000), (16, 3, 16), (20, 6,
      0x10003BC00200), (28, 4, 8)]) [0x10003BC00210] 0 false)), 0x434B, 3, 0x10003BC00210, 0x10003BC00000, 16,
      streaming (cmd [(0, 1, 0x11), (5, 1, 8), (8, 6, 0x10003BC00000), (16, 3, 16), (20, 6, 0x10003BC00200), (28, 4,
      8)]) [0x10003BC00210] 0 false, (Run.stream (streaming (cmd [(0, 1, 0x11), (5, 1, 8), (8, 6, 0x10003BC00000),
      (16, 3, 16), (20, 6, 0x10003BC00200), (28, 4, 8)]) [0x10003BC00210] 0 false)).getD ⟨0, 0, 0, [], [], 0, false⟩,
      by decide +kernel⟩,
    ⟨st (running (owned) 0x434B (streaming (cmd [(0, 1, 0x12), (5, 1, 8), (8, 6, 0x10003BC00000), (16, 3, 16), (20, 6,
      0x10003BC00200), (28, 4, 8)]) [0x10003BC00210] 0 false)), 0x434B, 3, 0x10003BC00210, 0x10003BC00000, 16,
      streaming (cmd [(0, 1, 0x12), (5, 1, 8), (8, 6, 0x10003BC00000), (16, 3, 16), (20, 6, 0x10003BC00200), (28, 4,
      8)]) [0x10003BC00210] 0 false, (Run.stream (streaming (cmd [(0, 1, 0x12), (5, 1, 8), (8, 6, 0x10003BC00000),
      (16, 3, 16), (20, 6, 0x10003BC00200), (28, 4, 8)]) [0x10003BC00210] 0 false)).getD ⟨0, 0, 0, [], [], 0, false⟩,
      by decide +kernel⟩,
    ⟨st (running (owned) 0x434B (streaming (cmd [(0, 1, 0x11), (5, 1, 8), (8, 6, 0x10003BC00000), (16, 3, 16), (20, 6,
      0x10003BC00200), (28, 4, 8)]) [0x10003BC00210] 1 true)), 0x434B, 3, streaming (cmd [(0, 1, 0x11), (5, 1, 8), (8,
      6, 0x10003BC00000), (16, 3, 16), (20, 6, 0x10003BC00200), (28, 4, 8)]) [0x10003BC00210] 1 true, (Run.stream
      (streaming (cmd [(0, 1, 0x11), (5, 1, 8), (8, 6, 0x10003BC00000), (16, 3, 16), (20, 6, 0x10003BC00200), (28, 4,
      8)]) [0x10003BC00210] 1 true)).getD ⟨0, 0, 0, [], [], 0, false⟩, by decide +kernel⟩,
    ⟨st (running (owned) 0x434B (streaming (cmd [(0, 1, 0x12), (5, 1, 8), (8, 6, 0x10003BC00000), (16, 3, 16), (20, 6,
      0x10003BC00200), (28, 4, 8)]) [0x10003BC00210] 1 true)), 0x434B, 3, streaming (cmd [(0, 1, 0x12), (5, 1, 8), (8,
      6, 0x10003BC00000), (16, 3, 16), (20, 6, 0x10003BC00200), (28, 4, 8)]) [0x10003BC00210] 1 true, (Run.stream
      (streaming (cmd [(0, 1, 0x12), (5, 1, 8), (8, 6, 0x10003BC00000), (16, 3, 16), (20, 6, 0x10003BC00200), (28, 4,
      8)]) [0x10003BC00210] 1 true)).getD ⟨0, 0, 0, [], [], 0, false⟩, by decide +kernel⟩,
    ⟨st (running (owned) 0x434B (run (cmd [(0, 1, 0x14), (8, 6, 0x10003BC01000), (16, 4, 1), (24, 6,
      0x10003BC00000)]))), 0x434B, 3, 0, 0x10003BC00000, run (cmd [(0, 1, 0x14), (8, 6, 0x10003BC01000), (16, 4, 1),
      (24, 6, 0x10003BC00000)]), decOf 0x434B (run (cmd [(0, 1, 0x14), (8, 6, 0x10003BC01000), (16, 4, 1), (24, 6,
      0x10003BC00000)])), by decide +kernel⟩,
    ⟨st (running (Dev.write owned 0x10003BC00000 (leBytes 4 2333143305)) 0x434B (run sealCmd)), 0x434B, 3,
      0x10003BC00004, run sealCmd, decOf 0x434B (run sealCmd), by decide +kernel, by decide +kernel,
      by decide +kernel, by decide +kernel, by decide +kernel, by decide +kernel, one_piece (by decide +kernel)
      ⟨memUp_of (m := 1024) (j := 1382) rfl (by decide +kernel) (by decide +kernel), memUp_of (m := 4) (j := 1382) rfl
      (by decide +kernel) (by decide +kernel)⟩, memUp_of (m := 4) (j := 1382) rfl (by decide +kernel)
      (by decide +kernel), one_piece (by decide +kernel) ((pieceSeal_zeros _ (by decide +kernel)).trans
      (by decide +kernel))⟩,
    ⟨st (running (owned) 0x434B (run sealCmd)), 0x434B, 3, 0x10003BC00004, 0, run sealCmd, decOf 0x434B (run sealCmd),
      by decide +kernel, by decide +kernel, by decide +kernel, by decide +kernel, by decide +kernel,
      by decide +kernel, one_piece (by decide +kernel) ⟨memUp_of (m := 1024) (j := 1382) rfl (by decide +kernel)
      (by decide +kernel), memUp_of (m := 4) (j := 1382) rfl (by decide +kernel) (by decide +kernel)⟩, memUp_of (m :=
      4) (j := 1382) rfl (by decide +kernel) (by decide +kernel), by decide +kernel, fun h => absurd ((pieceSeal_zeros
      _ (by decide +kernel)).symm.trans h) (by decide +kernel), by decide +kernel⟩⟩

theorem witness_MatrixCommands :
    (∃ (s : State) (t : Fin 65536) (k : Nat) (r : Run) (x : Dec) (a b c : Opnd), s.dev.executes t.val k 0x20 r ∧ r.dec
      t.val = some x ∧ x.ops = [a, b, c] ∧ s.dev.runsUp (a.runs [[(0, leAt r.cmd.bytes 30 2)], (r.sel x).getD 1 [(0,
      1)]] ++ b.runs [[(0, leAt r.cmd.bytes 30 2)], (r.sel x).getD 0 [(0, 1)]] ++ c.runs (r.sel x))) ∧
    (∃ (s : State) (t : Fin 65536) (k m n q : Nat) (r : Run) (x : Dec) (a b c : Opnd), s.dev.executes t.val k 0x20 r ∧
      r.dec t.val = some x ∧ x.ops = [a, b, c] ∧ rangesIdx ((r.sel x).getD 1 [(0, 1)]) = [m] ∧ rangesIdx ((r.sel
      x).getD 0 [(0, 1)]) = [n] ∧ c.runs (r.sel x) = [(q, c.bitsOf / 8)] ∧ s.dev.mayStore (r.writer t.val) q (c.bitsOf
      / 8) = true ∧ s.dev.runsUp (a.runs [[(0, leAt r.cmd.bytes 30 2)], (r.sel x).getD 1 [(0, 1)]] ++ b.runs [[(0,
      leAt r.cmd.bytes 30 2)], (r.sel x).getD 0 [(0, 1)]] ++ c.runs (r.sel x))) ∧
    (∃ (s : State) (t : Fin 65536) (k acc : Nat) (r : Run) (x : Dec) (g : Stream) (b c : Opnd), s.dev.executes t.val k
      0x21 r ∧ r.dec t.val = some x ∧ x.ops = [b, c] ∧ r.stream = some g ∧ g.done < g.pieces.length ∧ leAt r.cmd.bytes
      28 2 = 1 ∧ leAt r.cmd.bytes 30 2 = 1 ∧ r.acc = [acc] ∧ s.dev.runsUp ((gmmaPiece t.val r.cmd.bytes (g.pieces.getD
      g.done 0)).runs [[(0, 32 * cb r.cmd.bytes 7)], [(0, leAt r.cmd.bytes 28 2)]] ++ b.runs [[(g.done * (32 * cb
      r.cmd.bytes 7), 32 * cb r.cmd.bytes 7)], [(0, leAt r.cmd.bytes 30 2)]])) ∧
    (∃ (s : State) (t : Fin 65536) (k : Nat) (r : Run) (x : Dec) (g : Stream) (b c : Opnd), s.dev.executes t.val k
      0x21 r ∧ r.dec t.val = some x ∧ x.ops = [b, c] ∧ r.stream = some g ∧ g.done < g.pieces.length ∧ s.dev.runsUp
      ((gmmaPiece t.val r.cmd.bytes (g.pieces.getD g.done 0)).runs [[(0, 32 * cb r.cmd.bytes 7)], [(0, leAt
      r.cmd.bytes 28 2)]] ++ b.runs [[(g.done * (32 * cb r.cmd.bytes 7), 32 * cb r.cmd.bytes 7)], [(0, leAt
      r.cmd.bytes 30 2)]])) ∧
    (∃ (s : State) (t : Fin 65536) (k acc q : Nat) (r : Run) (x : Dec) (g : Stream) (b c : Opnd), s.dev.executes t.val
      k 0x21 r ∧ r.dec t.val = some x ∧ x.ops = [b, c] ∧ r.stream = some g ∧ g.done = g.pieces.length ∧ g.ended = true
      ∧ r.seqErr = false ∧ r.acc = [acc] ∧ c.runs [[(0, leAt r.cmd.bytes 30 2)], [(0, leAt r.cmd.bytes 28 2)], [(0,
      1)], [(0, 1)]] = [(q, c.bitsOf / 8)] ∧ s.dev.mayStore (r.writer t.val) q (c.bitsOf / 8) = true ∧ s.dev.memUp q
      (c.bitsOf / 8)) ∧
    (∃ (s : State) (t : Fin 65536) (k : Nat) (r : Run) (x : Dec) (g : Stream) (b c : Opnd), s.dev.executes t.val k
      0x21 r ∧ r.dec t.val = some x ∧ x.ops = [b, c] ∧ r.stream = some g ∧ g.done = g.pieces.length ∧ g.ended = true ∧
      r.seqErr = true) :=
  ⟨⟨st (running (owned) 0x433F (run (cmd [(0, 1, 0x20), (5, 1, 0x22), (8, 6, 0x10003BC00000), (14, 6,
      0x10003BC00400), (20, 6, 0x10003BC00800), (26, 2, 1), (28, 2, 1), (30, 2, 1)]))), 0x433F, 3, run (cmd [(0, 1,
      0x20), (5, 1, 0x22), (8, 6, 0x10003BC00000), (14, 6, 0x10003BC00400), (20, 6, 0x10003BC00800), (26, 2, 1), (28,
      2, 1), (30, 2, 1)]), decOf 0x433F (run (cmd [(0, 1, 0x20), (5, 1, 0x22), (8, 6, 0x10003BC00000), (14, 6,
      0x10003BC00400), (20, 6, 0x10003BC00800), (26, 2, 1), (28, 2, 1), (30, 2, 1)])), opAt 0x433F (run (cmd [(0, 1,
      0x20), (5, 1, 0x22), (8, 6, 0x10003BC00000), (14, 6, 0x10003BC00400), (20, 6, 0x10003BC00800), (26, 2, 1), (28,
      2, 1), (30, 2, 1)])) 0, opAt 0x433F (run (cmd [(0, 1, 0x20), (5, 1, 0x22), (8, 6, 0x10003BC00000), (14, 6,
      0x10003BC00400), (20, 6, 0x10003BC00800), (26, 2, 1), (28, 2, 1), (30, 2, 1)])) 1, opAt 0x433F (run (cmd [(0, 1,
      0x20), (5, 1, 0x22), (8, 6, 0x10003BC00000), (14, 6, 0x10003BC00400), (20, 6, 0x10003BC00800), (26, 2, 1), (28,
      2, 1), (30, 2, 1)])) 2, by decide +kernel⟩,
    ⟨st (running (owned) 0x433F (run (cmd [(0, 1, 0x20), (5, 1, 0x22), (8, 6, 0x10003BC00000), (14, 6,
      0x10003BC00400), (20, 6, 0x10003BC00800), (26, 2, 1), (28, 2, 1), (30, 2, 1)]))), 0x433F, 3, 0, 0,
      0x10003BC00800, run (cmd [(0, 1, 0x20), (5, 1, 0x22), (8, 6, 0x10003BC00000), (14, 6, 0x10003BC00400), (20, 6,
      0x10003BC00800), (26, 2, 1), (28, 2, 1), (30, 2, 1)]), decOf 0x433F (run (cmd [(0, 1, 0x20), (5, 1, 0x22), (8,
      6, 0x10003BC00000), (14, 6, 0x10003BC00400), (20, 6, 0x10003BC00800), (26, 2, 1), (28, 2, 1), (30, 2, 1)])),
      opAt 0x433F (run (cmd [(0, 1, 0x20), (5, 1, 0x22), (8, 6, 0x10003BC00000), (14, 6, 0x10003BC00400), (20, 6,
      0x10003BC00800), (26, 2, 1), (28, 2, 1), (30, 2, 1)])) 0, opAt 0x433F (run (cmd [(0, 1, 0x20), (5, 1, 0x22), (8,
      6, 0x10003BC00000), (14, 6, 0x10003BC00400), (20, 6, 0x10003BC00800), (26, 2, 1), (28, 2, 1), (30, 2, 1)])) 1,
      opAt 0x433F (run (cmd [(0, 1, 0x20), (5, 1, 0x22), (8, 6, 0x10003BC00000), (14, 6, 0x10003BC00400), (20, 6,
      0x10003BC00800), (26, 2, 1), (28, 2, 1), (30, 2, 1)])) 2, by decide +kernel⟩,
    ⟨st (running (owned) 0x433F
      ({ streaming (cmd [(0, 1, 0x21), (5, 1, 0x22), (7, 1, 1), (8, 6, 0x10003BC00000), (14, 6, 0x10003BC00800), (20, 6, 0x10003BC01000), (26, 1, 8), (27, 1, 1), (28, 2, 1), (30, 2, 1)]) [0x10003BC01000] 0 false with acc := [0] })),
      0x433F, 3, 0,
      { streaming (cmd [(0, 1, 0x21), (5, 1, 0x22), (7, 1, 1), (8, 6, 0x10003BC00000), (14, 6, 0x10003BC00800), (20, 6, 0x10003BC01000), (26, 1, 8), (27, 1, 1), (28, 2, 1), (30, 2, 1)]) [0x10003BC01000] 0 false with acc := [0] },
      decOf 0x433F
      ({ streaming (cmd [(0, 1, 0x21), (5, 1, 0x22), (7, 1, 1), (8, 6, 0x10003BC00000), (14, 6, 0x10003BC00800), (20, 6, 0x10003BC01000), (26, 1, 8), (27, 1, 1), (28, 2, 1), (30, 2, 1)]) [0x10003BC01000] 0 false with acc := [0] }),
      (Run.stream
      ({ streaming (cmd [(0, 1, 0x21), (5, 1, 0x22), (7, 1, 1), (8, 6, 0x10003BC00000), (14, 6, 0x10003BC00800), (20, 6, 0x10003BC01000), (26, 1, 8), (27, 1, 1), (28, 2, 1), (30, 2, 1)]) [0x10003BC01000] 0 false with acc := [0] })).getD
      ⟨0, 0, 0, [], [], 0, false⟩, opAt 0x433F
      ({ streaming (cmd [(0, 1, 0x21), (5, 1, 0x22), (7, 1, 1), (8, 6, 0x10003BC00000), (14, 6, 0x10003BC00800), (20, 6, 0x10003BC01000), (26, 1, 8), (27, 1, 1), (28, 2, 1), (30, 2, 1)]) [0x10003BC01000] 0 false with acc := [0] })
      0, opAt 0x433F
      ({ streaming (cmd [(0, 1, 0x21), (5, 1, 0x22), (7, 1, 1), (8, 6, 0x10003BC00000), (14, 6, 0x10003BC00800), (20, 6, 0x10003BC01000), (26, 1, 8), (27, 1, 1), (28, 2, 1), (30, 2, 1)]) [0x10003BC01000] 0 false with acc := [0] })
      1, by decide +kernel⟩,
    ⟨st (running (owned) 0x433F
      ({ streaming (cmd [(0, 1, 0x21), (5, 1, 0x22), (7, 1, 1), (8, 6, 0x10003BC00000), (14, 6, 0x10003BC00800), (20, 6, 0x10003BC01000), (26, 1, 8), (27, 1, 1), (28, 2, 1), (30, 2, 1)]) [0x10003BC01000] 0 false with acc := [0] })),
      0x433F, 3,
      { streaming (cmd [(0, 1, 0x21), (5, 1, 0x22), (7, 1, 1), (8, 6, 0x10003BC00000), (14, 6, 0x10003BC00800), (20, 6, 0x10003BC01000), (26, 1, 8), (27, 1, 1), (28, 2, 1), (30, 2, 1)]) [0x10003BC01000] 0 false with acc := [0] },
      decOf 0x433F
      ({ streaming (cmd [(0, 1, 0x21), (5, 1, 0x22), (7, 1, 1), (8, 6, 0x10003BC00000), (14, 6, 0x10003BC00800), (20, 6, 0x10003BC01000), (26, 1, 8), (27, 1, 1), (28, 2, 1), (30, 2, 1)]) [0x10003BC01000] 0 false with acc := [0] }),
      (Run.stream
      ({ streaming (cmd [(0, 1, 0x21), (5, 1, 0x22), (7, 1, 1), (8, 6, 0x10003BC00000), (14, 6, 0x10003BC00800), (20, 6, 0x10003BC01000), (26, 1, 8), (27, 1, 1), (28, 2, 1), (30, 2, 1)]) [0x10003BC01000] 0 false with acc := [0] })).getD
      ⟨0, 0, 0, [], [], 0, false⟩, opAt 0x433F
      ({ streaming (cmd [(0, 1, 0x21), (5, 1, 0x22), (7, 1, 1), (8, 6, 0x10003BC00000), (14, 6, 0x10003BC00800), (20, 6, 0x10003BC01000), (26, 1, 8), (27, 1, 1), (28, 2, 1), (30, 2, 1)]) [0x10003BC01000] 0 false with acc := [0] })
      0, opAt 0x433F
      ({ streaming (cmd [(0, 1, 0x21), (5, 1, 0x22), (7, 1, 1), (8, 6, 0x10003BC00000), (14, 6, 0x10003BC00800), (20, 6, 0x10003BC01000), (26, 1, 8), (27, 1, 1), (28, 2, 1), (30, 2, 1)]) [0x10003BC01000] 0 false with acc := [0] })
      1, by decide +kernel⟩,
    ⟨st (running (owned) 0x433F
      ({ streaming (cmd [(0, 1, 0x21), (5, 1, 0x22), (7, 1, 1), (8, 6, 0x10003BC00000), (14, 6, 0x10003BC00800), (20, 6, 0x10003BC01000), (26, 1, 8), (27, 1, 1), (28, 2, 1), (30, 2, 1)]) [0x10003BC01000] 1 true with acc := [0] })),
      0x433F, 3, 0, 0x10003BC00800,
      { streaming (cmd [(0, 1, 0x21), (5, 1, 0x22), (7, 1, 1), (8, 6, 0x10003BC00000), (14, 6, 0x10003BC00800), (20, 6, 0x10003BC01000), (26, 1, 8), (27, 1, 1), (28, 2, 1), (30, 2, 1)]) [0x10003BC01000] 1 true with acc := [0] },
      decOf 0x433F
      ({ streaming (cmd [(0, 1, 0x21), (5, 1, 0x22), (7, 1, 1), (8, 6, 0x10003BC00000), (14, 6, 0x10003BC00800), (20, 6, 0x10003BC01000), (26, 1, 8), (27, 1, 1), (28, 2, 1), (30, 2, 1)]) [0x10003BC01000] 1 true with acc := [0] }),
      (Run.stream
      ({ streaming (cmd [(0, 1, 0x21), (5, 1, 0x22), (7, 1, 1), (8, 6, 0x10003BC00000), (14, 6, 0x10003BC00800), (20, 6, 0x10003BC01000), (26, 1, 8), (27, 1, 1), (28, 2, 1), (30, 2, 1)]) [0x10003BC01000] 1 true with acc := [0] })).getD
      ⟨0, 0, 0, [], [], 0, false⟩, opAt 0x433F
      ({ streaming (cmd [(0, 1, 0x21), (5, 1, 0x22), (7, 1, 1), (8, 6, 0x10003BC00000), (14, 6, 0x10003BC00800), (20, 6, 0x10003BC01000), (26, 1, 8), (27, 1, 1), (28, 2, 1), (30, 2, 1)]) [0x10003BC01000] 1 true with acc := [0] })
      0, opAt 0x433F
      ({ streaming (cmd [(0, 1, 0x21), (5, 1, 0x22), (7, 1, 1), (8, 6, 0x10003BC00000), (14, 6, 0x10003BC00800), (20, 6, 0x10003BC01000), (26, 1, 8), (27, 1, 1), (28, 2, 1), (30, 2, 1)]) [0x10003BC01000] 1 true with acc := [0] })
      1, by decide +kernel⟩,
    ⟨st (running (owned) 0x433F
      ({ streaming (cmd [(0, 1, 0x21), (5, 1, 0x22), (7, 1, 1), (8, 6, 0x10003BC00000), (14, 6, 0x10003BC00800), (20, 6, 0x10003BC01000), (26, 1, 8), (27, 1, 1), (28, 2, 1), (30, 2, 1)]) [0x10003BC01000] 1 true with seqErr := true })),
      0x433F, 3,
      { streaming (cmd [(0, 1, 0x21), (5, 1, 0x22), (7, 1, 1), (8, 6, 0x10003BC00000), (14, 6, 0x10003BC00800), (20, 6, 0x10003BC01000), (26, 1, 8), (27, 1, 1), (28, 2, 1), (30, 2, 1)]) [0x10003BC01000] 1 true with seqErr := true },
      decOf 0x433F
      ({ streaming (cmd [(0, 1, 0x21), (5, 1, 0x22), (7, 1, 1), (8, 6, 0x10003BC00000), (14, 6, 0x10003BC00800), (20, 6, 0x10003BC01000), (26, 1, 8), (27, 1, 1), (28, 2, 1), (30, 2, 1)]) [0x10003BC01000] 1 true with seqErr := true }),
      (Run.stream
      ({ streaming (cmd [(0, 1, 0x21), (5, 1, 0x22), (7, 1, 1), (8, 6, 0x10003BC00000), (14, 6, 0x10003BC00800), (20, 6, 0x10003BC01000), (26, 1, 8), (27, 1, 1), (28, 2, 1), (30, 2, 1)]) [0x10003BC01000] 1 true with seqErr := true })).getD
      ⟨0, 0, 0, [], [], 0, false⟩, opAt 0x433F
      ({ streaming (cmd [(0, 1, 0x21), (5, 1, 0x22), (7, 1, 1), (8, 6, 0x10003BC00000), (14, 6, 0x10003BC00800), (20, 6, 0x10003BC01000), (26, 1, 8), (27, 1, 1), (28, 2, 1), (30, 2, 1)]) [0x10003BC01000] 1 true with seqErr := true })
      0, opAt 0x433F
      ({ streaming (cmd [(0, 1, 0x21), (5, 1, 0x22), (7, 1, 1), (8, 6, 0x10003BC00000), (14, 6, 0x10003BC00800), (20, 6, 0x10003BC01000), (26, 1, 8), (27, 1, 1), (28, 2, 1), (30, 2, 1)]) [0x10003BC01000] 1 true with seqErr := true })
      1, by decide +kernel⟩⟩

theorem witness_VectorCommands :
    (∃ (t : Nat), isGroup t = true) ∧
    (∃ (t l : Nat) (f : Field), isGroup t = true ∧ l ∈ leavesOf t ∧ f ∈ fieldsOf .TCK_ARITH) ∧
    (∃ (s : State) (t : Fin 65536) (k : Nat) (r : Run) (x : Dec) (a b c : Opnd), s.dev.executes t.val k 0x30 r ∧ r.dec
      t.val = some x ∧ x.ops = [a, b, c] ∧ s.dev.runsUp (a.runs (r.sel x) ++ (if vopUnary (cb r.cmd.bytes 4) || cbit
      r.cmd.bytes 6 7 then [] else b.runs (r.sel x)) ++ c.runs (r.sel x))) ∧
    (∃ (s : State) (t : Fin 65536) (k q : Nat) (r : Run) (x : Dec) (a b c : Opnd) (w : Nat × Nat × Nat × (Nat × Nat))
      (out : List Byte), s.dev.executes t.val k 0x30 r ∧ r.dec t.val = some x ∧ x.ops = [a, b, c] ∧ selRows (r.sel x)
      = [w] ∧ c.runs (r.sel x) = [(q, out.length)] ∧ s.dev.mayStore (r.writer t.val) q out.length = true ∧ out =
      (rowOut c.fmt (satBit r.cmd.bytes) (ftzBit r.cmd.bytes) ((rowIdx w).map (fun i => vopVal (cb r.cmd.bytes 4)
      (s.dev.rd a r.cmd.bytes i).1 (if vopUnary (cb r.cmd.bytes 4) then Val.zero else if cbit r.cmd.bytes 6 7 then
      (readElem (ftzBit r.cmd.bytes) (if vopInt (cb r.cmd.bytes 4) then 11 else 0) (leAt r.cmd.bytes 14 4)).1 else
      (s.dev.rd b r.cmd.bytes i).1) (if cb r.cmd.bytes 4 = 4 then (s.dev.rd c r.cmd.bytes i).1 else Val.zero)))).1 ∧
      s.dev.runsUp (a.runs (r.sel x) ++ (if vopUnary (cb r.cmd.bytes 4) || cbit r.cmd.bytes 6 7 then [] else b.runs
      (r.sel x)) ++ c.runs (r.sel x))) ∧
    (∃ (s : State) (t : Fin 65536) (k : Nat) (r : Run) (x : Dec) (a c : Opnd), s.dev.executes t.val k 0x31 r ∧ r.dec
      t.val = some x ∧ x.ops = [a, c] ∧ s.dev.runsUp (a.runs (r.sel x) ++ c.runs (r.sel x))) ∧
    (∃ (s : State) (t : Fin 65536) (k q : Nat) (r : Run) (x : Dec) (a c : Opnd) (w : Nat × Nat × Nat × (Nat × Nat))
      (out : List Byte), s.dev.executes t.val k 0x31 r ∧ r.dec t.val = some x ∧ x.ops = [a, c] ∧ selRows (r.sel x) =
      [w] ∧ c.runs (r.sel x) = [(q, out.length)] ∧ s.dev.mayStore (r.writer t.val) q out.length = true ∧ out = (rowOut
      c.fmt (satBit r.cmd.bytes) (ftzBit r.cmd.bytes) ((rowIdx w).map (fun i => (s.dev.rd a r.cmd.bytes i).1))).1 ∧
      s.dev.runsUp (a.runs (r.sel x) ++ c.runs (r.sel x))) ∧
    (∃ (s : State) (t : Fin 65536) (k : Nat) (r : Run) (x : Dec) (a c : Opnd), s.dev.executes t.val k 0x32 r ∧ r.dec
      t.val = some x ∧ x.ops = [a, c] ∧ s.dev.runsUp (a.runs (redSel (cbits r.cmd.bytes 4 4 2) (a.n (cbits r.cmd.bytes
      4 4 2)) (r.sel x)) ++ c.runs (r.sel x))) ∧
    (∃ (s : State) (t : Fin 65536) (k q : Nat) (r : Run) (x : Dec) (a c : Opnd) (w : Nat × Nat × Nat × (Nat × Nat))
      (out : List Byte), s.dev.executes t.val k 0x32 r ∧ r.dec t.val = some x ∧ x.ops = [a, c] ∧ selRows (r.sel x) =
      [w] ∧ c.runs (r.sel x) = [(q, out.length)] ∧ s.dev.mayStore (r.writer t.val) q out.length = true ∧ out = (rowOut
      c.fmt (satBit r.cmd.bytes) (ftzBit r.cmd.bytes) ((rowIdx w).map (fun i => redVal (cbits r.cmd.bytes 4 0 4)
      ((List.range (a.n (cbits r.cmd.bytes 4 4 2))).map (fun j => (s.dev.rd a r.cmd.bytes (redIdx (cbits r.cmd.bytes 4
      4 2) i j)).1))))).1 ∧ s.dev.runsUp (a.runs (redSel (cbits r.cmd.bytes 4 4 2) (a.n (cbits r.cmd.bytes 4 4 2))
      (r.sel x)) ++ c.runs (r.sel x))) ∧
    (∃ (s : State) (t : Fin 65536) (k : Nat) (r : Run) (x : Dec) (g p m1 m2 : Opnd) (ub : List Byte), s.dev.executes
      t.val k 0x33 r ∧ r.dec t.val = some x ∧ x.ops = [g, p, m1, m2] ∧ ubOf r.cmd.descs = some ub ∧ s.dev.runsUp
      (g.runs (r.sel x) ++ p.runs (r.sel x) ++ m1.runs (r.sel x) ++ (if cbits r.cmd.bytes 4 0 2 = 0 then m2.runs
      (r.sel x) else []))) ∧
    (∃ (s : State) (t : Fin 65536) (k qp q1 q2 : Nat) (r : Run) (x : Dec) (g p m1 m2 : Opnd) (ub : List Byte) (i :
      List Nat) (u : Val × Val × Val × Arith), s.dev.executes t.val k 0x33 r ∧ r.dec t.val = some x ∧ x.ops = [g, p,
      m1, m2] ∧ ubOf r.cmd.descs = some ub ∧ cbits r.cmd.bytes 4 0 2 = 0 ∧ selIdx (r.sel x) = [i] ∧ p.runs (r.sel x) =
      [(qp, 4)] ∧ m1.runs (r.sel x) = [(q1, 4)] ∧ m2.runs (r.sel x) = [(q2, 4)] ∧ (qp + 4 ≤ q1 ∧ q1 + 4 ≤ q2) ∧
      s.dev.mayStore (r.writer t.val) qp 4 = true ∧ s.dev.mayStore (r.writer t.val) q1 4 = true ∧ s.dev.mayStore
      (r.writer t.val) q2 4 = true ∧ u = updateElem 0 (satBit r.cmd.bytes) (ftzBit r.cmd.bytes) ub (s.dev.rd g
      r.cmd.bytes i).1 (s.dev.rd p r.cmd.bytes i).1 (s.dev.rd m1 r.cmd.bytes i).1 (s.dev.rd m2 r.cmd.bytes i).1
      ((((s.dev.rd g r.cmd.bytes i).2.add (s.dev.rd p r.cmd.bytes i).2).add (s.dev.rd m1 r.cmd.bytes i).2).add
      (s.dev.rd m2 r.cmd.bytes i).2) ∧ s.dev.runsUp (g.runs (r.sel x) ++ p.runs (r.sel x) ++ m1.runs (r.sel x) ++ (if
      cbits r.cmd.bytes 4 0 2 = 0 then m2.runs (r.sel x) else []))) ∧
    (∃ (s : State) (t : Fin 65536) (k q D : Nat) (r : Run) (x : Dec) (a kv : Opnd) (z : Nat × Nat × List Nat × Arith)
      (out : List Byte), s.dev.executes t.val k 0x34 r ∧ r.dec t.val = some x ∧ x.ops = [a, kv] ∧ (∀ o ∈ (s.dev.tck
      t.val).runs, opcode o.cmd.bytes = 0x34 → o.status = none → r.cmd.uid ≤ o.cmd.uid) ∧ q = leAt r.cmd.bytes 20 6 ∧
      D = leAt r.cmd.bytes 26 2 ∧ z = attnTriple (cbits r.cmd.bytes 5 0 4) (satBit r.cmd.bytes) (ftzBit r.cmd.bytes)
      (bf16.decode (leAt r.cmd.bytes 6 2)) ((List.range D).map (fun i => (s.dev.rd a r.cmd.bytes [i]).1)) ((List.range
      (leAt r.cmd.bytes 28 4)).map (fun n => (List.range D).map (fun i => (s.dev.rd kv r.cmd.bytes [i, n, 0]).1)))
      ((List.range (leAt r.cmd.bytes 28 4)).map (fun n => (List.range D).map (fun i => (s.dev.rd kv r.cmd.bytes [i, n,
      1]).1))) ∧ out = leBytes 4 z.1 ++ leBytes 4 z.2.1 ++ z.2.2.1.flatMap (leBytes (fmtBits (cbits r.cmd.bytes 5 0 4)
      / 8)) ∧ s.dev.mayStore (r.writer t.val) q out.length = true ∧ s.dev.runsUp (a.runs [[(0, D)]] ++ kv.runs [[(0,
      D)], [(0, leAt r.cmd.bytes 28 4)], [(0, 2)]] ++ [(q, out.length)])) :=
  ⟨⟨0x43FF, by decide +kernel⟩,
    ⟨0x43FF, 0x4300, F.TCK_ARITH_SAT, by decide +kernel⟩,
    ⟨st (running (owned) 0x4347 (run (cmd [(0, 1, 0x30), (4, 1, 1), (8, 6, 0x10003BC00000), (14, 6, 0x10003BC00400),
      (20, 6, 0x10003BC00800), (26, 4, 1)]))), 0x4347, 3, run (cmd [(0, 1, 0x30), (4, 1, 1), (8, 6, 0x10003BC00000),
      (14, 6, 0x10003BC00400), (20, 6, 0x10003BC00800), (26, 4, 1)]), decOf 0x4347 (run (cmd [(0, 1, 0x30), (4, 1, 1),
      (8, 6, 0x10003BC00000), (14, 6, 0x10003BC00400), (20, 6, 0x10003BC00800), (26, 4, 1)])), opAt 0x4347 (run (cmd
      [(0, 1, 0x30), (4, 1, 1), (8, 6, 0x10003BC00000), (14, 6, 0x10003BC00400), (20, 6, 0x10003BC00800), (26, 4,
      1)])) 0, opAt 0x4347 (run (cmd [(0, 1, 0x30), (4, 1, 1), (8, 6, 0x10003BC00000), (14, 6, 0x10003BC00400), (20,
      6, 0x10003BC00800), (26, 4, 1)])) 1, opAt 0x4347 (run (cmd [(0, 1, 0x30), (4, 1, 1), (8, 6, 0x10003BC00000),
      (14, 6, 0x10003BC00400), (20, 6, 0x10003BC00800), (26, 4, 1)])) 2, by decide +kernel⟩,
    ⟨st (running (owned) 0x4347 (run (cmd [(0, 1, 0x30), (4, 1, 1), (8, 6, 0x10003BC00000), (14, 6, 0x10003BC00400),
      (20, 6, 0x10003BC00800), (26, 4, 1)]))), 0x4347, 3, 0x10003BC00800, run (cmd [(0, 1, 0x30), (4, 1, 1), (8, 6,
      0x10003BC00000), (14, 6, 0x10003BC00400), (20, 6, 0x10003BC00800), (26, 4, 1)]), decOf 0x4347 (run (cmd [(0, 1,
      0x30), (4, 1, 1), (8, 6, 0x10003BC00000), (14, 6, 0x10003BC00400), (20, 6, 0x10003BC00800), (26, 4, 1)])), opAt
      0x4347 (run (cmd [(0, 1, 0x30), (4, 1, 1), (8, 6, 0x10003BC00000), (14, 6, 0x10003BC00400), (20, 6,
      0x10003BC00800), (26, 4, 1)])) 0, opAt 0x4347 (run (cmd [(0, 1, 0x30), (4, 1, 1), (8, 6, 0x10003BC00000), (14,
      6, 0x10003BC00400), (20, 6, 0x10003BC00800), (26, 4, 1)])) 1, opAt 0x4347 (run (cmd [(0, 1, 0x30), (4, 1, 1),
      (8, 6, 0x10003BC00000), (14, 6, 0x10003BC00400), (20, 6, 0x10003BC00800), (26, 4, 1)])) 2, (0, 0, 0, (0, 1)),
      List.replicate 4 0, by decide +kernel⟩,
    ⟨st (running (owned) 0x4347 (run (cmd [(0, 1, 0x31), (8, 6, 0x10003BC00000), (14, 6, 0x10003BC00800), (20, 4,
      1)]))), 0x4347, 3, run (cmd [(0, 1, 0x31), (8, 6, 0x10003BC00000), (14, 6, 0x10003BC00800), (20, 4, 1)]), decOf
      0x4347 (run (cmd [(0, 1, 0x31), (8, 6, 0x10003BC00000), (14, 6, 0x10003BC00800), (20, 4, 1)])), opAt 0x4347 (run
      (cmd [(0, 1, 0x31), (8, 6, 0x10003BC00000), (14, 6, 0x10003BC00800), (20, 4, 1)])) 0, opAt 0x4347 (run (cmd [(0,
      1, 0x31), (8, 6, 0x10003BC00000), (14, 6, 0x10003BC00800), (20, 4, 1)])) 1, by decide +kernel⟩,
    ⟨st (running (owned) 0x4347 (run (cmd [(0, 1, 0x31), (8, 6, 0x10003BC00000), (14, 6, 0x10003BC00800), (20, 4,
      1)]))), 0x4347, 3, 0x10003BC00800, run (cmd [(0, 1, 0x31), (8, 6, 0x10003BC00000), (14, 6, 0x10003BC00800), (20,
      4, 1)]), decOf 0x4347 (run (cmd [(0, 1, 0x31), (8, 6, 0x10003BC00000), (14, 6, 0x10003BC00800), (20, 4, 1)])),
      opAt 0x4347 (run (cmd [(0, 1, 0x31), (8, 6, 0x10003BC00000), (14, 6, 0x10003BC00800), (20, 4, 1)])) 0, opAt
      0x4347 (run (cmd [(0, 1, 0x31), (8, 6, 0x10003BC00000), (14, 6, 0x10003BC00800), (20, 4, 1)])) 1, (0, 0, 0, (0,
      1)), List.replicate 4 0, by decide +kernel⟩,
    ⟨st (running (owned) 0x4347 (run (cmd [(0, 1, 0x32), (8, 6, 0x10003BC00000), (14, 6, 0x10003BC00800), (20, 4, 1),
      (24, 2, 1), (26, 4, 4)]))), 0x4347, 3, run (cmd [(0, 1, 0x32), (8, 6, 0x10003BC00000), (14, 6, 0x10003BC00800),
      (20, 4, 1), (24, 2, 1), (26, 4, 4)]), decOf 0x4347 (run (cmd [(0, 1, 0x32), (8, 6, 0x10003BC00000), (14, 6,
      0x10003BC00800), (20, 4, 1), (24, 2, 1), (26, 4, 4)])), opAt 0x4347 (run (cmd [(0, 1, 0x32), (8, 6,
      0x10003BC00000), (14, 6, 0x10003BC00800), (20, 4, 1), (24, 2, 1), (26, 4, 4)])) 0, opAt 0x4347 (run (cmd [(0, 1,
      0x32), (8, 6, 0x10003BC00000), (14, 6, 0x10003BC00800), (20, 4, 1), (24, 2, 1), (26, 4, 4)])) 1,
      by decide +kernel⟩,
    ⟨st (running (owned) 0x4347 (run (cmd [(0, 1, 0x32), (8, 6, 0x10003BC00000), (14, 6, 0x10003BC00800), (20, 4, 1),
      (24, 2, 1), (26, 4, 4)]))), 0x4347, 3, 0x10003BC00800, run (cmd [(0, 1, 0x32), (8, 6, 0x10003BC00000), (14, 6,
      0x10003BC00800), (20, 4, 1), (24, 2, 1), (26, 4, 4)]), decOf 0x4347 (run (cmd [(0, 1, 0x32), (8, 6,
      0x10003BC00000), (14, 6, 0x10003BC00800), (20, 4, 1), (24, 2, 1), (26, 4, 4)])), opAt 0x4347 (run (cmd [(0, 1,
      0x32), (8, 6, 0x10003BC00000), (14, 6, 0x10003BC00800), (20, 4, 1), (24, 2, 1), (26, 4, 4)])) 0, opAt 0x4347
      (run (cmd [(0, 1, 0x32), (8, 6, 0x10003BC00000), (14, 6, 0x10003BC00800), (20, 4, 1), (24, 2, 1), (26, 4, 4)]))
      1, (0, 0, 0, (0, 1)), List.replicate 4 0, by decide +kernel⟩,
    ⟨st (running (owned) 0x4347
      ({ run (cmd [(0, 1, 0x33), (8, 6, 0x10003BC00000), (14, 6, 0x10003BC00400), (20, 6, 0x10003BC00800), (26, 6, 0x10003BC02000)]) with cmd := { queued (cmd [(0, 1, 0x33), (8, 6, 0x10003BC00000), (14, 6, 0x10003BC00400), (20, 6, 0x10003BC00800), (26, 6, 0x10003BC02000)]) with descs := [(26, bytesAt 64 [(0, 4, 1), (8, 6, 0x400)])] } })),
      0x4347, 3,
      { run (cmd [(0, 1, 0x33), (8, 6, 0x10003BC00000), (14, 6, 0x10003BC00400), (20, 6, 0x10003BC00800), (26, 6, 0x10003BC02000)]) with cmd := { queued (cmd [(0, 1, 0x33), (8, 6, 0x10003BC00000), (14, 6, 0x10003BC00400), (20, 6, 0x10003BC00800), (26, 6, 0x10003BC02000)]) with descs := [(26, bytesAt 64 [(0, 4, 1), (8, 6, 0x400)])] } },
      decOf 0x4347
      ({ run (cmd [(0, 1, 0x33), (8, 6, 0x10003BC00000), (14, 6, 0x10003BC00400), (20, 6, 0x10003BC00800), (26, 6, 0x10003BC02000)]) with cmd := { queued (cmd [(0, 1, 0x33), (8, 6, 0x10003BC00000), (14, 6, 0x10003BC00400), (20, 6, 0x10003BC00800), (26, 6, 0x10003BC02000)]) with descs := [(26, bytesAt 64 [(0, 4, 1), (8, 6, 0x400)])] } }),
      opAt 0x4347
      ({ run (cmd [(0, 1, 0x33), (8, 6, 0x10003BC00000), (14, 6, 0x10003BC00400), (20, 6, 0x10003BC00800), (26, 6, 0x10003BC02000)]) with cmd := { queued (cmd [(0, 1, 0x33), (8, 6, 0x10003BC00000), (14, 6, 0x10003BC00400), (20, 6, 0x10003BC00800), (26, 6, 0x10003BC02000)]) with descs := [(26, bytesAt 64 [(0, 4, 1), (8, 6, 0x400)])] } })
      0, opAt 0x4347
      ({ run (cmd [(0, 1, 0x33), (8, 6, 0x10003BC00000), (14, 6, 0x10003BC00400), (20, 6, 0x10003BC00800), (26, 6, 0x10003BC02000)]) with cmd := { queued (cmd [(0, 1, 0x33), (8, 6, 0x10003BC00000), (14, 6, 0x10003BC00400), (20, 6, 0x10003BC00800), (26, 6, 0x10003BC02000)]) with descs := [(26, bytesAt 64 [(0, 4, 1), (8, 6, 0x400)])] } })
      1, opAt 0x4347
      ({ run (cmd [(0, 1, 0x33), (8, 6, 0x10003BC00000), (14, 6, 0x10003BC00400), (20, 6, 0x10003BC00800), (26, 6, 0x10003BC02000)]) with cmd := { queued (cmd [(0, 1, 0x33), (8, 6, 0x10003BC00000), (14, 6, 0x10003BC00400), (20, 6, 0x10003BC00800), (26, 6, 0x10003BC02000)]) with descs := [(26, bytesAt 64 [(0, 4, 1), (8, 6, 0x400)])] } })
      2, opAt 0x4347
      ({ run (cmd [(0, 1, 0x33), (8, 6, 0x10003BC00000), (14, 6, 0x10003BC00400), (20, 6, 0x10003BC00800), (26, 6, 0x10003BC02000)]) with cmd := { queued (cmd [(0, 1, 0x33), (8, 6, 0x10003BC00000), (14, 6, 0x10003BC00400), (20, 6, 0x10003BC00800), (26, 6, 0x10003BC02000)]) with descs := [(26, bytesAt 64 [(0, 4, 1), (8, 6, 0x400)])] } })
      3, bytesAt 64 [(0, 4, 1), (8, 6, 0x400)], by decide +kernel⟩,
    ⟨st (running (owned) 0x4347
      ({ run (cmd [(0, 1, 0x33), (8, 6, 0x10003BC00000), (14, 6, 0x10003BC00400), (20, 6, 0x10003BC00800), (26, 6, 0x10003BC02000)]) with cmd := { queued (cmd [(0, 1, 0x33), (8, 6, 0x10003BC00000), (14, 6, 0x10003BC00400), (20, 6, 0x10003BC00800), (26, 6, 0x10003BC02000)]) with descs := [(26, bytesAt 64 [(0, 4, 1), (8, 6, 0x400)])] } })),
      0x4347, 3, 0x10003BC00400, 0x10003BC00800, 0x10003BC00C00,
      { run (cmd [(0, 1, 0x33), (8, 6, 0x10003BC00000), (14, 6, 0x10003BC00400), (20, 6, 0x10003BC00800), (26, 6, 0x10003BC02000)]) with cmd := { queued (cmd [(0, 1, 0x33), (8, 6, 0x10003BC00000), (14, 6, 0x10003BC00400), (20, 6, 0x10003BC00800), (26, 6, 0x10003BC02000)]) with descs := [(26, bytesAt 64 [(0, 4, 1), (8, 6, 0x400)])] } },
      decOf 0x4347
      ({ run (cmd [(0, 1, 0x33), (8, 6, 0x10003BC00000), (14, 6, 0x10003BC00400), (20, 6, 0x10003BC00800), (26, 6, 0x10003BC02000)]) with cmd := { queued (cmd [(0, 1, 0x33), (8, 6, 0x10003BC00000), (14, 6, 0x10003BC00400), (20, 6, 0x10003BC00800), (26, 6, 0x10003BC02000)]) with descs := [(26, bytesAt 64 [(0, 4, 1), (8, 6, 0x400)])] } }),
      opAt 0x4347
      ({ run (cmd [(0, 1, 0x33), (8, 6, 0x10003BC00000), (14, 6, 0x10003BC00400), (20, 6, 0x10003BC00800), (26, 6, 0x10003BC02000)]) with cmd := { queued (cmd [(0, 1, 0x33), (8, 6, 0x10003BC00000), (14, 6, 0x10003BC00400), (20, 6, 0x10003BC00800), (26, 6, 0x10003BC02000)]) with descs := [(26, bytesAt 64 [(0, 4, 1), (8, 6, 0x400)])] } })
      0, opAt 0x4347
      ({ run (cmd [(0, 1, 0x33), (8, 6, 0x10003BC00000), (14, 6, 0x10003BC00400), (20, 6, 0x10003BC00800), (26, 6, 0x10003BC02000)]) with cmd := { queued (cmd [(0, 1, 0x33), (8, 6, 0x10003BC00000), (14, 6, 0x10003BC00400), (20, 6, 0x10003BC00800), (26, 6, 0x10003BC02000)]) with descs := [(26, bytesAt 64 [(0, 4, 1), (8, 6, 0x400)])] } })
      1, opAt 0x4347
      ({ run (cmd [(0, 1, 0x33), (8, 6, 0x10003BC00000), (14, 6, 0x10003BC00400), (20, 6, 0x10003BC00800), (26, 6, 0x10003BC02000)]) with cmd := { queued (cmd [(0, 1, 0x33), (8, 6, 0x10003BC00000), (14, 6, 0x10003BC00400), (20, 6, 0x10003BC00800), (26, 6, 0x10003BC02000)]) with descs := [(26, bytesAt 64 [(0, 4, 1), (8, 6, 0x400)])] } })
      2, opAt 0x4347
      ({ run (cmd [(0, 1, 0x33), (8, 6, 0x10003BC00000), (14, 6, 0x10003BC00400), (20, 6, 0x10003BC00800), (26, 6, 0x10003BC02000)]) with cmd := { queued (cmd [(0, 1, 0x33), (8, 6, 0x10003BC00000), (14, 6, 0x10003BC00400), (20, 6, 0x10003BC00800), (26, 6, 0x10003BC02000)]) with descs := [(26, bytesAt 64 [(0, 4, 1), (8, 6, 0x400)])] } })
      3, bytesAt 64 [(0, 4, 1), (8, 6, 0x400)], [0, 0, 0, 0], _, ⟨by decide +kernel, by decide +kernel,
      by decide +kernel, by decide +kernel, by decide +kernel, by decide +kernel, by decide +kernel,
      by decide +kernel, by decide +kernel, by decide +kernel, by decide +kernel, by decide +kernel,
      by decide +kernel, rfl, by decide +kernel⟩⟩,
    ⟨st (running (owned) 0x4347 (run (cmd [(0, 1, 0x34), (4, 1, 0x22), (5, 1, 2), (6, 2, 0x3F80), (8, 6,
      0x10003BC00000), (14, 6, 0x10003BC00400), (20, 6, 0x10003BC00800), (26, 2, 1), (28, 4, 1)]))), 0x4347, 3,
      0x10003BC00800, 1, run (cmd [(0, 1, 0x34), (4, 1, 0x22), (5, 1, 2), (6, 2, 0x3F80), (8, 6, 0x10003BC00000), (14,
      6, 0x10003BC00400), (20, 6, 0x10003BC00800), (26, 2, 1), (28, 4, 1)]), decOf 0x4347 (run (cmd [(0, 1, 0x34), (4,
      1, 0x22), (5, 1, 2), (6, 2, 0x3F80), (8, 6, 0x10003BC00000), (14, 6, 0x10003BC00400), (20, 6, 0x10003BC00800),
      (26, 2, 1), (28, 4, 1)])), opAt 0x4347 (run (cmd [(0, 1, 0x34), (4, 1, 0x22), (5, 1, 2), (6, 2, 0x3F80), (8, 6,
      0x10003BC00000), (14, 6, 0x10003BC00400), (20, 6, 0x10003BC00800), (26, 2, 1), (28, 4, 1)])) 0, opAt 0x4347 (run
      (cmd [(0, 1, 0x34), (4, 1, 0x22), (5, 1, 2), (6, 2, 0x3F80), (8, 6, 0x10003BC00000), (14, 6, 0x10003BC00400),
      (20, 6, 0x10003BC00800), (26, 2, 1), (28, 4, 1)])) 1, _, _, ⟨by decide +kernel, by decide +kernel,
      by decide +kernel, by decide +kernel, by decide +kernel, by decide +kernel, rfl, rfl, by decide +kernel,
      by decide +kernel⟩⟩⟩

theorem witness_FabricCommands :
    (∃ (s : State) (t : Fin 65536) (k p : Nat) (r : Run) (x : Dec) (fl : Flow), s.dev.executes t.val k 0x40 r ∧ r.dec
      t.val = some x ∧ r.acc = [] ∧ r.sent = 0 ∧ (r.packets x)[0]? = some p ∧ s.dev.flowDieOk (flowOf r.cmd.bytes) =
      true ∧ cbit r.cmd.bytes 4 1 = false ∧ s.dev.flow (flowOf r.cmd.bytes) = some fl ∧ tcOk 1 fl.tc = true ∧
      fl.outstanding.length < 4096 ∧ s.dev.engineOut t.val < 4096 ∧ (s.dev.paceAt fl (fabFlits r.cmd.bytes
      p)).1.isSome = true ∧ s.dev.memStopped (fabSrc r.cmd.bytes p).1 (fabSrc r.cmd.bytes p).2 = none ∧
      s.dev.memServed (fabSrc r.cmd.bytes p).1 (fabSrc r.cmd.bytes p).2 = true) ∧
    (∃ (s : State) (t : Fin 65536) (k p : Nat) (r : Run) (x : Dec) (fl : Flow), s.dev.executes t.val k 0x41 r ∧ r.dec
      t.val = some x ∧ r.acc = [] ∧ r.sent = 0 ∧ (r.packets x)[0]? = some p ∧ s.dev.flowDieOk (flowOf r.cmd.bytes) =
      true ∧ cbit r.cmd.bytes 4 1 = false ∧ s.dev.flow (flowOf r.cmd.bytes) = some fl ∧ tcOk 2 fl.tc = true ∧
      fl.outstanding.length < 4096 ∧ s.dev.engineOut t.val < 4096 ∧ (s.dev.paceAt fl (fabFlits r.cmd.bytes
      p)).1.isSome = true) ∧
    (∃ (s : State) (t : Fin 65536) (k p : Nat) (r : Run) (x : Dec) (fl : Flow), s.dev.executes t.val k 0x42 r ∧ r.dec
      t.val = some x ∧ r.acc = [] ∧ r.sent = 0 ∧ (r.packets x)[0]? = some p ∧ s.dev.flowDieOk (flowOf r.cmd.bytes) =
      true ∧ cbit r.cmd.bytes 4 1 = false ∧ s.dev.flow (flowOf r.cmd.bytes) = some fl ∧ tcOk 3 fl.tc = true ∧
      fl.outstanding.length < 4096 ∧ s.dev.engineOut t.val < 4096 ∧ (s.dev.paceAt fl (fabFlits r.cmd.bytes
      p)).1.isSome = true) ∧
    (∃ (s : State) (t : Fin 65536) (k : Nat) (r : Run) (x : Dec), s.dev.executes t.val k 0x40 r ∧ r.dec t.val = some x
      ∧ r.acc = [] ∧ s.dev.flowDieOk (flowOf r.cmd.bytes) = true ∧ cbit r.cmd.bytes 4 1 = false ∧ s.dev.flow (flowOf
      r.cmd.bytes) = none) ∧
    (∃ (s : State) (t : Fin 65536) (k : Nat) (r : Run) (x : Dec), s.dev.executes t.val k 0x41 r ∧ r.dec t.val = some x
      ∧ r.acc = [] ∧ s.dev.flowDieOk (flowOf r.cmd.bytes) = true ∧ cbit r.cmd.bytes 4 1 = false ∧ s.dev.flow (flowOf
      r.cmd.bytes) = none) ∧
    (∃ (s : State) (t : Fin 65536) (k : Nat) (r : Run) (x : Dec), s.dev.executes t.val k 0x42 r ∧ r.dec t.val = some x
      ∧ r.acc = [] ∧ s.dev.flowDieOk (flowOf r.cmd.bytes) = true ∧ cbit r.cmd.bytes 4 1 = false ∧ s.dev.flow (flowOf
      r.cmd.bytes) = none) ∧
    (∃ (s : State) (t : Fin 65536) (k p j : Nat) (r : Run) (x : Dec), s.dev.executes t.val k 0x40 r ∧ r.dec t.val =
      some x ∧ r.acc = [] ∧ r.sent = 0 ∧ (r.packets x)[0]? = some p ∧ s.dev.flowDieOk (flowOf r.cmd.bytes) = true ∧
      cbit r.cmd.bytes 4 1 = true ∧ j = cbits r.cmd.bytes 5 0 4 ∧ s.dev.broken [8, j] = false ∧ s.dev.flag
      F.MST_FLOW_TMPL_VALID [j] = true ∧ tcOk 1 (s.dev.getF F.MST_FLOW_TMPL_TC [j]) = true ∧ s.dev.flow (flowOf
      r.cmd.bytes) = none ∧ s.dev.engineOut t.val < 4096 ∧ s.dev.memStopped (fabSrc r.cmd.bytes p).1 (fabSrc
      r.cmd.bytes p).2 = none ∧ s.dev.memServed (fabSrc r.cmd.bytes p).1 (fabSrc r.cmd.bytes p).2 = true) ∧
    (∃ (s : State) (t : Fin 65536) (k p j : Nat) (r : Run) (x : Dec), s.dev.executes t.val k 0x41 r ∧ r.dec t.val =
      some x ∧ r.acc = [] ∧ r.sent = 0 ∧ (r.packets x)[0]? = some p ∧ s.dev.flowDieOk (flowOf r.cmd.bytes) = true ∧
      cbit r.cmd.bytes 4 1 = true ∧ j = cbits r.cmd.bytes 5 0 4 ∧ s.dev.broken [8, j] = false ∧ s.dev.flag
      F.MST_FLOW_TMPL_VALID [j] = true ∧ tcOk 2 (s.dev.getF F.MST_FLOW_TMPL_TC [j]) = true ∧ s.dev.flow (flowOf
      r.cmd.bytes) = none ∧ s.dev.engineOut t.val < 4096) ∧
    (∃ (s : State) (t : Fin 65536) (k p j : Nat) (r : Run) (x : Dec), s.dev.executes t.val k 0x42 r ∧ r.dec t.val =
      some x ∧ r.acc = [] ∧ r.sent = 0 ∧ (r.packets x)[0]? = some p ∧ s.dev.flowDieOk (flowOf r.cmd.bytes) = true ∧
      cbit r.cmd.bytes 4 1 = true ∧ j = cbits r.cmd.bytes 5 0 4 ∧ s.dev.broken [8, j] = false ∧ s.dev.flag
      F.MST_FLOW_TMPL_VALID [j] = true ∧ tcOk 3 (s.dev.getF F.MST_FLOW_TMPL_TC [j]) = true ∧ s.dev.flow (flowOf
      r.cmd.bytes) = none ∧ s.dev.engineOut t.val < 4096) :=
  ⟨⟨st (running
      ({ on [] with net := { up.net with flows := [([262143], (⟨3, 0x42, 7, some 0, none, 100, 0, none, 0, 1, none, 0, []⟩ : Flow))] } })
      0x3720 (run (cmd [(0, 1, 0x40), (4, 1, 0), (5, 1, 0xF), (6, 3, 0x3FFFF), (9, 3, 100), (12, 6, 0x10003BC00000),
      (18, 6, 0x10003BC00000), (26, 4, 16)]))), 0x3720, 3, 0, run (cmd [(0, 1, 0x40), (4, 1, 0), (5, 1, 0xF), (6, 3,
      0x3FFFF), (9, 3, 100), (12, 6, 0x10003BC00000), (18, 6, 0x10003BC00000), (26, 4, 16)]), decOf 0x3720 (run (cmd
      [(0, 1, 0x40), (4, 1, 0), (5, 1, 0xF), (6, 3, 0x3FFFF), (9, 3, 100), (12, 6, 0x10003BC00000), (18, 6,
      0x10003BC00000), (26, 4, 16)])), (⟨3, 0x42, 7, some 0, none, 100, 0, none, 0, 1, none, 0, []⟩ : Flow),
      by decide +kernel⟩,
    ⟨st (running
      ({ on [] with net := { up.net with flows := [([262143], (⟨3, 0x42, 7, some 0, none, 100, 0, none, 0, 1, none, 0, []⟩ : Flow))] } })
      0x3720 (run (cmd [(0, 1, 0x41), (4, 1, 0), (5, 1, 0xF), (6, 3, 0x3FFFF), (9, 3, 100), (12, 6, 0x10003BC00000),
      (18, 6, 0x10003BC00000), (26, 4, 16)]))), 0x3720, 3, 0, run (cmd [(0, 1, 0x41), (4, 1, 0), (5, 1, 0xF), (6, 3,
      0x3FFFF), (9, 3, 100), (12, 6, 0x10003BC00000), (18, 6, 0x10003BC00000), (26, 4, 16)]), decOf 0x3720 (run (cmd
      [(0, 1, 0x41), (4, 1, 0), (5, 1, 0xF), (6, 3, 0x3FFFF), (9, 3, 100), (12, 6, 0x10003BC00000), (18, 6,
      0x10003BC00000), (26, 4, 16)])), (⟨3, 0x42, 7, some 0, none, 100, 0, none, 0, 1, none, 0, []⟩ : Flow),
      by decide +kernel⟩,
    ⟨st (running
      ({ on [] with net := { up.net with flows := [([262143], (⟨3, 0x42, 7, some 0, none, 100, 0, none, 0, 1, none, 0, []⟩ : Flow))] } })
      0x3720 (run (cmd [(0, 1, 0x42), (4, 1, 0), (5, 1, 0xF), (6, 3, 0x3FFFF), (9, 3, 100)]))), 0x3720, 3, 0, run (cmd
      [(0, 1, 0x42), (4, 1, 0), (5, 1, 0xF), (6, 3, 0x3FFFF), (9, 3, 100)]), decOf 0x3720 (run (cmd [(0, 1, 0x42), (4,
      1, 0), (5, 1, 0xF), (6, 3, 0x3FFFF), (9, 3, 100)])), (⟨3, 0x42, 7, some 0, none, 100, 0, none, 0, 1, none, 0,
      []⟩ : Flow), by decide +kernel⟩,
    ⟨st (running ({ on [] with net := { up.net with flows := [] } }) 0x3720 (run (cmd [(0, 1, 0x40), (4, 1, 0), (5, 1,
      0xF), (6, 3, 0x3FFFF), (9, 3, 100), (12, 6, 0x10003BC00000), (18, 6, 0x10003BC00000), (26, 4, 16)]))), 0x3720,
      3, run (cmd [(0, 1, 0x40), (4, 1, 0), (5, 1, 0xF), (6, 3, 0x3FFFF), (9, 3, 100), (12, 6, 0x10003BC00000), (18,
      6, 0x10003BC00000), (26, 4, 16)]), decOf 0x3720 (run (cmd [(0, 1, 0x40), (4, 1, 0), (5, 1, 0xF), (6, 3,
      0x3FFFF), (9, 3, 100), (12, 6, 0x10003BC00000), (18, 6, 0x10003BC00000), (26, 4, 16)])), by decide +kernel⟩,
    ⟨st (running ({ on [] with net := { up.net with flows := [] } }) 0x3720 (run (cmd [(0, 1, 0x41), (4, 1, 0), (5, 1,
      0xF), (6, 3, 0x3FFFF), (9, 3, 100), (12, 6, 0x10003BC00000), (18, 6, 0x10003BC00000), (26, 4, 16)]))), 0x3720,
      3, run (cmd [(0, 1, 0x41), (4, 1, 0), (5, 1, 0xF), (6, 3, 0x3FFFF), (9, 3, 100), (12, 6, 0x10003BC00000), (18,
      6, 0x10003BC00000), (26, 4, 16)]), decOf 0x3720 (run (cmd [(0, 1, 0x41), (4, 1, 0), (5, 1, 0xF), (6, 3,
      0x3FFFF), (9, 3, 100), (12, 6, 0x10003BC00000), (18, 6, 0x10003BC00000), (26, 4, 16)])), by decide +kernel⟩,
    ⟨st (running ({ on [] with net := { up.net with flows := [] } }) 0x3720 (run (cmd [(0, 1, 0x42), (4, 1, 0), (5, 1,
      0xF), (6, 3, 0x3FFFF), (9, 3, 100)]))), 0x3720, 3, run (cmd [(0, 1, 0x42), (4, 1, 0), (5, 1, 0xF), (6, 3,
      0x3FFFF), (9, 3, 100)]), decOf 0x3720 (run (cmd [(0, 1, 0x42), (4, 1, 0), (5, 1, 0xF), (6, 3, 0x3FFFF), (9, 3,
      100)])), by decide +kernel⟩,
    ⟨st (running
      ({ on [(F.MST_FLOW_TMPL_VALID, [15], 1), (F.MST_FLOW_TMPL_TC, [15], 3)] with net := { up.net with flows := [] } })
      0x3720 (run (cmd [(0, 1, 0x40), (4, 1, 2), (5, 1, 0xF), (6, 3, 0x3FFFF), (9, 3, 100), (12, 6, 0x10003BC00000),
      (18, 6, 0x10003BC00000), (26, 4, 16)]))), 0x3720, 3, 0, 15, run (cmd [(0, 1, 0x40), (4, 1, 2), (5, 1, 0xF), (6,
      3, 0x3FFFF), (9, 3, 100), (12, 6, 0x10003BC00000), (18, 6, 0x10003BC00000), (26, 4, 16)]), decOf 0x3720 (run
      (cmd [(0, 1, 0x40), (4, 1, 2), (5, 1, 0xF), (6, 3, 0x3FFFF), (9, 3, 100), (12, 6, 0x10003BC00000), (18, 6,
      0x10003BC00000), (26, 4, 16)])), by decide +kernel⟩,
    ⟨st (running
      ({ on [(F.MST_FLOW_TMPL_VALID, [15], 1), (F.MST_FLOW_TMPL_TC, [15], 3)] with net := { up.net with flows := [] } })
      0x3720 (run (cmd [(0, 1, 0x41), (4, 1, 2), (5, 1, 0xF), (6, 3, 0x3FFFF), (9, 3, 100), (12, 6, 0x10003BC00000),
      (18, 6, 0x10003BC00000), (26, 4, 16)]))), 0x3720, 3, 0, 15, run (cmd [(0, 1, 0x41), (4, 1, 2), (5, 1, 0xF), (6,
      3, 0x3FFFF), (9, 3, 100), (12, 6, 0x10003BC00000), (18, 6, 0x10003BC00000), (26, 4, 16)]), decOf 0x3720 (run
      (cmd [(0, 1, 0x41), (4, 1, 2), (5, 1, 0xF), (6, 3, 0x3FFFF), (9, 3, 100), (12, 6, 0x10003BC00000), (18, 6,
      0x10003BC00000), (26, 4, 16)])), by decide +kernel⟩,
    ⟨st (running
      ({ on [(F.MST_FLOW_TMPL_VALID, [15], 1), (F.MST_FLOW_TMPL_TC, [15], 3)] with net := { up.net with flows := [] } })
      0x3720 (run (cmd [(0, 1, 0x42), (4, 1, 2), (5, 1, 0xF), (6, 3, 0x3FFFF), (9, 3, 100)]))), 0x3720, 3, 0, 15, run
      (cmd [(0, 1, 0x42), (4, 1, 2), (5, 1, 0xF), (6, 3, 0x3FFFF), (9, 3, 100)]), decOf 0x3720 (run (cmd [(0, 1,
      0x42), (4, 1, 2), (5, 1, 0xF), (6, 3, 0x3FFFF), (9, 3, 100)])), by decide +kernel⟩⟩

theorem witness_CollectiveCommands :
    (∃ (s : State) (t : Fin 65536) (k : Nat) (r : Run) (c : List Byte), s.dev.executes t.val k 0x50 r ∧ cbits
      r.cmd.bytes 4 0 2 = 0 ∧ r.acc = [] ∧ c = s.dev.collDesc (leAt r.cmd.bytes 6 2) ∧ s.dev.broken [7, leAt
      r.cmd.bytes 6 2] = false ∧ s.dev.cdOk c = true ∧ s.dev.ctx (cdId c) = none ∧ (∀ y ∈ s.dev.yards, cdStaging c ≤
      s.dev.getF F.YRD_COLL_STG_FREE_KIB [y] ∧ s.dev.flag F.YRD_COLL_OVF_EN [y] = true)) ∧
    (∃ (s : State) (t : Fin 65536) (k id : Nat) (r : Run) (x : Ctx), s.dev.executes t.val k 0x50 r ∧ cbits r.cmd.bytes
      4 0 2 = 0 ∧ r.acc = [id] ∧ s.dev.ctx id = some x ∧ x.frame ≤ s.dev.clk.frame) ∧
    (∃ (d : Dev) (id : Nat) (x : Ctx), d.coll.ctxs = [([id], x)] ∧ x.frame = d.clk.frame) ∧
    (∃ (s : State) (t : Fin 65536) (k id : Nat) (r : Run) (x : Ctx), s.dev.executes t.val k 0x50 r ∧ cbits r.cmd.bytes
      4 0 2 = 1 ∧ id = leAt r.cmd.bytes 6 2 % 32768 ∧ s.dev.ctx id = some x ∧ s.dev.live x = true) ∧
    (∃ (s : State) (t : Fin 65536) (k id : Nat) (r : Run) (x : Ctx), s.dev.executes t.val k 0x50 r ∧ cbits r.cmd.bytes
      4 0 2 = 2 ∧ r.acc = [] ∧ id = leAt r.cmd.bytes 6 2 % 32768 ∧ s.dev.ctx id = some x ∧ s.dev.live x = true) ∧
    (∃ (s : State) (t : Fin 65536) (k id : Nat) (r : Run), s.dev.executes t.val k 0x50 r ∧ cbits r.cmd.bytes 4 0 2 = 2
      ∧ r.acc = [id] ∧ s.dev.ctxRecWaits (leAt r.cmd.bytes 6 2 % 32768) = false) ∧
    (∃ (s : State) (t : Fin 65536) (k id : Nat) (r : Run) (x : Ctx), s.dev.executes t.val k 0x51 r ∧ id = leAt
      r.cmd.bytes 6 2 % 32768 ∧ s.dev.ctx id = some x ∧ s.dev.live x = true ∧ roleOk x.desc (cb r.cmd.bytes 4) = true
      ∧ ((s.dev.joinRegion r.cmd.bytes).map Region.ok).getD true = true ∧ (∀ j ∈ x.joins, ¬(j.tackle = t.val ∧ j.uid =
      r.cmd.uid))) ∧
    (∃ (s : State) (t : Fin 65536) (k id n role : Nat) (r : Run) (x : Ctx) (j : Join), s.dev.executes t.val k 0x51 r ∧
      id = leAt r.cmd.bytes 6 2 % 32768 ∧ s.dev.ctx id = some x ∧ s.dev.live x = true ∧ role = cb r.cmd.bytes 4 ∧
      roleOk x.desc role = true ∧ ((s.dev.joinRegion r.cmd.bytes).map Region.ok).getD true = true ∧ role ≠ 0xFF ∧
      x.joins.find? (fun i => i.tackle == t.val && i.uid == r.cmd.uid) = some j ∧ x.nextJoin j = some n ∧ s.dev.memUp
      ((j.base + (n - cdFirst x.desc) * cdChunk x.desc) % 2 ^ 48) (cdChunk x.desc)) ∧
    (∃ (s : State) (t : Fin 65536) (k id : Nat) (r : Run) (x : Ctx) (j : Join), s.dev.executes t.val k 0x51 r ∧ id =
      leAt r.cmd.bytes 6 2 % 32768 ∧ s.dev.ctx id = some x ∧ s.dev.live x = true ∧ roleOk x.desc (cb r.cmd.bytes 4) =
      true ∧ ((s.dev.joinRegion r.cmd.bytes).map Region.ok).getD true = true ∧ x.joins.find? (fun i => i.tackle ==
      t.val && i.uid == r.cmd.uid) = some j ∧ x.nextJoin j = none ∧ s.dev.joinOver x j = true) :=
  ⟨⟨st (running ((List.range 48).foldl (fun d w => d.setF F.MST_COLL_DESC_WORD [5, w] (leAt (desc 1 1) (4 * w) 4))
      (on ((List.range 4).map (fun y => (F.YRD_COLL_OVF_EN, [y], 1))))) 0x2320
      ({ run (cmd [(0, 1, 0x50), (4, 1, 0), (6, 2, 5)]) with acc := [] })), 0x2320, 3,
      { run (cmd [(0, 1, 0x50), (4, 1, 0), (6, 2, 5)]) with acc := [] }, Dev.collDesc ((List.range 48).foldl (fun d w
      => d.setF F.MST_COLL_DESC_WORD [5, w] (leAt (desc 1 1) (4 * w) 4)) (on ((List.range 4).map (fun y =>
      (F.YRD_COLL_OVF_EN, [y], 1))))) 5, by decide +kernel⟩,
    ⟨st (running (joined (up) (ctx (desc 0 1) chunk)) 0x2320
      ({ run (cmd [(0, 1, 0x50), (4, 1, 0), (6, 2, 5)]) with acc := [5] })), 0x2320, 3, 5,
      { run (cmd [(0, 1, 0x50), (4, 1, 0), (6, 2, 5)]) with acc := [5] }, ctx (desc 0 1) chunk, by decide +kernel⟩,
    ⟨joined up { ctx (desc 0 1) chunk with frame := 1048576 }, 5, { ctx (desc 0 1) chunk with frame := 1048576 },
      by decide +kernel⟩,
    ⟨st (running (joined (up) (ctx (desc 0 1) chunk)) 0x2320
      ({ run (cmd [(0, 1, 0x50), (4, 1, 1), (6, 2, 5)]) with acc := [] })), 0x2320, 3, 5,
      { run (cmd [(0, 1, 0x50), (4, 1, 1), (6, 2, 5)]) with acc := [] }, ctx (desc 0 1) chunk, by decide +kernel⟩,
    ⟨st (running (joined (up) (ctx (desc 0 1) chunk)) 0x2320
      ({ run (cmd [(0, 1, 0x50), (4, 1, 2), (6, 2, 5)]) with acc := [] })), 0x2320, 3, 5,
      { run (cmd [(0, 1, 0x50), (4, 1, 2), (6, 2, 5)]) with acc := [] }, ctx (desc 0 1) chunk, by decide +kernel⟩,
    ⟨st (running (up) 0x2320 ({ run (cmd [(0, 1, 0x50), (4, 1, 2), (6, 2, 5)]) with acc := [5] })), 0x2320, 3, 5,
      { run (cmd [(0, 1, 0x50), (4, 1, 2), (6, 2, 5)]) with acc := [5] }, by decide +kernel⟩,
    ⟨st (running (joined (up) (ctx (desc 0 1) chunk)) 0x434B (run (cmd [(0, 1, 0x51), (4, 1, 35), (6, 2, 5), (8, 6,
      0x10003BC00000)]))), 0x434B, 3, 5, run (cmd [(0, 1, 0x51), (4, 1, 35), (6, 2, 5), (8, 6, 0x10003BC00000)]), ctx
      (desc 0 1) chunk, by decide +kernel⟩,
    ⟨st (running (joined (up)
      ({ ctx (desc 0 1) { chunk with ups := [newSlot (desc 0 1) 0 0 0] } with joins := [⟨35, 0x434B, 1, 0x10003BC00000, [], []⟩], granted := [7] }))
      0x434B (run (cmd [(0, 1, 0x51), (4, 1, 35), (6, 2, 5), (8, 6, 0x10003BC00000)]))), 0x434B, 3, 5, 7, 35, run (cmd
      [(0, 1, 0x51), (4, 1, 35), (6, 2, 5), (8, 6, 0x10003BC00000)]),
      { ctx (desc 0 1) { chunk with ups := [newSlot (desc 0 1) 0 0 0] } with joins := [⟨35, 0x434B, 1, 0x10003BC00000, [], []⟩], granted := [7] },
      ⟨35, 0x434B, 1, 0x10003BC00000, [], []⟩, by decide +kernel, by decide +kernel, by decide +kernel,
      by decide +kernel, by decide +kernel, by decide +kernel, by decide +kernel, by decide +kernel,
      by decide +kernel, by decide +kernel, memUp_of (m := 1024) (j := 1382) (by decide +kernel) (by decide +kernel)
      (by decide +kernel)⟩,
    ⟨st (running (joined (up)
      ({ ctx (desc 0 1) chunk with joins := [⟨35, 0x434B, 1, 0x10003BC00000, [0, 1, 2, 3, 4, 5, 6, 7], []⟩] })) 0x434B
      (run (cmd [(0, 1, 0x51), (4, 1, 35), (6, 2, 5), (8, 6, 0x10003BC00000)]))), 0x434B, 3, 5, run (cmd [(0, 1,
      0x51), (4, 1, 35), (6, 2, 5), (8, 6, 0x10003BC00000)]),
      { ctx (desc 0 1) chunk with joins := [⟨35, 0x434B, 1, 0x10003BC00000, [0, 1, 2, 3, 4, 5, 6, 7], []⟩] }, ⟨35,
      0x434B, 1, 0x10003BC00000, [0, 1, 2, 3, 4, 5, 6, 7], []⟩, by decide +kernel⟩⟩

theorem witness_PlanCommands :
    (∃ (s : State) (t : Fin 65536) (k : Nat) (r : Run) (l : List Byte), s.dev.executes t.val k 0x60 r ∧
      s.dev.tckInReset t.val = false ∧ cbits r.cmd.bytes 4 0 2 = 0 ∧ r.acc = [] ∧ l = s.dev.read (leAt r.cmd.bytes 8
      6) (leAt r.cmd.bytes 16 4) ∧ s.dev.memUp (leAt r.cmd.bytes 8 6) (leAt r.cmd.bytes 16 4) ∧ s.dev.sectionOk
      r.cmd.hp l = true ∧ s.dev.sectionLost (some (leAt l 6 2)) = false ∧ sectionsFit (s.dev.withSection l) = true) ∧
    (∃ (s : State) (t : Fin 65536) (k : Nat) (r : Run) (l : List Byte), s.dev.executes t.val k 0x60 r ∧
      s.dev.tckInReset t.val = false ∧ cbits r.cmd.bytes 4 0 2 = 0 ∧ r.acc = [] ∧ l = s.dev.read (leAt r.cmd.bytes 8
      6) (leAt r.cmd.bytes 16 4) ∧ s.dev.memUp (leAt r.cmd.bytes 8 6) (leAt r.cmd.bytes 16 4) ∧ s.dev.sectionOk
      r.cmd.hp l = false) ∧
    (∃ (s : State) (t : Fin 65536) (k v : Nat) (r : Run) (g : RegDesc) (i : List Nat) (e : Dev), s.dev.executes t.val
      k 0x60 r ∧ s.dev.tckInReset t.val = false ∧ cbits r.cmd.bytes 4 0 2 = 0 ∧ r.acc ≠ [] ∧ r.sent < secCount
      r.section ∧ regAt ((secEntry r.section r.sent).1 % 2 ^ 48) = some (g, i) ∧ v = (secEntry r.section r.sent).2 ∧
      s.dev.reach g.reg i = .open ∧ e = (s.dev.regWrite s.fuses (.plan (Fin.ofNat 4 r.cmd.hp)) g i v).1 ∧ e.runAt
      t.val k = some r ∧ e.bank.met = 0) ∧
    (∃ (s : State) (t : Fin 65536) (k : Nat) (r : Run), s.dev.executes t.val k 0x60 r ∧ s.dev.tckInReset t.val = false
      ∧ cbits r.cmd.bytes 4 0 2 = 0 ∧ r.acc ≠ [] ∧ secCount r.section ≤ r.sent ∧ r.lost = none ∧ s.dev.sectionLost
      (some (leAt r.section 6 2)) = false ∧ (∀ c ∈ s.dev.bank.claims, c.run ≠ some (t.val, r.cmd.uid))) ∧
    (∃ (s : State) (t : Fin 65536) (k n : Nat) (r : Run), s.dev.executes t.val k 0x60 r ∧ s.dev.tckInReset t.val =
      false ∧ cbits r.cmd.bytes 4 0 2 = 1 ∧ n = leAt r.cmd.bytes 6 2 ∧ (nget? s.dev.eng.sections [n]).isSome = true ∧
      s.dev.sectionLost (some n) = false) ∧
    (∃ (s : State) (t : Fin 65536) (k : Nat) (r : Run) (i : List Nat), s.dev.executes t.val k 0x61 r ∧
      s.dev.tckInReset t.val = false ∧ i = [cb r.cmd.bytes 4 / 32, cb r.cmd.bytes 4 % 32] ∧ s.dev.sectionLost none =
      false ∧ s.dev.dieOk (5 + cb r.cmd.bytes 4 / 32) = true ∧ s.dev.islandInReset (regIsland .PRT_SCH_STAT i) = false
      ∧ s.dev.islandStopped (regIsland .PRT_SCH_STAT i) = false ∧ cbits r.cmd.bytes 5 0 1 ≠ s.dev.getF
      F.PRT_SCH_STAT_ACTIVE i ∧ s.dev.fabTime + us 2 ≤ leAt r.cmd.bytes 8 8) ∧
    (∃ (s : State) (t : Fin 65536) (k : Nat) (r : Run) (i : List Nat), s.dev.executes t.val k 0x61 r ∧
      s.dev.tckInReset t.val = false ∧ i = [cb r.cmd.bytes 4 / 32, cb r.cmd.bytes 4 % 32] ∧ s.dev.sectionLost none =
      false ∧ s.dev.dieOk (5 + cb r.cmd.bytes 4 / 32) = true ∧ s.dev.islandInReset (regIsland .PRT_SCH_STAT i) = false
      ∧ s.dev.islandStopped (regIsland .PRT_SCH_STAT i) = false ∧ cbits r.cmd.bytes 5 0 1 ≠ s.dev.getF
      F.PRT_SCH_STAT_ACTIVE i ∧ leAt r.cmd.bytes 8 8 < s.dev.fabTime + us 2) :=
  ⟨⟨st (running (Dev.write up 0x10003BC00000 (bytesAt 48 [(0, 4, 0x4E414C50), (4, 1, 1), (6, 2, 65535), (8, 4, 1),
      (32, 8, 139639116550076), (40, 8, 7)])) 0x1000 (run (cmd [(0, 1, 0x60), (8, 6, 0x10003BC00000), (16, 4, 48)]))),
      0x1000, 3, run (cmd [(0, 1, 0x60), (8, 6, 0x10003BC00000), (16, 4, 48)]), bytesAt 48 [(0, 4, 0x4E414C50), (4, 1,
      1), (6, 2, 65535), (8, 4, 1), (32, 8, 139639116550076), (40, 8, 7)], by decide +kernel⟩,
    ⟨st (running (up) 0x1000 (run (cmd [(0, 1, 0x60), (8, 6, 0x10003BC00000), (16, 4, 48)]))), 0x1000, 3, run (cmd
      [(0, 1, 0x60), (8, 6, 0x10003BC00000), (16, 4, 48)]), List.replicate 48 0, by decide +kernel⟩,
    ⟨st (running (Dev.write up 0x10003BC00000 (bytesAt 48 [(0, 4, 0x4E414C50), (4, 1, 1), (6, 2, 65535), (8, 4, 1),
      (32, 8, 139639116550076), (40, 8, 7)])) 0x1000
      ({ run (cmd [(0, 1, 0x60), (8, 6, 0x10003BC00000), (16, 4, 48)]) with acc := List.map (·.toNat) (bytesAt 48 [(0, 4, 0x4E414C50), (4, 1, 1), (6, 2, 65535), (8, 4, 1), (32, 8, 139639116550076), (40, 8, 7)]) })),
      0x1000, 3, 7,
      { run (cmd [(0, 1, 0x60), (8, 6, 0x10003BC00000), (16, 4, 48)]) with acc := List.map (·.toNat) (bytesAt 48 [(0, 4, 0x4E414C50), (4, 1, 1), (6, 2, 65535), (8, 4, 1), (32, 8, 139639116550076), (40, 8, 7)]) },
      (descOf .SEQ_CTR).get (by decide +kernel), [0x434F, 15], _, ⟨by decide +kernel, by decide +kernel,
      by decide +kernel, by decide +kernel, by decide +kernel, by decide +kernel, by decide +kernel,
      by decide +kernel, rfl, by decide +kernel, by decide +kernel⟩⟩,
    ⟨st (running (Dev.write up 0x10003BC00000 (bytesAt 48 [(0, 4, 0x4E414C50), (4, 1, 1), (6, 2, 65535), (8, 4, 1),
      (32, 8, 139639116550076), (40, 8, 7)])) 0x1000
      ({ run (cmd [(0, 1, 0x60), (8, 6, 0x10003BC00000), (16, 4, 48)]) with acc := List.map (·.toNat) (bytesAt 48 [(0, 4, 0x4E414C50), (4, 1, 1), (6, 2, 65535), (8, 4, 1), (32, 8, 139639116550076), (40, 8, 7)]), sent := 1 })),
      0x1000, 3,
      { run (cmd [(0, 1, 0x60), (8, 6, 0x10003BC00000), (16, 4, 48)]) with acc := List.map (·.toNat) (bytesAt 48 [(0, 4, 0x4E414C50), (4, 1, 1), (6, 2, 65535), (8, 4, 1), (32, 8, 139639116550076), (40, 8, 7)]), sent := 1 },
      by decide +kernel⟩,
    ⟨st (running
      ({ up with eng := { up.eng with sections := [([65535], bytesAt 48 [(0, 4, 0x4E414C50), (4, 1, 1), (6, 2, 65535), (8, 4, 1), (32, 8, 139639116550076), (40, 8, 7)])] } })
      0x1000 (run (cmd [(0, 1, 0x60), (4, 1, 1), (6, 2, 65535)]))), 0x1000, 3, 65535, run (cmd [(0, 1, 0x60), (4, 1,
      1), (6, 2, 65535)]), by decide +kernel⟩,
    ⟨st (running (up) 0x1000 (run (cmd [(0, 1, 0x61), (4, 1, 255), (5, 1, 1), (8, 8, 0xFFFFFFFFFFFFFFFF)]))), 0x1000,
      3, run (cmd [(0, 1, 0x61), (4, 1, 255), (5, 1, 1), (8, 8, 0xFFFFFFFFFFFFFFFF)]), [7, 31], by decide +kernel⟩,
    ⟨st (running (up) 0x1000 (run (cmd [(0, 1, 0x61), (4, 1, 255), (5, 1, 1), (8, 8, 0)]))), 0x1000, 3, run (cmd [(0,
      1, 0x61), (4, 1, 255), (5, 1, 1), (8, 8, 0)]), [7, 31], by decide +kernel⟩⟩

theorem witness_FaultsAndManagementCommands :
    (∃ (h : Nat), h < 65536) ∧
    (∃ (s : State) (y : Fin 4), s.dev.unitOut (0x20FF + 256 * y.val) = false) ∧
    (∃ (s : State) (w : Nat), s.dev.flt.pulse = some w ∧ w + us 2 ≤ s.dev.clk.now) ∧
    (∃ (s : State) (iss : Issuer), s.dev.lands iss .MST_FAULT_STAT [] 1 = true) ∧
    (∃ (s : State) (iss : Issuer) (v : BitVec 32), s.dev.lands iss .MST_FAULT_HOLD [] v.toNat = true) ∧
    (∃ (s : State) (t : Fin 65536) (i u : Nat), t.val = 0x4000 + 256 * i + u ∧ i < 4 ∧ u < 64 ∧ s.dev.unitOut t.val =
      false) ∧
    (∃ (s : State), s.dev.headless = false) ∧
    (∃ (s : State) (t e i u : Nat), s.dev.flt.mgmt = some (t, e, 1) ∧ s.dev.headless = false ∧ s.dev.islandOn
      (tackleIsland t) = true ∧ s.dev.epochOf t = e ∧ t = 0x4000 + 256 * i + u ∧ i < 4 ∧ u < 64 ∧ s.dev.unitOut t =
      false ∧ e < 256) ∧
    (∃ (s : State) (t e : Nat), s.dev.flt.mgmt = some (t, e, 1) ∧ s.dev.headless = false ∧ s.dev.islandOn
      (tackleIsland t) = true ∧ s.dev.epochOf t ≠ e) ∧
    (∃ (s : State) (t e : Nat), s.dev.flt.mgmt = some (t, e, 2) ∧ s.dev.headless = false ∧ s.dev.islandOn
      (tackleIsland t) = true ∧ s.dev.epochOf t = e ∧ e < 256 ∧ s.dev.unitOut t = false) ∧
    (∃ (s : State) (t e : Nat), s.dev.flt.mgmt = some (t, e, 2) ∧ s.dev.headless = false ∧ s.dev.islandOn
      (tackleIsland t) = true ∧ s.dev.epochOf t = e ∧ s.dev.unitOut t = true) ∧
    (∃ (s : State) (t e : Nat), s.dev.flt.mgmt = some (t, e, 3) ∧ s.dev.headless = false ∧ s.dev.islandInReset
      (tackleIsland t) = true) ∧
    (∃ (s : State) (t e : Nat), s.dev.flt.mgmt = some (t, e, 3) ∧ s.dev.headless = false ∧ s.dev.islandOn
      (tackleIsland t) = true ∧ s.dev.epochOf t = e ∧ e < 256 ∧ s.dev.unitOut t = false) :=
  ⟨⟨65535, by decide +kernel⟩,
    ⟨st up, 3, by decide +kernel⟩,
    ⟨st ({ up with flt := { up.flt with pulse := some 0 } }), 0, by decide +kernel⟩,
    ⟨st up, .pf 0, by decide +kernel⟩,
    ⟨st up, .pf 0, 0xFFFFFFFF, by decide +kernel⟩,
    ⟨st up, 0x433F, 3, 63, by decide +kernel⟩,
    ⟨st up, by decide +kernel⟩,
    ⟨st ({ up with flt := { up.flt with mgmt := some (0x433F, 0, 1) } }), 0x433F, 0, 3, 63, by decide +kernel⟩,
    ⟨st ({ up with flt := { up.flt with mgmt := some (0x433F, 1, 1) } }), 0x433F, 1, by decide +kernel⟩,
    ⟨st ({ up with flt := { up.flt with mgmt := some (0x433F, 0, 2) } }), 0x433F, 0, by decide +kernel⟩,
    ⟨st ({ on [(F.TCK_STAT_MASKED, [0x433F], 1)] with flt := { up.flt with mgmt := some (0x433F, 0, 2) } }), 0x433F,
      0, by decide +kernel⟩,
    ⟨st ({ up.holdIsland (tackleIsland 0x433F) with flt := { up.flt with mgmt := some (0x433F, 0, 3) } }), 0x433F, 0,
      by decide +kernel⟩,
    ⟨st ({ up with flt := { up.flt with mgmt := some (0x433F, 0, 3) } }), 0x433F, 0, by decide +kernel⟩⟩

theorem witness_ModulesComeUpAndGo :
    (∃ (s : State), s.dev.optRuns = true) ∧
    (∃ (s : State) (m : Fin 128), s.dev.optOn = true ∧ (s.dev.slot m.val).confirmed = some true ∧ s.dev.flag
      F.OPM_SLOT_CFG_MANUAL [m.val] = false ∧ s.dev.passOn m.val = false) ∧
    (∃ (s : State) (m : Fin 128) (vn pn sn : List Byte), identityOk vn pn sn = true ∧ s.dev.optOn = true ∧
      s.dev.slotState m.val = 1 ∧ (s.dev.slot m.val).resetN = true ∧ s.dev.clk.now ≤ (s.dev.slot m.val).limit ∧
      s.dev.duplicate m.val sn = false ∧ s.dev.allowed (partHash vn pn) = true) ∧
    (∃ (s : State) (m : Fin 128) (vn pn sn : List Byte), identityOk vn pn sn = true ∧ s.dev.optOn = true ∧
      s.dev.slotState m.val = 1 ∧ (s.dev.slot m.val).resetN = true ∧ s.dev.clk.now ≤ (s.dev.slot m.val).limit ∧
      s.dev.allowed (partHash vn pn) = false) ∧
    (∃ (s : State) (m : Fin 128), s.dev.optOn = true ∧ s.dev.slotState m.val = 1 ∧ (s.dev.slot m.val).limit <
      s.dev.clk.now) ∧
    (∃ (s : State) (m : Fin 128), s.dev.optOn = true ∧ s.dev.slotState m.val = 3 ∧ s.dev.clk.now ≤ (s.dev.slot
      m.val).limit) ∧
    (∃ (s : State) (m : Fin 128), s.dev.optOn = true ∧ s.dev.slotState m.val = 3 ∧ (s.dev.slot m.val).limit <
      s.dev.clk.now) ∧
    (∃ (s : State) (m : Fin 128), s.dev.optOn = true ∧ (s.dev.slot m.val).confirmed = some false) ∧
    (∃ (s : State) (m : Fin 128), s.dev.optOn = true ∧ s.dev.flag F.OPM_SLOT_STAT_INT [m.val] = true ∧ s.dev.slotState
      m.val ≠ 0 ∧ s.dev.slotState m.val ≠ 6 ∧ s.dev.flag F.OPM_CTRL_RING_EN = true) :=
  ⟨⟨st up, by decide +kernel⟩,
    ⟨st (slotted [] { Slot.init with confirmed := some true }), 127, by decide +kernel⟩,
    ⟨st (slotted [(F.OPM_SLOT_STAT_STATE, [127], 1)] { Slot.init with resetN := true, limit := 500000000000000 }),
      127, List.replicate 16 0x41, List.replicate 16 0x41, List.replicate 16 0x41, by decide +kernel⟩,
    ⟨st (slotted [(F.OPM_SLOT_STAT_STATE, [127], 1), (F.OPM_CTRL_ALLOW_EN, [], 1)]
      { Slot.init with resetN := true, limit := 500000000000000 }), 127, List.replicate 16 0x41, List.replicate 16
      0x41, List.replicate 16 0x41, by decide +kernel⟩,
    ⟨st (slotted [(F.OPM_SLOT_STAT_STATE, [127], 1)] { Slot.init with resetN := true }), 127, by decide +kernel⟩,
    ⟨st (slotted [(F.OPM_SLOT_STAT_STATE, [127], 3)] { Slot.init with resetN := true, limit := 500000000000000 }),
      127, by decide +kernel⟩,
    ⟨st (slotted [(F.OPM_SLOT_STAT_STATE, [127], 3)] { Slot.init with resetN := true }), 127, by decide +kernel⟩,
    ⟨st (slotted [] { Slot.init with confirmed := some false }), 127, by decide +kernel⟩,
    ⟨st (slotted [(F.OPM_SLOT_STAT_STATE, [127], 4), (F.OPM_SLOT_STAT_INT, [127], 1), (F.OPM_CTRL_RING_EN, [], 1)]
      { Slot.init with resetN := true, limit := 500000000000000 }), 127, by decide +kernel⟩⟩

theorem witness_ModuleLifeLedgerAndPassThrough :
    (∃ (s : State) (m : Fin 128) (r : LedRec), s.dev.shining m.val = some r ∧ (s.dev.opt.led.map LedRec.serial).Nodup
      ∧ (s.dev.slot m.val).minAt + sec 60 ≤ s.dev.clk.now) ∧
    (∃ (s : State) (m : Fin 128) (r : LedRec) (l : List (BitVec 16)), l.length = 8 ∧ s.dev.shining m.val = some r ∧
      s.dev.slotState m.val = 4 ∧ (s.dev.slot m.val).biasAt + sec 600 ≤ s.dev.clk.now ∧ r.bias = []) ∧
    (∃ (s : State) (m : Fin 128) (r : LedRec) (l : List (BitVec 16)), l.length = 8 ∧ s.dev.shining m.val = some r ∧
      s.dev.slotState m.val = 4 ∧ (s.dev.slot m.val).biasAt + sec 600 ≤ s.dev.clk.now ∧ r.bias ≠ [] ∧
      (s.dev.opt.led.map LedRec.serial).Nodup) ∧
    (∃ (s : State) (r : LedRec), s.dev.optOn = true ∧ s.dev.opt.hourAt + sec 3600 ≤ s.dev.clk.now ∧
      s.dev.opt.led.filter LedRec.dirty = [r] ∧ s.dev.opt.pos < 32768) ∧
    (∃ (s : State) (r : LedRec), s.dev.optOn = true ∧ s.dev.opt.flushDue = true ∧ s.dev.opt.led.filter LedRec.dirty =
      [r] ∧ s.dev.opt.pos < 32768) ∧
    (∃ (s : State) (iss : Issuer) (v : BitVec 32), s.dev.lands iss .OPM_CTRL [] (v.toNat ||| 0x8) = true ∧
      s.dev.optRuns = true ∧ bit v.toNat 0 = true) ∧
    (∃ (s : State) (iss : Issuer) (m : Fin 128) (v : BitVec 32), s.dev.lands iss .OPM_SLOT_CFG [m.val] (v.toNat |||
      0x2) = true ∧ s.dev.optOn = true ∧ s.dev.slotState m.val ≠ 0 ∧ s.dev.slotState m.val ≠ 6 ∧ bit v.toNat 0 = false
      ∧ s.dev.flag F.OPM_SLOT_CFG_MANUAL [m.val] = false) ∧
    (∃ (s : State) (iss : Issuer) (m : Fin 128), s.dev.lands iss .OPM_SLOT_CFG [m.val] 1 = true ∧ s.dev.slotState
      m.val ≠ 0 ∧ s.dev.slotState m.val ≠ 6 ∧ s.dev.flag F.OPM_SLOT_CFG_MANUAL [m.val] = false) ∧
    (∃ (s : State) (iss : Issuer) (v : BitVec 32) (m : Nat), s.dev.lands iss .OPM_PASS_CTRL [] (v.toNat ||| 0x2000000)
      = true ∧ s.dev.optRuns = true ∧ s.dev.flag F.OPM_PASS_DATA_BUSY = false ∧ m = bits v.toNat 0 7 ∧ s.dev.flag
      F.OPM_SLOT_STAT_PRESENT [m] = true ∧ (bit v.toNat 24 = true → s.dev.flag F.OPM_SLOT_CFG_MANUAL [m] = true)) ∧
    (∃ (s : State) (p : PassAcc), s.dev.opt.pass = some p ∧ (s.dev.slot p.slot).selN = false ∧ p.write = false) ∧
    (∃ (s : State) (p : PassAcc), s.dev.opt.pass = some p ∧ (s.dev.slot p.slot).selN = false ∧ p.write = true) ∧
    (∃ (s : State) (p : PassAcc), s.dev.opt.pass = some p ∧ (s.dev.slot p.slot).selN = true) ∧
    (∃ (s : State) (p : PassAcc), s.dev.opt.pass = some p ∧ (s.dev.slot p.slot).selN = false) :=
  ⟨⟨st (shiningIn ledger), 127, ledger, by decide +kernel⟩,
    ⟨st (shiningIn ledger), 127, ledger, List.replicate 8 1, by decide +kernel⟩,
    ⟨st (shiningIn ({ ledger with bias := List.replicate 8 1 })), 127, { ledger with bias := List.replicate 8 1 },
      List.replicate 8 1, by decide +kernel⟩,
    ⟨st ({ shiningIn ledger with clk := { (shiningIn ledger).clk with now := sec 3600 } }), ledger, by decide +kernel⟩,
    ⟨st ({ shiningIn ledger with opt := { (shiningIn ledger).opt with flushDue := true } }), ledger,
      by decide +kernel⟩,
    ⟨st up, .pf 0, 1, by decide +kernel⟩,
    ⟨st (slotted [(F.OPM_SLOT_STAT_STATE, [127], 4)] { Slot.init with tx := true }), .pf 0, 127, 0, by decide +kernel⟩,
    ⟨st (slotted [(F.OPM_SLOT_STAT_STATE, [127], 4)] { Slot.init with tx := true }), .pf 0, 127, by decide +kernel⟩,
    ⟨st (slotted [(F.OPM_SLOT_STAT_PRESENT, [127], 1), (F.OPM_SLOT_CFG_MANUAL, [127], 1)] Slot.init), .pf 0,
      0x100007F, 127, ⟨by decide +kernel, by decide +kernel, by decide +kernel, by decide +kernel, by decide +kernel,
      fun _ => by decide +kernel⟩⟩,
    ⟨st (passing false false), ⟨127, 0, 0, false, 0⟩, by decide +kernel⟩,
    ⟨st (passing false true), ⟨127, 0, 0, true, 0⟩, by decide +kernel⟩,
    ⟨st (passing true true), ⟨127, 0, 0, true, 0⟩, by decide +kernel⟩,
    ⟨st (passing false true), ⟨127, 0, 0, true, 0⟩, by decide +kernel⟩⟩

theorem witness_TelemetryRecordsAndSnapshots :
    (∃ (s : State) (n : Fin 25) (x : Nat × Rec × Option (Nat × Nat)) (rest : List (Nat × Rec × Option (Nat × Nat))),
      pull (fun y => y.1 == n.val) s.dev.tel.traceWait = some (x, rest) ∧ s.dev.ringArmed x.2.1.ring = true ∧
      s.dev.traceFull n.val = false) ∧
    (∃ (s : State) (k : Fin 8) (n : Nat), s.dev.flag F.MST_TEL_CFG_EN [k.val] = true ∧ s.dev.clk.phase = .running ∧
      s.dev.headless = false ∧ s.dev.clk.frame % 2 ^ s.dev.getF F.MST_TEL_CFG_PERIOD_LOG2 [k.val] = 0 ∧
      s.dev.samplePending k.val = false ∧ n = s.dev.getF F.MST_TEL_CFG_COUNT [k.val] ∧ n < 128) ∧
    (∃ (s : State) (k : Fin 8), s.dev.flag F.MST_TEL_CFG_EN [k.val] = true ∧ s.dev.clk.phase = .running ∧
      s.dev.headless = false ∧ s.dev.clk.frame % 2 ^ s.dev.getF F.MST_TEL_CFG_PERIOD_LOG2 [k.val] = 0 ∧
      s.dev.samplePending k.val = true) ∧
    (∃ (s : State) (iss : Issuer) (v : BitVec 32), s.dev.lands iss .MST_SNAP_CTRL [] (v.toNat ||| 0x1) = true ∧
      s.dev.headless = false ∧ s.dev.flag F.MST_SNAP_STAT_BUSY = false ∧ bit v.toNat 15 = true) ∧
    (∃ (s : State) (iss : Issuer) (v : BitVec 32), s.dev.lands iss .MST_SNAP_CTRL [] (v.toNat ||| 0x1) = true ∧
      s.dev.headless = false ∧ s.dev.flag F.MST_SNAP_STAT_BUSY = true) ∧
    (∃ (s : State), s.dev.flag F.MST_SNAP_CTRL_AT_EN = true ∧ s.dev.getF F.MST_SNAP_AT_TIME ≤ s.dev.fabTime ∧
      s.dev.headless = false ∧ s.dev.flag F.MST_SNAP_STAT_BUSY = false ∧ s.dev.flag F.MST_SNAP_CTRL_RING_EN = true) ∧
    (∃ (s : State), s.dev.tel.snapPending = true ∧ s.dev.headless = false ∧ s.dev.flag F.MST_SNAP_CTRL_HALT_ALL =
      false) ∧
    (∃ (s : State) (t : Nat), s.dev.tel.snapPending = true ∧ s.dev.headless = false ∧ s.dev.flag
      F.MST_SNAP_CTRL_HALT_ALL = true ∧ t ∈ allTackles) ∧
    (∃ (s : State), s.dev.flag F.MST_SNAP_STAT_BUSY = true ∧ s.dev.headless = false ∧ s.dev.tel.snapEntries ≠ []) ∧
    (∃ (s : State), s.dev.flag F.MST_SNAP_STAT_BUSY = true ∧ s.dev.headless = false ∧ s.dev.tel.snapEntries = [] ∧
      s.dev.snapWaits = false) :=
  ⟨⟨st
      ({ on [(F.HST_RR_STAT_STATE, [0, 0, 0], 1)] with tel := { up.tel with traceWait := [(24, ⟨0, cmd [(0, 4, 32), (4, 1, 0x42)], none⟩, none)] } }),
      24, (24, ⟨0, cmd [(0, 4, 32), (4, 1, 0x42)], none⟩, none), [], ⟨rfl, by decide +kernel, by decide +kernel⟩⟩,
    ⟨st (on [(F.MST_TEL_CFG_EN, [7], 1), (F.MST_TEL_CFG_COUNT, [7], 127)]), 7, 127, by decide +kernel⟩,
    ⟨st
      ({ on [(F.MST_TEL_CFG_EN, [7], 1)] with host := { up.host with recs := [⟨0, cmd [(4, 1, 0x4A), (5, 1, 7)], none⟩] } }),
      7, by decide +kernel⟩,
    ⟨st up, .pf 0, 0x8000, by decide +kernel⟩,
    ⟨st (on [(F.MST_SNAP_STAT_BUSY, [], 1)]), .pf 0, 0x8000, by decide +kernel⟩,
    ⟨st (on [(F.MST_SNAP_CTRL_AT_EN, [], 1), (F.MST_SNAP_CTRL_RING_EN, [], 1)]), by decide +kernel⟩,
    ⟨st ({ on [] with tel := { up.tel with snapPending := true } }), by decide +kernel⟩,
    ⟨st ({ on [(F.MST_SNAP_CTRL_HALT_ALL, [], 1)] with tel := { up.tel with snapPending := true } }), 0x434F,
      by decide +kernel⟩,
    ⟨st ({ on [(F.MST_SNAP_STAT_BUSY, [], 1)] with tel := { up.tel with snapEntries := [List.replicate 32 0] } }),
      by decide +kernel⟩,
    ⟨st (on [(F.MST_SNAP_STAT_BUSY, [], 1)]), by decide +kernel⟩⟩

theorem witness_JtagPort :
    (∃ (s : State) (w : BitVec 120) (g : RegDesc) (i : List Nat), s.dev.clk.phase ≠ .off ∧ s.fuses.closed = false ∧
      s.dev.jtag.busy = false ∧ regAt (bits w.toNat 64 48) = some (g, i) ∧ g.width = (if bit w.toNat 113 then 64 else
      32) ∧ s.dev.reach g.reg i = .open ∧ bit w.toNat 112 = false ∧ g.reg ≠ .SEQ_STAT ∧ g.reg ≠ .LNE_RXEQ) ∧
    (∃ (s : State) (w : BitVec 120) (g : RegDesc) (t c : Nat), s.dev.clk.phase ≠ .off ∧ s.fuses.closed = false ∧
      s.dev.jtag.busy = false ∧ regAt (bits w.toNat 64 48) = some (g, [t, c]) ∧ g.reg = .SEQ_CTR ∧ g.width = 32 ∧ bit
      w.toNat 113 = false ∧ s.dev.reach .SEQ_CTR [t, c] = .open ∧ bit w.toNat 112 = true ∧ s.dev.mayWrite .jtag
      g.writer .SEQ_CTR [t, c] = true) ∧
    (∃ (s : State) (w : BitVec 120) (g : RegDesc) (i : List Nat), s.dev.clk.phase ≠ .off ∧ s.fuses.closed = false ∧
      s.dev.jtag.busy = false ∧ regAt (bits w.toNat 64 48) = some (g, i) ∧ g.width = (if bit w.toNat 113 then 64 else
      32) ∧ s.dev.reach g.reg i = .open ∧ bit w.toNat 112 = false) ∧
    (∃ (s : State), s.dev.clk.phase = .off) ∧
    (∃ (s : State), s.dev.clk.phase ≠ .off ∧ s.fuses.closed = true) ∧
    (∃ (s : State) (w : BitVec 120) (a n : Nat), s.dev.clk.phase ≠ .off ∧ s.fuses.closed = false ∧ s.dev.jtag.busy =
      false ∧ a = bits w.toNat 64 48 ∧ n = (if bit w.toNat 113 then 8 else 4) ∧ (placesOf a n).all memPlace = true ∧
      placesOf a n ≠ [] ∧ s.dev.memStopped a n = none ∧ s.dev.memServed a n = true ∧ bit w.toNat 112 = false) ∧
    (∃ (s : State) (w : BitVec 120) (a n : Nat), s.dev.clk.phase ≠ .off ∧ s.fuses.closed = false ∧ s.dev.jtag.busy =
      false ∧ a = bits w.toNat 64 48 ∧ n = (if bit w.toNat 113 then 8 else 4) ∧ (placesOf a n).all memPlace = true ∧
      placesOf a n ≠ [] ∧ s.dev.memStopped a n = none ∧ s.dev.memServed a n = true ∧ bit w.toNat 112 = true ∧
      (placesOf a n).all s.dev.jtagOwns = true) ∧
    (∃ (s : State) (x : List Byte) (rest : List (List Byte)), s.fuses.closed = false ∧ s.dev.tel.exportBuf = x ::
      rest) ∧
    (∃ (s : State), s.fuses.closed = false ∧ s.dev.tel.exportBuf = []) ∧
    (∃ (s : State) (g : Nat), s.fuses.closed = false ∧ 1 ≤ g ∧ g < 1520) ∧
    (∃ (s : State), s.dev.jtag.busy = true ∧ s.dev.jtag.access = none) :=
  ⟨⟨st up, BitVec.ofNat 120 (139638245163008 * 2 ^ 64 + 0 * 2 ^ 113 + 0 * 2 ^ 112 + 0), (descOf .MST_IDENT).get
      (by decide +kernel), [], by decide +kernel⟩,
    ⟨st up, BitVec.ofNat 120 (139639116550076 * 2 ^ 64 + 0 * 2 ^ 113 + 1 * 2 ^ 112 + 7), (descOf .SEQ_CTR).get
      (by decide +kernel), 0x434F, 15, by decide +kernel⟩,
    ⟨st up, BitVec.ofNat 120 (139638245163008 * 2 ^ 64), (descOf .MST_IDENT).get (by decide +kernel), [],
      by decide +kernel⟩,
    ⟨st (phase .off), by decide +kernel⟩,
    ⟨{ st up with fuses := { (st up).fuses with debugClosed := true } }, by decide +kernel⟩,
    ⟨st up, BitVec.ofNat 120 (0x10003BC00000 * 2 ^ 64 + 1 * 2 ^ 113 + 0 * 2 ^ 112 + 0), 0x10003BC00000, 8,
      by decide +kernel⟩,
    ⟨st up, BitVec.ofNat 120 (0x10003BC00000 * 2 ^ 64 + 1 * 2 ^ 113 + 1 * 2 ^ 112 + 7), 0x10003BC00000, 8,
      by decide +kernel⟩,
    ⟨st ({ up with tel := { up.tel with exportBuf := [List.replicate 32 1] } }), List.replicate 32 1, [],
      by decide +kernel⟩,
    ⟨st up, by decide +kernel⟩,
    ⟨st up, 1519, by decide +kernel⟩,
    ⟨st ({ up with jtag := { up.jtag with busy := true } }), by decide +kernel⟩⟩

theorem witness_PowerAndSensors :
    (∃ (s : State) (iss : Issuer) (k : Fin 4) (v : BitVec 32), s.dev.lands iss .PWR_SAIL_CTRL [k.val] v.toNat = true ∧
      8 ≤ bits v.toNat 0 4 ∧ bits v.toNat 0 4 ≤ 12 ∧ s.dev.flag F.PWR_SAIL_STAT_CHANGING [k.val] = false ∧ (s.dev.getF
      F.PWR_SAIL_STAT_RATIO [k.val] < bits v.toNat 0 4 → 560 + 30 * (bits v.toNat 0 4 - 8) ≤ s.dev.getF
      F.PWR_VSAIL_MV) ∧ bits v.toNat 0 4 ≠ s.dev.getF F.PWR_SAIL_STAT_RATIO [k.val]) ∧
    (∃ (s : State) (iss : Issuer) (k : Fin 4) (v : BitVec 32), s.dev.lands iss .PWR_SAIL_CTRL [k.val] v.toNat = true ∧
      (bits v.toNat 0 4 < 8 ∨ 12 < bits v.toNat 0 4 ∨ s.dev.flag F.PWR_SAIL_STAT_CHANGING [k.val] = true ∨ (s.dev.getF
      F.PWR_SAIL_STAT_RATIO [k.val] < bits v.toNat 0 4 ∧ s.dev.getF F.PWR_VSAIL_MV < 560 + 30 * (bits v.toNat 0 4 -
      8))) ∧ bits v.toNat 8 3 ≤ s.dev.getF F.PWR_SAIL_STAT_LEVEL [k.val]) ∧
    (∃ (s : State) (k : Fin 4) (r : Nat), nget? s.dev.pwr.ratio [k.val] = some (r, true) ∧ s.dev.dieOk (13 + k.val) =
      true ∧ (∀ g ∈ sailIslands k.val, s.dev.islandOn g = false) ∧ r < 16) ∧
    (∃ (s : State) (iss : Issuer) (k : Fin 4) (v : BitVec 32), s.dev.lands iss .PWR_SAIL_CTRL [k.val] v.toNat = true ∧
      bits v.toNat 0 4 = s.dev.getF F.PWR_SAIL_STAT_RATIO [k.val] ∧ 8 ≤ bits v.toNat 0 4 ∧ bits v.toNat 0 4 ≤ 12 ∧
      s.dev.flag F.PWR_SAIL_STAT_CHANGING [k.val] = false ∧ s.dev.dieOk (13 + k.val) = true ∧ s.dev.getF
      F.PWR_SAIL_STAT_LEVEL [k.val] < bits v.toNat 8 3) ∧
    (∃ (s : State) (l : List (BitVec 16)) (v : BitVec 16), l.length = 97 ∧ s.dev.vsailGood v.toNat ∧ s.dev.clk.phase ≠
      .off ∧ (s.dev.pwr.windows + 1) * ms 1 + us 200 ≤ s.dev.clk.now) ∧
    (∃ (s : State) (l : List (BitVec 16)) (a : Nat) (v : BitVec 16), l.length = 97 ∧ s.dev.vsailGood v.toNat ∧
      s.dev.clk.phase ≠ .off ∧ (s.dev.pwr.windows + 1) * ms 1 + us 200 ≤ s.dev.clk.now ∧ nget? s.dev.pwr.therm [0] =
      none ∧ 100 ≤ a ∧ a ≤ 1500000) ∧
    (∃ (s : State) (l : List (BitVec 16)) (v : BitVec 16) (k : Fin 4) (i : Fin 8), l.length = 97 ∧ s.dev.vsailGood
      v.toNat ∧ s.dev.clk.phase ≠ .off ∧ (s.dev.pwr.windows + 1) * ms 1 + us 200 ≤ s.dev.clk.now ∧ s.dev.levelLive
      k.val = true ∧ s.dev.getF F.PWR_SAIL_CTRL_FORCE [k.val] < 8 ∧ s.dev.getF F.PWR_SAIL_STAT_LEVEL [k.val] < 8 ∧
      toSigned 16 (s.dev.getF F.SNS_SAIL_THR_HI) ≤ (l.getD (49 + 8 * k.val + i.val) 0).toInt ∧ -640 ≤ (l.getD (49 + 8
      * k.val + i.val) 0).toInt ∧ (l.getD (49 + 8 * k.val + i.val) 0).toInt ≤ 2400) ∧
    (∃ (s : State) (l : List (BitVec 16)) (v : BitVec 16) (k : Fin 4), l.length = 97 ∧ s.dev.clk.phase = .running ∧
      (s.dev.pwr.windows + 1) * ms 1 + us 200 ≤ s.dev.clk.now ∧ s.dev.dieOk (13 + k.val) = true ∧ v.toNat + 30 <
      sailMin (s.dev.getF F.PWR_SAIL_STAT_RATIO [k.val])) ∧
    (∃ (s : State) (x : Fin 2), s.dev.clk.phase ≠ .off ∧ s.dev.flag F.SNS_REM_OPEN_NOW [x.val] = false ∧ nget?
      s.dev.pwr.therm [x.val] = none) ∧
    (∃ (s : State) (x : Fin 2) (t : Therm), s.dev.flag F.SNS_REM_OPEN_NOW [x.val] = true ∧ nget? s.dev.pwr.therm
      [x.val] = some t) :=
  ⟨⟨st (on [(F.PWR_VSAIL_MV, [], 700), (F.PWR_SAIL_STAT_RATIO, [3], 8)]), .pf 0, 3, 12, by decide +kernel⟩,
    ⟨st (on [(F.PWR_VSAIL_MV, [], 0), (F.PWR_SAIL_STAT_RATIO, [3], 8)]), .pf 0, 3, 12, by decide +kernel⟩,
    ⟨st
      ({ on [(F.MST_CLKON_ON, [41], 0), (F.MST_CLKON_ON, [42], 0), (F.MST_CLKON_ON, [43], 0)] with pwr := { up.pwr with ratio := [([3], (12, true))] } }),
      3, 12, by decide +kernel⟩,
    ⟨st (on [(F.PWR_SAIL_STAT_RATIO, [3], 12)]), .pf 0, 3, 0x70C, by decide +kernel⟩,
    ⟨st up, List.replicate 97 2400, 700, by decide +kernel⟩,
    ⟨st up, List.replicate 97 2400, 1500000, 700, by decide +kernel⟩,
    ⟨st up, List.replicate 97 2400, 700, 3, 7, by decide +kernel⟩,
    ⟨st up, List.replicate 97 2400, 100, 3, by decide +kernel⟩,
    ⟨st up, 1, by decide +kernel⟩,
    ⟨st ({ on [(F.SNS_REM_OPEN_NOW, [1], 1)] with pwr := { up.pwr with therm := [([1], ⟨0, none⟩)] } }), 1, ⟨0, none⟩,
      by decide +kernel⟩⟩

theorem witness_SlipsCrossingsLocksAndHandover :
    (∃ (s : State) (n : Fin 25), s.dev.clk.phase = .running ∧ s.dev.clk.frame % 256 = 0 ∧ 256 ≤ s.dev.clk.frame ∧
      s.dev.headless = false ∧ s.dev.dieOk n.val = true ∧ s.dev.flag F.MST_CLK_STAT_FRAME_SLIP = false) ∧
    (∃ (s : State) (g : Fin 1520) (k : Nat), s.dev.islandInReset g.val = true ∧ 0 < k ∧ s.dev.clk.held = [] ∧
      s.dev.clk.heldAper = []) ∧
    (∃ (s : State) (g : Fin 1520) (h : HeldAccess) (x : RegDesc) (t c : Nat), s.dev.islandStopped g.val = false ∧
      s.dev.clk.held = [h] ∧ s.dev.clk.heldAper = [] ∧ s.dev.jtag.access = none ∧ regIsland h.reg h.idx = g.val ∧
      h.reg = .SEQ_CTR ∧ h.idx = [t, c] ∧ h.write = true ∧ h.via = .plan ∧ descOf .SEQ_CTR = some x ∧ s.dev.mayWrite
      h.iss x.writer .SEQ_CTR [t, c] = true ∧ s.dev.reach .SEQ_CTR [t, c] = .open) ∧
    (∃ (s : State) (iss : Issuer) (v : BitVec 32), s.dev.lands iss .MST_LOCK [] v.toNat = true) ∧
    (∃ (s : State) (t : Fin 65536) (k die b : Nat) (sail : Bool) (r : Run), s.dev.executes t.val k 7 r ∧ bankOf (leAt
      r.cmd.bytes 8 6) = some (sail, die, b) ∧ (∀ c ∈ s.dev.bank.claims, c.run ≠ some (t.val, r.cmd.uid)) ∧
      s.dev.admits (s.dev.bankOwner sail die b) (r.writer t.val) = true) ∧
    (∃ (s : State) (t : Fin 65536) (k die b : Nat) (sail : Bool) (r : Run), s.dev.executes t.val k 7 r ∧ bankOf (leAt
      r.cmd.bytes 8 6) = some (sail, die, b) ∧ (∀ c ∈ s.dev.bank.claims, c.run ≠ some (t.val, r.cmd.uid)) ∧
      s.dev.admits (s.dev.bankOwner sail die b) (r.writer t.val) = false) :=
  ⟨⟨st up, 24, by decide +kernel⟩,
    ⟨st (on [(F.MST_CLKON_ON, [47], 0)]), 1519, 65536, by decide +kernel⟩,
    ⟨st ({ up with clk := { up.clk with held := [⟨.plan 3, .plan, true, .SEQ_CTR, [0x434F, 15], 7⟩] } }), 1382, ⟨.plan
      3, .plan, true, .SEQ_CTR, [0x434F, 15], 7⟩, (descOf .SEQ_CTR).get (by decide +kernel), 0x434F, 15,
      by decide +kernel⟩,
    ⟨st up, .pf 0, 31, by decide +kernel⟩,
    ⟨st (running (owned) 0x434B (run (cmd [(0, 1, 7), (4, 1, 0x10), (8, 6, 0x10003BC00000)]))), 0x434B, 3, 3, 79,
      true, run (cmd [(0, 1, 7), (4, 1, 0x10), (8, 6, 0x10003BC00000)]), by decide +kernel⟩,
    ⟨st (running (up) 0x434B (run (cmd [(0, 1, 7), (4, 1, 0x10), (8, 6, 0x10003BC00000)]))), 0x434B, 3, 3, 79, true,
      run (cmd [(0, 1, 7), (4, 1, 0x10), (8, 6, 0x10003BC00000)]), by decide +kernel⟩⟩

theorem witness_HeadersAreReadAsTheyWereWritten :
    (∃ (h : PktHdr), h.wf = true) ∧
    (∃ (l : List Byte), l.length = 32) ∧
    (∃ (h : FlitHdr), h.wf = true) ∧
    (∃ (c : CtrlField) (l : List Byte), c.lane < 16 ∧ c.arg < 16 ∧ c.seq < 256 ∧ l.length = 640) ∧
    (∃ (seq : Nat) (lanes : List Nat) (l : List Byte) (p : List (CtrlField × List Byte)), lanes.Pairwise (· < ·) ∧
      l.length = 640 * lanes.length ∧ p.Perm (layPeriod seq lanes l)) :=
  ⟨⟨{ PktHdr.zero with coll := 0x7FFF }, by decide +kernel⟩,
    ⟨List.replicate 32 0xFF, by decide +kernel⟩,
    ⟨⟨15, 3, 1, 1, 7, 255, 65535, 65535, 3, 65535⟩, by decide +kernel⟩,
    ⟨⟨15, .reserved 6, 15, 255⟩, List.replicate 640 0, by decide +kernel⟩,
    ⟨0, [0, 15], List.replicate 1280 1, (layPeriod 0 [0, 15] (List.replicate 1280 1)).reverse, by decide,
      by decide +kernel, List.reverse_perm _⟩⟩

theorem witness_MaximumAndMinimum :
    ∃ (n k : Bool) (m p : Nat) (e f : Int), (if n then -1 else 1) * (m : ℚ) * (2 : ℚ) ^ e < (if k then -1 else 1) * (p
      : ℚ) * (2 : ℚ) ^ f :=
  ⟨true, false, 1, 1, 0, 5, by decide +kernel⟩

theorem witness_ClockOnBits :
    (∃ (g : Nat), g < 1520) ∧
    (∃ (g h : Nat), g < 1520 ∧ h < 1520) ∧
    (∃ (g : Nat), g < 1520) :=
  ⟨⟨1519, by decide +kernel⟩,
    ⟨1519, 0, by decide +kernel⟩,
    ⟨1519, by decide +kernel⟩⟩

end Sys2Proof.Tests
end

section
/-!
What power-on reset leaves (R6, R94): the register file lists nothing, so every field reads the value of its Reset column.
-/
namespace Sys2Proof.Machine

theorem getF_reset (f : Field) (i : List Nat) : State.reset.dev.getF f i = f.reset i := rfl

theorem islandOn_reset (g : Nat) : State.reset.dev.islandOn g = false := by
  have hoff : State.reset.dev.getF F.MST_CLKON_ON [g / 32] = 0 := getF_reset _ _
  simp [Dev.islandOn, Dev.bitF, hoff, bit]

theorem bankOwner_reset (sail : Bool) (die b : Nat) : State.reset.dev.bankOwner sail die b = 0xFF := by
  cases sail <;> rfl

/-- Settles O60: every part of the state after reset is the empty one, and registers read their Reset column. -/
theorem stateAfterPowerOnReset : Obligations.StateAfterPowerOnReset := by
  refine ⟨getF_reset, ?empty, ?cause, ?values⟩
  case empty => exact ⟨rfl, rfl, rfl, rfl, rfl, rfl⟩
  case cause => exact ⟨rfl, fun g _ _ => islandOn_reset g⟩
  case values => exact fun s b => ⟨bankOwner_reset true s b, bankOwner_reset false s b, getF_reset _ _, getF_reset _ _, getF_reset _ _⟩

end Sys2Proof.Machine
end

section
/-!
Register descriptions: names are unique in the table, so the register found at an address is the one its name gives.
-/
namespace Sys2Proof.Machine

theorem descOf_of_mem {r : RegDesc} (h : r ∈ regDescs) : descOf r.reg = some r := by
  revert r; decide +kernel

theorem mem_of_findDesc {cls die o : Nat} {l : List RegDesc} {r : RegDesc} {idx : List Nat}
    (h : findDesc cls die o l = some (r, idx)) : r ∈ l := by
  induction l with
  | nil => simp [findDesc] at h
  | cons x t ih =>
    rw [findDesc] at h
    split at h
    · obtain ⟨rfl, -⟩ := by simpa using h
      exact List.mem_cons_self
    · exact List.mem_cons_of_mem _ (ih h)

/-- The description found at an address is the one its register's name gives. -/
theorem descOf_of_regAt {a : Nat} {r : RegDesc} {idx : List Nat} (h : regAt a = some (r, idx)) : descOf r.reg = some r := by
  unfold regAt at h
  split_ifs at h
  exact descOf_of_mem (mem_of_findDesc h)

end Sys2Proof.Machine
end

section
/-!
Bytes of memory after a write: those written read as written, every other byte as before.
-/
namespace Sys2Proof.Machine

theorem memGet_memWrite_in (l : List Byte) (m : List Host.Cell) (a i : Nat) (h : i < l.length) :
    memGet (memWrite m a l) (a + i) = l[i] := by
  induction l generalizing m a i with
  | nil => simp at h
  | cons b t ih =>
    rw [memWrite]
    cases i with
    | zero => rw [memGet_memWrite_out _ _ _ _ (by omega)]; exact memGet_memPut_same m a b
    | succ i =>
      have hi : i < t.length := by simpa using h
      rw [show a + (i + 1) = a + 1 + i by omega, ih _ _ _ hi]
      rfl

/-- An address inside the interval cut out is in no lost interval. -/
theorem lostAt_cutOut_in (a e c : Nat) (l : List (Nat × Nat × Nat)) (h1 : a ≤ c) (h2 : c < e) : lostAt c (cutOut a e l) = none := by
  induction l with
  | nil => rfl
  | cons x t ih =>
    obtain ⟨lo, hi, g⟩ := x
    rw [cutOut]
    split_ifs <;> simp [lostAt, ih] <;> grind

/-- Cutting an interval out leaves every address outside it as it was. -/
theorem lostAt_cutOut_out (a e c : Nat) (l : List (Nat × Nat × Nat)) (h : ¬(a ≤ c ∧ c < e)) : lostAt c (cutOut a e l) = lostAt c l := by
  induction l with
  | nil => rfl
  | cons x t ih =>
    obtain ⟨lo, hi, g⟩ := x
    rw [cutOut, lostAt]
    split_ifs <;> simp [lostAt, ih] <;> grind

theorem write_byte_in (d : Dev) (a : Nat) (l : List Byte) (i : Nat) (h : i < l.length) : (d.write a l).byte (a + i) = l[i] := by
  simp [Dev.byte, Dev.write, lostAt_cutOut_in a (a + l.length) (a + i) d.bank.lost (by omega) (by omega),
    memGet_memWrite_in l d.mem a i h]

theorem write_byte_out (d : Dev) (a : Nat) (l : List Byte) (c : Nat) (h : ¬(a ≤ c ∧ c < a + l.length)) :
    (d.write a l).byte c = d.byte c := by
  simp [Dev.byte, Dev.write, lostAt_cutOut_out _ _ _ d.bank.lost h, memGet_memWrite_out l d.mem a c h]

end Sys2Proof.Machine
end

section
/-!
Power saving, held accesses and byte counts of an access to memory (R22, R359, R360), and what a read of a register may change:
none of it moves a byte of memory or sends anything outside.
-/
namespace Sys2Proof.Machine

/-- Memory's cells, the lost intervals and what has left the device stand in `d'` as in `d`. -/
structure KeepsBytes (d d' : Dev) : Prop where
  mem : d'.mem = d.mem
  lost : d'.bank.lost = d.bank.lost
  out : d'.out = d.out

theorem KeepsBytes.refl (d : Dev) : KeepsBytes d d := ⟨rfl, rfl, rfl⟩

theorem KeepsBytes.trans {a b c : Dev} (h : KeepsBytes a b) (k : KeepsBytes b c) : KeepsBytes a c :=
  ⟨k.mem.trans h.mem, k.lost.trans h.lost, k.out.trans h.out⟩

theorem KeepsBytes.sameMem {d d' : Dev} (h : KeepsBytes d d') : SameMem d d' := sameMem_of h.mem h.lost

/-- Writing a register moves no byte. -/
theorem KeepsBytes.setF {d d' : Dev} (h : KeepsBytes d d') (f : Field) (i : List Nat) (v : Nat) : KeepsBytes d (d'.setF f i v) :=
  ⟨h.mem, h.lost, h.out⟩

theorem wakeStack_keepsBytes (d : Dev) (n : Nat) : KeepsBytes d (d.wakeStack n) := by
  unfold Dev.wakeStack
  dsimp only
  split_ifs <;> exact ⟨rfl, rfl, rfl⟩

theorem wakeBank_keepsBytes (d : Dev) (sail : Bool) (die b : Nat) : KeepsBytes d (d.wakeBank sail die b) := by
  unfold Dev.wakeBank
  split_ifs <;> exact ⟨rfl, rfl, rfl⟩

theorem wake_keepsBytes (d : Dev) (p : Place) : KeepsBytes d (d.wake p) := by
  cases p with
  | stack n => exact wakeStack_keepsBytes d n
  | sail s b => exact wakeBank_keepsBytes d true s b
  | base n b => exact wakeBank_keepsBytes d false n b
  | _ => exact .refl d

theorem meet_keepsBytes (d : Dev) (p : Place) : KeepsBytes d (d.meet p) := by
  unfold Dev.meet
  split_ifs <;> exact ⟨rfl, rfl, rfl⟩

theorem countRead_keepsBytes (d : Dev) (p : Place) (a n : Nat) : KeepsBytes d (d.countRead p a n) := by
  cases p <;> exact ⟨rfl, rfl, rfl⟩

theorem countWrite_keepsBytes (d : Dev) (a n : Nat) : KeepsBytes d (d.countWrite a n) := by
  unfold Dev.countWrite
  split <;> exact ⟨rfl, rfl, rfl⟩

theorem load_keepsBytes (d : Dev) (a n : Nat) : KeepsBytes d (d.load a n).2 := by
  have go (l : List Place) (d : Dev) : KeepsBytes d (l.foldl (fun d p => ((d.wake p).countRead p a n).meet p) d) := by
    induction l generalizing d with
    | nil => exact .refl d
    | cons p t ih =>
      exact (((wake_keepsBytes d p).trans (countRead_keepsBytes _ p a n)).trans (meet_keepsBytes _ p)).trans (ih _)
  exact go _ d

theorem rxeqWord_keepsBytes (d : Dev) (i : List Nat) : KeepsBytes d (d.rxeqWord i).2 := by
  unfold Dev.rxeqWord
  dsimp only
  split_ifs <;> exact ⟨rfl, rfl, rfl⟩

/-- Reading a register moves no byte of memory. -/
theorem regWord_keepsBytes (d : Dev) (r : RegName) (idx : List Nat) : KeepsBytes d (d.regWord r idx).2 := by
  unfold Dev.regWord
  split
  case h_4 => exact rxeqWord_keepsBytes d idx -- LNE_RXEQ, whose settings move while its receiver adapts
  all_goals exact ⟨rfl, rfl, rfl⟩

/-- A store that lies inside one stack writes its bytes and moves no other. -/
theorem store_stack (d : Dev) (w : Writes) (a k : Nat) (l : List Byte) (hk : place a = .stack k) (hl : 0 < l.length)
    (he : a + l.length ≤ (k + 1) * 0xC00000000) :
    ∃ d1, KeepsBytes d d1 ∧ KeepsBytes (d1.write a l) (d.store w a l).1 := by
  refine ⟨(d.wake (place a)).meet (place a), (wake_keepsBytes d _).trans (meet_keepsBytes _ _), ?_⟩
  have hmin : min l.length (placeEnd a - a) = l.length := by
    simp only [placeEnd, hk]; omega
  have hne : l.isEmpty = false := by cases l <;> simp_all
  have hstep : (d.store w a l).1 = (((d.wake (place a)).meet (place a)).write a l).countWrite a l.length := by
    simp [Dev.store, Dev.storePieces, hne, hmin, hk, Dev.placeAdmits]
  rw [hstep]
  exact countWrite_keepsBytes _ a l.length

end Sys2Proof.Machine
end

section
/-!
The way of a PF's access through its host port (R5, R120, R121): with nothing waiting at the port it goes straight to BAR0 or to
the aperture.
-/
namespace Sys2Proof.Machine

/-- A command that makes a device equal to `d` completes with what holds of `d`. -/
theorem completes_of_eq {i : Instr} {s : State} {c d : Dev} {P : Dev → Prop} (h : exec i s = .next { s with dev := c })
    (hd : c = d) (hp : P d) : Completes i s P := completes_of_exec h (hd ▸ hp)

/-- A write that lands finds its issuer's port clear. -/
theorem portClear_of_lands {d : Dev} {iss : Issuer} {r : RegName} {idx : List Nat} {v : Nat} (h : d.lands iss r idx v = true) :
    d.portClear iss = true := by
  unfold Dev.lands at h
  split at h
  · simp only [Bool.and_eq_true] at h
    obtain ⟨⟨⟨⟨hclear, -⟩, -⟩, -⟩, -⟩ := h
    exact hclear
  · exact absurd h (by decide)

theorem hostIss_pf (x : Fin 4) : hostIss x.val 0 = .pf x := by
  simp [hostIss]

/-- With the port running and nothing waiting at it, an access that need not be held is carried out. -/
theorem hostAccess_of_portClear (d : Dev) (fz : Fuses) (x : Fin 4) (p : Posted) (hc : d.portClear (.pf x) = true)
    (hp : d.postedHeld x.val p = false) : d.hostAccess fz x.val 0 p = d.hostDo fz x.val p := by
  obtain ⟨hr, hq⟩ : d.fnRuns x.val 0 = true ∧ (nget [] d.host.posted [x.val]).isEmpty = true := by
    simpa only [Dev.portClear, Bool.and_eq_true] using hc
  simp [Dev.hostAccess, hr, hq, hp]

/-- A PF's BAR0 access below 16 MiB is one of the Mast block's registers. -/
theorem registerWrite_completes {s : State} {x : Fin 4} {off : Nat} {acc : HostAcc} {P : Dev → Prop} (hok : acc.ok = true)
    (hlen : acc.len ≤ 4096) (hoff : off < 0x1000000) (hc : s.dev.portClear (.pf x) = true)
    (hP : P (s.dev.mmioReg s.fuses x.val 0 (mastBlock + off) acc)) : Completes (.registerWrite x 0 off acc) s P := by
  refine completes_of_updIf rfl ?_ ?_
  · simp [HostAcc.inside, hok, bar0Size]; omega
  · have hheld : s.dev.postedHeld x.val (.mem 0 0 off acc) = false := by cases acc <;> rfl
    simpa [hostAccess_of_portClear _ _ _ _ hc hheld, Dev.hostDo, Dev.bar0Access, hoff] using hP

/-- A PF's BAR4 access goes to the aperture. -/
theorem hostAccess_aperture_read (d : Dev) (fz : Fuses) (x : Fin 4) (off n : Nat) (hc : d.portClear (.pf x) = true) :
    d.hostAccess fz x.val 0 (.mem 0 4 off (.read n)) = d.aperture x.val off false [] n := by
  rw [hostAccess_of_portClear _ _ _ _ hc rfl, Dev.hostDo, if_neg (by decide), if_neg (by decide)]

theorem hostAccess_aperture_write (d : Dev) (fz : Fuses) (x : Fin 4) (off : Nat) (l : List Byte) (hc : d.portClear (.pf x) = true) :
    d.hostAccess fz x.val 0 (.mem 0 4 off (.write l)) = d.aperture x.val off true l l.length := by
  rw [hostAccess_of_portClear _ _ _ _ hc rfl, Dev.hostDo, if_neg (by decide), if_neg (by decide)]

/-- An access of another width than the register's, or where no register starts, is refused (R5). -/
theorem mmioReg_refused (d : Dev) (fz : Fuses) (x a : Nat) (acc : HostAcc)
    (h : ∀ r idx, regAt a = some (r, idx) → 8 * acc.len ≠ r.width) : d.mmioReg fz x 0 a acc = d.accessErr x acc := by
  unfold Dev.mmioReg
  split
  next r idx hr => rw [if_neg (h r idx hr)]
  next => rfl

/-- A write whose landing is open has the register's effect (R7). -/
theorem landWrite_of_lands {d : Dev} {iss : Issuer} {x : RegDesc} {idx : List Nat} {v : Nat} (fz : Fuses)
    (hx : descOf x.reg = some x) (h : d.lands iss x.reg idx v = true) :
    v < 2 ^ x.width ∧ d.landWrite fz iss x idx v = d.regEffect fz iss x.reg idx v := by
  simp only [Dev.lands, hx, Bool.and_eq_true, decide_eq_true_eq] at h
  obtain ⟨⟨⟨⟨-, hm⟩, hr⟩, hv⟩, hu⟩ := h
  exact ⟨hv, landWrite_open d fz iss x idx v hm hr hv hu⟩

/-- Setting a flag sets it and touches nothing else. -/
theorem raise_only (d : Dev) (f : Field) (i : List Nat) (hw : f.w = 1) :
    (d.raise f i).flag f i = true ∧ SameRegs d (d.raise f i) [(f, i)] ∧ OnlyRegs d (d.raise f i) :=
  ⟨flag_raise d f i hw, sameRegs_setF List.mem_cons_self (sameRegs_refl d _), rfl⟩

end Sys2Proof.Machine
end

section
/-!
BAR0 (R5, R118, R120, R125).
-/
namespace Sys2Proof.Machine

variable {s : State} {x : Fin 4} {off : Nat}

theorem completes_write_recordRingBase {q : Fin 16} {bytes : List (BitVec 8)} {r : RegDesc} (hreg : r.reg = .HST_RR_BASE)
    (hw : r.width = 64) (hoff : off < 0x1000000) (hat : regAt (mastBlock + off) = some (r, [x.val, 0, q.val]))
    (hlen : bytes.length = 8) (hl : s.dev.lands (.pf x) .HST_RR_BASE [x.val, 0, q.val] (ofLE bytes) = true) :
    Completes (.registerWrite x 0 off (.write bytes)) s (fun d => d.getF F.HST_RR_BASE_BASE [x.val, 0, q.val] = ofLE bytes ∧
      SameRegs s.dev d [(F.HST_RR_BASE_BASE, [x.val, 0, q.val])] ∧ OnlyRegs s.dev d) := by
  obtain ⟨hv, hland⟩ := landWrite_of_lands s.fuses (descOf_of_regAt hat) (hreg ▸ hl)
  rw [hw] at hv
  have heff : s.dev.mmioReg s.fuses x.val 0 (mastBlock + off) (.write bytes)
      = s.dev.setF F.HST_RR_BASE_BASE [x.val, 0, q.val] (bits (ofLE bytes) 0 64) := by
    simp only [Dev.mmioReg, hat, HostAcc.len, hlen, hw, hostIss_pf, hland, hreg]
    rfl
  refine registerWrite_completes (by simp [HostAcc.ok, hlen]) (by simp [HostAcc.len, hlen]) hoff (portClear_of_lands hl) ?_
  rw [heff]
  refine ⟨?_, sameRegs_setF List.mem_cons_self (sameRegs_refl _ _), rfl⟩
  rw [getF_setF_same, show F.HST_RR_BASE_BASE.w = 64 from rfl, bits]
  omega

theorem completes_write_refused {bytes : List (BitVec 8)} (hoff : off < 0x1000000) (h0 : 0 < bytes.length) (h1 : bytes.length ≤ 512)
    (hc : s.dev.portClear (.pf x) = true) (hbad : ∀ r idx, regAt (mastBlock + off) = some (r, idx) → 8 * bytes.length ≠ r.width) :
    Completes (.registerWrite x 0 off (.write bytes)) s (fun d => d.flag F.HST_PORT_ERR_ACCESS_ERR [x.val] = true ∧
      SameRegs s.dev d [(F.HST_PORT_ERR_ACCESS_ERR, [x.val])] ∧ OnlyRegs s.dev d) := by
  refine registerWrite_completes (by simp [HostAcc.ok, h0, h1]) (by simp only [HostAcc.len]; omega) hoff hc ?_
  rw [mmioReg_refused _ _ _ _ _ hbad]
  exact raise_only s.dev _ _ rfl

theorem completes_read_refused {n : Nat} (hoff : off < 0x1000000) (h0 : 0 < n) (h1 : n ≤ 4096)
    (hc : s.dev.portClear (.pf x) = true) (hbad : ∀ r idx, regAt (mastBlock + off) = some (r, idx) → 8 * n ≠ r.width) :
    Completes (.registerWrite x 0 off (.read n)) s (fun d => d.flag F.HST_PORT_ERR_ACCESS_ERR [x.val] = true ∧
      d.out = s.dev.out ++ [.mmio x.val 0] ∧ SameRegs s.dev d [(F.HST_PORT_ERR_ACCESS_ERR, [x.val])] ∧ SameMem s.dev d) := by
  refine registerWrite_completes (by simp [HostAcc.ok, h0, h1]) h1 hoff hc ?_
  rw [mmioReg_refused _ _ _ _ _ hbad]
  obtain ⟨hflag, hregs, -⟩ := raise_only s.dev F.HST_PORT_ERR_ACCESS_ERR [x.val] rfl
  exact ⟨hflag, rfl, hregs, fun _ => rfl⟩

theorem completes_read_register {n : Nat} {r : RegDesc} {idx : List Nat} (hoff : off < 0x1000000)
    (hat : regAt (mastBlock + off) = some (r, idx)) (hw : 8 * n = r.width) (h0 : 0 < n) (h1 : n ≤ 4096)
    (hc : s.dev.portClear (.pf x) = true) (hr : s.dev.reach r.reg idx = .open) :
    Completes (.registerWrite x 0 off (.read n)) s
      (fun d => d = (s.dev.regWord r.reg idx).2.emit (.mmio x.val (s.dev.regWord r.reg idx).1)) := by
  refine registerWrite_completes (by simp [HostAcc.ok, h0, h1]) h1 hoff hc ?_
  simp [Dev.mmioReg, hat, HostAcc.len, hw, hr]

end Sys2Proof.Machine
end

section
/-!
The aperture (R121).
-/
namespace Sys2Proof.Machine

/-- An access that R121 allows, at islands none of which is stopped, is carried out; a write that it answers with ACCESS_ERR sets
that bit. The two tests are variables of a lemma apart when the matches on them are met: the kernel, left to compare two such
matches, would evaluate the tests. -/
theorem aperture_spec {d : Dev} {x o a n : Nat} {write : Bool} {l : List Byte}
    (ha : a = d.getF F.HST_APER_BASE_BASE [x] * 2 ^ 36 + o) :
    (d.aperRefused x a n write = none → d.memStopped a n = none → d.aperture x o write l n = d.aperDo x a write l n) ∧
      (d.aperRefused x a n write = some false → write = true → d.aperture x o write l n = d.raise F.HST_PORT_ERR_ACCESS_ERR [x]) := by
  generalize haper : Dev.aperture = aperture
  delta Dev.aperture at haper
  generalize Dev.aperRefused = refused at haper ⊢
  generalize Dev.memStopped = stopped at haper ⊢
  as_aux_lemma =>
    rw [← haper]
    beta_reduce
    rw [← ha]
    exact ⟨fun hok hst => by simp only [hok, hst], fun hno hw => by subst hw; simp [hno]⟩

variable {s : State} {x : Fin 4} {off a : Nat}

theorem completes_apertureRead {n : Nat} (h0 : 0 < n) (h1 : n ≤ 4096) (hin : off + n ≤ bar4Size)
    (ha : a = s.dev.getF F.HST_APER_BASE_BASE [x.val] * 2 ^ 36 + off) (hc : s.dev.portClear (.pf x) = true)
    (hok : s.dev.aperRefused x.val a n false = none) (hst : s.dev.memStopped a n = none) (hsv : s.dev.memServed a n = true) :
    Completes (.apertureRead x off n) s (fun d => d.out = s.dev.out ++ [.mmio x.val (ofLE (s.dev.read a n))] ∧ SameMem s.dev d) := by
  refine completes_of_updIf rfl (by simp [HostAcc.inside, HostAcc.ok, HostAcc.len, h0, h1, hin]) ?_
  have hdo : s.dev.aperDo x.val a false [] n = (s.dev.load a n).2.emit (.mmio x.val (ofLE (s.dev.read a n))) := by
    rw [Dev.aperDo, if_neg (by decide), if_pos hsv]; rfl
  rw [hostAccess_aperture_read _ _ _ _ _ hc, (aperture_spec ha).1 hok hst, hdo]
  obtain ⟨hmem, hlost, hout⟩ := load_keepsBytes s.dev a n
  exact ⟨congrArg (· ++ [_]) hout, sameMem_of hmem hlost⟩

theorem completes_apertureWrite {k : Nat} {bytes : List (BitVec 8)} (h0 : 0 < bytes.length) (h1 : bytes.length ≤ 512)
    (hin : off + bytes.length ≤ bar4Size) (ha : a = s.dev.getF F.HST_APER_BASE_BASE [x.val] * 2 ^ 36 + off)
    (hk : place a = .stack k) (hend : a + bytes.length ≤ (k + 1) * 0xC00000000) (hc : s.dev.portClear (.pf x) = true)
    (hok : s.dev.aperRefused x.val a bytes.length true = none) (hst : s.dev.memStopped a bytes.length = none)
    (hsv : s.dev.memServed a bytes.length = true) :
    Completes (.apertureWrite x off bytes) s
      (fun d => (∀ i (h : i < bytes.length), d.byte (a + i) = bytes[i]) ∧ SameMemBut s.dev d a bytes.length) := by
  refine completes_of_updIf rfl (by simp [HostAcc.inside, HostAcc.ok, HostAcc.len, h0, h1, hin]) ?_
  rw [hostAccess_aperture_write _ _ _ _ _ hc, (aperture_spec ha).1 hok hst, Dev.aperDo, if_pos rfl, if_pos hsv]
  obtain ⟨d1, hbefore, hafter⟩ := store_stack s.dev (.aperture x.val) a k bytes hk h0 hend
  refine ⟨fun i hi => ?_, fun b hb => ?_⟩
  · rw [hafter.sameMem, write_byte_in _ _ _ _ hi]
  · rw [hafter.sameMem, write_byte_out _ _ _ _ hb, hbefore.sameMem]

theorem completes_apertureWrite_refused {bytes : List (BitVec 8)} (h0 : 0 < bytes.length) (h1 : bytes.length ≤ 512)
    (hin : off + bytes.length ≤ bar4Size) (ha : a = s.dev.getF F.HST_APER_BASE_BASE [x.val] * 2 ^ 36 + off)
    (hc : s.dev.portClear (.pf x) = true) (hno : s.dev.aperRefused x.val a bytes.length true = some false) :
    Completes (.apertureWrite x off bytes) s (fun d => d.flag F.HST_PORT_ERR_ACCESS_ERR [x.val] = true ∧
      SameRegs s.dev d [(F.HST_PORT_ERR_ACCESS_ERR, [x.val])] ∧ OnlyRegs s.dev d) := by
  refine completes_of_updIf rfl (by simp [HostAcc.inside, HostAcc.ok, HostAcc.len, h0, h1, hin]) ?_
  rw [hostAccess_aperture_write _ _ _ _ _ hc, (aperture_spec ha).2 hno rfl]
  exact raise_only s.dev _ _ rfl

end Sys2Proof.Machine
end

section
/-!
The indirect window (R122).
-/
namespace Sys2Proof.Machine

variable {s : State} {x : Fin 4} {iss : Issuer}

/-- What the control word of IND_ACCESS_GO does. -/
theorem indCtrl_goWord (d : Dev) (iss : Issuer) (x : Nat) (write size64 : Bool) :
    d.indCtrl iss x (indGoWord write size64) = d.indGo iss x write size64 := by
  cases write <;> cases size64 <;> rfl

theorem indCtrl_abortWord (d : Dev) (iss : Issuer) (x : Nat) : d.indCtrl iss x 8 = d.indAbort x := rfl

/-- The end of an indirect access: BUSY falls, STATUS tells and the access is gone; no other register and no byte of
memory moves. -/
theorem indEnd_spec (d : Dev) (x : Nat) (st : Status) :
    (d.indEnd x st).flag F.HST_IND_STAT_BUSY [x] = false ∧ (d.indEnd x st).getF F.HST_IND_STAT_STATUS [x] = st.code ∧
      nget? (d.indEnd x st).host.ind [x] = none ∧
      SameRegs d (d.indEnd x st) [(F.HST_IND_STAT_BUSY, [x]), (F.HST_IND_STAT_STATUS, [x])] ∧ KeepsBytes d (d.indEnd x st) := by
  have hcode : st.code % 2 ^ F.HST_IND_STAT_STATUS.w = st.code := by cases st <;> rfl
  refine ⟨?busy, ?status, nget?_ndel_same _ _, ?regs, ⟨rfl, rfl, rfl⟩⟩
  case busy =>
    have hkeep := getF_setF_ne (d.clear F.HST_IND_STAT_BUSY [x]) F.HST_IND_STAT_STATUS F.HST_IND_STAT_BUSY [x] [x] st.code (by decide)
    exact (congrArg (· == 1) hkeep).trans (flag_clear d _ _)
  case status => exact (getF_setF_same (d.clear F.HST_IND_STAT_BUSY [x]) _ _ _).trans hcode
  case regs =>
    have hbusy : SameRegs d (d.clear F.HST_IND_STAT_BUSY [x]) [(F.HST_IND_STAT_BUSY, [x]), (F.HST_IND_STAT_STATUS, [x])] :=
      sameRegs_setF (.head _) (sameRegs_refl d _)
    exact sameRegs_setF (.tail _ (.head _)) hbusy

theorem completes_indAccessGo {write size64 : Bool} (hl : s.dev.lands iss .HST_IND_CTRL [x.val] (indGoWord write size64) = true)
    (hb : s.dev.flag F.HST_IND_STAT_BUSY [x.val] = false) :
    Completes (.indAccessGo iss x write size64) s (fun d => d.flag F.HST_IND_STAT_BUSY [x.val] = true ∧
      nget? d.host.ind [x.val] = some ⟨iss, s.dev.getF F.HST_IND_ADDR_ADDR [x.val], s.dev.getF F.HST_IND_DATA_DATA [x.val], write, size64⟩ ∧
      SameRegs s.dev d [(F.HST_IND_STAT_BUSY, [x.val])] ∧ SameMem s.dev d) := by
  refine completes_of_eq rfl ((regRow_lands _ _ _ _ _ _ hl).trans (indCtrl_goWord _ _ _ _ _)) ?_
  obtain ⟨hflag, hregs, -⟩ := raise_only s.dev F.HST_IND_STAT_BUSY [x.val] rfl
  rw [Dev.indGo, if_neg (by simpa [ix] using hb)]
  exact ⟨hflag, nget?_nset_same _ _ _, hregs, fun _ => rfl⟩

theorem completes_indAccessComplete_read {a : IndAcc} {r : RegDesc} {idx : List Nat} (hind : nget? s.dev.host.ind [x.val] = some a)
    (hread : a.write = false) (hrun : s.dev.portRuns x.val = true) (hat : regAt a.addr = some (r, idx))
    (hw : (if a.size64 then 64 else 32) = r.width) (hr : s.dev.reach r.reg idx = .open) :
    Completes (.indAccessComplete x) s (fun d => d.flag F.HST_IND_STAT_BUSY [x.val] = false ∧ d.getF F.HST_IND_STAT_STATUS [x.val] = 0 ∧
      nget? d.host.ind [x.val] = none ∧ d.getF F.HST_IND_DATA_DATA [x.val] = (s.dev.regWord r.reg idx).1 % 2 ^ 64 ∧ SameMem s.dev d) := by
  have hdo : s.dev.indComplete s.fuses x.val
      = ((s.dev.regWord r.reg idx).2.setF F.HST_IND_DATA_DATA [x.val] (s.dev.regWord r.reg idx).1).indEnd x.val .ok := by
    simp [Dev.indComplete, hind, hread, hrun, hat, hw, hr]
  refine completes_of_eq rfl hdo ?_
  obtain ⟨hbusy, hstatus, hgone, hregs, hbytes⟩ :=
    indEnd_spec ((s.dev.regWord r.reg idx).2.setF F.HST_IND_DATA_DATA [x.val] (s.dev.regWord r.reg idx).1) x.val .ok
  refine ⟨hbusy, hstatus, hgone, ?data, (((regWord_keepsBytes _ _ _).setF _ _ _).trans hbytes).sameMem⟩
  case data =>
    have hkeep := hregs F.HST_IND_DATA_DATA [x.val] (by simp [F.HST_IND_DATA_DATA, F.HST_IND_STAT_BUSY, F.HST_IND_STAT_STATUS])
    exact hkeep.trans (getF_setF_same _ _ _ _)

/-- ABORT while BUSY: the access ends with ABORTED and IND_ABORT tells; of the rest only the list of held accesses moves. -/
theorem indAbort_busy (d : Dev) (x : Nat) (hb : d.flag F.HST_IND_STAT_BUSY [x] = true) :
    ∃ held, d.indAbort x = ({ d with clk := { d.clk with held := held } }.indEnd x .aborted).raise F.HST_PORT_ERR_IND_ABORT [x] := by
  rw [Dev.indAbort, if_pos hb]
  exact ⟨_, rfl⟩

theorem completes_indAccessAbort (hl : s.dev.lands iss .HST_IND_CTRL [x.val] 8 = true)
    (hb : s.dev.flag F.HST_IND_STAT_BUSY [x.val] = true) :
    Completes (.indAccessAbort iss x) s (fun d => d.flag F.HST_IND_STAT_BUSY [x.val] = false ∧ d.getF F.HST_IND_STAT_STATUS [x.val] = 13 ∧
      nget? d.host.ind [x.val] = none ∧ d.flag F.HST_PORT_ERR_IND_ABORT [x.val] = true ∧
      SameRegs s.dev d [(F.HST_IND_STAT_BUSY, [x.val]), (F.HST_IND_STAT_STATUS, [x.val]), (F.HST_PORT_ERR_IND_ABORT, [x.val])] ∧
      SameMem s.dev d) := by
  obtain ⟨held, habort⟩ := indAbort_busy s.dev x.val hb
  refine completes_of_eq rfl (((regRow_lands _ _ _ _ _ _ hl).trans (indCtrl_abortWord _ _ _)).trans habort) ?_
  obtain ⟨hbusy, hstatus, hgone, hregs, hbytes⟩ :=
    indEnd_spec { s.dev with clk := { s.dev.clk with held := held } } x.val .aborted
  refine ⟨?busy, ?status, hgone, flag_raise _ _ _ rfl, ?regs, ?mem⟩
  case busy => exact (congrArg (· == 1) (getF_setF_ne _ _ _ _ _ _ (by decide))).trans hbusy
  case status => exact (getF_setF_ne _ _ _ _ _ _ (by decide)).trans hstatus
  case regs =>
    refine sameRegs_setF (.tail _ (.tail _ (.head _))) fun f i hf => hregs f i fun e he => hf e ?_
    exact List.mem_append_left [_] he
  case mem => exact (KeepsBytes.setF ⟨hbytes.mem, hbytes.lost, hbytes.out⟩ _ _ _).sameMem

end Sys2Proof.Machine
end

section
namespace Sys2Proof.Machine

/-- Settles O13: every clause holds, each by the lemma above for its access. -/
theorem hostRegisterAndApertureAccesses : Obligations.HostRegisterAndApertureAccesses := by
  refine ⟨?writeBase, ?writeWidth, ?writeReserved, ?readRefused, ?readRegister, ?aperRead, ?aperWrite, ?aperRefused, ?indGo,
    ?indComplete, ?indAbort⟩
  case writeBase => exact fun s x q off bytes r hreg hw hoff hat hlen hl => completes_write_recordRingBase hreg hw hoff hat hlen hl
  case writeWidth =>
    intro s x off bytes r idx hoff hat h0 h1 hw hc
    refine completes_write_refused hoff h0 h1 hc fun r' idx' hat' => ?_
    obtain ⟨rfl, -⟩ := Prod.mk.inj (Option.some.inj (hat.symm.trans hat'))
    exact hw
  case writeReserved =>
    intro s x off bytes hoff hat h0 h1 hc
    exact completes_write_refused hoff h0 h1 hc fun r idx hat' => absurd (hat.symm.trans hat') (by simp)
  case readRefused => exact fun s x off n hoff h0 h1 hc hbad => completes_read_refused hoff h0 h1 hc hbad
  case readRegister => exact fun s x off n r idx hoff hat hw h0 h1 hc hr => completes_read_register hoff hat hw h0 h1 hc hr
  case aperRead => exact fun s x off n a h0 h1 hin ha hc hok hst hsv => completes_apertureRead h0 h1 hin ha hc hok hst hsv
  case aperWrite =>
    exact fun s x off a k bytes h0 h1 hin ha hk hend hc hok hst hsv => completes_apertureWrite h0 h1 hin ha hk hend hc hok hst hsv
  case aperRefused => exact fun s x off a bytes h0 h1 hin ha hc hno => completes_apertureWrite_refused h0 h1 hin ha hc hno
  case indGo => exact fun s iss x write size64 hl hb => completes_indAccessGo hl hb
  case indComplete =>
    exact fun s x a r idx hind hread hrun hat hw hr => completes_indAccessComplete_read hind hread hrun hat hw hr
  case indAbort => exact fun s iss x hl hb => completes_indAccessAbort hl hb

end Sys2Proof.Machine
end

section
/-!
Packet and flit headers (R173, R191): numbers read back from their bytes, and fields from their word.
-/
namespace Sys2Proof

theorem ofLE_lt (l : List Byte) : ofLE l < 256 ^ l.length := by
  induction l with
  | nil => simp [ofLE]
  | cons b t ih =>
    have hb := b.isLt
    rw [ofLE, List.length_cons, Nat.pow_succ]
    omega

/-- Bytes are those of the number that they spell. -/
theorem leBytes_ofLE (l : List Byte) : leBytes l.length (ofLE l) = l := by
  induction l with
  | nil => rfl
  | cons b t ih =>
    have hb := b.isLt
    have hlow : (b.toNat + 256 * ofLE t) % 256 = b.toNat := by omega
    have hhigh : (b.toNat + 256 * ofLE t) / 256 = ofLE t := by omega
    rw [List.length_cons, leBytes, ofLE, hlow, hhigh, ih]
    simp

theorem leBytes_leAt (l : List Byte) (o k : Nat) (h : o + k ≤ l.length) : leBytes k (leAt l o k) = takeAt l o k := by
  have hlen : (takeAt l o k).length = k := by simp [takeAt]; omega
  simpa only [hlen, leAt] using leBytes_ofLE (takeAt l o k)

theorem leAt_lt (l : List Byte) (o k : Nat) (h : o + k ≤ l.length) : leAt l o k < 256 ^ k := by
  have hlen : (takeAt l o k).length = k := by simp [takeAt]; omega
  simpa only [hlen, leAt] using ofLE_lt (takeAt l o k)

/-- A number at the front is read there, whatever follows. -/
theorem leAt_leBytes_append (k n : Nat) (l : List Byte) : leAt (leBytes k n ++ l) 0 k = n % 256 ^ k := by
  rw [leAt, takeAt, List.drop_zero, List.take_left' (length_leBytes k n), ofLE_leBytes]

/-- Behind a number's bytes the rest is read. -/
theorem leAt_leBytes_append_skip (j n : Nat) (l : List Byte) (o k : Nat) (h : j ≤ o) :
    leAt (leBytes j n ++ l) o k = leAt l (o - j) k := by
  simp [leAt, takeAt, List.drop_append, List.drop_of_length_le, h]

/-- Two fields side by side are one. -/
theorem bits_zero_join (n w v : Nat) : bits n 0 w + 2 ^ w * bits n w v = bits n 0 (w + v) := by
  simp only [bits, Nat.pow_zero, Nat.div_one, Nat.pow_add, Nat.mod_mul]

/-- The fields of a whole word, as bytes, are the bytes that the word was read from. -/
theorem leBytes_bits_leAt (l : List Byte) (o k w : Nat) (h : o + k ≤ l.length) (hw : w = 8 * k) :
    leBytes k (bits (leAt l o k) 0 w) = takeAt l o k := by
  have hlt : leAt l o k < 2 ^ w := by rw [hw, Nat.pow_mul]; exact leAt_lt l o k h
  rw [bits, Nat.pow_zero, Nat.div_one, Nat.mod_eq_of_lt hlt, leBytes_leAt l o k h]

/-- The bytes at an offset, then all that stand behind them. -/
theorem takeAt_append_drop (l : List Byte) (o k e : Nat) (h : e = o + k) : takeAt l o k ++ l.drop e = l.drop o := by
  rw [takeAt, h, ← List.drop_drop, List.take_append_drop]

end Sys2Proof

namespace Sys2Proof.Machine

theorem PktHdr.wf_iff (h : PktHdr) : h.wf = true ↔
    h.dst < 2 ^ 18 ∧ h.rsv0 < 4 ∧ h.tc < 8 ∧ h.sealB < 2 ∧ h.op < 256 ∧ h.src < 2 ^ 20 ∧ h.tag < 4096 ∧ h.raddr < 2 ^ 56 ∧
      h.status < 256 ∧ h.flow < 2 ^ 18 ∧ h.cm < 2 ∧ h.ce < 2 ∧ h.ackReq < 2 ∧ h.mc < 2 ∧ h.rsv1 < 1024 ∧ h.pkey < 65536 ∧
      h.len < 8192 ∧ h.rsv2 < 8 ∧ h.coll < 32768 ∧ h.stage < 8 ∧ h.contrib < 64 ∧ h.rsv3 < 256 ∧ h.chunk < 2 ^ 24 ∧ h.rsv4 < 256 := by
  simp only [PktHdr.wf, Bool.and_eq_true, decide_eq_true_eq, and_assoc]

theorem length_pktHdr_enc (h : PktHdr) : h.enc.length = 32 := by
  simp [PktHdr.enc]

theorem pktHdr_dec_enc (h : PktHdr) (l : List Byte) (hw : h.wf = true) : PktHdr.dec (h.enc ++ l) = h := by
  obtain ⟨hdst, hrsv0, htc, hseal, hop, hsrc, htag, hraddr, hstatus, hflow, hcm, hce, hack, hmc, hrsv1, hpkey, hlen, hrsv2,
    hcoll, hstage, hcontrib, hrsv3, hchunk, hrsv4⟩ := h.wf_iff.mp hw
  simp only [PktHdr.dec, PktHdr.enc, List.append_assoc, leAt_leBytes_append, leAt_leBytes_append_skip, Nat.reduceLeDiff, Nat.reduceSub]
  cases h
  simp only [bits, PktHdr.mk.injEq] at *
  and_intros <;> omega

theorem pktHdr_dec_wf (l : List Byte) : (PktHdr.dec l).wf = true := by
  rw [PktHdr.wf_iff]
  and_intros <;> exact Nat.mod_lt _ (by decide)

/-- Every bit of a header's words is a bit of one of its fields (R191), so writing what was read gives the bytes back. -/
theorem pktHdr_enc_dec (l : List Byte) (h : l.length = 32) : (PktHdr.dec l).enc = l := by
  have word := fun o k w (ho : o + k ≤ 32) (hw : w = 8 * k) => leBytes_bits_leAt l o k w (by omega) hw
  have hend : takeAt l 28 4 = l.drop 28 := List.take_of_length_le (by simp [h])
  simp only [PktHdr.enc, PktHdr.dec, bits_zero_join, Nat.reduceAdd]
  rw [word 0 4 32 (by decide) rfl, word 4 4 32 (by decide) rfl, word 8 8 64 (by decide) rfl, word 16 4 32 (by decide) rfl,
    word 20 4 32 (by decide) rfl, word 24 4 32 (by decide) rfl, word 28 4 32 (by decide) rfl, hend]
  simp only [List.append_assoc, takeAt_append_drop, Nat.reduceAdd, List.drop_zero]

theorem crc16Step_lt (k c : Nat) (h : c < 2 ^ 16) : crc16Step k c < 2 ^ 16 := by
  induction k generalizing c with
  | zero => exact h
  | succ k ih =>
    rw [crc16Step]
    split
    · exact ih _ (Nat.xor_lt_two_pow (by omega) (by decide))
    · exact ih _ (by omega)

/-- A CRC-16 has 16 bits (R175). -/
theorem crc16_lt (init : Nat) (l : List Byte) (h : init < 2 ^ 16) : crc16 init l < 2 ^ 16 := by
  induction l generalizing init with
  | nil => exact h
  | cons b t ih =>
    have hb := b.isLt
    exact ih _ (crc16Step_lt 8 _ (Nat.xor_lt_two_pow h (by omega)))

theorem FlitHdr.wf_iff (h : FlitHdr) : h.wf = true ↔
    h.type < 16 ∧ h.vc < 4 ∧ h.sop < 2 ∧ h.eop < 2 ∧ h.tc < 8 ∧ h.valid < 256 ∧ h.seq < 65536 ∧ h.ack < 65536 ∧ h.crVc < 4 ∧
      h.crTotal < 65536 := by
  simp only [FlitHdr.wf, Bool.and_eq_true, decide_eq_true_eq, and_assoc]

theorem length_flitHdr_body (h : FlitHdr) : h.body.length = 14 := by simp [FlitHdr.body]

theorem length_flitHdr_enc (h : FlitHdr) : h.enc.length = 16 := by simp [FlitHdr.enc, length_flitHdr_body]

theorem flitHdr_dec_enc (h : FlitHdr) (l : List Byte) (hw : h.wf = true) : FlitHdr.dec (h.enc ++ l) = h := by
  obtain ⟨htype, hvc, hsop, heop, htc, hvalid, hseq, hack, hcrVc, hcrTotal⟩ := h.wf_iff.mp hw
  simp only [FlitHdr.dec, FlitHdr.enc, FlitHdr.body, List.append_assoc, leAt_leBytes_append, leAt_leBytes_append_skip,
    Nat.reduceLeDiff, Nat.reduceSub]
  cases h
  simp only [bits, FlitHdr.mk.injEq] at *
  and_intros <;> omega

/-- A flit that begins with a header as it is written has a matching HCRC (R175). -/
theorem flitGood_enc (h : FlitHdr) (l : List Byte) : flitGood (h.enc ++ l) = true := by
  have hbody : (h.enc ++ l).take 14 = h.body := by
    rw [FlitHdr.enc, List.append_assoc, List.take_left' (length_flitHdr_body h)]
  have hcrcAt : leAt (h.enc ++ l) 14 2 = hcrc h.body := by
    have hbehind : leAt (h.enc ++ l) h.body.length 2 = leAt (leBytes 2 (hcrc h.body) ++ l) 0 2 := by
      rw [FlitHdr.enc, List.append_assoc, leAt_append]
    rw [← length_flitHdr_body h, hbehind, leAt_leBytes_append]
    exact Nat.mod_eq_of_lt (crc16_lt _ _ (by decide))
  rw [flitGood, hbody, hcrcAt, beq_self_eq_true]

end Sys2Proof.Machine
end

section
/-!
Codewords (R144, R145, R147): bits read back into numbers and bytes, and a period's codewords put back into lane order.
-/
namespace Sys2Proof.Machine

theorem lsbFirst_succ (w v : Nat) : lsbFirst (w + 1) v = bit v 0 :: lsbFirst w (v / 2) := by
  have htail : ∀ i, bit v (i + 1) = bit (v / 2) i := fun i => by
    rw [bit, bit, Nat.pow_succ', Nat.div_div_eq_div_mul]
  simp [lsbFirst, List.range_succ_eq_map, htail, Function.comp_def]

@[simp] theorem length_lsbFirst (w v : Nat) : (lsbFirst w v).length = w := by simp [lsbFirst]

theorem ofLsb_lsbFirst (w v : Nat) : ofLsb (lsbFirst w v) = v % 2 ^ w := by
  induction w generalizing v with
  | zero => simp [lsbFirst, ofLsb, Nat.mod_one]
  | succ w ih =>
    have hbit : b2n (bit v 0) = v % 2 := by rcases Nat.mod_two_eq_zero_or_one v with h | h <;> simp [b2n, bit, h]
    rw [lsbFirst_succ, ofLsb, ih, hbit, Nat.pow_succ', Nat.mod_mul]

theorem length_flitBits (l : List Byte) : (l.flatMap (fun b => lsbFirst 8 b.toNat)).length = 8 * l.length := by
  induction l with
  | nil => rfl
  | cons b t ih => simp only [List.flatMap_cons, List.length_append, ih, length_lsbFirst, List.length_cons]; omega

/-- Bytes are read back from their bits. -/
theorem bytesOfBits_flitBits (l : List Byte) : bytesOfBits l.length (l.flatMap (fun b => lsbFirst 8 b.toNat)) = l := by
  induction l with
  | nil => rfl
  | cons b t ih =>
    have hb := b.isLt
    have hbyte : BitVec.ofNat 8 (ofLsb (lsbFirst 8 b.toNat)) = b := by
      rw [ofLsb_lsbFirst, Nat.mod_eq_of_lt hb, BitVec.ofNat_toNat, BitVec.setWidth_eq]
    have hlong : ¬ (lsbFirst 8 b.toNat ++ t.flatMap (fun b => lsbFirst 8 b.toNat)).length < 8 := by simp
    rw [List.length_cons, List.flatMap_cons, bytesOfBits, if_neg hlong, List.take_left' (length_lsbFirst _ _),
      List.drop_left' (length_lsbFirst _ _), hbyte, ih]

theorem ctrlCode_num_lt (c : CtrlCode) : c.num < 16 := by
  cases c with
  | reserved n => simp only [CtrlCode.num]; omega
  | _ => decide

@[simp] theorem ctrlCode_ofNum_num (c : CtrlCode) : CtrlCode.ofNum c.num = c := by
  cases c with
  | reserved n => revert n; decide
  | _ => rfl

/-- The four parts of an encoded control field, each at its own bits (R145). -/
theorem ctrlField_enc_bits (c : CtrlField) (hl : c.lane < 16) (ha : c.arg < 16) (hs : c.seq < 256) :
    bits c.enc 0 4 = c.lane ∧ bits c.enc 4 4 = c.ctrl.num ∧ bits c.enc 8 4 = c.arg ∧ bits c.enc 12 8 = c.seq := by
  have hc := ctrlCode_num_lt c.ctrl
  simp only [CtrlField.enc, bits]
  refine ⟨?_, ?_, ?_, ?_⟩ <;> omega

theorem ctrlField_dec_enc (c : CtrlField) (hl : c.lane < 16) (ha : c.arg < 16) (hs : c.seq < 256) : CtrlField.dec c.enc = c := by
  obtain ⟨hlane, hctrl, harg, hseq⟩ := ctrlField_enc_bits c hl ha hs
  rw [CtrlField.dec, hlane, hctrl, harg, hseq, ctrlCode_ofNum_num]

theorem ctrlField_enc_lt (c : CtrlField) : c.enc < 2 ^ 20 := by
  have hc := ctrlCode_num_lt c.ctrl
  simp only [CtrlField.enc]
  omega

theorem length_cwMessage (c : CtrlField) (l : List Byte) (h : l.length = 640) : (cwMessage c l).length = 5140 := by
  rw [cwMessage, List.length_append, length_lsbFirst, length_flitBits, h]

theorem cwRead_cwMessage (c : CtrlField) (l : List Byte) (hl : c.lane < 16) (ha : c.arg < 16) (hs : c.seq < 256)
    (h : l.length = 640) : cwRead (cwMessage c l) = (c, l) := by
  have hfield : ofLsb (lsbFirst 20 c.enc) = c.enc := by rw [ofLsb_lsbFirst, Nat.mod_eq_of_lt (ctrlField_enc_lt c)]
  have hflits : bytesOfBits cwBytes (l.flatMap (fun b => lsbFirst 8 b.toNat)) = l := by
    rw [cwBytes, ← h]; exact bytesOfBits_flitBits l
  rw [cwRead, cwMessage, List.take_left' (length_lsbFirst _ _), List.drop_left' (length_lsbFirst _ _), hfield,
    ctrlField_dec_enc c hl ha hs, hflits]

/-- The order in which a receiver puts codewords: by logical lane. -/
abbrev laneLe (a b : CtrlField × List Byte) : Prop := a.1.lane ≤ b.1.lane

theorem insertLane_eq (c : CtrlField × List Byte) (l : List (CtrlField × List Byte)) :
    byLane.insertLane c l = l.orderedInsert laneLe c := by
  induction l with
  | nil => rfl
  | cons x t ih => rw [byLane.insertLane, ih, List.orderedInsert_cons]

theorem byLane_eq_insertionSort (l : List (CtrlField × List Byte)) : byLane l = l.insertionSort laneLe := by
  induction l with
  | nil => rfl
  | cons c t ih => rw [byLane, insertLane_eq, ih]; rfl

theorem map_lane_layPeriod (seq : Nat) (lanes : List Nat) (l : List Byte) : (layPeriod seq lanes l).map (·.1.lane) = lanes := by
  induction lanes generalizing l with
  | nil => rfl
  | cons i t ih => rw [layPeriod, List.map_cons, ih]

theorem flatMap_layPeriod (seq : Nat) (lanes : List Nat) (l : List Byte) (h : l.length = 640 * lanes.length) :
    (layPeriod seq lanes l).flatMap (·.2) = l := by
  induction lanes generalizing l with
  | nil => exact (List.length_eq_zero_iff.mp h).symm
  | cons i t ih =>
    rw [List.length_cons] at h
    rw [layPeriod, List.flatMap_cons, ih _ (by rw [List.length_drop, cwBytes]; omega), List.take_append_drop]

/-- Codewords of distinct, rising lanes come back into their order, whichever way round they arrive (R147). -/
theorem byLane_perm_layPeriod {seq : Nat} {lanes : List Nat} {l : List Byte} {p : List (CtrlField × List Byte)}
    (hl : lanes.Pairwise (· < ·)) (hp : p.Perm (layPeriod seq lanes l)) : byLane p = layPeriod seq lanes l := by
  have hrise : ((layPeriod seq lanes l).map (·.1.lane)).Pairwise (· < ·) := (map_lane_layPeriod seq lanes l).symm ▸ hl
  have hsorted : (layPeriod seq lanes l).Pairwise laneLe := (List.pairwise_map.mp hrise).imp Nat.le_of_lt
  have hperm : (p.insertionSort laneLe).Perm (layPeriod seq lanes l) := (List.perm_insertionSort _ p).trans hp
  have hkey := List.inj_on_of_nodup_map (hrise.imp Nat.ne_of_lt)
  have : Std.Total laneLe := ⟨fun a b => Nat.le_total _ _⟩
  have : IsTrans _ laneLe := ⟨fun a b c => Nat.le_trans⟩
  rw [byLane_eq_insertionSort]
  refine hperm.eq_of_pairwise (fun a b ha hb hab hba => ?_) (List.pairwise_insertionSort _ p) hsorted
  exact hkey (hperm.subset ha) hb (Nat.le_antisymm hab hba)

theorem readPeriod_perm_layPeriod {seq : Nat} {lanes : List Nat} {l : List Byte} {p : List (CtrlField × List Byte)}
    (hl : lanes.Pairwise (· < ·)) (h : l.length = 640 * lanes.length) (hp : p.Perm (layPeriod seq lanes l)) : readPeriod p = l := by
  rw [readPeriod, byLane_perm_layPeriod hl hp, flatMap_layPeriod seq lanes l h]

end Sys2Proof.Machine
end

section
namespace Sys2Proof.Machine

/-- Settles O55: every clause holds, each by the lemma for its layout. -/
theorem headersAreReadAsTheyWereWritten : Obligations.HeadersAreReadAsTheyWereWritten := by
  refine ⟨?packet, ?bytes, ?flit, ?codeword, ?period⟩
  case packet => exact fun h l hw => ⟨length_pktHdr_enc h, pktHdr_dec_enc h l hw⟩
  case bytes => exact fun l hl => ⟨pktHdr_dec_wf l, pktHdr_enc_dec l hl⟩
  case flit => exact fun h l hw => ⟨length_flitHdr_enc h, flitHdr_dec_enc h l hw, flitGood_enc h l⟩
  case codeword =>
    exact fun c l hlane harg hseq hl =>
      ⟨length_cwMessage c l hl, cwRead_cwMessage c l hlane harg hseq hl, ctrlField_enc_bits c hlane harg hseq⟩
  case period => exact fun seq lanes l p hrise hl hp => readPeriod_perm_layPeriod hrise hl hp

end Sys2Proof.Machine
end

section
/-!
Memory (log 4): a loss of an interval leaves every byte outside it as it was.
-/
namespace Sys2Proof.Machine

/-- Forgetting some addresses leaves what every other one holds. -/
theorem memGet_memLose (m : List Host.Cell) (p : Nat → Bool) (a : Nat) (h : p a = false) : memGet (memLose m p) a = memGet m a := by
  induction m with
  | nil => rfl
  | cons c t ih =>
    obtain ⟨k, b⟩ := c
    simp only [memGet, memLose, List.filter_cons, tget] at ih ⊢
    by_cases hk : k = a
    · subst hk
      simp [h, tget]
    · split_ifs <;> simp [tget, hk, ih]

theorem loseMem_byte_out (d : Dev) (lo hi b : Nat) (h : ¬(lo ≤ b ∧ b < hi)) : (d.loseMem lo hi).byte b = d.byte b := by
  have hkept : (decide (lo ≤ b) && decide (b < hi)) = false := by simpa using h
  simp only [Dev.byte, Dev.loseMem, lostAt, if_neg h, lostAt_cutOut_out lo hi b d.bank.lost h]
  rw [memGet_memLose _ _ _ hkept]

theorem write_stored (d : Dev) (a : Nat) (l : List Byte) : Stored (d.write a l) a l := fun i hi => by
  rw [write_byte_in d a l i hi, List.getElem?_eq_getElem hi]

/-- Settles O56: each clause by the law for its operation. -/
theorem memoryReadsWhatWasWritten : Obligations.MemoryReadsWhatWasWritten := by
  refine ⟨fun d a l => ⟨write_stored d a l, write_byte_out d a l, memWrite_wf l d.mem a⟩, fun d lo hi => ⟨fun hok => ?_, ?_⟩⟩
  · exact memLose_wf d.mem (fun a => decide (lo ≤ a) && decide (a < hi)) hok
  · exact fun b hb => loseMem_byte_out d lo hi b hb

end Sys2Proof.Machine
end

section
/-!
Fault sources (R466, R467): after a report of a source its bit is set, and the bits that were set stay.
-/
namespace Sys2Proof.Machine

theorem snapTrigger_faultBits (d : Dev) (i : List Nat) : d.snapTrigger.getF F.FLT_STAT_SRC i = d.getF F.FLT_STAT_SRC i := by
  unfold Dev.snapTrigger
  split_ifs
  · rfl
  · exact incSat_getF_reg _ _ _ _ _ (by decide)
  · rfl

/-- A fatal line that rises writes no bit of FLT_STAT. -/
theorem fatalRise_faultBits (d : Dev) (n : DieNo) (i : List Nat) :
    (d.fatalRise n).getF F.FLT_STAT_SRC i = d.getF F.FLT_STAT_SRC i := by
  have hpin (d : Dev) : d.faultPin.getF F.FLT_STAT_SRC i = d.getF F.FLT_STAT_SRC i := getF_setF_reg _ _ _ _ _ _ (by decide)
  unfold Dev.fatalRise
  dsimp only
  split_ifs
  · rfl
  · rw [snapTrigger_faultBits, hpin]
    simp (disch := decide) only [getF_mk, Dev.raise, getF_setF_reg]
  · rw [hpin]
    simp (disch := decide) only [getF_mk, Dev.raise, getF_setF_reg]

/-- A report of source `s` of die `n` sets its bit and keeps every other. -/
theorem fault_bitF (d : Dev) (n : DieNo) (s : FSrc) (j : Nat) (hj : j < 16) :
    (d.fault n s).bitF F.FLT_STAT_SRC [n] j = (d.bitF F.FLT_STAT_SRC [n] j || decide (s.bit = j)) := by
  have hset := bitF_setBitF d F.FLT_STAT_SRC [n] s.bit j hj
  unfold Dev.fault Dev.faultBit
  split_ifs with hold
  · -- the bit is set already: the event merges (R467)
    have hkeep := incSat_getF_reg d F.FLT_MERGED_COUNT F.FLT_STAT_SRC [n] [n] (by decide)
    rw [Dev.bitF, hkeep, ← Dev.bitF]
    by_cases h : s.bit = j
    · simp [← h, hold]
    · simp [h]
  · rw [← hset]
    dsimp only
    split_ifs <;> simp only [Dev.bitF, fatalRise_faultBits, sendMsix_getF]

end Sys2Proof.Machine
end

section
/-!
Capstan self-tests (R336).
-/
namespace Sys2Proof.Machine

/-- A frame of registers depends on the register file alone. -/
theorem sameRegs_of_regs {d0 d d' : Dev} {l : List (Field × List Nat)} (h : SameRegs d0 d l) (hr : d'.regs = d.regs) :
    SameRegs d0 d' l := fun f i hb => by
  rw [← h f i hb, Dev.getF, Dev.getF, hr]

/-- The test of a capstan in service that runs none starts: BUSY shows it, its stage completions count from 0 again, and nothing
else moves. -/
theorem startSelftest_spec (d : Dev) (y c : Nat) (ht : (y, c) ∉ d.coll.testing) (hf : d.flag F.CPS_STAT_FAILED [y, c] = false) :
    (y, c) ∈ (d.startSelftest y c).coll.testing ∧ (d.startSelftest y c).flag F.CPS_ST_CTRL_BUSY [y, c] = true ∧
      nget 0 (d.startSelftest y c).coll.since [y, c] = 0 ∧ SameRegs d (d.startSelftest y c) [(F.CPS_ST_CTRL_BUSY, [y, c])] ∧
      SameMem d (d.startSelftest y c) := by
  rw [Dev.startSelftest, if_neg (by simp [ht, hf])]
  refine ⟨by simp, flag_raise d _ _ rfl, ?since, ?regs, sameMem_of rfl rfl⟩
  case since => exact nget_nput_same 0 d.coll.since [y, c] 0
  case regs => exact sameRegs_of_regs (d := d.raise F.CPS_ST_CTRL_BUSY [y, c]) (sameRegs_setF (.head _) (sameRegs_refl d _)) rfl

theorem completes_capstanSelftest_due {s : State} {y : Fin 4} {c : Fin 17} (hdue : 65536 ≤ nget 0 s.dev.coll.since [y.val, c.val])
    (ht : (y.val, c.val) ∉ s.dev.coll.testing) (hf : s.dev.flag F.CPS_STAT_FAILED [y.val, c.val] = false) :
    Completes (.capstanSelftest y c .due) s (fun d => (y.val, c.val) ∈ d.coll.testing ∧
      d.flag F.CPS_ST_CTRL_BUSY [y.val, c.val] = true ∧ nget 0 d.coll.since [y.val, c.val] = 0 ∧
      SameRegs s.dev d [(F.CPS_ST_CTRL_BUSY, [y.val, c.val])] ∧ SameMem s.dev d) :=
  completes_of_eq rfl (if_pos hdue) (startSelftest_spec s.dev _ _ ht hf)

/-- A write of RUN that lands starts the test of the capstan it names. -/
theorem regRow_run (d : Dev) (fz : Fuses) (iss : Issuer) (y c : Nat) (hl : d.lands iss .CPS_ST_CTRL [y, c] 1 = true) :
    d.regRow fz iss .CPS_ST_CTRL [y, c] 1 = d.startSelftest y c := regRow_lands d fz iss _ _ _ hl

theorem completes_capstanSelftest_run {s : State} {iss : Issuer} {y : Fin 4} {c : Fin 17}
    (hl : s.dev.lands iss .CPS_ST_CTRL [y.val, c.val] 1 = true) (ht : (y.val, c.val) ∉ s.dev.coll.testing)
    (hf : s.dev.flag F.CPS_STAT_FAILED [y.val, c.val] = false) :
    Completes (.capstanSelftest y c (.run iss)) s (fun d => (y.val, c.val) ∈ d.coll.testing ∧
      d.flag F.CPS_ST_CTRL_BUSY [y.val, c.val] = true ∧ SameRegs s.dev d [(F.CPS_ST_CTRL_BUSY, [y.val, c.val])] ∧ SameMem s.dev d) := by
  refine completes_of_eq rfl (regRow_run _ _ _ _ _ hl) ?_
  obtain ⟨hin, hbusy, -, hregs, hmem⟩ := startSelftest_spec s.dev _ _ ht hf
  exact ⟨hin, hbusy, hregs, hmem⟩

theorem completes_capstanSelftestDone_pass {s : State} {y : Fin 4} {c : Fin 17} (ht : (y.val, c.val) ∈ s.dev.coll.testing) :
    Completes (.capstanSelftestDone y c true) s (fun d => (y.val, c.val) ∉ d.coll.testing ∧
      d.flag F.CPS_ST_CTRL_BUSY [y.val, c.val] = false ∧
      d.getF F.CPS_ST_RUNS_COUNT [y.val, c.val] = min (s.dev.getF F.CPS_ST_RUNS_COUNT [y.val, c.val] + 1) (2 ^ 32 - 1) ∧
      SameRegs s.dev d [(F.CPS_ST_CTRL_BUSY, [y.val, c.val]), (F.CPS_ST_RUNS_COUNT, [y.val, c.val])] ∧ SameMem s.dev d) := by
  refine completes_of_eq rfl (if_neg (by simpa using ht)) ⟨by simp, ?busy, ?runs, ?regs, sameMem_of rfl rfl⟩
  case busy => exact (congrArg (· == 1) (incSat_getF_reg _ _ _ _ _ (by decide))).trans (flag_clear s.dev _ _)
  case runs =>
    have hcount : (s.dev.clear F.CPS_ST_CTRL_BUSY [y.val, c.val]).getF F.CPS_ST_RUNS_COUNT [y.val, c.val]
        = s.dev.getF F.CPS_ST_RUNS_COUNT [y.val, c.val] := getF_setF_reg _ _ _ _ _ _ (by decide)
    refine (getF_setF_same _ _ _ _).trans ?_
    rw [getF_mk, hcount, show F.CPS_ST_RUNS_COUNT.w = 32 from rfl]
    omega
  case regs =>
    refine sameRegs_setF (.tail _ (.head _)) ?_
    exact sameRegs_of_regs (d := s.dev.clear F.CPS_ST_CTRL_BUSY [y.val, c.val])
      (sameRegs_setF (.head _) (sameRegs_refl s.dev _)) rfl

/-- The end of a test that fails, by the reports that it makes (R336): BUSY falls and ST_FAIL and the yard's SELFTEST_FAIL rise, and
the sources of the fault block follow. -/
theorem selftestDone_fail (d : Dev) (y c : Nat) (ht : (y, c) ∈ d.coll.testing) :
    (y, c) ∉ (d.selftestDone y c false).coll.testing ∧ (y, c) ∈ (d.selftestDone y c false).coll.failing ∧
      (d.selftestDone y c false).flag F.CPS_STAT_ST_FAIL [y, c] = true ∧
      (d.selftestDone y c false).flag F.YRD_COLL_STAT_SELFTEST_FAIL [y] = true ∧
      (d.selftestDone y c false).bitF F.FLT_STAT_SRC [1 + y] 10 = true ∧ SameMem d (d.selftestDone y c false) := by
  have hstFail (e : Dev) : ((e.raise F.CPS_STAT_ST_FAIL [y, c]).raise F.YRD_COLL_STAT_SELFTEST_FAIL [y]).flag F.CPS_STAT_ST_FAIL [y, c]
      = true := (congrArg (· == 1) (raise_getF_reg _ _ _ _ _ (by decide))).trans (flag_raise e _ _ rfl)
  have hyard (e : Dev) : (e.raise F.YRD_COLL_STAT_SELFTEST_FAIL [y]).flag F.YRD_COLL_STAT_SELFTEST_FAIL [y] = true := flag_raise e _ _ rfl
  have hkeepSt (e : Dev) (n : DieNo) (s : FSrc) := fault_flag e n s F.CPS_STAT_ST_FAIL [y, c] rfl
  have hkeepYard (e : Dev) (n : DieNo) (s : FSrc) := fault_flag e n s F.YRD_COLL_STAT_SELFTEST_FAIL [y] rfl
  rw [Dev.selftestDone, if_neg (by simp [ht]), if_neg Bool.false_ne_true]
  dsimp only
  split_ifs <;> simp [Dev.markSuspect, fault_bitF, FSrc.bit, hkeepSt, hstFail, hkeepYard, hyard, sameMem_of]

theorem completes_capstanSelftestDone_fail {s : State} {y : Fin 4} {c : Fin 17} (ht : (y.val, c.val) ∈ s.dev.coll.testing) :
    Completes (.capstanSelftestDone y c false) s (fun d => (y.val, c.val) ∉ d.coll.testing ∧ (y.val, c.val) ∈ d.coll.failing ∧
      d.flag F.CPS_STAT_ST_FAIL [y.val, c.val] = true ∧ d.flag F.YRD_COLL_STAT_SELFTEST_FAIL [y.val] = true ∧
      d.bitF F.FLT_STAT_SRC [1 + y.val] 10 = true ∧ SameMem s.dev d) :=
  completes_of_exec rfl (selftestDone_fail s.dev _ _ ht)

end Sys2Proof.Machine
end

section
/-!
The spare capstan (R27, R333).
-/
namespace Sys2Proof.Machine

/-- A register that returning a chunk's promotion entries may write (R318, R319). -/
def poolReg (r : RegName) : Bool := r == .YRD_COLL_PROM_FREE || r == .YRD_COLL_STAT

/-- From `d` to `e` chunks may have been abandoned: memory, banks and every register but the promotion pool's stand. -/
structure Abandons (d e : Dev) : Prop where
  regs : ∀ (f : Field) (i : List Nat), poolReg f.reg = false → e.getF f i = d.getF f i
  mem : e.mem = d.mem
  bank : e.bank = d.bank

theorem Abandons.refl (d : Dev) : Abandons d d := ⟨fun _ _ _ => rfl, rfl, rfl⟩

theorem Abandons.trans {a b c : Dev} (h : Abandons a b) (k : Abandons b c) : Abandons a c :=
  ⟨fun f i hf => (k.regs f i hf).trans (h.regs f i hf), k.mem.trans h.mem, k.bank.trans h.bank⟩

theorem Abandons.setF {d : Dev} (f : Field) (i : List Nat) (v : Nat) (hf : poolReg f.reg = true) : Abandons d (d.setF f i v) :=
  ⟨fun g j hg => getF_setF_reg d f g i j v (fun e => by simp [← e, hf] at hg), rfl, rfl⟩

/-- Steps of which each may abandon chunks may abandon chunks together. -/
theorem Abandons.foldl {α : Type} (f : Dev → α → Dev) (h : ∀ d x, Abandons d (f d x)) (d : Dev) (l : List α) :
    Abandons d (l.foldl f d) := by
  induction l generalizing d with
  | nil => exact .refl d
  | cons x t ih => exact (h d x).trans (ih _)

theorem poolReturn_abandons (d : Dev) (y : Nat) (u : USlot) : Abandons d (d.poolReturn y u) := by
  have hfree : Abandons d (d.addWrap F.YRD_COLL_PROM_FREE_FREE [y] (u.entries.countP (fun e => e.held == 1))) := .setF _ _ _ rfl
  refine hfree.trans ?_
  unfold Dev.poolReturn Dev.promResume
  split_ifs
  · exact .setF F.YRD_COLL_STAT_PROM_STOP [y] _ rfl
  · exact .refl _

theorem abandon_abandons (d : Dev) (id n : Nat) (st : Status) : Abandons d (d.abandon id n st) := by
  unfold Dev.abandon
  split
  · exact .refl d
  · dsimp only
    split_ifs
    · exact .refl d
    · obtain ⟨hregs, hmem, hbank⟩ := Abandons.foldl _ (fun d u => poolReturn_abandons d _ u) d _
      exact ⟨hregs, hmem, hbank⟩

theorem abandonOn_abandons (d : Dev) (y c : Nat) : Abandons d (d.abandonOn y c) :=
  .foldl _ (fun _ _ => .foldl _ (fun d _ => abandon_abandons d _ _ _) _ _) _ _

theorem setMasked_getF (d : Dev) (t : Nat) (v : Bool) (g : Field) (i : List Nat) (h : g.reg ≠ .TCK_STAT) :
    (d.setMasked t v).getF g i = d.getF g i := by
  unfold Dev.setMasked
  split_ifs
  · rfl
  · exact (getF_setF_reg _ _ _ _ _ _ h.symm).trans (getF_setF_reg _ _ _ _ _ _ h.symm)

theorem setMasked_mem (d : Dev) (t : Nat) (v : Bool) : (d.setMasked t v).mem = d.mem := by
  unfold Dev.setMasked; split_ifs <;> rfl

theorem setMasked_bank (d : Dev) (t : Nat) (v : Bool) : (d.setMasked t v).bank = d.bank := by
  unfold Dev.setMasked; split_ifs <;> rfl

/-- The registers of a swap of capstan `c` for the spare, `j` being its logical index (R333). -/
def Dev.spareTakes (d : Dev) (y c j : Nat) : Dev :=
  (((((((d.clear F.CPS_STAT_IN_SERVICE [y, c]).clear F.CPS_STAT_SPARE [y, c]).raise F.CPS_STAT_FAILED [y, c]).clear
    F.CPS_ST_CTRL_BUSY [y, c]).clear F.CPS_STAT_SPARE [y, 16]).raise F.CPS_STAT_IN_SERVICE [y, 16]).setF F.CPS_STAT_LOGICAL
    [y, 16] j).setF F.YRD_CPS_MAP_PHYS [y, j] 16

/-- The swap of a failed capstan in service for the spare: the abandoned chunks aside, the two capstans' registers, the map and the
face of the spare move, and one timing-dependent choice is counted. -/
theorem spareSwap_spare (d : Dev) (y c : Nat) (hc : c < 16) (hfail : (y, c) ∈ d.coll.failing)
    (hf : d.flag F.CPS_STAT_FAILED [y, c] = false) (hs : d.flag F.CPS_STAT_IN_SERVICE [y, c] = true)
    (hsp : d.flag F.CPS_STAT_SPARE [y, 16] = true) :
    ∃ e, Abandons d e ∧ d.spareSwap y c = ((e.spareTakes y c (d.getF F.CPS_STAT_LOGICAL [y, c])).setMasked (0x2010 + 256 * y) true).tdc
      .spareSwap (dieUnit (1 + y)) := by
  obtain ⟨hregs, hmem, hbank⟩ := abandonOn_abandons d y c
  have hstat (f : Field) (i : List Nat) (hr : f.reg = .CPS_STAT) : (d.abandonOn y c).getF f i = d.getF f i :=
    hregs f i (by rw [hr]; decide)
  have hservice : (d.abandonOn y c).flag F.CPS_STAT_IN_SERVICE [y, c] = true := (congrArg (· == 1) (hstat _ _ rfl)).trans hs
  have hspare : (d.abandonOn y c).flag F.CPS_STAT_SPARE [y, 16] = true := (congrArg (· == 1) (hstat _ _ rfl)).trans hsp
  have hlogical := hstat F.CPS_STAT_LOGICAL [y, c] rfl
  refine ⟨{ d.abandonOn y c with coll := { (d.abandonOn y c).coll with
    failing := (d.abandonOn y c).coll.failing.filter (· ≠ (y, c)), testing := (d.abandonOn y c).coll.testing.filter (· ≠ (y, c)) } },
    ⟨hregs, hmem, hbank⟩, ?_⟩
  rw [Dev.spareSwap, if_neg (by simp [hfail, hf])]
  simp only [Dev.spareTakes, flag_mk, getF_mk, hservice, hspare, hlogical, bne_iff_ne.mpr hc.ne, Bool.not_true, Bool.and_true,
    Bool.false_eq_true, if_false, if_true]

/-- What the registers of a swap read: the capstan is failed and out of service, and the spare has its index. -/
theorem spareTakes_spec (d : Dev) (y c j : Nat) (hc : c < 16) (hj : j < 16) :
    (d.spareTakes y c j).getF F.CPS_STAT_FAILED [y, c] = 1 ∧ (d.spareTakes y c j).getF F.CPS_STAT_IN_SERVICE [y, c] = 0 ∧
      (d.spareTakes y c j).getF F.CPS_STAT_IN_SERVICE [y, 16] = 1 ∧ (d.spareTakes y c j).getF F.CPS_STAT_SPARE [y, 16] = 0 ∧
      (d.spareTakes y c j).getF F.CPS_STAT_LOGICAL [y, 16] = j ∧ (d.spareTakes y c j).getF F.YRD_CPS_MAP_PHYS [y, j] = 16 := by
  have hne : [y, 16] ≠ [y, c] := by simp; omega
  have hservice (d : Dev) (v : Nat) := getF_setF_idx d F.CPS_STAT_IN_SERVICE _ _ v hne
  have hindex : j % 2 ^ F.CPS_STAT_LOGICAL.w = j := Nat.mod_eq_of_lt hj
  simp (disch := decide) only [Dev.spareTakes, Dev.raise, Dev.clear, hservice, getF_setF_same, getF_setF_ne, hindex]
  exact ⟨rfl, rfl, rfl, rfl, trivial, rfl⟩

theorem completes_capstanSpareSwap {s : State} {y : Fin 4} {c : Fin 17} {j : Nat} (hc : c.val < 16)
    (hfail : (y.val, c.val) ∈ s.dev.coll.failing) (hf : s.dev.flag F.CPS_STAT_FAILED [y.val, c.val] = false)
    (hs : s.dev.flag F.CPS_STAT_IN_SERVICE [y.val, c.val] = true) (hsp : s.dev.flag F.CPS_STAT_SPARE [y.val, 16] = true)
    (hj : j = s.dev.getF F.CPS_STAT_LOGICAL [y.val, c.val]) (hlt : j < 16) :
    Completes (.capstanSpareSwap y c) s (fun d => d.flag F.CPS_STAT_FAILED [y.val, c.val] = true ∧
      d.flag F.CPS_STAT_IN_SERVICE [y.val, c.val] = false ∧ d.flag F.CPS_STAT_IN_SERVICE [y.val, 16] = true ∧
      d.flag F.CPS_STAT_SPARE [y.val, 16] = false ∧ d.getF F.CPS_STAT_LOGICAL [y.val, 16] = j ∧
      d.getF F.YRD_CPS_MAP_PHYS [y.val, j] = 16 ∧ SameMem s.dev d) := by
  obtain ⟨e, hab, hswap⟩ := spareSwap_spare s.dev y.val c.val hc hfail hf hs hsp
  rw [← hj] at hswap
  refine completes_of_eq rfl hswap ?_
  generalize hd : e.spareTakes y.val c.val j = d
  obtain ⟨hfailed, hout, hin, hspare, hlogical, hmap⟩ := hd ▸ spareTakes_spec e y.val c.val j hc hlt
  have hsame : SameMem s.dev d := sameMem_of (by rw [← hd]; exact hab.mem) (by rw [← hd]; exact congrArg _ hab.bank)
  have hstat (f : Field) (i : List Nat) (hreg : tdcReg f.reg = false) (hface : f.reg ≠ .TCK_STAT) :
      ((d.setMasked (0x2010 + 256 * y.val) true).tdc .spareSwap (dieUnit (1 + y.val))).getF f i = d.getF f i := by
    rw [tdc_getF _ _ _ _ _ hreg, setMasked_getF _ _ _ _ _ hface]
  simp (disch := decide) only [Dev.flag, hstat, hfailed, hout, hin, hspare, hlogical, hmap]
  refine ⟨rfl, rfl, rfl, rfl, trivial, trivial, fun a => ?_⟩
  rw [← hsame a]
  exact sameMem_of (by rw [tdc_mem, setMasked_mem]) (by rw [tdc_bank, setMasked_bank]) a

end Sys2Proof.Machine
end

section
/-!
The overflow region (R338).
-/
namespace Sys2Proof.Machine

theorem ovfWrite_stored (d : Dev) (y v : Nat) (hopen : d.getF F.YRD_COLL_OPEN_COUNT [y] = 0)
    (hin : bits v 21 27 * 2 ^ 21 + 201326592 ≤ 0x6000000000) :
    d.ovfWrite y v = (d.setF F.YRD_COLL_OVF_EN [y] (bits v 0 1)).setF F.YRD_COLL_OVF_BASE [y] (bits v 21 27) := by
  rw [Dev.ovfWrite, if_neg (by omega)]
  rfl

theorem completes_collOvfWrite {s : State} {iss : Issuer} {y : Fin 4} {v : BitVec 64}
    (hl : s.dev.lands iss .YRD_COLL_OVF [y.val] v.toNat = true) (hopen : s.dev.getF F.YRD_COLL_OPEN_COUNT [y.val] = 0)
    (hin : bits v.toNat 21 27 * 2 ^ 21 + 201326592 ≤ 0x6000000000) :
    Completes (.collOvfWrite iss y v) s (fun d => d.getF F.YRD_COLL_OVF_EN [y.val] = bits v.toNat 0 1 ∧
      d.getF F.YRD_COLL_OVF_BASE [y.val] = bits v.toNat 21 27 ∧
      SameRegs s.dev d [(F.YRD_COLL_OVF_EN, [y.val]), (F.YRD_COLL_OVF_BASE, [y.val])] ∧ OnlyRegs s.dev d) := by
  refine completes_of_eq rfl ((regRow_lands _ _ _ _ _ _ hl).trans (ovfWrite_stored _ _ _ hopen hin)) ⟨?en, ?base, ?regs, rfl⟩
  case en => exact (getF_setF_ne _ _ _ _ _ _ (by decide)).trans ((getF_setF_same _ _ _ _).trans (Nat.mod_mod _ _))
  case base => exact (getF_setF_same _ _ _ _).trans (Nat.mod_mod _ _)
  case regs => exact sameRegs_setF (.tail _ (.head _)) (sameRegs_setF (.head _) (sameRegs_refl _ _))

theorem completes_collOvfWrite_rejected {s : State} {iss : Issuer} {y : Fin 4} {v : BitVec 64}
    (hl : s.dev.lands iss .YRD_COLL_OVF [y.val] v.toNat = true)
    (hno : 0 < s.dev.getF F.YRD_COLL_OPEN_COUNT [y.val] ∨ 0x6000000000 < bits v.toNat 21 27 * 2 ^ 21 + 201326592) :
    Completes (.collOvfWrite iss y v) s (fun d => d.flag F.YRD_COLL_STAT_CFG_REJECT [y.val] = true ∧
      SameRegs s.dev d [(F.YRD_COLL_STAT_CFG_REJECT, [y.val])] ∧ OnlyRegs s.dev d) :=
  completes_of_eq rfl ((regRow_lands _ _ _ _ _ _ hl).trans (if_pos hno)) (raise_only s.dev _ _ rfl)

end Sys2Proof.Machine
end

section
namespace Sys2Proof.Machine

/-- Settles O37: every clause holds, each by the lemma above for its command. -/
theorem capstansAreTestedAndSpared : Obligations.CapstansAreTestedAndSpared := by
  refine ⟨?due, ?run, ?pass, ?fail, ?swap, ?stored, ?rejected⟩
  case due => exact fun s y c hdue ht hf => completes_capstanSelftest_due hdue ht hf
  case run => exact fun s iss y c hl ht hf => completes_capstanSelftest_run hl ht hf
  case pass => exact fun s y c ht => completes_capstanSelftestDone_pass ht
  case fail => exact fun s y c ht => completes_capstanSelftestDone_fail ht
  case swap => exact fun s y c j hc hfail hf hs hsp hj hlt => completes_capstanSpareSwap hc hfail hf hs hsp hj hlt
  case stored => exact fun s iss y v hl hopen hin => completes_collOvfWrite hl hopen hin
  case rejected => exact fun s iss y v hl hno => completes_collOvfWrite_rejected hl hno

end Sys2Proof.Machine
end

section
/-!
Seals on their way to the digest engine (R86): feeding and passing them on moves the engine's backlog and nothing that a command
reads or writes.
-/
namespace Sys2Proof.Machine

theorem sameRegs_trans {a b c : Dev} {l : List (Field × List Nat)} (h : SameRegs a b l) (k : SameRegs b c l) : SameRegs a c l :=
  fun f i hb => (k f i hb).trans (h f i hb)

/-- From `d` to `e` seals may have moved: of the registers only the digest engine's backlog differs, and no tackle, no memory, no
bank, no clock and no capstan does. -/
structure MovesSeals (d e : Dev) : Prop where
  regs : SameRegs d e [(F.MST_DIG_STAT_BACKLOG, [])]
  bytes : KeepsBytes d e
  tck : e.eng.tck = d.eng.tck
  bank : e.bank = d.bank
  clk : e.clk = d.clk
  coll : e.coll = d.coll
  freeCtr : e.freeCtr = d.freeCtr

theorem MovesSeals.refl (d : Dev) : MovesSeals d d := ⟨sameRegs_refl d _, .refl d, rfl, rfl, rfl, rfl, rfl⟩

theorem MovesSeals.trans {a b c : Dev} (h : MovesSeals a b) (k : MovesSeals b c) : MovesSeals a c :=
  ⟨sameRegs_trans h.regs k.regs, h.bytes.trans k.bytes, k.tck.trans h.tck, k.bank.trans h.bank, k.clk.trans h.clk,
    k.coll.trans h.coll, k.freeCtr.trans h.freeCtr⟩

theorem MovesSeals.ite {c : Prop} [Decidable c] {d x y : Dev} (hx : MovesSeals d x) (hy : MovesSeals d y) :
    MovesSeals d (if c then x else y) := by split_ifs <;> assumption

theorem pumpSeals_movesSeals (d : Dev) (t : Nat) : MovesSeals d (d.pumpSeals t) := by
  unfold Dev.pumpSeals
  dsimp only
  split_ifs
  · exact .refl d
  · refine ⟨?regs, ⟨rfl, rfl, rfl⟩, rfl, rfl, rfl, rfl, rfl⟩
    case regs => exact sameRegs_setF (d := { d with eng := { d.eng with digQ := _ } }) (.head _) (sameRegs_refl d _)

theorem feedSeals_movesSeals (d : Dev) (t : Nat) (r : Run) (write : Bool) (runs : List (Nat × Nat)) :
    MovesSeals d (d.feedSeals t r write runs) := by
  unfold Dev.feedSeals Dev.feedSealsAs Dev.feedPieces
  dsimp only
  refine .ite (.refl d) ?_
  obtain ⟨hregs, ⟨hmem, hlost, hout⟩, htck, hbank, hclk, hcoll, hctr⟩ :=
    pumpSeals_movesSeals { d with eng := { d.eng with seals := _ } } t
  exact ⟨hregs, ⟨hmem, hlost, hout⟩, htck, hbank, hclk, hcoll, hctr⟩

end Sys2Proof.Machine
end

section
/-!
What a command's reads and writes of memory may change beside the bytes written (R22, R58, R359, R360): registers of power saving and
of byte counts, and how the access was answered.
-/
namespace Sys2Proof.Machine

/-- How an access to a place is answered: 0 it is served, 1 it is held, 2 UNIT_RESET (R22, R58). -/
def Dev.placeAnswer (d : Dev) (p : Place) : Nat :=
  if d.islandOn (placeIsland p) then 0 else if d.islandStopped (placeIsland p) then 1 else 2

/-- What the command under way has met after an access to a place. -/
theorem meet_met (d : Dev) (p : Place) : (d.meet p).bank.met = max d.bank.met (d.placeAnswer p) := by
  unfold Dev.meet Dev.placeAnswer
  split_ifs <;> simp

theorem placeAnswer_le_two (d : Dev) (p : Place) : d.placeAnswer p ≤ 2 := by
  unfold Dev.placeAnswer; split_ifs <;> decide

/-- A register that an access to memory may write. -/
def accessReg (r : RegName) : Bool :=
  r == .SAL_BANK_PWR || r == .SAL_BANK_WAKES || r == .BSE_BANK_PWR || r == .BSE_BANK_WAKES || r == .BSE_STK_STAT
    || r == .BSE_STK_SR_EXITS || r == .BSE_STK_WR_BYTES || r == .BSE_STK_RD_BYTES || r == .MST_DIG_STAT

/-- From `d` to `e` a command may have read and written places that answer at most `b`. -/
structure Accesses (b : Nat) (d e : Dev) : Prop where
  regs : ∀ (f : Field) (i : List Nat), accessReg f.reg = false → e.getF f i = d.getF f i
  clk : e.clk = d.clk
  coll : e.coll = d.coll
  freeCtr : e.freeCtr = d.freeCtr
  tck : e.eng.tck = d.eng.tck
  metGe : d.bank.met ≤ e.bank.met
  metLe : e.bank.met ≤ max d.bank.met b

section
variable {b : Nat} {d e : Dev}

theorem Accesses.refl (b : Nat) (d : Dev) : Accesses b d d := ⟨fun _ _ _ => rfl, rfl, rfl, rfl, rfl, le_rfl, le_max_left _ _⟩

theorem Accesses.trans {c : Dev} (h : Accesses b d e) (k : Accesses b e c) : Accesses b d c where
  regs f i hf := (k.regs f i hf).trans (h.regs f i hf)
  clk := k.clk.trans h.clk
  coll := k.coll.trans h.coll
  freeCtr := k.freeCtr.trans h.freeCtr
  tck := k.tck.trans h.tck
  metGe := h.metGe.trans k.metGe
  metLe := k.metLe.trans (max_le h.metLe (le_max_right _ _))

theorem Accesses.mono {c : Nat} (h : Accesses b d e) (hbc : b ≤ c) : Accesses c d e :=
  { h with metLe := h.metLe.trans (max_le_max le_rfl hbc) }

theorem Accesses.setF (b : Nat) (d : Dev) (f : Field) (i : List Nat) (v : Nat) (hf : accessReg f.reg = true) :
    Accesses b d (d.setF f i v) :=
  { Accesses.refl b d with regs := fun g j hg => getF_setF_reg d f g i j v (fun e => by simp [← e, hf] at hg) }

theorem MovesSeals.accesses (h : MovesSeals d e) (b : Nat) : Accesses b d e where
  regs f i hf := h.regs f i (by rintro x hx ⟨hreg, -⟩; simp_all [accessReg, F.MST_DIG_STAT_BACKLOG])
  clk := h.clk
  coll := h.coll
  freeCtr := h.freeCtr
  tck := h.tck
  metGe := (congrArg _ h.bank).ge
  metLe := (congrArg (·.met) h.bank).le.trans (le_max_left _ _)

theorem Accesses.islandOn (h : Accesses b d e) (g : Nat) : e.islandOn g = d.islandOn g :=
  congrArg (bit · _) (h.regs F.MST_CLKON_ON _ rfl)

theorem Accesses.placeAnswer (h : Accesses b d e) (p : Place) : e.placeAnswer p = d.placeAnswer p := by
  rw [Dev.placeAnswer, Dev.placeAnswer, Dev.islandStopped, Dev.islandStopped, h.islandOn, h.clk]

theorem Accesses.placeAdmits (h : Accesses b d e) (w : Writes) (p : Place) : e.placeAdmits w p = d.placeAdmits w p := by
  have howner (sail : Bool) (die k : Nat) : e.bankOwner sail die k = d.bankOwner sail die k := by
    rw [Dev.bankOwner, Dev.bankOwner, h.regs F.SAL_CLEAT_OWNER _ rfl, h.regs F.BSE_CLEAT_OWNER _ rfl]
  have hadmits (o : Nat) : e.admits o w = d.admits o w := by
    have hvalid : e.flag F.MST_OWNER_MAP_VALID [o] = d.flag F.MST_OWNER_MAP_VALID [o] := congrArg (· == 1) (h.regs _ _ rfl)
    cases w <;> simp only [Dev.admits, hvalid, h.regs F.MST_OWNER_MAP_TACKLE _ rfl]
  cases p <;> simp only [Dev.placeAdmits, hadmits, howner]

theorem Accesses.mayStore (h : Accesses b d e) (w : Writes) (a n : Nat) : e.mayStore w a n = d.mayStore w a n := by
  simp only [Dev.mayStore, Dev.canWrite, h.placeAdmits]

theorem Accesses.runAt (h : Accesses b d e) (t k : Nat) : e.runAt t k = d.runAt t k := by
  simp only [Dev.runAt, Dev.tck, h.tck]

/-- A read gives the same bytes after accesses that move none. -/
theorem Accesses.read (h : Accesses b d e) (hk : KeepsBytes d e) (a n : Nat) : e.read a n = d.read a n := by
  simp only [Dev.read, Dev.windowByte, Dev.poolByte, Dev.heldEntries, Dev.yardChunks, h.coll, h.freeCtr, hk.sameMem _]

theorem Accesses.met_eq_zero (h : Accesses 0 d e) (h0 : d.bank.met = 0) : e.bank.met = 0 := by
  have := h.metLe; omega

end

theorem wakeStack_accesses (d : Dev) (n : Nat) : Accesses 0 d (d.wakeStack n) := by
  have hstamp : Accesses 0 d { d with bank := { d.bank with stackLast := nset d.bank.stackLast [n] d.clk.now } } :=
    { Accesses.refl 0 d with }
  unfold Dev.wakeStack
  dsimp only
  split_ifs
  · exact hstamp.trans ((Accesses.setF 0 _ F.BSE_STK_STAT_IN_SR [n] 0 rfl).trans (.setF 0 _ F.BSE_STK_SR_EXITS_COUNT [n] _ rfl))
  · exact hstamp

theorem wakeBank_accesses (d : Dev) (sail : Bool) (die b : Nat) : Accesses 0 d (d.wakeBank sail die b) := by
  unfold Dev.wakeBank
  split_ifs
  · exact (Accesses.setF 0 _ F.SAL_BANK_PWR_IN_RET [die, b] 0 rfl).trans (.setF 0 _ F.SAL_BANK_WAKES_COUNT [die, b] _ rfl)
  · exact .refl 0 d
  · exact (Accesses.setF 0 _ F.BSE_BANK_PWR_IN_RET [die, b] 0 rfl).trans (.setF 0 _ F.BSE_BANK_WAKES_COUNT [die, b] _ rfl)
  · exact .refl 0 d

theorem wake_accesses (d : Dev) (p : Place) : Accesses 0 d (d.wake p) := by
  cases p with
  | stack n => exact wakeStack_accesses d n
  | sail s b => exact wakeBank_accesses d true s b
  | base n b => exact wakeBank_accesses d false n b
  | _ => exact .refl 0 d

theorem countRead_accesses (d : Dev) (p : Place) (a n : Nat) : Accesses 0 d (d.countRead p a n) := by
  cases p with
  | stack k => exact .setF 0 _ F.BSE_STK_RD_BYTES_COUNT [k] _ rfl
  | _ => exact .refl 0 d

theorem countWrite_accesses (d : Dev) (a n : Nat) : Accesses 0 d (d.countWrite a n) := by
  unfold Dev.countWrite
  split
  · exact .setF 0 _ F.BSE_STK_WR_BYTES_COUNT _ _ rfl
  · exact .refl 0 d

theorem write_accesses (d : Dev) (a : Nat) (l : List Byte) : Accesses 0 d (d.write a l) := { Accesses.refl 0 d with }

theorem meet_accesses {b : Nat} (d : Dev) (p : Place) (h : d.placeAnswer p ≤ b) : Accesses b d (d.meet p) := by
  have hmet := meet_met d p
  have hge : d.bank.met ≤ (d.meet p).bank.met := by omega
  have hle : (d.meet p).bank.met ≤ max d.bank.met b := by omega
  unfold Dev.meet at hge hle ⊢
  split_ifs at hge hle ⊢
  · exact .refl b d
  all_goals exact { Accesses.refl b d with metGe := hge, metLe := hle }

end Sys2Proof.Machine
end

section
/-!
Reads (R58, R359, R360, R364) and stores (R354, R355) of a command: the places that they touch.
-/
namespace Sys2Proof.Machine

/-- An address in a stack or in register space lies where its place says (R29, R30). -/
theorem place_bounds (a : Nat) :
    (∀ n, place a = .stack n → n = a / 0xC00000000) ∧ (place a = .regs → a < regSpace + 0x60000000) := by
  unfold place
  dsimp only
  split_ifs <;> simp_all

theorem lt_placeEnd (a : Nat) : a < placeEnd a := by
  obtain ⟨hstack, hregs⟩ := place_bounds a
  unfold placeEnd
  split
  case h_1 n h => have := hstack n h; omega
  case h_2 s b h => split_ifs <;> omega
  case h_6 h => exact hregs h
  all_goals omega

theorem mem_placesUpTo {hi k a : Nat} {p : Place} (h : p ∈ placesUpTo hi k a) : ∃ c, a ≤ c ∧ c < hi ∧ place c = p := by
  induction k generalizing a with
  | zero => simp [placesUpTo] at h
  | succ k ih =>
    rw [placesUpTo] at h
    split_ifs at h with hend hres
    · simp at h
    · rw [List.mem_singleton] at h
      exact ⟨a, le_rfl, by omega, by rw [hres, h]⟩
    · rcases List.mem_cons.mp h with rfl | h
      · exact ⟨a, le_rfl, by omega, rfl⟩
      · obtain ⟨c, hc, hlt, hp⟩ := ih h
        exact ⟨c, by have := lt_placeEnd a; omega, hlt, hp⟩

/-- A place that an access touches is the place of one of its bytes. -/
theorem mem_placesOf {a n : Nat} {p : Place} (h : p ∈ placesOf a n) : ∃ i < n, place (a + i) = p := by
  obtain ⟨c, hc, hlt, hp⟩ := mem_placesUpTo h
  exact ⟨c - a, by omega, by rw [Nat.add_sub_cancel' hc]; exact hp⟩

theorem placesOf_cons (a n : Nat) (h : 0 < n) : ∃ t, placesOf a n = place a :: t := by
  unfold placesOf placesUpTo
  rw [if_neg (by omega)]
  split_ifs with hres
  · exact ⟨[], by rw [hres]⟩
  · exact ⟨_, rfl⟩

/-- Every byte of the `n` at `a` lies in a place that answers at most `b`. -/
def Dev.answersLe (d : Dev) (b a n : Nat) : Prop := ∀ i < n, d.placeAnswer (place (a + i)) ≤ b

theorem answersLe_two (d : Dev) (a n : Nat) : d.answersLe 2 a n := fun _ _ => placeAnswer_le_two d _

theorem answersLe_of_memUp {d : Dev} {a n : Nat} (h : d.memUp a n) : d.answersLe 0 a n := fun i hi => by
  have hon := h i (by omega)
  simp [Dev.placeAnswer, hon]

theorem Accesses.answersLe {b c : Nat} {d e : Dev} (h : Accesses b d e) {a n : Nat} (k : d.answersLe c a n) : e.answersLe c a n :=
  fun i hi => (h.placeAnswer _).le.trans (k i hi)

theorem load_accesses {b : Nat} (d : Dev) (a n : Nat) (h : d.answersLe b a n) : Accesses b d (d.load a n).2 := by
  have go (l : List Place) (d : Dev) (hl : ∀ p ∈ l, d.placeAnswer p ≤ b) :
      Accesses b d (l.foldl (fun d p => ((d.wake p).countRead p a n).meet p) d) := by
    induction l generalizing d with
    | nil => exact .refl b d
    | cons p t ih =>
      have hcount := ((wake_accesses d p).trans (countRead_accesses _ p a n)).mono (Nat.zero_le b)
      have hone := hcount.trans (meet_accesses _ p ((hcount.placeAnswer p).le.trans (hl p List.mem_cons_self)))
      exact hone.trans (ih _ fun q hq => (hone.placeAnswer q).le.trans (hl q (List.mem_cons_of_mem _ hq)))
  refine go _ d fun p hp => ?_
  obtain ⟨i, hi, rfl⟩ := mem_placesOf hp
  exact h i hi

/-- A read meets at least what its first byte's place answers. -/
theorem load_met_ge (d : Dev) (a n : Nat) (h : 0 < n) : d.placeAnswer (place a) ≤ (d.load a n).2.bank.met := by
  obtain ⟨t, ht⟩ := placesOf_cons a n h
  have hfirst : d.placeAnswer (place a) ≤ (((d.wake (place a)).countRead (place a) a n).meet (place a)).bank.met := by
    have hsame := ((wake_accesses d (place a)).trans (countRead_accesses _ (place a) a n)).placeAnswer (place a)
    rw [meet_met, hsame]
    exact le_max_right _ _
  have hrest (l : List Place) (d : Dev) :
      d.bank.met ≤ (l.foldl (fun d p => ((d.wake p).countRead p a n).meet p) d).bank.met := by
    induction l generalizing d with
    | nil => exact le_rfl
    | cons p t ih =>
      have hcount := (wake_accesses d p).trans (countRead_accesses _ p a n)
      refine hcount.metGe.trans (le_trans ?_ (ih _))
      rw [meet_met]
      exact le_max_left _ _
  rw [Dev.load, ht, List.foldl_cons]
  exact hfirst.trans (hrest t _)

/-! ## Reads of several runs -/

theorem noteReads_keepsBytes (d : Dev) (t : Nat) (r : Run) (runs : List (Nat × Nat)) : KeepsBytes d (d.noteReads t r runs) := by
  have go (l : List (Nat × Nat)) (d : Dev) : KeepsBytes d (l.foldl (fun d x => (d.load x.1 x.2).2) d) := by
    induction l generalizing d with
    | nil => exact .refl d
    | cons u l ih => exact (load_keepsBytes d u.1 u.2).trans (ih _)
  exact (go runs d).trans (feedSeals_movesSeals _ t r false runs).bytes

theorem loads_accesses {b : Nat} (d : Dev) (runs : List (Nat × Nat)) (h : ∀ u ∈ runs, d.answersLe b u.1 u.2) :
    Accesses b d (runs.foldl (fun d x => (d.load x.1 x.2).2) d) := by
  induction runs generalizing d with
  | nil => exact .refl b d
  | cons u l ih =>
    have hone := load_accesses d u.1 u.2 (h u List.mem_cons_self)
    exact hone.trans (ih _ fun v hv => hone.answersLe (h v (List.mem_cons_of_mem _ hv)))

theorem noteReads_accesses {b : Nat} (d : Dev) (t : Nat) (r : Run) (runs : List (Nat × Nat)) (h : ∀ u ∈ runs, d.answersLe b u.1 u.2) :
    Accesses b d (d.noteReads t r runs) :=
  (loads_accesses d runs h).trans ((feedSeals_movesSeals _ t r false runs).accesses b)

/-- Reads of several runs meet at least what the place of each run's first byte answers. -/
theorem noteReads_met_ge (d : Dev) (t : Nat) (r : Run) (runs : List (Nat × Nat)) {u : Nat × Nat} (hu : u ∈ runs) (h : 0 < u.2) :
    d.placeAnswer (place u.1) ≤ (d.noteReads t r runs).bank.met := by
  have hloads (d : Dev) : d.placeAnswer (place u.1) ≤ (runs.foldl (fun d x => (d.load x.1 x.2).2) d).bank.met := by
    induction runs generalizing d with
    | nil => simp at hu
    | cons v l ih =>
      rw [List.foldl_cons]
      rcases List.mem_cons.mp hu with rfl | hmem
      · exact (load_met_ge d u.1 u.2 h).trans (loads_accesses _ l fun w _ => answersLe_two _ w.1 w.2).metGe
      · rw [← (load_accesses d v.1 v.2 (answersLe_two d v.1 v.2)).placeAnswer]
        exact ih hmem _
  exact (hloads d).trans ((feedSeals_movesSeals _ t r false runs).accesses 0).metGe

/-! ## Stores -/

theorem storePieces_nil (w : Writes) (k : Nat) (d : Dev) (a : Nat) : Dev.storePieces w k d a [] = (d, true) := by
  cases k <;> rfl

/-- One piece of a store: what it touches, and the bytes that it leaves alone. -/
theorem storePiece_spec {b : Nat} (d : Dev) (w : Writes) (a k : Nat) (l : List Byte) (h : d.placeAnswer (place a) ≤ b) :
    let e := (d.wake (place a)).meet (place a)
    let x := if d.placeAdmits w (place a) then (e.write a l).countWrite a k else e
    Accesses b d x ∧ SameMemBut d x a l.length := by
  have hwake := (wake_accesses d (place a)).mono (Nat.zero_le b)
  have hmeet := hwake.trans (meet_accesses _ _ ((hwake.placeAnswer _).le.trans h))
  have hkeep := ((wake_keepsBytes d (place a)).trans (meet_keepsBytes _ (place a))).sameMem
  dsimp only
  split_ifs
  · refine ⟨hmeet.trans (((write_accesses _ a l).trans (countWrite_accesses _ a k)).mono (Nat.zero_le b)), fun c hc => ?_⟩
    rw [(countWrite_keepsBytes _ a k).sameMem, write_byte_out _ _ _ _ hc, hkeep]
  · exact ⟨hmeet, fun c _ => hkeep c⟩

theorem storePieces_spec {b : Nat} (w : Writes) (f : Nat) (d : Dev) (a : Nat) (l : List Byte) (h : d.answersLe b a l.length) :
    Accesses b d (Dev.storePieces w f d a l).1 ∧ SameMemBut d (Dev.storePieces w f d a l).1 a l.length := by
  induction f generalizing d a l with
  | zero => exact ⟨.refl b d, fun _ _ => rfl⟩
  | succ f ih =>
    rw [Dev.storePieces]
    split_ifs with hnil
    · exact ⟨.refl b d, fun _ _ => rfl⟩
    · have hlen : 0 < l.length := List.length_pos_iff.mpr (by simpa using hnil)
      dsimp only
      generalize hk : min l.length (placeEnd a - a) = k
      obtain ⟨hone, hsame⟩ := storePiece_spec d w a k (l.take k) (h 0 hlen)
      obtain ⟨hrest, hsames⟩ := ih _ (a + k) (l.drop k) fun i hi => by
        rw [hone.placeAnswer, Nat.add_assoc]
        exact h _ (by rw [List.length_drop] at hi; omega)
      refine ⟨hone.trans hrest, fun c hc => (hsames c ?_).trans (hsame c ?_)⟩
      · rw [List.length_drop]; omega
      · rw [List.length_take]; omega

theorem store_accesses {b : Nat} (d : Dev) (w : Writes) (a : Nat) (l : List Byte) (h : d.answersLe b a l.length) :
    Accesses b d (d.store w a l).1 := (storePieces_spec w 1024 d a l h).1

theorem store_sameMemBut (d : Dev) (w : Writes) (a : Nat) (l : List Byte) : SameMemBut d (d.store w a l).1 a l.length :=
  (storePieces_spec w 1024 d a l (answersLe_two d a l.length)).2

/-- A write that its one place admits is admitted whole, and its bytes stand in memory. -/
theorem store_stored (d : Dev) (w : Writes) (a : Nat) (l : List Byte) (h : d.mayStore w a l.length = true) :
    (d.store w a l).2 = true ∧ Stored (d.store w a l).1 a l := by
  rcases List.eq_nil_or_concat l with rfl | hcat
  · exact ⟨rfl, fun i hi => absurd hi (Nat.not_lt_zero i)⟩
  have hlen : 0 < l.length := by obtain ⟨t, x, rfl⟩ := hcat; simp
  obtain ⟨hcan, hend⟩ : d.canWrite w a l.length = true ∧ a + l.length ≤ placeEnd a := by
    simpa only [Dev.mayStore, Bool.and_eq_true, decide_eq_true_eq] using h
  have hadmits : d.placeAdmits w (place a) = true := by
    obtain ⟨t, ht⟩ := placesOf_cons a l.length hlen
    rw [Dev.canWrite, ht, List.all_cons, Bool.and_eq_true] at hcan
    exact hcan.1
  have hmin : min l.length (placeEnd a - a) = l.length := by omega
  have hne : l.isEmpty = false := by cases l <;> simp_all
  have hstore : d.store w a l = ((((d.wake (place a)).meet (place a)).write a l).countWrite a l.length, true) := by
    rw [Dev.store, Dev.storePieces, hne]
    simp only [Bool.false_eq_true, if_false, hmin, hadmits, if_true, List.take_length, List.drop_length, storePieces_nil, Bool.and_true]
  rw [hstore]
  refine ⟨rfl, fun i hi => ?_⟩
  rw [(countWrite_keepsBytes _ a l.length).sameMem, write_byte_in _ _ _ _ hi, List.getElem?_eq_getElem hi]

theorem storeRuns_accesses {b : Nat} (d : Dev) (w : Writes) (runs : List (Nat × Nat)) (l : List Byte)
    (h : ∀ u ∈ runs, d.answersLe b u.1 u.2) : Accesses b d (d.storeRuns w runs l).1 := by
  induction runs generalizing d l with
  | nil => exact .refl b d
  | cons u t ih =>
    have hone : Accesses b d (d.store w u.1 (l.take u.2)).1 :=
      store_accesses d w u.1 _ fun i hi => h u List.mem_cons_self i (by rw [List.length_take] at hi; omega)
    exact hone.trans (ih _ (l.drop u.2) fun v hv => hone.answersLe (h v (List.mem_cons_of_mem _ hv)))

theorem storeRuns_sameMemRuns (d : Dev) (w : Writes) (runs : List (Nat × Nat)) (l : List Byte) :
    SameMemRuns d (d.storeRuns w runs l).1 runs := by
  induction runs generalizing d l with
  | nil => exact fun _ _ => rfl
  | cons u t ih =>
    intro c hc
    have hrest := ih (d.store w u.1 (l.take u.2)).1 (l.drop u.2) c fun v hv => hc v (List.mem_cons_of_mem _ hv)
    refine hrest.trans (store_sameMemBut d w u.1 (l.take u.2) c ?_)
    have := hc u List.mem_cons_self
    rw [List.length_take]; omega

theorem storeRuns_single (d : Dev) (w : Writes) (a n : Nat) (l : List Byte) (h : l.length = n) :
    d.storeRuns w [(a, n)] l = d.store w a l := by
  simp [Dev.storeRuns, ← h]

end Sys2Proof.Machine
end

section
/-!
The end of a command's effect (R22, R58, R380): its run takes its new state, seals pass on, and a command that makes no further access
gives up its scoreboard entries.
-/
namespace Sys2Proof.Machine

/-- Giving up scoreboard entries changes the scoreboard alone. -/
theorem releaseUp_board (k : Nat) (d : Dev) (t : Nat) (c : Cmd) :
    ∃ l, Dev.releaseUp k d t c = { d with eng := { d.eng with board := l } } := by
  induction k generalizing t c with
  | zero => exact ⟨_, rfl⟩
  | succ k ih =>
    rw [Dev.releaseUp]
    split
    · exact ⟨_, rfl⟩
    · split_ifs
      · exact ⟨_, rfl⟩
      · split
        · exact ih _ _
        · exact ⟨_, rfl⟩

theorem releaseDone_board (d : Dev) (t : Nat) (r : Run) : ∃ l, d.releaseDone t r = { d with eng := { d.eng with board := l } } := by
  unfold Dev.releaseDone
  split_ifs
  · exact releaseUp_board 3 d t r.cmd
  · exact ⟨_, rfl⟩

theorem find?_slot_map {l : List Run} {k : Nat} {r r' : Run} (h : l.find? (fun o => o.slot == k) = some r) (hs : r'.slot = r.slot) :
    (l.map (fun o => if o.slot == r'.slot then r' else o)).find? (fun o => o.slot == k) = some r' := by
  have hr : r.slot = k := by simpa using List.find?_some h
  obtain rfl : r'.slot = k := hs.trans hr
  induction l with
  | nil => simp at h
  | cons o t ih =>
    by_cases ho : o.slot = r'.slot
    · simp [ho]
    · simp only [List.map_cons, List.find?_cons, beq_iff_eq, ho, if_false, beq_eq_false_iff_ne.mpr ho] at h ⊢
      simpa using ih h

theorem setRun_runAt {d : Dev} {t k : Nat} {r r' : Run} (h : d.runAt t k = some r) (hs : r'.slot = r.slot) :
    (d.setRun t r').runAt t k = some r' := by
  have hruns : ((d.setRun t r').tck t).runs = (d.tck t).runs.map (fun o => if o.slot == r'.slot then r' else o) := by
    rw [Dev.setRun, Dev.setTck, Dev.tck, nget_nput_same]
  rw [Dev.runAt, hruns]
  exact find?_slot_map h hs

/-- After an effect slot `k` of tackle `t` holds `r`, and from `d` on only seals and the scoreboard have moved. -/
structure Settled (t k : Nat) (d : Dev) (r : Run) (e : Dev) : Prop where
  run : e.runAt t k = some r
  regs : SameRegs d e [(F.MST_DIG_STAT_BACKLOG, [])]
  bytes : KeepsBytes d e

theorem Settled.hasStatus {t k : Nat} {d e : Dev} {r : Run} {st : Status} (h : Settled t k d r e) (hs : r.status = some st) :
    e.hasStatus t k st := ⟨r, h.run, hs⟩

theorem settled_setRun {d : Dev} {t k : Nat} {r r' : Run} (h : d.runAt t k = some r) (hs : r'.slot = r.slot) :
    Settled t k d r' (((d.setRun t r').pumpSeals t).releaseDone t r') := by
  obtain ⟨hregs, hbytes, htck, -⟩ := pumpSeals_movesSeals (d.setRun t r') t
  obtain ⟨l, hl⟩ := releaseDone_board ((d.setRun t r').pumpSeals t) t r'
  rw [hl]
  refine ⟨?run, hregs, ⟨hbytes.mem, hbytes.lost, hbytes.out⟩⟩
  case run =>
    rw [← setRun_runAt h hs]
    simp only [Dev.runAt, Dev.tck, htck]

theorem metEnd_served {d : Dev} {r : Run} {y : Dev × Run} (h : y.1.bank.met = 0) : d.metEnd r y = y := by
  rw [Dev.metEnd, h]; rfl

theorem metEnd_held {d : Dev} {r : Run} {y : Dev × Run} (h : y.1.bank.met = 1) : d.metEnd r y = (d, r) := by
  rw [Dev.metEnd, h]; rfl

theorem metEnd_reset {d : Dev} {r : Run} {y : Dev × Run} (h : 2 ≤ y.1.bank.met) :
    d.metEnd r y = (d, { r with status := some .unitReset }) := by
  obtain ⟨n, hn⟩ : ∃ n, y.1.bank.met = n + 2 := ⟨y.1.bank.met - 2, by omega⟩
  rw [Dev.metEnd, hn]; rfl

section
variable {d : Dev} {t k o : Nat} {r : Run} {ok : Nat → Bool} {f : Dev → Run → Dev × Run} {y : Dev × Run}

/-- The effect of a command that executes. -/
theorem effect_of_executes (hx : d.executes t k o r) (ho : ok o = true) (hf : f d r = y) :
    d.effect t k ok f = (((d.metEnd r y).1.setRun t (d.metEnd r y).2).pumpSeals t).releaseDone t (d.metEnd r y).2 := by
  obtain ⟨⟨hrun, hop, hstatus, hparts, hsts, -⟩, hon⟩ := hx
  simp [Dev.effect, hrun, hop, hstatus, hparts, hsts, hon, ho, hf]

/-- Every access was served: the effect takes place. -/
theorem effect_served (hx : d.executes t k o r) (ho : ok o = true) (hf : f d r = y) (ha : Accesses 0 d y.1) (hs : y.2.slot = r.slot) :
    Settled t k y.1 y.2 (d.effect t k ok f) := by
  obtain ⟨hrun, -, -, -, -, hmet⟩ := hx.1
  rw [effect_of_executes hx ho hf, metEnd_served (ha.met_eq_zero hmet)]
  exact settled_setRun ((ha.runAt t k).trans hrun) hs

/-- An access met a stopped island and none one in reset: nothing takes place yet (R58). -/
theorem effect_held (hx : d.executes t k o r) (ho : ok o = true) (hf : f d r = y) (hmet : y.1.bank.met = 1) :
    Settled t k d r (d.effect t k ok f) := by
  rw [effect_of_executes hx ho hf, metEnd_held hmet]
  exact settled_setRun hx.1.1 rfl

/-- An access met an island in reset: the command ends with UNIT_RESET and has no other effect (R22). -/
theorem effect_reset (hx : d.executes t k o r) (ho : ok o = true) (hf : f d r = y) (hmet : 2 ≤ y.1.bank.met) :
    Settled t k d { r with status := some .unitReset } (d.effect t k ok f) := by
  rw [effect_of_executes hx ho hf, metEnd_reset hmet]
  exact settled_setRun hx.1.1 rfl

end

end Sys2Proof.Machine
end

section
/-!
Results of a command with their seals (R86, R354), and an engine's command over its decoded operands.
-/
namespace Sys2Proof.Machine

/-- A run's store of `l` at `dst`, with the seals of what it wrote: the device, and whether every write was admitted. -/
def Dev.storeSealed (d : Dev) (t : Nat) (r : Run) (dst : List (Nat × Nat)) (l : List Byte) : Dev × Bool :=
  ((d.storeRuns (r.writer t) dst l).1.feedSeals t r true dst, (d.storeRuns (r.writer t) dst l).2)

section
variable {b t : Nat} {d : Dev} {r : Run}

theorem storeSealed_accesses (dst : List (Nat × Nat)) (l : List Byte) (h : ∀ u ∈ dst, d.answersLe b u.1 u.2) :
    Accesses b d (d.storeSealed t r dst l).1 :=
  (storeRuns_accesses d _ dst l h).trans ((feedSeals_movesSeals _ t r true dst).accesses b)

theorem storeSealed_sameMemRuns (dst : List (Nat × Nat)) (l : List Byte) : SameMemRuns d (d.storeSealed t r dst l).1 dst :=
  fun a ha => ((feedSeals_movesSeals _ t r true dst).bytes.sameMem a).trans (storeRuns_sameMemRuns d _ dst l a ha)

/-- A store at one run that its owner admits stands there in full. -/
theorem storeSealed_single {q n : Nat} {l : List Byte} (hl : l.length = n) (h : d.mayStore (r.writer t) q n = true) :
    (d.storeSealed t r [(q, n)] l).2 = true ∧ Stored (d.storeSealed t r [(q, n)] l).1 q l ∧
      SameMemBut d (d.storeSealed t r [(q, n)] l).1 q n := by
  obtain ⟨hok, hst⟩ := store_stored d (r.writer t) q l (hl ▸ h)
  refine ⟨(congrArg (·.2) (storeRuns_single d _ q n l hl)).trans hok, fun i hi => ?_, fun a ha => ?_⟩
  · rw [← hst i hi, Dev.storeSealed, storeRuns_single d _ q n l hl]
    exact congrArg some ((feedSeals_movesSeals _ t r true _).bytes.sameMem _)
  · exact storeSealed_sameMemRuns _ l a (by simpa using ha)

end

theorem length_read (d : Dev) (a n : Nat) : (d.read a n).length = n := by
  unfold Dev.read; split_ifs <;> simp

theorem answersLe_of_runsUp {d : Dev} {l : List (Nat × Nat)} (h : d.runsUp l) : ∀ u ∈ l, d.answersLe 0 u.1 u.2 :=
  fun u hu => answersLe_of_memUp (h u hu)

/-- What is stored through other devices that hold the same bytes. -/
theorem Stored.keepsBytes {d e : Dev} {a : Nat} {l : List Byte} (h : Stored d a l) (k : KeepsBytes d e) : Stored e a l :=
  fun i hi => by rw [k.sameMem]; exact h i hi

theorem SameMemBut.keepsBytes {c d e f : Dev} {a n : Nat} (k : KeepsBytes c d) (h : SameMemBut d e a n) (k' : KeepsBytes e f) :
    SameMemBut c f a n := fun b hb => (k'.sameMem b).trans ((h b hb).trans (k.sameMem b))

theorem SameMemRuns.keepsBytes {c d e f : Dev} {l : List (Nat × Nat)} (k : KeepsBytes c d) (h : SameMemRuns d e l)
    (k' : KeepsBytes e f) : SameMemRuns c f l := fun b hb => (k'.sameMem b).trans ((h b hb).trans (k.sameMem b))

/-- A run whose stores are done has OK or OWNER (R354). -/
theorem Settled.stores {t k : Nat} {d e : Dev} {r : Run} {ok : Bool} (h : Settled t k d r e) (hs : r.status = some (storeStatus ok)) :
    e.hasStatus t k .ok ∨ e.hasStatus t k .owner := by
  cases ok with
  | true => exact .inl (h.hasStatus hs)
  | false => exact .inr (h.hasStatus hs)

section
variable {d : Dev} {t k o : Nat} {r : Run} {x : Dec} {f : Dev → Run → Dec → Sel → Dev × Run} {y : Dev × Run}

theorem engineOp_served (hx : d.executes t k o r) (hd : r.dec t = some x) (hf : f d r x (r.sel x) = y) (ha : Accesses 0 d y.1)
    (hs : y.2.slot = r.slot) : Settled t k y.1 y.2 (d.engineOp t k o f) :=
  effect_served hx (beq_self_eq_true o) (by simp only [hd, hf]) ha hs

theorem engineOp_held (hx : d.executes t k o r) (hd : r.dec t = some x) (hf : f d r x (r.sel x) = y) (hmet : y.1.bank.met = 1) :
    Settled t k d r (d.engineOp t k o f) :=
  effect_held hx (beq_self_eq_true o) (by simp only [hd, hf]) hmet

theorem engineOp_reset (hx : d.executes t k o r) (hd : r.dec t = some x) (hf : f d r x (r.sel x) = y) (hmet : 2 ≤ y.1.bank.met) :
    Settled t k d { r with status := some .unitReset } (d.engineOp t k o f) :=
  effect_reset hx (beq_self_eq_true o) (by simp only [hd, hf]) hmet

end

end Sys2Proof.Machine
end

section
/-!
MOVE (R419): what it reads and stores, and what it ends with by the islands that it meets.
-/
namespace Sys2Proof.Machine

/-- The device and the store of a MOVE from `src` to `dst`. -/
def Dev.moved (d : Dev) (t : Nat) (r : Run) (src dst : List (Nat × Nat)) : Dev × Bool :=
  (d.noteReads t r src).storeSealed t r dst (d.readRuns src)

section
variable {d : Dev} {t k : Nat} {r : Run} {x : Dec} {a c : Opnd}

theorem move_served (hx : d.executes t k 0x10 r) (hd : r.dec t = some x) (ho : x.ops = [a, c])
    (ha : Accesses 0 d (d.moved t r (a.runs (r.sel x)) (c.runs (r.sel x))).1) :
    Settled t k (d.moved t r (a.runs (r.sel x)) (c.runs (r.sel x))).1
      { r with status := some (storeStatus (d.moved t r (a.runs (r.sel x)) (c.runs (r.sel x))).2) } (d.move t k) :=
  engineOp_served (y := (_, _)) hx hd (by simp only [ho, Dev.moved, Dev.storeSealed]) ha rfl

theorem moved_accesses {b : Nat} {src dst : List (Nat × Nat)} (hs : ∀ u ∈ src, d.answersLe b u.1 u.2)
    (hd : ∀ u ∈ dst, d.answersLe b u.1 u.2) : Accesses b d (d.moved t r src dst).1 :=
  have hread := noteReads_accesses d t r src hs
  hread.trans (storeSealed_accesses dst _ fun u hu => hread.answersLe (hd u hu))

/-- A MOVE meets at least what the place of each source run's first byte answers. -/
theorem moved_met_ge {src dst : List (Nat × Nat)} {u : Nat × Nat} (hu : u ∈ src) (h : 0 < u.2) :
    d.placeAnswer (place u.1) ≤ (d.moved t r src dst).1.bank.met :=
  (noteReads_met_ge d t r src hu h).trans (storeSealed_accesses dst _ fun v _ => answersLe_two _ v.1 v.2).metGe

end

section
variable {s : State} {t : Fin 65536} {k : Nat} {r : Run} {x : Dec} {a c : Opnd}

theorem completes_move (hx : s.dev.executes t.val k 0x10 r) (hd : r.dec t.val = some x) (ho : x.ops = [a, c])
    (hup : s.dev.runsUp (a.runs (r.sel x) ++ c.runs (r.sel x))) :
    Completes (.move t k) s (fun d => (d.hasStatus t.val k .ok ∨ d.hasStatus t.val k .owner) ∧
      SameMemRuns s.dev d (c.runs (r.sel x))) := by
  have hserved := answersLe_of_runsUp hup
  have hacc := moved_accesses (t := t.val) (r := r) (fun u hu => hserved u (List.mem_append_left _ hu))
    (fun u hu => hserved u (List.mem_append_right _ hu))
  have hend := move_served hx hd ho hacc
  refine completes_of_exec rfl ⟨hend.stores rfl, ?_⟩
  exact SameMemRuns.keepsBytes (noteReads_keepsBytes _ _ _ _) (storeSealed_sameMemRuns _ _) hend.bytes

theorem completes_move_copies {p q n : Nat} (hx : s.dev.executes t.val k 0x10 r) (hd : r.dec t.val = some x) (ho : x.ops = [a, c])
    (hsrc : a.runs (r.sel x) = [(p, n)]) (hdst : c.runs (r.sel x) = [(q, n)]) (hmay : s.dev.mayStore (r.writer t.val) q n = true)
    (hp : s.dev.memUp p n) (hq : s.dev.memUp q n) :
    Completes (.move t k) s (fun d => d.hasStatus t.val k .ok ∧ Stored d q (s.dev.read p n) ∧ SameMemBut s.dev d q n) := by
  have hread := noteReads_accesses s.dev t.val r [(p, n)] (List.forall_mem_singleton.mpr (answersLe_of_memUp hp))
  have hacc := moved_accesses (t := t.val) (r := r) (src := [(p, n)]) (dst := [(q, n)])
    (List.forall_mem_singleton.mpr (answersLe_of_memUp hp)) (List.forall_mem_singleton.mpr (answersLe_of_memUp hq))
  rw [← hsrc, ← hdst] at hacc
  have hend := move_served hx hd ho hacc
  rw [hsrc, hdst] at hend
  have hbytes : s.dev.readRuns [(p, n)] = s.dev.read p n := by simp [Dev.readRuns]
  obtain ⟨hok, hst, hsame⟩ := storeSealed_single (length_read s.dev p n) ((hread.mayStore _ _ _).trans hmay)
  rw [Dev.moved, hbytes] at hend
  refine completes_of_exec rfl ⟨hend.hasStatus ?_, hst.keepsBytes hend.bytes,
    SameMemBut.keepsBytes (noteReads_keepsBytes _ _ _ _) hsame hend.bytes⟩
  rw [hok]; rfl

theorem completes_move_reset {u : Nat × Nat} (hx : s.dev.executes t.val k 0x10 r) (hd : r.dec t.val = some x) (ho : x.ops = [a, c])
    (hu : u ∈ a.runs (r.sel x)) (hn : 0 < u.2) (hon : s.dev.islandOn (placeIsland (place u.1)) = false)
    (hstop : s.dev.islandStopped (placeIsland (place u.1)) = false) :
    Completes (.move t k) s (fun d => d.hasStatus t.val k .unitReset ∧ SameMem s.dev d) := by
  have hanswer : s.dev.placeAnswer (place u.1) = 2 := by simp [Dev.placeAnswer, hon, hstop]
  have hmet := moved_met_ge (d := s.dev) (t := t.val) (r := r) (dst := c.runs (r.sel x)) hu hn
  rw [hanswer] at hmet
  have hend : Settled t.val k s.dev { r with status := some .unitReset } (s.dev.move t.val k) :=
    engineOp_reset (y := (_, _)) hx hd (by rw [ho]; rfl) hmet
  exact completes_of_exec rfl ⟨hend.hasStatus rfl, hend.bytes.sameMem⟩

theorem completes_move_held {p n : Nat} (hx : s.dev.executes t.val k 0x10 r) (hd : r.dec t.val = some x) (ho : x.ops = [a, c])
    (hsrc : a.runs (r.sel x) = [(p, n)]) (hn : 0 < n)
    (hstop : ∀ i, i < n → s.dev.islandStopped (placeIsland (place (p + i))) = true) (hup : s.dev.runsUp (c.runs (r.sel x))) :
    Completes (.move t k) s (fun d => d.runAt t.val k = some r ∧ SameMem s.dev d) := by
  have hheld (i : Nat) (hi : i < n) : s.dev.placeAnswer (place (p + i)) = 1 := by
    have hst := hstop i hi
    have hoff : s.dev.islandOn (placeIsland (place (p + i))) = false := by
      rw [Dev.islandStopped, Bool.and_eq_true, Bool.not_eq_true'] at hst
      exact hst.1
    simp [Dev.placeAnswer, hoff, hst]
  have hle := moved_accesses (t := t.val) (r := r) (b := 1) (src := [(p, n)])
    (List.forall_mem_singleton.mpr fun i hi => (hheld i hi).le) (fun u hu i hi => (answersLe_of_runsUp hup u hu i hi).trans zero_le_one)
  have hge : 1 ≤ (s.dev.moved t.val r [(p, n)] (c.runs (r.sel x))).1.bank.met := by
    have hfirst : s.dev.placeAnswer (place p) = 1 := by simpa only [Nat.add_zero] using hheld 0 hn
    rw [← hfirst]
    exact moved_met_ge (u := (p, n)) (List.mem_singleton_self _) hn
  have hmet : (s.dev.moved t.val r (a.runs (r.sel x)) (c.runs (r.sel x))).1.bank.met = 1 := by
    have h0 := hx.1.2.2.2.2.2
    have hmax := hle.metLe
    rw [hsrc]; omega
  have hend : Settled t.val k s.dev r (s.dev.move t.val k) := engineOp_held (y := (_, _)) hx hd (by rw [ho]; rfl) hmet
  exact completes_of_exec rfl ⟨hend.run, hend.bytes.sameMem⟩

end

end Sys2Proof.Machine
end

section
/-!
FILL (R422): its pattern from the first byte of every innermost run on.
-/
namespace Sys2Proof.Machine

/-- The bytes that a FILL with pattern `pat` stores over the selection `s`. -/
def fillRows (pat : List Byte) (s : Sel) : List Byte :=
  (List.replicate (rangesLen (s.getD 1 [(0, 1)]) * rangesLen (s.getD 2 [(0, 1)]) * rangesLen (s.getD 3 [(0, 1)]))
    ((s.getD 0 [(0, 1)]).flatMap (fun p => fillBytes pat p.1 p.2))).flatten

/-- One innermost run of `n` bytes is filled from the pattern's first byte on. -/
theorem fillRows_single (pat : List Byte) (n : Nat) : fillRows pat [[(0, n)], [(0, 1)], [(0, 1)], [(0, 1)]] = fillBytes pat 0 n := by
  simp [fillRows, rangesLen]

theorem getElem?_fillBytes (pat : List Byte) (n i : Nat) (h : i < n) : (fillBytes pat 0 n)[i]? = some (pat.getD (i % 8) 0) := by
  simp [fillBytes, h]

theorem length_fillBytes (pat : List Byte) (lo n : Nat) : (fillBytes pat lo n).length = n := by simp [fillBytes]

theorem getD_takeAt (l : List Byte) (o k i : Nat) (h : i < k) : (takeAt l o k).getD i 0 = l.getD (o + i) 0 := by
  simp [takeAt, h]

variable {s : State} {t : Fin 65536} {k : Nat} {r : Run} {x : Dec} {c : Opnd}

theorem fill_served {d : Dev} {t : Nat} (hx : d.executes t k 0x13 r) (hd : r.dec t = some x) (ho : x.ops = [c])
    (ha : Accesses 0 d (d.storeSealed t r (c.runs (r.sel x)) (fillRows (takeAt r.cmd.bytes 24 8) (r.sel x))).1) :
    Settled t k (d.storeSealed t r (c.runs (r.sel x)) (fillRows (takeAt r.cmd.bytes 24 8) (r.sel x))).1
      { r with status := some (storeStatus (d.storeSealed t r (c.runs (r.sel x)) (fillRows (takeAt r.cmd.bytes 24 8) (r.sel x))).2) }
      (d.fill t k) :=
  engineOp_served (y := (_, _)) hx hd (by simp only [ho, Dev.storeSealed, fillRows]) ha rfl

theorem completes_fill (hx : s.dev.executes t.val k 0x13 r) (hd : r.dec t.val = some x) (ho : x.ops = [c])
    (hup : s.dev.runsUp (c.runs (r.sel x))) :
    Completes (.fill t k) s (fun d => (d.hasStatus t.val k .ok ∨ d.hasStatus t.val k .owner) ∧
      SameMemRuns s.dev d (c.runs (r.sel x))) := by
  have hend := fill_served hx hd ho (storeSealed_accesses _ _ (answersLe_of_runsUp hup))
  exact completes_of_exec rfl ⟨hend.stores rfl, SameMemRuns.keepsBytes (.refl _) (storeSealed_sameMemRuns _ _) hend.bytes⟩

theorem completes_fill_pattern {q n : Nat} (hx : s.dev.executes t.val k 0x13 r) (hd : r.dec t.val = some x) (ho : x.ops = [c])
    (hsel : r.sel x = [[(0, n)], [(0, 1)], [(0, 1)], [(0, 1)]]) (hdst : c.runs (r.sel x) = [(q, n)])
    (hmay : s.dev.mayStore (r.writer t.val) q n = true) (hq : s.dev.memUp q n) :
    Completes (.fill t k) s (fun d => d.hasStatus t.val k .ok ∧
      (∀ i : Nat, i < n → d.byte (q + i) = r.cmd.bytes.getD (24 + i % 8) 0) ∧ SameMemBut s.dev d q n) := by
  have hup : s.dev.runsUp (c.runs (r.sel x)) := by rw [hdst]; exact List.forall_mem_singleton.mpr hq
  have hend := fill_served hx hd ho (storeSealed_accesses _ _ (answersLe_of_runsUp hup))
  rw [hdst, hsel, fillRows_single] at hend
  obtain ⟨hok, hst, hsame⟩ := storeSealed_single (length_fillBytes (takeAt r.cmd.bytes 24 8) 0 n) hmay
  refine completes_of_exec rfl ⟨hend.hasStatus ?_, fun i hi => ?_, SameMemBut.keepsBytes (.refl _) hsame hend.bytes⟩
  · rw [hok]; rfl
  · have hbyte := hst.keepsBytes hend.bytes i (by rwa [length_fillBytes])
    rw [getElem?_fillBytes _ _ _ hi, getD_takeAt _ _ _ _ (Nat.mod_lt i (by decide))] at hbyte
    exact Option.some.inj hbyte

end Sys2Proof.Machine
end

section
/-!
GATHER and SCATTER (R420, R421): one emitted piece after the other between the span and the local region.
-/
namespace Sys2Proof.Machine

/-- The piece that comes next: its span address, and its place in the local region (R420). -/
theorem streamPairs_getLast? (l : List Byte) (g : Stream) (h : g.done < g.pieces.length) :
    (streamPairs l g (g.done + 1)).getLast? = some (g.pieces.getD g.done 0, leAt l 8 6 + g.done * leAt l 16 3) := by
  have hlen : (g.pieces.take g.done).length = ((List.range g.done).map (fun j => leAt l 8 6 + j * leAt l 16 3)).length := by
    simp; omega
  rw [streamPairs, List.take_succ_eq_append_getElem h, List.range_succ, List.map_append, List.zip_append hlen]
  simp [List.getD_eq_getElem?_getD, h]

/-- The runs of a stream's processed pieces: at their span addresses, or in the local region. -/
def streamRuns (l : List Byte) (g : Stream) (span : Bool) : List (Nat × Nat) :=
  (streamPairs l g g.done).map (fun p => (if span then p.1 else p.2, leAt l 16 3))

section
variable {d : Dev} {t k o : Nat} {r : Run} {g : Stream} {gather : Bool}

/-- A piece of `n` bytes whose islands run and whose destination admits it goes from `src` to `dst`, and the stream moves on. -/
theorem streamMove_piece {p q src dst n : Nat} (hx : d.executes t k o r) (hg : r.stream = some g) (hlt : g.done < g.pieces.length)
    (hp : p = g.pieces.getD g.done 0) (hn : n = leAt r.cmd.bytes 16 3) (hq : q = leAt r.cmd.bytes 8 6 + g.done * n)
    (hsrc : src = if gather then p else q) (hdst : dst = if gather then q else p) (hmay : d.mayStore (r.writer t) dst n = true)
    (hs : d.memUp src n) (hd : d.memUp dst n) :
    Stored (d.streamMove t k o gather) dst (d.read src n) ∧ SameMemBut d (d.streamMove t k o gather) dst n ∧
      (d.streamMove t k o gather).runAt t k = some { r with stream := some { g with done := g.done + 1 } } := by
  have hload := load_accesses d src n (answersLe_of_memUp hs)
  have hlen : (d.load src n).1.length = n := length_read d src n
  obtain ⟨hok, hst⟩ := store_stored (d.load src n).2 (r.writer t) dst (d.load src n).1 (by rw [hlen, hload.mayStore, hmay])
  have hput : Accesses 0 (d.load src n).2 ((d.load src n).2.store (r.writer t) dst (d.load src n).1).1 :=
    store_accesses _ _ _ _ (by rw [hlen]; exact hload.answersLe (answersLe_of_memUp hd))
  have hend : Settled t k ((d.load src n).2.store (r.writer t) dst (d.load src n).1).1
      { r with stream := some { g with done := g.done + 1 } } (d.streamMove t k o gather) := by
    refine effect_served (y := (_, _)) hx (beq_self_eq_true o) ?_ (hload.trans hput) rfl
    simp only [hg, hlt, if_true, streamPairs_getLast? _ g hlt, Option.getD_some, ← hn, ← hq, ← hp, ← hsrc, ← hdst, hok]
  have hsame := store_sameMemBut (d.load src n).2 (r.writer t) dst (d.load src n).1
  rw [hlen] at hsame
  exact ⟨hst.keepsBytes hend.bytes, SameMemBut.keepsBytes (load_keepsBytes d src n) hsame hend.bytes, hend.run⟩

/-- Once the stream has ended and every piece is processed the command has its status; only seals move. -/
theorem streamMove_end (hx : d.executes t k o r) (hg : r.stream = some g) (hdone : g.done = g.pieces.length) (hend : g.ended = true) :
    (d.streamMove t k o gather).hasStatus t k (if r.seqErr then .reservedOp else if r.acc = [] then .ok else .owner) ∧
      SameRegs d (d.streamMove t k o gather) [(F.MST_DIG_STAT_BACKLOG, [])] ∧ SameMem d (d.streamMove t k o gather) := by
  have hstatus : storeStatus r.acc.isEmpty = if r.acc = [] then .ok else .owner := by cases r.acc <;> rfl
  have hfed (src dst : List (Nat × Nat)) : MovesSeals d ((d.feedSeals t r false src).feedSeals t r true dst) :=
    (feedSeals_movesSeals d t r false src).trans (feedSeals_movesSeals _ t r true dst)
  have hnone : ¬g.done < g.pieces.length := by omega
  have hset : Settled t k ((d.feedSeals t r false (streamRuns r.cmd.bytes g gather)).feedSeals t r true (streamRuns r.cmd.bytes g !gather))
      { r with acc := [], status := some (if r.seqErr then .reservedOp else storeStatus r.acc.isEmpty) } (d.streamMove t k o gather) := by
    refine effect_served (y := (_, _)) hx (beq_self_eq_true o) ?_ ((hfed _ _).accesses 0) rfl
    cases gather <;> simp only [hg, hnone, if_false, hend, if_true] <;> rfl
  rw [hstatus] at hset
  exact ⟨hset.hasStatus rfl, sameRegs_trans (hfed _ _).regs hset.regs, ((hfed _ _).bytes.trans hset.bytes).sameMem⟩

end

end Sys2Proof.Machine
end

section
/-!
SEALCHK (R423): the seal of a piece at its place in the list, and the result word of a check.
-/
namespace Sys2Proof.Machine

/-- The runs of the pieces `js` of a SEALCHK. -/
def pieceRuns (l : List Byte) (js : List Nat) : List (Nat × Nat) := js.map (fun j => (leAt l 8 6 + j * sealPiece l, sealPiece l))

/-- The runs of their seals in the list. -/
def sealRuns (l : List Byte) (js : List Nat) : List (Nat × Nat) := js.map (fun j => (leAt l 24 6 + 4 * j, 4))

/-- The pieces whose seal differs from the list's. -/
def Dev.badSeals (d : Dev) (l : List Byte) (js : List Nat) : List Nat :=
  js.filter (fun j => d.pieceSeal l j != ofLE (d.read (leAt l 24 6 + 4 * j) 4))

theorem Accesses.pieceSeal {b : Nat} {d e : Dev} (h : Accesses b d e) (k : KeepsBytes d e) (l : List Byte) (j : Nat) :
    e.pieceSeal l j = d.pieceSeal l j := by rw [Dev.pieceSeal, Dev.pieceSeal, h.read k]

theorem Accesses.badSeals {b : Nat} {d e : Dev} (h : Accesses b d e) (k : KeepsBytes d e) (l : List Byte) (js : List Nat) :
    e.badSeals l js = d.badSeals l js := by simp only [Dev.badSeals, h.pieceSeal k, h.read k]

theorem badSeals_eq_nil {d : Dev} {l : List Byte} {js : List Nat}
    (h : ∀ j ∈ js, d.pieceSeal l j = ofLE (d.read (leAt l 24 6 + 4 * j) 4)) : d.badSeals l js = [] := by
  simpa [Dev.badSeals] using h

/-- The first piece whose seal differs is the least of them. -/
theorem badSeals_min? {d : Dev} {l : List Byte} {js : List Nat} {j : Nat} (hj : j ∈ js)
    (hbad : d.pieceSeal l j ≠ ofLE (d.read (leAt l 24 6 + 4 * j) 4))
    (hgood : ∀ i ∈ js, i < j → d.pieceSeal l i = ofLE (d.read (leAt l 24 6 + 4 * i) 4)) : (d.badSeals l js).min? = some j := by
  rw [List.min?_eq_some_iff]
  refine ⟨by simp [Dev.badSeals, hj, hbad], fun i hi => ?_⟩
  obtain ⟨hmem, hne⟩ : i ∈ js ∧ d.pieceSeal l i ≠ ofLE (d.read (leAt l 24 6 + 4 * i) 4) := by simpa [Dev.badSeals] using hi
  by_contra hlt
  exact hne (hgood i hmem (by omega))

section
variable {d : Dev} {t k : Nat} {r : Run} {x : Dec}

/-- SEALCHK in WRITE mode over the pieces `js`: it reads them and stores their seals. -/
theorem sealchk_write {js : List Nat} (hx : d.executes t k 0x14 r) (hd : r.dec t = some x) (hmode : cbit r.cmd.bytes 4 0 = false)
    (hjs : rangesIdx ((r.sel x).getD 0 [(0, 1)]) = js) (hp : d.runsUp (pieceRuns r.cmd.bytes js)) (hq : d.runsUp (sealRuns r.cmd.bytes js)) :
    ∃ e, KeepsBytes d e ∧ Accesses 0 d e ∧
      Settled t k (e.storeSealed t r (sealRuns r.cmd.bytes js) (js.flatMap (fun j => leBytes 4 (d.pieceSeal r.cmd.bytes j)))).1
        { r with status := some (storeStatus
          (e.storeSealed t r (sealRuns r.cmd.bytes js) (js.flatMap (fun j => leBytes 4 (d.pieceSeal r.cmd.bytes j)))).2) }
        (d.sealchk t k) := by
  have hread := noteReads_accesses d t r _ (answersLe_of_runsUp hp)
  have hkeep := noteReads_keepsBytes d t r (pieceRuns r.cmd.bytes js)
  refine ⟨_, hkeep, hread, engineOp_served (y := (_, _)) hx hd ?_
    (hread.trans (storeSealed_accesses _ _ fun u hu => hread.answersLe (answersLe_of_runsUp hq u hu))) rfl⟩
  simp only [hjs, hmode, Bool.false_eq_true, if_false, ← hread.pieceSeal hkeep, Dev.storeSealed, pieceRuns, sealRuns]

/-- SEALCHK in CHECK mode, of a command that is no part: it reads the pieces and the list, and stores the result word. -/
theorem sealchk_check {js : List Nat} {q : Nat} (hx : d.executes t k 0x14 r) (hd : r.dec t = some x) (hmode : cbit r.cmd.bytes 4 0 = true)
    (hpar : r.cmd.parent = none) (hq : q = leAt r.cmd.bytes 24 6 + 4 * leAt r.cmd.bytes 16 4)
    (hmay : d.mayStore (r.writer t) q 4 = true) (hjs : rangesIdx ((r.sel x).getD 0 [(0, 1)]) = js)
    (hp : d.runsUp (pieceRuns r.cmd.bytes js)) (hl : d.runsUp (sealRuns r.cmd.bytes js)) (hup : d.memUp q 4) :
    (d.sealchk t k).hasStatus t k (if (d.badSeals r.cmd.bytes js).isEmpty then .ok else .sealFail) ∧
      Stored (d.sealchk t k) q (leBytes 4 ((d.badSeals r.cmd.bytes js).min?.getD 0xFFFFFFFF)) ∧ SameMemBut d (d.sealchk t k) q 4 := by
  generalize hword : leBytes 4 ((d.badSeals r.cmd.bytes js).min?.getD 0xFFFFFFFF) = word
  have hlen : word.length = 4 := by rw [← hword, length_leBytes]
  have hpieces := noteReads_accesses d t r _ (answersLe_of_runsUp hp)
  have hkeep := noteReads_keepsBytes d t r (pieceRuns r.cmd.bytes js)
  generalize he : d.noteReads t r (pieceRuns r.cmd.bytes js) = e at hpieces hkeep
  have hlist := hpieces.trans (noteReads_accesses e t r _ fun u hu => hpieces.answersLe (answersLe_of_runsUp hl u hu))
  have hkeeps := hkeep.trans (noteReads_keepsBytes e t r (sealRuns r.cmd.bytes js))
  generalize hf : e.noteReads t r (sealRuns r.cmd.bytes js) = f at hlist hkeeps
  obtain ⟨hok, hst, hsame⟩ := storeSealed_single hlen ((hlist.mayStore _ _ _).trans hmay)
  have hone : f.storeSealed t r [(q, 4)] word = ((f.store (r.writer t) q word).1.feedSeals t r true [(q, 4)], (f.store (r.writer t) q word).2) := by
    rw [Dev.storeSealed, storeRuns_single f _ q 4 word hlen]
  have hacc := hlist.trans (storeSealed_accesses (t := t) (r := r) [(q, 4)] word
    (List.forall_mem_singleton.mpr (hlist.answersLe (answersLe_of_memUp hup))))
  have hend : Settled t k (f.storeSealed t r [(q, 4)] word).1 { r with
      acc := d.badSeals r.cmd.bytes js, status := some (if (d.badSeals r.cmd.bytes js).isEmpty then .ok else .sealFail) } (d.sealchk t k) := by
    refine engineOp_served (y := (_, _)) hx hd ?_ hacc rfl
    rw [hone] at hok ⊢
    rw [← hpieces.badSeals hkeep r.cmd.bytes js] at hword ⊢
    unfold Dev.badSeals at hword ⊢
    unfold pieceRuns at he
    unfold sealRuns at hf
    simp only [hjs, hmode, if_true, he, hf, ← hq, hpar, Option.isSome_none, Bool.false_eq_true, if_false, hword, hok, Bool.not_true]
  exact ⟨hend.hasStatus rfl, hst.keepsBytes hend.bytes, SameMemBut.keepsBytes hkeeps hsame hend.bytes⟩

end

section
variable {s : State} {t : Fin 65536} {k q j : Nat} {r : Run} {x : Dec}

theorem completes_sealchk_write (hx : s.dev.executes t.val k 0x14 r) (hd : r.dec t.val = some x) (hmode : cbit r.cmd.bytes 4 0 = false)
    (hj : rangesIdx ((r.sel x).getD 0 [(0, 1)]) = [j]) (hq : q = leAt r.cmd.bytes 24 6 + 4 * j)
    (hmay : s.dev.mayStore (r.writer t.val) q 4 = true)
    (hp : s.dev.memUp (leAt r.cmd.bytes 8 6 + j * sealPiece r.cmd.bytes) (sealPiece r.cmd.bytes)) (hup : s.dev.memUp q 4) :
    Completes (.sealchk t k) s (fun d => d.hasStatus t.val k .ok ∧ SameMemBut s.dev d q 4 ∧
      Stored d q (leBytes 4 (s.dev.pieceSeal r.cmd.bytes j))) := by
  have hruns : sealRuns r.cmd.bytes [j] = [(q, 4)] := by rw [hq]; rfl
  obtain ⟨e, hkeep, hacc, hend⟩ := sealchk_write hx hd hmode hj (List.forall_mem_singleton.mpr hp)
    (hruns ▸ List.forall_mem_singleton.mpr hup)
  rw [hruns, List.flatMap_singleton] at hend
  obtain ⟨hok, hst, hsame⟩ := storeSealed_single (length_leBytes 4 (s.dev.pieceSeal r.cmd.bytes j)) ((hacc.mayStore _ _ _).trans hmay)
  refine completes_of_exec rfl ⟨hend.hasStatus ?_, SameMemBut.keepsBytes hkeep hsame hend.bytes, hst.keepsBytes hend.bytes⟩
  rw [hok]; rfl

/-- The islands of all that a check reads run. -/
theorem runsUp_of_pieces {d : Dev} {l : List Byte} {js : List Nat}
    (h : ∀ j ∈ js, d.memUp (leAt l 8 6 + j * sealPiece l) (sealPiece l) ∧ d.memUp (leAt l 24 6 + 4 * j) 4) :
    d.runsUp (pieceRuns l js) ∧ d.runsUp (sealRuns l js) :=
  ⟨List.forall_mem_map.mpr fun j hj => (h j hj).1, List.forall_mem_map.mpr fun j hj => (h j hj).2⟩

theorem completes_sealchk_good (hx : s.dev.executes t.val k 0x14 r) (hd : r.dec t.val = some x) (hmode : cbit r.cmd.bytes 4 0 = true)
    (hpar : r.cmd.parent = none) (hq : q = leAt r.cmd.bytes 24 6 + 4 * leAt r.cmd.bytes 16 4)
    (hmay : s.dev.mayStore (r.writer t.val) q 4 = true)
    (hp : ∀ j ∈ rangesIdx ((r.sel x).getD 0 [(0, 1)]), s.dev.memUp (leAt r.cmd.bytes 8 6 + j * sealPiece r.cmd.bytes)
      (sealPiece r.cmd.bytes) ∧ s.dev.memUp (leAt r.cmd.bytes 24 6 + 4 * j) 4) (hup : s.dev.memUp q 4)
    (hgood : ∀ j ∈ rangesIdx ((r.sel x).getD 0 [(0, 1)]),
      s.dev.pieceSeal r.cmd.bytes j = ofLE (s.dev.read (leAt r.cmd.bytes 24 6 + 4 * j) 4)) :
    Completes (.sealchk t k) s (fun d => d.hasStatus t.val k .ok ∧ Stored d q (leBytes 4 0xFFFFFFFF) ∧ SameMemBut s.dev d q 4) := by
  obtain ⟨hpieces, hlist⟩ := runsUp_of_pieces hp
  have hend := sealchk_check hx hd hmode hpar hq hmay rfl hpieces hlist hup
  rw [badSeals_eq_nil hgood] at hend
  exact completes_of_exec rfl hend

theorem completes_sealchk_bad (hx : s.dev.executes t.val k 0x14 r) (hd : r.dec t.val = some x) (hmode : cbit r.cmd.bytes 4 0 = true)
    (hpar : r.cmd.parent = none) (hq : q = leAt r.cmd.bytes 24 6 + 4 * leAt r.cmd.bytes 16 4)
    (hmay : s.dev.mayStore (r.writer t.val) q 4 = true)
    (hp : ∀ i ∈ rangesIdx ((r.sel x).getD 0 [(0, 1)]), s.dev.memUp (leAt r.cmd.bytes 8 6 + i * sealPiece r.cmd.bytes)
      (sealPiece r.cmd.bytes) ∧ s.dev.memUp (leAt r.cmd.bytes 24 6 + 4 * i) 4) (hup : s.dev.memUp q 4)
    (hj : j ∈ rangesIdx ((r.sel x).getD 0 [(0, 1)]))
    (hbad : s.dev.pieceSeal r.cmd.bytes j ≠ ofLE (s.dev.read (leAt r.cmd.bytes 24 6 + 4 * j) 4))
    (hgood : ∀ i ∈ rangesIdx ((r.sel x).getD 0 [(0, 1)]), i < j →
      s.dev.pieceSeal r.cmd.bytes i = ofLE (s.dev.read (leAt r.cmd.bytes 24 6 + 4 * i) 4)) :
    Completes (.sealchk t k) s (fun d => d.hasStatus t.val k .sealFail ∧ Stored d q (leBytes 4 j) ∧ SameMemBut s.dev d q 4) := by
  obtain ⟨hpieces, hlist⟩ := runsUp_of_pieces hp
  have hend := sealchk_check hx hd hmode hpar hq hmay rfl hpieces hlist hup
  have hmin := badSeals_min? hj hbad hgood
  have hsome : (s.dev.badSeals r.cmd.bytes (rangesIdx ((r.sel x).getD 0 [(0, 1)]))).isEmpty = false :=
    List.isEmpty_eq_false_iff.mpr fun hnil => by rw [hnil] at hmin; cases hmin
  rw [hmin, hsome] at hend
  exact completes_of_exec rfl hend

end

end Sys2Proof.Machine
end

section
namespace Sys2Proof.Machine

/-- Settles O42: every clause holds, each by the lemma above for its command. -/
theorem moveEngineCommands : Obligations.MoveEngineCommands := by
  refine ⟨?move, ?copies, ?reset, ?held, ?fill, ?pattern, ?gather, ?scatter, ?gatherEnd, ?scatterEnd, ?sealWrite, ?sealGood, ?sealBad⟩
  case move => exact fun s t k r x a c hx hd ho hup => completes_move hx hd ho hup
  case copies => exact fun s t k r x a c p q n hx hd ho hsrc hdst hmay hp hq => completes_move_copies hx hd ho hsrc hdst hmay hp hq
  case reset => exact fun s t k r x a c u hx hd ho hu hn hon hstop => completes_move_reset hx hd ho hu hn hon hstop
  case held => exact fun s t k p n r x a c hx hd ho hsrc hn hstop hup => completes_move_held hx hd ho hsrc hn hstop hup
  case fill => exact fun s t k r x c hx hd ho hup => completes_fill hx hd ho hup
  case pattern => exact fun s t k r x c q n hx hd ho hsel hdst hmay hq => completes_fill_pattern hx hd ho hsel hdst hmay hq
  case gather =>
    exact fun s t k p q n r g hx hg hlt hp hn hq hmay hs hd =>
      completes_of_exec rfl (streamMove_piece (gather := true) hx hg hlt hp hn hq rfl rfl hmay hs hd)
  case scatter =>
    exact fun s t k p q n r g hx hg hlt hp hn hq hmay hs hd =>
      completes_of_exec rfl (streamMove_piece (gather := false) hx hg hlt hp hn hq rfl rfl hmay hs hd)
  case gatherEnd =>
    exact fun s t k r g hx hg hdone hend => completes_of_exec rfl (streamMove_end (gather := true) hx hg hdone hend)
  case scatterEnd =>
    exact fun s t k r g hx hg hdone hend => completes_of_exec rfl (streamMove_end (gather := false) hx hg hdone hend)
  case sealWrite => exact fun s t k j q r x hx hd hmode hj hq hmay hp hup => completes_sealchk_write hx hd hmode hj hq hmay hp hup
  case sealGood =>
    exact fun s t k q r x hx hd hmode hpar hq hmay hp hup hgood => completes_sealchk_good hx hd hmode hpar hq hmay hp hup hgood
  case sealBad =>
    exact fun s t k q j r x hx hd hmode hpar hq hmay hp hup hj hbad hgood =>
      completes_sealchk_bad hx hd hmode hpar hq hmay hp hup hj hbad hgood

end Sys2Proof.Machine
end

section
/-!
Islands (R51, R57, R58, R512): clock-on bits, and what starting, stopping and holding an island does to them.
-/
namespace Sys2Proof.Machine

/-- Two islands share a word of MST_CLKON and a bit of it only when they are one. -/
theorem eq_of_div_of_mod {g h : Nat} (hd : g / 32 = h / 32) (hm : g % 32 = h % 32) : g = h := by omega

/-- A write of the word of MST_CLKON that holds island `g`'s bit. -/
theorem setF_islandOn (d : Dev) (g h v : Nat) :
    (d.setF F.MST_CLKON_ON [g / 32] v).islandOn h = if g / 32 = h / 32 then bit v (h % 32) else d.islandOn h := by
  split_ifs with hw
  · rw [Dev.islandOn, Dev.bitF, ← hw, getF_setF_same]
    exact bit_mod v (Nat.mod_lt h (by decide))
  · exact congrArg (bit · (h % 32)) (getF_setF_idx d F.MST_CLKON_ON _ _ v (by simpa using hw))

theorem setBitF_islandOn (d : Dev) (g h : Nat) :
    (d.setBitF F.MST_CLKON_ON [g / 32] (g % 32)).islandOn h = (d.islandOn h || decide (h = g)) := by
  rw [Dev.setBitF, setF_islandOn]
  split_ifs with hw
  · rw [bit_setBit, hw, ← Dev.bitF, ← Dev.islandOn]
    exact congrArg _ (decide_eq_decide.mpr ⟨fun hm => (eq_of_div_of_mod hw hm).symm, fun e => e ▸ rfl⟩)
  · have hne : h ≠ g := fun e => hw (e ▸ rfl)
    simp [hne]

theorem clrBitF_islandOn (d : Dev) (g h : Nat) :
    (d.clrBitF F.MST_CLKON_ON [g / 32] (g % 32)).islandOn h = (d.islandOn h && decide (h ≠ g)) := by
  rw [Dev.clrBitF, setF_islandOn]
  split_ifs with hw
  · rw [bit_clrBit, hw, ← Dev.bitF, ← Dev.islandOn, ← decide_not]
    exact congrArg _ (decide_eq_decide.mpr (not_congr ⟨fun hm => (eq_of_div_of_mod hw hm).symm, fun e => e ▸ rfl⟩))
  · have hne : h ≠ g := fun e => hw (e ▸ rfl)
    simp [hne]

/-- Clock-on bits lie in the register file alone. -/
theorem islandOn_of_regs {d e : Dev} (h : e.regs = d.regs) (g : Nat) : e.islandOn g = d.islandOn g := by
  rw [Dev.islandOn, Dev.islandOn, Dev.bitF, Dev.bitF, Dev.getF, Dev.getF, h]

/-- After a JTAG SCAN only the always-on island starts (R512). -/
theorem startIsland_islandOn (d : Dev) (g h : Nat) :
    (d.startIsland g).islandOn h = (d.islandOn h || (decide (h = g) && (!d.jtag.scanned || g == 0))) := by
  rw [Dev.startIsland]
  by_cases hs : d.jtag.scanned = true ∧ g ≠ 0
  · simp [hs]
  · have hc : ¬(d.jtag.scanned && g != 0) = true := by simpa using hs
    have hgo : (!d.jtag.scanned || g == 0) = true := by
      cases hj : d.jtag.scanned <;> simp_all
    rw [if_neg hc, hgo, Bool.and_true]
    exact (islandOn_of_regs rfl h).trans (setBitF_islandOn d g h)

theorem holdIsland_islandOn (d : Dev) (g h : Nat) : (d.holdIsland g).islandOn h = (d.islandOn h && decide (h ≠ g)) :=
  (islandOn_of_regs rfl h).trans (clrBitF_islandOn d g h)

theorem stopIsland_regs (d : Dev) (g : Nat) : (d.stopIsland g).regs = (d.clrBitF F.MST_CLKON_ON [g / 32] (g % 32)).regs := by
  unfold Dev.stopIsland
  dsimp only
  split_ifs <;> rfl

theorem stopIsland_islandOn (d : Dev) (g h : Nat) : (d.stopIsland g).islandOn h = (d.islandOn h && decide (h ≠ g)) :=
  (islandOn_of_regs (stopIsland_regs d g) h).trans (clrBitF_islandOn d g h)

theorem mem_stopIsland_stopped (d : Dev) (g : Nat) : g ∈ (d.stopIsland g).clk.stopped := by
  unfold Dev.stopIsland
  dsimp only
  split_ifs with h
  · simpa using h
  · simp

theorem stopIsland_keepsBytes (d : Dev) (g : Nat) : KeepsBytes d (d.stopIsland g) := by
  unfold Dev.stopIsland
  dsimp only
  split_ifs <;> exact ⟨rfl, rfl, rfl⟩

/-- A stopped island's clock is off and it is not in reset. -/
theorem stopIsland_stopped (d : Dev) (g : Nat) :
    (d.stopIsland g).islandOn g = false ∧ (d.stopIsland g).islandStopped g = true ∧ (d.stopIsland g).islandInReset g = false := by
  have hoff : (d.stopIsland g).islandOn g = false := by simp [stopIsland_islandOn]
  simp [Dev.islandStopped, Dev.islandInReset, hoff, mem_stopIsland_stopped]

theorem holdIsland_inReset (d : Dev) (g : Nat) : (d.holdIsland g).islandInReset g = true := by
  have hoff : (d.holdIsland g).islandOn g = false := by simp [holdIsland_islandOn]
  rw [Dev.islandInReset, hoff]
  simp [Dev.holdIsland]

theorem readWord_clkon (d : Dev) (i : List Nat) : d.readWord .MST_CLKON i = d.getF F.MST_CLKON_ON i := by
  simp [Dev.readWord, fieldsOf, F.MST_CLKON_ON]

theorem islandOn_eq_false_iff (d : Dev) (g : Nat) : d.islandOn g = false ↔ (d.islandStopped g = true ∨ d.islandInReset g = true) := by
  rw [Dev.islandStopped, Dev.islandInReset]
  cases d.islandOn g <;> cases d.clk.stopped.contains g <;> simp

/-- Settles O59: each clause by the law for its operation. -/
theorem clockOnBits : Obligations.ClockOnBits := by
  refine ⟨fun d g _ => ⟨?read, islandOn_eq_false_iff d g⟩, fun d g h _ _ => ⟨?stop, ?hold, fun hs => ?start⟩, fun d g _ => ⟨?stopped, ?held⟩⟩
  case read => rw [readWord_clkon]; rfl
  case stop => exact (stopIsland_islandOn d g h).trans (Bool.and_comm _ _)
  case hold => exact (holdIsland_islandOn d g h).trans (Bool.and_comm _ _)
  case start => simp [startIsland_islandOn, hs, Bool.or_comm]
  case stopped => exact (stopIsland_stopped d g).2.1
  case held => exact holdIsland_inReset d g

end Sys2Proof.Machine
end

section
/-!
Clock holds, fabric-time steps, the run anchor and the choice counters (R58–R60, R72, R74, R80, R93).
-/
namespace Sys2Proof.Machine

/-- A register row whose write lands completes with what holds of the register's effect. -/
theorem completes_of_lands {i : Instr} {s : State} {iss : Issuer} {r : RegName} {idx : List Nat} {v : Nat} {P : Dev → Prop}
    (h : exec i s = .next { s with dev := s.dev.regRow s.fuses iss r idx v }) (hl : s.dev.lands iss r idx v = true)
    (hp : P (s.dev.regEffect s.fuses iss r idx v)) : Completes i s P :=
  completes_of_eq h (regRow_lands _ _ _ _ _ _ hl) hp

theorem completes_clkHoldWrite {s : State} {iss : Issuer} {i : Fin 48} {v : BitVec 32}
    (hl : s.dev.lands iss .MST_CLK_HOLD [i.val] v.toNat = true) :
    Completes (.clkHoldWrite iss i v) s (fun d =>
      d.getF F.MST_CLK_HOLD_HOLD [i.val] = (if i.val = 47 then v.toNat % 65536 else v.toNat) ∧
      SameRegs s.dev d [(F.MST_CLK_HOLD_HOLD, [i.val])] ∧ SameMem s.dev d) := by
  refine completes_of_lands rfl hl ⟨?hold, ?regs, fun _ => rfl⟩
  case hold =>
    have hv := v.isLt
    refine (getF_setF_same s.dev _ _ _).trans (Nat.mod_eq_of_lt ?_)
    show (if i.val = 47 then v.toNat % 65536 else v.toNat) < 2 ^ 32
    split_ifs <;> omega
  case regs => exact sameRegs_of_regs (sameRegs_setF (.head _) (sameRegs_refl s.dev _)) rfl

theorem completes_holdLong {s : State} {h : List Nat × Nat} (hin : h ∈ s.dev.clk.holdSince) (hlong : h.2 + ms 10 < s.dev.clk.now) :
    Completes .holdLong s (fun d => d.flag F.MST_CLK_STAT_HOLD_LONG = true ∧ SameRegs s.dev d [(F.MST_CLK_STAT_HOLD_LONG, [])] ∧
      OnlyRegs s.dev d) := by
  have hany : s.dev.clk.holdSince.any (fun h => decide (h.2 + ms 10 < s.dev.clk.now)) = true :=
    List.any_eq_true.mpr ⟨h, hin, decide_eq_true hlong⟩
  exact completes_of_eq rfl (if_pos hany) (raise_only s.dev _ _ rfl)

/-- The island of a reefed lane stops unless a hold defers it (R58, R59). -/
theorem islandStop_lane {d : Dev} {g p l : Nat} (hlane : laneIsland g = some (p, l)) (hreef : d.laneState p l = 6)
    (hon : d.islandOn g = true) (hfree : d.islandHeldOn g = false) (hr : ratioIsland g = none) : d.islandStop g = d.stopIsland g := by
  simp [Dev.islandStop, Dev.stopDue, hlane, hreef, hon, hfree, hr]

theorem completes_islandClockStop {s : State} {g : Fin 1520} {p l : Nat} (hlane : laneIsland g.val = some (p, l))
    (hreef : s.dev.laneState p l = 6) (hon : s.dev.islandOn g.val = true) (hfree : s.dev.islandHeldOn g.val = false)
    (hr : ratioIsland g.val = none) :
    Completes (.islandClockStop g) s (fun d => d.islandOn g.val = false ∧ d.islandStopped g.val = true ∧
      d.islandInReset g.val = false ∧ SameRegs s.dev d [(F.MST_CLKON_ON, [g.val / 32])] ∧ SameMem s.dev d) := by
  refine completes_of_eq rfl (islandStop_lane hlane hreef hon hfree hr) ?_
  obtain ⟨hoff, hstopped, hreset⟩ := stopIsland_stopped s.dev g.val
  refine ⟨hoff, hstopped, hreset, ?regs, (stopIsland_keepsBytes _ _).sameMem⟩
  case regs => exact sameRegs_of_regs (sameRegs_setF (.head _) (sameRegs_refl s.dev _)) (stopIsland_regs _ _)

theorem completes_fabStepWrite {s : State} {iss : Issuer} {v : BitVec 64} (hl : s.dev.lands iss .FAB_STEP [] v.toNat = true) :
    Completes (.fabStepWrite iss v) s (fun d => d.clk.steps = s.dev.clk.steps ++ [v.toNat] ∧ d.fabTime = s.dev.fabTime ∧
      SameRegs s.dev d [] ∧ SameMem s.dev d) := by
  refine completes_of_lands rfl hl ⟨?steps, rfl, sameRegs_refl s.dev [], fun _ => rfl⟩
  case steps => exact congrArg (fun n => s.dev.clk.steps ++ [n]) (Nat.mod_eq_of_lt v.isLt)

/-- A write of MST_DET_ANCHOR stores the anchor and makes ANCHOR_PASSED read 0. -/
def Dev.anchorStored (d : Dev) (v : Nat) : Dev :=
  (d.setF F.MST_DET_ANCHOR_ANCHOR [] (bits v 0 64)).clear F.MST_DET_STAT_ANCHOR_PASSED

/-- Beside that it arms the anchor, if it is enabled (R74). -/
theorem detAnchor_effect (d : Dev) (fz : Fuses) (iss : Issuer) (v : Nat) :
    d.regEffect fz iss .MST_DET_ANCHOR [] v =
      if d.flag F.MST_DET_CTRL_ANCHOR_EN then (d.anchorStored v).anchorArm (d.clk.now + 6400) else d.anchorStored v := by
  have hen : (d.anchorStored v).flag F.MST_DET_CTRL_ANCHOR_EN = d.flag F.MST_DET_CTRL_ANCHOR_EN := by
    simp (disch := decide) only [Dev.flag, Dev.anchorStored, Dev.clear, getF_setF_reg]
  rw [← hen]
  rfl

theorem anchorStored_spec (d : Dev) (v : BitVec 64) :
    (d.anchorStored v.toNat).getF F.MST_DET_ANCHOR_ANCHOR = v.toNat ∧
      (d.anchorStored v.toNat).flag F.MST_DET_STAT_ANCHOR_PASSED = false ∧
      SameRegs d (d.anchorStored v.toNat) [(F.MST_DET_ANCHOR_ANCHOR, []), (F.MST_DET_STAT_ANCHOR_PASSED, [])] := by
  refine ⟨?anchor, flag_clear _ _ _, ?regs⟩
  case anchor =>
    have hv := v.isLt
    refine (getF_setF_ne _ _ _ _ _ _ (by decide)).trans ((getF_setF_same _ _ _ _).trans ?_)
    rw [bits, show F.MST_DET_ANCHOR_ANCHOR.w = 64 from rfl]
    omega
  case regs => exact sameRegs_setF (.tail _ (.head _)) (sameRegs_setF (.head _) (sameRegs_refl d _))

theorem completes_detAnchorWrite {s : State} {iss : Issuer} {v : BitVec 64}
    (hl : s.dev.lands iss .MST_DET_ANCHOR [] v.toNat = true) :
    Completes (.detAnchorWrite iss v) s (fun d => d.getF F.MST_DET_ANCHOR_ANCHOR = v.toNat ∧
      d.flag F.MST_DET_STAT_ANCHOR_PASSED = false ∧
      (s.dev.flag F.MST_DET_CTRL_ANCHOR_EN = true →
        d.eng.anchorFrom = some (s.dev.eng.anchorFrom.getD (s.dev.clk.now + 6400)) ∧ d.eng.anchorAt = s.dev.clk.now) ∧
      SameRegs s.dev d [(F.MST_DET_ANCHOR_ANCHOR, []), (F.MST_DET_STAT_ANCHOR_PASSED, [])] ∧ SameMem s.dev d) := by
  refine completes_of_lands rfl hl ?_
  obtain ⟨hanchor, hpassed, hregs⟩ := anchorStored_spec s.dev v
  rw [detAnchor_effect]
  split_ifs with hen
  · exact ⟨hanchor, hpassed, fun _ => ⟨rfl, rfl⟩, hregs, fun _ => rfl⟩
  · exact ⟨hanchor, hpassed, fun h => absurd h hen, hregs, fun _ => rfl⟩

theorem completes_anchorRelease_passed {s : State} (hh : s.dev.anchorHolds = true) (hat : s.dev.eng.anchorAt < s.dev.clk.now)
    (hen : s.dev.flag F.MST_DET_CTRL_ANCHOR_EN = true) (hdue : s.dev.getF F.MST_DET_ANCHOR_ANCHOR ≤ s.dev.fabTime) :
    Completes .anchorRelease s (fun d => d.anchorHolds = false ∧ d.flag F.MST_DET_STAT_ANCHOR_PASSED = true ∧
      SameRegs s.dev d [(F.MST_DET_STAT_ANCHOR_PASSED, [])] ∧ SameMem s.dev d) := by
  refine completes_of_eq rfl ((if_pos ⟨hh, hat⟩).trans ((if_pos hen).trans (if_pos hdue))) ?_
  exact ⟨rfl, flag_raise _ _ _ rfl, sameRegs_setF (.head _) (sameRegs_refl s.dev _), fun _ => rfl⟩

theorem completes_anchorRelease_cleared {s : State} (hh : s.dev.anchorHolds = true) (hat : s.dev.eng.anchorAt < s.dev.clk.now)
    (hen : s.dev.flag F.MST_DET_CTRL_ANCHOR_EN = false) :
    Completes .anchorRelease s (fun d => d.anchorHolds = false ∧ SameRegs s.dev d [] ∧ SameMem s.dev d) := by
  refine completes_of_eq rfl ((if_pos ⟨hh, hat⟩).trans (if_neg (by simp [hen]))) ?_
  exact ⟨rfl, sameRegs_refl s.dev [], fun _ => rfl⟩

/-- Zeroing a field at a list of indices: it reads 0 there, fields of other registers keep their values, and no byte moves. -/
theorem foldl_zero_spec (f : Field) (l : List Nat) (d : Dev) :
    (∀ c ∈ l, (l.foldl (fun d c => d.setF f [c] 0) d).getF f [c] = 0) ∧
      (∀ (g : Field) (i : List Nat), f.reg ≠ g.reg → (l.foldl (fun d c => d.setF f [c] 0) d).getF g i = d.getF g i) ∧
      KeepsBytes d (l.foldl (fun d c => d.setF f [c] 0) d) := by
  have hkeep (c : Nat) (l : List Nat) (d : Dev) (h0 : d.getF f [c] = 0) : (l.foldl (fun d c => d.setF f [c] 0) d).getF f [c] = 0 := by
    induction l generalizing d with
    | nil => exact h0
    | cons b t ih =>
      refine ih _ ?_
      by_cases hb : b = c
      · rw [hb, getF_setF_same, Nat.zero_mod]
      · rw [getF_setF_idx _ _ _ _ _ (by simpa using hb), h0]
  induction l generalizing d with
  | nil => exact ⟨fun _ hc => (List.not_mem_nil hc).elim, fun _ _ _ => rfl, .refl d⟩
  | cons b t ih =>
    obtain ⟨hzero, hother, hbytes⟩ := ih (d.setF f [b] 0)
    refine ⟨fun c hc => ?_, fun g i hg => (hother g i hg).trans (getF_setF_reg _ _ _ _ _ _ hg), ?_⟩
    · rcases List.mem_cons.mp hc with rfl | hc
      · exact hkeep c t (d.setF f [c] 0) (by rw [getF_setF_same, Nat.zero_mod])
      · exact hzero c hc
    · exact ((KeepsBytes.refl d).setF f [b] 0).trans hbytes

/-- DET_CLR zeroes every choice counter and the record of the first choice (R93). -/
theorem detClear_spec (d : Dev) :
    d.detClear.getF F.MST_TDC_TOTAL_TOTAL = 0 ∧ d.detClear.flag F.MST_DET_STAT_TDC_ANY = false ∧ d.detClear.getF F.MST_TDC_FIRST_TIME = 0 ∧
      (∀ c : Fin 16, d.detClear.getF F.MST_TDC_CNT_COUNT [c.val] = 0) ∧ KeepsBytes d d.detClear := by
  unfold Dev.detClear
  obtain ⟨hzero, hother, hbytes⟩ := foldl_zero_spec F.MST_TDC_CNT_COUNT (List.range 16)
    (((((d.setF F.MST_TDC_TOTAL_TOTAL [] 0).clear F.MST_DET_STAT_TDC_ANY).setF F.MST_TDC_FIRST_TIME [] 0).setF
      F.MST_TDC_FIRST_SRC_CAUSE [] 0).setF F.MST_TDC_FIRST_SRC_TACKLE [] 0)
  refine ⟨?total, ?any, ?first, fun c => hzero _ (List.mem_range.mpr c.isLt), ⟨hbytes.mem, hbytes.lost, hbytes.out⟩⟩
  case total => rw [hother _ _ (by decide)]; simp (disch := decide) [Dev.clear, getF_setF_ne]
  case any => rw [Dev.flag, hother _ _ (by decide)]; simp (disch := decide) [Dev.clear, getF_setF_ne]
  case first => rw [hother _ _ (by decide)]; simp (disch := decide) [getF_setF_ne]

theorem anchorEnable_keepsBytes (d : Dev) (was : Bool) : KeepsBytes d (d.anchorEnable was) := by
  unfold Dev.anchorEnable
  split_ifs <;> exact ⟨rfl, rfl, rfl⟩

theorem completes_detClr {s : State} {iss : Issuer} {v : BitVec 32}
    (hl : s.dev.lands iss .MST_DET_CTRL [] (v.toNat ||| 0x2) = true) :
    Completes (.detClr iss v) s (fun d => d.getF F.MST_TDC_TOTAL_TOTAL = 0 ∧ d.flag F.MST_DET_STAT_TDC_ANY = false ∧
      d.getF F.MST_TDC_FIRST_TIME = 0 ∧ (∀ c : Fin 16, d.getF F.MST_TDC_CNT_COUNT [c.val] = 0) ∧ SameMem s.dev d) := by
  have hclr : bit (v.toNat ||| 0x2) 1 = true := by
    rw [bit_eq_testBit, Nat.testBit_or]
    simp [show Nat.testBit 2 1 = true from rfl]
  refine completes_of_eq rfl ((regRow_lands _ _ _ _ _ _ hl).trans (if_pos hclr)) ?_
  generalize hd : (s.dev.plainWrite .MST_DET_CTRL [] (v.toNat ||| 0x2)).anchorEnable (s.dev.flag F.MST_DET_CTRL_ANCHOR_EN) = d
  have hwrite : KeepsBytes s.dev (s.dev.plainWrite .MST_DET_CTRL [] (v.toNat ||| 0x2)) := ⟨rfl, rfl, rfl⟩
  obtain ⟨htotal, hany, hfirst, hcount, hbytes⟩ := detClear_spec d
  exact ⟨htotal, hany, hfirst, hcount, (hwrite.trans ((hd ▸ anchorEnable_keepsBytes _ _).trans hbytes)).sameMem⟩

/-- Settles O7: every clause holds, each by the lemma above for its command. -/
theorem holdsStepsAndTheRunAnchor : Obligations.HoldsStepsAndTheRunAnchor := by
  refine ⟨?hold, ?long, ?stop, ?step, ?anchor, ?passed, ?cleared, ?clr⟩
  case hold => exact fun s iss i v hl => completes_clkHoldWrite hl
  case long => exact fun s h hin hlong => completes_holdLong hin hlong
  case stop => exact fun s g p l hlane hreef hon hfree hr => completes_islandClockStop hlane hreef hon hfree hr
  case step => exact fun s iss v hl => completes_fabStepWrite hl
  case anchor => exact fun s iss v hl => completes_detAnchorWrite hl
  case passed => exact fun s hh hat hen hdue => completes_anchorRelease_passed hh hat hen hdue
  case cleared => exact fun s hh hat hen => completes_anchorRelease_cleared hh hat hen
  case clr => exact fun s iss v hl => completes_detClr hl

end Sys2Proof.Machine
end

section
/-!
Frame slips, crossings in reset, held accesses and locks (R54, R55, R58, R63, R79, R93, R119).
-/
namespace Sys2Proof

theorem bit_foldl_setBit (l : List Nat) (n i : Nat) : bit (l.foldl setBit n) i = (bit n i || decide (i ∈ l)) := by
  induction l generalizing n with
  | nil => simp
  | cons a t ih =>
    rw [List.foldl_cons, ih, bit_setBit, Bool.or_assoc, ← Bool.decide_or]
    exact congrArg _ (decide_eq_decide.mpr (by rw [List.mem_cons, eq_comm]))

theorem bit_ofOnes (l : List Nat) (i : Nat) : bit (ofOnes l) i = decide (i ∈ l) := by
  rw [ofOnes, bit_foldl_setBit]
  simp [bit]

end Sys2Proof

namespace Sys2Proof.Machine

theorem tdcN_getF (d : Dev) (c : Tdc) (u k : Nat) (g : Field) (i : List Nat) (h : tdcReg g.reg = false) :
    (d.tdcN c u k).getF g i = d.getF g i := by
  have hne : ∀ r, tdcReg r = true → r ≠ g.reg := by rintro r hr e; simp [e, h] at hr
  unfold Dev.tdcN
  split_ifs
  · rfl
  · exact (getF_setF_reg _ _ _ _ _ _ (hne _ rfl)).trans ((getF_setF_reg _ _ _ _ _ _ (hne _ rfl)).trans (tdc_getF _ _ _ _ _ h))

theorem tdcN_mem (d : Dev) (c : Tdc) (u k : Nat) : (d.tdcN c u k).mem = d.mem := by
  unfold Dev.tdcN; split_ifs <;> simp

theorem tdcN_bank (d : Dev) (c : Tdc) (u k : Nat) : (d.tdcN c u k).bank = d.bank := by
  unfold Dev.tdcN; split_ifs <;> simp

/-- With FRAME_SLIP set HELD_START reads 0. -/
theorem heldStart_of_slip {d : Dev} (h : d.flag F.MST_CLK_STAT_FRAME_SLIP = true) :
    d.heldStart.flag F.MST_DET_STAT_HELD_START = false := by
  rw [Dev.heldStart, Dev.flag, getF_setF_same, h, Bool.not_true, Bool.and_false]
  rfl

theorem frameSlip_spec (d : Dev) (n : DieNo) (hn : n < 25) :
    (d.frameSlip n).flag F.MST_CLK_STAT_FRAME_SLIP = true ∧ (d.frameSlip n).getF F.MST_CLK_STAT_SLIP_DIE = n ∧
      (d.frameSlip n).flag F.MST_DET_STAT_HELD_START = false ∧ SameMem d (d.frameSlip n) := by
  unfold Dev.frameSlip
  dsimp only
  generalize he : Dev.tdcN _ _ _ _ = e
  have hslip : e.getF F.MST_CLK_STAT_FRAME_SLIP = 1 := by
    rw [← he]
    simp (disch := decide) only [tdcN_getF, getF_setF_ne, getF_mk, fault_getF, Dev.raise, getF_setF_same]
    rfl
  have hdie : e.getF F.MST_CLK_STAT_SLIP_DIE = n := by
    rw [← he]
    simp (disch := decide) only [tdcN_getF, getF_setF_ne, getF_mk, fault_getF, getF_setF_same]
    exact Nat.mod_eq_of_lt (hn.trans (by decide))
  have hmem : SameMem d e := by
    rw [← he]
    exact sameMem_of (by simp [tdcN_mem]) (by simp [tdcN_bank])
  have hheld (f : Field) (hf : F.MST_DET_STAT_HELD_START.reg ≠ f.reg) : e.heldStart.getF f = e.getF f := getF_setF_reg _ _ _ _ _ _ hf
  refine ⟨?slip, (hheld _ (by decide)).trans hdie, heldStart_of_slip (by rw [Dev.flag, hslip]; rfl), sameMem_trans hmem fun _ => rfl⟩
  case slip => rw [Dev.flag, hheld _ (by decide), hslip]; rfl

/-- Of the dies that report a slip in one cycle, with one named and in service there is that one. -/
theorem slips_single (d : Dev) (n : Nat) (hn : n < 25) (hok : d.dieOk n = true) :
    (List.range 25).filter (fun m => [n].contains m && d.dieOk m) = [n] := by
  have hsame : (fun m => [n].contains m && d.dieOk m) = (· == n) := by
    funext m
    by_cases hm : m = n
    · simp [hm, hok]
    · simp [hm]
  rw [hsame, List.filter_beq, List.count_eq_one_of_mem List.nodup_range (List.mem_range.mpr hn)]
  rfl

theorem completes_hoistSyncMark {s : State} {n : Fin 25} (hp : s.dev.clk.phase = .running) (hf : s.dev.clk.frame % 256 = 0)
    (hlate : 256 ≤ s.dev.clk.frame) (hh : s.dev.headless = false) (hok : s.dev.dieOk n.val = true) :
    Completes (.hoistSyncMark [n]) s (fun d => d.flag F.MST_CLK_STAT_FRAME_SLIP = true ∧ d.getF F.MST_CLK_STAT_SLIP_DIE = n.val ∧
      d.flag F.MST_DET_STAT_HELD_START = false ∧ SameMem s.dev d) := by
  have hmark : s.dev.hoistMark [n.val] = s.dev.frameSlip n.val := by
    rw [Dev.hoistMark, if_pos ⟨hp, hf, hlate, by simpa using hh⟩, slips_single _ _ n.isLt hok]
    rfl
  exact completes_of_eq rfl hmark (frameSlip_spec _ _ n.isLt)

/-- Replies discarded at the crossings of a die count, and set its source (R55). -/
theorem xingDiscard_spec (d : Dev) (n : DieNo) (k : Nat) (hk : 0 < k) :
    (d.xingDiscard n k).getF F.XING_DISCARD_COUNT [n] = min (d.getF F.XING_DISCARD_COUNT [n] + k) (2 ^ 32 - 1) ∧
      (d.xingDiscard n k).bitF F.FLT_STAT_SRC [n] 5 = true ∧ SameMem d (d.xingDiscard n k) := by
  rw [Dev.xingDiscard, if_neg (by omega)]
  refine ⟨?count, ?source, sameMem_of (by simp) (by simp)⟩
  case count =>
    simp (disch := decide) only [Dev.addSat, getF_setF_reg, fault_getF, getF_setF_same]
    exact Nat.mod_eq_of_lt (lt_of_le_of_lt (min_le_right _ _) (by decide))
  case source =>
    rw [Dev.addSat, bitF_setF_ne _ _ _ _ _ _ _ (by decide), fault_bitF _ _ _ _ (by decide)]
    simp [FSrc.bit]

/-- With nothing waiting at the island of a crossing, its reset indicator only counts the replies. -/
theorem resetIndicator_idle {d : Dev} {n : DieNo} {g k : Nat} (hr : d.islandInReset g = true) (hh : d.clk.held = [])
    (ha : d.clk.heldAper = []) : ∃ c, d.resetIndicator n g k = ({ d with clk := c } : Dev).xingDiscard n k := by
  rw [Dev.resetIndicator, if_pos hr]
  simp only [hh, ha, Dev.dropApers, List.filter_nil, List.foldl_nil]
  exact ⟨_, rfl⟩

theorem completes_resetIndicatorAssert {s : State} {n : Fin 25} {g : Fin 1520} {k : Nat} (hr : s.dev.islandInReset g.val = true)
    (hk : 0 < k) (hh : s.dev.clk.held = []) (ha : s.dev.clk.heldAper = []) :
    Completes (.resetIndicatorAssert n g k) s (fun d =>
      d.getF F.XING_DISCARD_COUNT [n.val] = min (s.dev.getF F.XING_DISCARD_COUNT [n.val] + k) (2 ^ 32 - 1) ∧
      d.bitF F.FLT_STAT_SRC [n.val] 5 = true ∧ SameMem s.dev d) := by
  obtain ⟨c, hc⟩ := resetIndicator_idle (n := n.val) (k := k) hr hh ha
  exact completes_of_eq rfl hc (xingDiscard_spec { s.dev with clk := c } _ _ hk)

/-- A write whose issuer has the right and whose island runs has its register's effect, where no lock holds a bit back (R7, R118). -/
theorem regWrite_open {d : Dev} (fz : Fuses) {iss : Issuer} {x : RegDesc} {idx : List Nat} {v : Nat}
    (hm : d.mayWrite iss x.writer x.reg idx = true) (hr : d.reach x.reg idx = .open)
    (hu : d.unlocked iss x.reg idx (v % 2 ^ x.width) = v % 2 ^ x.width) :
    d.regWrite fz iss x idx v = (d.regEffect fz iss x.reg idx (v % 2 ^ x.width), .ok) := by
  simp [Dev.regWrite, hm, hr, hu]

theorem unlocked_seqCtr (d : Dev) (iss : Issuer) (idx : List Nat) (v : Nat) : d.unlocked iss .SEQ_CTR idx v = v := by
  unfold Dev.unlocked
  split_ifs <;> rfl

theorem width_seqCtr {x : RegDesc} (h : descOf .SEQ_CTR = some x) : x.width = 32 := by
  have hw : (descOf .SEQ_CTR).map (·.width) = some 32 := by decide +kernel
  rw [h] at hw
  exact Option.some.inj hw

theorem reg_of_descOf {r : RegName} {x : RegDesc} (h : descOf r = some x) : x.reg = r := by
  simpa using List.find?_some h

/-- A write of a counter that a plan sent and that had to wait takes effect (R58). -/
theorem heldGo_seqCtr {d : Dev} (fz : Fuses) {h : HeldAccess} {x : RegDesc} {i : List Nat} (hreg : h.reg = .SEQ_CTR) (hidx : h.idx = i)
    (hw : h.write = true) (hvia : h.via = .plan) (hx : descOf .SEQ_CTR = some x) (hm : d.mayWrite h.iss x.writer .SEQ_CTR i = true)
    (hr : d.reach .SEQ_CTR i = .open) :
    d.heldGo fz h = d.setF F.SEQ_CTR_VALUE i (bits (h.value % 2 ^ 32) 0 32) := by
  have hxr := reg_of_descOf hx
  have hgo := regWrite_open fz (v := h.value) (hxr.symm ▸ hm) (hxr.symm ▸ hr) (by rw [hxr]; exact unlocked_seqCtr _ _ _ _)
  rw [hxr, width_seqCtr hx] at hgo
  rw [Dev.heldGo, hreg, hidx, hx]
  simp only [hw, if_true, hgo, Dev.accessEnd, hvia]
  rfl

theorem aperResume_idle {d : Dev} (g : Nat) (h : d.clk.heldAper = []) : d.aperResume g = d := by
  have hkeep : d.clk.heldAper.filter (fun a => a.g != g) = d.clk.heldAper := by rw [h]; rfl
  have hgo : d.clk.heldAper.filter (fun a => a.g == g) = [] := by rw [h]; rfl
  rw [Dev.aperResume, hkeep, hgo]
  rfl

/-- With one register access waiting, at island `g`, and nothing else held, that access goes on alone. -/
theorem stoppedResume_single {d e : Dev} (fz : Fuses) {g : Nat} {h : HeldAccess} (hs : d.islandStopped g = false)
    (hh : d.clk.held = [h]) (hg : regIsland h.reg h.idx = g)
    (hgo : ({ d with clk := { d.clk with held := [] } } : Dev).heldGo fz h = e) (ha : e.clk.heldAper = []) (hj : e.jtag.access = none) :
    d.stoppedResume fz g = e := by
  simp only [Dev.stoppedResume, hs, Bool.false_eq_true, if_false, hh, hg, beq_self_eq_true, Bool.not_true,
    List.filter_cons, List.filter_nil, if_true, List.foldl_cons, List.foldl_nil, hgo, aperResume_idle g ha, hj]

theorem completes_stoppedIslandAccessResume {s : State} {g : Fin 1520} {h : HeldAccess} {x : RegDesc} {t c : Nat}
    (hs : s.dev.islandStopped g.val = false) (hh : s.dev.clk.held = [h]) (ha : s.dev.clk.heldAper = [])
    (hj : s.dev.jtag.access = none) (hg : regIsland h.reg h.idx = g.val) (hreg : h.reg = .SEQ_CTR) (hidx : h.idx = [t, c])
    (hw : h.write = true) (hvia : h.via = .plan) (hx : descOf .SEQ_CTR = some x)
    (hm : s.dev.mayWrite h.iss x.writer .SEQ_CTR [t, c] = true) (hr : s.dev.reach .SEQ_CTR [t, c] = .open) :
    Completes (.stoppedIslandAccessResume g) s (fun d => d.ctr t c = h.value % 2 ^ 32 ∧ d.clk.held = [] ∧
      SameRegs s.dev d [(F.SEQ_CTR_VALUE, [t, c])] ∧ SameMem s.dev d) := by
  have hgo := heldGo_seqCtr (d := { s.dev with clk := { s.dev.clk with held := [] } }) s.fuses hreg hidx hw hvia hx hm hr
  refine completes_of_eq rfl (stoppedResume_single s.fuses hs hh hg hgo ha hj) ⟨?value, rfl, ?regs, fun _ => rfl⟩
  case value =>
    refine (getF_setF_same _ _ _ _).trans ?_
    rw [bits, show F.SEQ_CTR_VALUE.w = 32 from rfl]
    omega
  case regs => exact sameRegs_setF (.head _) (sameRegs_refl s.dev _)

/-- A write of a register whose bits a 1 sets: bit `i` of the joined word. -/
theorem bit_joinBits (w a b i : Nat) (h : i < w) : bit (joinBits w a b) i = (bit a i || bit b i) := by
  rw [joinBits, bit_ofOnes]
  simp [h]

theorem completes_mstLockWrite {s : State} {iss : Issuer} {v : BitVec 32} (hl : s.dev.lands iss .MST_LOCK [] v.toNat = true) :
    Completes (.mstLockWrite iss v) s (fun d =>
      (∀ i : Nat, i < 5 → d.bitF F.MST_LOCK_LOCK [] i = (s.dev.bitF F.MST_LOCK_LOCK [] i || bit v.toNat i)) ∧
      SameRegs s.dev d [(F.MST_LOCK_LOCK, [])] ∧ OnlyRegs s.dev d) := by
  have heff : s.dev.regEffect s.fuses iss .MST_LOCK [] v.toNat
      = s.dev.setF F.MST_LOCK_LOCK [] (joinBits 5 (s.dev.getF F.MST_LOCK_LOCK []) (bits v.toNat 0 5)) := rfl
  refine completes_of_lands rfl hl ?_
  rw [heff]
  refine ⟨fun i hi => ?_, sameRegs_setF (.head _) (sameRegs_refl s.dev _), rfl⟩
  have hword : bit (bits v.toNat 0 5) i = bit v.toNat i := by rw [bits, pow_zero, Nat.div_one, bit_mod _ hi]
  rw [Dev.bitF, getF_setF_same, show F.MST_LOCK_LOCK.w = 5 from rfl, bit_mod _ hi, bit_joinBits _ _ _ _ hi, hword]
  rfl

end Sys2Proof.Machine
end

section
/-!
HANDOVER (R356).
-/
namespace Sys2Proof.Machine

/-- After an effect whose every access was served the banks stand as its last access left them. -/
theorem effect_served_bank {d : Dev} {t k o : Nat} {r : Run} {ok : Nat → Bool} {f : Dev → Run → Dev × Run} {y : Dev × Run}
    (hx : d.executes t k o r) (ho : ok o = true) (hf : f d r = y) (ha : Accesses 0 d y.1) :
    (d.effect t k ok f).bank = y.1.bank := by
  obtain ⟨-, -, -, -, -, hmet⟩ := hx.1
  obtain ⟨l, hl⟩ := releaseDone_board ((y.1.setRun t y.2).pumpSeals t) t y.2
  rw [effect_of_executes hx ho hf, metEnd_served (ha.met_eq_zero hmet), hl]
  exact (pumpSeals_movesSeals (y.1.setRun t y.2) t).bank

/-- An effect that makes no access: it takes place, of the registers only the digest engine's backlog may move, and memory stands. -/
theorem effect_local {d e : Dev} {t k o : Nat} {r r' : Run} {ok : Nat → Bool} {f : Dev → Run → Dev × Run}
    (hx : d.executes t k o r) (ho : ok o = true) (hf : f d r = (e, r')) (ha : Accesses 0 d e) (hr : e.regs = d.regs)
    (hm : KeepsBytes d e) (hs : r'.slot = r.slot) :
    (d.effect t k ok f).runAt t k = some r' ∧ (d.effect t k ok f).bank = e.bank ∧
      SameRegs d (d.effect t k ok f) [(F.MST_DIG_STAT_BACKLOG, [])] ∧ SameMem d (d.effect t k ok f) := by
  obtain ⟨hrun, hregs, hbytes⟩ := effect_served hx ho hf ha hs
  exact ⟨hrun, effect_served_bank hx ho hf ha, sameRegs_trans (sameRegs_of_regs (sameRegs_refl d _) hr) hregs, (hm.trans hbytes).sameMem⟩

variable {s : State} {t : Fin 65536} {k die b : Nat} {sail : Bool} {r : Run}

/-- None of the claims is the command's own yet. -/
theorem claims_any_eq_false {l : List CleatClaim} {c : Nat × Nat} (h : ∀ x ∈ l, x.run ≠ some c) : l.any (fun x => x.run == some c) = false := by
  simpa using h

theorem completes_handover_claims (hx : s.dev.executes t.val k 7 r) (hb : bankOf (leAt r.cmd.bytes 8 6) = some (sail, die, b))
    (hc : ∀ c ∈ s.dev.bank.claims, c.run ≠ some (t.val, r.cmd.uid))
    (hadm : s.dev.admits (s.dev.bankOwner sail die b) (r.writer t.val) = true) :
    Completes (.handover t k) s (fun d =>
      d.bank.claims = s.dev.bank.claims ++ [⟨sail, die, b, cb r.cmd.bytes 4, r.cmd.hp, false, t.val, some (t.val, r.cmd.uid)⟩] ∧
      d.runAt t.val k = some r ∧ SameRegs s.dev d [(F.MST_DIG_STAT_BACKLOG, [])] ∧ SameMem s.dev d) := by
  generalize hclaim : (⟨sail, die, b, cb r.cmd.bytes 4, r.cmd.hp, false, t.val, some (t.val, r.cmd.uid)⟩ : CleatClaim) = claim
  have hacc : Accesses 0 s.dev (s.dev.addClaim claim) := { Accesses.refl 0 s.dev with }
  obtain ⟨hrun, hbank, hregs, hmem⟩ : (s.dev.handover t.val k).runAt t.val k = some r ∧
      (s.dev.handover t.val k).bank = (s.dev.addClaim claim).bank ∧
      SameRegs s.dev (s.dev.handover t.val k) [(F.MST_DIG_STAT_BACKLOG, [])] ∧ SameMem s.dev (s.dev.handover t.val k) :=
    effect_local hx rfl (by simp [hb, claims_any_eq_false hc, hadm, hclaim]) hacc rfl ⟨rfl, rfl, rfl⟩ rfl
  exact completes_of_exec rfl ⟨congrArg (·.claims) hbank, hrun, hregs, hmem⟩

theorem completes_handover_owner (hx : s.dev.executes t.val k 7 r) (hb : bankOf (leAt r.cmd.bytes 8 6) = some (sail, die, b))
    (hc : ∀ c ∈ s.dev.bank.claims, c.run ≠ some (t.val, r.cmd.uid))
    (hno : s.dev.admits (s.dev.bankOwner sail die b) (r.writer t.val) = false) :
    Completes (.handover t k) s (fun d => d.bank.claims = s.dev.bank.claims ∧ d.hasStatus t.val k .owner ∧
      SameRegs s.dev d [(F.MST_DIG_STAT_BACKLOG, [])] ∧ SameMem s.dev d) := by
  obtain ⟨hrun, hbank, hregs, hmem⟩ : (s.dev.handover t.val k).runAt t.val k = some { r with status := some .owner } ∧
      (s.dev.handover t.val k).bank = s.dev.bank ∧
      SameRegs s.dev (s.dev.handover t.val k) [(F.MST_DIG_STAT_BACKLOG, [])] ∧ SameMem s.dev (s.dev.handover t.val k) :=
    effect_local hx rfl (by simp [hb, claims_any_eq_false hc, hno]) (.refl 0 _) rfl (.refl _) rfl
  exact completes_of_exec rfl ⟨congrArg (·.claims) hbank, ⟨_, hrun, rfl⟩, hregs, hmem⟩

end Sys2Proof.Machine
end

section
namespace Sys2Proof.Machine

/-- Settles O54: every clause holds, each by the lemma above for its command. -/
theorem slipsCrossingsLocksAndHandover : Obligations.SlipsCrossingsLocksAndHandover := by
  refine ⟨?mark, ?indicator, ?resume, ?lock, ?claims, ?owner⟩
  case mark => exact fun s n hp hf hlate hh hok _ => completes_hoistSyncMark hp hf hlate hh hok
  case indicator => exact fun s n g k hr hk hh ha => completes_resetIndicatorAssert hr hk hh ha
  case resume =>
    exact fun s g h x t c hs hh ha hj hg hreg hidx hw hvia hx hm hr =>
      completes_stoppedIslandAccessResume hs hh ha hj hg hreg hidx hw hvia hx hm hr
  case lock => exact fun s iss v hl => completes_mstLockWrite hl
  case claims => exact fun s t k die b sail r hx hb hc hadm => completes_handover_claims hx hb hc hadm
  case owner => exact fun s t k die b sail r hx hb hc hno => completes_handover_owner hx hb hc hno

end Sys2Proof.Machine
end

section
/-!
What an operation leaves alone when it writes only listed fields: memory, hosts, the JTAG port, time and the phase of the device stand.
-/
namespace Sys2Proof.Machine

/-- From `d` to `e` of the registers only the fields of `l` may differ, and of the rest neither memory, nor the hosts, nor the JTAG
port, nor time or the phase of the device. -/
structure Touches (l : List Field) (d e : Dev) : Prop where
  fields : SameFields d e l
  mem : e.mem = d.mem
  lost : e.bank.lost = d.bank.lost
  out : e.out = d.out
  host : e.host = d.host
  jtag : e.jtag = d.jtag
  now : e.clk.now = d.clk.now
  frame : e.clk.frame = d.clk.frame
  phase : e.clk.phase = d.clk.phase

section
variable {l : List Field} {d e : Dev}

theorem Touches.refl (l : List Field) (d : Dev) : Touches l d d := ⟨fun _ _ _ => rfl, rfl, rfl, rfl, rfl, rfl, rfl, rfl, rfl⟩

theorem Touches.trans {c : Dev} (h : Touches l d e) (k : Touches l e c) : Touches l d c where
  fields f i hb := (k.fields f i hb).trans (h.fields f i hb)
  mem := k.mem.trans h.mem
  lost := k.lost.trans h.lost
  out := k.out.trans h.out
  host := k.host.trans h.host
  jtag := k.jtag.trans h.jtag
  now := k.now.trans h.now
  frame := k.frame.trans h.frame
  phase := k.phase.trans h.phase

theorem Touches.sameMem (h : Touches l d e) : SameMem d e := sameMem_of h.mem h.lost

theorem Touches.mono {m : List Field} (h : Touches l d e) (hs : l ⊆ m) : Touches m d e :=
  { h with fields := fun f i hb => h.fields f i fun x hx => hb x (hs hx) }

theorem Touches.setF (h : Touches l d e) {f : Field} (hf : f ∈ l) (i : List Nat) (v : Nat) : Touches l d (e.setF f i v) :=
  h.trans { Touches.refl l e with
    fields := fun g j hb => getF_setF_key e f g i j v fun ⟨hreg, hlo, _⟩ => hb f hf ⟨hreg, hlo⟩ }

theorem Touches.ite {c : Prop} [Decidable c] {x y : Dev} (hx : Touches l d x) (hy : Touches l d y) :
    Touches l d (if c then x else y) := by split_ifs <;> assumption

/-- Steps of which each touches only the fields of `l` together touch only those. -/
theorem Touches.foldl {α : Type} {f : Dev → α → Dev} (h : ∀ d x, Touches l d (f d x)) (d : Dev) (xs : List α) :
    Touches l d (xs.foldl f d) := by
  induction xs generalizing d with
  | nil => exact .refl l d
  | cons x t ih => exact (h d x).trans (ih _)

theorem Touches.islandOn (h : Touches l d e) (hl : ∀ f ∈ l, ¬(f.reg = F.MST_CLKON_ON.reg ∧ f.lo = F.MST_CLKON_ON.lo)) (g : Nat) :
    e.islandOn g = d.islandOn g := congrArg (bit · (g % 32)) (h.fields F.MST_CLKON_ON _ hl)

end

/-- Changing the state of circuits alone touches no field. -/
theorem touches_setLane (l : List Field) (d : Dev) (p k : Nat) (x : LaneSt) : Touches l d (d.setLane p k x) :=
  { Touches.refl l d with }

end Sys2Proof.Machine
end

section
/-!
PLL lock and Hoist (R61, R62).
-/
namespace Sys2Proof.Machine

/-! ## Lock bits -/

/-- The lock bits of two dies lie in one field exactly at distinct places of it. -/
theorem lockBit_apart (n m : Fin 25) :
    (lockBit m.val).2 < (lockBit m.val).1.w ∧
      (fieldNe (lockBit n.val).1 (lockBit m.val).1 = true ∧ n ≠ m ∨
        (lockBit n.val).1 = (lockBit m.val).1 ∧ decide ((lockBit n.val).2 = (lockBit m.val).2) = decide (n = m)) := by
  revert n m; decide +kernel

theorem setLocked_locked (d : Dev) (n m : Fin 25) : (d.setLocked n.val true).locked m.val = (d.locked m.val || decide (n = m)) := by
  obtain ⟨hw, ⟨hfield, hne⟩ | ⟨hfield, hbit⟩⟩ := lockBit_apart n m
  · rw [decide_eq_false hne, Bool.or_false]
    exact bitF_setF_ne d _ _ [] [] _ _ hfield
  · have hset := bitF_setBitF d (lockBit m.val).1 [] (lockBit n.val).2 (lockBit m.val).2 hw
    rw [hbit, ← hfield] at hset
    rw [Dev.locked, Dev.locked, ← hfield]
    exact hset

theorem setLocked_sameRegs (d : Dev) (n : Nat) (v : Bool) : SameRegs d (d.setLocked n v) [((lockBit n).1, [])] := by
  unfold Dev.setLocked
  split_ifs <;> exact sameRegs_setF (.head _) (sameRegs_refl d _)

/-- In the 100 µs that Hoist waits, the lock of a die not yet locked sets its bit, and the last one fixes L. -/
theorem pllLock_locking {d : Dev} {n : DieNo} (hp : d.clk.phase = .locking) (hl : d.locked n = false)
    (hnow : d.clk.now ≤ d.clk.timeZero + us 100) :
    d.pllLock n = if (d.setLocked n true).allLocked then
      { d.setLocked n true with clk := { (d.setLocked n true).clk with lastLock := (d.setLocked n true).clk.now } } else d.setLocked n true := by
  rw [Dev.pllLock, hp]
  exact if_neg (by simp [hl, hnow])

/-- A die already locked, or one that locks after the 100 µs, changes nothing. -/
theorem pllLock_ignored {d : Dev} {n : DieNo} (hp : d.clk.phase = .locking)
    (h : d.locked n = true ∨ d.clk.timeZero + us 100 < d.clk.now) : d.pllLock n = d := by
  rw [Dev.pllLock, hp]
  exact if_pos h

theorem completes_pllLock {s : State} {n : Fin 25} (hp : s.dev.clk.phase = .locking)
    (hnow : s.dev.clk.now ≤ s.dev.clk.timeZero + us 100) :
    Completes (.pllLock n) s (fun d => d.locked n.val = true ∧ (∀ m : Fin 25, m ≠ n → d.locked m.val = s.dev.locked m.val) ∧
      SameMem s.dev d ∧ d.clk.phase = .locking ∧ SameRegs s.dev d [((lockBit n.val).1, [])] ∧
      (s.dev.locked n.val = false → d.allLocked = true → d.clk.lastLock = s.dev.clk.now)) := by
  cases hl : s.dev.locked n.val
  case true =>
    refine completes_of_eq rfl (pllLock_ignored hp (.inl hl)) ?_
    exact ⟨hl, fun _ _ => rfl, fun _ => rfl, hp, sameRegs_refl s.dev _, fun h => absurd h (by decide)⟩
  case false =>
    refine completes_of_eq rfl (pllLock_locking hp hl hnow) ?_
    have hset := setLocked_locked s.dev n
    have hregs := setLocked_sameRegs s.dev n.val true
    have hn : (s.dev.setLocked n.val true).locked n.val = true := by simp [hset]
    have hm (m : Fin 25) (hne : m ≠ n) : (s.dev.setLocked n.val true).locked m.val = s.dev.locked m.val := by simp [hset, hne.symm]
    split_ifs with hall
    · exact ⟨hn, hm, fun _ => rfl, hp, hregs, fun _ _ => rfl⟩
    · exact ⟨hn, hm, fun _ => rfl, hp, hregs, fun _ h => absurd h hall⟩

theorem exec_pllLock_late {s : State} {n : Fin 25} (hp : s.dev.clk.phase = .locking) (hnow : s.dev.clk.timeZero + us 100 < s.dev.clk.now) :
    exec (.pllLock n) s = .next s := by
  show Host.Outcome.next { s with dev := s.dev.pllLock n.val } = _
  rw [pllLock_ignored hp (.inr hnow)]

theorem completes_hoistSync {s : State} (hp : s.dev.clk.phase = .locking) (hall : s.dev.allLocked = true)
    (hnow : s.dev.clk.lastLock + us 1 ≤ s.dev.clk.now) :
    Completes .hoistSync s (fun d => d.clk.phase = .synced ∧ d.clk.frame = 0 ∧ d.clk.fabRun = true ∧ d.fabTime = 0 ∧
      SameRegs s.dev d [(F.FAB_TIME_TIME, [])] ∧ SameMem s.dev d) := by
  refine completes_of_eq rfl (if_pos ⟨hp, hall, hnow⟩) ⟨rfl, rfl, rfl, getF_setF_same _ _ _ _, ?regs, fun _ => rfl⟩
  case regs => exact sameRegs_setF (.head _) (sameRegs_refl s.dev _)

/-! ## Islands released -/

/-- Whether an island is in service rests on three registers and the hosts' PERST. -/
theorem islandInService_congr {d e : Dev} (hp : e.host.perst = d.host.perst)
    (hr : ∀ (f : Field) (i : List Nat), f.reg = .MST_UNITS ∨ f.reg = .SAL_CORE_OK ∨ f.reg = .BSE_VEC_OK → e.getF f i = d.getF f i)
    (g : Nat) : e.islandInService g = d.islandInService g := by
  simp only [Dev.islandInService, Dev.dieOk, Dev.bitF, hp, hr F.MST_UNITS_YARD_OK _ (.inl rfl), hr F.MST_UNITS_PORT_OK _ (.inl rfl),
    hr F.MST_UNITS_SAIL_OK _ (.inl rfl), hr F.MST_UNITS_BASE_OK _ (.inl rfl), hr F.SAL_CORE_OK_CORES _ (.inr (.inl rfl)),
    hr F.BSE_VEC_OK_ENG _ (.inr (.inr rfl))]

/-- The fields of LNE_STAT that a circuit's place in the formation gives. -/
def laneFields : List Field := [F.LNE_STAT_STATE, F.LNE_STAT_MISMATCH, F.LNE_STAT_SYNC_OK, F.LNE_STAT_POSITION, F.LNE_STAT_LOGICAL]

/-- The fields that the release of a die's islands writes. -/
def releaseFields : List Field := F.MST_CLKON_ON :: laneFields

theorem Touches.islandInService {d e : Dev} (h : Touches releaseFields d e) (g : Nat) : e.islandInService g = d.islandInService g := by
  refine islandInService_congr (congrArg (·.perst) h.host) (fun f i hf => h.fields f i fun x hx ⟨hreg, _⟩ => ?_) g
  have hall : ∀ x ∈ releaseFields, x.reg = .MST_CLKON ∨ x.reg = .LNE_STAT := by decide
  have hwritten := hall x hx
  rw [hreg] at hwritten
  rcases hf with hf | hf | hf <;> rw [hf] at hwritten <;> exact absurd hwritten (by decide)

theorem startIsland_touches (d : Dev) (g : Nat) : Touches releaseFields d (d.startIsland g) := by
  have hset : Touches releaseFields d (d.setBitF F.MST_CLKON_ON [g / 32] (g % 32)) := (Touches.refl _ d).setF (.head _) _ _
  unfold Dev.startIsland
  exact .ite (.refl _ d) { hset with }

theorem toDetect_touches (d : Dev) (p k : Nat) : Touches laneFields d (d.toDetect p k) := by
  unfold Dev.toDetect Dev.toState
  refine .setF (.trans (.setF (touches_setLane _ _ _ _ _) ?_ _ _) (touches_setLane _ _ _ _ _)) ?_ _ _ <;> decide

theorem laneAssign_touches (d : Dev) (p : Nat) : Touches laneFields d (d.laneAssign p) := by
  refine .foldl (fun d k => ?_) d _
  have hpos : Touches laneFields d (d.setF F.LNE_STAT_POSITION [p, k] ((d.positionOf p k).getD 0xFF)) := .setF (.refl _ d) (by decide) _ _
  dsimp only
  refine .ite (hpos.setF (by decide) _ _) ?_
  split
  · exact ((hpos.setF (by decide) _ _).setF (by decide) _ _).setF (by decide) _ _
  · have hlog := hpos.setF (f := F.LNE_STAT_LOGICAL) (by decide)
    exact .ite ((hlog _ _).trans (toDetect_touches _ _ _)) (hlog _ _)

/-- Release those of the islands `l` that are in service. -/
def Dev.releaseIslands (d : Dev) (l : List Nat) : Dev := l.foldl (fun d g => if d.islandInService g then d.startIsland g else d) d

/-- The islands of die `n`. -/
def islandsOf (n : DieNo) : List Nat := (List.range (dieIslands n).2).map ((dieIslands n).1 + ·)

theorem releaseDie_eq (d : Dev) (n : DieNo) : d.releaseDie n =
    if 5 ≤ n ∧ n ≤ 12 then (d.releaseIslands (islandsOf n)).laneAssign (n - 5) else d.releaseIslands (islandsOf n) := by
  rw [Dev.releaseIslands, islandsOf, List.foldl_map]
  rfl

theorem releaseIslands_touches (d : Dev) (l : List Nat) : Touches releaseFields d (d.releaseIslands l) :=
  .foldl (fun d g => .ite (startIsland_touches d g) (.refl _ d)) d l

theorem releaseDie_touches (d : Dev) (n : DieNo) : Touches releaseFields d (d.releaseDie n) := by
  have hrel := releaseIslands_touches d (islandsOf n)
  rw [releaseDie_eq]
  exact .ite (hrel.trans ((laneAssign_touches _ _).mono (List.subset_cons_self _ _))) hrel

/-- An island that a release reaches runs after it if it is in service, but none but the always-on one after a JTAG SCAN (R512). -/
def Dev.released (d : Dev) (g : Nat) : Bool := d.islandInService g && (!d.jtag.scanned || g == 0)

theorem Touches.released {d e : Dev} (h : Touches releaseFields d e) (g : Nat) : e.released g = d.released g := by
  rw [Dev.released, Dev.released, h.islandInService, h.jtag]

theorem releaseIslands_islandOn (d : Dev) (l : List Nat) (g : Nat) :
    (d.releaseIslands l).islandOn g = (d.islandOn g || (decide (g ∈ l) && d.released g)) := by
  induction l generalizing d with
  | nil => simp [Dev.releaseIslands]
  | cons a t ih =>
    have hstep : Touches releaseFields d (if d.islandInService a then d.startIsland a else d) :=
      .ite (startIsland_touches d a) (.refl _ d)
    have hon : (if d.islandInService a then d.startIsland a else d).islandOn g = (d.islandOn g || (decide (g = a) && d.released g)) := by
      by_cases hg : g = a
      · subst hg
        split_ifs with hin <;> simp [startIsland_islandOn, Dev.released, hin]
      · split_ifs <;> simp [startIsland_islandOn, hg]
    refine (ih _).trans ?_
    rw [hon, hstep.released, Bool.or_assoc, ← Bool.and_or_distrib_right, ← Bool.decide_or]
    simp only [List.mem_cons]

theorem dieIslands_eq (n : Nat) : dieIslands n = if n = 0 then (0, 8) else if n ≤ 4 then (8 + 6 * (n - 1), 6)
    else if n ≤ 12 then (32 + 136 * (n - 5), 136) else if n ≤ 16 then (1120 + 66 * (n - 13), 66) else (1384 + 17 * (n - 17), 17) := by
  unfold dieIslands dieClass
  split_ifs <;> rfl

theorem mem_islandsOf {n g : Nat} (hn : n < 25) (hg : g < 1520) : g ∈ islandsOf n ↔ islandDie g = n := by
  have hrange : g ∈ islandsOf n ↔ (dieIslands n).1 ≤ g ∧ g < (dieIslands n).1 + (dieIslands n).2 := by
    simp only [islandsOf, List.mem_map, List.mem_range]
    exact ⟨fun ⟨i, hi, he⟩ => by omega, fun ⟨hlo, hhi⟩ => ⟨g - (dieIslands n).1, by omega, by omega⟩⟩
  rw [hrange, dieIslands_eq]
  unfold islandDie DieNo
  split_ifs <;> dsimp only <;> omega

theorem islandDie_lt {g : Nat} (hg : g < 1520) : islandDie g < 25 := by
  unfold islandDie DieNo
  split_ifs <;> omega

theorem releaseDie_islandOn (d : Dev) {n : DieNo} {g : Nat} (hn : n < 25) (hg : g < 1520) :
    (d.releaseDie n).islandOn g = (d.islandOn g || (decide (islandDie g = n) && d.released g)) := by
  have hlane (e : Dev) : (e.laneAssign (n - 5)).islandOn g = e.islandOn g := (laneAssign_touches e _).islandOn (by decide) g
  have hrel := releaseIslands_islandOn d (islandsOf n) g
  rw [decide_eq_decide.mpr (mem_islandsOf hn hg)] at hrel
  rw [releaseDie_eq]
  split_ifs
  · rw [hlane, hrel]
  · exact hrel

/-- The dies of a list are released one after another. -/
theorem releaseDies_islandOn (d : Dev) {l : List DieNo} {g : Nat} (hl : ∀ n ∈ l, n < 25) (hg : g < 1520) (hd : islandDie g ∈ l)
    (hr : d.released g = true) : (l.foldl Dev.releaseDie d).islandOn g = true := by
  have hkeep (l : List DieNo) (d : Dev) (hl : ∀ n ∈ l, n < 25) (hon : d.islandOn g = true) :
      (l.foldl Dev.releaseDie d).islandOn g = true := by
    induction l generalizing d with
    | nil => exact hon
    | cons n t ih => exact ih _ (fun m hm => hl m (.tail _ hm)) (by rw [releaseDie_islandOn d (hl n (.head _)) hg, hon, Bool.true_or])
  induction l generalizing d with
  | nil => exact (List.not_mem_nil hd).elim
  | cons n t ih =>
    have ht : ∀ m ∈ t, m < 25 := fun m hm => hl m (.tail _ hm)
    rcases List.mem_cons.mp hd with hn | hin
    · exact hkeep t _ ht (by rw [releaseDie_islandOn d (hl n (.head _)) hg, hn, hr]; simp)
    · exact ih _ ht hin (by rw [(releaseDie_touches d n).released, hr])

/-- After ISLAND_RESET_RELEASE registers, memory and banks stand as the release of the dies, `e`, left them. -/
theorem islandRelease_spec {d e : Dev} (miss : List (Nat × Nat)) (hp : d.clk.phase = .synced) (hf : 25 ≤ d.clk.frame)
    (he : (List.range 25).foldl Dev.releaseDie d = e) :
    (d.islandRelease miss).regs = e.regs ∧ SameMem e (d.islandRelease miss) ∧ (d.islandRelease miss).clk.phase = .released := by
  rw [Dev.islandRelease, if_pos ⟨hp, hf⟩, he]
  exact ⟨rfl, fun _ => rfl, rfl⟩

theorem completes_islandResetRelease {s : State} {miss : List (Fin 25 × Nat)} (hp : s.dev.clk.phase = .synced)
    (hf : 25 ≤ s.dev.clk.frame) (hs : s.dev.jtag.scanned = false) :
    Completes (.islandResetRelease miss) s (fun d => d.clk.phase = .released ∧ SameMem s.dev d ∧
      ∀ g : Fin 1520, s.dev.islandInService g.val = true → d.islandOn g.val = true) := by
  have htouch := Touches.foldl releaseDie_touches s.dev (List.range 25)
  have hon (g : Nat) (hg : g < 1520) (hin : s.dev.islandInService g = true) :=
    releaseDies_islandOn s.dev (l := List.range 25) (fun n hn => List.mem_range.mp hn) hg (List.mem_range.mpr (islandDie_lt hg))
      (by simp [Dev.released, hin, hs])
  generalize he : (List.range 25).foldl Dev.releaseDie s.dev = e at htouch hon
  obtain ⟨hregs, hmem, hphase⟩ := islandRelease_spec (miss.map (fun x => (x.1.val, x.2))) hp hf he
  exact completes_of_exec rfl ⟨hphase, sameMem_trans htouch.sameMem hmem, fun g hin =>
    (islandOn_of_regs hregs g.val).trans (hon g.val g.isLt hin)⟩

/-! ## The end of Hoist and its timeout -/

/-- The registers at the end of Hoist, with `k` free crossings. -/
theorem heldStart_hoistDone (d e : Dev) (k : Nat)
    (he : e.regs = ((d.raise F.MST_HOIST_STAT_DONE).setF F.MST_HOIST_STAT_FREE_XING [] k).regs) :
    e.heldStart.flag F.MST_HOIST_STAT_DONE = true ∧
      e.heldStart.getF F.MST_HOIST_STAT_FREE_XING = k % 2 ^ F.MST_HOIST_STAT_FREE_XING.w ∧
      SameRegs d e.heldStart [(F.MST_HOIST_STAT_DONE, []), (F.MST_HOIST_STAT_FREE_XING, []), (F.MST_DET_STAT_HELD_START, [])] := by
  have hget (f : Field) (i : List Nat) : e.getF f i = ((d.raise F.MST_HOIST_STAT_DONE).setF F.MST_HOIST_STAT_FREE_XING [] k).getF f i := by
    rw [Dev.getF, Dev.getF, he]
  refine ⟨?done, ?free, ?regs⟩
  case done => simp (disch := decide) only [Dev.flag, Dev.heldStart, hget, Dev.raise, getF_setF_ne, getF_setF_same]; rfl
  case free => simp (disch := decide) only [Dev.heldStart, hget, getF_setF_ne, getF_setF_same]
  case regs =>
    refine sameRegs_setF (.tail _ (.tail _ (.head _))) (sameRegs_of_regs ?_ he)
    exact sameRegs_setF (.tail _ (.head _)) (sameRegs_setF (.head _) (sameRegs_refl d _))

theorem completes_hoistDone {s : State} (hp : s.dev.clk.phase = .released) (hf : 33 ≤ s.dev.clk.frame) :
    Completes .hoistDone s (fun d => d.clk.phase = .running ∧ d.flag F.MST_HOIST_STAT_DONE = true ∧
      d.getF F.MST_HOIST_STAT_FREE_XING = s.dev.freeTotal % 2 ^ F.MST_HOIST_STAT_FREE_XING.w ∧
      SameRegs s.dev d [(F.MST_HOIST_STAT_DONE, []), (F.MST_HOIST_STAT_FREE_XING, []), (F.MST_DET_STAT_HELD_START, [])] ∧
      SameMem s.dev d) := by
  refine completes_of_eq rfl (if_pos ⟨hp, hf⟩) ?_
  obtain ⟨hdone, hfree, hregs⟩ := heldStart_hoistDone s.dev _ s.dev.freeTotal rfl
  exact ⟨rfl, hdone, hfree, hregs, fun _ => rfl⟩

theorem sendMsix_perst (d : Dev) (x f v : Nat) : (d.sendMsix x f v).host.perst = d.host.perst := by
  unfold Dev.sendMsix; split_ifs <;> rfl

theorem fault_perst (d : Dev) (n : DieNo) (s : FSrc) : (d.fault n s).host.perst = d.host.perst := by
  unfold Dev.fault Dev.faultBit
  dsimp only
  split_ifs <;> simp [sendMsix_perst]

/-- What PLL_TIMEOUT of die `n` reports: FAIL, FAIL_DIE and the fault source (R62). -/
def Dev.hoistFails (d : Dev) (n : DieNo) : Dev :=
  ({ (d.setF F.MST_HOIST_STAT_FAIL [] 1).setF F.MST_HOIST_STAT_FAIL_DIE [] n with clk := { d.clk with phase := .pllFailed } } : Dev).fault 0 .hoistFail

/-- A field of neither MST_HOIST_STAT nor a fault report. -/
theorem hoistFails_getF (d : Dev) (n : DieNo) (f : Field) (i : List Nat) (hh : F.MST_HOIST_STAT_FAIL.reg ≠ f.reg)
    (hf : faultReg f.reg = false) : (d.hoistFails n).getF f i = d.getF f i := by
  rw [Dev.hoistFails, fault_getF _ _ _ _ _ hf, getF_mk, getF_setF_reg _ _ _ _ _ _ (by exact hh), getF_setF_reg _ _ _ _ _ _ hh]

theorem hoistFails_stat (d : Dev) {n : DieNo} (hn : n < 25) :
    (d.hoistFails n).getF F.MST_HOIST_STAT_FAIL = 1 ∧ (d.hoistFails n).getF F.MST_HOIST_STAT_FAIL_DIE = n := by
  simp (disch := decide) only [Dev.hoistFails, fault_getF, getF_mk, getF_setF_ne, getF_setF_same]
  exact ⟨rfl, Nat.mod_eq_of_lt (hn.trans (by decide))⟩

theorem hoistFails_released (d : Dev) (n : DieNo) (g : Nat) : (d.hoistFails n).released g = d.released g := by
  have hserv : (d.hoistFails n).islandInService g = d.islandInService g := by
    refine islandInService_congr (d := d) (e := d.hoistFails n) (fault_perst _ _ _) (fun f i hf => ?_) g
    rcases hf with hf | hf | hf <;> exact hoistFails_getF d n f i (by rw [hf]; decide) (by rw [hf]; rfl)
  rw [Dev.released, Dev.released, hserv, Dev.hoistFails, fault_jtag]
  rfl

theorem completes_pllTimeout {s : State} {n : Fin 25} (hp : s.dev.clk.phase = .locking) (hl : s.dev.locked n.val = false)
    (hnow : s.dev.clk.timeZero + us 100 ≤ s.dev.clk.now) :
    Completes (.pllTimeout n) s (fun d => d.clk.phase = .pllFailed ∧ d.getF F.MST_HOIST_STAT_FAIL = 1 ∧
      d.getF F.MST_HOIST_STAT_FAIL_DIE = n.val ∧ SameMem s.dev d ∧
      ∀ g : Fin 1520, d.islandOn g.val = (s.dev.islandOn g.val ||
        (s.dev.locked 0 && decide (islandDie g.val = 0) && s.dev.islandInService g.val && (!s.dev.jtag.scanned || g.val == 0)))) := by
  have hlock : (s.dev.hoistFails n.val).locked 0 = s.dev.locked 0 :=
    congrArg (bit · 0) (hoistFails_getF s.dev n.val F.MST_PLL_LOCK_MAST [] (by decide) rfl)
  have hdo : s.dev.pllTimeout n.val = if s.dev.locked 0 then (s.dev.hoistFails n.val).releaseDie 0 else s.dev.hoistFails n.val := by
    rw [← hlock]
    exact if_pos ⟨hp, by simp [hl], hnow⟩
  refine completes_of_eq rfl hdo ?_
  obtain ⟨hfail, hdie⟩ := hoistFails_stat s.dev n.isLt
  have hphase : (s.dev.hoistFails n.val).clk.phase = .pllFailed := congrArg (·.phase) (fault_clk _ _ _)
  have hmem : SameMem s.dev (s.dev.hoistFails n.val) := sameMem_of (fault_mem _ _ _) (congrArg (·.lost) (fault_bank _ _ _))
  have hon (g : Nat) : (s.dev.hoistFails n.val).islandOn g = s.dev.islandOn g :=
    congrArg (bit · (g % 32)) (hoistFails_getF s.dev n.val F.MST_CLKON_ON _ (by decide) rfl)
  split_ifs with hmast
  · have hrel := releaseDie_touches (s.dev.hoistFails n.val) 0
    refine ⟨hrel.phase.trans hphase, (hrel.fields _ _ (by decide)).trans hfail, (hrel.fields _ _ (by decide)).trans hdie,
      sameMem_trans hmem hrel.sameMem, fun g => ?_⟩
    rw [releaseDie_islandOn _ (by decide) g.isLt, hon, hoistFails_released, hmast, Dev.released, Bool.true_and, Bool.and_assoc]
  · refine ⟨hphase, hfail, hdie, hmem, fun g => ?_⟩
    rw [hon, Bool.eq_false_iff.mpr hmast]
    simp

end Sys2Proof.Machine
end

section
namespace Sys2Proof.Machine

/-- Settles O5: every clause holds, each by the lemma above for its command. -/
theorem hoistRunsInItsOrder : Obligations.HoistRunsInItsOrder := by
  refine ⟨?lock, ?late, ?sync, ?release, ?done, ?timeout⟩
  case lock => exact fun s n hp hnow => completes_pllLock hp hnow
  case late => exact fun s n hp hnow => exec_pllLock_late hp hnow
  case sync => exact fun s hp hall hnow => completes_hoistSync hp hall hnow
  case release => exact fun s miss hp hf hs => completes_islandResetRelease hp hf hs
  case done => exact fun s hp hf => completes_hoistDone hp hf
  case timeout => exact fun s n hp hl hnow => completes_pllTimeout hp hl hnow

end Sys2Proof.Machine
end

section
/-!
Steps of fabric time (R65, R67, R72).
-/
namespace Sys2Proof.Machine

/-! ## Scheduled events -/

/-- Earlier events come first. -/
abbrev eventLe (x y : Nat × TimedEvent) : Prop := x.1 ≤ y.1

theorem insEvent_eq (x : Nat × TimedEvent) (l : List (Nat × TimedEvent)) : insEvent x l = l.orderedInsert eventLe x := by
  induction l with
  | nil => rfl
  | cons y t ih => rw [insEvent, ih, List.orderedInsert_cons]

theorem foldr_insEvent (l : List (Nat × TimedEvent)) : l.foldr insEvent [] = l.insertionSort eventLe := by
  induction l with
  | nil => rfl
  | cons x t ih => rw [List.foldr_cons, ih, insEvent_eq]; rfl

theorem passed_eq (d : Dev) : d.passed = (d.scheduled.filter (fun x => decide (x.1 ≤ d.fabTime))).insertionSort eventLe := foldr_insEvent _

theorem mem_passed {d : Dev} {x : Nat × TimedEvent} : x ∈ d.passed ↔ x ∈ d.scheduled ∧ x.1 ≤ d.fabTime := by
  rw [passed_eq, List.mem_insertionSort, List.mem_filter, decide_eq_true_iff]

theorem passed_pairwise (d : Dev) : d.passed.Pairwise (fun x y => x.1 ≤ y.1) := by
  have : Std.Total eventLe := ⟨fun a b => Nat.le_total _ _⟩
  have : IsTrans _ eventLe := ⟨fun a b c => Nat.le_trans⟩
  rw [passed_eq]
  exact List.pairwise_insertionSort _ _

theorem afterStep_of_none {d : Dev} (was : Nat) (h : ∀ x ∈ d.scheduled, d.fabTime < x.1) : d.afterStep was = d := by
  have hnil : d.passed = [] := List.eq_nil_iff_forall_not_mem.mpr fun x hx =>
    (Nat.not_le.mpr (h x (mem_passed.mp hx).1)) (mem_passed.mp hx).2
  rw [Dev.afterStep, hnil]
  exact ite_self _

/-- After a forward step the events that it passes take effect, in the order of their times. -/
theorem afterStep_forward {d : Dev} {was v : Nat} (ht : d.fabTime = (was + v) % 2 ^ 64) (h0 : 0 < v) (h1 : v < 2 ^ 63) :
    d.afterStep was = d.passed.foldl (fun a x => a.timed x.2) d := by
  have hstep : (d.fabTime + 2 ^ 64 - was % 2 ^ 64) % 2 ^ 64 = v := by omega
  rw [Dev.afterStep, hstep]
  exact if_pos ⟨h0, h1⟩

/-! ## The step -/

/-- The fields that a step of fabric time writes. -/
def stepFields : List (Field × List Nat) := [(F.FAB_TIME_TIME, []), (F.FAB_STAT_STEP_CNT, []), (F.FAB_STAT_ALIGNED, [])]

/-- From `d` to `e` fabric time has taken the step `v`, counted, and perhaps aligned the device; memory and the scheduled events
stand. -/
structure Stepped (v : Nat) (d e : Dev) : Prop where
  time : e.fabTime = (d.fabTime + v) % 2 ^ 64
  count : e.getF F.FAB_STAT_STEP_CNT = (d.getF F.FAB_STAT_STEP_CNT + 1) % 2 ^ F.FAB_STAT_STEP_CNT.w
  regs : SameRegs d e stepFields
  mem : SameMem d e
  eng : e.eng = d.eng
  now : e.clk.now = d.clk.now

theorem Stepped.scheduled {v : Nat} {d e : Dev} (h : Stepped v d e) : e.scheduled = d.scheduled := by
  have hget (f : Field) (i : List Nat) (ht : F.FAB_TIME_TIME.reg ≠ f.reg) (hs : F.FAB_STAT_ALIGNED.reg ≠ f.reg) : e.getF f i = d.getF f i :=
    h.regs f i fun x hx ⟨hreg, _⟩ => by
      have hwritten : ∀ x ∈ stepFields, x.1.reg = F.FAB_TIME_TIME.reg ∨ x.1.reg = F.FAB_STAT_ALIGNED.reg := by decide
      exact (hwritten x hx).elim (fun e => ht (e.symm.trans hreg)) (fun e => hs (e.symm.trans hreg))
  have hflag (f : Field) (i : List Nat) (ht : F.FAB_TIME_TIME.reg ≠ f.reg) (hs : F.FAB_STAT_ALIGNED.reg ≠ f.reg) :
      e.flag f i = d.flag f i := congrArg (· == 1) (hget f i ht hs)
  have hanchor : e.anchorHolds = d.anchorHolds := by rw [Dev.anchorHolds, Dev.anchorHolds, h.eng, h.now]
  simp (disch := decide) only [Dev.scheduled, hflag, hget, hanchor]

theorem Stepped.aligned {v : Nat} {d e : Dev} (h : Stepped v d e) : Stepped v d (e.raise F.FAB_STAT_ALIGNED) where
  time := (getF_setF_ne _ _ _ _ _ _ (by decide)).trans h.time
  count := (getF_setF_ne _ _ _ _ _ _ (by decide)).trans h.count
  regs := sameRegs_setF (.tail _ (.tail _ (.head _))) h.regs
  mem := h.mem
  eng := h.eng
  now := h.now

theorem stepTime_stepped (v : Nat) {d e : Dev} (hr : e.regs = d.regs) (hm : SameMem d e) (he : e.eng = d.eng)
    (hn : e.clk.now = d.clk.now) : Stepped v d (e.stepTime v) where
  time := by
    rw [Dev.fabTime, Dev.stepTime, Dev.addWrap, getF_setF_ne _ _ _ _ _ _ (by decide), getF_setF_same, Dev.fabTime, Dev.fabTime,
      Dev.getF, Dev.getF, hr]
    rfl
  count := by
    rw [Dev.stepTime, Dev.addWrap, getF_setF_same, getF_setF_ne _ _ _ _ _ _ (by decide), Dev.getF, Dev.getF, hr]
  regs := sameRegs_setF (.tail _ (.head _)) (sameRegs_setF (.head _) (sameRegs_of_regs (sameRegs_refl d _) hr))
  mem := hm
  eng := he
  now := hn

theorem timeStep_stepped {d : Dev} {v : Nat} {rest : List Nat} (hs : d.clk.steps = v :: rest) (hr : d.clk.fabRun = true)
    (hh : d.headless = false) : Stepped v d d.timeStep ∧ d.timeStep.clk.steps = rest := by
  have hstep : Stepped v d (({ d with clk := { d.clk with steps := rest } } : Dev).stepTime v) :=
    stepTime_stepped v rfl (fun _ => rfl) rfl rfl
  rw [Dev.timeStep, hs]
  dsimp only
  rw [if_pos (by simp [hr, hh])]
  split_ifs
  · exact ⟨hstep.aligned, rfl⟩
  · exact ⟨hstep, rfl⟩

theorem autoStep_stepped {d : Dev} {o : Nat} (hs : d.clk.autoStep = some o) (hr : d.clk.fabRun = true) (hh : d.headless = false)
    (ha : d.flag F.FAB_CTRL_AUTO_STEP = true) :
    Stepped o d d.autoStep ∧ d.autoStep.clk.autoStep = none ∧ d.autoStep.flag F.FAB_STAT_ALIGNED = true := by
  have hstep : Stepped o d (({ d with clk := { d.clk with autoStep := none } } : Dev).stepTime o) :=
    stepTime_stepped o rfl (fun _ => rfl) rfl rfl
  rw [Dev.autoStep, hs]
  dsimp only
  rw [if_pos (by simp [hr, hh, ha])]
  exact ⟨hstep.aligned, rfl, flag_raise _ _ _ rfl⟩

theorem Stepped.afterStep_of_none {v : Nat} {d e : Dev} (h : Stepped v d e) (was : Nat)
    (hx : ∀ x ∈ d.scheduled, (d.fabTime + v) % 2 ^ 64 < x.1) : e.afterStep was = e :=
  Machine.afterStep_of_none was fun x hin => h.time ▸ hx x (h.scheduled ▸ hin)

theorem completes_fabricTimeStep {s : State} {v : Nat} {rest : List Nat} (hs : s.dev.clk.steps = v :: rest)
    (hr : s.dev.clk.fabRun = true) (hh : s.dev.headless = false) (hx : ∀ x ∈ s.dev.scheduled, (s.dev.fabTime + v) % 2 ^ 64 < x.1) :
    Completes .fabricTimeStep s (fun d => d.fabTime = (s.dev.fabTime + v) % 2 ^ 64 ∧ d.clk.steps = rest ∧
      d.getF F.FAB_STAT_STEP_CNT = (s.dev.getF F.FAB_STAT_STEP_CNT + 1) % 2 ^ F.FAB_STAT_STEP_CNT.w ∧
      SameRegs s.dev d [(F.FAB_TIME_TIME, []), (F.FAB_STAT_STEP_CNT, []), (F.FAB_STAT_ALIGNED, [])] ∧ SameMem s.dev d) := by
  obtain ⟨hstep, hrest⟩ := timeStep_stepped hs hr hh
  exact completes_of_eq rfl (hstep.afterStep_of_none _ hx) ⟨hstep.time, hrest, hstep.count, hstep.regs, hstep.mem⟩

theorem completes_fabricTimeStep_forward {s : State} {v : Nat} {rest : List Nat} (hs : s.dev.clk.steps = v :: rest)
    (hr : s.dev.clk.fabRun = true) (hh : s.dev.headless = false) (h0 : 0 < v) (h1 : v < 2 ^ 63) :
    Completes .fabricTimeStep s (fun d => ∃ u : Dev, u.fabTime = (s.dev.fabTime + v) % 2 ^ 64 ∧
      SameRegs s.dev u [(F.FAB_TIME_TIME, []), (F.FAB_STAT_STEP_CNT, []), (F.FAB_STAT_ALIGNED, [])] ∧ SameMem s.dev u ∧
      (∀ x ∈ s.dev.scheduled, x.1 ≤ u.fabTime → x ∈ u.passed) ∧ u.passed.Pairwise (fun x y => x.1 ≤ y.1) ∧
      d = u.passed.foldl (fun a x => a.timed x.2) u) := by
  obtain ⟨hstep, -⟩ := timeStep_stepped hs hr hh
  refine completes_of_eq rfl (afterStep_forward hstep.time h0 h1) ⟨s.dev.timeStep, hstep.time, hstep.regs, hstep.mem, ?_, passed_pairwise _, rfl⟩
  exact fun x hin hle => mem_passed.mpr ⟨hstep.scheduled ▸ hin, hle⟩

theorem completes_autoStepAlign {s : State} {o : Nat} (hs : s.dev.clk.autoStep = some o) (hr : s.dev.clk.fabRun = true)
    (hh : s.dev.headless = false) (ha : s.dev.flag F.FAB_CTRL_AUTO_STEP = true)
    (hx : ∀ x ∈ s.dev.scheduled, (s.dev.fabTime + o) % 2 ^ 64 < x.1) :
    Completes .autoStepAlign s (fun d => d.fabTime = (s.dev.fabTime + o) % 2 ^ 64 ∧ d.flag F.FAB_STAT_ALIGNED = true ∧
      d.clk.autoStep = none ∧ d.getF F.FAB_STAT_STEP_CNT = (s.dev.getF F.FAB_STAT_STEP_CNT + 1) % 2 ^ F.FAB_STAT_STEP_CNT.w ∧
      SameRegs s.dev d [(F.FAB_TIME_TIME, []), (F.FAB_STAT_STEP_CNT, []), (F.FAB_STAT_ALIGNED, [])] ∧ SameMem s.dev d) := by
  obtain ⟨hstep, hnone, haligned⟩ := autoStep_stepped hs hr hh ha
  exact completes_of_eq rfl (hstep.afterStep_of_none _ hx) ⟨hstep.time, haligned, hnone, hstep.count, hstep.regs, hstep.mem⟩

end Sys2Proof.Machine
end

section
/-!
Time exchanges (R66, R189, R190).
-/
namespace Sys2Proof.Machine

@[simp] theorem setTimex_timexOf (d : Dev) (k : Nat × Nat) (x : Timex) : (d.setTimex k x).timexOf k = x := nget_nset_same _ _ _ _

@[simp] theorem queueTimex_link (d : Dev) (k : Nat × Nat) (b : List Byte) :
    ((d.queueTimex k b).link k).timex = (d.link k).timex ++ [b] := congrArg LinkSt.timex (nget_nput_same _ _ _ _)

theorem completes_timexRequestSend {s : State} {p : Fin 8} {e : Fin 32} {exch : BitVec 16} (hu : s.dev.portUp (p.val, e.val) = true)
    (hf : s.dev.peerFeat (p.val, e.val) 1 = true) (hd : s.dev.timexDue (p.val, e.val) = true) :
    Completes (.timexRequestSend p e exch) s (fun d => (d.timexOf (p.val, e.val)).waiting = true ∧
      (d.timexOf (p.val, e.val)).exch = exch.toNat ∧ (d.timexOf (p.val, e.val)).sentAt = s.dev.clk.now ∧
      (d.link (p.val, e.val)).timex = (s.dev.link (p.val, e.val)).timex ++
        [timexBlock 1 (s.dev.getF F.FAB_STAT_ALIGNED) exch.toNat 0 0] ∧ SameRegs s.dev d [] ∧ SameMem s.dev d) := by
  have hwait (d : Dev) (b : List Byte) : ((d.setTimex (p.val, e.val) ⟨exch.toNat, 0, s.dev.clk.now, 0, true, false⟩).queueTimex
      (p.val, e.val) b).timexOf (p.val, e.val) = ⟨exch.toNat, 0, s.dev.clk.now, 0, true, false⟩ := setTimex_timexOf d _ _
  refine completes_of_eq rfl (if_pos (by simp [hu, hf, hd])) ?_
  rw [hwait]
  exact ⟨rfl, rfl, rfl, queueTimex_link _ _ _, sameRegs_refl s.dev [], fun _ => rfl⟩

theorem completes_timexRequestReceive {s : State} {p : Fin 8} {e : Fin 32} {b : List (BitVec 8)} {ago : Fin 64} {sym : Fin 17000}
    (hu : s.dev.portUp (p.val, e.val) = true) (hf : s.dev.peerFeat (p.val, e.val) 1 = true) (hlen : b.length = 240)
    (hk : leAt b 0 1 = 1) :
    Completes (.timexRequestReceive p e b ago sym) s (fun d =>
      (d.link (p.val, e.val)).timex = (s.dev.link (p.val, e.val)).timex ++
        [timexBlock 2 (s.dev.getF F.FAB_STAT_ALIGNED) (leAt b 2 2) 0 (s.dev.stampAt ago.val sym.val)] ∧
      SameRegs s.dev d [] ∧ SameMem s.dev d) := by
  refine completes_of_updIf rfl (by simp [timexBlockOk, hlen]) ?_
  rw [Dev.timexReceive, if_pos (by simp [hu, hf, hk])]
  exact ⟨queueTimex_link _ _ _, sameRegs_refl s.dev [], fun _ => rfl⟩

theorem ofSigned_lt (w : Nat) (i : Int) : ofSigned w i < 2 ^ w := by
  have h := Int.emod_lt_of_pos i (Int.natCast_pos.mpr (Nat.two_pow_pos w))
  unfold ofSigned
  omega

/-- The peer's offset and delay of a completed exchange, and DRIFT where the offset moved (R66). -/
def Dev.peerMeasured (d : Dev) (k : Nat × Nat) (v : Int × Int) (drift : Bool) : Dev :=
  ((if drift then d.raise F.FAB_STAT_DRIFT else d).setF F.FAB_PEER_OFS_OFS [k.1, k.2] (ofSigned 64 v.1)).setF F.FAB_PEER_DLY_DLY
    [k.1, k.2] (ofSigned 32 v.2)

theorem peerMeasured_spec (d : Dev) (k : Nat × Nat) (v : Int × Int) (drift : Bool) :
    (d.peerMeasured k v drift).getF F.FAB_PEER_OFS_OFS [k.1, k.2] = ofSigned 64 v.1 ∧
      (d.peerMeasured k v drift).getF F.FAB_PEER_DLY_DLY [k.1, k.2] = ofSigned 32 v.2 ∧
      SameRegs d (d.peerMeasured k v drift) [(F.FAB_PEER_OFS_OFS, [k.1, k.2]), (F.FAB_PEER_DLY_DLY, [k.1, k.2]), (F.FAB_STAT_DRIFT, [])] ∧
      SameMem d (d.peerMeasured k v drift) := by
  refine ⟨?ofs, ?dly, ?regs, ?mem⟩
  case ofs =>
    rw [Dev.peerMeasured, getF_setF_ne _ _ _ _ _ _ (by decide), getF_setF_same]
    exact Nat.mod_eq_of_lt (ofSigned_lt 64 _)
  case dly => exact (getF_setF_same _ _ _ _).trans (Nat.mod_eq_of_lt (ofSigned_lt 32 _))
  case regs =>
    refine sameRegs_setF (.tail _ (.head _)) (sameRegs_setF (.head _) ?_)
    split_ifs
    · exact sameRegs_setF (.tail _ (.tail _ (.head _))) (sameRegs_refl d _)
    · exact sameRegs_refl d _
  case mem => cases drift <;> exact fun _ => rfl

/-- A reply to the exchange that waits ends it and yields the peer's offset and delay; the rest moves in the clocks' state alone. -/
theorem timexReply_answers {d : Dev} {k : Nat × Nat} {b : List Byte} {ago sym : Nat} (hu : d.portUp k = true)
    (hw : (d.timexOf k).waiting = true) (hk : leAt b 0 1 = 2) (hx : leAt b 2 2 = (d.timexOf k).exch) :
    ∃ e c, (∃ drift, e = d.peerMeasured k (timexValues 0 (stampDiff (leAt b 24 8 * 256 + leAt b 32 1) (d.timexOf k).t1) 0
        (stampDiff (d.stampAt ago sym) (leAt b 8 8 * 256 + leAt b 16 1)) (toSigned 32 (d.getF F.FAB_ASYM_ASYM [k.1, k.2]))) drift) ∧
      d.timexReply k b ago sym = { e with clk := c } ∧
      c.timex = nset e.clk.timex [k.1, k.2] { d.timexOf k with waiting := false, done := true } := by
  have hdef (v : Int × Int) (drift : Bool) : ((if drift then d.raise F.FAB_STAT_DRIFT else d).setF F.FAB_PEER_OFS_OFS [k.1, k.2]
    (ofSigned 64 v.1)).setF F.FAB_PEER_DLY_DLY [k.1, k.2] (ofSigned 32 v.2) = d.peerMeasured k v drift := rfl
  rw [Dev.timexReply, if_pos (by simp [hu, hw, hk, hx])]
  dsimp only
  generalize timexValues _ _ _ _ _ = v
  rw [hdef]
  generalize he : d.peerMeasured k v _ = e
  split_ifs <;> exact ⟨e, _, ⟨_, he.symm⟩, rfl, rfl⟩

theorem completes_timexReplyReceive {s : State} {p : Fin 8} {e : Fin 32} {b : List (BitVec 8)} {rx : Fin 64 × Fin 17000}
    (hu : s.dev.portUp (p.val, e.val) = true) (hlen : b.length = 240) (hw : (s.dev.timexOf (p.val, e.val)).waiting = true)
    (hk : leAt b 0 1 = 2) (hx : leAt b 2 2 = (s.dev.timexOf (p.val, e.val)).exch) :
    Completes (.timexReplyReceive p e b rx) s (fun d => (d.timexOf (p.val, e.val)).waiting = false ∧
      (∀ v, v = timexValues 0 (stampDiff (leAt b 24 8 * 256 + leAt b 32 1) (s.dev.timexOf (p.val, e.val)).t1) 0
          (stampDiff (s.dev.stampAt rx.1.val rx.2.val) (leAt b 8 8 * 256 + leAt b 16 1)) (toSigned 32 (s.dev.getF F.FAB_ASYM_ASYM [p.val, e.val])) →
        d.getF F.FAB_PEER_OFS_OFS [p.val, e.val] = ofSigned 64 v.1 ∧ d.getF F.FAB_PEER_DLY_DLY [p.val, e.val] = ofSigned 32 v.2) ∧
      SameRegs s.dev d [(F.FAB_PEER_OFS_OFS, [p.val, e.val]), (F.FAB_PEER_DLY_DLY, [p.val, e.val]), (F.FAB_STAT_DRIFT, [])] ∧
      SameMem s.dev d) := by
  refine completes_of_updIf rfl (by simp [timexBlockOk, hlen]) ?_
  obtain ⟨d, c, ⟨drift, hd⟩, hreply, htimex⟩ := timexReply_answers (ago := rx.1.val) (sym := rx.2.val) hu hw hk hx
  generalize timexValues _ _ _ _ _ = w at hd ⊢
  obtain ⟨hofs, hdly, hregs, hmem⟩ := hd ▸ peerMeasured_spec s.dev (p.val, e.val) w drift
  rw [hreply]
  refine ⟨?ended, fun v hv => hv ▸ ⟨hofs, hdly⟩, hregs, hmem⟩
  case ended => rw [Dev.timexOf, htimex, nget_nset_same]

theorem completes_timexLost {s : State} {p : Fin 8} {e : Fin 32} (hw : (s.dev.timexOf (p.val, e.val)).waiting = true)
    (ht : (s.dev.timexOf (p.val, e.val)).sentAt + us 4 ≤ s.dev.clk.now) :
    Completes (.timexLost p e) s (fun d => (d.timexOf (p.val, e.val)).waiting = false ∧
      d.getF F.PRT_LNK_TIMEX_LOST_COUNT [p.val, e.val] = min (s.dev.getF F.PRT_LNK_TIMEX_LOST_COUNT [p.val, e.val] + 1) (2 ^ 32 - 1) ∧
      SameRegs s.dev d [(F.PRT_LNK_TIMEX_LOST_COUNT, [p.val, e.val])] ∧ SameMem s.dev d) := by
  have hended (d : Dev) (x : Timex) : ((d.setTimex (p.val, e.val) x).incSat F.PRT_LNK_TIMEX_LOST_COUNT [p.val, e.val]).timexOf
      (p.val, e.val) = x := setTimex_timexOf d _ x
  refine completes_of_eq rfl (if_pos (by simp [hw, ht])) ?_
  rw [hended]
  refine ⟨rfl, ?count, sameRegs_setF (.head _) (sameRegs_refl s.dev _), fun _ => rfl⟩
  case count =>
    refine (getF_setF_same _ _ _ _).trans (Nat.mod_eq_of_lt ?_)
    exact lt_of_le_of_lt (min_le_right _ _) (by decide)

end Sys2Proof.Machine
end

section
namespace Sys2Proof.Machine

/-- Settles O6: every clause holds, each by the lemma above for its command. -/
theorem fabricTimeStepsAndExchanges : Obligations.FabricTimeStepsAndExchanges := by
  refine ⟨?step, ?forward, ?align, ?request, ?receive, ?reply, ?lost⟩
  case step => exact fun s v rest hs hr hh hx => completes_fabricTimeStep hs hr hh hx
  case forward => exact fun s v rest hs hr hh h0 h1 => completes_fabricTimeStep_forward hs hr hh h0 h1
  case align => exact fun s o hs hr hh ha hx => completes_autoStepAlign hs hr hh ha hx
  case request => exact fun s p e exch hu hf hd => completes_timexRequestSend hu hf hd
  case receive => exact fun s p e b ago sym hu hf hlen hk => completes_timexRequestReceive hu hf hlen hk
  case reply => exact fun s p e b rx hu hlen hw hk hx => completes_timexReplyReceive hu hlen hw hk hx
  case lost => exact fun s p e hw ht => completes_timexLost hw ht

end Sys2Proof.Machine
end

section
/-!
One frame (R48, R64): what its work touches.
-/
namespace Sys2Proof.Machine

/-- The fields that the work of a frame writes beside fabric time: the digest engine's backlog, the lanes' codeword counts and the
counts of open contexts. -/
def frameFields : List Field := [F.MST_DIG_STAT_BACKLOG, F.YRD_COLL_OPEN_COUNT, F.LNE_FEC_CW_COUNT, F.LNE_FEC_CORR_COUNT,
  F.LNE_FEC_UCW_COUNT, F.LNE_FEC_HIST_COUNT]

theorem sendEcho_touches (d : Dev) (e src flow pkey n : Nat) : Touches frameFields d (d.sendEcho e src flow pkey n) := by
  unfold Dev.sendEcho
  dsimp only
  split_ifs <;> exact { Touches.refl frameFields d with }

theorem echoesDue_touches (d : Dev) : Touches frameFields d d.echoesDue :=
  .foldl (fun d _ => .ite (sendEcho_touches d _ _ _ _ _) (.refl _ d)) d _

theorem setDigQ_touches (d : Dev) (l : List DigEntry) : Touches frameFields d (d.setDigQ l) :=
  Touches.setF (e := { d with eng := { d.eng with digQ := l } }) { Touches.refl frameFields d with } (.head _) _ _

theorem pumpSeals_touches (d : Dev) (t : Nat) : Touches frameFields d (d.pumpSeals t) := by
  unfold Dev.pumpSeals
  exact .ite (.refl _ d) { setDigQ_touches d _ with }

theorem digFrame_touches (d : Dev) : Touches frameFields d d.digFrame := by
  unfold Dev.digFrame
  refine .ite (.refl _ d) (.trans (.ite (.refl _ d) ?take) (.foldl pumpSeals_touches _ _))
  case take => exact { setDigQ_touches { d with eng := { d.eng with windows := _, digCyc := _ } } _ with }

theorem countUcw_touches (d : Dev) (p l u : Nat) (run : Option Nat) : Touches frameFields d (d.countUcw p l u run) :=
  (touches_setLane _ d p l _).setF (by decide) _ _

theorem rxCodeword_touches (d : Dev) (p l : Nat) : Touches frameFields d (d.rxCodeword p l) := by
  have hfree : Touches frameFields d d.freeNum.2 := { Touches.refl frameFields d with }
  have hcount : Touches frameFields d (d.freeNum.2.addWrap F.LNE_FEC_CW_COUNT [p, l] 1) := hfree.setF (by decide) _ _
  unfold Dev.rxCodeword
  refine hcount.trans (.ite (countUcw_touches _ _ _ _ _) ?corrected)
  case corrected => exact ((countUcw_touches _ _ _ _ _).setF (by decide) _ _).setF (by decide) _ _

theorem laneFrame_touches (d : Dev) (p l : Nat) : Touches frameFields d (d.laneFrame p l) := by
  unfold Dev.laneFrame
  refine .ite (.trans ?dead (countUcw_touches _ _ _ _ _)) (.foldl (fun d _ => rxCodeword_touches d p l) d _)
  case dead => exact (Touches.refl _ d).setF (by decide) _ _

theorem codewordFrame_touches (d : Dev) : Touches frameFields d d.codewordFrame := by
  unfold Dev.codewordFrame
  exact .foldl (fun d (x : Nat × Nat) => laneFrame_touches d x.1 x.2) d _

theorem collFrame_touches (d : Dev) : Touches frameFields d d.collFrame := by
  refine .foldl (fun d x => .ite ?_ (.refl _ d)) d _
  have hopen (ys : List Nat) : Touches frameFields d (ys.foldl (fun d y => d.addWrap F.YRD_COLL_OPEN_COUNT [y] 1) d) :=
    .foldl (fun d y => (Touches.refl _ d).setF (by decide) _ _) d ys
  exact { hopen _ with }

theorem mcReload_touches (d : Dev) : Touches frameFields d d.mcReload := by
  unfold Dev.mcReload
  split_ifs
  · exact .refl _ d
  · exact { Touches.refl frameFields d with }

theorem frameWork_touches (d : Dev) : Touches frameFields d d.echoesDue.digFrame.codewordFrame.collFrame.mcReload :=
  ((((echoesDue_touches d).trans (digFrame_touches _)).trans (codewordFrame_touches _)).trans (collFrame_touches _)).trans
    (mcReload_touches _)

/-- Hoist has synchronised: frames are counted and fabric time runs. -/
def Dev.synchronised (d : Dev) : Prop := d.clk.phase = .synced ∨ d.clk.phase = .released ∨ d.clk.phase = .running

theorem framePasses_before {d : Dev} (h : ¬d.synchronised) : d.framePasses = { d with clk := { d.clk with now := d.clk.now + 6400 } } := if_neg h

/-- The start of a counted frame: fabric time moves on where it runs. -/
def Dev.frameStarts (d : Dev) : Dev :=
  let e : Dev := { d with clk := { d.clk with now := d.clk.now + 6400, frame := d.clk.frame + 1 } }
  if d.clk.fabRun then e.setF F.FAB_TIME_TIME [] (d.fabTime + 6400) else e

theorem framePasses_synchronised {d : Dev} (h : d.synchronised) : Touches frameFields d.frameStarts d.framePasses := by
  have hgo : d.framePasses = d.frameStarts.echoesDue.digFrame.codewordFrame.collFrame.mcReload := if_pos h
  exact hgo ▸ frameWork_touches d.frameStarts

theorem frameStarts_spec (d : Dev) : SameFields d d.frameStarts [F.FAB_TIME_TIME] ∧ SameMem d d.frameStarts ∧
    d.frameStarts.clk.now = d.clk.now + 6400 ∧ d.frameStarts.clk.frame = d.clk.frame + 1 ∧
    d.frameStarts.fabTime = if d.clk.fabRun then (d.fabTime + 6400) % 2 ^ 64 else d.fabTime := by
  unfold Dev.frameStarts
  dsimp only
  split_ifs
  · refine ⟨fun f i hb => getF_setF_key _ _ _ _ _ _ fun ⟨hreg, hlo, _⟩ => hb _ (.head _) ⟨hreg, hlo⟩,
      (KeepsBytes.setF ⟨rfl, rfl, rfl⟩ _ _ _).sameMem, by rw [setF_clk], by rw [setF_clk], ?_⟩
    exact getF_setF_same _ _ _ _
  · exact ⟨fun _ _ _ => rfl, fun _ => rfl, rfl, rfl, rfl⟩

/-- Settles O2: before Hoist has synchronised only time moves, and after it the frame is counted and its work done. -/
theorem anEmptyQueuePassesOneFrame : Obligations.AnEmptyQueuePassesOneFrame := by
  intro s hq
  have hstep : step s = .next { s with dev := s.dev.framePasses } := by rw [step, hq]
  refine ⟨{ s with dev := s.dev.framePasses }, hstep, hq, rfl, ?_⟩
  dsimp only
  by_cases h : s.dev.synchronised
  · obtain ⟨hfields, hmem, hnow, hframe, htime⟩ := frameStarts_spec s.dev
    have hwork := framePasses_synchronised h
    have hfab : s.dev.framePasses.fabTime = s.dev.frameStarts.fabTime := hwork.fields F.FAB_TIME_TIME [] (by decide)
    refine ⟨hwork.now.trans hnow, fun f i hb => ?_, sameMem_trans hmem hwork.sameMem, fun hno => absurd h hno, fun _ =>
      ⟨hwork.frame.trans hframe, fun hrun => ?_, fun hrun => ?_⟩⟩
    · exact (hwork.fields f i fun x hx => hb x (.tail _ hx)).trans (hfields f i (List.forall_mem_singleton.mpr (hb _ (.head _))))
    · rw [hfab, htime, if_pos hrun]
    · rw [hfab, htime, hrun]; rfl
  · rw [framePasses_before h]
    exact ⟨rfl, fun _ _ _ => rfl, fun _ => rfl, fun _ _ _ _ => rfl, fun hyes => absurd hyes h⟩

end Sys2Proof.Machine
end

section
/-!
The length of a SHA-256 (FIPS 180-4), and numbers read from any bytes.
-/
namespace Sys2Proof.Machine

theorem length_shaBlock (s : Sha) (h m : List Nat) (hl : h.length = 8) : (shaBlock s h m).length = 8 := by
  simp [shaBlock, hl]

theorem length_shaBlocks (s : Sha) (f : Nat) (h : List Nat) (l : List Byte) (hl : h.length = 8) : (shaBlocks s f h l).length = 8 := by
  induction f generalizing h l with
  | zero => exact hl
  | succ f ih => exact ih _ _ (length_shaBlock s h _ hl)

theorem length_flatten_map_beBytes (k : Nat) (l : List Nat) : ((l.map (beBytes k)).flatten).length = k * l.length := by
  induction l with
  | nil => rfl
  | cons n t ih => rw [List.map_cons, List.flatten_cons, List.length_append, ih, beBytes, List.length_reverse, length_leBytes,
      List.length_cons, Nat.mul_succ, Nat.add_comm]

theorem length_sha256 (l : List Byte) : (sha256 l).length = 32 := by
  have hinit : ((shaPrimes.take 8).map (rootFrac 2 32)).length = 8 := by rw [List.length_map]; rfl
  rw [sha256, length_flatten_map_beBytes, shaRun, length_shaBlocks _ _ _ _ hinit]

theorem leAt_lt_pow (l : List Byte) (o k : Nat) : leAt l o k < 256 ^ k :=
  (ofLE_lt _).trans_le (Nat.pow_le_pow_right (by decide) (List.length_take_le _ _))

end Sys2Proof.Machine
end

section
/-!
The tables of digest windows (R82) and plan sections (R447): what keeps them, and the end of an effect that may write them.
-/
namespace Sys2Proof.Machine

theorem mem_of_mem_ndel {α : Type} {m : NMap α} {k : List Nat} {x : List Nat × α} (h : x ∈ ndel m k) : x ∈ m := by
  unfold ndel at h
  induction m with
  | nil => exact h
  | cons a t ih =>
    rw [tdel] at h
    split_ifs at h
    · exact .tail _ (ih h)
    · exact (List.mem_cons.mp h).elim (fun e => e ▸ .head _) fun ht => .tail _ (ih ht)

theorem mem_of_mem_nset {α : Type} {m : NMap α} {k : List Nat} {v : α} {x : List Nat × α} (h : x ∈ nset m k v) :
    x = (k, v) ∨ x ∈ m := by
  unfold nset at h
  induction m with
  | nil => exact .inl (List.mem_singleton.mp h)
  | cons a t ih =>
    rw [tins] at h
    split_ifs at h
    · exact List.mem_cons.mp h
    · exact (List.mem_cons.mp h).imp id (.tail _)
    · rcases List.mem_cons.mp h with e | ht
      · exact .inr (e ▸ .head _)
      · exact (ih ht).imp id (.tail _)

/-- Digest windows, plan sections and the list of what control checks have found broken stand in `e` as in `d`. -/
structure KeepsTables (d e : Dev) : Prop where
  windows : e.eng.windows = d.eng.windows
  sections : e.eng.sections = d.eng.sections
  broken : e.net.broken = d.net.broken

theorem KeepsTables.refl (d : Dev) : KeepsTables d d := ⟨rfl, rfl, rfl⟩

theorem KeepsTables.trans {a b c : Dev} (h : KeepsTables a b) (k : KeepsTables b c) : KeepsTables a c :=
  ⟨k.windows.trans h.windows, k.sections.trans h.sections, k.broken.trans h.broken⟩

theorem KeepsTables.ite {c : Prop} [Decidable c] {d x y : Dev} (hx : KeepsTables d x) (hy : KeepsTables d y) :
    KeepsTables d (if c then x else y) := by split_ifs <;> assumption

theorem wake_keepsTables (d : Dev) (p : Place) : KeepsTables d (d.wake p) := by
  have hbank (sail : Bool) (die b : Nat) : KeepsTables d (d.wakeBank sail die b) := by
    unfold Dev.wakeBank
    split_ifs <;> exact ⟨rfl, rfl, rfl⟩
  cases p with
  | stack n =>
    show KeepsTables d (d.wakeStack n)
    unfold Dev.wakeStack
    dsimp only
    split_ifs <;> exact ⟨rfl, rfl, rfl⟩
  | sail s b => exact hbank true s b
  | base n b => exact hbank false n b
  | _ => exact .refl d

theorem meet_keepsTables (d : Dev) (p : Place) : KeepsTables d (d.meet p) := by
  unfold Dev.meet
  split_ifs <;> exact ⟨rfl, rfl, rfl⟩

theorem countRead_keepsTables (d : Dev) (p : Place) (a n : Nat) : KeepsTables d (d.countRead p a n) := by
  cases p <;> exact ⟨rfl, rfl, rfl⟩

theorem load_keepsTables (d : Dev) (a n : Nat) : KeepsTables d (d.load a n).2 := by
  have go (l : List Place) (d : Dev) : KeepsTables d (l.foldl (fun d p => ((d.wake p).countRead p a n).meet p) d) := by
    induction l generalizing d with
    | nil => exact .refl d
    | cons p t ih =>
      exact (((wake_keepsTables d p).trans (countRead_keepsTables _ p a n)).trans (meet_keepsTables _ p)).trans (ih _)
  exact go _ d

theorem pumpSeals_keepsTables (d : Dev) (t : Nat) : KeepsTables d (d.pumpSeals t) := by
  unfold Dev.pumpSeals
  dsimp only
  split_ifs <;> exact ⟨rfl, rfl, rfl⟩

theorem feedSeals_keepsTables (d : Dev) (t : Nat) (r : Run) (write : Bool) (runs : List (Nat × Nat)) :
    KeepsTables d (d.feedSeals t r write runs) := by
  unfold Dev.feedSeals Dev.feedSealsAs Dev.feedPieces
  refine .ite (.refl d) ?_
  obtain ⟨hwindows, hsections, hbroken⟩ := pumpSeals_keepsTables { d with eng := { d.eng with seals := _ } } t
  exact ⟨hwindows, hsections, hbroken⟩

/-- A frame goes on past the end of an effect, which moves BACKLOG alone. -/
theorem Settled.sameRegs {t k : Nat} {d0 d e : Dev} {r : Run} {l : List (Field × List Nat)} (h : Settled t k d r e)
    (hl : (F.MST_DIG_STAT_BACKLOG, []) ∈ l) (h0 : SameRegs d0 d l) : SameRegs d0 e l :=
  fun f i hb => (h.regs f i (List.forall_mem_singleton.mpr (hb _ hl))).trans (h0 f i hb)

theorem Settled.getF {t k : Nat} {d e : Dev} {r : Run} (h : Settled t k d r e) (f : Field) (i : List Nat) (hf : f.reg ≠ .MST_DIG_STAT) :
    e.getF f i = d.getF f i := h.regs f i (List.forall_mem_singleton.mpr fun hb => hf hb.1.symm)

theorem runAt_of_runs {d : Dev} {t k o : Nat} {r : Run} (h : d.runs t k o r) : d.runAt t k = some r := h.1

/-- No access of the command is under way. -/
theorem met_of_runs {d : Dev} {t k o : Nat} {r : Run} (h : d.runs t k o r) : d.bank.met = 0 := by
  obtain ⟨-, -, -, -, -, hmet⟩ := h
  exact hmet

/-- The end of an effect that made its accesses in full, whatever it wrote: a DIGEST has its effect in the digest engine, any other
command while its tackle's island runs. -/
theorem effect_ends {d e : Dev} {t k o : Nat} {r r' : Run} {ok : Nat → Bool} {f : Dev → Run → Dev × Run} (hx : d.runs t k o r)
    (hon : (d.tckRuns t || o == 5) = true) (ho : ok o = true) (hf : f d r = (e, r')) (hrun : e.runAt t k = some r)
    (hmet : e.bank.met = 0) (hs : r'.slot = r.slot) :
    Settled t k e r' (d.effect t k ok f) ∧ KeepsTables e (d.effect t k ok f) := by
  obtain ⟨hat, hop, hstatus, hparts, hsts, -⟩ := hx
  have heff : d.effect t k ok f = ((e.setRun t r').pumpSeals t).releaseDone t r' := by
    simp [Dev.effect, hat, hop, hstatus, hparts, hsts, ho, hf, metEnd_served (y := (e, r')) hmet,
      show d.tckRuns t = true ∨ o = 5 by simpa using hon]
  rw [heff]
  refine ⟨settled_setRun hrun hs, ?_⟩
  obtain ⟨hwindows, hsections, hbroken⟩ := pumpSeals_keepsTables (e.setRun t r') t
  obtain ⟨l, hl⟩ := releaseDone_board ((e.setRun t r').pumpSeals t) t r'
  rw [hl]
  exact ⟨hwindows, hsections, hbroken⟩

end Sys2Proof.Machine
end

section
/-!
DIGEST OPEN, RANGE, CLOSE and HASH (R82, R83, R85, R413).
-/
namespace Sys2Proof.Machine

/-- A DIGEST whose effect on the digest engine gives `e` ends with the status `st`. -/
theorem digestOp_ends {d e : Dev} {t k sub : Nat} {r : Run} {st : Status} {f : Dev → Run → Dev × Status} (hx : d.runs t k 5 r)
    (hr : d.tckInReset 0x1001 = false) (hi : d.islandOn 5 = true) (hsub : cbits r.cmd.bytes 4 0 4 = sub) (hf : f d r = (e, st))
    (hrun : e.runAt t k = some r) (hmet : e.bank.met = 0) :
    Settled t k e { r with status := some st } (d.digestOp t k sub f) ∧ KeepsTables e (d.digestOp t k sub f) := by
  rw [Dev.digestOp, if_neg (by simp [hr, hi])]
  exact effect_ends hx (by simp) rfl (by simp only [hsub, if_true, hf]) hrun hmet rfl

theorem feedSealsAs_movesSeals (d : Dev) (t leaf : Nat) (r : Run) (write : Bool) (runs : List (Nat × Nat)) :
    MovesSeals d (d.feedSealsAs t leaf r write runs) := by
  unfold Dev.feedSealsAs Dev.feedPieces
  refine .ite (.refl d) ?_
  obtain ⟨hregs, ⟨hmem, hlost, hout⟩, htck, hbank, hclk, hcoll, hctr⟩ :=
    pumpSeals_movesSeals { d with eng := { d.eng with seals := _ } } t
  exact ⟨hregs, ⟨hmem, hlost, hout⟩, htck, hbank, hclk, hcoll, hctr⟩

section
variable {s : State} {t : Fin 65536} {k w a : Nat} {r : Run} {x : Window} (hx : s.dev.runs t.val k 5 r)
  (hr : s.dev.tckInReset 0x1001 = false) (hi : s.dev.islandOn 5 = true)
include hx hr hi

theorem completes_digestOpen (hsub : cbits r.cmd.bytes 4 0 4 = 0) (hw : w = leAt r.cmd.bytes 6 2)
    (hnew : nget? s.dev.eng.windows [w] = none) (hroom : s.dev.eng.windows.length < 16) :
    Completes (.digestOpen t k) s (fun d => (∃ x, nget? d.eng.windows [w] = some x ∧ x.scope = leAt r.cmd.bytes 8 2 ∧
        x.pmask = cbits r.cmd.bytes 5 0 4 ∧ x.openMark = leAt r.cmd.bytes 12 4 ∧ x.closeMark = leAt r.cmd.bytes 16 4 ∧
        x.ring = leAt r.cmd.bytes 10 2 % 2048 ∧ x.queues = [] ∧ x.streams = []) ∧
      d.runAt t.val k = some { r with status := some .ok } ∧
      SameRegs s.dev d [(F.MST_DIG_STAT_OPEN_WIN, []), (F.MST_DIG_STAT_BACKLOG, [])] ∧ SameMem s.dev d) := by
  generalize hwin : (⟨leAt r.cmd.bytes 8 2, cbits r.cmd.bytes 5 0 4, leAt r.cmd.bytes 12 4, leAt r.cmd.bytes 16 4,
    leAt r.cmd.bytes 10 2 % 2048, none, 0, s.dev.units, [], [], [], [], [], [0, 0, 0, 0], 0, false, 0, 0⟩ : Window) = x
  have hgo : ¬((nget? s.dev.eng.windows [leAt r.cmd.bytes 6 2]).isSome ∨ 16 ≤ s.dev.eng.windows.length) := by
    rw [← hw, hnew]; simpa using hroom
  obtain ⟨hend, htables⟩ : Settled t.val k (s.dev.setWindow w x).countWindows { r with status := some .ok } (s.dev.digestOpen t.val k) ∧
      KeepsTables (s.dev.setWindow w x).countWindows (s.dev.digestOpen t.val k) :=
    digestOp_ends hx hr hi hsub (by simp only [if_neg hgo, hwin, hw]) (runAt_of_runs hx) (met_of_runs hx)
  refine completes_of_exec rfl ⟨⟨x, ?found, ?fields⟩, hend.run, ?regs, hend.bytes.sameMem⟩
  case found => rw [htables.windows]; exact nget?_nset_same _ _ _
  case fields => rw [← hwin]; exact ⟨rfl, rfl, rfl, rfl, rfl, rfl, rfl⟩
  case regs => exact hend.sameRegs (by simp) (sameRegs_setF (.head _) (sameRegs_refl s.dev _))

/-- A DIGEST that gives window `w` the value `x` and does nothing else. -/
theorem digestOp_setWindow {sub : Nat} {f : Dev → Run → Dev × Status} (hsub : cbits r.cmd.bytes 4 0 4 = sub)
    (hf : f s.dev r = (s.dev.setWindow w x, .ok)) :
    nget? (s.dev.digestOp t.val k sub f).eng.windows [w] = some x ∧
      (s.dev.digestOp t.val k sub f).runAt t.val k = some { r with status := some .ok } ∧
      SameRegs s.dev (s.dev.digestOp t.val k sub f) [(F.MST_DIG_STAT_BACKLOG, [])] ∧ SameMem s.dev (s.dev.digestOp t.val k sub f) := by
  obtain ⟨hend, htables⟩ := digestOp_ends hx hr hi hsub hf (runAt_of_runs hx) (met_of_runs hx)
  refine ⟨?found, hend.run, hend.regs, hend.bytes.sameMem⟩
  case found => rw [htables.windows]; exact nget?_nset_same _ _ _

theorem completes_digestRange (hsub : cbits r.cmd.bytes 4 0 4 = 1) (hw : w = leAt r.cmd.bytes 6 2)
    (hopen : nget? s.dev.eng.windows [w] = some x) (hroom : x.ranges.countP (fun y => y.1 == cbits r.cmd.bytes 4 4 2) < 8) :
    Completes (.digestRange t k) s (fun d => nget? d.eng.windows [w] =
        some { x with ranges := x.ranges ++ [(cbits r.cmd.bytes 4 4 2, leAt r.cmd.bytes 8 6, leAt r.cmd.bytes 16 6)] } ∧
      d.runAt t.val k = some { r with status := some .ok } ∧ SameRegs s.dev d [(F.MST_DIG_STAT_BACKLOG, [])] ∧ SameMem s.dev d) :=
  completes_of_exec rfl (digestOp_setWindow hx hr hi hsub (by simp only [← hw, hopen, if_neg (Nat.not_le.mpr hroom)]))

theorem completes_digestClose (hsub : cbits r.cmd.bytes 4 0 4 = 2) (hw : w = leAt r.cmd.bytes 6 2)
    (hopen : nget? s.dev.eng.windows [w] = some x) :
    Completes (.digestClose t k) s (fun d => (∃ y, nget? d.eng.windows [w] = some y ∧ y.closing = true ∧ bit y.flags 1 = true ∧
        (∀ z ∈ y.queues, z.2 = 2)) ∧
      d.runAt t.val k = some { r with status := some .ok } ∧ SameRegs s.dev d [(F.MST_DIG_STAT_BACKLOG, [])] ∧ SameMem s.dev d) := by
  obtain ⟨hfound, hrest⟩ : nget? (s.dev.digestClose t.val k).eng.windows [w] = some (x.endCover 1) ∧ _ :=
    digestOp_setWindow hx hr hi hsub (by simp only [← hw, hopen])
  have hforced : bit (x.endCover 1).flags 1 = true := by simp [Window.endCover, bit_setBit]
  exact completes_of_exec rfl ⟨⟨x.endCover 1, hfound, rfl, hforced, List.forall_mem_map.mpr fun _ _ => rfl⟩, hrest⟩

theorem completes_digestClose_noContext (hsub : cbits r.cmd.bytes 4 0 4 = 2) (hw : w = leAt r.cmd.bytes 6 2)
    (hnone : nget? s.dev.eng.windows [w] = none) :
    Completes (.digestClose t k) s (fun d => d.eng.windows = s.dev.eng.windows ∧
      d.runAt t.val k = some { r with status := some .noContext } ∧ SameRegs s.dev d [(F.MST_DIG_STAT_BACKLOG, [])] ∧ SameMem s.dev d) := by
  obtain ⟨hend, htables⟩ : Settled t.val k s.dev { r with status := some .noContext } (s.dev.digestClose t.val k) ∧
      KeepsTables s.dev (s.dev.digestClose t.val k) :=
    digestOp_ends hx hr hi hsub (by simp only [← hw, hnone]) (runAt_of_runs hx) (met_of_runs hx)
  exact completes_of_exec rfl ⟨htables.windows, hend.run, hend.regs, hend.bytes.sameMem⟩

theorem completes_digestHash (hsub : cbits r.cmd.bytes 4 0 4 = 3) (ha : a = leAt r.cmd.bytes 20 6)
    (hcan : s.dev.canWrite (r.writer t.val) a 32 = true) (hplace : a + 32 ≤ placeEnd a)
    (hsrc : s.dev.memUp (leAt r.cmd.bytes 8 6) (leAt r.cmd.bytes 16 4)) (hdst : s.dev.memUp a 32) :
    Completes (.digestHash t k) s (fun d =>
      (∀ i : Nat, i < 32 → some (d.byte (a + i)) = (sha256 (s.dev.read (leAt r.cmd.bytes 8 6) (leAt r.cmd.bytes 16 4)))[i]?) ∧
      d.runAt t.val k = some { r with status := some .ok } ∧ SameMemBut s.dev d a 32) := by
  generalize hp : leAt r.cmd.bytes 8 6 = p at hsrc ⊢
  generalize hn : leAt r.cmd.bytes 16 4 = n at hsrc ⊢
  have hbytes : (s.dev.load p n).1 = s.dev.read p n := rfl
  have hlen := length_sha256 (s.dev.read p n)
  generalize hsum : sha256 (s.dev.read p n) = sum at hlen ⊢
  have hseals := feedSealsAs_movesSeals (s.dev.load p n).2 t.val 0x1001 r false [(p, n)]
  have hread := (load_accesses s.dev p n (answersLe_of_memUp hsrc)).trans (hseals.accesses 0)
  have hkept := (load_keepsBytes s.dev p n).trans hseals.bytes
  generalize hc : (s.dev.load p n).2.feedSealsAs t.val 0x1001 r false [(p, n)] = c at hread hkept
  obtain ⟨hok, hst⟩ := store_stored c (r.writer t.val) a sum (by rw [hlen, hread.mayStore, Dev.mayStore, hcan, decide_eq_true hplace]; rfl)
  have hput := store_accesses c (r.writer t.val) a sum (by rw [hlen]; exact hread.answersLe (answersLe_of_memUp hdst))
  have hsame := store_sameMemBut c (r.writer t.val) a sum
  have hsealed := feedSealsAs_movesSeals (c.store (r.writer t.val) a sum).1 t.val 0x1001 r true [(a, 32)]
  have hacc := (hread.trans hput).trans (hsealed.accesses 0)
  obtain ⟨hend, -⟩ : Settled t.val k ((c.store (r.writer t.val) a sum).1.feedSealsAs t.val 0x1001 r true [(a, 32)])
      { r with status := some .ok } (s.dev.digestHash t.val k) ∧ KeepsTables _ (s.dev.digestHash t.val k) :=
    digestOp_ends hx hr hi hsub (by simp only [hp, hn, ← ha, hbytes, hsum, hc, hok, storeStatus, if_true])
      ((hacc.runAt _ _).trans (runAt_of_runs hx)) (hacc.met_eq_zero (met_of_runs hx))
  have hafter := hsealed.bytes.trans hend.bytes
  rw [hlen] at hsame
  exact completes_of_exec rfl ⟨fun i hi => hst.keepsBytes hafter i (hlen ▸ hi), hend.run, SameMemBut.keepsBytes hkept hsame hafter⟩

end

end Sys2Proof.Machine
end

section
/-!
The end of a digest window (R85, R90, R91).
-/
namespace Sys2Proof.Machine

/-- Records join the waiting list. -/
def Dev.queueRecs (d : Dev) (l : List Rec) : Dev := { d with host := { d.host with recs := d.host.recs ++ l } }

theorem addRec_serving {d : Dev} (ring : Nat) (b : List Byte) (o : Option Nat) (h : d.headless = false) :
    d.addRec ring b o = d.queueRecs [⟨ring, b, o⟩] := by
  rw [Dev.addRec, show d.flt.lost = false from h]; rfl

theorem queueRecs_append (d : Dev) (l m : List Rec) : (d.queueRecs l).queueRecs m = d.queueRecs (l ++ m) := by
  simp [Dev.queueRecs]

theorem foldl_addRec {d : Dev} (ring : Nat) (l : List (List Byte)) (h : d.headless = false) :
    l.foldl (fun d r => d.addRec ring r none) d = d.queueRecs (l.map (fun b => ⟨ring, b, none⟩)) := by
  induction l generalizing d with
  | nil => simp [Dev.queueRecs]
  | cons b t ih => rw [List.foldl_cons, addRec_serving ring b none h, ih (d := d.queueRecs _) h, queueRecs_append]; rfl

/-- Type 0x51 stands in byte 4 of a seal record (R91). -/
theorem cb_sealRecords {no : Nat} {s : List Nat × List Byte} {b : List Byte} (h : b ∈ sealRecords no s) : cb b 4 = 0x51 := by
  obtain ⟨p, -, rfl⟩ := List.mem_map.mp h
  rfl

/-- The seal records of window `w`, as they wait for its ring. -/
def Window.sealRecs (x : Window) (w : Nat) : List Rec := ((x.kind 3).flatMap (sealRecords w)).map (fun b => ⟨x.ring, b, none⟩)

theorem mem_sealRecs {x : Window} {w : Nat} {y : Rec} (h : y ∈ x.sealRecs w) : y.ring = x.ring ∧ cb y.bytes 4 = 0x51 := by
  obtain ⟨b, hb, rfl⟩ := List.mem_map.mp h
  obtain ⟨_, -, hrec⟩ := List.mem_flatMap.mp hb
  exact ⟨rfl, cb_sealRecords hrec⟩

/-- A window that is done writes its seal records, then its provenance record, and is gone. -/
theorem closeWindow_done {d : Dev} {w : Nat} {x : Window} (hopen : nget? d.eng.windows [w] = some x) (hdone : x.done = true)
    (hfed : d.fed w x = false) (hhead : d.headless = false) (hr : d.tckInReset 0x1001 = false) (hi : d.islandOn 5 = true) :
    d.closeWindow w = ({ d.queueRecs (x.sealRecs w ++ [⟨x.ring, d.provenance w x, none⟩]) with
      eng := { d.eng with windows := ndel d.eng.windows [w] } } : Dev).countWindows := by
  have hgo : (x.done && !d.fed w x && !d.tckInReset 0x1001 && d.islandOn 5) = true := by simp [hdone, hfed, hr, hi]
  have hprov (l : List Rec) : (d.queueRecs l).provenance w x = d.provenance w x := rfl
  rw [Dev.closeWindow, hopen]
  dsimp only
  rw [if_pos hgo, foldl_addRec _ _ hhead, addRec_serving (d := d.queueRecs _) _ _ _ hhead, queueRecs_append, hprov]
  rfl

theorem completes_digestWindowClose {s : State} {w : Nat} {x : Window} (hopen : nget? s.dev.eng.windows [w] = some x)
    (hdone : x.done = true) (hfed : s.dev.fed w x = false) (hhead : s.dev.headless = false) (hr : s.dev.tckInReset 0x1001 = false)
    (hi : s.dev.islandOn 5 = true) :
    Completes (.digestWindowClose w) s (fun d => nget? d.eng.windows [w] = none ∧
      (∃ l, d.host.recs = s.dev.host.recs ++ l ++ [⟨x.ring, s.dev.provenance w x, none⟩] ∧
        ∀ y ∈ l, y.ring = x.ring ∧ cb y.bytes 4 = 0x51) ∧
      SameRegs s.dev d [(F.MST_DIG_STAT_OPEN_WIN, [])] ∧ SameMem s.dev d) := by
  refine completes_of_eq rfl (closeWindow_done hopen hdone hfed hhead hr hi)
    ⟨?gone, ⟨x.sealRecs w, ?recs, fun _ => mem_sealRecs⟩, ?regs, fun _ => rfl⟩
  case gone => exact nget?_ndel_same _ _
  case recs => exact (List.append_assoc _ _ _).symm
  case regs => exact sameRegs_setF (.head _) (sameRegs_refl s.dev _)

end Sys2Proof.Machine
end

section
namespace Sys2Proof.Machine

/-- Settles O40: every clause holds, each by the lemma above for its command. -/
theorem digestWindowsOpenAndClose : Obligations.DigestWindowsOpenAndClose := by
  refine ⟨?opens, ?range, ?close, ?noContext, ?hash, ?done⟩
  case opens => exact fun s t k w r hx hr hi hsub hw hnew hroom => completes_digestOpen hx hr hi hsub hw hnew hroom
  case range => exact fun s t k w r x hx hr hi hsub hw hopen hroom => completes_digestRange hx hr hi hsub hw hopen hroom
  case close => exact fun s t k w r x hx hr hi hsub hw hopen => completes_digestClose hx hr hi hsub hw hopen
  case noContext => exact fun s t k w r hx hr hi hsub hw hnone => completes_digestClose_noContext hx hr hi hsub hw hnone
  case hash =>
    exact fun s t k a r hx hr hi hsub ha hcan hplace hsrc hdst => completes_digestHash hx hr hi hsub ha hcan hplace hsrc hdst
  case done => exact fun s w x hopen hdone hfed hhead hr hi => completes_digestWindowClose hopen hdone hfed hhead hr hi

end Sys2Proof.Machine
end

section
/-!
The plan digest (R92) and the end of a plan engine's command.
-/
namespace Sys2Proof.Machine

/-- Writing values `v` to a field at a list of indices: each reads there, and nothing but the register file moves. -/
theorem foldl_setF_spec (f : Field) (v : Nat → Nat) (l : List Nat) (d : Dev) :
    (∀ j ∈ l, (l.foldl (fun d i => d.setF f [i] (v i)) d).getF f [j] = v j % 2 ^ f.w) ∧
      SameRegs d (l.foldl (fun d i => d.setF f [i] (v i)) d) (l.map (fun i => (f, [i]))) ∧
      OnlyRegs d (l.foldl (fun d i => d.setF f [i] (v i)) d) := by
  induction l generalizing d with
  | nil => exact ⟨fun _ hj => (List.not_mem_nil hj).elim, sameRegs_refl d _, rfl⟩
  | cons b t ih =>
    obtain ⟨hread, hother, honly⟩ := ih (d.setF f [b] (v b))
    refine ⟨fun j hj => ?read, fun g i hg => ?_, honly⟩
    case read =>
      by_cases hin : j ∈ t
      · exact hread j hin
      · obtain rfl : j = b := (List.mem_cons.mp hj).resolve_right hin
        refine (hother f [j] fun e he => ?_).trans (getF_setF_same d f _ _)
        obtain ⟨i, hi, rfl⟩ := List.mem_map.mp he
        exact fun ⟨_, _, heq⟩ => hin (List.head_eq_of_cons_eq heq ▸ hi)
    · exact (hother g i fun e he => hg e (.tail _ he)).trans (getF_setF_key _ _ _ _ _ _ (hg _ (.head _)))

/-- The registers that the end of a plan engine's command writes: the plan digest and, as seals pass on, BACKLOG. -/
def planRegs : List (Field × List Nat) :=
  [(F.MST_PLAN_DIGEST_DIGEST, [0]), (F.MST_PLAN_DIGEST_DIGEST, [1]), (F.MST_PLAN_DIGEST_DIGEST, [2]), (F.MST_PLAN_DIGEST_DIGEST, [3]),
    (F.MST_PLAN_DIGEST_DIGEST, [4]), (F.MST_PLAN_DIGEST_DIGEST, [5]), (F.MST_PLAN_DIGEST_DIGEST, [6]), (F.MST_PLAN_DIGEST_DIGEST, [7]),
    (F.MST_DIG_STAT_BACKLOG, [])]

/-- MST_PLAN_DIGEST reads the digest of the sections in force. -/
def Dev.digestCurrent (d : Dev) : Prop :=
  ∀ j : Fin 8, d.getF F.MST_PLAN_DIGEST_DIGEST [j.val] = leAt (sha256 (d.eng.sections.flatMap (·.2))) (4 * j.val) 4

theorem planDigest_spec (d : Dev) : d.planDigest.digestCurrent ∧ SameRegs d d.planDigest planRegs ∧ OnlyRegs d d.planDigest := by
  obtain ⟨hread, hother, honly⟩ := foldl_setF_spec F.MST_PLAN_DIGEST_DIGEST (fun i => leAt (sha256 (d.eng.sections.flatMap (·.2))) (4 * i) 4)
    (List.range 8) d
  refine ⟨fun j => ?_, fun f i hb => hother f i fun e he => hb e ?_, honly⟩
  · have hsections : d.planDigest.eng.sections = d.eng.sections := congrArg (·.eng.sections) honly
    rw [hsections]
    exact (hread j.val (List.mem_range.mpr j.isLt)).trans (Nat.mod_eq_of_lt (leAt_lt_pow _ _ 4))
  · have hall : ∀ x ∈ (List.range 8).map (fun i => (F.MST_PLAN_DIGEST_DIGEST, [i])), x ∈ planRegs := by decide
    exact hall e he

/-- Nothing but registers differs, so neither memory nor a table does. -/
theorem OnlyRegs.keeps {d e : Dev} (h : OnlyRegs d e) : KeepsBytes d e ∧ KeepsTables d e :=
  ⟨⟨congrArg (·.mem) h, congrArg (·.bank.lost) h, congrArg (·.out) h⟩,
    ⟨congrArg (·.eng.windows) h, congrArg (·.eng.sections) h, congrArg (·.net.broken) h⟩⟩

theorem KeepsTables.sectionLost {d e : Dev} (h : KeepsTables d e) (n : Option Nat) : e.sectionLost n = d.sectionLost n := by
  rw [Dev.sectionLost, Dev.sectionLost, h.sections]
  simp only [Dev.broken, h.broken]

/-- What the end of a plan engine's command makes of its effect: with a status, the digest anew. -/
def Dev.digested (d : Dev) (r : Run) : Dev := if r.status.isSome && !d.sectionLost none then d.planDigest else d

section
variable {d e : Dev} {t k op : Nat} {r r' : Run} {f : Dev → Run → Dev × Run}

theorem digested_keeps (d : Dev) (r : Run) : KeepsBytes d (d.digested r) ∧ KeepsTables d (d.digested r) ∧
    (d.digested r).eng = d.eng ∧ (d.digested r).bank = d.bank := by
  obtain ⟨-, -, honly⟩ := planDigest_spec d
  obtain ⟨hbytes, htables⟩ := honly.keeps
  unfold Dev.digested
  split_ifs
  · exact ⟨hbytes, htables, congrArg (·.eng) honly, congrArg (·.bank) honly⟩
  · exact ⟨.refl d, .refl d, rfl, rfl⟩

theorem digested_running (h : r.status = none) : d.digested r = d := by
  rw [Dev.digested, h]; rfl

theorem digested_ended {st : Status} (h : r.status = some st) (hl : d.sectionLost none = false) : d.digested r = d.planDigest := by
  rw [Dev.digested, h, hl]; rfl

/-- A plan engine's command with effect `e`: then the digest, then the end of every effect. -/
theorem planOp_ends (hx : d.executes t k op r) (hr : d.tckInReset t = false) (hf : f d r = (e, r')) (hrun : e.runAt t k = some r)
    (hmet : e.bank.met = 0) (hs : r'.slot = r.slot) :
    Settled t k (e.digested r') r' (d.planOp t k op f) ∧ KeepsTables e (d.planOp t k op f) := by
  obtain ⟨hruns, hon⟩ := hx
  obtain ⟨-, htables, heng, hbank⟩ := digested_keeps e r'
  have hat : (e.digested r').runAt t k = some r := by rw [Dev.runAt, Dev.tck, heng]; exact hrun
  rw [Dev.planOp, if_neg (by simp [hr, hon])]
  obtain ⟨hend, hkept⟩ := effect_ends (ok := (· == op)) hruns (by rw [hon, Bool.true_or]) (beq_self_eq_true op)
    (f := fun d r => let x := f d r; (if x.2.status.isSome && !x.1.sectionLost none then x.1.planDigest else x.1, x.2))
    (by simp only [hf]; rfl) hat (by rw [hbank]; exact hmet) hs
  exact ⟨hend, htables.trans hkept⟩

/-- One that goes on leaves the digest alone. -/
theorem planOp_running (hx : d.executes t k op r) (hr : d.tckInReset t = false) (hf : f d r = (e, r')) (hrun : e.runAt t k = some r)
    (hmet : e.bank.met = 0) (hs : r'.slot = r.slot) (hst : r'.status = none) :
    Settled t k e r' (d.planOp t k op f) ∧ KeepsTables e (d.planOp t k op f) := by
  have hend := planOp_ends hx hr hf hrun hmet hs
  rwa [digested_running hst] at hend

/-- One that ends while every section has its contents leaves the digest of those in force. -/
theorem planOp_ended {st : Status} (hx : d.executes t k op r) (hr : d.tckInReset t = false)
    (hf : f d r = (e, r')) (hrun : e.runAt t k = some r) (hmet : e.bank.met = 0) (hs : r'.slot = r.slot) (hst : r'.status = some st)
    (hlost : e.sectionLost none = false) :
    (d.planOp t k op f).hasStatus t k st ∧ (d.planOp t k op f).digestCurrent ∧
      (d.planOp t k op f).eng.sections = e.eng.sections ∧ SameRegs e (d.planOp t k op f) planRegs ∧ SameMem e (d.planOp t k op f) := by
  obtain ⟨hend, htables⟩ := planOp_ends hx hr hf hrun hmet hs
  rw [digested_ended hst hlost] at hend
  obtain ⟨hcurrent, hregs, honly⟩ := planDigest_spec e
  obtain ⟨hbytes, hdigest⟩ := honly.keeps
  refine ⟨hend.hasStatus hst, fun j => ?_, htables.sections, hend.sameRegs (by decide) hregs, (hbytes.trans hend.bytes).sameMem⟩
  rw [hend.getF _ _ (by decide), hcurrent j, hdigest.sections, htables.sections]

end

end Sys2Proof.Machine
end

section
/-!
PLAN LOAD and PLAN DROP (R446, R447, R448).
-/
namespace Sys2Proof.Machine

/-- A table of sections in which all but number `n` were in force before, with `n` mended, has lost none. -/
theorem mended_sectionLost {d : Dev} {n : Nat} {l : NMap (List Byte)} (hl : ∀ x ∈ l, ix x.1 0 = n ∨ x ∈ d.eng.sections)
    (h : d.sectionLost (some n) = false) :
    (({ d with eng := { d.eng with sections := l } } : Dev).mended [9, n]).sectionLost none = false := by
  rw [Dev.sectionLost, List.any_eq_false] at h ⊢
  intro x hx hbroken
  have hstill : ([9, ix x.1 0] ∈ d.net.broken) ∧ ix x.1 0 ≠ n := by
    simpa [Dev.broken, Dev.mended] using hbroken
  obtain ⟨hmem, hne⟩ := hstill
  refine h x ((hl x hx).resolve_left hne) ?_
  simpa [Dev.broken, hne] using hmem

theorem withSection_mem {d : Dev} {s : List Byte} {x : List Nat × List Byte} (h : x ∈ d.withSection s) :
    ix x.1 0 = leAt s 6 2 ∨ x ∈ d.eng.sections := (mem_of_mem_nset h).imp (fun (e : x = _) => e ▸ rfl) id

/-- What PLAN LOAD checks of an entry rests on the plan's rights alone. -/
theorem sectionOk_congr (d e : Dev) (hp : Nat) (l : List Byte) : e.sectionOk hp l = d.sectionOk hp l := rfl

/-- The run of a PLAN LOAD that has read the section `l`: the section is kept for its entries if it passes the checks of R446 and R447. -/
def Dev.sectionRead (d : Dev) (r : Run) (l : List Byte) : Run :=
  if !d.sectionOk r.cmd.hp l then { r with status := some .reservedOp }
  else if d.sectionLost (some (leAt l 6 2)) then { r with status := some .ctrlCheck }
  else if !sectionsFit (d.withSection l) then { r with status := some .noSlot }
  else { r with acc := l.map (·.toNat), sent := 0 }

theorem sectionRead_slot (d : Dev) (r : Run) (l : List Byte) : (d.sectionRead r l).slot = r.slot := by
  unfold Dev.sectionRead
  split_ifs <;> rfl

theorem KeepsTables.sectionRead {d e : Dev} (h : KeepsTables d e) (r : Run) (l : List Byte) : e.sectionRead r l = d.sectionRead r l := by
  have hwith : e.withSection l = d.withSection l := congrArg (nset · _ l) h.sections
  rw [Dev.sectionRead, Dev.sectionRead, sectionOk_congr d e, h.sectionLost, hwith]

/-- Reading a section whose islands run moves no byte and no table. -/
theorem planRead_keeps {d : Dev} {a n : Nat} (t : Nat) (r : Run) (h : d.memUp a n) :
    KeepsBytes d ((d.load a n).2.feedSeals t r false [(a, n)]) ∧ KeepsTables d ((d.load a n).2.feedSeals t r false [(a, n)]) ∧
      Accesses 0 d ((d.load a n).2.feedSeals t r false [(a, n)]) := by
  have hseals := feedSeals_movesSeals (d.load a n).2 t r false [(a, n)]
  exact ⟨(load_keepsBytes d a n).trans hseals.bytes, (load_keepsTables d a n).trans (feedSeals_keepsTables _ t r false _),
    (load_accesses d a n (answersLe_of_memUp h)).trans (hseals.accesses 0)⟩

/-- An entry whose register's island runs is written; beside the write only who makes the bank claims is noted. -/
theorem planEntry_open {d : Dev} {t : Nat} {r : Run} {x : Nat × Nat} {g : RegDesc} {i : List Nat} (fz : Fuses)
    (hat : regAt (x.1 % 2 ^ 48) = some (g, i)) (hreach : d.reach g.reg i = .open) :
    ∃ b : BankSt,
      d.planEntry fz t r x = ({ (d.regWrite fz (.plan (Fin.ofNat 4 r.cmd.hp)) g i x.2).1 with bank := b }, some .ok) ∧
        b.met = (d.regWrite fz (.plan (Fin.ofNat 4 r.cmd.hp)) g i x.2).1.bank.met ∧
        b.lost = (d.regWrite fz (.plan (Fin.ofNat 4 r.cmd.hp)) g i x.2).1.bank.lost := by
  rw [Dev.planEntry, hat]
  dsimp only
  rw [hreach]
  exact ⟨_, rfl, rfl, rfl⟩

theorem status_of_runs {d : Dev} {t k o : Nat} {r : Run} (h : d.runs t k o r) : r.status = none := by
  obtain ⟨-, -, hstatus, -⟩ := h
  exact hstatus

/-- The section `l` is in force. -/
def Dev.sectionIn (d : Dev) (l : List Byte) : Dev := ({ d with eng := { d.eng with sections := d.withSection l } } : Dev).mended [9, leAt l 6 2]

/-- Section `n` is out of force. -/
def Dev.sectionOut (d : Dev) (n : Nat) : Dev := ({ d with eng := { d.eng with sections := ndel d.eng.sections [n] } } : Dev).mended [9, n]

section
variable {s : State} {t : Fin 65536} {k : Nat} {r : Run} (hx : s.dev.executes t.val k 0x60 r) (hr : s.dev.tckInReset t.val = false)
include hx hr

/-- The first effect of PLAN LOAD reads the section `l` and checks it; it changes the run alone. -/
theorem planLoad_reads {l : List Byte} (hsub : cbits r.cmd.bytes 4 0 2 = 0) (hacc : r.acc = [])
    (hl : l = s.dev.read (leAt r.cmd.bytes 8 6) (leAt r.cmd.bytes 16 4)) (hup : s.dev.memUp (leAt r.cmd.bytes 8 6) (leAt r.cmd.bytes 16 4)) :
    (s.dev.planLoad s.fuses t.val k).runAt t.val k = some (s.dev.sectionRead r l) ∧
      (s.dev.planLoad s.fuses t.val k).eng.sections = s.dev.eng.sections ∧ SameMem s.dev (s.dev.planLoad s.fuses t.val k) := by
  generalize ha : leAt r.cmd.bytes 8 6 = a at hl hup
  generalize hn : leAt r.cmd.bytes 16 4 = n at hl hup
  have hread : (s.dev.load a n).1 = l := hl.symm
  obtain ⟨hbytes, htables, hserved⟩ := planRead_keeps t.val r hup
  generalize hc : (s.dev.load a n).2.feedSeals t.val r false [(a, n)] = c at hbytes htables hserved
  obtain ⟨hend, hkept⟩ : Settled t.val k (c.digested (c.sectionRead r l)) (c.sectionRead r l) (s.dev.planLoad s.fuses t.val k) ∧
      KeepsTables c (s.dev.planLoad s.fuses t.val k) := by
    refine planOp_ends hx hr ?_ ((hserved.runAt _ _).trans (runAt_of_runs hx.1)) (hserved.met_eq_zero (met_of_runs hx.1)) (sectionRead_slot c r l)
    simp only [hsub, hacc, ha, hn, hc, hread, ne_eq, not_true_eq_false, if_false, List.isEmpty_nil, if_true, Dev.sectionRead]
    split_ifs <;> rfl
  obtain ⟨hdigest, -⟩ := digested_keeps c (c.sectionRead r l)
  exact ⟨htables.sectionRead r l ▸ hend.run, hkept.sections.trans htables.sections, ((hbytes.trans hdigest).trans hend.bytes).sameMem⟩

theorem completes_planLoad_read {l : List Byte} (hsub : cbits r.cmd.bytes 4 0 2 = 0) (hacc : r.acc = [])
    (hl : l = s.dev.read (leAt r.cmd.bytes 8 6) (leAt r.cmd.bytes 16 4)) (hup : s.dev.memUp (leAt r.cmd.bytes 8 6) (leAt r.cmd.bytes 16 4))
    (hok : s.dev.sectionOk r.cmd.hp l = true) (hlost : s.dev.sectionLost (some (leAt l 6 2)) = false)
    (hfit : sectionsFit (s.dev.withSection l) = true) :
    Completes (.planLoad t k) s (fun d => d.runAt t.val k = some { r with acc := l.map (·.toNat), sent := 0 } ∧
      d.eng.sections = s.dev.eng.sections ∧ SameMem s.dev d) := by
  have hout : s.dev.sectionRead r l = { r with acc := l.map (·.toNat), sent := 0 } := by simp [Dev.sectionRead, hok, hlost, hfit]
  exact completes_of_exec rfl (hout ▸ planLoad_reads hx hr hsub hacc hl hup)

theorem completes_planLoad_refused {l : List Byte} (hsub : cbits r.cmd.bytes 4 0 2 = 0) (hacc : r.acc = [])
    (hl : l = s.dev.read (leAt r.cmd.bytes 8 6) (leAt r.cmd.bytes 16 4)) (hup : s.dev.memUp (leAt r.cmd.bytes 8 6) (leAt r.cmd.bytes 16 4))
    (hbad : s.dev.sectionOk r.cmd.hp l = false) :
    Completes (.planLoad t k) s (fun d => d.hasStatus t.val k .reservedOp ∧ d.eng.sections = s.dev.eng.sections ∧ SameMem s.dev d) := by
  have hout : s.dev.sectionRead r l = { r with status := some .reservedOp } := by simp [Dev.sectionRead, hbad]
  obtain ⟨hrun, hrest⟩ := planLoad_reads hx hr hsub hacc hl hup
  exact completes_of_exec rfl ⟨⟨_, hrun, by rw [hout]⟩, hrest⟩

theorem completes_planLoad_entry {v : Nat} {g : RegDesc} {i : List Nat} {e : Dev} (hsub : cbits r.cmd.bytes 4 0 2 = 0) (hacc : r.acc ≠ [])
    (hsent : r.sent < secCount r.section) (hat : regAt ((secEntry r.section r.sent).1 % 2 ^ 48) = some (g, i))
    (hv : v = (secEntry r.section r.sent).2) (hreach : s.dev.reach g.reg i = .open)
    (he : e = (s.dev.regWrite s.fuses (.plan (Fin.ofNat 4 r.cmd.hp)) g i v).1) (hrun : e.runAt t.val k = some r) (hmet : e.bank.met = 0) :
    Completes (.planLoad t k) s (fun d => d.runAt t.val k = some { r with sent := r.sent + 1 } ∧
      SameRegs e d [(F.MST_DIG_STAT_BACKLOG, [])] ∧ SameMem e d) := by
  have hstatus := status_of_runs hx.1
  obtain ⟨b, hentry, hbmet, hblost⟩ := planEntry_open (t := t.val) (r := r) s.fuses hat hreach
  rw [← hv, ← he] at hbmet hblost hentry
  obtain ⟨hend, -⟩ : Settled t.val k { e with bank := b } { r with sent := r.sent + 1 } (s.dev.planLoad s.fuses t.val k) ∧
      KeepsTables { e with bank := b } (s.dev.planLoad s.fuses t.val k) :=
    planOp_running hx hr (by simp [hsub, hacc, hsent, hentry]) hrun (hbmet.trans hmet) rfl hstatus
  have hmem : SameMem e ({ e with bank := b } : Dev) := sameMem_of rfl hblost
  exact completes_of_exec rfl ⟨hend.run, hend.regs, sameMem_trans hmem hend.bytes.sameMem⟩

theorem completes_planLoad_done (hsub : cbits r.cmd.bytes 4 0 2 = 0) (hacc : r.acc ≠ []) (hsent : secCount r.section ≤ r.sent)
    (hnone : r.lost = none) (hlost : s.dev.sectionLost (some (leAt r.section 6 2)) = false)
    (hclaims : ∀ c ∈ s.dev.bank.claims, c.run ≠ some (t.val, r.cmd.uid)) :
    Completes (.planLoad t k) s (fun d => d.hasStatus t.val k .ok ∧ nget? d.eng.sections [leAt r.section 6 2] = some r.section ∧
      d.digestCurrent ∧ SameRegs s.dev d planRegs ∧ SameMem s.dev d) := by
  have hmine := claims_any_eq_false hclaims
  have hlate : ¬r.sent < secCount r.section := Nat.not_lt.mpr hsent
  obtain ⟨hst, hdigest, hsections, hregs, hmem⟩ : (s.dev.planLoad s.fuses t.val k).hasStatus t.val k .ok ∧
      (s.dev.planLoad s.fuses t.val k).digestCurrent ∧
      (s.dev.planLoad s.fuses t.val k).eng.sections = (s.dev.sectionIn r.section).eng.sections ∧
      SameRegs (s.dev.sectionIn r.section) (s.dev.planLoad s.fuses t.val k) planRegs ∧
      SameMem (s.dev.sectionIn r.section) (s.dev.planLoad s.fuses t.val k) :=
    planOp_ended (r' := { r with status := some .ok, detail := 0 }) hx hr (by simp [hsub, hacc, hlate, hmine, hnone, Dev.sectionIn])
      (runAt_of_runs hx.1) (met_of_runs hx.1) rfl rfl (mended_sectionLost (fun x => withSection_mem) hlost)
  refine completes_of_exec rfl ⟨hst, ?_, hdigest, hregs, hmem⟩
  rw [hsections]
  exact nget?_nset_same _ _ _

theorem completes_planDrop {n : Nat} (hsub : cbits r.cmd.bytes 4 0 2 = 1) (hn : n = leAt r.cmd.bytes 6 2)
    (hin : (nget? s.dev.eng.sections [n]).isSome = true) (hlost : s.dev.sectionLost (some n) = false) :
    Completes (.planDrop t k) s (fun d => d.hasStatus t.val k .ok ∧ nget? d.eng.sections [n] = none ∧ d.digestCurrent ∧
      SameRegs s.dev d planRegs ∧ SameMem s.dev d) := by
  have hsome : (nget? s.dev.eng.sections [n]).isNone = false := by rw [← Option.not_isSome, hin]; rfl
  obtain ⟨hst, hdigest, hsections, hregs, hmem⟩ : (s.dev.planDrop t.val k).hasStatus t.val k .ok ∧
      (s.dev.planDrop t.val k).digestCurrent ∧ (s.dev.planDrop t.val k).eng.sections = (s.dev.sectionOut n).eng.sections ∧
      SameRegs (s.dev.sectionOut n) (s.dev.planDrop t.val k) planRegs ∧ SameMem (s.dev.sectionOut n) (s.dev.planDrop t.val k) :=
    planOp_ended (r' := { r with status := some .ok }) hx hr (by simp [hsub, ← hn, hsome, hlost, Dev.sectionOut])
      (runAt_of_runs hx.1) (met_of_runs hx.1) rfl rfl (mended_sectionLost (fun x hx => .inr (mem_of_mem_ndel hx)) hlost)
  refine completes_of_exec rfl ⟨hst, ?_, hdigest, hregs, hmem⟩
  rw [hsections]
  exact nget?_ndel_same _ _

end

end Sys2Proof.Machine
end

section
/-!
GATE (R265, R445).
-/
namespace Sys2Proof.Machine

theorem SameRegs.mono {d e : Dev} {l m : List (Field × List Nat)} (h : SameRegs d e l) (hs : l ⊆ m) : SameRegs d e m :=
  fun f i hb => h f i fun x hx => hb x (hs hx)

theorem getF_of_planRegs {d e : Dev} (h : SameRegs d e planRegs) (f : Field) (i : List Nat) (hf : ∀ x ∈ planRegs, x.1.reg ≠ f.reg) :
    e.getF f i = d.getF f i := h f i fun x hx hkey => hf x hx hkey.1

/-- The takeover of a port's gate list is set for fabric time `v`. -/
def Dev.gateSet (d : Dev) (i : List Nat) (v : Nat) : Dev :=
  ((if d.flag F.PRT_SCH_STAT_PENDING i then d.raise F.PRT_SCH_STAT_GATE_REPLACED i else d).setF F.PRT_GATE_AT_TIME i v).raise
    F.PRT_SCH_STAT_PENDING i

theorem gateSet_spec (d : Dev) (i : List Nat) (v : Nat) :
    (d.gateSet i v).getF F.PRT_GATE_AT_TIME i = v % 2 ^ 64 ∧ (d.gateSet i v).flag F.PRT_SCH_STAT_PENDING i = true ∧
      (d.flag F.PRT_SCH_STAT_PENDING i = true → (d.gateSet i v).flag F.PRT_SCH_STAT_GATE_REPLACED i = true) ∧
      SameRegs d (d.gateSet i v) [(F.PRT_GATE_AT_TIME, i), (F.PRT_SCH_STAT_PENDING, i), (F.PRT_SCH_STAT_GATE_REPLACED, i)] ∧
      OnlyRegs d (d.gateSet i v) := by
  unfold Dev.gateSet
  refine ⟨?time, flag_raise _ _ _ rfl, fun hp => ?replaced, ?regs, ?only⟩
  case time => exact (getF_setF_ne _ _ _ _ _ _ (by decide)).trans (getF_setF_same _ _ _ _)
  case replaced =>
    rw [if_pos hp, Dev.flag, Dev.raise, getF_setF_ne _ _ _ _ _ _ (by decide), getF_setF_ne _ _ _ _ _ _ (by decide)]
    exact flag_raise d _ i rfl
  case regs =>
    refine sameRegs_setF (.tail _ (.head _)) (sameRegs_setF (.head _) ?_)
    split_ifs
    · exact sameRegs_setF (.tail _ (.tail _ (.head _))) (sameRegs_refl d _)
    · exact sameRegs_refl d _
  case only => split_ifs <;> rfl

section
variable {s : State} {t : Fin 65536} {k : Nat} {r : Run} {i : List Nat} (hx : s.dev.executes t.val k 0x61 r)
  (hr : s.dev.tckInReset t.val = false) (hi : i = [cb r.cmd.bytes 4 / 32, cb r.cmd.bytes 4 % 32]) (hlost : s.dev.sectionLost none = false)
  (hdie : s.dev.dieOk (5 + cb r.cmd.bytes 4 / 32) = true) (hreset : s.dev.islandInReset (regIsland .PRT_SCH_STAT i) = false)
  (hstop : s.dev.islandStopped (regIsland .PRT_SCH_STAT i) = false) (hlist : cbits r.cmd.bytes 5 0 1 ≠ s.dev.getF F.PRT_SCH_STAT_ACTIVE i)
include hx hr hi hlost hdie hreset hstop hlist

/-- GATE at a port in service, of the list that is not active: its effect `e` on the port's registers and its status rest on T alone. -/
theorem gate_ended {e : Dev} {st : Status} (he : (e, st) = if leAt r.cmd.bytes 8 8 < s.dev.fabTime + us 2 then
      (s.dev.raise F.PRT_SCH_STAT_GATE_STALE i, .stale) else (s.dev.gateSet i (leAt r.cmd.bytes 8 8), .ok)) (honly : OnlyRegs s.dev e) :
    (s.dev.gate t.val k).hasStatus t.val k st ∧ SameRegs e (s.dev.gate t.val k) planRegs ∧ SameMem s.dev (s.dev.gate t.val k) := by
  obtain ⟨hbytes, htables⟩ := honly.keeps
  have hrun : e.runAt t.val k = some r := (congrArg (fun d : Dev => d.runAt t.val k) honly).trans (runAt_of_runs hx.1)
  have hmet : e.bank.met = 0 := (congrArg (·.bank.met) honly).trans (met_of_runs hx.1)
  have hport : s.dev.dieOk (5 + ix i 0) = true := by rw [hi]; exact hdie
  obtain ⟨hst, -, -, hregs, hmem⟩ : (s.dev.gate t.val k).hasStatus t.val k st ∧ (s.dev.gate t.val k).digestCurrent ∧
      (s.dev.gate t.val k).eng.sections = e.eng.sections ∧ SameRegs e (s.dev.gate t.val k) planRegs ∧ SameMem e (s.dev.gate t.val k) := by
    refine planOp_ended (r' := { r with status := some st }) hx hr ?_ hrun hmet rfl rfl ((htables.sectionLost none).trans hlost)
    simp only [← hi, hlost, hport, hreset, hstop, hlist, Bool.not_true, Bool.false_eq_true, if_false]
    by_cases hlate : leAt r.cmd.bytes 8 8 < s.dev.fabTime + us 2
    · rw [if_pos hlate] at he ⊢
      obtain ⟨rfl, rfl⟩ := Prod.mk.inj he
      rfl
    · rw [if_neg hlate] at he ⊢
      obtain ⟨rfl, rfl⟩ := Prod.mk.inj he
      rfl
  exact ⟨hst, hregs, sameMem_trans hbytes.sameMem hmem⟩

theorem completes_gate (hat : s.dev.fabTime + us 2 ≤ leAt r.cmd.bytes 8 8) :
    Completes (.gate t k) s (fun d => d.hasStatus t.val k .ok ∧ d.getF F.PRT_GATE_AT_TIME i = leAt r.cmd.bytes 8 8 ∧
      d.flag F.PRT_SCH_STAT_PENDING i = true ∧
      (s.dev.flag F.PRT_SCH_STAT_PENDING i = true → d.flag F.PRT_SCH_STAT_GATE_REPLACED i = true) ∧
      SameRegs s.dev d ([(F.PRT_GATE_AT_TIME, i), (F.PRT_SCH_STAT_PENDING, i), (F.PRT_SCH_STAT_GATE_REPLACED, i)] ++ planRegs) ∧
      SameMem s.dev d) := by
  obtain ⟨htime, hpending, hreplaced, hset, honly⟩ := gateSet_spec s.dev i (leAt r.cmd.bytes 8 8)
  obtain ⟨hst, hregs, hmem⟩ := gate_ended hx hr hi hlost hdie hreset hstop hlist (if_neg (Nat.not_lt.mpr hat)).symm honly
  have hkeep := getF_of_planRegs hregs
  refine completes_of_exec rfl ⟨hst, ?time, ?pending, fun hp => ?replaced, ?regs, hmem⟩
  case time => rw [hkeep _ _ (by decide), htime]; exact Nat.mod_eq_of_lt (leAt_lt_pow _ 8 8)
  case pending => rw [Dev.flag, hkeep _ _ (by decide)]; exact hpending
  case replaced => rw [Dev.flag, hkeep _ _ (by decide)]; exact hreplaced hp
  case regs => exact sameRegs_trans (hset.mono (List.subset_append_left _ _)) (hregs.mono (List.subset_append_right _ _))

theorem completes_gate_stale (hat : leAt r.cmd.bytes 8 8 < s.dev.fabTime + us 2) :
    Completes (.gate t k) s (fun d => d.hasStatus t.val k .stale ∧ d.flag F.PRT_SCH_STAT_GATE_STALE i = true ∧
      SameRegs s.dev d ((F.PRT_SCH_STAT_GATE_STALE, i) :: planRegs) ∧ SameMem s.dev d) := by
  obtain ⟨hflag, hraise, honly⟩ := raise_only s.dev F.PRT_SCH_STAT_GATE_STALE i rfl
  obtain ⟨hst, hregs, hmem⟩ := gate_ended hx hr hi hlost hdie hreset hstop hlist (if_pos hat).symm honly
  refine completes_of_exec rfl ⟨hst, ?flag, ?regs, hmem⟩
  case flag => rw [Dev.flag, getF_of_planRegs hregs _ _ (by decide)]; exact hflag
  case regs =>
    exact sameRegs_trans (hraise.mono (List.cons_subset_cons _ (List.nil_subset _))) (hregs.mono (List.subset_cons_self _ _))

end

end Sys2Proof.Machine
end

section
namespace Sys2Proof.Machine

/-- Settles O47: every clause holds, each by the lemma above for its command. -/
theorem planCommands : Obligations.PlanCommands := by
  refine ⟨?read, ?refused, ?entry, ?done, ?drop, ?gate, ?stale⟩
  case read =>
    exact fun s t k r l hx hr hsub hacc hl hup hok hlost hfit => completes_planLoad_read hx hr hsub hacc hl hup hok hlost hfit
  case refused => exact fun s t k r l hx hr hsub hacc hl hup hbad => completes_planLoad_refused hx hr hsub hacc hl hup hbad
  case entry =>
    exact fun s t k v r g i e hx hr hsub hacc hsent hat hv hreach he hrun hmet =>
      completes_planLoad_entry hx hr hsub hacc hsent hat hv hreach he hrun hmet
  case done =>
    exact fun s t k r hx hr hsub hacc hsent hnone hlost hclaims => completes_planLoad_done hx hr hsub hacc hsent hnone hlost hclaims
  case drop => exact fun s t k n r hx hr hsub hn hin hlost => completes_planDrop hx hr hsub hn hin hlost
  case gate =>
    exact fun s t k r i hx hr hi hlost hdie hreset hstop hlist hat => completes_gate hx hr hi hlost hdie hreset hstop hlist hat
  case stale =>
    exact fun s t k r i hx hr hi hlost hdie hreset hstop hlist hat => completes_gate_stale hx hr hi hlost hdie hreset hstop hlist hat

end Sys2Proof.Machine
end

section
/-!
Fuses (R112, R113): every command but FUSE_PROG_DONE works on the device alone, and that one only blows fuses.
-/
namespace Sys2Proof.Machine

/-- From `f` to `g` fuses are only blown: none that reads blown in `f` reads intact in `g`, and those that no operation programs are
the same. -/
structure Fuses.Blows (f g : Fuses) : Prop where
  keyRevoked : ∀ k, bit f.keyRevoked k = true → bit g.keyRevoked k = true
  secVerMin : f.secVerMin ≤ g.secVerMin
  debugClosed : f.debugClosed = true → g.debugClosed = true
  unitsOk : g.unitsOk = f.unitsOk
  coreOk : g.coreOk = f.coreOk
  vecOk : g.vecOk = f.vecOk
  bseVecOk : g.bseVecOk = f.bseVecOk
  keyHash : g.keyHash = f.keyHash

theorem Fuses.Blows.refl (f : Fuses) : f.Blows f := ⟨fun _ h => h, Nat.le_refl _, fun h => h, rfl, rfl, rfl, rfl, rfl⟩

/-- Each operation of R113 blows one kind of fuse. -/
theorem blow_blows (f : Fuses) (op arg : Nat) : f.Blows (f.blow op arg) := by
  unfold Fuses.blow
  split
  · exact { Fuses.Blows.refl f with secVerMin := Nat.le_max_left _ _ }
  · exact { Fuses.Blows.refl f with keyRevoked := fun k hk => by rw [bit_setBit, hk, Bool.true_or] }
  · exact { Fuses.Blows.refl f with debugClosed := fun _ => rfl }
  · exact .refl f

theorem fuseDone_blows (s : State) : s.fuses.Blows s.fuseDone.fuses := by
  unfold State.fuseDone
  split
  · exact .refl _
  · exact blow_blows _ _ _

/-- Whatever state the answer `r` holds has the fuses of `s`. -/
def KeepsFuses (s : State) (r : Res) : Prop := ∀ t, r = .next t → t.fuses = s.fuses

theorem upd_keepsFuses (s : State) (f : Dev → Dev) : KeepsFuses s (s.upd f) := by
  rintro t ⟨⟩
  rfl

theorem updIf_keepsFuses (s : State) (c : Bool) (f : Dev → Dev) : KeepsFuses s (s.updIf c f) := by
  cases c with
  | true => exact upd_keepsFuses s f
  | false => rintro t ⟨⟩

theorem exec_keepsFuses {i : Instr} (s : State) (hi : i ≠ .fuseProgDone) : KeepsFuses s (exec i s) := by
  cases i with
  | fuseProgDone => exact absurd rfl hi
  | resetNRelease sysref helm vsail =>
    show KeepsFuses s (ite _ _ _)
    split_ifs
    · rintro t ⟨⟩
    · exact upd_keepsFuses _ _
  | capstanSelftest =>
    unfold exec execCapstanSelftest
    dsimp only
    split <;> exact upd_keepsFuses _ _
  | registerWrite | brownout | timexRequestReceive | timexReplyReceive | controlCheckError | apertureRead | apertureWrite | pushWrite
  | capsReceive | rxIdleFlit | rxDataFlit | rxBadFlit | rxAbortFlit | rxNakFlit | rxTimexFlit | rxReservedFlit | moduleAnswer
  | biasDriftSample | sensorConversion | pcieLinkUp | queueResume | seqCtrWrite =>
    unfold exec
    exact updIf_keepsFuses _ _ _
  | _ =>
    unfold exec
    exact upd_keepsFuses _ _

theorem exec_blows {i : Instr} {s t : State} (h : exec i s = .next t) : s.fuses.Blows t.fuses := by
  by_cases hi : i = .fuseProgDone
  · subst hi
    obtain rfl : s.fuseDone = t := Host.Outcome.next.inj h
    exact fuseDone_blows s
  · rw [exec_keepsFuses s hi t h]
    exact .refl _

theorem step_blows {s t : State} (h : step s = .next t) : s.fuses.Blows t.fuses := by
  unfold step at h
  split at h
  · obtain rfl := Host.Outcome.next.inj h
    exact .refl _
  next i rest _ => exact exec_blows (s := { s with pending := rest }) h

/-- Settles O4: a step is a frame or a command, and neither unblows a fuse. -/
theorem fusesAreOnlyEverBlown : Obligations.FusesAreOnlyEverBlown := by
  intro s t h
  obtain ⟨hkeys, hversion, hdebug, hunits, hcore, hvec, hbse, hhash⟩ := step_blows h
  exact ⟨hkeys, hversion, hdebug, hunits, hcore, hvec, hbse, hhash⟩

end Sys2Proof.Machine
end

section
/-!
The stop of a tackle or of a die (R104, R105, R108): whatever it ends and loses, it takes no time and leaves the record of the resets.
-/
namespace Sys2Proof.Machine

/-- The time, and which resets hold. -/
def Dev.dated (d : Dev) : Nat × Rst := (d.clk.now, d.rst)

theorem dated_eq {d e : Dev} (h : e.dated = d.dated) : e.clk.now = d.clk.now ∧ e.rst = d.rst := Prod.mk.inj h

theorem dated_foldl {α : Type} {f : Dev → α → Dev} (h : ∀ d x, (f d x).dated = d.dated) (l : List α) (d : Dev) :
    (l.foldl f d).dated = d.dated := by
  induction l generalizing d with
  | nil => rfl
  | cons x t ih => exact (ih _).trans (h d x)

theorem dated_ite {c : Prop} [Decidable c] {d x y : Dev} (hx : x.dated = d.dated) (hy : y.dated = d.dated) :
    (if c then x else y).dated = d.dated := by split_ifs <;> assumption

/-! ## Registers, queues and reports -/

theorem withEng_dated (d : Dev) (x : EngSt) : ({ d with eng := x } : Dev).dated = d.dated := rfl
theorem withNet_dated (d : Dev) (x : NetSt) : ({ d with net := x } : Dev).dated = d.dated := rfl

@[simp] theorem setF_dated (d : Dev) (f : Field) (i : List Nat) (v : Nat) : (d.setF f i v).dated = d.dated := rfl
@[simp] theorem raise_dated (d : Dev) (f : Field) (i : List Nat) : (d.raise f i).dated = d.dated := rfl
@[simp] theorem clear_dated (d : Dev) (f : Field) (i : List Nat) : (d.clear f i).dated = d.dated := rfl
@[simp] theorem addSat_dated (d : Dev) (f : Field) (i : List Nat) (n : Nat) : (d.addSat f i n).dated = d.dated := rfl
@[simp] theorem incSat_dated (d : Dev) (f : Field) (i : List Nat) : (d.incSat f i).dated = d.dated := rfl
@[simp] theorem addWrap_dated (d : Dev) (f : Field) (i : List Nat) (n : Nat) : (d.addWrap f i n).dated = d.dated := rfl
@[simp] theorem setQueue_dated (d : Dev) (t q : Nat) (l : List Cmd) : (d.setQueue t q l).dated = d.dated := rfl
@[simp] theorem dropRun_dated (d : Dev) (t k : Nat) : (d.dropRun t k).dated = d.dated := rfl
@[simp] theorem release_dated (d : Dev) (t uid : Nat) : (d.release t uid).dated = d.dated := rfl
@[simp] theorem digestDone_dated (d : Dev) (t uid : Nat) : (d.digestDone t uid).dated = d.dated := rfl
@[simp] theorem freeNum_dated (d : Dev) : d.freeNum.2.dated = d.dated := rfl
@[simp] theorem addRec_dated (d : Dev) (g : Nat) (l : List Byte) (w : Option Nat) : (d.addRec g l w).dated = d.dated := rfl

@[simp] theorem sendMsix_dated (d : Dev) (x f v : Nat) : (d.sendMsix x f v).dated = d.dated := by simp [Dev.dated]
@[simp] theorem fault_dated (d : Dev) (n : DieNo) (s : FSrc) : (d.fault n s).dated = d.dated := by simp [Dev.dated]

@[simp] theorem setHalt_dated (d : Dev) (t q : Nat) (v : Bool) : (d.setHalt t q v).dated = d.dated := by
  cases v <;> exact dated_ite rfl rfl

@[simp] theorem unhalt_dated (d : Dev) (t : Nat) : (d.unhalt t).dated = d.dated := dated_foldl (fun d q => setHalt_dated d t q false) _ d

theorem settleEpochs_dated (d was : Dev) (ts : List Nat) : (d.settleEpochs was ts).dated = d.dated := by
  refine dated_foldl (fun _ _ => ?_) ts d
  rfl

@[simp] theorem rrDiscard_dated (d : Dev) (id : Nat) : (d.rrDiscard id).dated = d.dated := by
  unfold Dev.rrDiscard
  split <;> rfl

@[simp] theorem traceRec_dated (d : Dev) (n : DieNo) (ring : Nat) (l : List Byte) (run : Option (Nat × Nat)) :
    (d.traceRec n ring l run).dated = d.dated := by
  refine dated_ite (dated_ite rfl ?_) (dated_ite rfl rfl)
  exact rrDiscard_dated _ _

@[simp] theorem tckRaise_dated (d : Dev) (t : Nat) (fs : List (Field × Nat)) : (d.tckRaise t fs).dated = d.dated := by
  have hset (l : List (Field × Nat)) : (l.foldl (fun d f => d.raise f.1 [t]) d).dated = d.dated :=
    dated_foldl (fun d _ => raise_dated d _ _) l d
  unfold Dev.tckRaise
  dsimp only
  split_ifs <;> simp [hset]

@[simp] theorem tckError_dated (d : Dev) (t q op index : Nat) (st : Status) (wait seq : Bool) :
    (d.tckError t q op index st wait seq).dated = d.dated := by
  refine dated_ite rfl ((tckRaise_dated _ _ _).trans (dated_ite rfl rfl))

@[simp] theorem partDone_dated (d : Dev) (g uid : Nat) (r : Report) : (d.partDone g uid r).dated = d.dated := by
  unfold Dev.partDone
  split <;> rfl

/-! ## Commands end -/

@[simp] theorem finish_dated (d : Dev) (t q : Nat) (c : Cmd) (r : Report) (trace : Bool) : (d.finish t q c r trace).dated = d.dated := by
  unfold Dev.finish
  dsimp only
  cases c.parent with
  | some p => simp [apply_ite Dev.dated]
  | none =>
    cases c.ring <;> simp [apply_ite Dev.dated]

@[simp] theorem vecBusy_dated (d : Dev) (t : Nat) : (d.vecBusy t).dated = d.dated := dated_ite rfl rfl

@[simp] theorem busyCount_dated (d : Dev) (t : Nat) (r : Run) : (d.busyCount t r).dated = d.dated := by
  have hvec (l : List Nat) : (l.foldl Dev.vecBusy d).dated = d.dated := dated_foldl vecBusy_dated l d
  unfold Dev.busyCount
  refine dated_ite rfl ?_
  split
  · exact dated_ite rfl rfl
  · simp [apply_ite Dev.dated, hvec]
  · rfl

@[simp] theorem killRuns_dated (d : Dev) (t : Nat) : (d.killRuns t).dated = d.dated := by
  refine dated_foldl (fun d r => ?_) _ d
  simp

@[simp] theorem flushQueues_dated (d : Dev) (t : Nat) : (d.flushQueues t).dated = d.dated := by
  refine dated_foldl (fun d q => ?_) _ d
  refine (dated_foldl (fun d c => ?_) _ _).trans (setQueue_dated d t q [])
  exact finish_dated d t q c _ true

@[simp] theorem killWaits_dated (d : Dev) (seq : Nat) : (d.killWaits seq).dated = d.dated := by
  refine dated_foldl (fun d x => ?_) _ d
  refine dated_foldl (fun d q => ?_) _ d
  split
  · exact dated_ite (finish_dated _ _ _ _ _ _) rfl
  · rfl

@[simp] theorem killStreams_dated (d : Dev) (t : Nat) : (d.killStreams t).dated = d.dated := by
  refine dated_foldl (fun d x => ?_) _ d
  refine dated_foldl (fun d r => ?_) _ d
  rfl

@[simp] theorem killDigests_dated (d : Dev) : d.killDigests.dated = d.dated := by
  refine dated_foldl (fun d x => ?_) _ d
  refine dated_foldl (fun d r => ?_) _ d
  rfl

@[simp] theorem tagDone_dated (d : Dev) (flow tag : Nat) : (d.tagDone flow tag).dated = d.dated := by
  unfold Dev.tagDone
  split <;> rfl

@[simp] theorem freeTags_dated (d : Dev) (t : Nat) : (d.freeTags t).dated = d.dated := by
  refine dated_foldl (fun d r => ?_) _ d
  refine dated_foldl (fun d q => ?_) _ d
  exact tagDone_dated d q.flow q.tag

@[simp] theorem abortWindows_dated (d : Dev) (t : Nat) (hit : List (Nat × Nat)) : (d.abortWindows t hit).dated = d.dated := rfl
@[simp] theorem dropSeals_dated (d : Dev) (t : Nat) : (d.dropSeals t).dated = d.dated := rfl

@[simp] theorem stopTackle_dated (d : Dev) (t : Nat) : (d.stopTackle t).dated = d.dated := by
  have hctr (e : Dev) : ((List.range 16).foldl (fun d c => d.setF F.SEQ_CTR_VALUE [t, c] 0) e).dated = e.dated :=
    dated_foldl (fun d c => setF_dated d F.SEQ_CTR_VALUE [t, c] 0) _ e
  unfold Dev.stopTackle
  dsimp only
  split_ifs
  · rw [killStreams_dated, killWaits_dated, withEng_dated, hctr]
    simp
  · simp
  · simp

/-! ## Packets, flows and ports -/

@[simp] theorem setFlight_dated (d : Dev) (n : Nat) (f : Flight) : (d.setFlight n f).dated = d.dated := rfl
@[simp] theorem setLink_dated (d : Dev) (k : Nat × Nat) (l : LinkSt) : (d.setLink k l).dated = d.dated := rfl
@[simp] theorem descSync_dated (d : Dev) (n : DieNo) : (d.descSync n).dated = d.dated := rfl
@[simp] theorem poolSync_dated (d : Dev) (y : Nat) : (d.poolSync y).dated = d.dated := rfl
@[simp] theorem setCtx_dated (d : Dev) (id : Nat) (x : Ctx) : (d.setCtx id x).dated = d.dated := rfl
@[simp] theorem toDetect_dated (d : Dev) (p l : Nat) : (d.toDetect p l).dated = d.dated := rfl

@[simp] theorem answerPkt_dated (d : Dev) (t uid k : Nat) (st : Status) : (d.answerPkt t uid k st).dated = d.dated := by
  unfold Dev.answerPkt
  dsimp only
  split
  · exact tagDone_dated _ _ _
  · rfl

@[simp] theorem originDone_dated (d : Dev) (o : Origin) (ack : Bool) (x : Option Status) : (d.originDone o ack x).dated = d.dated := by
  unfold Dev.originDone
  split
  · split
    · exact answerPkt_dated _ _ _ _ _
    · exact dated_ite rfl (answerPkt_dated _ _ _ _ _)
  · split
    · split <;> rfl
    · rfl
  · rfl

@[simp] theorem answer_dated (d : Dev) (flow tag : Nat) (st : Status) : (d.answer flow tag st).1.dated = d.dated := by
  unfold Dev.answer
  dsimp only
  split_ifs
  · exact tagDone_dated _ _ _
  · rfl

@[simp] theorem answerRefused_dated (d : Dev) (flow : Nat) (l : List Byte) (st : Status) : (d.answerRefused flow l st).dated = d.dated :=
  dated_ite (answer_dated _ _ _ _) rfl

@[simp] theorem answerDropped_dated (d : Dev) (h : PktHdr) (l : List Byte) (st : Status) : (d.answerDropped h l st).dated = d.dated :=
  dated_ite rfl (dated_ite (answer_dated _ _ _ _) (dated_ite (answerRefused_dated _ _ _ _) rfl))

@[simp] theorem portId_dated (d : Dev) (p e : Nat) : (d.portId p e).2.dated = d.dated := by
  unfold Dev.portId
  split_ifs <;> rfl

@[simp] theorem dropSample_dated (d : Dev) (p e : Nat) (hdr : List Byte) (st : Status) : (d.dropSample p e hdr st).dated = d.dated := by
  refine dated_ite rfl (dated_ite ?_ rfl)
  simp only [traceRec_dated, incSat_dated, portId_dated]
  rfl

@[simp] theorem discard_dated (d : Dev) (p e : Nat) (h : PktHdr) (l : List Byte) (o : Origin) (st : Status) :
    (d.discard p e h l o st).dated = d.dated := by simp [Dev.discard]

@[simp] theorem noteDrop_dated (d : Dev) (f : Flight) (n : DieNo) (st : Status) : (d.noteDrop f n st).dated = d.dated := by
  unfold Dev.noteDrop
  split
  · exact discard_dated _ _ _ _ _ _ _
  · exact dated_ite (discard_dated _ _ _ _ _ _ _) (originDone_dated _ _ _ _)

@[simp] theorem claimsEnd_dated (d : Dev) (id : Nat) (ps : List (Nat × Nat)) (sent : Bool) (st : Status) :
    (d.claimsEnd id ps sent st).dated = d.dated := by
  unfold Dev.claimsEnd
  split
  · rfl
  · exact dated_ite (originDone_dated _ _ _ _) rfl

@[simp] theorem dropAt_dated (d : Dev) (id : Nat) (f : Flight) (n : DieNo) (st : Status) : (d.dropAt id f n st).dated = d.dated := by
  have hlinks (l : List (Nat × Nat)) (e : Dev) : (l.foldl (fun d k => d.setLink k ((d.link k).unqueue id)) e).dated = e.dated :=
    dated_foldl (fun d k => setLink_dated d k _) l e
  unfold Dev.dropAt
  simp [apply_ite Dev.dated, hlinks]

@[simp] theorem tidyFlight_dated (d : Dev) (id : Nat) : (d.tidyFlight id).dated = d.dated := by
  unfold Dev.tidyFlight
  split
  · exact dated_ite rfl rfl
  · rfl

@[simp] theorem dropDest_dated (d : Dev) (n : DieNo) : (d.dropDest n).dated = d.dated := by
  refine dated_foldl (fun d id => ?_) _ d
  split
  · simp
  · rfl

@[simp] theorem loseIn_dated (d : Dev) (k : Nat × Nat) (i : Nat) (st : Status) : (d.loseIn k i st).dated = d.dated := by
  unfold Dev.loseIn
  dsimp only
  split
  · rfl
  · split <;> rfl

@[simp] theorem loseSource_dated (d : Dev) (k : Nat × Nat) : (d.loseSource k).dated = d.dated :=
  dated_foldl (fun d i => loseIn_dated d k i .unitReset) _ d

@[simp] theorem loseFlow_dated (d : Dev) (f : Nat) (st : Status) : (d.loseFlow f st).dated = d.dated := by
  unfold Dev.loseFlow
  split
  · rfl
  · exact dated_foldl (fun d tag => answer_dated d f tag st) _ d

@[simp] theorem startIsland_dated (d : Dev) (g : Nat) : (d.startIsland g).dated = d.dated := dated_ite rfl rfl
@[simp] theorem holdIsland_dated (d : Dev) (g : Nat) : (d.holdIsland g).dated = d.dated := rfl

@[simp] theorem portLanesDown_dated (d : Dev) (k : Nat × Nat) : (d.portLanesDown k).dated = d.dated := by
  unfold Dev.portLanesDown
  refine (dated_foldl (fun d i => ?_) _ _).trans rfl
  exact dated_ite ((toDetect_dated _ _ _).trans (dated_ite (startIsland_dated _ _) rfl)) rfl

@[simp] theorem portDown_dated (d : Dev) (k : Nat × Nat) : (d.portDown k).dated = d.dated := by
  have hlose (l : List Nat) (e : Dev) : (l.foldl (fun d j => d.loseIn k j .unitReset) e).dated = e.dated :=
    dated_foldl (fun d j => loseIn_dated d k j .unitReset) l e
  have hcredit (l : List Nat) (e : Dev) : (l.foldl (fun d v => d.setF (crField v) [k.1, k.2] 0) e).dated = e.dated :=
    dated_foldl (fun d v => setF_dated d (crField v) [k.1, k.2] 0) l e
  unfold Dev.portDown
  refine dated_ite rfl ?_
  dsimp only
  rw [withNet_dated, portLanesDown_dated]
  simp [hlose, hcredit, -List.foldl_reverse]

@[simp] theorem portDieLost_dated (d : Dev) (p : Nat) : (d.portDieLost p).dated = d.dated := by
  have hdown (l : List Nat) (e : Dev) : (l.foldl (fun d e => d.portDown (p, e)) e).dated = e.dated :=
    dated_foldl (fun d e => portDown_dated d (p, e)) l e
  have hsource (l : List Nat) (e : Dev) : (l.foldl (fun d e => d.loseSource (p, 32 + e)) e).dated = e.dated :=
    dated_foldl (fun d e => loseSource_dated d (p, 32 + e)) l e
  have hflow (l : List Nat) (e : Dev) : (l.foldl (fun d f => d.loseFlow f .unitReset) e).dated = e.dated :=
    dated_foldl (fun d f => loseFlow_dated d f .unitReset) l e
  simp [Dev.portDieLost, hdown, hsource, hflow]

/-! ## Yards and contexts -/

@[simp] theorem poolReturn_dated (d : Dev) (y : Nat) (u : USlot) : (d.poolReturn y u).dated = d.dated := dated_ite rfl rfl

@[simp] theorem abandon_dated (d : Dev) (id n : Nat) (st : Status) : (d.abandon id n st).dated = d.dated := by
  unfold Dev.abandon
  split
  · rfl
  · exact dated_ite rfl (dated_foldl (fun d u => poolReturn_dated d _ u) _ d)

@[simp] theorem abandonAll_dated (d : Dev) (id : Nat) (x : Ctx) (st : Status) (p : Nat → Bool) : (d.abandonAll id x st p).dated = d.dated :=
  dated_foldl (fun d n => abandon_dated d id n st) _ d

@[simp] theorem collYardOut_dated (d : Dev) (y : Nat) : (d.collYardOut y).dated = d.dated := by
  refine dated_foldl (fun d x => ?_) _ d
  dsimp only
  split <;> simp

@[simp] theorem keyDown_dated (d : Dev) (f : Flight) (n : Nat) : (d.keyDown f n).dated = d.dated := by
  unfold Dev.keyDown
  split <;> rfl

@[simp] theorem yardCellsLost_dated (d : Dev) (y : Nat) : (d.yardCellsLost y).dated = d.dated := by
  unfold Dev.yardCellsLost
  refine (poolSync_dated _ _).trans ((dated_foldl (fun d x => ?tidy) _ _).trans ((dated_foldl (fun d x => ?drops) _ _).trans
    (dated_foldl (fun d x => ?cells) _ _)))
  case tidy => exact tidyFlight_dated d _
  case cells => exact keyDown_dated _ _ _
  case drops =>
    refine dated_foldl (fun d n => ?_) _ d
    dsimp only
    split
    · simp [apply_ite Dev.dated]
    · rfl

@[simp] theorem yardLost_dated (d : Dev) (y : Nat) : (d.yardLost y).dated = d.dated := by
  unfold Dev.yardLost
  rw [withNet_dated, yardCellsLost_dated, collYardOut_dated]

/-! ## A die stops -/

@[simp] theorem dieMemLost_dated (d : Dev) (n : DieNo) : (d.dieMemLost n).dated = d.dated := by
  unfold Dev.dieMemLost
  split <;> rfl

@[simp] theorem dropClaims_dated (d : Dev) (n : DieNo) : (d.dropClaims n).dated = d.dated := by
  refine dated_foldl (fun d c => ?_) _ _
  split <;> rfl

@[simp] theorem setReady_dated (d : Dev) (n : DieNo) (v : Bool) : (d.setReady n v).dated = d.dated := by
  unfold Dev.setReady
  dsimp only
  split <;> cases v <;> rfl

@[simp] theorem toReady_false_dated (d : Dev) (n : DieNo) : (d.toReady n false).dated = d.dated := by
  have hbump (l : List (Nat × Bool)) (e : Dev) :
      (l.foldl (fun d x => if d.tckReady x.1 == x.2 then d else d.bumpEpoch x.1) e).dated = e.dated := by
    refine dated_foldl (fun d x => ?_) l e
    exact dated_ite rfl rfl
  unfold Dev.toReady
  refine dated_ite rfl ?_
  simp only [Bool.false_eq_true, and_false, if_false]
  rw [hbump, withEng_dated, setReady_dated]

@[simp] theorem accessEnd_dated (d : Dev) (a : HeldAccess) (st : Status) (v : Nat) : (d.accessEnd a st v).dated = d.dated := by
  unfold Dev.accessEnd
  split
  · exact dated_ite (dated_ite rfl rfl) rfl
  · split
    · exact dated_ite rfl rfl
    · exact dated_ite rfl rfl
    · rfl
  · rfl
  · exact dated_ite rfl rfl

@[simp] theorem dropApers_dated (d : Dev) (p : Nat → Bool) : (d.dropApers p).dated = d.dated := by
  refine dated_foldl (fun d a => ?_) _ _
  exact dated_ite rfl rfl

@[simp] theorem resetIslandRegs_dated (d : Dev) (p : Nat → Bool) : (d.resetIslandRegs p).dated = d.dated := dated_ite rfl rfl

theorem withHeld_dated (d : Dev) (l : List HeldAccess) : ({ d with clk := { d.clk with held := l } } : Dev).dated = d.dated := rfl

theorem dieStops_dated (d : Dev) (n : DieNo) (out : Bool) : (d.dieStops n out).dated = d.dated := by
  have htackles (l : List Nat) (e : Dev) : (l.foldl (fun d t => ((d.stopTackle t).flushQueues t).unhalt t) e).dated = e.dated := by
    refine dated_foldl (fun d t => ?_) l e
    simp
  have hhold (l : List Nat) (e : Dev) : (l.foldl Dev.holdIsland e).dated = e.dated := dated_foldl holdIsland_dated l e
  have hends (l : List HeldAccess) (e : Dev) : (l.foldl (fun d a => d.accessEnd a .unitReset 0) e).dated = e.dated :=
    dated_foldl (fun d a => accessEnd_dated d a .unitReset 0) l e
  unfold Dev.dieStops
  dsimp only
  rw [resetIslandRegs_dated, dropApers_dated, hends, withHeld_dated, hhold, toReady_false_dated, dieMemLost_dated]
  have hdrop : (((dieTackles n).foldl (fun d t => ((d.stopTackle t).flushQueues t).unhalt t) d).dropClaims n).dated = d.dated := by
    rw [dropClaims_dated, htackles]
  generalize ((dieTackles n).foldl (fun d t => ((d.stopTackle t).flushQueues t).unhalt t) d).dropClaims n = e at hdrop
  split
  · rw [yardLost_dated, hdrop]
  · rw [portDieLost_dated, hdrop]
  · rw [dropDest_dated, hdrop]
  · exact (dropDest_dated e n).trans hdrop
  · exact hdrop

end Sys2Proof.Machine
end

section
/-!
Reset requests (R104–R107): the word of MST_RST_REQ, and what a request of each scope starts.
-/
namespace Sys2Proof.Machine

/-! ## The word of MST_RST_REQ -/

theorem rstReqWord_fields (scope : Nat) (flush : Bool) (key : BitVec 8) (target : BitVec 16) (h : scope < 8) :
    bits (rstReqWord scope flush key target) 0 3 = scope ∧ bit (rstReqWord scope flush key target) 3 = flush ∧
      bits (rstReqWord scope flush key target) 8 8 = key.toNat ∧ bits (rstReqWord scope flush key target) 16 16 = target.toNat := by
  have hkey := key.isLt
  have htarget := target.isLt
  have hflush : b2n flush < 2 := by cases flush <;> decide
  refine ⟨?_, ?_, ?_, ?_⟩
  · simp only [bits, rstReqWord]; omega
  · have hbit : rstReqWord scope flush key target / 2 ^ 3 % 2 = b2n flush := by simp only [rstReqWord]; omega
    rw [bit, hbit]
    cases flush <;> rfl
  · simp only [bits, rstReqWord]; omega
  · simp only [bits, rstReqWord]; omega

/-- A request with another key than 0xA5 has no effect (R106). -/
theorem resetWrite_badKey (d : Dev) (fz : Fuses) {v : Nat} (hkey : bits v 8 8 ≠ 0xA5) : d.resetWrite fz v = d := if_pos hkey

/-- Any issuer's request of scope DEVICE is taken, even while another runs (R104, R106). -/
theorem resetWrite_device (d : Dev) (fz : Fuses) {v : Nat} (hkey : bits v 8 8 = 0xA5) (hscope : bits v 0 3 = 1) :
    d.resetWrite fz v = d.deviceRequest fz (bits v 16 16) :=
  (if_neg (not_not.mpr hkey)).trans (if_pos hscope)

/-- Island `t` is reset from now on, as RST_REQ_ISLAND starts it. -/
def Dev.islandReset (d : Dev) (t : Nat) : Dev :=
  let x := (d.islandDown t).settleEpochs d (islandTackles t)
  { x with rst := { x.rst with islands := nset x.rst.islands [t] d.clk.now } }

section
variable {d : Dev} {v t : Nat} (fz : Fuses) (hkey : bits v 8 8 = 0xA5) (ht : bits v 16 16 = t)
  (hbusy : d.flag F.MST_RST_STAT_BUSY = false)
include hkey ht hbusy

/-! A request of another scope is accepted where none runs and its target is in the device (R105, R106). -/

theorem resetWrite_die (hscope : bits v 0 3 = 2) (hok : d.resetTargetOk 2 t = true) :
    d.resetWrite fz v = (d.resetAccept 2 t).dieReset (tackleDie t) := by
  simp [Dev.resetWrite, hkey, ht, hbusy, hscope, hok]

theorem resetWrite_island (hscope : bits v 0 3 = 3) (hok : d.resetTargetOk 3 t = true) :
    d.resetWrite fz v = if (d.resetAccept 3 t).islandOut t then d.resetAccept 3 t else (d.resetAccept 3 t).islandReset t := by
  simp [Dev.resetWrite, hkey, ht, hbusy, hscope, hok, Dev.islandReset]

theorem resetWrite_tackle (hscope : bits v 0 3 = 4) (hok : d.resetTargetOk 4 t = true) :
    d.resetWrite fz v = if (d.resetAccept 4 t).unitOut t then d.resetAccept 4 t else (d.resetAccept 4 t).tackleReset t (bit v 3) := by
  simp [Dev.resetWrite, hkey, ht, hbusy, hscope, hok]

end

/-! ## Departures -/

/-- Whether a unit is out of service rests on five registers. -/
theorem unitOut_congr {d e : Dev} (hr : ∀ (f : Field) (i : List Nat), f.reg = .TCK_STAT ∨ f.reg = .SAL_CORE_OK ∨ f.reg = .SAL_VEC_OK ∨
    f.reg = .BSE_VEC_OK ∨ f.reg = .MST_UNITS → e.getF f i = d.getF f i) (t : Nat) : e.unitOut t = d.unitOut t := by
  have hflag : e.flag F.TCK_STAT_MASKED [t] = d.flag F.TCK_STAT_MASKED [t] := congrArg (· == 1) (hr F.TCK_STAT_MASKED [t] (by decide))
  have hbit (f : Field) (i : List Nat) (b : Nat) (hf : f.reg = .TCK_STAT ∨ f.reg = .SAL_CORE_OK ∨ f.reg = .SAL_VEC_OK ∨
      f.reg = .BSE_VEC_OK ∨ f.reg = .MST_UNITS) : e.bitF f i b = d.bitF f i b := congrArg (bit · b) (hr f i hf)
  simp (disch := decide) only [Dev.unitOut, hflag, Dev.dieOk, hbit]

theorem resetAccept_getF (d : Dev) (scope t : Nat) (f : Field) (i : List Nat) (hf : f.reg ≠ .MST_RST_STAT) :
    (d.resetAccept scope t).getF f i = d.getF f i := by
  rw [Dev.resetAccept, getF_mk, getF_setF_reg _ _ _ _ _ _ hf.symm, raise_getF_reg _ _ _ _ _ hf.symm]

theorem resetAccept_unitOut (d : Dev) (scope t u : Nat) : (d.resetAccept scope t).unitOut u = d.unitOut u := by
  refine unitOut_congr (fun f i hf => resetAccept_getF d scope t f i ?_) u
  rintro e
  rw [e] at hf
  exact absurd hf (by decide)

theorem resetAccept_islandOut (d : Dev) (scope t g : Nat) : (d.resetAccept scope t).islandOut g = d.islandOut g := by
  have hunit : (d.resetAccept scope t).unitOut = d.unitOut := funext (resetAccept_unitOut d scope t)
  rw [Dev.islandOut, Dev.islandOut, hunit]
  rfl

/-! ## Dies and tackles -/

/-- An accepted die reset is recorded from now on. -/
theorem dieReset_dies (d : Dev) (n : DieNo) : nget? (d.dieReset n).rst.dies [n] = some d.clk.now := by
  have hstop : (if 17 ≤ n then (d.dieStops n false).raise F.BSE_STK_STAT_IN_SR [n - 17] else d.dieStops n false).dated = d.dated :=
    dated_ite (dieStops_dated d n false) (dieStops_dated d n false)
  have hnow := (dated_eq hstop).1
  unfold Dev.dieReset
  dsimp only
  generalize (if 17 ≤ n then (d.dieStops n false).raise F.BSE_STK_STAT_IN_SR [n - 17] else d.dieStops n false) = e at hnow
  have hset : nget? (nset e.rst.dies [n] e.clk.now) [n] = some d.clk.now := by rw [nget?_nset_same, hnow]
  generalize hx : ({ e with rst := { e.rst with dies := nset e.rst.dies [n] e.clk.now } } : Dev) = x
  have hrst : nget? x.rst.dies [n] = some d.clk.now := hx ▸ hset
  have hsettled := (dated_eq (settleEpochs_dated x d (dieTackles n ++ spanGroups))).2
  split_ifs
  · exact (congrArg (fun r => nget? r.dies [n]) hsettled).trans hrst
  · exact (congrArg (fun r => nget? r.dies [n]) hsettled).trans hrst

theorem setHalt_false_halted (d : Dev) (t q j : Nat) (hj : j < 4) : (d.setHalt t q false).halted t j = (d.halted t j && !decide (q = j)) := by
  by_cases h : (d.halted t q == false) = true
  · have hdo : d.setHalt t q false = d := if_pos h
    rw [hdo]
    by_cases hq : q = j
    · subst hq; simpa using h
    · simp [hq]
  · have hdo : d.setHalt t q false = (d.clrBitF F.TCK_STAT_HALTED [t] q).bumpEpoch t := if_neg h
    rw [hdo]
    exact (bitF_setF_ne _ F.TCK_STAT_EPOCH F.TCK_STAT_HALTED [t] [t] _ j (by decide)).trans (bitF_clrBitF d F.TCK_STAT_HALTED [t] q j hj)

theorem unhalt_halted (d : Dev) (t q : Nat) (hq : q < 4) : (d.unhalt t).halted t q = false := by
  have hfold (l : List Nat) (d : Dev) : (l.foldl (fun d q => d.setHalt t q false) d).halted t q = (d.halted t q && !decide (q ∈ l)) := by
    induction l generalizing d with
    | nil => simp
    | cons k l ih =>
      rw [List.foldl_cons, ih, setHalt_false_halted d t k q hq]
      by_cases hk : k = q
      · simp [hk]
      · simp [hk, Ne.symm hk]
  rw [Dev.unhalt, hfold]
  simp [hq]

/-- Settling EPOCH writes no other field. -/
theorem settleEpochs_getF (d was : Dev) (ts : List Nat) (f : Field) (i : List Nat) (hf : fieldNe F.TCK_STAT_EPOCH f = true) :
    (d.settleEpochs was ts).getF f i = d.getF f i := by
  have hfold (g : Dev → Nat → Nat) (d : Dev) : (ts.foldl (fun d t => d.setF F.TCK_STAT_EPOCH [t] (g d t)) d).getF f i = d.getF f i := by
    induction ts generalizing d with
    | nil => rfl
    | cons t l ih => exact (ih _).trans (getF_setF_ne _ _ _ _ _ _ hf)
  exact hfold _ d

/-- A tackle's reset holds it in reset with no queue halted (R108, R369). -/
theorem tackleReset_spec (d : Dev) (t : Nat) (flush : Bool) :
    (d.tackleReset t flush).tckInReset t = true ∧ ∀ q < 4, (d.tackleReset t flush).halted t q = false := by
  generalize he : (if flush then (({ d with rst := { d.rst with tackles := nset d.rst.tackles [t] d.clk.now } } : Dev).stopTackle t).flushQueues t
    else ({ d with rst := { d.rst with tackles := nset d.rst.tackles [t] d.clk.now } } : Dev).stopTackle t) = e
  have hrst : e.rst = { d.rst with tackles := nset d.rst.tackles [t] d.clk.now } := by
    subst he
    cases flush
    · exact (dated_eq (stopTackle_dated _ t)).2
    · exact (dated_eq ((flushQueues_dated _ t).trans (stopTackle_dated _ t))).2
  have hdo : d.tackleReset t flush = (e.unhalt t).settleEpochs d [t] := by rw [← he]; rfl
  rw [hdo]
  refine ⟨?reset, fun q hq => ?halted⟩
  case reset =>
    have hkept : ((e.unhalt t).settleEpochs d [t]).rst = e.rst := (dated_eq ((settleEpochs_dated _ _ _).trans (unhalt_dated e t))).2
    rw [Dev.tckInReset, hkept, hrst]
    simp
  case halted => exact (congrArg (bit · q) (settleEpochs_getF _ _ _ F.TCK_STAT_HALTED [t] (by decide))).trans (unhalt_halted e t q hq)

section
variable {s : State} {iss : Issuer} {target : BitVec 16} (hbusy : s.dev.flag F.MST_RST_STAT_BUSY = false)

include hbusy in
theorem completes_rstReqDie {n : DieNo} (hl : s.dev.lands iss .MST_RST_REQ [] (rstReqWord 2 false 0xA5 target) = true)
    (hdie : resetDie target.toNat = some n) (habs : s.dev.dieAbsent n = false) :
    Completes (.rstReqDie iss 0xA5 target) s (fun d => nget? d.rst.dies [n] = some s.dev.clk.now) := by
  obtain ⟨hscope, -, hkey, ht⟩ := rstReqWord_fields 2 false 0xA5 target (by decide)
  have hn : tackleDie target.toNat = n := by
    unfold resetDie at hdie
    split_ifs at hdie
    exact Option.some.inj hdie
  refine completes_of_lands rfl hl ?_
  show nget? (s.dev.resetWrite s.fuses _).rst.dies [n] = _
  rw [resetWrite_die s.fuses hkey ht hbusy hscope (by simp [Dev.resetTargetOk, hdie, habs]), hn]
  exact dieReset_dies _ n

include hbusy in
theorem completes_rstReqIsland (hl : s.dev.lands iss .MST_RST_REQ [] (rstReqWord 3 false 0xA5 target) = true)
    (hlo : 8 ≤ target.toNat) (hhi : target.toNat < 1520) (habs : s.dev.dieAbsent (islandDie target.toNat) = false)
    (hin : s.dev.islandOut target.toNat = false) :
    Completes (.rstReqIsland iss 0xA5 target) s (fun d => (nget? d.rst.islands [target.toNat]).isSome = true) := by
  obtain ⟨hscope, -, hkey, ht⟩ := rstReqWord_fields 3 false 0xA5 target (by decide)
  refine completes_of_lands rfl hl ?_
  show (nget? (s.dev.resetWrite s.fuses _).rst.islands [target.toNat]).isSome = true
  rw [resetWrite_island s.fuses hkey ht hbusy hscope (by simp [Dev.resetTargetOk, hlo, hhi, habs]), resetAccept_islandOut, hin]
  exact congrArg Option.isSome (nget?_nset_same _ _ _)

include hbusy in
theorem completes_rstReqTackle {flush : Bool} (hl : s.dev.lands iss .MST_RST_REQ [] (rstReqWord 4 flush 0xA5 target) = true)
    (hok : s.dev.resetTargetOk 4 target.toNat = true) (hin : s.dev.unitOut target.toNat = false) :
    Completes (.rstReqTackle iss 0xA5 target flush) s (fun d => d.tckInReset target.toNat = true ∧ ∀ q < 4, d.halted target.toNat q = false) := by
  obtain ⟨hscope, hflush, hkey, ht⟩ := rstReqWord_fields 4 flush 0xA5 target (by decide)
  refine completes_of_lands rfl hl ?_
  have hdo : s.dev.regEffect s.fuses iss .MST_RST_REQ [] (rstReqWord 4 flush 0xA5 target) =
      (s.dev.resetAccept 4 target.toNat).tackleReset target.toNat flush := by
    refine (resetWrite_tackle s.fuses hkey ht hbusy hscope hok).trans ?_
    rw [resetAccept_unitOut, hin, hflush]
    rfl
  rw [hdo]
  exact tackleReset_spec _ _ _

theorem completes_rstReqDie_badKey {key : BitVec 8} (hkey : key ≠ 0xA5)
    (hl : s.dev.lands iss .MST_RST_REQ [] (rstReqWord 2 false key target) = true) :
    Completes (.rstReqDie iss key target) s (fun d => d = s.dev) := by
  obtain ⟨-, -, hword, -⟩ := rstReqWord_fields 2 false key target (by decide)
  refine completes_of_lands rfl hl (resetWrite_badKey _ _ ?_)
  rw [hword]
  exact fun h => hkey (BitVec.eq_of_toNat_eq h)

end

end Sys2Proof.Machine
end

section
/-!
Device requests (R104, R105) and the release of a partial reset (R107).
-/
namespace Sys2Proof.Machine

/-! ## Scope DEVICE -/

theorem resetAccept_flag_other (d : Dev) (scope t : Nat) (f : Field) (i : List Nat) (hf : f.reg ≠ .MST_RST_STAT) :
    (d.resetAccept scope t).flag f i = d.flag f i := congrArg (· == 1) (resetAccept_getF d scope t f i hf)

theorem resetAccept_busy (d : Dev) (scope t : Nat) : (d.resetAccept scope t).flag F.MST_RST_STAT_BUSY = true := by
  refine (congrArg (· == 1) ?_ : _ = (1 == 1))
  exact (getF_setF_ne _ F.MST_RST_STAT_LAST_TARGET F.MST_RST_STAT_BUSY [] [] t (by decide)).trans (getF_setF_same _ _ _ _)

/-- A device request is accepted on top of what it makes of the device. -/
theorem deviceRequest_held {d : Dev} (fz : Fuses) (t : Nat) (hoff : d.clk.phase ≠ .off) (habs : d.clk.phase ≠ .refAbsent)
    (htrip : d.clk.phase ≠ .tripped) : d.deviceRequest fz t = (d.deviceReset fz F.MST_RST_CAUSE_SOFTWARE).resetAccept 1 t := by
  unfold Dev.deviceRequest
  split <;> simp_all

theorem deviceRequest_recorded {d : Dev} (fz : Fuses) (t : Nat) (hp : d.clk.phase = .refAbsent ∨ d.clk.phase = .tripped) :
    d.deviceRequest fz t = ((d.raise F.MST_RST_CAUSE_SOFTWARE).addWrap F.MST_RST_CAUSE_COUNT [] 1).resetAccept 1 t := by
  rcases hp with hp | hp <;> rw [Dev.deviceRequest, hp]

theorem emit_getF (d : Dev) (x : Out) (f : Field) (i : List Nat) : (d.emit x).getF f i = d.getF f i := rfl

theorem loseMem_getF (d : Dev) (lo hi : Nat) (f : Field) (i : List Nat) : (d.loseMem lo hi).getF f i = d.getF f i := rfl

theorem faultPin_getF (d : Dev) (f : Field) (i : List Nat) (hf : f.reg ≠ .MST_FAULT_STAT) : d.faultPin.getF f i = d.getF f i :=
  getF_setF_reg d F.MST_FAULT_STAT_ASSERTED f [] i _ hf.symm

theorem ratioEnd_getF (d : Dev) (f : Field) (i : List Nat) (hf : f.reg ≠ .PWR_SAIL_STAT) : d.ratioEnd.getF f i = d.getF f i :=
  (foldl_zero_spec F.PWR_SAIL_STAT_CHANGING (List.range 4) d).2.1 f i hf.symm

/-- A device reset shows its cause. -/
theorem deviceReset_cause (d : Dev) (fz : Fuses) : (d.deviceReset fz F.MST_RST_CAUSE_SOFTWARE).flag F.MST_RST_CAUSE_SOFTWARE = true := by
  have hcaused (e : Dev) : (((e.raise F.MST_RST_CAUSE_SOFTWARE).addWrap F.MST_RST_CAUSE_COUNT [] 1).clear F.MST_FAULT_STAT_PULSED).getF
      F.MST_RST_CAUSE_SOFTWARE = 1 := by
    rw [Dev.clear, getF_setF_reg _ _ _ _ _ _ (by decide), Dev.addWrap, getF_setF_ne _ _ _ _ _ _ (by decide), Dev.raise, getF_setF_same]
    rfl
  unfold Dev.deviceReset
  extract_lets _ caused _ held
  have hheld : held.getF F.MST_RST_CAUSE_SOFTWARE = 1 := hcaused _
  clear_value held
  rw [Dev.flag, emit_getF, faultPin_getF _ _ _ (by decide), loseMem_getF, ratioEnd_getF _ _ _ (by decide), hheld]
  rfl

theorem refShow_onlyRegs (d : Dev) : OnlyRegs d d.refShow := by
  unfold Dev.refShow
  split_ifs <;> rfl

theorem fuseRegs_onlyRegs (d : Dev) (fz : Fuses) : OnlyRegs d (d.fuseRegs fz) := rfl

/-- A device reset holds the device, empties packets and engines and forgets its memory (R104, R105). -/
theorem deviceReset_held (d : Dev) (fz : Fuses) (cause : Field) :
    (d.deviceReset fz cause).clk.phase = .held ∧ (d.deviceReset fz cause).clk.now = d.clk.now ∧ (d.deviceReset fz cause).net = NetSt.zero ∧
      (d.deviceReset fz cause).eng = EngSt.zero ∧ (d.deviceReset fz cause).mem = memLose d.mem (fun a => decide (a < 0x300020000000)) := by
  have hrange : memLose d.mem (fun a => decide (0 ≤ a) && decide (a < 0x300020000000)) = memLose d.mem (fun a => decide (a < 0x300020000000)) := by
    simp
  have hfused := fuseRegs_onlyRegs (d.stopAll keptInDevice) fz
  have hshown := refShow_onlyRegs ((d.stopAll keptInDevice).fuseRegs fz)
  have hstop : ((d.stopAll keptInDevice).fuseRegs fz).refShow.clk.now = d.clk.now ∧ ((d.stopAll keptInDevice).fuseRegs fz).refShow.net = NetSt.zero ∧
      ((d.stopAll keptInDevice).fuseRegs fz).refShow.eng = EngSt.zero ∧ ((d.stopAll keptInDevice).fuseRegs fz).refShow.mem = d.mem := by
    rw [hshown, hfused]
    exact ⟨rfl, rfl, rfl, rfl⟩
  obtain ⟨hnow, hnet, heng, hmem⟩ := hstop
  unfold Dev.deviceReset
  extract_lets shown caused _ held
  have hheld : held.clk.phase = .held ∧ held.clk.now = d.clk.now ∧ held.net = NetSt.zero ∧ held.eng = EngSt.zero ∧ held.mem = d.mem :=
    ⟨rfl, hnow, hnet, heng, hmem⟩
  clear_value held
  obtain ⟨hphase, hnow, hnet, heng, hmem⟩ := hheld
  exact ⟨hphase, hnow, hnet, heng, by rw [← hrange, ← hmem]; rfl⟩

section
variable {s : State} {iss : Issuer} (hl : s.dev.lands iss .MST_RST_REQ [] (rstReqWord 1 false 0xA5 0) = true)
include hl

theorem completes_rstReqDevice_of {d : Dev} {P : Dev → Prop} (hd : s.dev.deviceRequest s.fuses 0 = d) (hp : P d) :
    Completes (.rstReqDevice iss 0xA5) s P := by
  obtain ⟨hscope, -, hkey, ht⟩ := rstReqWord_fields 1 false 0xA5 0 (by decide)
  refine completes_of_lands rfl hl ?_
  have hdo : s.dev.regEffect s.fuses iss .MST_RST_REQ [] (rstReqWord 1 false 0xA5 0) = d := by
    refine (resetWrite_device s.dev s.fuses hkey hscope).trans ?_
    rw [ht]
    exact hd
  rw [hdo]
  exact hp

theorem completes_rstReqDevice_held (hoff : s.dev.clk.phase ≠ .off) (habs : s.dev.clk.phase ≠ .refAbsent) (htrip : s.dev.clk.phase ≠ .tripped) :
    Completes (.rstReqDevice iss 0xA5) s (fun d => d.clk.phase = .held ∧ d.flag F.MST_RST_CAUSE_SOFTWARE = true ∧
      d.flag F.MST_RST_STAT_BUSY = true ∧ d.rst.req = some ⟨1, 0, s.dev.clk.now⟩ ∧ d.net = NetSt.zero ∧ d.eng = EngSt.zero ∧
      d.mem = memLose s.dev.mem (fun a => decide (a < 0x300020000000))) := by
  have hcause := deviceReset_cause s.dev s.fuses
  obtain ⟨hphase, hnow, hnet, heng, hmem⟩ := deviceReset_held s.dev s.fuses F.MST_RST_CAUSE_SOFTWARE
  have hdo := deviceRequest_held s.fuses 0 hoff habs htrip
  generalize s.dev.deviceReset s.fuses F.MST_RST_CAUSE_SOFTWARE = e at hcause hphase hnow hnet heng hmem hdo
  refine completes_rstReqDevice_of hl hdo ⟨hphase, ?cause, resetAccept_busy e 1 0, ?req, hnet, heng, hmem⟩
  case cause => exact (resetAccept_flag_other e 1 0 _ _ (by decide)).trans hcause
  case req => exact congrArg (fun n => some (⟨1, 0, n⟩ : RstReq)) hnow

theorem completes_rstReqDevice_recorded (hp : s.dev.clk.phase = .refAbsent ∨ s.dev.clk.phase = .tripped) :
    Completes (.rstReqDevice iss 0xA5) s (fun d => d.clk = s.dev.clk ∧ d.flag F.MST_RST_CAUSE_SOFTWARE = true ∧
      d.flag F.MST_RST_STAT_BUSY = true ∧
      SameRegs s.dev d [(F.MST_RST_CAUSE_SOFTWARE, []), (F.MST_RST_CAUSE_COUNT, []), (F.MST_RST_STAT_BUSY, []), (F.MST_RST_STAT_LAST_TARGET, [])] ∧
      SameMem s.dev d) := by
  refine completes_rstReqDevice_of hl (deviceRequest_recorded s.fuses 0 hp) ⟨rfl, ?cause, resetAccept_busy _ _ _, ?regs, fun _ => rfl⟩
  case cause =>
    refine (resetAccept_flag_other _ _ _ _ _ (by decide)).trans (congrArg (· == 1) ?_ : _ = (1 == 1))
    exact (getF_setF_ne _ F.MST_RST_CAUSE_COUNT F.MST_RST_CAUSE_SOFTWARE [] [] _ (by decide)).trans (getF_setF_same _ _ _ _)
  case regs =>
    have hcause : SameRegs s.dev (s.dev.raise F.MST_RST_CAUSE_SOFTWARE)
        [(F.MST_RST_CAUSE_SOFTWARE, []), (F.MST_RST_CAUSE_COUNT, []), (F.MST_RST_STAT_BUSY, []), (F.MST_RST_STAT_LAST_TARGET, [])] :=
      sameRegs_setF (.head _) (sameRegs_refl s.dev _)
    have hcount := sameRegs_setF (v := (s.dev.raise F.MST_RST_CAUSE_SOFTWARE).getF F.MST_RST_CAUSE_COUNT + 1) (.tail _ (.head _)) hcause
    have hbusy := sameRegs_setF (v := 1) (.tail _ (.tail _ (.head _))) hcount
    exact sameRegs_of_regs (sameRegs_setF (v := 0) (.tail _ (.tail _ (.tail _ (.head _)))) hbusy) rfl

end

/-! ## Release -/

/-- The request in progress ends. -/
def Dev.endRequest (d : Dev) : Dev := { d.clear F.MST_RST_STAT_BUSY with rst := { d.rst with req := none } }

theorem endRequest_getF (d : Dev) (f : Field) (i : List Nat) (hreg : f.reg ≠ .MST_RST_STAT) : d.endRequest.getF f i = d.getF f i :=
  getF_setF_reg d F.MST_RST_STAT_BUSY f [] i 0 hreg.symm

theorem endRequest_busy (d : Dev) : d.endRequest.flag F.MST_RST_STAT_BUSY = false := flag_clear d _ _

theorem endRequest_keepsBytes (d : Dev) : KeepsBytes d d.endRequest := ⟨rfl, rfl, rfl⟩

/-- A request in progress ends: it counts as a partial reset of unit `u`, and BUSY is clear. -/
def Dev.requestDone (d : Dev) (u : Nat) : Dev :=
  (d.tdc .partReset u).endRequest

/-- Counting a choice counts it in the total. -/
theorem tdc_total (d : Dev) (c : Tdc) (u : Nat) :
    (d.tdc c u).getF F.MST_TDC_TOTAL_TOTAL = (d.getF F.MST_TDC_TOTAL_TOTAL + 1) % 2 ^ F.MST_TDC_TOTAL_TOTAL.w := by
  have hcount : ((d.addWrap F.MST_TDC_TOTAL_TOTAL [] 1).incSat F.MST_TDC_CNT_COUNT [c.code]).getF F.MST_TDC_TOTAL_TOTAL =
      (d.getF F.MST_TDC_TOTAL_TOTAL + 1) % 2 ^ F.MST_TDC_TOTAL_TOTAL.w := by
    rw [incSat_getF_reg _ _ _ _ _ (by decide), Dev.addWrap, getF_setF_same]
  unfold Dev.tdc
  dsimp only
  split_ifs
  · exact hcount
  · rw [getF_setF_reg _ _ _ _ _ _ (by decide), getF_setF_reg _ _ _ _ _ _ (by decide), getF_setF_reg _ _ _ _ _ _ (by decide),
      raise_getF_reg _ _ _ _ _ (by decide), hcount]

theorem requestDone_rst (d : Dev) (u : Nat) : (d.requestDone u).rst = { d.rst with req := none } := by
  rw [Dev.requestDone, Dev.endRequest, tdc_rst]

theorem requestDone_keepsBytes (d : Dev) (u : Nat) : KeepsBytes d (d.requestDone u) :=
  have hcount : KeepsBytes d (d.tdc .partReset u) := ⟨tdc_mem .., by rw [tdc_bank], tdc_out ..⟩
  hcount.trans (endRequest_keepsBytes _)

/-- BUSY is clear, and the choice is counted. -/
theorem requestDone_regs (d : Dev) (u : Nat) : (d.requestDone u).flag F.MST_RST_STAT_BUSY = false ∧
    (d.requestDone u).getF F.MST_TDC_TOTAL_TOTAL = (d.getF F.MST_TDC_TOTAL_TOTAL + 1) % 2 ^ F.MST_TDC_TOTAL_TOTAL.w :=
  ⟨endRequest_busy _, (endRequest_getF _ F.MST_TDC_TOTAL_TOTAL [] (by decide)).trans (tdc_total d _ u)⟩

/-- Steps of which each moves no byte together move none. -/
theorem KeepsBytes.foldl {α : Type} {f : Dev → α → Dev} (h : ∀ d x, KeepsBytes d (f d x)) (d : Dev) (l : List α) : KeepsBytes d (l.foldl f d) := by
  induction l generalizing d with
  | nil => exact .refl d
  | cons x t ih => exact (h d x).trans (ih _)

theorem settleEpochs_keepsBytes (d was : Dev) (ts : List Nat) : KeepsBytes d (d.settleEpochs was ts) :=
  .foldl (fun d _ => (KeepsBytes.refl d).setF _ _ _) d ts

/-- Tackle `t` leaves its reset. -/
def Dev.tackleFree (d : Dev) (t : Nat) : Dev :=
  ({ d with rst := { d.rst with tackles := ndel d.rst.tackles [t] } } : Dev).settleEpochs d [t]

theorem partialRelease_tackle {d : Dev} {t since : Nat} (hreq : d.rst.req = some ⟨4, t, since⟩) (hp : d.clk.phase = .running)
    (hin : d.unitOut t = false) : d.partialRelease = (d.tackleFree t).requestDone (dieUnit (faceDie t)) := by
  simp [Dev.partialRelease, hreq, hp, hin, Dev.tackleFree, Dev.requestDone, Dev.endRequest]

/-- Island `g` leaves its reset: it starts where it is in service, and the lanes of a port die take their places. -/
def Dev.islandFree (d : Dev) (g : Nat) : Dev :=
  let x : Dev := { d with rst := { d.rst with islands := ndel d.rst.islands [g] } }
  let x := (if x.islandInService g then x.startIsland g else x).settleEpochs d (islandTackles g)
  match dieClass (islandDie g) with
  | (3, p) => x.laneAssign p
  | _ => x

theorem partialRelease_island {d : Dev} {g since : Nat} (hreq : d.rst.req = some ⟨3, g, since⟩) (hp : d.clk.phase = .running)
    (hin : d.islandOut g = false) : d.partialRelease = (d.islandFree g).requestDone (dieUnit (islandDie g)) := by
  have hrun : ¬d.clk.phase ≠ .running := not_not.mpr hp
  unfold Dev.partialRelease
  rw [hreq]
  dsimp -zeta only
  rw [if_neg hrun, if_neg (by decide), if_pos rfl, if_neg (by simp [hin])]
  unfold Dev.islandFree
  extract_lets was _ freed settled placed _
  show placed.requestDone _ = _
  refine congrArg (Dev.requestDone · _) ?_
  rfl

theorem completes_release_tackle {s : State} {t since : Nat} (hreq : s.dev.rst.req = some ⟨4, t, since⟩)
    (hp : s.dev.clk.phase = .running) (hin : s.dev.unitOut t = false) :
    Completes .partialResetRelease s (fun d => d.rst.req = none ∧ d.tckInReset t = false ∧ d.flag F.MST_RST_STAT_BUSY = false ∧
      SameMem s.dev d ∧ d.getF F.MST_TDC_TOTAL_TOTAL = (s.dev.getF F.MST_TDC_TOTAL_TOTAL + 1) % 2 ^ F.MST_TDC_TOTAL_TOTAL.w) := by
  have hrst := requestDone_rst (s.dev.tackleFree t) (dieUnit (faceDie t))
  have hbytes := requestDone_keepsBytes (s.dev.tackleFree t) (dieUnit (faceDie t))
  obtain ⟨hbusy, htotal⟩ := requestDone_regs (s.dev.tackleFree t) (dieUnit (faceDie t))
  have hfree : (s.dev.tackleFree t).rst = { s.dev.rst with tackles := ndel s.dev.rst.tackles [t] } := (dated_eq (settleEpochs_dated _ s.dev [t])).2
  have hkept : (s.dev.tackleFree t).getF F.MST_TDC_TOTAL_TOTAL = s.dev.getF F.MST_TDC_TOTAL_TOTAL :=
    settleEpochs_getF _ s.dev [t] F.MST_TDC_TOTAL_TOTAL [] (by decide)
  refine completes_of_eq rfl (partialRelease_tackle hreq hp hin) ⟨by rw [hrst], ?reset, hbusy, ?mem, htotal.trans (by rw [hkept])⟩
  case reset => simp [Dev.tckInReset, hrst, hfree]
  case mem => exact sameMem_trans (settleEpochs_keepsBytes _ s.dev [t]).sameMem hbytes.sameMem

/-- A freed island in service runs, and no byte moves. -/
theorem islandFree_spec {d : Dev} {g : Nat} (hscan : d.jtag.scanned = false) (hin : d.islandInService g = true) :
    (d.islandFree g).islandOn g = true ∧ SameMem d (d.islandFree g) := by
  generalize hx : ({ d with rst := { d.rst with islands := ndel d.rst.islands [g] } } : Dev) = x
  have hserve : x.islandInService g = true := by
    rw [← hin, ← hx]
    exact islandInService_congr rfl (fun _ _ _ => rfl) g
  have hmem : SameMem d x := by
    subst hx
    exact fun _ => rfl
  have hstart : (x.startIsland g).islandOn g = true := by
    subst hx
    rw [startIsland_islandOn]
    simp only [hscan, decide_true, Bool.not_false, Bool.true_or, Bool.and_true, Bool.or_true]
  generalize hy : (x.startIsland g).settleEpochs d (islandTackles g) = y
  have hon : y.islandOn g = true := by
    rw [← hy, ← hstart]
    exact congrArg (bit · (g % 32)) (settleEpochs_getF _ _ _ F.MST_CLKON_ON _ (by decide))
  have hkept : SameMem d y := by
    subst hy
    exact sameMem_trans hmem (sameMem_trans (startIsland_touches x g).sameMem (settleEpochs_keepsBytes _ _ _).sameMem)
  have hapart : ∀ f ∈ laneFields, ¬(f.reg = F.MST_CLKON_ON.reg ∧ f.lo = F.MST_CLKON_ON.lo) := by decide
  unfold Dev.islandFree
  dsimp only
  rw [hx, if_pos hserve, hy]
  split
  next p _ =>
    have hlanes := laneAssign_touches y p
    exact ⟨(hlanes.islandOn hapart g).trans hon, sameMem_trans hkept hlanes.sameMem⟩
  · exact ⟨hon, hkept⟩

theorem completes_release_island {s : State} {g since : Nat} (hreq : s.dev.rst.req = some ⟨3, g, since⟩) (hp : s.dev.clk.phase = .running)
    (hout : s.dev.islandOut g = false) (hscan : s.dev.jtag.scanned = false) (hin : s.dev.islandInService g = true) :
    Completes .partialResetRelease s (fun d => d.rst.req = none ∧ d.islandOn g = true ∧ d.flag F.MST_RST_STAT_BUSY = false ∧ SameMem s.dev d) := by
  have hrst := requestDone_rst (s.dev.islandFree g) (dieUnit (islandDie g))
  have hbytes := requestDone_keepsBytes (s.dev.islandFree g) (dieUnit (islandDie g))
  obtain ⟨hbusy, -⟩ := requestDone_regs (s.dev.islandFree g) (dieUnit (islandDie g))
  obtain ⟨hon, hmem⟩ := islandFree_spec hscan hin
  refine completes_of_eq rfl (partialRelease_island hreq hp hout) ⟨by rw [hrst], ?on, hbusy, sameMem_trans hmem hbytes.sameMem⟩
  case on =>
    refine (congrArg (bit · (g % 32)) ?_).trans hon
    exact (endRequest_getF _ F.MST_CLKON_ON _ (by decide)).trans (tdc_getF _ _ _ _ _ (by decide))

/-- Settles O9: one lemma per scope of a request (R104, R105), one for a wrong key (R106), and one per release (R107). -/
theorem resetRequestsAndTheirRelease : Obligations.ResetRequestsAndTheirRelease := by
  unfold Obligations.ResetRequestsAndTheirRelease
  refine ⟨?device, ?recorded, ?die, ?island, ?tackle, ?badKey, ?freeTackle, ?freeIsland⟩
  case device => exact fun _ _ hl hoff habs htrip => completes_rstReqDevice_held hl hoff habs htrip
  case recorded => exact fun _ _ hl hp => completes_rstReqDevice_recorded hl hp
  case die => exact fun _ _ _ _ hl hbusy hdie habs => completes_rstReqDie hbusy hl hdie habs
  case island => exact fun _ _ _ hl hbusy hlo hhi habs hin => completes_rstReqIsland hbusy hl hlo hhi habs hin
  case tackle => exact fun _ _ _ _ hl hbusy hok hin => completes_rstReqTackle hbusy hl hok hin
  case badKey => exact fun _ _ _ _ hkey hl => completes_rstReqDie_badKey hkey hl
  case freeTackle => exact fun _ _ _ hreq hp hin => completes_release_tackle hreq hp hin
  case freeIsland => exact fun _ _ _ hreq hp hout hscan hin => completes_release_island hreq hp hout hscan hin

end Sys2Proof.Machine
end

section
/-!
Fuse programming (R112, R113): what the one register starts, and what an operation's end shows.
-/
namespace Sys2Proof.Machine

theorem fuseProgWord_fields (op : Nat) (arg : BitVec 8) (confirm : BitVec 16) (h : op < 16) :
    bits (fuseProgWord op arg confirm) 0 4 = op ∧ bits (fuseProgWord op arg confirm) 4 8 = arg.toNat ∧
      bits (fuseProgWord op arg confirm) 16 16 = confirm.toNat := by
  have harg := arg.isLt
  have hconfirm := confirm.isLt
  refine ⟨?_, ?_, ?_⟩ <;> simp only [bits, fuseProgWord] <;> omega

/-- The register's write by its three fields. -/
theorem fuseWrite_fields {d : Dev} {v op arg confirm : Nat} (hop : bits v 0 4 = op) (harg : bits v 4 8 = arg) (hconfirm : bits v 16 16 = confirm) :
    d.fuseWrite v = if d.fuseOk op arg confirm then { d.raise F.MST_SEC_FUSE_PROG_BUSY with boot := { d.boot with prog := some (op, arg) } }
      else d.raise F.MST_SEC_FUSE_PROG_FAIL := by
  subst hop harg hconfirm
  rfl

section
variable {s : State} {iss : Issuer} {op : Nat} {arg : BitVec 8}

/-- An allowed operation starts, and nothing but PROG_BUSY shows it. -/
theorem completes_fuseProg {i : Instr} (h4 : op < 16)
    (hi : exec i s = .next { s with dev := s.dev.regRow s.fuses iss .MST_FUSE_PROG [] (fuseProgWord op arg 0xF05E) })
    (hl : s.dev.lands iss .MST_FUSE_PROG [] (fuseProgWord op arg 0xF05E) = true) (hok : s.dev.fuseOk op arg.toNat 0xF05E = true) :
    Completes i s (fun d => d.flag F.MST_SEC_FUSE_PROG_BUSY = true ∧ d.boot.prog = some (op, arg.toNat) ∧
      SameRegs s.dev d [(F.MST_SEC_FUSE_PROG_BUSY, [])] ∧ SameMem s.dev d) := by
  obtain ⟨hop, harg, hconfirm⟩ := fuseProgWord_fields op arg 0xF05E h4
  obtain ⟨hbusy, hregs, -⟩ := raise_only s.dev F.MST_SEC_FUSE_PROG_BUSY [] rfl
  have hdo : s.dev.regEffect s.fuses iss .MST_FUSE_PROG [] (fuseProgWord op arg 0xF05E) =
      { s.dev.raise F.MST_SEC_FUSE_PROG_BUSY with boot := { s.dev.boot with prog := some (op, arg.toNat) } } :=
    (fuseWrite_fields hop harg hconfirm).trans (if_pos hok)
  refine completes_of_lands hi hl ?_
  rw [hdo]
  exact ⟨hbusy, rfl, sameRegs_of_regs hregs rfl, fun _ => rfl⟩

/-- Without the confirm code no operation starts. -/
theorem completes_revokeKey_unconfirmed {confirm : BitVec 16} (hne : confirm ≠ 0xF05E)
    (hl : s.dev.lands iss .MST_FUSE_PROG [] (fuseProgWord 2 arg confirm) = true) :
    Completes (.revokeKey iss arg confirm) s (fun d => d.flag F.MST_SEC_FUSE_PROG_FAIL = true ∧ d.boot = s.dev.boot ∧
      SameRegs s.dev d [(F.MST_SEC_FUSE_PROG_FAIL, [])] ∧ OnlyRegs s.dev d) := by
  obtain ⟨hop, harg, hconfirm⟩ := fuseProgWord_fields 2 arg confirm (by decide)
  obtain ⟨hfail, hregs, honly⟩ := raise_only s.dev F.MST_SEC_FUSE_PROG_FAIL [] rfl
  have hcode : confirm.toNat ≠ 0xF05E := fun h => hne (BitVec.eq_of_toNat_eq h)
  have hbad : ¬s.dev.fuseOk 2 arg.toNat confirm.toNat = true := by simp [Dev.fuseOk, hcode]
  have hdo : s.dev.regEffect s.fuses iss .MST_FUSE_PROG [] (fuseProgWord 2 arg confirm) = s.dev.raise F.MST_SEC_FUSE_PROG_FAIL :=
    (fuseWrite_fields hop harg hconfirm).trans (if_neg hbad)
  refine completes_of_lands rfl hl ?_
  rw [hdo]
  exact ⟨hfail, rfl, hregs, honly⟩

end

/-! ## The end of an operation -/

/-- MST_SEC_FUSE shows the fuses `f`, and no operation runs. -/
def Dev.showFuses (d : Dev) (f : Fuses) : Dev :=
  ((({ d with boot := { d.boot with prog := none } }.clear F.MST_SEC_FUSE_PROG_BUSY).setF F.MST_SEC_FUSE_KEY_REVOKED [] f.keyRevoked).setF
    F.MST_SEC_FUSE_SEC_VER_MIN [] f.secVerMin).setF F.MST_SEC_FUSE_DEBUG_CLOSED [] (b2n f.debugClosed)

theorem fuseDone_prog {s : State} {op arg : Nat} (h : s.dev.boot.prog = some (op, arg)) : s.fuseDone =
    { s with
      fuses := s.fuses.blow op arg
      dev := if (s.fuses.blow op arg).debugClosed then (s.dev.showFuses (s.fuses.blow op arg)).jtagClosed else s.dev.showFuses (s.fuses.blow op arg) } := by
  rw [State.fuseDone, h]
  rfl

theorem showFuses_regs (d : Dev) (f : Fuses) : (d.showFuses f).flag F.MST_SEC_FUSE_PROG_BUSY = false ∧
    (d.showFuses f).getF F.MST_SEC_FUSE_SEC_VER_MIN = f.secVerMin % 2 ^ F.MST_SEC_FUSE_SEC_VER_MIN.w ∧
    (d.showFuses f).getF F.MST_SEC_FUSE_KEY_REVOKED = f.keyRevoked % 2 ^ F.MST_SEC_FUSE_KEY_REVOKED.w ∧
    (d.showFuses f).flag F.MST_SEC_FUSE_DEBUG_CLOSED = f.debugClosed := by
  unfold Dev.showFuses
  generalize ({ d with boot := { d.boot with prog := none } } : Dev) = e
  refine ⟨?busy, ?version, ?keys, ?closed⟩
  case busy =>
    rw [Dev.flag, getF_setF_ne _ _ _ _ _ _ (by decide), getF_setF_ne _ _ _ _ _ _ (by decide), getF_setF_ne _ _ _ _ _ _ (by decide)]
    exact flag_clear e _ _
  case version => rw [getF_setF_ne _ _ _ _ _ _ (by decide), getF_setF_same]
  case keys => rw [getF_setF_ne _ _ _ _ _ _ (by decide), getF_setF_ne _ _ _ _ _ _ (by decide), getF_setF_same]
  case closed =>
    rw [Dev.flag, getF_setF_same]
    cases f.debugClosed <;> rfl

/-- Closing the JTAG port writes neither registers nor memory. -/
theorem fuseDone_dev {s : State} {op arg : Nat} (h : s.dev.boot.prog = some (op, arg)) :
    s.fuseDone.dev.regs = (s.dev.showFuses (s.fuses.blow op arg)).regs ∧ s.fuseDone.dev.boot.prog = none ∧ SameMem s.dev s.fuseDone.dev := by
  rw [fuseDone_prog h]
  dsimp only
  split_ifs <;> exact ⟨rfl, rfl, fun _ => rfl⟩

theorem exec_fuseProgDone {s : State} {op arg : Nat} (h : s.dev.boot.prog = some (op, arg)) :
    ∃ t, exec .fuseProgDone s = .next t ∧ t.pending = s.pending ∧ t.fuses = s.fuses.blow op arg ∧ t.dev.boot.prog = none ∧
      t.dev.flag F.MST_SEC_FUSE_PROG_BUSY = false ∧
      t.dev.getF F.MST_SEC_FUSE_SEC_VER_MIN = t.fuses.secVerMin % 2 ^ F.MST_SEC_FUSE_SEC_VER_MIN.w ∧
      t.dev.getF F.MST_SEC_FUSE_KEY_REVOKED = t.fuses.keyRevoked % 2 ^ F.MST_SEC_FUSE_KEY_REVOKED.w ∧
      t.dev.flag F.MST_SEC_FUSE_DEBUG_CLOSED = t.fuses.debugClosed ∧ SameMem s.dev t.dev := by
  obtain ⟨hregs, hprog, hmem⟩ := fuseDone_dev h
  obtain ⟨hbusy, hversion, hkeys, hclosed⟩ := showFuses_regs s.dev (s.fuses.blow op arg)
  have hget (f : Field) (i : List Nat) : s.fuseDone.dev.getF f i = (s.dev.showFuses (s.fuses.blow op arg)).getF f i := by
    rw [Dev.getF, Dev.getF, hregs]
  have hfuses : s.fuseDone.fuses = s.fuses.blow op arg := by rw [fuseDone_prog h]
  have hpending : s.fuseDone.pending = s.pending := by rw [fuseDone_prog h]
  refine ⟨s.fuseDone, rfl, hpending, hfuses, hprog, ?busy, ?version, ?keys, ?closed, hmem⟩
  case busy => rw [Dev.flag, hget]; exact hbusy
  case version => rw [hget, hfuses]; exact hversion
  case keys => rw [hget, hfuses]; exact hkeys
  case closed => rw [Dev.flag, hget, hfuses]; exact hclosed

/-- Settles O10: each of the three operations is one allowed write of the register, and FUSE_PROG_DONE ends any of them (R112, R113). -/
theorem fusesAreProgrammedThroughOneRegister : Obligations.FusesAreProgrammedThroughOneRegister := by
  unfold Obligations.FusesAreProgrammedThroughOneRegister
  refine ⟨?raiseVersion, ?revokeKey, ?debugClose, ?unconfirmed, ?done⟩
  case raiseVersion =>
    intro s iss arg hl hbusy hlo hver hhi
    exact completes_fuseProg (by decide) rfl hl (by simp [Dev.fuseOk, hbusy, hlo, hver, hhi])
  case revokeKey =>
    intro s iss arg hl hbusy harg
    exact completes_fuseProg (by decide) rfl hl (by simp [Dev.fuseOk, hbusy, harg])
  case debugClose =>
    intro s iss arg hl hbusy
    exact completes_fuseProg (by decide) rfl hl (by simp [Dev.fuseOk, hbusy])
  case unconfirmed => exact fun _ _ _ _ hne hl => completes_revokeKey_unconfirmed hne hl
  case done => exact fun _ _ _ h => exec_fuseProgDone h

end Sys2Proof.Machine
end

section
/-!
Host ports (R102, R109, R133): what the reset of a port discards, its release, and its link.
-/
namespace Sys2Proof.Machine

/-! ## No byte moves -/

theorem KeepsBytes.ite {c : Prop} [Decidable c] {d x y : Dev} (hx : KeepsBytes d x) (hy : KeepsBytes d y) :
    KeepsBytes d (if c then x else y) := by split_ifs <;> assumption

theorem traceGoes_keepsBytes (d : Dev) (w : Option (Nat × Nat)) : KeepsBytes d (d.traceGoes w) := by
  unfold Dev.traceGoes
  split
  · split
    · exact .ite ⟨rfl, rfl, rfl⟩ (.refl d)
    · exact .refl d
  · exact .refl d

theorem ringEmptied_keepsBytes (d : Dev) (i : List Nat) : KeepsBytes d (d.ringEmptied i) := by
  unfold Dev.ringEmptied
  extract_lets mine gone bufs waits _ _ emptied counted passed
  have hemptied : KeepsBytes d emptied := ⟨rfl, rfl, rfl⟩
  have hcounted : KeepsBytes emptied counted := by
    refine .foldl (fun d r => ?_) emptied bufs
    exact ⟨rfl, rfl, rfl⟩
  have hpassed : KeepsBytes counted passed := by
    refine .foldl (fun d r => ?_) counted waits
    have hcount : KeepsBytes d (d.incSat F.TRC_DISCARD_COUNT [r.1]) := ⟨rfl, rfl, rfl⟩
    exact hcount.trans (traceGoes_keepsBytes _ r.2.2)
  exact ((hemptied.trans hcounted).trans hpassed).setF _ _ _

theorem functionReset_keepsBytes (d : Dev) (x f : Nat) : KeepsBytes d (d.functionReset x f) := by
  unfold Dev.functionReset
  extract_lets voided emptied
  have hvoided : KeepsBytes d voided := by
    refine .foldl (fun d r => ?_) d _
    split
    · exact ⟨rfl, rfl, rfl⟩
    · exact .refl d
  have hemptied : KeepsBytes voided emptied := by
    refine .foldl (fun d q => ?_) voided _
    have hring := ringEmptied_keepsBytes (d.setF F.HST_RR_STAT_STATE [x, f, q] 2) [x, f, q]
    exact .ite (((KeepsBytes.refl d).setF _ _ _).trans hring) (.refl d)
  clear_value emptied
  exact (hvoided.trans hemptied).trans ⟨rfl, rfl, rfl⟩

theorem indAbort_keepsBytes (d : Dev) (x : Nat) : KeepsBytes d (d.indAbort x) := .ite ⟨rfl, rfl, rfl⟩ (.refl d)

/-! ## A port's island goes into reset -/

/-- The reset of a port's page discards what waited at the port, and moves no byte. -/
theorem portPageReset_spec (d : Dev) (x : Nat) : nget? (d.portPageReset x false).host.posted [x] = none ∧
    nget? (d.portPageReset x false).host.ind [x] = none ∧ KeepsBytes d (d.portPageReset x false) := by
  have habort := indAbort_keepsBytes d x
  unfold Dev.portPageReset
  generalize d.indAbort x = aborted at habort
  exact ⟨nget?_ndel_same _ _, nget?_ndel_same _ _, habort.trans ⟨rfl, rfl, rfl⟩⟩

/-- Port `x` is not READY and its island is held in reset. -/
def Dev.portHeld (d : Dev) (x : Nat) : Dev :=
  { (d.clrBitF F.MST_READY_HOST [] x).holdIsland (1 + x) with host := { d.host with upSince := ndel d.host.upSince [x] } }

theorem portHeld_regs (d : Dev) (x : Nat) : (d.portHeld x).regs = ((d.clrBitF F.MST_READY_HOST [] x).holdIsland (1 + x)).regs := rfl

theorem portHeld_islandOn (d : Dev) (x : Nat) : (d.portHeld x).islandOn (1 + x) = false := by
  rw [islandOn_of_regs (portHeld_regs d x), holdIsland_islandOn]
  simp

theorem portHeld_notReady (d : Dev) {x : Nat} (hx : x < 4) : (d.portHeld x).bitF F.MST_READY_HOST [] x = false := by
  have hheld : (d.portHeld x).bitF F.MST_READY_HOST [] x = (d.clrBitF F.MST_READY_HOST [] x).bitF F.MST_READY_HOST [] x :=
    bitF_setF_ne _ F.MST_CLKON_ON F.MST_READY_HOST _ [] _ x (by decide)
  rw [hheld, bitF_clrBitF _ F.MST_READY_HOST _ _ _ hx]
  simp

theorem portHeld_keepsBytes (d : Dev) (x : Nat) : KeepsBytes d (d.portHeld x) := ⟨rfl, rfl, rfl⟩

/-- Functions, page and island of port `x` are reset. -/
def Dev.portHotReset (d : Dev) (x : Nat) : Dev :=
  (((List.range 17).foldl (fun d f => d.functionReset x f) d).portPageReset x false).portHeld x

theorem hostPortReset_hot {d : Dev} {x : Nat} (f : Nat) (h : d.islandOn (1 + x) = true) : d.hostPortReset x 1 f = d.portHotReset x := by
  unfold Dev.hostPortReset
  rw [if_neg (fun hflr => absurd hflr.1 (by decide))]
  extract_lets _ e
  have he : e = d := if_neg (by decide)
  clear_value e
  subst he
  exact (if_pos h).trans (if_neg (by decide))

theorem pageReset_portHeld_spec (d : Dev) {x : Nat} (hx : x < 4) :
    ((d.portPageReset x false).portHeld x).islandOn (1 + x) = false ∧ ((d.portPageReset x false).portHeld x).bitF F.MST_READY_HOST [] x = false ∧
      nget? ((d.portPageReset x false).portHeld x).host.posted [x] = none ∧ nget? ((d.portPageReset x false).portHeld x).host.ind [x] = none ∧
      KeepsBytes d ((d.portPageReset x false).portHeld x) := by
  obtain ⟨hposted, hind, hpage⟩ := portPageReset_spec d x
  exact ⟨portHeld_islandOn _ x, portHeld_notReady _ hx, hposted, hind, hpage.trans (portHeld_keepsBytes _ x)⟩

theorem functionsReset_keepsBytes (d : Dev) (x : Nat) (l : List Nat) : KeepsBytes d (l.foldl (fun d f => d.functionReset x f) d) :=
  .foldl (fun d f => functionReset_keepsBytes d x f) d l

theorem portHotReset_spec (d : Dev) {x : Nat} (hx : x < 4) :
    (d.portHotReset x).islandOn (1 + x) = false ∧ (d.portHotReset x).bitF F.MST_READY_HOST [] x = false ∧
      nget? (d.portHotReset x).host.posted [x] = none ∧ nget? (d.portHotReset x).host.ind [x] = none ∧ SameMem d (d.portHotReset x) := by
  obtain ⟨hon, hready, hposted, hind, hheld⟩ := pageReset_portHeld_spec ((List.range 17).foldl (fun d f => d.functionReset x f) d) hx
  exact ⟨hon, hready, hposted, hind, ((functionsReset_keepsBytes d x (List.range 17)).trans hheld).sameMem⟩

theorem completes_hostPortReset_hot {s : State} {x : Fin 4} (f : Fin 17) (hon : s.dev.islandOn (1 + x.val) = true) :
    Completes (.hostPortReset x .hot f) s (fun d => d.islandOn (1 + x.val) = false ∧ d.bitF F.MST_READY_HOST [] x.val = false ∧
      nget? d.host.posted [x.val] = none ∧ nget? d.host.ind [x.val] = none ∧ SameMem s.dev d) :=
  completes_of_eq rfl (hostPortReset_hot f.val hon) (portHotReset_spec s.dev x.isLt)

/-! ## Release and link -/

/-- PERST of port `x` has risen. -/
def Dev.perstUp (d : Dev) (x : Nat) : Dev := { d with host := { d.host with perst := nput false d.host.perst [x] true } }

theorem hostPortRelease_running {d : Dev} {x : Nat} (hp : d.clk.phase = .running) (hh : d.headless = false) (hoff : d.islandOn (1 + x) = false) :
    d.hostPortRelease x = { (d.perstUp x).startIsland (1 + x) with
      host := { (d.perstUp x).host with upSince := nset d.host.upSince [x] d.clk.now } } := by
  unfold Dev.hostPortRelease
  rw [if_neg (by simp [hp])]
  extract_lets _ e
  have hwait : ¬(e.headless = true ∨ e.islandOn (1 + x) = true) := not_or.mpr ⟨ne_true_of_eq_false hh, ne_true_of_eq_false hoff⟩
  have hrunning : e.clk.phase = .running := hp
  split
  · exact if_neg hwait
  · exact if_neg hwait
  · simp_all

theorem completes_hostPortResetRelease {s : State} {x : Fin 4} (hp : s.dev.clk.phase = .running) (hh : s.dev.headless = false)
    (hoff : s.dev.islandOn (1 + x.val) = false) (hscan : s.dev.jtag.scanned = false) :
    Completes (.hostPortResetRelease x) s (fun d => d.islandOn (1 + x.val) = true ∧ nget? d.host.upSince [x.val] = some s.dev.clk.now ∧
      SameRegs s.dev d [(F.MST_CLKON_ON, [0])] ∧ SameMem s.dev d) := by
  have hrow : (1 + x.val) / 32 = 0 := by omega
  have hdo := hostPortRelease_running hp hh hoff
  have hstart : ((s.dev.perstUp x.val).startIsland (1 + x.val)).regs = (s.dev.setBitF F.MST_CLKON_ON [0] ((1 + x.val) % 32)).regs := by
    rw [Dev.startIsland, if_neg (by simp [Dev.perstUp, hscan]), hrow]
    rfl
  have hmem : SameMem s.dev ((s.dev.perstUp x.val).startIsland (1 + x.val)) :=
    sameMem_trans (fun _ => rfl) (startIsland_touches (s.dev.perstUp x.val) (1 + x.val)).sameMem
  have hon : ((s.dev.perstUp x.val).startIsland (1 + x.val)).islandOn (1 + x.val) = true := by
    rw [startIsland_islandOn]
    simp [Dev.perstUp, hscan]
  generalize (s.dev.perstUp x.val).startIsland (1 + x.val) = started at hdo hstart hmem hon
  refine completes_of_eq rfl hdo ⟨hon, nget?_nset_same _ _ _, ?regs, hmem⟩
  case regs => exact sameRegs_of_regs (sameRegs_setF (.head _) (sameRegs_refl s.dev _)) hstart

/-- Which functions of port `x` host software has put in D3hot. -/
def d3Map (m : NMap Bool) (x : Nat) (d3hot : List Nat) (l : List Nat) : NMap Bool :=
  l.foldl (fun m f => nput false m [x, f] (d3hot.contains f)) m

theorem nget_d3Map (m : NMap Bool) (x : Nat) (d3hot l : List Nat) (f : Nat) :
    nget false (d3Map m x d3hot l) [x, f] = if f ∈ l then d3hot.contains f else nget false m [x, f] := by
  induction l generalizing m with
  | nil => rfl
  | cons g t ih =>
    refine (ih _).trans ?_
    by_cases hg : g = f
    · subst hg
      simp
    · rw [nget_nput_ne _ _ (by simpa using hg)]
      simp [Ne.symm hg]

/-- The link of port `x` shows. -/
def Dev.linkShown (d : Dev) (x rate width : Nat) (flit : Bool) (vfs : Nat) : Dev :=
  ((((d.raise F.HST_PORT_STAT_LINK_UP [x]).setF F.HST_PORT_STAT_RATE [x] rate).setF F.HST_PORT_STAT_WIDTH [x] width).setF F.HST_PORT_STAT_FLIT [x]
    (b2n flit)).setF F.HST_PORT_STAT_NUM_VF [x] vfs

theorem pcieLinkUp_on {d : Dev} {x : Nat} (rate width : Nat) (flit : Bool) (vfs : Nat) (d3hot : List Nat) (h : d.islandOn (1 + x) = true) :
    d.pcieLinkUp x rate width flit vfs d3hot =
      { d.linkShown x rate width flit vfs with host := { d.host with d3 := d3Map d.host.d3 x d3hot (List.range 17) } } := if_pos h

theorem linkShown_sameRegs (d : Dev) (x rate width : Nat) (flit : Bool) (vfs : Nat) :
    SameRegs d (d.linkShown x rate width flit vfs) [(F.HST_PORT_STAT_LINK_UP, [x]), (F.HST_PORT_STAT_RATE, [x]), (F.HST_PORT_STAT_WIDTH, [x]),
      (F.HST_PORT_STAT_FLIT, [x]), (F.HST_PORT_STAT_NUM_VF, [x])] := by
  refine sameRegs_setF ?_ (sameRegs_setF ?_ (sameRegs_setF ?_ (sameRegs_setF ?_ (sameRegs_setF ?_ (sameRegs_refl d _))))) <;> simp

theorem linkShown_regs (d : Dev) {x rate width vfs : Nat} (flit : Bool) (hrate : rate < 8) (hwidth : width < 16) (hvfs : vfs < 32) :
    (d.linkShown x rate width flit vfs).flag F.HST_PORT_STAT_LINK_UP [x] = true ∧
    (d.linkShown x rate width flit vfs).getF F.HST_PORT_STAT_RATE [x] = rate ∧
    (d.linkShown x rate width flit vfs).getF F.HST_PORT_STAT_WIDTH [x] = width ∧
    (d.linkShown x rate width flit vfs).flag F.HST_PORT_STAT_FLIT [x] = flit ∧
    (d.linkShown x rate width flit vfs).getF F.HST_PORT_STAT_NUM_VF [x] = vfs := by
  unfold Dev.linkShown
  refine ⟨?up, ?rate, ?width, ?flit, ?functions⟩
  case up =>
    simp (disch := decide) only [Dev.flag, getF_setF_ne]
    exact flag_raise d F.HST_PORT_STAT_LINK_UP [x] rfl
  case rate =>
    simp (disch := decide) only [getF_setF_ne, getF_setF_same]
    exact Nat.mod_eq_of_lt hrate
  case width =>
    simp (disch := decide) only [getF_setF_ne, getF_setF_same]
    exact Nat.mod_eq_of_lt hwidth
  case flit =>
    simp (disch := decide) only [Dev.flag, getF_setF_ne, getF_setF_same]
    cases flit <;> rfl
  case functions =>
    rw [getF_setF_same]
    exact Nat.mod_eq_of_lt hvfs

theorem completes_pcieLinkUp {s : State} {x : Fin 4} {rate : BitVec 3} {width : BitVec 4} {flit : Bool} {vfs : Fin 17} {d3 : List (Fin 17)}
    (hon : s.dev.islandOn (1 + x.val) = true) (hok : linkOk rate width flit = true) :
    Completes (.pcieLinkUp x rate width flit ⟨vfs, d3⟩) s (fun d => d.flag F.HST_PORT_STAT_LINK_UP [x.val] = true ∧
      d.getF F.HST_PORT_STAT_RATE [x.val] = rate.toNat ∧ d.getF F.HST_PORT_STAT_WIDTH [x.val] = width.toNat ∧
      d.flag F.HST_PORT_STAT_FLIT [x.val] = flit ∧ d.getF F.HST_PORT_STAT_NUM_VF [x.val] = vfs.val ∧
      SameRegs s.dev d [(F.HST_PORT_STAT_LINK_UP, [x.val]), (F.HST_PORT_STAT_RATE, [x.val]), (F.HST_PORT_STAT_WIDTH, [x.val]),
        (F.HST_PORT_STAT_FLIT, [x.val]), (F.HST_PORT_STAT_NUM_VF, [x.val])] ∧
      (∀ f : Fin 17, d.fnOn x.val f.val = (decide (f.val ≤ vfs.val) && !d3.contains f)) ∧
      d = { s.dev with regs := d.regs, host := { s.dev.host with d3 := d.host.d3 } }) := by
  have hdo := pcieLinkUp_on rate.toNat width.toNat flit vfs.val (d3.map (·.val)) hon
  have hregs := linkShown_sameRegs s.dev x.val rate.toNat width.toNat flit vfs.val
  obtain ⟨hup, hrate, hwidth, hflit, hvfs⟩ := linkShown_regs s.dev (x := x.val) flit rate.isLt width.isLt (by omega : vfs.val < 32)
  refine completes_of_updIf rfl hok ?_
  rw [hdo]
  refine ⟨hup, hrate, hwidth, hflit, hvfs, sameRegs_of_regs hregs rfl, fun f => ?_, rfl⟩
  have hd3 : nget false (d3Map s.dev.host.d3 x.val (d3.map (·.val)) (List.range 17)) [x.val, f.val] = d3.contains f := by
    rw [nget_d3Map, if_pos (List.mem_range.mpr f.isLt)]
    simp [Fin.val_inj]
  show ((f.val == 0 || decide (f.val ≤ (s.dev.linkShown x.val rate.toNat width.toNat flit vfs.val).getF F.HST_PORT_STAT_NUM_VF [x.val])) &&
    !nget false (d3Map s.dev.host.d3 x.val (d3.map (·.val)) (List.range 17)) [x.val, f.val]) = _
  rw [hvfs, hd3]
  by_cases hf : f.val = 0
  · simp [hf]
  · simp only [beq_eq_false_iff_ne.mpr hf, Bool.false_or]

/-- Settles O12: the hot reset by what each of its parts discards (R109, R133), the release and the link by the registers they write (R102). -/
theorem hostPortsResetAndLinkUp : Obligations.HostPortsResetAndLinkUp := by
  unfold Obligations.HostPortsResetAndLinkUp
  refine ⟨?reset, ?release, ?link⟩
  case reset => exact fun _ _ f hon => completes_hostPortReset_hot f hon
  case release => exact fun _ _ hp hh hoff hscan => completes_hostPortResetRelease hp hh hoff hscan
  case link => exact fun _ _ _ _ _ _ _ hon hok => completes_pcieLinkUp hon hok

end Sys2Proof.Machine
end

section
/-!
Boot, readiness and the stacks' test (R98–R103, R350).
-/
namespace Sys2Proof.Machine

/-! ## Images -/

/-- A slot's check answers one of the eight causes of R99, which the cause fields can hold. -/
theorem slotCheck_lt (rd : Nat → Nat → List Byte) (fz : Fuses) (secMin : Nat) : slotCheck rd fz secMin < 16 := by
  unfold slotCheck
  dsimp only
  split_ifs <;> decide

theorem startImage_result (d : Dev) (rd : Nat → Nat → List Byte) {r : Nat} (hr : r < 16) : (d.startImage rd r).getF F.MST_BOOT_STAT_RESULT = r := by
  unfold Dev.startImage
  dsimp only
  rw [getF_mk, getF_setF_ne _ _ _ _ _ _ (by decide), getF_setF_ne _ _ _ _ _ _ (by decide), getF_setF_same]
  exact Nat.mod_eq_of_lt hr

/-- Starting an image writes none of the cause fields. -/
theorem startImage_cause (d : Dev) (rd : Nat → Nat → List Byte) (r : Nat) (f : Field) (hresult : fieldNe F.MST_BOOT_STAT_RESULT f = true)
    (hver : fieldNe F.MST_BOOT_STAT_SEC_VER f = true) (hslot : fieldNe F.MST_BOOT_STAT_KEY_SLOT f = true) :
    (d.startImage rd r).getF f = d.getF f := by
  unfold Dev.startImage
  dsimp only
  rw [getF_mk, getF_setF_ne _ _ _ _ _ _ hslot, getF_setF_ne _ _ _ _ _ _ hver, getF_setF_ne _ _ _ _ _ _ hresult]

theorem startImage_keepsBytes (d : Dev) (rd : Nat → Nat → List Byte) (r : Nat) : KeepsBytes d (d.startImage rd r) := ⟨rfl, rfl, rfl⟩

/-- Reading the flash rests on its contents alone. -/
theorem flashRead_congr {d e : Dev} (h : e.boot.flash = d.boot.flash) (a n : Nat) : e.flashRead a n = d.flashRead a n := by
  simp only [Dev.flashRead, Dev.flashByte, h]

/-- The reader of slot A, and that of slot B. -/
def Dev.slotA (d : Dev) : Nat → Nat → List Byte := fun o n => d.flashRead o n
def Dev.slotB (d : Dev) : Nat → Nat → List Byte := fun o n => d.flashRead (0x800000 + o) n

/-- The boot has started. -/
def Dev.bootBegun (d : Dev) : Dev := { d with boot := { d.boot with started := true } }

theorem secureBoot_eq {d : Dev} (fz : Fuses) (hs : d.boot.started = false) (hon : d.islandOn 7 = true) :
    d.secureBoot fz false false =
      (let a := slotCheck d.slotA fz (d.getF F.MST_SEC_FUSE_SEC_VER_MIN)
       let b := slotCheck d.slotB fz (d.getF F.MST_SEC_FUSE_SEC_VER_MIN)
       if a = 0 then d.bootBegun.startImage d.slotA 1
       else if b = 0 then (d.bootBegun.setF F.MST_BOOT_STAT_FAIL_A [] a).startImage d.slotB 2
       else ((d.bootBegun.setF F.MST_BOOT_STAT_FAIL_A [] a).setF F.MST_BOOT_STAT_FAIL_B [] b).setF F.MST_BOOT_STAT_RESULT [] 4) := by
  unfold Dev.secureBoot
  rw [if_neg (by simp [hs, hon])]
  extract_lets _ e ver causeA failed causeB a b
  have hflash : failed.boot.flash = d.boot.flash := rfl
  have hslotA : (fun o n => e.flashRead o n) = d.slotA := funext₂ fun o n => flashRead_congr rfl o n
  have hslotB : (fun o n => failed.flashRead (0x800000 + o) n) = d.slotB := by
    funext o n
    exact flashRead_congr hflash (0x800000 + o) n
  have ha : causeA = a := by
    show (if false = true then 8 else slotCheck (fun o n => e.flashRead o n) fz ver) = _
    rw [if_neg Bool.false_ne_true, hslotA]
    rfl
  have hb : causeB = b := by
    show (if false = true then 8 else slotCheck (fun o n => failed.flashRead (0x800000 + o) n) fz ver) = _
    rw [if_neg Bool.false_ne_true, hslotB]
    rfl
  have hfailed : failed = d.bootBegun.setF F.MST_BOOT_STAT_FAIL_A [] a := congrArg (fun c => e.setF F.MST_BOOT_STAT_FAIL_A [] c) ha
  rw [hslotA, hslotB, ha, hb, hfailed]
  rfl

theorem completes_secureBoot {s : State} (hs : s.dev.boot.started = false) (hon : s.dev.islandOn 7 = true) :
    Completes (.secureBoot false false) s (fun d =>
      ∀ a b, a = slotCheck (fun o n => s.dev.flashRead o n) s.fuses (s.dev.getF F.MST_SEC_FUSE_SEC_VER_MIN) →
        b = slotCheck (fun o n => s.dev.flashRead (0x800000 + o) n) s.fuses (s.dev.getF F.MST_SEC_FUSE_SEC_VER_MIN) →
        (a = 0 → d.getF F.MST_BOOT_STAT_RESULT = 1 ∧ d.boot.image.isSome = true) ∧
        (a ≠ 0 → d.getF F.MST_BOOT_STAT_FAIL_A = a ∧ (b = 0 → d.getF F.MST_BOOT_STAT_RESULT = 2 ∧ d.boot.image.isSome = true) ∧
          (b ≠ 0 → d.getF F.MST_BOOT_STAT_FAIL_B = b ∧ d.getF F.MST_BOOT_STAT_RESULT = 4 ∧ d.boot.image = s.dev.boot.image)) ∧ SameMem s.dev d) := by
  refine completes_of_eq rfl (secureBoot_eq s.fuses hs hon) ?_
  intro a b ha hb
  have haLt : a < 16 := ha ▸ slotCheck_lt _ _ _
  have hbLt : b < 16 := hb ▸ slotCheck_lt _ _ _
  have hslotA : slotCheck s.dev.slotA s.fuses (s.dev.getF F.MST_SEC_FUSE_SEC_VER_MIN) = a := ha.symm
  have hslotB : slotCheck s.dev.slotB s.fuses (s.dev.getF F.MST_SEC_FUSE_SEC_VER_MIN) = b := hb.symm
  rw [hslotA, hslotB]
  have hbegun : KeepsBytes s.dev s.dev.bootBegun := ⟨rfl, rfl, rfl⟩
  clear ha hb hslotA hslotB
  dsimp only
  split_ifs with h0 h1
  · exact ⟨fun _ => ⟨startImage_result _ _ (by decide), rfl⟩, fun h => absurd h0 h, (hbegun.trans (startImage_keepsBytes _ _ _)).sameMem⟩
  · refine ⟨fun h => absurd h h0, fun _ => ⟨?causeA, fun _ => ⟨startImage_result _ _ (by decide), rfl⟩, fun h => absurd h1 h⟩, ?mem⟩
    case causeA =>
      refine (startImage_cause _ _ _ F.MST_BOOT_STAT_FAIL_A (by decide) (by decide) (by decide)).trans ?_
      exact (getF_setF_same _ _ _ _).trans (Nat.mod_eq_of_lt haLt)
    case mem => exact ((hbegun.setF _ _ _).trans (startImage_keepsBytes _ _ _)).sameMem
  · refine ⟨fun h => absurd h h0, fun _ => ⟨?causeA, fun h => absurd h h1, fun _ => ⟨?causeB, getF_setF_same _ _ _ _, rfl⟩⟩, ?mem⟩
    case causeA =>
      rw [getF_setF_ne _ _ _ _ _ _ (by decide), getF_setF_ne _ _ _ _ _ _ (by decide), getF_setF_same]
      exact Nat.mod_eq_of_lt haLt
    case causeB =>
      rw [getF_setF_ne _ _ _ _ _ _ (by decide), getF_setF_same]
      exact Nat.mod_eq_of_lt hbLt
    case mem => exact (((hbegun.setF _ _ _).setF _ _ _).setF _ _ _).sameMem

/-! ## Recovery -/

theorem completes_recoveryWindowWrite {s : State} {iss : Issuer} {w : Fin 1048576} {v : BitVec 32}
    (hl : s.dev.lands iss .MST_RECOVERY [w.val] v.toNat = true) :
    Completes (.recoveryWindowWrite iss w v) s (fun d => d.getF F.MST_RECOVERY_WORD [w.val] = v.toNat ∧
      SameRegs s.dev d [(F.MST_RECOVERY_WORD, [w.val])] ∧ OnlyRegs s.dev d) := by
  refine completes_of_lands rfl hl ?_
  have hdo : s.dev.regEffect s.fuses iss .MST_RECOVERY [w.val] v.toNat = s.dev.setF F.MST_RECOVERY_WORD [w.val] v.toNat := rfl
  rw [hdo]
  exact ⟨(getF_setF_same _ _ _ _).trans (Nat.mod_eq_of_lt v.isLt), sameRegs_setF (.head _) (sameRegs_refl s.dev _), rfl⟩

/-- The recovery window's check, and what it starts. -/
theorem recoveryGo_waiting {d : Dev} (fz : Fuses) (h : d.getF F.MST_BOOT_STAT_RESULT = 4) :
    d.recoveryGo fz =
      (let c := slotCheck d.windowRead fz (d.getF F.MST_SEC_FUSE_SEC_VER_MIN)
       if c = 0 then (d.setF F.MST_BOOT_STAT_FAIL_REC [] c).startImage (d.setF F.MST_BOOT_STAT_FAIL_REC [] c).windowRead 3
       else d.setF F.MST_BOOT_STAT_FAIL_REC [] c) := if_pos h

theorem completes_recoveryGo {s : State} {iss : Issuer} (hl : s.dev.lands iss .MST_BOOT_CTRL [] 1 = true)
    (hwait : s.dev.getF F.MST_BOOT_STAT_RESULT = 4) :
    Completes (.recoveryGo iss) s (fun d => ∀ c, c = slotCheck s.dev.windowRead s.fuses (s.dev.getF F.MST_SEC_FUSE_SEC_VER_MIN) →
      d.getF F.MST_BOOT_STAT_FAIL_REC = c ∧ (c = 0 → d.getF F.MST_BOOT_STAT_RESULT = 3 ∧ d.boot.image.isSome = true) ∧
      (c ≠ 0 → d.getF F.MST_BOOT_STAT_RESULT = 4 ∧ d.boot.image = s.dev.boot.image) ∧ SameMem s.dev d) := by
  refine completes_of_lands rfl hl ?_
  intro c hc
  have hcLt : c < 16 := hc ▸ slotCheck_lt _ _ _
  have hdo : s.dev.regEffect s.fuses iss .MST_BOOT_CTRL [] 1 = s.dev.recoveryGo s.fuses := rfl
  rw [hdo, recoveryGo_waiting s.fuses hwait, ← hc]
  clear hc hdo
  have hcause : (s.dev.setF F.MST_BOOT_STAT_FAIL_REC [] c).getF F.MST_BOOT_STAT_FAIL_REC = c :=
    (getF_setF_same _ _ _ _).trans (Nat.mod_eq_of_lt hcLt)
  have hkept : KeepsBytes s.dev (s.dev.setF F.MST_BOOT_STAT_FAIL_REC [] c) := (KeepsBytes.refl s.dev).setF _ _ _
  dsimp only
  split_ifs with h0
  · refine ⟨?cause, fun _ => ⟨startImage_result _ _ (by decide), rfl⟩, fun h => absurd h0 h, (hkept.trans (startImage_keepsBytes _ _ _)).sameMem⟩
    case cause => exact (startImage_cause _ _ _ F.MST_BOOT_STAT_FAIL_REC (by decide) (by decide) (by decide)).trans hcause
  · refine ⟨hcause, fun h => absurd h h0, fun _ => ⟨?result, rfl⟩, hkept.sameMem⟩
    case result => exact (getF_setF_ne _ F.MST_BOOT_STAT_FAIL_REC F.MST_BOOT_STAT_RESULT [] [] c (by decide)).trans hwait

/-! ## Readiness -/

theorem functionReady_host {d : Dev} {x : Nat} (hx : x < 4) (hp : d.clk.phase = .running) (hon : d.islandOn (1 + x) = true) :
    d.functionReady (25 + x) = d.setBitF F.MST_READY_HOST [] x := by
  unfold Dev.functionReady
  rw [if_neg (by simp [hp]), if_neg (by omega), if_neg (by omega), if_pos (by omega), Nat.add_sub_cancel_left]
  exact if_pos hon

theorem functionReady_stack {d : Dev} {k : Nat} (hp : d.clk.phase = .running) (hok : d.dieOk (17 + k) = true)
    (hdie : nget? d.rst.dies [17 + k] = none) (htested : k ∈ d.bank.tested) :
    d.functionReady (29 + k) = (d.setBitF F.MST_READY_STACK_STACK [] k).raise F.BSE_STK_STAT_READY [k] := by
  unfold Dev.functionReady
  rw [if_neg (by simp [hp]), if_neg (by omega), if_neg (by omega), if_neg (by omega), Nat.add_sub_cancel_left]
  exact if_pos ⟨hok, by simp [hdie], by simpa using htested⟩

theorem completes_functionReady_host {s : State} {x : Fin 4} {f : Fin 37} (hf : f.val = 25 + x.val) (hp : s.dev.clk.phase = .running)
    (hon : s.dev.islandOn (1 + x.val) = true) :
    Completes (.functionReady f) s (fun d => d.bitF F.MST_READY_HOST [] x.val = true ∧ SameRegs s.dev d [(F.MST_READY_HOST, [])] ∧
      OnlyRegs s.dev d) := by
  have hdo : s.dev.functionReady f.val = s.dev.setBitF F.MST_READY_HOST [] x.val := by rw [hf, functionReady_host x.isLt hp hon]
  refine completes_of_eq rfl hdo ⟨?ready, sameRegs_setF (.head _) (sameRegs_refl s.dev _), rfl⟩
  case ready =>
    rw [bitF_setBitF _ F.MST_READY_HOST _ _ _ x.isLt]
    simp

theorem completes_functionReady_stack {s : State} {k : Fin 8} {f : Fin 37} (hf : f.val = 29 + k.val) (hp : s.dev.clk.phase = .running)
    (hok : s.dev.dieOk (17 + k.val) = true) (hdie : nget? s.dev.rst.dies [17 + k.val] = none) (htested : k.val ∈ s.dev.bank.tested) :
    Completes (.functionReady f) s (fun d => d.bitF F.MST_READY_STACK_STACK [] k.val = true ∧ d.flag F.BSE_STK_STAT_READY [k.val] = true ∧
      SameRegs s.dev d [(F.MST_READY_STACK_STACK, []), (F.BSE_STK_STAT_READY, [k.val])] ∧ OnlyRegs s.dev d) := by
  have hdo : s.dev.functionReady f.val = (s.dev.setBitF F.MST_READY_STACK_STACK [] k.val).raise F.BSE_STK_STAT_READY [k.val] := by
    rw [hf, functionReady_stack hp hok hdie htested]
  refine completes_of_eq rfl hdo ⟨?ready, flag_raise _ _ _ rfl, ?regs, rfl⟩
  case ready =>
    have hkept := bitF_setF_ne (s.dev.setBitF F.MST_READY_STACK_STACK [] k.val) F.BSE_STK_STAT_READY F.MST_READY_STACK_STACK [k.val] [] 1 k.val
      (by decide)
    refine hkept.trans ?_
    rw [bitF_setBitF _ F.MST_READY_STACK_STACK _ _ _ k.isLt]
    simp
  case regs => exact sameRegs_setF (.tail _ (.head _)) (sameRegs_setF (.head _) (sameRegs_refl s.dev _))

/-! ## The stacks' test -/

theorem loseMem_byte_in (d : Dev) {lo hi a : Nat} (hlo : lo ≤ a) (hhi : a < hi) : (d.loseMem lo hi).byte a = Config.lostByte d.bank.lostGen a := by
  simp [Dev.byte, Dev.loseMem, lostAt, hlo, hhi]

theorem stackBase_succ (k : Nat) : stackBase (k + 1) = stackBase k + 0xC00000000 := by
  simp only [stackBase, Nat.succ_mul]

/-- Stack `k` has passed its test, after the device `e` lost what the stack held. -/
def Dev.stackPassed (e : Dev) (tested : List Nat) (k : Nat) : Dev := { e with bank := { e.bank with tested := tested ++ [k] } }

theorem stackPassed_byte (e : Dev) (tested : List Nat) (k a : Nat) : (e.stackPassed tested k).byte a = e.byte a := rfl

theorem stackPassed_getF (e : Dev) (tested : List Nat) (k : Nat) (f : Field) (i : List Nat) : (e.stackPassed tested k).getF f i = e.getF f i := rfl

/-- A test that passes leaves nothing of the stack's contents, and all else. -/
theorem stackPassed_spec (d : Dev) (k : Nat) :
    k ∈ ((d.loseMem (stackBase k) (stackBase (k + 1))).stackPassed d.bank.tested k).bank.tested ∧
    SameRegs d ((d.loseMem (stackBase k) (stackBase (k + 1))).stackPassed d.bank.tested k) [] ∧
    SameMemBut d ((d.loseMem (stackBase k) (stackBase (k + 1))).stackPassed d.bank.tested k) (stackBase k) 0xC00000000 ∧
    (∀ a, stackBase k ≤ a → a < stackBase (k + 1) →
      ((d.loseMem (stackBase k) (stackBase (k + 1))).stackPassed d.bank.tested k).byte a = Config.lostByte d.bank.lostGen a) := by
  refine ⟨List.mem_append_right _ (.head _), fun f i _ => ?regs, fun a ha => ?outside, fun a hlo hhi => ?inside⟩
  case regs => rw [stackPassed_getF, loseMem_getF]
  case outside =>
    rw [← stackBase_succ] at ha
    rw [stackPassed_byte, loseMem_byte_out _ _ _ _ ha]
  case inside => rw [stackPassed_byte, loseMem_byte_in _ hlo hhi]

theorem stackTest_pass {d : Dev} {k : Nat} (hp : d.clk.phase = .running) (hok : d.dieOk (17 + k) = true)
    (hdie : nget? d.rst.dies [17 + k] = none) (hnew : k ∉ d.bank.tested) :
    d.stackTest k true = (d.loseMem (stackBase k) (stackBase (k + 1))).stackPassed d.bank.tested k := by
  unfold Dev.stackTest
  exact if_pos ⟨.inr hp, hok, by simp [hdie], by simpa using hnew⟩

theorem completes_stackTrainTest {s : State} {k : Fin 8} (hp : s.dev.clk.phase = .running) (hok : s.dev.dieOk (17 + k.val) = true)
    (hdie : nget? s.dev.rst.dies [17 + k.val] = none) (hnew : k.val ∉ s.dev.bank.tested) :
    Completes (.stackTrainTest k true) s (fun d => k.val ∈ d.bank.tested ∧ SameRegs s.dev d [] ∧
      SameMemBut s.dev d (stackBase k.val) 0xC00000000 ∧
      (∀ a, stackBase k.val ≤ a → a < stackBase (k.val + 1) → d.byte a = Config.lostByte s.dev.bank.lostGen a)) :=
  completes_of_eq rfl (stackTest_pass hp hok hdie hnew) (stackPassed_spec s.dev k.val)

/-- Settles O11: the boot by the two slots' checks (R99, R100), recovery by the window's (R101), then readiness and the stacks' test
(R102, R103, R350). -/
theorem bootReadinessAndStackTests : Obligations.BootReadinessAndStackTests := by
  unfold Obligations.BootReadinessAndStackTests
  refine ⟨?boot, ?window, ?go, ?host, ?stack, ?test⟩
  case boot => exact fun _ hs hon => completes_secureBoot hs hon
  case window => exact fun _ _ _ _ hl => completes_recoveryWindowWrite hl
  case go => exact fun _ _ hl hwait => completes_recoveryGo hl hwait
  case host => exact fun _ _ _ hf hp hon => completes_functionReady_host hf hp hon
  case stack => exact fun _ _ _ hf hp hok hdie htested => completes_functionReady_stack hf hp hok hdie htested
  case test => exact fun _ _ hp hok hdie hnew => completes_stackTrainTest hp hok hdie hnew

end Sys2Proof.Machine
end

section
/-!
The JTAG port (R112, R512–R514).
-/
namespace Sys2Proof.Machine

@[simp] theorem length_bitsOut (w n : Nat) : (bitsOut w n).length = w := by simp [bitsOut]

/-! ## What the port's own state leaves alone -/

/-- The device with another state of the JTAG port, other outputs and another count of free values. -/
def Dev.portMoved (d : Dev) (j : JtagSt) (o : List Out) (n : Nat) : Dev := { d with jtag := j, out := o, freeCtr := n }

/-- A scan that moves the port alone leaves registers and memory. -/
theorem completes_of_portMoved {i : Instr} {s : State} {d : Dev} {j : JtagSt} {o : List Out} {n : Nat} {P : Dev → Prop}
    (hi : exec i s = .next { s with dev := d }) (hd : d = s.dev.portMoved j o n)
    (hP : SameRegs s.dev (s.dev.portMoved j o n) [] → SameMem s.dev (s.dev.portMoved j o n) → P (s.dev.portMoved j o n)) : Completes i s P :=
  completes_of_eq hi hd (hP (fun _ _ _ => rfl) (fun _ => rfl))

/-! ## One scan -/

theorem boundary_eq (d : Dev) (c : Nat) (l : List Bool) : d.boundary c l =
    d.portMoved { d.jtag with ir := c, cells := l } (d.out ++ [.jtag (bitsOut l.length d.freeNum.1)]) (d.freeCtr + 1) := rfl

theorem jtagBypass_eq (d : Dev) (c : Nat) (l : List Bool) : d.jtagBypass c l =
    d.portMoved { d.jtag with ir := c } (d.out ++ [.jtag ((false :: l).take l.length)]) d.freeCtr := rfl

theorem completes_boundary {i : Instr} {s : State} {c : Nat} {l : List Bool} (hi : exec i s = .next { s with dev := s.dev.boundary c l }) :
    Completes i s (fun d => d.jtag.ir = c ∧ d.jtag.cells = l ∧ (∃ o, d.out = s.dev.out ++ [.jtag o] ∧ o.length = l.length) ∧
      SameRegs s.dev d [] ∧ SameMem s.dev d) :=
  completes_of_portMoved hi (boundary_eq s.dev c l) fun hregs hmem => ⟨rfl, rfl, ⟨_, rfl, length_bitsOut _ _⟩, hregs, hmem⟩

theorem completes_jtagIdcode (s : State) :
    Completes .jtagIdcode s (fun d => d.jtag.ir = 2 ∧ d.out = s.dev.out ++ [.jtag (bitsOut 32 idcode)] ∧ SameRegs s.dev d [] ∧ SameMem s.dev d) := by
  have hid : s.dev.jtagId = s.dev.portMoved { s.dev.jtag with ir := 2 } (s.dev.out ++ [.jtag (bitsOut 32 idcode)]) s.dev.freeCtr := rfl
  exact completes_of_portMoved rfl hid fun hregs hmem => ⟨rfl, rfl, hregs, hmem⟩

theorem completes_jtagBypass {i : Instr} {s : State} {c : Nat} {l : List Bool} (hi : exec i s = .next { s with dev := s.dev.jtagBypass c l }) :
    Completes i s (fun d => d.jtag.ir = c ∧ d.out = s.dev.out ++ [.jtag ((false :: l).take l.length)] ∧ SameRegs s.dev d [] ∧ SameMem s.dev d) :=
  completes_of_portMoved hi (jtagBypass_eq s.dev c l) fun hregs hmem => ⟨rfl, rfl, hregs, hmem⟩

/-! ## What no access rests on -/

section
variable (d : Dev) (j : JtagSt) (o : List Out) (n : Nat)

theorem portMoved_jtagOwns (p : Place) : (d.portMoved j o n).jtagOwns p = d.jtagOwns p := by cases p <;> rfl

/-- Whether a command other than UPDATE can start rests on no free value: only UPDATE takes bytes of memory at its start (R434). -/
theorem portMoved_launch {t q : Nat} {c : Cmd} {l : List Cmd} (hq : d.queue t q = c :: l) (hub : c.ubDue = none) :
    (d.portMoved j o n).launch t q = d.launch t q := by
  have hq' : (d.portMoved j o n).queue t q = c :: l := hq
  have htake (e : Dev) : e.takeUb c = c := by rw [Dev.takeUb, hub]
  unfold Dev.launch
  rw [hq, hq']
  simp only [htake]
  rfl

theorem portMoved_attnWaits (t : Nat) : (d.portMoved j o n).attnWaits t = d.attnWaits t := by
  refine congrArg₂ List.any rfl (funext fun e => congrArg₂ List.any rfl (funext fun q => ?_))
  show (match d.queue e q with | c :: _ => opcode c.bytes == 0x34 && ((d.portMoved j o n).launch e q).isSome | [] => false) = _
  cases hq : d.queue e q with
  | nil => rfl
  | cons c l =>
    by_cases hop : opcode c.bytes = 0x34
    · rw [portMoved_launch d j o n hq (if_neg fun h => absurd (hop.symm.trans h.1) (by decide))]
    · dsimp only
      rw [beq_eq_false_iff_ne.mpr hop, Bool.false_and, Bool.false_and]

theorem portMoved_vecFree (t q : Nat) : (d.portMoved j o n).vecFree t q = d.vecFree t q := by
  unfold Dev.vecFree
  rw [portMoved_attnWaits]
  rfl

theorem portMoved_headReasons (t q : Nat) : (d.portMoved j o n).headReasons t q = d.headReasons t q := by
  unfold Dev.headReasons
  simp only [portMoved_vecFree]
  rfl

theorem portMoved_headWaits (t q : Nat) : (d.portMoved j o n).headWaits t q = d.headWaits t q := by
  unfold Dev.headWaits
  rw [portMoved_headReasons]
  rfl

theorem portMoved_tckStat (t : Nat) : (d.portMoved j o n).tckStat t = d.tckStat t := by
  unfold Dev.tckStat
  rw [funext (portMoved_headWaits d j o n t)]
  rfl

/-- But for two registers whose words hold free values, a register reads the same. -/
theorem portMoved_regWord (r : RegName) (i : List Nat) (hseq : r ≠ .SEQ_STAT) (hrxeq : r ≠ .LNE_RXEQ) :
    (d.portMoved j o n).regWord r i = ((d.regWord r i).1, d.portMoved j o n) := by
  unfold Dev.regWord
  split
  case h_1 => rw [portMoved_tckStat]
  case h_2 => exact absurd rfl hseq
  case h_4 => exact absurd rfl hrxeq
  all_goals rfl

end

/-- The register or memory access that the port's access register holds starts. -/
theorem jtagAccess_starts {d : Dev} {fz : Fuses} (mem : Bool) (w : Nat) (hp : d.clk.phase ≠ .off) (hc : fz.closed = false)
    (hb : d.jtag.busy = false) : ∃ j o n, d.jtagAccess fz mem w =
      if mem then (d.portMoved j o n).jtagMem ⟨.jtag, bits w 64 48, bits w 0 64, bit w 112, bit w 113⟩
      else (d.portMoved j o n).jtagReg fz (bits w 64 48) (bits w 0 64) (bit w 112) (bit w 113) := by
  unfold Dev.jtagAccess
  rw [if_neg hp]
  extract_lets e busy captured _ started
  have he : busy = false := hb
  rw [if_neg (by simp [hc]), he]
  exact ⟨started.jtag, started.out, started.freeCtr, rfl⟩

/-! ## Register accesses -/

theorem jtagEnd_keepsBytes (d : Dev) (st : Status) (v : Nat) (write : Bool) : KeepsBytes d (d.jtagEnd st v write) := ⟨rfl, rfl, rfl⟩

theorem jtagReg_read {d : Dev} (fz : Fuses) {addr data : Nat} {size64 : Bool} {g : RegDesc} {i : List Nat} (hat : regAt addr = some (g, i))
    (hw : g.width = if size64 then 64 else 32) (hr : d.reach g.reg i = .open) :
    d.jtagReg fz addr data false size64 = (d.regWord g.reg i).2.jtagEnd .ok (d.regWord g.reg i).1 false := by
  simp [Dev.jtagReg, hat, hw, hr]

theorem jtagReg_write {d : Dev} (fz : Fuses) {addr data : Nat} {size64 : Bool} {g : RegDesc} {i : List Nat} (hat : regAt addr = some (g, i))
    (hw : g.width = if size64 then 64 else 32) (hm : d.mayWrite .jtag g.writer g.reg i = true) (hr : d.reach g.reg i = .open) :
    d.jtagReg fz addr data true size64 = (d.regWrite fz .jtag g i data).1.jtagEnd (d.regWrite fz .jtag g i data).2 0 true := by
  simp [Dev.jtagReg, hat, hw, hr, hm]

/-- Reading a register writes nothing but the settings of an adapting receiver (R158). -/
theorem regWord_touches (d : Dev) (r : RegName) (i : List Nat) : Touches [F.LNE_RXEQ_CTLE, F.LNE_RXEQ_GAIN] d (d.regWord r i).2 := by
  have hfree (e : Dev) : Touches [F.LNE_RXEQ_CTLE, F.LNE_RXEQ_GAIN] e e.freeNum.2 := { Touches.refl _ e with }
  unfold Dev.regWord
  split
  case h_2 => exact hfree d
  case h_4 =>
    unfold Dev.rxeqWord
    dsimp only
    split_ifs
    · exact .refl _ d
    · exact (((hfree d).trans (hfree _)).setF (.head _) _ _).setF (.tail _ (.head _)) _ _
  all_goals exact .refl _ d

section
variable {s : State} {w : BitVec 120} {g : RegDesc} {i : List Nat} (hp : s.dev.clk.phase ≠ .off) (hc : s.fuses.closed = false)
  (hb : s.dev.jtag.busy = false) (hat : regAt (bits w.toNat 64 48) = some (g, i))
include hp hc hb hat

/-- A read of a register whose island runs, while debug is not closed. -/
theorem jtagAccess_read (hw : g.width = if bit w.toNat 113 then 64 else 32) (hr : s.dev.reach g.reg i = .open) (hrd : bit w.toNat 112 = false) :
    ∃ j o n, s.dev.jtagAccess s.fuses false w.toNat =
      ((s.dev.portMoved j o n).regWord g.reg i).2.jtagEnd .ok ((s.dev.portMoved j o n).regWord g.reg i).1 false := by
  obtain ⟨j, o, n, hdo⟩ := jtagAccess_starts (fz := s.fuses) false w.toNat hp hc hb
  refine ⟨j, o, n, hdo.trans ?_⟩
  rw [hrd]
  exact jtagReg_read s.fuses hat hw hr

theorem completes_jtagRegAccess_value (hw : g.width = if bit w.toNat 113 then 64 else 32) (hr : s.dev.reach g.reg i = .open)
    (hrd : bit w.toNat 112 = false) (hseq : g.reg ≠ .SEQ_STAT) (hrxeq : g.reg ≠ .LNE_RXEQ) :
    Completes (.jtagRegAccess w) s (fun d => d.jtag.busy = false ∧ d.jtag.status = 0 ∧ d.jtag.data = (s.dev.regWord g.reg i).1 ∧
      SameRegs s.dev d [] ∧ SameMem s.dev d) := by
  obtain ⟨j, o, n, hdo⟩ := jtagAccess_read hp hc hb hat hw hr hrd
  rw [portMoved_regWord s.dev j o n g.reg i hseq hrxeq] at hdo
  exact completes_of_eq rfl hdo ⟨rfl, rfl, rfl, fun _ _ _ => rfl, fun _ => rfl⟩

theorem completes_jtagRegAccess_read (hw : g.width = if bit w.toNat 113 then 64 else 32) (hr : s.dev.reach g.reg i = .open)
    (hrd : bit w.toNat 112 = false) :
    Completes (.jtagRegAccess w) s (fun d => d.jtag.busy = false ∧ d.jtag.status = 0 ∧
      SameFields s.dev d [F.LNE_RXEQ_CTLE, F.LNE_RXEQ_GAIN] ∧ SameMem s.dev d) := by
  obtain ⟨j, o, n, hdo⟩ := jtagAccess_read hp hc hb hat hw hr hrd
  have hread := regWord_touches (s.dev.portMoved j o n) g.reg i
  refine completes_of_eq rfl hdo ⟨rfl, rfl, ?fields, ?mem⟩
  case fields => exact hread.fields
  case mem => exact hread.sameMem

end

theorem completes_jtagRegAccess_counter {s : State} {w : BitVec 120} {g : RegDesc} {t c : Nat} (hp : s.dev.clk.phase ≠ .off)
    (hc : s.fuses.closed = false) (hb : s.dev.jtag.busy = false) (hat : regAt (bits w.toNat 64 48) = some (g, [t, c])) (hreg : g.reg = .SEQ_CTR)
    (hw : g.width = 32) (h32 : bit w.toNat 113 = false) (hr : s.dev.reach .SEQ_CTR [t, c] = .open) (hwr : bit w.toNat 112 = true)
    (hm : s.dev.mayWrite .jtag g.writer .SEQ_CTR [t, c] = true) :
    Completes (.jtagRegAccess w) s (fun d => d.jtag.busy = false ∧ d.jtag.status = 0 ∧ d.ctr t c = bits w.toNat 0 32 ∧
      SameRegs s.dev d [(F.SEQ_CTR_VALUE, [t, c])] ∧ SameMem s.dev d) := by
  obtain ⟨j, o, n, hdo⟩ := jtagAccess_starts (fz := s.fuses) false w.toNat hp hc hb
  rw [hwr, h32] at hdo
  have hmay : (s.dev.portMoved j o n).mayWrite .jtag g.writer g.reg [t, c] = true := by rw [hreg]; exact hm
  have hreach : (s.dev.portMoved j o n).reach g.reg [t, c] = .open := by rw [hreg]; exact hr
  have hgo := regWrite_open s.fuses (v := bits w.toNat 0 64) hmay hreach (by rw [hreg]; exact unlocked_seqCtr _ _ _ _)
  have hwrite := jtagReg_write s.fuses (data := bits w.toNat 0 64) (size64 := false) hat hw hmay hreach
  rw [hgo, hreg, hw] at hwrite
  refine completes_of_eq rfl (hdo.trans hwrite) ⟨rfl, rfl, ?value, ?regs, fun _ => rfl⟩
  case value =>
    refine (getF_setF_same _ _ _ _).trans ?_
    rw [show F.SEQ_CTR_VALUE.w = 32 from rfl, show F.SEQ_CTR_VALUE.lo = 0 from rfl]
    simp only [bits]
    omega
  case regs => exact sameRegs_setF (.head _) (sameRegs_refl s.dev _)

/-- Without VDD_AON no access starts. -/
theorem completes_jtagAccess_off {s : State} (w : BitVec 120) (hp : s.dev.clk.phase = .off) :
    Completes (.jtagRegAccess w) s (fun d => d = s.dev) ∧ Completes (.jtagMemAccess w) s (fun d => d = s.dev) :=
  ⟨completes_of_eq rfl (if_pos hp) rfl, completes_of_eq rfl (if_pos hp) rfl⟩

theorem completes_jtagRegAccess_closed {s : State} (w : BitVec 120) (hp : s.dev.clk.phase ≠ .off) (hc : s.fuses.closed = true) :
    Completes (.jtagRegAccess w) s (fun d => d.out = s.dev.out ++ [.jtag ((false :: bitsOut 120 w.toNat).take 120)] ∧ SameRegs s.dev d [] ∧
      SameMem s.dev d) := by
  have hdo : s.dev.jtagAccess s.fuses false w.toNat = s.dev.jtagBypass 0x20 (bitsOut 120 w.toNat) := (if_neg hp).trans (if_pos hc)
  rw [jtagBypass_eq, length_bitsOut] at hdo
  exact completes_of_portMoved rfl hdo fun hregs hmem => ⟨rfl, hregs, hmem⟩

/-! ## Memory accesses -/

/-- Stacked memory and banks lie below the capstan window. -/
theorem lt_of_memPlace {a : Nat} (h : memPlace (place a) = true) : a < 0x300000000000 := by
  by_contra hge
  have hstack : ¬a < 0x6000000000 := by omega
  have hsail : ¬(0x100000000000 ≤ a ∧ a < 0x100040000000) := by omega
  have hbase : ¬(0x200000000000 ≤ a ∧ a < 0x200020000000) := by omega
  rw [place, if_neg hstack, if_neg hsail, if_neg hbase] at h
  dsimp only at h
  split_ifs at h <;> exact Bool.false_ne_true h

/-- Below the capstan window a read shows the bytes of memory, and no free value. -/
theorem read_memory (d : Dev) {a : Nat} (n : Nat) (ha : a < 0x300000000000) : d.read a n = (List.range n).map (fun i => d.byte (a + i)) :=
  if_neg (Nat.not_le.mpr ha)

theorem foldl_wake_keepsBytes (d : Dev) (l : List Place) : KeepsBytes d (l.foldl Dev.wake d) := .foldl wake_keepsBytes d l

/-- Where no island on the way is stopped, an access of memory that can be served is done at once. -/
theorem jtagMem_served {d : Dev} {acc : IndAcc} {n : Nat} (hn : n = if acc.size64 then 8 else 4) (hall : (placesOf acc.addr n).all memPlace = true)
    (hne : placesOf acc.addr n ≠ []) (hstop : d.memStopped acc.addr n = none) (hserve : d.memServed acc.addr n = true) : d.jtagMem acc =
      if acc.write then
        (if (placesOf acc.addr n).all d.jtagOwns then
          ((((placesOf acc.addr n).foldl Dev.wake d).write acc.addr (leBytes n acc.data)).countWrite acc.addr n).jtagEnd .ok 0 true
        else d.jtagEnd .owner 0 true)
      else (d.load acc.addr n).2.jtagEnd .ok (ofLE (d.load acc.addr n).1) false := by
  subst hn
  simp [Dev.jtagMem, Dev.jtagMemDo, hstop, hall, hne, hserve]

section
variable {s : State} {w : BitVec 120} {a n : Nat} (hp : s.dev.clk.phase ≠ .off) (hc : s.fuses.closed = false) (hb : s.dev.jtag.busy = false)
  (ha : a = bits w.toNat 64 48) (hn : n = if bit w.toNat 113 then 8 else 4) (hall : (placesOf a n).all memPlace = true) (hne : placesOf a n ≠ [])
  (hstop : s.dev.memStopped a n = none) (hserve : s.dev.memServed a n = true)
include hp hc hb ha hn hall hne hstop hserve

theorem completes_jtagMemAccess_read (hrd : bit w.toNat 112 = false) :
    Completes (.jtagMemAccess w) s (fun d => d.jtag.busy = false ∧ d.jtag.status = 0 ∧ d.jtag.data = ofLE (s.dev.read a n) ∧ SameMem s.dev d) := by
  obtain ⟨j, o, k, hdo⟩ := jtagAccess_starts (fz := s.fuses) true w.toNat hp hc hb
  subst ha
  have hgo := jtagMem_served (d := s.dev.portMoved j o k) (acc := ⟨.jtag, bits w.toNat 64 48, bits w.toNat 0 64, bit w.toNat 112, bit w.toNat 113⟩)
    hn hall hne hstop hserve
  have hlow : bits w.toNat 64 48 < 0x300000000000 := by
    obtain ⟨t, ht⟩ := placesOf_cons (bits w.toNat 64 48) n (by rw [hn]; split_ifs <;> decide)
    rw [ht, List.all_cons, Bool.and_eq_true] at hall
    exact lt_of_memPlace hall.1
  have hbytes := load_keepsBytes (s.dev.portMoved j o k) (bits w.toNat 64 48) n
  have hread : ((s.dev.portMoved j o k).load (bits w.toNat 64 48) n).1 = s.dev.read (bits w.toNat 64 48) n :=
    (read_memory (s.dev.portMoved j o k) n hlow).trans (read_memory s.dev n hlow).symm
  refine completes_of_eq rfl (hdo.trans (hgo.trans (if_neg (by simp [hrd])))) ⟨rfl, rfl, congrArg ofLE hread, ?mem⟩
  case mem => exact hbytes.sameMem

theorem completes_jtagMemAccess_write (hwr : bit w.toNat 112 = true) (hown : (placesOf a n).all s.dev.jtagOwns = true) :
    Completes (.jtagMemAccess w) s (fun d => d.jtag.busy = false ∧ d.jtag.status = 0 ∧ Stored d a (leBytes n (bits w.toNat 0 64)) ∧
      SameMemBut s.dev d a n) := by
  obtain ⟨j, o, k, hdo⟩ := jtagAccess_starts (fz := s.fuses) true w.toNat hp hc hb
  subst ha
  have hgo := jtagMem_served (d := s.dev.portMoved j o k) (acc := ⟨.jtag, bits w.toNat 64 48, bits w.toNat 0 64, bit w.toNat 112, bit w.toNat 113⟩)
    hn hall hne hstop hserve
  have hown' : (placesOf (bits w.toNat 64 48) n).all (s.dev.portMoved j o k).jtagOwns = true := by
    rw [funext (portMoved_jtagOwns s.dev j o k)]
    exact hown
  have hwoken := foldl_wake_keepsBytes (s.dev.portMoved j o k) (placesOf (bits w.toNat 64 48) n)
  generalize hx : (placesOf (bits w.toNat 64 48) n).foldl Dev.wake (s.dev.portMoved j o k) = x at hgo hwoken
  have hstored := write_stored x (bits w.toNat 64 48) (leBytes n (bits w.toNat 0 64))
  have hcounted := countWrite_keepsBytes (x.write (bits w.toNat 64 48) (leBytes n (bits w.toNat 0 64))) (bits w.toNat 64 48) n
  have hother : SameMemBut s.dev (x.write (bits w.toNat 64 48) (leBytes n (bits w.toNat 0 64))) (bits w.toNat 64 48) n := by
    intro b hout
    rw [write_byte_out _ _ _ _ (by rwa [length_leBytes])]
    exact hwoken.sameMem b
  have hend := jtagEnd_keepsBytes ((x.write (bits w.toNat 64 48) (leBytes n (bits w.toNat 0 64))).countWrite (bits w.toNat 64 48) n) .ok 0 true
  refine completes_of_eq rfl (hdo.trans (hgo.trans ((if_pos hwr).trans (if_pos hown')))) ⟨rfl, rfl, ?stored, ?other⟩
  case stored => exact hstored.keepsBytes (hcounted.trans hend)
  case other => exact fun b hout => ((hcounted.trans hend).sameMem b).trans (hother b hout)

end

/-! ## TRACE_EXPORT, SCAN and TRST_N -/

theorem jtagExport_word {d : Dev} {fz : Fuses} {x : List Byte} {rest : List (List Byte)} (l : List Bool) (hc : fz.closed = false)
    (hbuf : d.tel.exportBuf = x :: rest) : d.jtagExport fz l =
      ({ d with tel := { d.tel with exportBuf := rest } } : Dev).portMoved { d.jtag with ir := 0x22 }
        (d.out ++ [.jtag (bitsOut 264 (ofLE (x.drop 1) + 2 ^ 256 + cb x 0 * 2 ^ 257))]) d.freeCtr := by
  unfold Dev.jtagExport
  extract_lets e
  have hword : e.tel.exportBuf = x :: rest := hbuf
  rw [hword, if_neg (by simp [hc])]
  rfl

theorem jtagExport_empty {d : Dev} {fz : Fuses} (l : List Bool) (hc : fz.closed = false) (hbuf : d.tel.exportBuf = []) :
    d.jtagExport fz l = d.portMoved { d.jtag with ir := 0x22 } (d.out ++ [.jtag (bitsOut 264 0)]) d.freeCtr := by
  unfold Dev.jtagExport
  extract_lets e
  have hnone : e.tel.exportBuf = [] := hbuf
  rw [hnone, if_neg (by simp [hc])]
  rfl

theorem completes_jtagTraceExport_word {s : State} {l : List Bool} {x : List Byte} {rest : List (List Byte)} (hc : s.fuses.closed = false)
    (hbuf : s.dev.tel.exportBuf = x :: rest) :
    Completes (.jtagTraceExport l) s (fun d => d.tel.exportBuf = rest ∧
      d.out = s.dev.out ++ [.jtag (bitsOut 264 (ofLE (x.drop 1) + 2 ^ 256 + cb x 0 * 2 ^ 257))] ∧ SameRegs s.dev d [] ∧ SameMem s.dev d) :=
  completes_of_eq rfl (jtagExport_word l hc hbuf) ⟨rfl, rfl, fun _ _ _ => rfl, fun _ => rfl⟩

theorem completes_jtagTraceExport_empty {s : State} {l : List Bool} (hc : s.fuses.closed = false) (hbuf : s.dev.tel.exportBuf = []) :
    Completes (.jtagTraceExport l) s (fun d => d.out = s.dev.out ++ [.jtag (bitsOut 264 0)] ∧ SameRegs s.dev d [] ∧ SameMem s.dev d) :=
  completes_of_portMoved rfl (jtagExport_empty l hc hbuf) fun hregs hmem => ⟨rfl, hregs, hmem⟩

/-- The islands of `l` that run stop. -/
def Dev.stopIslands (d : Dev) (l : List Nat) : Dev := l.foldl (fun d g => if d.islandOn g then d.stopIsland g else d) d

theorem stopIslands_keepsBytes (d : Dev) (l : List Nat) : KeepsBytes d (d.stopIslands l) :=
  .foldl (fun d g => .ite (stopIsland_keepsBytes d g) (.refl d)) d l

theorem stopIslands_islandOn (l : List Nat) (d : Dev) (h : Nat) : (d.stopIslands l).islandOn h = (d.islandOn h && !decide (h ∈ l)) := by
  have hstep (d : Dev) (g : Nat) : (if d.islandOn g then d.stopIsland g else d).islandOn h = (d.islandOn h && decide (h ≠ g)) := by
    split_ifs with hon
    · exact stopIsland_islandOn d g h
    · by_cases hg : h = g
      · subst hg; simpa using hon
      · simp [hg]
  induction l generalizing d with
  | nil => simp [Dev.stopIslands]
  | cons g t ih =>
    refine (ih _).trans ?_
    rw [hstep]
    by_cases hg : h = g <;> simp [hg]

/-- The islands that SCAN stops. -/
def scanIslands : List Nat := (List.range 1519).map (· + 1)

theorem mem_scanIslands (g : Nat) : g ∈ scanIslands ↔ 1 ≤ g ∧ g < 1520 := by
  simp only [scanIslands, List.mem_map, List.mem_range]
  exact ⟨fun ⟨k, hk, he⟩ => by omega, fun h => ⟨g - 1, by omega, by omega⟩⟩

/-- SCAN shifts out `o` and holds from now on. -/
def Dev.scanEnd (d : Dev) (o : List Bool) : Dev := ({ d with jtag := { d.jtag with scanned := true } } : Dev).emit (.jtag o)

/-- SCAN of the islands `l`. -/
def Dev.scanStops (d : Dev) (l : List Nat) (o : List Bool) : Dev := (d.stopIslands l).scanEnd o

theorem scanStops_islandOn (d : Dev) (l : List Nat) (o : List Bool) (g : Nat) : (d.scanStops l o).islandOn g = (d.islandOn g && !decide (g ∈ l)) :=
  stopIslands_islandOn l d g

theorem scanStops_port (d : Dev) (l : List Nat) (o : List Bool) : (d.scanStops l o).jtag.scanned = true ∧ (d.scanStops l o).out = d.out ++ [.jtag o] :=
  ⟨rfl, congrArg (fun x : List Out => x ++ [.jtag o]) (stopIslands_keepsBytes d l).out⟩

theorem scanStops_sameMem (d : Dev) (l : List Nat) (o : List Bool) : SameMem d (d.scanStops l o) := (stopIslands_keepsBytes d l).sameMem

theorem scanEnd_eq (d : Dev) (o : List Bool) : ({ d with jtag := { d.jtag with scanned := true } } : Dev).emit (.jtag o) = d.scanEnd o := rfl

theorem jtagScan_open {d : Dev} {fz : Fuses} (l : List Bool) (hc : fz.closed = false) : d.jtagScan fz l =
    (d.portMoved { d.jtag with ir := 0x30 } d.out (d.freeCtr + 1)).scanStops scanIslands (bitsOut l.length d.freeNum.1) := by
  have hcaptured : (d.jtagIr 0x30).freeNum.2 = d.portMoved { d.jtag with ir := 0x30 } d.out (d.freeCtr + 1) := rfl
  have hword : (d.jtagIr 0x30).freeNum.1 = d.freeNum.1 := rfl
  unfold Dev.jtagScan scanIslands
  rw [if_neg (by simp [hc])]
  rw [← hword, ← hcaptured, Dev.scanStops, ← scanEnd_eq, Dev.stopIslands]

theorem completes_jtagScan {s : State} {l : List Bool} {g : Nat} (hc : s.fuses.closed = false) (hlo : 1 ≤ g) (hhi : g < 1520) :
    Completes (.jtagScan l) s (fun d => d.islandOn g = false ∧ d.islandOn 0 = s.dev.islandOn 0 ∧ d.jtag.scanned = true ∧
      (∃ o, d.out = s.dev.out ++ [.jtag o] ∧ o.length = l.length) ∧ SameMem s.dev d) := by
  have hdo := jtagScan_open (d := s.dev) l hc
  have hin : g ∈ scanIslands := (mem_scanIslands g).mpr ⟨hlo, hhi⟩
  have hout : 0 ∉ scanIslands := fun h => absurd ((mem_scanIslands 0).mp h).1 (by decide)
  generalize scanIslands = islands at hdo hin hout
  obtain ⟨hscanned, htdo⟩ := scanStops_port (s.dev.portMoved { s.dev.jtag with ir := 0x30 } s.dev.out (s.dev.freeCtr + 1)) islands
    (bitsOut l.length s.dev.freeNum.1)
  refine completes_of_eq rfl hdo ⟨?stopped, ?alwaysOn, hscanned, ⟨_, htdo, length_bitsOut _ _⟩, ?mem⟩
  case stopped => rw [scanStops_islandOn, decide_eq_true hin, Bool.not_true, Bool.and_false]
  case alwaysOn =>
    rw [scanStops_islandOn, decide_eq_false hout]
    exact Bool.and_true _
  case mem => exact scanStops_sameMem (s.dev.portMoved { s.dev.jtag with ir := 0x30 } s.dev.out (s.dev.freeCtr + 1)) islands _

theorem completes_trstNAssert {s : State} (hb : s.dev.jtag.busy = true) (hacc : s.dev.jtag.access = none) :
    Completes .trstNAssert s (fun d => d.jtag.ir = 2 ∧ d.jtag.busy = false ∧ d.jtag.status = Status.aborted.code ∧ SameRegs s.dev d [] ∧
      SameMem s.dev d) :=
  completes_of_eq rfl (if_pos ⟨hb, by rw [Dev.jtagIr, hacc]; rfl⟩) ⟨rfl, rfl, rfl, fun _ _ _ => rfl, fun _ => rfl⟩

/-- Settles O52: the scans that move the port alone (R512), then the accesses before and after closure and without power (R112, R513),
TRACE_EXPORT (R514), SCAN (R512) and TRST_N (R513). -/
theorem jtagPort : Obligations.JtagPort := by
  unfold Obligations.JtagPort
  refine ⟨?extest, ?sample, ?idcode, ?clamp, ?highz, ?bypass, ?value, ?counter, ?read, ?off, ?closed, ?memRead, ?memWrite, ?exportWord,
    ?exportEmpty, ?scan, ?trst⟩
  case extest => exact fun _ _ => completes_boundary rfl
  case sample => exact fun _ _ => completes_boundary rfl
  case idcode => exact fun s => completes_jtagIdcode s
  case clamp => exact fun _ _ => completes_jtagBypass rfl
  case highz => exact fun _ _ => completes_jtagBypass rfl
  case bypass => exact fun _ _ => completes_jtagBypass rfl
  case value => exact fun _ _ _ _ hp hc hb hat hw hr hrd hseq hrxeq => completes_jtagRegAccess_value hp hc hb hat hw hr hrd hseq hrxeq
  case counter => exact fun _ _ _ _ _ hp hc hb hat hreg hw h32 hr hwr hm => completes_jtagRegAccess_counter hp hc hb hat hreg hw h32 hr hwr hm
  case read => exact fun _ _ _ _ hp hc hb hat hw hr hrd => completes_jtagRegAccess_read hp hc hb hat hw hr hrd
  case off => exact fun _ w hp => completes_jtagAccess_off w hp
  case closed => exact fun _ w hp hc => completes_jtagRegAccess_closed w hp hc
  case memRead =>
    exact fun _ _ _ _ hp hc hb ha hn hall hne hstop hserve hrd => completes_jtagMemAccess_read hp hc hb ha hn hall hne hstop hserve hrd
  case memWrite =>
    exact fun _ _ _ _ hp hc hb ha hn hall hne hstop hserve hwr hown =>
      completes_jtagMemAccess_write hp hc hb ha hn hall hne hstop hserve hwr hown
  case exportWord => exact fun _ _ _ _ hc hbuf => completes_jtagTraceExport_word hc hbuf
  case exportEmpty => exact fun _ _ hc hbuf => completes_jtagTraceExport_empty hc hbuf
  case scan => exact fun _ _ _ hc hlo hhi => completes_jtagScan hc hlo hhi
  case trst => exact fun _ hb hacc => completes_trstNAssert hb hacc

end Sys2Proof.Machine
end

section
/-!
The pointers of a ring in their two copies (R132), and a register whose write stores its fields (R7).
-/
namespace Sys2Proof.Machine

/-- Both pointers of a ring lie in one register of its kind. -/
theorem ringPtrs_reg (k : Nat) : (ringPtrs k).1.reg = (ringPtrs k).2.reg := by
  unfold ringPtrs; split_ifs <;> rfl

theorem ringPtrs_fieldNe (k : Nat) : fieldNe (ringPtrs k).2 (ringPtrs k).1 = true := by
  unfold ringPtrs; split_ifs <;> rfl

theorem ringPtrs_w (k : Nat) : (ringPtrs k).1.w = 32 ∧ (ringPtrs k).2.w = 32 := by
  unfold ringPtrs; split_ifs <;> exact ⟨rfl, rfl⟩

/-- Writing a ring's pointers leaves every other register. -/
theorem setPtrs_getF_reg (d : Dev) (k : Nat) (i : List Nat) (a b : Nat) (f : Field) (j : List Nat) (h : (ringPtrs k).2.reg ≠ f.reg) :
    (d.setPtrs k i a b).getF f j = d.getF f j :=
  (getF_setF_reg _ (ringPtrs k).2 f i j b h).trans (getF_setF_reg d (ringPtrs k).1 f i j a (by rwa [ringPtrs_reg]))

theorem setPtrs_fst (d : Dev) (k : Nat) (i : List Nat) (a b : Nat) : (d.setPtrs k i a b).getF (ringPtrs k).1 i = a % 2 ^ 32 := by
  refine (getF_setF_ne _ _ _ i i b (ringPtrs_fieldNe k)).trans ?_
  rw [getF_setF_same, (ringPtrs_w k).1]

theorem setPtrs_snd (d : Dev) (k : Nat) (i : List Nat) (a b : Nat) : (d.setPtrs k i a b).getF (ringPtrs k).2 i = b % 2 ^ 32 := by
  refine (getF_setF_same _ _ i b).trans ?_
  rw [(ringPtrs_w k).2]

/-- After a write of a ring's pointers its two copies agree. -/
theorem setPtrs_ptrsOk (d : Dev) (k : Nat) (i : List Nat) (a b : Nat) : (d.setPtrs k i a b).ptrsOk k i = true := by
  rw [Dev.ptrsOk, setPtrs_fst, setPtrs_snd]
  exact beq_iff_eq.mpr (nget_nput_same _ d.host.ptr2 (k :: i) _)

theorem setPtrs_sameMem (d : Dev) (k : Nat) (i : List Nat) (a b : Nat) : SameMem d (d.setPtrs k i a b) := fun _ => rfl

end Sys2Proof.Machine
end

section
/-!
Command rings (R124, R126, R128): their configuration, ARM, DISARM and the doorbell.
-/
namespace Sys2Proof.Machine

theorem completes_cmdRingCfgWrite {s : State} {iss : Issuer} {x : Fin 4} {f : Fin 17} {r : Fin 32} {v : BitVec 32}
    (hl : s.dev.lands iss .HST_CR_CFG [x.val, f.val, r.val] v.toNat = true) (hst : s.dev.getF F.HST_CR_STAT_STATE [x.val, f.val, r.val] = 0) :
    Completes (.cmdRingCfgWrite iss x f r v) s (fun d => d.getF F.HST_CR_CFG_SIZE_LOG2 [x.val, f.val, r.val] = bits v.toNat 0 4 ∧
      d.getF F.HST_CR_CFG_IRQ_EN [x.val, f.val, r.val] = bits v.toNat 4 1 ∧ d.getF F.HST_CR_CFG_VECTOR [x.val, f.val, r.val] = bits v.toNat 8 6 ∧
      d.getF F.HST_CR_CFG_TACKLE [x.val, f.val, r.val] = bits v.toNat 16 16 ∧ OnlyRegs s.dev d) := by
  refine completes_of_eq rfl ((regRow_lands _ _ _ _ _ _ hl).trans (if_pos hst)) ⟨?size, ?irq, ?vector, ?tackle, rfl⟩ <;>
    simp (disch := decide) only [getF_setF_ne, getF_setF_same] <;>
    exact Nat.mod_mod _ _

/-- What ARM of a DISARMED ring that passes its checks leaves: the ring is ARMED and bound to queue `q`, with both counts 0. -/
theorem cmdArm_ok {d : Dev} {iss : Issuer} {i : List Nat} {q : Nat} (hst : d.getF F.HST_CR_STAT_STATE i = 0) (hok : d.armCheck i = .ok q) :
    ∃ e b, d.cmdArm iss i = { e with host := { e.host with binds := nset e.host.binds i b, armCount := e.host.armCount + 1 } } ∧
      e = (((d.setF F.HST_CR_STAT_STATE i 1).setF F.HST_CR_STAT_QUEUE i q).setF F.HST_CR_STAT_STATUS i Status.ok.code).setPtrs 0 i 0 0 ∧
      b = ⟨d.getF F.HST_CR_CFG_TACKLE i, q, 2 ^ d.getF F.HST_CR_CFG_SIZE_LOG2 i, d.host.armCount⟩ := by
  refine ⟨_, _, ?_, rfl, rfl⟩
  rw [Dev.cmdArm, if_neg (by simp [hst]), hok]
  simp (disch := decide) only [setPtrs_getF_reg, getF_setF_reg]
  rfl

theorem completes_cmdRingArm {s : State} {iss : Issuer} {x : Fin 4} {f : Fin 17} {r : Fin 32} {q : Nat}
    (hl : s.dev.lands iss .HST_CR_CTRL [x.val, f.val, r.val] 1 = true) (hst : s.dev.getF F.HST_CR_STAT_STATE [x.val, f.val, r.val] = 0)
    (hok : s.dev.armCheck [x.val, f.val, r.val] = .ok q) :
    Completes (.cmdRingArm iss x f r) s (fun d => d.getF F.HST_CR_STAT_STATE [x.val, f.val, r.val] = 1 ∧ d.getF F.HST_CR_STAT_QUEUE [x.val, f.val, r.val] = q % 4 ∧
      d.getF F.HST_CR_STAT_STATUS [x.val, f.val, r.val] = 0 ∧ d.getF F.HST_CR_COUNT_CONSUMED [x.val, f.val, r.val] = 0 ∧
      d.getF F.HST_CR_COUNT_PRODUCED [x.val, f.val, r.val] = 0 ∧
      nget? d.host.binds [x.val, f.val, r.val] = some ⟨s.dev.getF F.HST_CR_CFG_TACKLE [x.val, f.val, r.val], q, 2 ^ s.dev.getF F.HST_CR_CFG_SIZE_LOG2 [x.val, f.val, r.val],
        s.dev.host.armCount⟩ ∧ d.ptrsOk 0 [x.val, f.val, r.val] = true ∧ SameMem s.dev d) := by
  obtain ⟨e, b, harm, he, hb⟩ := cmdArm_ok (iss := iss) hst hok
  have hctrl : s.dev.cmdCtrl iss [x.val, f.val, r.val] 1 = s.dev.cmdArm iss [x.val, f.val, r.val] := by
    rw [Dev.cmdCtrl, if_neg (by simp [hst])]
    rfl
  refine completes_of_eq rfl ((regRow_lands _ _ _ _ _ _ hl).trans (hctrl.trans harm)) ?_
  simp only [getF_mk]
  subst he hb
  refine ⟨?state, ?queue, ?status, setPtrs_fst _ 0 _ 0 0, setPtrs_snd _ 0 _ 0 0, nget?_nset_same _ _ _, setPtrs_ptrsOk _ 0 _ 0 0, fun _ => rfl⟩ <;>
    simp (disch := decide) only [setPtrs_getF_reg, getF_setF_ne, getF_setF_same] <;> rfl

/-- DISARM of an ARMED ring with commands outstanding leaves it DRAINING (R128). -/
theorem cmdDisarm_outstanding {d : Dev} {i : List Nat} (hst : d.getF F.HST_CR_STAT_STATE i = 1)
    (hne : d.getF F.HST_CR_COUNT_CONSUMED i ≠ d.getF F.HST_CR_COUNT_PRODUCED i) : d.cmdDisarm i = d.setF F.HST_CR_STAT_STATE i 2 := by
  rw [Dev.cmdDisarm, hst]
  refine if_neg fun h => hne ?_
  simpa (disch := decide) only [getF_setF_reg] using h.2

/-- DISARM of an ARMED ring with none outstanding leaves it DISARMED, unbound and its slots returned. -/
theorem cmdDisarm_drained {d : Dev} {i : List Nat} (hst : d.getF F.HST_CR_STAT_STATE i = 1)
    (heq : d.getF F.HST_CR_COUNT_CONSUMED i = d.getF F.HST_CR_COUNT_PRODUCED i) :
    d.cmdDisarm i = { (d.setF F.HST_CR_STAT_STATE i 2).setF F.HST_CR_STAT_STATE i 0 with
      host := { d.host with binds := ndel d.host.binds i, slots := d.host.slots.filter (fun s => s.1.take 3 != i) } } := by
  rw [Dev.cmdDisarm, hst]
  exact if_pos ⟨getF_setF_same _ _ _ _, by simpa (disch := decide) only [getF_setF_reg] using heq⟩

theorem cmdDisarm_reset {d : Dev} {i : List Nat} (hst : d.getF F.HST_CR_STAT_STATE i = 3) :
    d.cmdDisarm i = d.setF F.HST_CR_STAT_STATE i 0 := by
  rw [Dev.cmdDisarm, hst]
  rfl

theorem cmdDisarm_other {d : Dev} {i : List Nat} (h1 : d.getF F.HST_CR_STAT_STATE i ≠ 1) (h3 : d.getF F.HST_CR_STAT_STATE i ≠ 3) :
    d.cmdDisarm i = d := by
  unfold Dev.cmdDisarm
  split
  next h => exact absurd h h1
  next h => exact absurd h h3
  next => rfl

/-- DISARM of a ring, by the state it finds. -/
theorem cmdDisarm_spec (d : Dev) (i : List Nat) :
    (d.getF F.HST_CR_STAT_STATE i = 3 → (d.cmdDisarm i).getF F.HST_CR_STAT_STATE i = 0) ∧
      (d.getF F.HST_CR_STAT_STATE i = 1 → d.getF F.HST_CR_COUNT_CONSUMED i ≠ d.getF F.HST_CR_COUNT_PRODUCED i →
        (d.cmdDisarm i).getF F.HST_CR_STAT_STATE i = 2 ∧ (d.cmdDisarm i).host.binds = d.host.binds) ∧
      (d.getF F.HST_CR_STAT_STATE i = 1 → d.getF F.HST_CR_COUNT_CONSUMED i = d.getF F.HST_CR_COUNT_PRODUCED i →
        (d.cmdDisarm i).getF F.HST_CR_STAT_STATE i = 0 ∧ nget? (d.cmdDisarm i).host.binds i = none) ∧
      SameRegs d (d.cmdDisarm i) [(F.HST_CR_STAT_STATE, i)] ∧ SameMem d (d.cmdDisarm i) := by
  have hset (v : Nat) : SameRegs d (d.setF F.HST_CR_STAT_STATE i v) [(F.HST_CR_STAT_STATE, i)] :=
    sameRegs_setF (.head _) (sameRegs_refl d _)
  by_cases h1 : d.getF F.HST_CR_STAT_STATE i = 1
  · by_cases hc : d.getF F.HST_CR_COUNT_CONSUMED i = d.getF F.HST_CR_COUNT_PRODUCED i
    · rw [cmdDisarm_drained h1 hc]
      exact ⟨fun h3 => absurd (h1.symm.trans h3) (by decide), fun _ hne => absurd hc hne,
        fun _ _ => ⟨getF_setF_same (d.setF F.HST_CR_STAT_STATE i 2) _ _ 0, nget?_ndel_same d.host.binds i⟩,
        sameRegs_of_regs (sameRegs_setF (v := 0) (.head _) (hset 2)) rfl, fun _ => rfl⟩
    · rw [cmdDisarm_outstanding h1 hc]
      exact ⟨fun h3 => absurd (h1.symm.trans h3) (by decide), fun _ _ => ⟨getF_setF_same _ _ _ _, rfl⟩, fun _ heq => absurd heq hc,
        hset 2, fun _ => rfl⟩
  · by_cases h3 : d.getF F.HST_CR_STAT_STATE i = 3
    · rw [cmdDisarm_reset h3]
      exact ⟨fun _ => getF_setF_same _ _ _ _, fun h => absurd h h1, fun h => absurd h h1, hset 0, fun _ => rfl⟩
    · rw [cmdDisarm_other h1 h3]
      exact ⟨fun h => absurd h h3, fun h => absurd h h1, fun h => absurd h h1, sameRegs_refl d _, fun _ => rfl⟩

theorem regRow_disarm (d : Dev) (fz : Fuses) (iss : Issuer) (i : List Nat) (hl : d.lands iss .HST_CR_CTRL i 2 = true) :
    d.regRow fz iss .HST_CR_CTRL i 2 = d.cmdDisarm i := regRow_lands d fz iss _ _ _ hl

theorem doorbell_taken {d : Dev} {i : List Nat} {n : Nat} {b : RingBind} (hn : n < 2 ^ 32) (hb : nget? d.host.binds i = some b)
    (hst : d.getF F.HST_CR_STAT_STATE i = 1) (hcons : (n + 2 ^ 32 - d.getF F.HST_CR_COUNT_CONSUMED i) % 2 ^ 32 ≤ b.size)
    (hprod : (n + 2 ^ 32 - d.getF F.HST_CR_COUNT_PRODUCED i) % 2 ^ 32 ≤ b.size) (hok : d.ptrsOk 0 i = true) :
    ∃ e, e = d.setPtrs 0 i (d.getF F.HST_CR_COUNT_CONSUMED i) n ∧ (d.doorbell i n = e ∨ d.doorbell i n = e.tdc .hostLate b.tackle) := by
  refine ⟨_, rfl, ?_⟩
  unfold Dev.doorbell
  simp only [hb, Nat.mod_eq_of_lt hn, Nat.div_eq_of_lt hn, hst, hcons, hprod, hok, and_self, if_true, Bool.not_true, Bool.false_eq_true, if_false]
  split_ifs
  · exact .inr rfl
  · exact .inl rfl

theorem completes_doorbell {s : State} {iss : Issuer} {x : Fin 4} {f : Fin 17} {r : Fin 32} {n : BitVec 32} {b : RingBind}
    (hl : s.dev.lands iss .HST_CR_DB [x.val, f.val, r.val] n.toNat = true) (hb : nget? s.dev.host.binds [x.val, f.val, r.val] = some b)
    (hst : s.dev.getF F.HST_CR_STAT_STATE [x.val, f.val, r.val] = 1)
    (hcons : (n.toNat + 2 ^ 32 - s.dev.getF F.HST_CR_COUNT_CONSUMED [x.val, f.val, r.val]) % 2 ^ 32 ≤ b.size)
    (hprod : (n.toNat + 2 ^ 32 - s.dev.getF F.HST_CR_COUNT_PRODUCED [x.val, f.val, r.val]) % 2 ^ 32 ≤ b.size)
    (hok : s.dev.ptrsOk 0 [x.val, f.val, r.val] = true) :
    Completes (.doorbell iss x f r (n.setWidth 64)) s (fun d => d.getF F.HST_CR_COUNT_PRODUCED [x.val, f.val, r.val] = n.toNat ∧
      d.getF F.HST_CR_COUNT_CONSUMED [x.val, f.val, r.val] = s.dev.getF F.HST_CR_COUNT_CONSUMED [x.val, f.val, r.val] % 2 ^ 32 ∧
      d.getF F.HST_CR_STAT_STATE [x.val, f.val, r.val] = 1 ∧ SameMem s.dev d) := by
  have hn : (n.setWidth 64).toNat = n.toNat := by
    rw [BitVec.toNat_setWidth]
    exact Nat.mod_eq_of_lt (by omega)
  obtain ⟨e, he, hdo⟩ := doorbell_taken n.isLt hb hst hcons hprod hok
  have hrow : s.dev.regRow s.fuses iss .HST_CR_DB [x.val, f.val, r.val] (n.setWidth 64).toNat = s.dev.doorbell [x.val, f.val, r.val] n.toNat := by
    rw [hn]; exact regRow_lands _ _ _ _ _ _ hl
  have hpro : e.getF F.HST_CR_COUNT_PRODUCED [x.val, f.val, r.val] = n.toNat :=
    he ▸ (setPtrs_snd s.dev 0 _ _ n.toNat).trans (Nat.mod_eq_of_lt n.isLt)
  have hcon := he ▸ setPtrs_fst s.dev 0 [x.val, f.val, r.val] (s.dev.getF F.HST_CR_COUNT_CONSUMED [x.val, f.val, r.val]) n.toNat
  have hstate : e.getF F.HST_CR_STAT_STATE [x.val, f.val, r.val] = 1 := he ▸ (setPtrs_getF_reg _ 0 _ _ _ _ _ (by decide)).trans hst
  have hmem : SameMem s.dev e := he ▸ setPtrs_sameMem _ _ _ _ _
  rcases hdo with hdo | hdo
  · exact completes_of_eq rfl (hrow.trans hdo) ⟨hpro, hcon, hstate, hmem⟩
  · refine completes_of_eq rfl (hrow.trans hdo) ?_
    simp (disch := decide) only [tdc_getF]
    exact ⟨hpro, hcon, hstate, sameMem_trans hmem (sameMem_of (tdc_mem _ _ _) (congrArg _ (tdc_bank _ _ _)))⟩

end Sys2Proof.Machine
end

section
/-!
Push windows (R125): one slot of a ring is one push write of 32 bytes.
-/
namespace Sys2Proof.Machine

theorem pushSlots_slot (k : Nat) : pushSlots (32 * k) 32 = [k] := by
  simp [pushSlots]

theorem overlay_whole (m l : List Byte) (h : m.length = l.length) : overlay m 0 l = l := by
  simp [overlay, h]

/-- An address `o` of ring `r`'s push window, as the host port takes it apart. -/
theorem window_div_mod {r o : Nat} (ho : o < 0x20000) : (r * 0x20000 + o) / 0x20000 = r ∧ (r * 0x20000 + o) % 0x20000 = o := by omega

/-- A push write of a whole slot stores its bytes there, and the slot's contents are good again (R464). -/
def Dev.slotStored (d : Dev) (i : List Nat) (k : Nat) (l : List Byte) : Dev :=
  ({ d with host := { d.host with slots := nset d.host.slots (i ++ [k]) l } } : Dev).mended (5 :: i ++ [k])

theorem pushStore_slot {d : Dev} {i : List Nat} {k : Nat} {l : List Byte} (hl : l.length = 32)
    (hs : (nget emptySlot d.host.slots (i ++ [k])).length = 32) (hok : d.pushOk i (32 * k) l = true) :
    d.pushStore i (32 * k) l = d.slotStored i k l := by
  have hlo : max (32 * k) (32 * k) - 32 * k = 0 := by omega
  have hhi : min (32 * k + 32) (32 * (k + 1)) - max (32 * k) (32 * k) = l.length := by omega
  rw [Dev.pushStore, if_pos hok, hl, pushSlots_slot, List.foldl_cons, List.foldl_nil]
  dsimp only
  rw [hlo, hhi, takeAt, List.drop_zero, List.take_length, overlay_whole _ _ (hs.trans hl.symm)]
  rfl

section
variable {d : Dev} {fz : Fuses} {x : Fin 4} {f : Fin 17} {r : Fin 32} {k : Nat} {bytes : List (BitVec 8)}

/-- The access of a host port that a push write of slot `k` of ring `r` is. -/
abbrev slotWrite (f r k : Nat) (bytes : List Byte) : Posted := .mem f 2 (r * 0x20000 + 32 * k) (.write bytes)

theorem hostDo_slotWrite (hlen : bytes.length = 32) (hk : 32 * k + 32 ≤ 0x20000)
    (hs : (nget emptySlot d.host.slots [x.val, f.val, r.val, k]).length = 32) (hok : d.pushOk [x.val, f.val, r.val] (32 * k) bytes = true) :
    d.hostDo fz x.val (slotWrite f.val r.val k bytes) = d.slotStored [x.val, f.val, r.val] k bytes := by
  obtain ⟨hring, hoff⟩ := window_div_mod (r := r.val) (o := 32 * k) (by omega)
  show d.pushStore [x.val, f.val, (r.val * 0x20000 + 32 * k) / 0x20000] ((r.val * 0x20000 + 32 * k) % 0x20000) bytes = _
  rw [hring, hoff]
  exact pushStore_slot hlen hs hok

theorem postedHeld_slotWrite (hk : 32 * k + 32 ≤ 0x20000) :
    d.postedHeld x.val (slotWrite f.val r.val k bytes) = d.pushHeld [x.val, f.val, r.val] (32 * k) bytes := by
  obtain ⟨hring, hoff⟩ := window_div_mod (r := r.val) (o := 32 * k) (by omega)
  show d.pushHeld [x.val, f.val, (r.val * 0x20000 + 32 * k) / 0x20000] ((r.val * 0x20000 + 32 * k) % 0x20000) bytes = _
  rw [hring, hoff]

end

section
variable {s : State} {x : Fin 4} {f : Fin 17} {r : Fin 32} {k : Nat} {bytes : List (BitVec 8)}

/-- With nothing waiting at the port a push access that need not be held is carried out. -/
theorem hostAccess_free {d : Dev} (fz : Fuses) {x f : Nat} {p : Posted} (hr : d.fnRuns x f = true) (hq : nget [] d.host.posted [x] = [])
    (hp : d.postedHeld x p = false) : d.hostAccess fz x f p = d.hostDo fz x p := by
  simp [Dev.hostAccess, hr, hq, hp]

/-- One that must be held waits at the port. -/
theorem hostAccess_waits {d : Dev} (fz : Fuses) {x f : Nat} {p : Posted} (hr : d.fnRuns x f = true) (hq : nget [] d.host.posted [x] = [])
    (hp : d.postedHeld x p = true) : d.hostAccess fz x f p = { d with host := { d.host with posted := nset d.host.posted [x] [p] } } := by
  simp [Dev.hostAccess, hr, hq, hp]

theorem inside_slotWrite (hlen : bytes.length = 32) (hk : 32 * k + 32 ≤ 0x20000) : (HostAcc.write bytes).inside (32 * k) 0x20000 = true := by
  simp [HostAcc.inside, HostAcc.ok, HostAcc.len, hlen, hk]

theorem completes_pushWrite (hlen : bytes.length = 32) (hk : 32 * k + 32 ≤ 0x20000)
    (hs : (nget emptySlot s.dev.host.slots [x.val, f.val, r.val, k]).length = 32) (hr : s.dev.fnRuns x.val f.val = true)
    (hq : nget [] s.dev.host.posted [x.val] = []) (hok : s.dev.pushOk [x.val, f.val, r.val] (32 * k) bytes = true)
    (hheld : s.dev.pushHeld [x.val, f.val, r.val] (32 * k) bytes = false) :
    Completes (.pushWrite x f r (32 * k) (.write bytes)) s (fun d => nget? d.host.slots [x.val, f.val, r.val, k] = some bytes ∧
      SameRegs s.dev d [] ∧ SameMem s.dev d) := by
  refine completes_of_updIf rfl (inside_slotWrite hlen hk) ?_
  rw [hostAccess_free s.fuses hr hq ((postedHeld_slotWrite hk).trans hheld), hostDo_slotWrite hlen hk hs hok]
  exact ⟨nget?_nset_same _ _ _, fun _ _ _ => rfl, fun _ => rfl⟩

theorem completes_pushWrite_read {off n : Nat} (h0 : 0 < n) (hn : n ≤ 4096) (hin : off + n ≤ 0x20000)
    (hr : s.dev.fnRuns x.val f.val = true) (hq : nget [] s.dev.host.posted [x.val] = []) :
    Completes (.pushWrite x f r off (.read n)) s (fun d => d = s.dev.emit (.mmio x.val 0)) :=
  completes_of_updIf rfl (by simp [HostAcc.inside, HostAcc.ok, HostAcc.len, h0, hn, hin]) (hostAccess_free s.fuses hr hq rfl)

theorem completes_pushWrite_held (hlen : bytes.length = 32) (hk : 32 * k + 32 ≤ 0x20000) (hr : s.dev.fnRuns x.val f.val = true)
    (hq : nget [] s.dev.host.posted [x.val] = []) (hheld : s.dev.pushHeld [x.val, f.val, r.val] (32 * k) bytes = true) :
    Completes (.pushWrite x f r (32 * k) (.write bytes)) s (fun d =>
      nget [] d.host.posted [x.val] = [.mem f.val 2 (r.val * 0x20000 + 32 * k) (.write bytes)] ∧ d.host.slots = s.dev.host.slots ∧
      SameRegs s.dev d [] ∧ SameMem s.dev d) := by
  refine completes_of_updIf rfl (inside_slotWrite hlen hk) ?_
  rw [hostAccess_waits s.fuses hr hq ((postedHeld_slotWrite hk).trans hheld)]
  exact ⟨nget_nset_same _ _ _ _, rfl, fun _ _ _ => rfl, fun _ => rfl⟩

theorem completes_pushWriteRelease (hlen : bytes.length = 32) (hk : 32 * k + 32 ≤ 0x20000)
    (hs : (nget emptySlot s.dev.host.slots [x.val, f.val, r.val, k]).length = 32) (hr : s.dev.portRuns x.val = true)
    (hq : nget [] s.dev.host.posted [x.val] = [.mem f.val 2 (r.val * 0x20000 + 32 * k) (.write bytes)])
    (hok : s.dev.pushOk [x.val, f.val, r.val] (32 * k) bytes = true) (hheld : s.dev.pushHeld [x.val, f.val, r.val] (32 * k) bytes = false) :
    Completes (.pushWriteRelease x) s (fun d => nget? d.host.slots [x.val, f.val, r.val, k] = some bytes ∧ nget [] d.host.posted [x.val] = [] ∧
      SameRegs s.dev d [] ∧ SameMem s.dev d) := by
  have hgo : s.dev.drainPosted s.fuses x.val [slotWrite f.val r.val k bytes]
      = (s.dev.hostDo s.fuses x.val (slotWrite f.val r.val k bytes)).drainPosted s.fuses x.val [] :=
    if_neg (by rw [postedHeld_slotWrite hk, hheld]; decide)
  have hdo : s.dev.pushRelease s.fuses x.val = (s.dev.slotStored [x.val, f.val, r.val] k bytes).drainPosted s.fuses x.val [] := by
    rw [Dev.pushRelease, if_pos hr, hq, hgo, hostDo_slotWrite hlen hk hs hok]
  refine completes_of_eq rfl hdo ⟨nget?_nset_same _ _ _, ?_, fun _ _ _ => rfl, fun _ => rfl⟩
  exact tget_tdel_same [] [x.val] s.dev.host.posted

end

/-- Settles O14: every clause holds, each by the lemma above for its command. -/
theorem commandRingsAndPushes : Obligations.CommandRingsAndPushes := by
  refine ⟨?cfg, ?arm, ?disarm, ?push, ?read, ?held, ?release, ?doorbell⟩
  case cfg => exact fun _ _ _ _ _ _ hl hst => completes_cmdRingCfgWrite hl hst
  case arm => exact fun _ _ _ _ _ _ hl hst hok => completes_cmdRingArm hl hst hok
  case disarm => exact fun s iss x f r hl => completes_of_eq rfl (regRow_disarm s.dev s.fuses iss _ hl) (cmdDisarm_spec s.dev _)
  case push => exact fun _ _ _ _ _ _ hlen hk hs hr hq hok hheld => completes_pushWrite hlen hk hs hr hq hok hheld
  case read => exact fun _ _ _ _ _ _ h0 hn hin hr hq => completes_pushWrite_read h0 hn hin hr hq
  case held => exact fun _ _ _ _ _ _ hlen hk hr hq hheld => completes_pushWrite_held hlen hk hr hq hheld
  case release => exact fun _ _ _ _ _ _ hlen hk hs hr hq hok hheld => completes_pushWriteRelease hlen hk hs hr hq hok hheld
  case doorbell => exact fun _ _ _ _ _ _ _ hl hb hst hcons hprod hok => completes_doorbell hl hb hst hcons hprod hok

end Sys2Proof.Machine
end

section
/-!
The protection set-up (R136, R137, R139): a change is numbered and noted, and drains.
-/
namespace Sys2Proof.Machine

/-- Changes that drain at once leave the list from its front up to the first of another item. -/
theorem protDrainFresh_ne_nil (l : List ProtChg) (c : ProtChg) (g : Nat) (hc : c.item ≠ 3) : (protDrainFresh (l ++ [c]) g).2 ≠ [] := by
  induction l generalizing g with
  | nil => simp [protDrainFresh, hc]
  | cons x t ih =>
    rw [List.cons_append, protDrainFresh]
    split_ifs
    · exact ih _
    · exact List.cons_ne_nil _ _

theorem protItem_bit_ne_three (it : ProtItem) (h : it ≠ .fresh) : it.bit ≠ 3 := by
  revert h; cases it <;> decide

/-- An accepted write is one more change: it is noted, unless it drains at once. -/
theorem protChange_spec (d : Dev) (it : ProtItem) : ∃ h n p,
    d.protChange it = { ((d.setF F.MST_PROT_GEN_GEN [] ((d.getF F.MST_PROT_GEN_GEN + 1) % 2 ^ 32)).setF F.MST_PROT_DRAINED_DRAINED [] n).setF
      F.MST_PROT_STAT_PENDING [] p with host := h } ∧ (it ≠ .fresh → h.prot ≠ []) := by
  exact ⟨_, _, _, rfl, fun hit => protDrainFresh_ne_nil _ _ _ (protItem_bit_ne_three it hit)⟩

theorem completes_protSetupWrite_key {s : State} {iss : Issuer} {p : Fin 8} {e : Fin 32} {i : Fin 64} {v : BitVec 32}
    (hl : s.dev.lands iss .PRT_PKEY [p.val, e.val, i.val] v.toNat = true) :
    Completes (.protSetupWrite iss (.key p e i) v) s (fun d => d.getF F.PRT_PKEY_KEY [p.val, e.val, i.val] = bits v.toNat 0 16 ∧
      d.getF F.PRT_PKEY_LIMIT [p.val, e.val, i.val] = bits v.toNat 16 12 ∧ d.getF F.PRT_PKEY_VALID [p.val, e.val, i.val] = bits v.toNat 31 1 ∧
      d.getF F.MST_PROT_GEN_GEN = (s.dev.getF F.MST_PROT_GEN_GEN + 1) % 2 ^ 32 ∧ d.host.prot ≠ [] ∧ SameMem s.dev d) := by
  generalize hw : s.dev.plainWrite .PRT_PKEY [p.val, e.val, i.val] v.toNat = w
  have hentry : w = ((s.dev.setF F.PRT_PKEY_KEY [p.val, e.val, i.val] (bits v.toNat 0 16)).setF F.PRT_PKEY_LIMIT [p.val, e.val, i.val]
    (bits v.toNat 16 12)).setF F.PRT_PKEY_VALID [p.val, e.val, i.val] (bits v.toNat 31 1) := hw.symm
  have hrow : s.dev.regRow s.fuses iss .PRT_PKEY [p.val, e.val, i.val] v.toNat = w.protChange .keys :=
    hw ▸ regRow_lands _ _ _ _ _ _ hl
  obtain ⟨h, n, q, hchange, hprot⟩ := protChange_spec w .keys
  refine completes_of_eq rfl (hrow.trans hchange) ?_
  subst hentry
  simp (disch := decide) only [getF_mk, getF_setF_ne, getF_setF_same]
  exact ⟨Nat.mod_mod _ _, Nat.mod_mod _ _, Nat.mod_mod _ _, Nat.mod_mod _ _, hprot (by decide), fun _ => rfl⟩

theorem protDrained_single {d : Dev} {c : ProtChg} (hprot : d.host.prot = [c]) (hdone : d.protDone c = true) :
    d.protDrained = { (d.setF F.MST_PROT_DRAINED_DRAINED [] c.num).setF F.MST_PROT_STAT_PENDING [] 0 with host := { d.host with prot := [] } } := by
  simp only [Dev.protDrained, hprot, hdone, if_true]
  rfl

theorem completes_protDrained {s : State} {c : ProtChg} (hprot : s.dev.host.prot = [c]) (hdone : s.dev.protDone c = true) (hc : c.num < 2 ^ 32) :
    Completes .protDrained s (fun d => d.host.prot = [] ∧ d.getF F.MST_PROT_DRAINED_DRAINED = c.num ∧ d.getF F.MST_PROT_STAT_PENDING = 0 ∧
      SameRegs s.dev d [(F.MST_PROT_DRAINED_DRAINED, []), (F.MST_PROT_STAT_PENDING, [])] ∧ SameMem s.dev d) := by
  generalize hd : (s.dev.setF F.MST_PROT_DRAINED_DRAINED [] c.num).setF F.MST_PROT_STAT_PENDING [] 0 = d
  have hdrained : d.getF F.MST_PROT_DRAINED_DRAINED = c.num % 2 ^ 32 :=
    hd ▸ (getF_setF_ne _ F.MST_PROT_STAT_PENDING _ _ _ _ (by decide)).trans (getF_setF_same _ _ _ _)
  have hpending : d.getF F.MST_PROT_STAT_PENDING = 0 := hd ▸ getF_setF_same _ _ _ _
  have hregs : SameRegs s.dev d [(F.MST_PROT_DRAINED_DRAINED, []), (F.MST_PROT_STAT_PENDING, [])] :=
    hd ▸ sameRegs_setF (.tail _ (.head _)) (sameRegs_setF (.head _) (sameRegs_refl s.dev _))
  refine completes_of_eq rfl ((protDrained_single hprot hdone).trans (by rw [hd])) ?_
  exact ⟨rfl, hdrained.trans (Nat.mod_eq_of_lt hc), hpending, sameRegs_of_regs hregs rfl, fun _ => hd ▸ rfl⟩

end Sys2Proof.Machine
end

section
/-!
The formation of a port (R150): a port that goes down on the way moves no byte of memory, and what the formation gives the lanes lies in
their status.
-/
namespace Sys2Proof.Machine

/-- What a byte of memory reads from: the cells, and what a reset made undefined. -/
def Dev.contents (d : Dev) : List Host.Cell × List (Nat × Nat × Nat) := (d.mem, d.bank.lost)

theorem sameMem_of_contents {d e : Dev} (h : e.contents = d.contents) : SameMem d e :=
  sameMem_of (congrArg Prod.fst h) (congrArg Prod.snd h)

theorem contents_foldl {α : Type} {f : Dev → α → Dev} (h : ∀ d x, (f d x).contents = d.contents) (l : List α) (d : Dev) :
    (l.foldl f d).contents = d.contents := by
  induction l generalizing d with
  | nil => rfl
  | cons x t ih => exact (ih _).trans (h d x)

theorem contents_ite {c : Prop} [Decidable c] {d x y : Dev} (hx : x.contents = d.contents) (hy : y.contents = d.contents) :
    (if c then x else y).contents = d.contents := by split_ifs <;> assumption

theorem withNet_contents (d : Dev) (x : NetSt) : ({ d with net := x } : Dev).contents = d.contents := rfl

@[simp] theorem setF_contents (d : Dev) (f : Field) (i : List Nat) (v : Nat) : (d.setF f i v).contents = d.contents := rfl
@[simp] theorem raise_contents (d : Dev) (f : Field) (i : List Nat) : (d.raise f i).contents = d.contents := rfl
@[simp] theorem clear_contents (d : Dev) (f : Field) (i : List Nat) : (d.clear f i).contents = d.contents := rfl
@[simp] theorem addSat_contents (d : Dev) (f : Field) (i : List Nat) (n : Nat) : (d.addSat f i n).contents = d.contents := rfl
@[simp] theorem setLink_contents (d : Dev) (k : Nat × Nat) (l : LinkSt) : (d.setLink k l).contents = d.contents := rfl
@[simp] theorem fault_contents (d : Dev) (n : DieNo) (s : FSrc) : (d.fault n s).contents = d.contents := by simp [Dev.contents]

theorem loseIn_contents (d : Dev) (k : Nat × Nat) (i : Nat) (st : Status) : (d.loseIn k i st).contents = d.contents := by
  unfold Dev.loseIn
  dsimp only
  split
  · rfl
  · split <;> rfl

theorem startIsland_contents (d : Dev) (g : Nat) : (d.startIsland g).contents = d.contents := contents_ite rfl rfl

theorem portLanesDown_contents (d : Dev) (k : Nat × Nat) : (d.portLanesDown k).contents = d.contents := by
  unfold Dev.portLanesDown
  refine (contents_foldl (fun d i => ?_) _ _).trans rfl
  exact contents_ite (contents_ite (startIsland_contents _ _) rfl) rfl

theorem portDown_contents (d : Dev) (k : Nat × Nat) : (d.portDown k).contents = d.contents := by
  have hlose (l : List Nat) (e : Dev) : (l.foldl (fun d j => d.loseIn k j .unitReset) e).contents = e.contents :=
    contents_foldl (fun d j => loseIn_contents d k j .unitReset) l e
  have hcredit (l : List Nat) (e : Dev) : (l.foldl (fun d v => d.setF (crField v) [k.1, k.2] 0) e).contents = e.contents :=
    contents_foldl (fun d v => setF_contents d (crField v) [k.1, k.2] 0) l e
  unfold Dev.portDown
  refine contents_ite rfl ?_
  dsimp only
  rw [withNet_contents, portLanesDown_contents]
  simp [hlose, hcredit, -List.foldl_reverse]

/-- A sound formation of a port engine that is disabled: at most the port goes down, the register takes the word, and beside it only the
status of the die's lanes follows. -/
theorem portCfg_formed {d : Dev} {p e v : Nat} (hok : d.portCfgBad p e v = false) (hen : d.flag F.PRT_PORT_CFG_EN [p, e] = false) :
    ∃ b : Dev, b.contents = d.contents ∧ Touches laneFields (b.plainWrite .PRT_PORT_CFG [p, e] v) (d.portCfg p e v) := by
  rw [Dev.portCfg, hok, if_neg (by decide), hen, Bool.false_and]
  simp only [Bool.false_or, Bool.false_eq_true, if_false]
  refine ⟨_, ?down, (laneAssign_touches _ p).trans (.ite (.refl _ _) (.foldl (fun d i => ?lane) _ _))⟩
  case down => exact contents_ite (portDown_contents d (p, e)) rfl
  case lane => exact .ite (((Touches.refl _ d).setF (by decide) _ _).trans (toDetect_touches _ _ _)) (.refl _ d)

theorem completes_portCfgWrite {s : State} {iss : Issuer} {p : Fin 8} {e : Fin 32} {v : BitVec 32}
    (hl : s.dev.lands iss .PRT_PORT_CFG [p.val, e.val] v.toNat = true) (hok : s.dev.portCfgBad p.val e.val v.toNat = false)
    (hen : s.dev.flag F.PRT_PORT_CFG_EN [p.val, e.val] = false) :
    Completes (.portCfgWrite iss p e v) s (fun d => d.getF F.PRT_PORT_CFG_BASE_POS [p.val, e.val] = bits v.toNat 0 7 ∧
      d.getF F.PRT_PORT_CFG_WIDTH_LOG2 [p.val, e.val] = bits v.toNat 7 3 ∧ d.getF F.PRT_PORT_CFG_MODE [p.val, e.val] = bits v.toNat 10 2 ∧
      d.getF F.PRT_PORT_CFG_MIN_LIVE [p.val, e.val] = bits v.toNat 12 5 ∧ d.getF F.PRT_PORT_CFG_EN [p.val, e.val] = bits v.toNat 17 1 ∧ SameMem s.dev d) := by
  obtain ⟨b, hb, htouch⟩ := portCfg_formed hok hen
  have hword : b.plainWrite .PRT_PORT_CFG [p.val, e.val] v.toNat = (((((((b.setF F.PRT_PORT_CFG_BASE_POS [p.val, e.val] (bits v.toNat 0 7)).setF
    F.PRT_PORT_CFG_WIDTH_LOG2 [p.val, e.val] (bits v.toNat 7 3)).setF F.PRT_PORT_CFG_MODE [p.val, e.val] (bits v.toNat 10 2)).setF
    F.PRT_PORT_CFG_MIN_LIVE [p.val, e.val] (bits v.toNat 12 5)).setF F.PRT_PORT_CFG_EN [p.val, e.val] (bits v.toNat 17 1)).setF
    F.PRT_PORT_CFG_REEF_EN [p.val, e.val] (bits v.toNat 18 1)).setF F.PRT_PORT_CFG_RETRY_S [p.val, e.val] (bits v.toNat 20 8)) := rfl
  refine completes_of_eq rfl (regRow_lands _ _ _ _ _ _ hl) ?_
  refine ⟨?base, ?width, ?mode, ?least, ?en, sameMem_of_contents ?mem⟩
  case mem => exact (Prod.ext htouch.mem htouch.lost).trans hb
  all_goals
    refine (htouch.fields _ _ (by decide)).trans ?_
    rw [hword]
    simp (disch := decide) only [getF_setF_ne, getF_setF_same]
    exact Nat.mod_mod _ _

/-- Settles O16: every clause holds, each by the lemma above for its command. -/
theorem protectionSetUpChanges : Obligations.ProtectionSetUpChanges := by
  refine ⟨?key, ?drained, ?port⟩
  case key => exact fun _ _ _ _ _ _ hl => completes_protSetupWrite_key hl
  case drained => exact fun _ _ hprot hdone hc => completes_protDrained hprot hdone hc
  case port => exact fun _ _ _ _ _ hl hok hen => completes_portCfgWrite hl hok hen

end Sys2Proof.Machine
end

section
/-!
LNE_CTRL (R119, R154, R169): a write stores the settings, and then retrains, tests or slips the lane.
-/
namespace Sys2Proof.Machine

theorem testBit_bits (n lo w i : Nat) : (bits n lo w).testBit i = (decide (i < w) && n.testBit (lo + i)) := by
  rw [bits, Nat.testBit_mod_two_pow, Nat.testBit_div_two_pow, Nat.add_comm]

/-- Setting a bit outside a field leaves the field. -/
theorem bits_lor_outside (n lo w k : Nat) (h : k < lo ∨ lo + w ≤ k) : bits (n ||| 2 ^ k) lo w = bits n lo w := by
  refine Nat.eq_of_testBit_eq fun i => ?_
  rw [testBit_bits, testBit_bits, Nat.testBit_or, Nat.testBit_two_pow]
  by_cases hi : i < w
  · have hk : k ≠ lo + i := by omega
    simp [hk]
  · simp [hi]

theorem bit_lor (n k i : Nat) : bit (n ||| 2 ^ k) i = (bit n i || decide (k = i)) := by
  rw [bit_eq_testBit, bit_eq_testBit, Nat.testBit_or, Nat.testBit_two_pow]

/-- The settings that a write of LNE_CTRL stores. -/
def Dev.laneSettings (d : Dev) (i : List Nat) (v : Nat) : Dev :=
  (((d.setF F.LNE_CTRL_EN i (bits v 0 1)).setF F.LNE_CTRL_AUTO_ALIGN i (bits v 1 1)).setF F.LNE_CTRL_AUTO_EQ i (bits v 2 1)).setF
    F.LNE_CTRL_PRECODE_ALLOW i (bits v 3 1)

theorem laneSettings_getF (d : Dev) (i : List Nat) (v : Nat) (f : Field) (j : List Nat) (hf : f.reg ≠ .LNE_CTRL) :
    (d.laneSettings i v).getF f j = d.getF f j := by
  have hne : RegName.LNE_CTRL ≠ f.reg := hf.symm
  rw [Dev.laneSettings, getF_setF_reg _ _ _ _ _ _ hne, getF_setF_reg _ _ _ _ _ _ hne, getF_setF_reg _ _ _ _ _ _ hne,
    getF_setF_reg _ _ _ _ _ _ hne]

theorem laneSettings_en (d : Dev) (i : List Nat) (v : Nat) : (d.laneSettings i v).getF F.LNE_CTRL_EN i = bits v 0 1 := by
  simp (disch := decide) only [Dev.laneSettings, getF_setF_ne, getF_setF_same]
  exact Nat.mod_mod _ _

theorem laneSettings_align (d : Dev) (i : List Nat) (v : Nat) : (d.laneSettings i v).getF F.LNE_CTRL_AUTO_ALIGN i = bits v 1 1 := by
  simp (disch := decide) only [Dev.laneSettings, getF_setF_ne, getF_setF_same]
  exact Nat.mod_mod _ _

section
variable {d : Dev} {p l v : Nat}

theorem laneCtrl_retrain (h4 : bit v 4 = true) (h5 : bit v 5 = false) (h8 : bits v 8 8 = 0) :
    d.laneCtrl [p, l] v = (d.laneSettings [p, l] v).laneRetrain p l := by
  rw [Dev.laneCtrl, h4, h5, h8]
  rfl

theorem laneCtrl_selftest (h4 : bit v 4 = false) (h5 : bit v 5 = true) (h8 : bits v 8 8 = 0) :
    d.laneCtrl [p, l] v = (d.laneSettings [p, l] v).laneSelftest p l := by
  rw [Dev.laneCtrl, h4, h5, h8]
  rfl

theorem laneCtrl_bitslip (h4 : bit v 4 = false) (h5 : bit v 5 = false) (h8 : bits v 8 8 ≠ 0) :
    d.laneCtrl [p, l] v = (d.laneSettings [p, l] v).bitslip p l (bits v 8 8) := by
  rw [Dev.laneCtrl, h4, h5]
  exact if_neg h8

end

/-- Which port a circuit belongs to rests on the spares and the formations. -/
theorem laneOwner_congr {d e : Dev} (hr : ∀ (f : Field) (i : List Nat), f.reg = .LNE_SPARE ∨ f.reg = .PRT_PORT_CFG → e.getF f i = d.getF f i)
    (p l : Nat) : e.laneOwner p l = d.laneOwner p l := by
  have hspare : e.sparePos p (l / 33) = d.sparePos p (l / 33) := by
    rw [Dev.sparePos, Dev.sparePos, Dev.flag, Dev.flag, hr F.LNE_SPARE_IN_USE _ (.inl rfl), hr F.LNE_SPARE_POS _ (.inl rfl)]
  have hspan (x : Nat) : e.portSpan (p, x) = d.portSpan (p, x) := by
    rw [Dev.portSpan, Dev.portSpan, hr F.PRT_PORT_CFG_BASE_POS _ (.inr rfl), hr F.PRT_PORT_CFG_WIDTH_LOG2 _ (.inr rfl)]
  have hport (q : Nat) : e.portOfPos p q = d.portOfPos p q := by
    refine congrArg (List.find? · (List.range 32)) (funext fun x => ?_)
    rw [hspan, Dev.flag, Dev.flag, hr F.PRT_PORT_CFG_EN _ (.inr rfl)]
  have hpos : e.positionOf p l = d.positionOf p l := by rw [Dev.positionOf, Dev.positionOf, hspare]
  unfold Dev.laneOwner
  rw [hpos]
  split
  · rfl
  · simp only [hport, hspan]

section
variable {d : Dev} {p l v i : Nat} {k : Nat × Nat}

theorem laneSettings_laneOwner (j : List Nat) : (d.laneSettings j v).laneOwner p l = d.laneOwner p l :=
  laneOwner_congr (fun f i hf => laneSettings_getF d j v f i (by rcases hf with h | h <;> simp [h])) p l

theorem laneSettings_laneState (j : List Nat) : (d.laneSettings j v).laneState p l = d.laneState p l := laneSettings_getF d j v _ _ (by decide)

theorem laneSettings_portUp (j : List Nat) : (d.laneSettings j v).portUp k = d.portUp k :=
  congrArg (· == 1) (laneSettings_getF d j v _ _ (by decide))

/-- RETRAIN of a lane in MISMATCH, its port down, starts it again at DETECT (R153, R169). -/
theorem laneRetrain_mismatch (ho : d.laneOwner p l = some (k, i)) (hup : d.portUp k = false) (hst : d.laneState p l = 0xA) :
    d.laneRetrain p l = (d.setF F.LNE_STAT_MISMATCH [p, l] 0).toDetect p l := by
  simp [Dev.laneRetrain, ho, hup, hst]

/-- SELFTEST of a lane in use, its port down, starts its test (R162, R169). -/
theorem laneSelftest_down (ho : d.laneOwner p l = some (k, i)) (hup : d.portUp k = false) (h1 : 1 ≤ d.laneState p l) (h7 : d.laneState p l ≤ 7) :
    d.laneSelftest p l = d.toState p l 0xB := by
  rw [Dev.laneSelftest, ho]
  simp only [hup, Bool.false_and, Bool.false_eq_true, if_false]
  exact if_neg (by omega)

end

/-- A circuit that starts again at DETECT keeps every field but its STATE and SYNC_OK. -/
theorem toDetect_getF (d : Dev) (p l : Nat) (f : Field) (i : List Nat) (hst : fieldNe F.LNE_STAT_STATE f = true)
    (hsync : fieldNe F.LNE_STAT_SYNC_OK f = true) : (d.toDetect p l).getF f i = d.getF f i :=
  (getF_setF_ne _ F.LNE_STAT_STATE f [p, l] i 1 hst).trans
    (getF_setF_ne (d.setLane p l { d.lane p l with accepted := false, acked := false, after := none }) F.LNE_STAT_SYNC_OK f [p, l] i 0 hsync)

theorem toState_laneState (d : Dev) (p l : Nat) {st : Nat} (h : st < 16) : (d.toState p l st).laneState p l = st :=
  (getF_setF_same _ _ _ _).trans (Nat.mod_eq_of_lt h)

section
variable {s : State} {iss : Issuer} {p : Fin 8} {l : Fin 132} {v : BitVec 32} {k : Nat × Nat} {i : Nat}

theorem completes_laneRetrain (hl : s.dev.lands iss .LNE_CTRL [p.val, l.val] (v.toNat ||| 0x10) = true) (h5 : bit v.toNat 5 = false)
    (h8 : bits v.toNat 8 8 = 0) (ho : s.dev.laneOwner p.val l.val = some (k, i)) (hup : s.dev.portUp k = false)
    (hst : s.dev.laneState p.val l.val = 0xA) :
    Completes (.laneRetrain iss p l v) s (fun d => d.laneState p.val l.val = 1 ∧ d.getF F.LNE_STAT_MISMATCH [p.val, l.val] = 0 ∧
      d.getF F.LNE_CTRL_EN [p.val, l.val] = bits v.toNat 0 1 ∧ SameMem s.dev d) := by
  generalize hw : s.dev.laneSettings [p.val, l.val] (v.toNat ||| 2 ^ 4) = w
  have hdo : s.dev.laneCtrl [p.val, l.val] (v.toNat ||| 2 ^ 4) = (w.setF F.LNE_STAT_MISMATCH [p.val, l.val] 0).toDetect p.val l.val := by
    rw [laneCtrl_retrain (by rw [bit_lor]; simp) (by rw [bit_lor, h5]; rfl) (by rw [bits_lor_outside _ _ _ _ (by decide), h8]), hw]
    refine laneRetrain_mismatch (k := k) (i := i) ?_ ?_ ?_
    · rw [← hw, laneSettings_laneOwner, ho]
    · rw [← hw, laneSettings_portUp, hup]
    · rw [← hw, laneSettings_laneState, hst]
  have htouch := toDetect_touches (w.setF F.LNE_STAT_MISMATCH [p.val, l.val] 0) p.val l.val
  have hen : w.getF F.LNE_CTRL_EN [p.val, l.val] = bits v.toNat 0 1 := by
    rw [← hw, laneSettings_en, bits_lor_outside _ _ _ _ (by decide)]
  refine completes_of_eq rfl ((regRow_lands _ _ _ _ _ _ hl).trans hdo) ⟨toState_laneState _ _ _ (by decide), ?mismatch, ?en, ?mem⟩
  case mismatch => exact (toDetect_getF _ _ _ _ _ (by decide) (by decide)).trans (getF_setF_same _ _ _ _)
  case en => exact (htouch.fields _ _ (by decide)).trans ((getF_setF_ne _ _ _ _ _ _ (by decide)).trans hen)
  case mem => exact fun a => (htouch.sameMem a).trans (hw ▸ rfl)

theorem completes_laneSelftestCmd (hl : s.dev.lands iss .LNE_CTRL [p.val, l.val] (v.toNat ||| 0x20) = true) (h4 : bit v.toNat 4 = false)
    (h8 : bits v.toNat 8 8 = 0) (ho : s.dev.laneOwner p.val l.val = some (k, i)) (hup : s.dev.portUp k = false)
    (h1 : 1 ≤ s.dev.laneState p.val l.val) (h7 : s.dev.laneState p.val l.val ≤ 7) :
    Completes (.laneSelftestCmd iss p l v) s (fun d => d.laneState p.val l.val = 0xB ∧
      d.getF F.LNE_CTRL_EN [p.val, l.val] = bits v.toNat 0 1 ∧ SameMem s.dev d) := by
  generalize hw : s.dev.laneSettings [p.val, l.val] (v.toNat ||| 2 ^ 5) = w
  have hdo : s.dev.laneCtrl [p.val, l.val] (v.toNat ||| 2 ^ 5) = w.toState p.val l.val 0xB := by
    rw [laneCtrl_selftest (by rw [bit_lor, h4]; rfl) (by rw [bit_lor]; simp) (by rw [bits_lor_outside _ _ _ _ (by decide), h8]), hw]
    refine laneSelftest_down (k := k) (i := i) ?_ ?_ ?_ ?_
    · rw [← hw, laneSettings_laneOwner, ho]
    · rw [← hw, laneSettings_portUp, hup]
    all_goals rwa [← hw, laneSettings_laneState]
  have hen : w.getF F.LNE_CTRL_EN [p.val, l.val] = bits v.toNat 0 1 := by
    rw [← hw, laneSettings_en, bits_lor_outside _ _ _ _ (by decide)]
  refine completes_of_eq rfl ((regRow_lands _ _ _ _ _ _ hl).trans hdo) ⟨toState_laneState _ _ _ (by decide), ?en, fun _ => hw ▸ rfl⟩
  case en => exact (getF_setF_ne _ F.LNE_STAT_STATE F.LNE_CTRL_EN _ _ _ (by decide)).trans hen

/-- BITSLIP with AUTO_ALIGN 0 moves the receive boundary, once the settings are stored (R154). -/
theorem completes_laneBitslip (hl : s.dev.lands iss .LNE_CTRL [p.val, l.val] v.toNat = true) (h1 : bit v.toNat 1 = false)
    (h4 : bit v.toNat 4 = false) (h5 : bit v.toNat 5 = false) (h8 : bits v.toNat 8 8 ≠ 0) :
    Completes (.laneBitslip iss p l v) s (fun d => (d.lane p.val l.val).boundary = ((s.dev.lane p.val l.val).boundary + bits v.toNat 8 8) % 2720 ∧
      d.flag F.LNE_STAT_SYNC_OK [p.val, l.val] = false ∧ d.getF F.LNE_CTRL_EN [p.val, l.val] = bits v.toNat 0 1 ∧ SameMem s.dev d) := by
  generalize hw : s.dev.laneSettings [p.val, l.val] v.toNat = w
  have hauto : w.flag F.LNE_CTRL_AUTO_ALIGN [p.val, l.val] = false := by
    rw [← hw, Dev.flag, laneSettings_align]
    exact h1
  have hdo : s.dev.laneCtrl [p.val, l.val] v.toNat = (w.setLane p.val l.val { w.lane p.val l.val with
      boundary := ((w.lane p.val l.val).boundary + bits v.toNat 8 8) % 2720 }).clear F.LNE_STAT_SYNC_OK [p.val, l.val] := by
    rw [laneCtrl_bitslip h4 h5 h8, hw]
    exact if_neg (by simpa using hauto)
  refine completes_of_eq rfl ((regRow_lands _ _ _ _ _ _ hl).trans hdo) ⟨?boundary, flag_clear _ _ _, ?en, fun _ => hw ▸ rfl⟩
  case boundary => exact (congrArg LaneSt.boundary (nget_nput_same _ _ _ _)).trans (hw ▸ rfl)
  case en => exact (getF_setF_ne _ F.LNE_STAT_SYNC_OK F.LNE_CTRL_EN _ _ _ (by decide)).trans (hw ▸ laneSettings_en _ _ _)

end

end Sys2Proof.Machine
end

section
/-!
LNE_TXEQ and the eye measurement (R158, R159).
-/
namespace Sys2Proof.Machine

section
variable {s : State} {iss : Issuer} {p : Fin 8} {l : Fin 132} {v : BitVec 32}

theorem txeq_stored (d : Dev) (i : List Nat) (v : Nat) :
    (d.plainWrite .LNE_TXEQ i v).getF F.LNE_TXEQ_C_M3 i = bits v 0 6 ∧ (d.plainWrite .LNE_TXEQ i v).getF F.LNE_TXEQ_C_M2 i = bits v 6 6 ∧
      (d.plainWrite .LNE_TXEQ i v).getF F.LNE_TXEQ_C_M1 i = bits v 12 6 ∧ (d.plainWrite .LNE_TXEQ i v).getF F.LNE_TXEQ_C_0 i = bits v 18 6 ∧
      (d.plainWrite .LNE_TXEQ i v).getF F.LNE_TXEQ_C_P1 i = bits v 24 6 := by
  have hword : d.plainWrite .LNE_TXEQ i v = ((((d.setF F.LNE_TXEQ_C_M3 i (bits v 0 6)).setF F.LNE_TXEQ_C_M2 i (bits v 6 6)).setF
    F.LNE_TXEQ_C_M1 i (bits v 12 6)).setF F.LNE_TXEQ_C_0 i (bits v 18 6)).setF F.LNE_TXEQ_C_P1 i (bits v 24 6) := rfl
  rw [hword]
  simp (disch := decide) only [getF_setF_ne, getF_setF_same]
  exact ⟨Nat.mod_mod _ _, Nat.mod_mod _ _, Nat.mod_mod _ _, Nat.mod_mod _ _, Nat.mod_mod _ _⟩

theorem completes_txeqWrite (hl : s.dev.lands iss .LNE_TXEQ [p.val, l.val] v.toNat = true) :
    Completes (.txeqWrite iss p l v) s (fun d =>
      (tapSum v.toNat ≤ 63 → d.getF F.LNE_TXEQ_C_M3 [p.val, l.val] = bits v.toNat 0 6 ∧ d.getF F.LNE_TXEQ_C_M2 [p.val, l.val] = bits v.toNat 6 6 ∧ d.getF F.LNE_TXEQ_C_M1 [p.val, l.val] = bits v.toNat 12 6 ∧
        d.getF F.LNE_TXEQ_C_0 [p.val, l.val] = bits v.toNat 18 6 ∧ d.getF F.LNE_TXEQ_C_P1 [p.val, l.val] = bits v.toNat 24 6) ∧
      (63 < tapSum v.toNat → d.flag F.LNE_STAT_EQ_REJECT [p.val, l.val] = true ∧ SameRegs s.dev d [(F.LNE_STAT_EQ_REJECT, [p.val, l.val])]) ∧ OnlyRegs s.dev d) := by
  have hrow := regRow_lands _ s.fuses _ _ _ _ hl
  by_cases h : 63 < tapSum v.toNat
  · obtain ⟨hflag, hregs, honly⟩ := raise_only s.dev F.LNE_STAT_EQ_REJECT [p.val, l.val] rfl
    exact completes_of_eq rfl (hrow.trans (if_pos h)) ⟨fun hle => absurd h (by omega), fun _ => ⟨hflag, hregs⟩, honly⟩
  · exact completes_of_eq rfl (hrow.trans (if_neg h)) ⟨fun _ => txeq_stored s.dev _ _, fun hlt => absurd hlt h, rfl⟩

/-- A write with START is EYE_MEASURE. -/
theorem regRow_eyeStart (fz : Fuses) {d : Dev} {p l v : Nat} (hl : d.lands iss .LNE_EYE_CTRL [p, l] (v ||| 2 ^ 0) = true) :
    d.regRow fz iss .LNE_EYE_CTRL [p, l] (v ||| 2 ^ 0) = d.eyeMeasure p l (v ||| 2 ^ 0) :=
  (regRow_lands _ _ _ _ _ _ hl).trans (if_pos (by rw [bit_lor]; simp))

theorem exec_eyeMeasure_busy (hl : s.dev.lands iss .LNE_EYE_CTRL [p.val, l.val] (v.toNat ||| 0x1) = true)
    (hb : s.dev.flag F.LNE_EYE_CTRL_BUSY [p.val, l.val] = true) : exec (.eyeMeasure iss p l v) s = .next s := by
  have hdo : s.dev.regRow s.fuses iss .LNE_EYE_CTRL [p.val, l.val] (v.toNat ||| 0x1) = s.dev := (regRow_eyeStart s.fuses hl).trans (if_pos hb)
  show Host.Outcome.next { s with dev := s.dev.regRow s.fuses iss .LNE_EYE_CTRL [p.val, l.val] (v.toNat ||| 0x1) } = _
  rw [hdo]

theorem completes_eyeMeasure (hl : s.dev.lands iss .LNE_EYE_CTRL [p.val, l.val] (v.toNat ||| 0x1) = true)
    (hb : s.dev.flag F.LNE_EYE_CTRL_BUSY [p.val, l.val] = false) :
    Completes (.eyeMeasure iss p l v) s (fun d => d.flag F.LNE_EYE_CTRL_BUSY [p.val, l.val] = true ∧ d.getF F.LNE_EYE_CTRL_EYE [p.val, l.val] = bits v.toNat 2 2 ∧
      SameRegs s.dev d [(F.LNE_EYE_CTRL_BUSY, [p.val, l.val]), (F.LNE_EYE_CTRL_EYE, [p.val, l.val])] ∧ OnlyRegs s.dev d) := by
  have hdo := (regRow_eyeStart s.fuses hl).trans (if_neg (by rw [hb]; decide))
  rw [bits_lor_outside _ _ _ _ (by decide)] at hdo
  refine completes_of_eq rfl hdo ⟨flag_raise _ _ _ rfl, ?eye, ?regs, rfl⟩
  case eye => exact (getF_setF_ne _ _ _ _ _ _ (by decide)).trans ((getF_setF_same _ _ _ _).trans (Nat.mod_mod _ _))
  case regs => exact sameRegs_setF (.head _) (sameRegs_setF (.tail _ (.head _)) (sameRegs_refl _ _))

theorem completes_eyeMeasureDone {h w snr : BitVec 8} (hb : s.dev.flag F.LNE_EYE_CTRL_BUSY [p.val, l.val] = true) :
    Completes (.eyeMeasureDone p l h w snr) s (fun d => d.flag F.LNE_EYE_CTRL_BUSY [p.val, l.val] = false ∧ d.getF F.LNE_EYE_HEIGHT [p.val, l.val] = h.toNat ∧
      d.getF F.LNE_EYE_WIDTH [p.val, l.val] = w.toNat ∧ d.getF F.LNE_EYE_SNR [p.val, l.val] = snr.toNat ∧
      SameRegs s.dev d [(F.LNE_EYE_CTRL_BUSY, [p.val, l.val]), (F.LNE_EYE_HEIGHT, [p.val, l.val]), (F.LNE_EYE_WIDTH, [p.val, l.val]), (F.LNE_EYE_SNR, [p.val, l.val])] ∧ OnlyRegs s.dev d) := by
  refine completes_of_eq rfl (if_pos hb) ⟨?busy, ?height, ?width, ?snr, ?regs, rfl⟩
  case regs =>
    refine sameRegs_setF (.tail _ (.tail _ (.tail _ (.head _)))) (sameRegs_setF (.tail _ (.tail _ (.head _))) ?_)
    exact sameRegs_setF (.tail _ (.head _)) (sameRegs_setF (.head _) (sameRegs_refl _ _))
  all_goals simp (disch := decide) only [Dev.flag, Dev.clear, getF_setF_ne, getF_setF_same]
  case busy => rfl
  all_goals exact Nat.mod_eq_of_lt (BitVec.isLt _)

end

/-- Settles O19: every clause holds, each by the lemma above for its command. -/
theorem laneRegisterCommands : Obligations.LaneRegisterCommands := by
  refine ⟨?retrain, ?selftest, ?bitslip, ?txeq, ?busy, ?eye, ?done⟩
  case retrain => exact fun _ _ _ _ _ _ _ hl h5 h8 ho hup hst => completes_laneRetrain hl h5 h8 ho hup hst
  case selftest => exact fun _ _ _ _ _ _ _ hl h4 h8 ho hup h1 h7 => completes_laneSelftestCmd hl h4 h8 ho hup h1 h7
  case bitslip => exact fun _ _ _ _ _ hl h1 h4 h5 h8 => completes_laneBitslip hl h1 h4 h5 h8
  case txeq => exact fun _ _ _ _ _ hl => completes_txeqWrite hl
  case busy => exact fun _ _ _ _ _ hl hb => exec_eyeMeasure_busy hl hb
  case eye => exact fun _ _ _ _ _ hl hb => completes_eyeMeasure hl hb
  case done => exact fun _ _ _ _ _ _ hb => completes_eyeMeasureDone hb

end Sys2Proof.Machine
end

section
/-!
Record rings (R129, R130, R131). A write of one pointer of a ring writes the other one back as it was. That shows in no field that
the register map declares; but a field is any value of its type, and where a register file lists a field at its reset value, the write
back drops the entry, so that a field of the same bits with another reset value then reads that value. The frame of O15 fails there.
-/
namespace Sys2Proof.Machine

/-! ## What fails -/

/-- A device in which PRODUCED of record ring 0 is listed at its reset value. -/
def producedListed : Dev :=
  { State.reset.dev with regs := [(⟨.MST_CLKON, 0, [0]⟩, 2 ^ 5), (⟨.HST_RR_COUNT, 0, [0, 0, 0]⟩, 0)] }

/-- The bits of PRODUCED, with another reset value. -/
def producedElse : Field := { F.HST_RR_COUNT_PRODUCED with rst := 1 }

/-- The word that writes 1 to RELEASED. -/
def releaseOne : BitVec 64 := 2 ^ 32

theorem producedListed_lands : producedListed.lands .jtag .HST_RR_COUNT [0, 0, 0] releaseOne.toNat = true := by decide +kernel

/-- Before RELEASED is written the field reads what is listed, and after it its own reset value. -/
theorem producedElse_changes : producedListed.getF producedElse [0, 0, 0] = 0 ∧
    (producedListed.recRelease [0, 0, 0] releaseOne.toNat).getF producedElse [0, 0, 0] = 1 := by decide +kernel

/-- Refutes O15: on a register file that lists PRODUCED at its reset value, RECORD_RELEASE changes what a field of the same bits with
another reset value reads, and the frame of the clause allows only RELEASED to change. -/
theorem not_recordRings : ¬ Obligations.RecordRings := by
  rintro ⟨-, -, hrelease, -⟩
  obtain ⟨t, hexec, -, -, -, hregs, -⟩ := hrelease { State.reset with dev := producedListed } .jtag 0 0 0 releaseOne producedListed_lands
    (by decide +kernel) (by decide +kernel)
  have hrow : producedListed.regRow State.reset.fuses .jtag .HST_RR_COUNT [0, 0, 0] releaseOne.toNat = producedListed.recRelease [0, 0, 0] releaseOne.toNat :=
    regRow_lands _ _ _ _ _ _ producedListed_lands
  have hdev : t.dev = producedListed.recRelease [0, 0, 0] releaseOne.toNat :=
    (congrArg State.dev (Host.Outcome.next.inj hexec)).symm.trans hrow
  obtain ⟨hbefore, hafter⟩ := producedElse_changes
  have hsame := hregs producedElse [0, 0, 0] (by decide)
  rw [hdev, hafter] at hsame
  exact absurd (hsame.trans hbefore) (by decide)

end Sys2Proof.Machine
end

section
/-!
Dequeue (R124, R367). COMMAND_DEQUEUE moves CONSUMED of the ring, and writes its PRODUCED back as it was: the frame of O38's first
clause fails where O15's frames do, on a register file that lists PRODUCED at its reset value.
-/
namespace Sys2Proof.Machine

/-- The ring of `dequeueListed`: of 4096 slots, bound to queue 3 of tackle 0x434F. -/
def dequeueRing : List Nat := [3, 16, 31]

/-- Its binding. -/
def dequeueBind : RingBind := ⟨0x434F, 3, 4096, 0⟩

/-- A FENCE: opcode 1, every other byte 0. -/
def fenceBytes : List Byte := 1#8 :: List.replicate 31 0#8

/-- A device whose ring holds one command, at the last position before its pointers wrap, with PRODUCED listed at its reset value. -/
def dequeueListed : Dev :=
  { State.reset.dev with
    regs := [(⟨.MST_CLKON, 0, [43]⟩, 2 ^ 6), (⟨.HST_CR_STAT, F.HST_CR_STAT_STATE.lo, dequeueRing⟩, 1),
      (⟨.HST_CR_COUNT, F.HST_CR_COUNT_CONSUMED.lo, dequeueRing⟩, 2 ^ 32 - 1),
      (⟨.HST_CR_COUNT, F.HST_CR_COUNT_PRODUCED.lo, dequeueRing⟩, 0)]
    host := { State.reset.dev.host with
      binds := [(dequeueRing, dequeueBind)]
      ptr2 := [(0 :: dequeueRing, (2 ^ 32 - 1, 0))]
      slots := [(dequeueRing ++ [4095], fenceBytes)] } }

/-- The bits of the command ring's PRODUCED, with another reset value. -/
def crProducedElse : Field := { F.HST_CR_COUNT_PRODUCED with rst := 1 }

/-- Before the command is dequeued the field reads what is listed, and after it its own reset value. -/
theorem crProducedElse_changes : dequeueListed.getF crProducedElse dequeueRing = 0 ∧
    (dequeueListed.dequeue 0x434F 3).getF crProducedElse dequeueRing = 1 := by decide +kernel

/-- Refutes O38: on a register file that lists PRODUCED at its reset value, COMMAND_DEQUEUE changes what a field of the same bits with
another reset value reads, and the frame of the first clause allows no field of PRODUCED's bits to change. -/
theorem not_commandsAreDequeuedDispatchedAndCompleted : ¬ Obligations.CommandsAreDequeuedDispatchedAndCompleted := by
  rintro ⟨hdequeue, -⟩
  obtain ⟨t, hexec, -, -, -, -, -, hregs, -⟩ := hdequeue { State.reset with dev := dequeueListed } 0x434F 3 dequeueRing dequeueBind
    (2 ^ 32 - 1) fenceBytes (by decide +kernel) (by decide +kernel) (by decide +kernel) (by decide +kernel) (by decide +kernel)
    (by decide +kernel) (by decide +kernel) (by decide +kernel) (by decide +kernel) (by decide +kernel) (by decide +kernel)
    (by decide +kernel) (by decide +kernel) (by decide +kernel)
  have hdev : t.dev = dequeueListed.dequeue 0x434F 3 := (congrArg State.dev (Host.Outcome.next.inj hexec)).symm
  obtain ⟨hbefore, hafter⟩ := crProducedElse_changes
  have hsame := hregs crProducedElse dequeueRing (by decide +kernel)
  rw [hdev, hafter] at hsame
  exact absurd (hsame.trans hbefore) (by decide)

end Sys2Proof.Machine
end

section
/-!
Lane circuits and the lane side of a port: what reads after an update of either, and what the update leaves (R147, R152, R153).
-/
namespace Sys2Proof.Machine

/-! ## Folds over lanes -/

/-- What no step of a fold changes, the fold does not change. -/
theorem foldl_keeps {α β : Type} {f : Dev → α → Dev} {g : Dev → β} (h : ∀ d x, g (f d x) = g d) (xs : List α) (d : Dev) :
    g (xs.foldl f d) = g d := by
  induction xs generalizing d with
  | nil => rfl
  | cons x t ih => exact (ih _).trans (h d x)

/-- Where every step keeps `P`, brings about `Q` of its own element and loses `Q` of no other, the fold brings it about of all. -/
theorem foldl_brings {α : Type} {f : Dev → α → Dev} {P : Dev → Prop} {Q : α → Dev → Prop} (hinv : ∀ d x, P d → P (f d x))
    (hset : ∀ d x, P d → Q x (f d x)) (hkeep : ∀ d x y, Q y d → Q y (f d x)) {xs : List α} {d : Dev} (hd : P d) :
    ∀ x ∈ xs, Q x (xs.foldl f d) := by
  have hstay (y : α) (xs : List α) (d : Dev) (hy : Q y d) : Q y (xs.foldl f d) := by
    induction xs generalizing d with
    | nil => exact hy
    | cons x t ih => exact ih _ (hkeep d x y hy)
  induction xs generalizing d with
  | nil => exact fun _ hx => absurd hx List.not_mem_nil
  | cons x t ih =>
    intro y hy
    rcases List.mem_cons.mp hy with rfl | hy
    · exact hstay y t _ (hset d y hd)
    · exact ih (hinv d x hd) y hy

theorem bit_foldl_clrBit (l : List Nat) (n i : Nat) : bit (l.foldl clrBit n) i = (bit n i && !decide (i ∈ l)) := by
  induction l generalizing n with
  | nil => simp
  | cons a t ih =>
    rw [List.foldl_cons, ih, bit_clrBit, Bool.and_assoc, ← Bool.not_or, ← Bool.decide_or]
    exact congrArg (fun b => bit n i && !b) (decide_eq_decide.mpr (by rw [List.mem_cons, eq_comm]))

/-! ## One circuit, one port -/

section
variable (d : Dev) (p l st : Nat) (k : Nat × Nat)

@[simp] theorem setLane_lane (x : LaneSt) : (d.setLane p l x).lane p l = x := nget_nput_same _ _ _ _

theorem setLane_lane_ne (x : LaneSt) {q m : Nat} (h : [p, l] ≠ [q, m]) : (d.setLane p l x).lane q m = d.lane q m := nget_nput_ne _ _ h _

@[simp] theorem setPortLn_portLn (x : PortLn) : (d.setPortLn k x).portLn k = x := nget_nput_same _ _ _ _

@[simp] theorem toState_lane : (d.toState p l st).lane p l = { d.lane p l with since := d.clk.now, ucwRun := 0, ucwWin := 0 } :=
  nget_nput_same _ _ _ _

@[simp] theorem toDetect_lane : (d.toDetect p l).lane p l =
    { d.lane p l with accepted := false, acked := false, after := none, since := d.clk.now, ucwRun := 0, ucwWin := 0 } := by
  rw [Dev.toDetect, toState_lane]
  simp only [Dev.clear, setF_clk]
  rw [show ((d.setLane p l { d.lane p l with accepted := false, acked := false, after := none }).setF F.LNE_STAT_SYNC_OK [p, l] 0).lane p l =
    { d.lane p l with accepted := false, acked := false, after := none } from setLane_lane _ _ _ _]
  rfl

theorem toState_getF (f : Field) (i : List Nat) (hf : fieldNe F.LNE_STAT_STATE f = true) : (d.toState p l st).getF f i = d.getF f i :=
  getF_setF_ne (d.setLane p l _) F.LNE_STAT_STATE f [p, l] i st hf

theorem toState_flag (f : Field) (i : List Nat) (hf : fieldNe F.LNE_STAT_STATE f = true) : (d.toState p l st).flag f i = d.flag f i :=
  congrArg (· == 1) (toState_getF d p l st f i hf)

theorem toDetect_laneState : (d.toDetect p l).laneState p l = 1 := toState_laneState _ _ _ (by decide)

/-- A circuit that enters a state leaves every other circuit in its own. -/
theorem toState_laneState_ne {m : Nat} (h : l ≠ m) : (d.toState p l st).laneState p m = d.laneState p m :=
  getF_setF_idx (d.setLane p l _) F.LNE_STAT_STATE [p, l] [p, m] st (by simpa using h)

theorem toDetect_laneState_ne {m : Nat} (h : l ≠ m) : (d.toDetect p l).laneState p m = d.laneState p m :=
  (toState_laneState_ne _ p l 1 h).trans (getF_setF_ne (d.setLane p l _) F.LNE_STAT_SYNC_OK F.LNE_STAT_STATE _ _ 0 (by decide))

/-- A circuit that is in a state stays there when another circuit, or it again, enters it. -/
theorem toState_stays {m : Nat} (hst : st < 16) (h : d.laneState p m = st) : (d.toState p l st).laneState p m = st := by
  by_cases hl : l = m
  · exact hl ▸ toState_laneState d p l hst
  · exact (toState_laneState_ne d p l st hl).trans h

theorem setPortLn_getF (x : PortLn) (f : Field) (i : List Nat) (hf : fieldNe F.PRT_PORT_STAT_CHANGE_PENDING f = true) :
    (d.setPortLn k x).getF f i = d.getF f i :=
  getF_setF_ne { d with ln := { d.ln with ports := nput PortLn.init d.ln.ports [k.1, k.2] x } } _ f _ i _ hf

end

section
variable {c d : Dev} {but : List (Field × List Nat)}

theorem sameRegs_setLane (h : SameRegs c d but) (p l : Nat) (x : LaneSt) : SameRegs c (d.setLane p l x) but := sameRegs_of_regs h rfl

theorem sameRegs_raise (h : SameRegs c d but) {f : Field} {i : List Nat} (hf : (f, i) ∈ but) : SameRegs c (d.raise f i) but :=
  sameRegs_setF hf h

theorem sameRegs_toState (h : SameRegs c d but) {p l : Nat} (hs : (F.LNE_STAT_STATE, [p, l]) ∈ but) (st : Nat) :
    SameRegs c (d.toState p l st) but :=
  sameRegs_setF hs (sameRegs_setLane h p l _)

theorem sameRegs_toDetect (h : SameRegs c d but) {p l : Nat} (hs : (F.LNE_STAT_STATE, [p, l]) ∈ but)
    (ho : (F.LNE_STAT_SYNC_OK, [p, l]) ∈ but) : SameRegs c (d.toDetect p l) but :=
  sameRegs_toState (sameRegs_setF ho (sameRegs_setLane h p l _)) hs 1

theorem sameRegs_setPortLn (h : SameRegs c d but) {k : Nat × Nat} (hs : (F.PRT_PORT_STAT_CHANGE_PENDING, [k.1, k.2]) ∈ but) (x : PortLn) :
    SameRegs c (d.setPortLn k x) but :=
  sameRegs_setF (d := { d with ln := _ }) hs (sameRegs_of_regs h rfl)

end

theorem setPortLn_sameRegs (d : Dev) (k : Nat × Nat) (x : PortLn) : SameRegs d (d.setPortLn k x) [(F.PRT_PORT_STAT_CHANGE_PENDING, [k.1, k.2])] :=
  sameRegs_setPortLn (sameRegs_refl d _) (.head _) x

theorem setPortLn_touches {l : List Field} (hl : F.PRT_PORT_STAT_CHANGE_PENDING ∈ l) (d : Dev) (k : Nat × Nat) (x : PortLn) :
    Touches l d (d.setPortLn k x) :=
  Touches.setF (e := { d with ln := { d.ln with ports := nput PortLn.init d.ln.ports [k.1, k.2] x } }) { Touches.refl l d with } hl _ _

theorem toState_touches {m : List Field} (hm : F.LNE_STAT_STATE ∈ m) (d : Dev) (p l st : Nat) : Touches m d (d.toState p l st) :=
  (touches_setLane m d p l _).setF hm _ _

/-! ## The formation -/

/-- The formation of every port, and the position of every spare, read the same. -/
def SameFormation (d e : Dev) : Prop := ∀ (f : Field) (i : List Nat), f.reg = .LNE_SPARE ∨ f.reg = .PRT_PORT_CFG → e.getF f i = d.getF f i

section
variable {d e : Dev}

theorem sameFormation_of_fields {l : List Field} (h : SameFields d e l) (hl : ∀ f ∈ l, f.reg ≠ .LNE_SPARE ∧ f.reg ≠ .PRT_PORT_CFG) :
    SameFormation d e := fun f i hf => h f i fun x hx ⟨hreg, _⟩ => by
  obtain ⟨hspare, hcfg⟩ := hl x hx
  rcases hf with hf | hf
  · exact hspare (hreg.trans hf)
  · exact hcfg (hreg.trans hf)

theorem SameFormation.laneOwner (h : SameFormation d e) (p l : Nat) : e.laneOwner p l = d.laneOwner p l := laneOwner_congr h p l

theorem SameFormation.portSpan (h : SameFormation d e) (k : Nat × Nat) : e.portSpan k = d.portSpan k := by
  rw [Dev.portSpan, Dev.portSpan, h F.PRT_PORT_CFG_BASE_POS _ (.inr rfl), h F.PRT_PORT_CFG_WIDTH_LOG2 _ (.inr rfl)]

theorem SameFormation.laneOf (h : SameFormation d e) (k : Nat × Nat) (i : Nat) : e.laneOf k i = d.laneOf k i := by
  have hspare (p g : Nat) : e.sparePos p g = d.sparePos p g := by
    rw [Dev.sparePos, Dev.sparePos, Dev.flag, Dev.flag, h F.LNE_SPARE_IN_USE _ (.inl rfl), h F.LNE_SPARE_POS _ (.inl rfl)]
  simp only [Dev.laneOf, Dev.circuitAt, h.portSpan, hspare]

end

/-! ## Live sets -/

/-- The fields that a live set is shown in. -/
def liveFields : List Field := [F.PRT_PORT_LIVE_TX_MASK, F.PRT_PORT_STAT_LIVE_TX, F.PRT_PORT_LIVE_RX_MASK, F.PRT_PORT_STAT_LIVE_RX]

theorem setLive_touches (d : Dev) (k : Nat × Nat) (tx : Bool) (m : Nat) : Touches liveFields d (d.setLive k tx m) := by
  unfold Dev.setLive
  split_ifs
  · exact ((Touches.refl _ d).setF (by decide) _ _).setF (by decide) _ _
  · exact ((Touches.refl _ d).setF (by decide) _ _).setF (by decide) _ _

theorem setLive_live16 (d : Dev) (k : Nat × Nat) (tx : Bool) (m : Nat) : (d.setLive k tx m).live16 k tx = m % 2 ^ 16 := by
  cases tx <;> exact (getF_setF_ne _ _ _ _ _ _ (by decide)).trans (getF_setF_same _ _ _ _)

theorem setLive_live16_other (d : Dev) (k : Nat × Nat) (tx : Bool) (m : Nat) : (d.setLive k tx m).live16 k (!tx) = d.live16 k (!tx) := by
  cases tx <;> exact (getF_setF_ne _ _ _ _ _ _ (by decide)).trans (getF_setF_ne _ _ _ _ _ _ (by decide))

/-! ## Codewords sent -/

/-- A control code goes out on every lane of the transmit live set, and nothing else happens. -/
theorem sendCtrlAll_eq (d : Dev) (k : Nat × Nat) (c : CtrlCode) (arg seq : Nat) :
    d.sendCtrlAll k c arg seq = { d with out := d.out ++ d.codewords k c arg seq } := by
  have hgo (l : List Nat) (o : List Out) : l.foldl (fun (d : Dev) i => d.sendCtrl k.1 (d.laneOf k i) i c arg seq []) { d with out := o } =
      { d with out := o ++ l.map (fun i => .codeword k.1 (d.laneOf k i) (CtrlField.mk i c arg seq).enc []) } := by
    induction l generalizing o with
    | nil => simp
    | cons i t ih => exact (ih _).trans (by simp; rfl)
  exact hgo _ d.out

theorem announce_eq (d : Dev) (k : Nat × Nat) (c : CtrlCode) (arg : Nat) :
    d.announce k c arg = { d with out := d.out ++ d.announcement k c arg } := by
  have hgo (l : List Nat) (o : List Out) : l.foldl (fun (d : Dev) j => d.sendCtrlAll k c arg (224 + j)) { d with out := o } =
      { d with out := o ++ l.flatMap (fun j => d.codewords k c arg (224 + j)) } := by
    induction l generalizing o with
    | nil => simp
    | cons j t ih =>
      rw [List.foldl_cons, sendCtrlAll_eq]
      exact (ih _).trans (by simp; rfl)
  exact hgo _ d.out

/-- A lane that sends its capability block does nothing else. -/
theorem sendCaps_emits (d : Dev) (p l : Nat) : ∃ o, d.sendCaps p l = { d with out := o } := by
  unfold Dev.sendCaps
  split
  · exact ⟨_, rfl⟩
  · exact ⟨d.out, rfl⟩

theorem sendCaps_of_owner {d : Dev} {p l i : Nat} {k : Nat × Nat} (h : d.laneOwner p l = some (k, i)) : d.sendCaps p l =
    d.sendCtrl p l i (if (d.lane p l).accepted then .capsAck else .caps) 0 d.seqNow (d.capsBlock k i ++ List.replicate (cwBytes - 32) 0) := by
  rw [Dev.sendCaps, h]

end Sys2Proof.Machine
end

section
/-!
A lane circuit comes up (R153, R154, R155, R156).
-/
namespace Sys2Proof.Machine

section
variable {s : State} {p : Fin 8} {l : Fin 132} {k : Nat × Nat} {i : Nat}

/-! ## DETECT to CAPS -/

theorem completes_laneDetect (hen : s.dev.flag F.LNE_CTRL_EN [p.val, l.val] = true) (hden : s.dev.laneDenied p.val l.val = false)
    (ho : s.dev.laneOwner p.val l.val = some (k, i)) (hst : s.dev.laneState p.val l.val = 1) :
    Completes (.laneDetect p l) s (fun d => d.laneState p.val l.val = 2 ∧ (d.lane p.val l.val).since = s.dev.clk.now ∧
      (d.lane p.val l.val).accepted = false ∧
      SameRegs s.dev d [(F.LNE_STAT_STATE, [p.val, l.val]), (F.LNE_STAT_SYNC_OK, [p.val, l.val])] ∧ SameMem s.dev d) := by
  have hdo : s.dev.laneDetect p.val l.val = (s.dev.toDetect p.val l.val).toState p.val l.val 2 := by
    simp [Dev.laneDetect, hen, hden, ho, hst]
  refine completes_of_eq rfl hdo ⟨toState_laneState _ _ _ (by decide), by rw [toState_lane]; rfl, by simp, ?regs, fun _ => rfl⟩
  case regs => exact sameRegs_toState (sameRegs_toDetect (sameRegs_refl _ _) (.head _) (.tail _ (.head _))) (.head _) 2

/-- The taps of the training stand where AUTO_EQ lets them, but not on a C2M lane (R158, R169). -/
def Dev.tapsTrained (d : Dev) (i : List Nat) (taps : Nat) (c2m : Bool) : Dev :=
  if d.flag F.LNE_CTRL_AUTO_EQ i && !c2m then
    ((((d.setF F.LNE_TXEQ_C_M3 i taps).setF F.LNE_TXEQ_C_M2 i (taps / 64)).setF F.LNE_TXEQ_C_M1 i (taps / 4096)).setF
      F.LNE_TXEQ_C_0 i (taps / 262144)).setF F.LNE_TXEQ_C_P1 i (taps / 16777216)
  else if c2m then d else d.emit (.wire "EQ_MAXIMUM" i)

/-- The adapted CTLE and gain stand where FREEZE lets them (R158, R169). -/
def Dev.gainTrained (d : Dev) (i : List Nat) (ctle gain : Nat) : Dev :=
  if d.flag F.LNE_RXEQ_FREEZE i then d else (d.setF F.LNE_RXEQ_CTLE i ctle).setF F.LNE_RXEQ_GAIN i gain

theorem trainDone_eq {d : Dev} {p l : Nat} (hst : d.laneState p l = 2) (ho : d.laneOwner p l = some (k, i)) (taps ctle gain : Nat) (pre : Bool) :
    ∃ v, d.trainDone p l taps ctle gain pre =
      (((d.tapsTrained [p, l] taps (d.getF F.PRT_PORT_CFG_MODE [k.1, k.2] == 2)).gainTrained [p, l] ctle gain).setF
        F.LNE_STAT_PRECODE [p, l] v).toState p l 3 := by
  rw [Dev.trainDone, if_pos hst, ho]
  exact ⟨_, rfl⟩

theorem tapsTrained_contents (d : Dev) (i : List Nat) (taps : Nat) (c2m : Bool) : (d.tapsTrained i taps c2m).contents = d.contents :=
  contents_ite rfl (contents_ite rfl rfl)

theorem tapsTrained_getF (d : Dev) (i : List Nat) (taps : Nat) (c2m : Bool) (f : Field) (j : List Nat) (hf : F.LNE_TXEQ_C_0.reg ≠ f.reg) :
    (d.tapsTrained i taps c2m).getF f j = d.getF f j := by
  have hset (d : Dev) (g : Field) (v : Nat) (hg : g.reg = F.LNE_TXEQ_C_0.reg) : (d.setF g i v).getF f j = d.getF f j :=
    getF_setF_reg _ _ _ _ _ _ (hg ▸ hf)
  unfold Dev.tapsTrained
  split_ifs
  · exact (hset _ F.LNE_TXEQ_C_P1 _ rfl).trans ((hset _ F.LNE_TXEQ_C_0 _ rfl).trans ((hset _ F.LNE_TXEQ_C_M1 _ rfl).trans
      ((hset _ F.LNE_TXEQ_C_M2 _ rfl).trans (hset _ F.LNE_TXEQ_C_M3 _ rfl))))
  · rfl
  · rfl

theorem tapsTrained_taps (d : Dev) (i : List Nat) (taps : BitVec 30) (ha : d.flag F.LNE_CTRL_AUTO_EQ i = true) :
    (d.tapsTrained i taps.toNat false).getF F.LNE_TXEQ_C_M3 i = bits taps.toNat 0 6 ∧
      (d.tapsTrained i taps.toNat false).getF F.LNE_TXEQ_C_M2 i = bits taps.toNat 6 6 ∧
      (d.tapsTrained i taps.toNat false).getF F.LNE_TXEQ_C_M1 i = bits taps.toNat 12 6 ∧
      (d.tapsTrained i taps.toNat false).getF F.LNE_TXEQ_C_0 i = bits taps.toNat 18 6 ∧
      (d.tapsTrained i taps.toNat false).getF F.LNE_TXEQ_C_P1 i = bits taps.toNat 24 6 := by
  rw [Dev.tapsTrained, if_pos (by simp [ha])]
  simp (disch := decide) only [getF_setF_ne, getF_setF_same]
  exact ⟨congrArg (· % 2 ^ 6) (Nat.div_one _).symm, rfl, rfl, rfl, rfl⟩

theorem gainTrained_contents (d : Dev) (i : List Nat) (ctle gain : Nat) : (d.gainTrained i ctle gain).contents = d.contents :=
  contents_ite rfl rfl

theorem gainTrained_getF (d : Dev) (i : List Nat) (ctle gain : Nat) (f : Field) (j : List Nat) (hf : F.LNE_RXEQ_GAIN.reg ≠ f.reg) :
    (d.gainTrained i ctle gain).getF f j = d.getF f j := by
  unfold Dev.gainTrained
  split_ifs
  · rfl
  · exact (getF_setF_reg _ F.LNE_RXEQ_GAIN _ _ _ _ hf).trans (getF_setF_reg _ F.LNE_RXEQ_CTLE _ _ _ _ hf)

theorem gainTrained_gain (d : Dev) (i : List Nat) (ctle gain : BitVec 5) (hz : d.flag F.LNE_RXEQ_FREEZE i = false) :
    (d.gainTrained i ctle.toNat gain.toNat).getF F.LNE_RXEQ_CTLE i = ctle.toNat ∧
      (d.gainTrained i ctle.toNat gain.toNat).getF F.LNE_RXEQ_GAIN i = gain.toNat := by
  rw [Dev.gainTrained, if_neg (by simp [hz])]
  simp (disch := decide) only [getF_setF_ne, getF_setF_same]
  exact ⟨Nat.mod_eq_of_lt ctle.isLt, Nat.mod_eq_of_lt gain.isLt⟩

theorem completes_laneTrainDone {taps : BitVec 30} {ctle gain : BitVec 5} {pre : Bool} (hst : s.dev.laneState p.val l.val = 2)
    (ho : s.dev.laneOwner p.val l.val = some (k, i)) :
    Completes (.laneTrainDone p l taps ctle gain pre) s (fun d => d.laneState p.val l.val = 3 ∧
      (s.dev.flag F.LNE_CTRL_AUTO_EQ [p.val, l.val] = true → s.dev.getF F.PRT_PORT_CFG_MODE [k.1, k.2] ≠ 2 →
        d.getF F.LNE_TXEQ_C_M3 [p.val, l.val] = bits taps.toNat 0 6 ∧ d.getF F.LNE_TXEQ_C_M2 [p.val, l.val] = bits taps.toNat 6 6 ∧
        d.getF F.LNE_TXEQ_C_M1 [p.val, l.val] = bits taps.toNat 12 6 ∧ d.getF F.LNE_TXEQ_C_0 [p.val, l.val] = bits taps.toNat 18 6 ∧
        d.getF F.LNE_TXEQ_C_P1 [p.val, l.val] = bits taps.toNat 24 6) ∧
      (s.dev.flag F.LNE_RXEQ_FREEZE [p.val, l.val] = false →
        d.getF F.LNE_RXEQ_CTLE [p.val, l.val] = ctle.toNat ∧ d.getF F.LNE_RXEQ_GAIN [p.val, l.val] = gain.toNat) ∧ SameMem s.dev d) := by
  obtain ⟨v, hdo⟩ := trainDone_eq hst ho taps.toNat ctle.toNat gain.toNat pre
  generalize hc : (s.dev.getF F.PRT_PORT_CFG_MODE [k.1, k.2] == 2) = c2m at hdo
  generalize htaps : s.dev.tapsTrained [p.val, l.val] taps.toNat c2m = e at hdo
  have hread (f : Field) (hf : f.reg ≠ F.LNE_STAT_STATE.reg) (j : List Nat) :
      (((e.gainTrained [p.val, l.val] ctle.toNat gain.toNat).setF F.LNE_STAT_PRECODE [p.val, l.val] v).toState p.val l.val 3).getF f j =
        (e.gainTrained [p.val, l.val] ctle.toNat gain.toNat).getF f j :=
    (toState_getF _ _ _ _ _ _ (by simp [fieldNe, hf.symm])).trans (getF_setF_reg _ F.LNE_STAT_PRECODE _ _ _ _ hf.symm)
  refine completes_of_eq rfl hdo ⟨toState_laneState _ _ _ (by decide), fun ha hm => ?taps, fun hz => ?gain, sameMem_of_contents ?mem⟩
  case taps =>
    obtain rfl : c2m = false := by rw [← hc, beq_eq_false_iff_ne]; exact hm
    have hset := tapsTrained_taps s.dev [p.val, l.val] taps ha
    rw [htaps] at hset
    rw [hread _ (by decide), hread _ (by decide), hread _ (by decide), hread _ (by decide), hread _ (by decide),
      gainTrained_getF _ _ _ _ _ _ (by decide), gainTrained_getF _ _ _ _ _ _ (by decide), gainTrained_getF _ _ _ _ _ _ (by decide),
      gainTrained_getF _ _ _ _ _ _ (by decide), gainTrained_getF _ _ _ _ _ _ (by decide)]
    exact hset
  case gain =>
    rw [hread _ (by decide), hread _ (by decide)]
    refine gainTrained_gain _ _ _ _ ?_
    rw [← hz, ← htaps, Dev.flag, Dev.flag, tapsTrained_getF _ _ _ _ _ _ (by decide)]
  case mem => exact (gainTrained_contents e _ _ _).trans (htaps ▸ tapsTrained_contents _ _ _ _)

end

/-- The search for the codeword boundary has moved it, where AUTO_ALIGN lets it (R154). -/
def Dev.boundaryFound (d : Dev) (p l slip : Nat) : Dev :=
  if d.flag F.LNE_CTRL_AUTO_ALIGN [p, l] then d.setLane p l { d.lane p l with boundary := ((d.lane p l).boundary + slip) % 2720 } else d

/-- It moves the boundary and nothing else. -/
theorem boundaryFound_spec (d : Dev) (p l slip : Nat) :
    ∃ x, d.boundaryFound p l slip = { d with ln := x } ∧ (({ d with ln := x } : Dev).lane p l).accepted = (d.lane p l).accepted ∧
      (({ d with ln := x } : Dev).lane p l).boundary = if d.flag F.LNE_CTRL_AUTO_ALIGN [p, l] then ((d.lane p l).boundary + slip) % 2720
        else (d.lane p l).boundary := by
  have hlane := setLane_lane d p l { d.lane p l with boundary := ((d.lane p l).boundary + slip) % 2720 }
  unfold Dev.boundaryFound
  split_ifs
  · exact ⟨_, rfl, (congrArg LaneSt.accepted hlane :), (congrArg LaneSt.boundary hlane :)⟩
  · exact ⟨d.ln, rfl, rfl, rfl⟩

theorem completes_laneLockDone {s : State} {p : Fin 8} {l : Fin 132} {slip : Fin 2720} (hst : s.dev.laneState p.val l.val = 3) :
    Completes (.laneLockDone p ⟨l, slip⟩) s (fun d => d.laneState p.val l.val = 4 ∧ d.flag F.LNE_STAT_SYNC_OK [p.val, l.val] = true ∧
      (d.lane p.val l.val).boundary = (if s.dev.flag F.LNE_CTRL_AUTO_ALIGN [p.val, l.val] then ((s.dev.lane p.val l.val).boundary + slip.val) % 2720
        else (s.dev.lane p.val l.val).boundary) ∧
      (∀ k i, s.dev.laneOwner p.val l.val = some (k, i) → (s.dev.lane p.val l.val).accepted = false →
        d.out = s.dev.out ++ [.codeword p.val l.val (CtrlField.mk i .caps 0 s.dev.seqNow).enc (s.dev.capsBlock k i ++ List.replicate (cwBytes - 32) 0)]) ∧
      SameRegs s.dev d [(F.LNE_STAT_STATE, [p.val, l.val]), (F.LNE_STAT_SYNC_OK, [p.val, l.val])] ∧ SameMem s.dev d) := by
  obtain ⟨x, hfound, hacc, hbound⟩ := boundaryFound_spec s.dev p.val l.val slip.val
  have hdo : s.dev.lockDone p.val l.val slip.val = (((s.dev.boundaryFound p.val l.val slip.val).raise F.LNE_STAT_SYNC_OK
    [p.val, l.val]).toState p.val l.val 4).sendCaps p.val l.val := if_pos hst
  rw [hfound] at hdo
  generalize hd : (({ s.dev with ln := x } : Dev).raise F.LNE_STAT_SYNC_OK [p.val, l.val]).toState p.val l.val 4 = d at hdo
  have hregs : SameRegs s.dev d [(F.LNE_STAT_STATE, [p.val, l.val]), (F.LNE_STAT_SYNC_OK, [p.val, l.val])] :=
    hd ▸ sameRegs_toState (sameRegs_setF (d := { s.dev with ln := x }) (.tail _ (.head _)) (sameRegs_refl _ _)) (.head _) 4
  have hform : SameFormation s.dev d := fun f j hf => hregs f j (by rcases hf with hf | hf <;> simp [hf, F.LNE_STAT_STATE, F.LNE_STAT_SYNC_OK])
  have hlane : d.lane p.val l.val = { ({ s.dev with ln := x } : Dev).lane p.val l.val with since := s.dev.clk.now, ucwRun := 0, ucwWin := 0 } :=
    hd ▸ toState_lane _ _ _ _
  have hstate : d.laneState p.val l.val = 4 := by
    rw [← hd]
    exact toState_laneState _ _ _ (by decide)
  have hsync : d.flag F.LNE_STAT_SYNC_OK [p.val, l.val] = true := by
    rw [← hd, toState_flag _ _ _ _ _ _ (by decide)]
    exact flag_raise _ _ _ rfl
  obtain ⟨o, ho⟩ := sendCaps_emits d p.val l.val
  refine completes_of_eq rfl hdo ⟨?state, ?sync, ?boundary, fun k i hk ha => ?out, ?regs, ?mem⟩
  case out =>
    have hseq : d.seqNow = s.dev.seqNow := hd ▸ rfl
    have hblock : d.capsBlock k i = s.dev.capsBlock k i := by rw [Dev.capsBlock, hform.portSpan, ← hd]; rfl
    rw [sendCaps_of_owner ((hform.laneOwner _ _).trans hk), hlane, hacc, ha, hseq, hblock, ← hd]
    rfl
  all_goals rw [ho]
  case state => exact hstate
  case sync => exact hsync
  case boundary => exact (congrArg LaneSt.boundary hlane).trans hbound
  case regs => exact sameRegs_of_regs hregs rfl
  case mem => exact fun _ => hd ▸ rfl

/-! ## Timeouts and the capability block -/

section
variable {s : State} {p : Fin 8} {l : Fin 132} {k : Nat × Nat} {i : Nat}

/-- A lane that has been in its state for too long tries again from DETECT, and after its third try in a row is tested (R153). -/
theorem laneTimeout_eq {d : Dev} {p l t : Nat} (ht : d.laneLimit p l = some t) (hnow : (d.lane p l).since + t ≤ d.clk.now) :
    d.laneTimeout p l =
      if 2 ≤ (d.lane p l).retries then
        (((d.toDetect p l).setLane p l { (d.toDetect p l).lane p l with retries := 0 }).raise F.LNE_STAT_TRAIN_FAIL [p, l]).toState p l 0xB
      else (d.toDetect p l).setLane p l { (d.toDetect p l).lane p l with retries := (d.lane p l).retries + 1 } := by
  rw [Dev.laneTimeout, ht]
  exact (if_neg (by omega)).trans (if_congr (by omega) rfl rfl)

theorem completes_laneStateTimeout {t : Nat} (ht : s.dev.laneLimit p.val l.val = some t)
    (hnow : (s.dev.lane p.val l.val).since + t ≤ s.dev.clk.now) :
    Completes (.laneStateTimeout p l) s (fun d =>
      ((s.dev.lane p.val l.val).retries < 2 → d.laneState p.val l.val = 1 ∧ (d.lane p.val l.val).retries = (s.dev.lane p.val l.val).retries + 1) ∧
      (2 ≤ (s.dev.lane p.val l.val).retries → d.laneState p.val l.val = 0xB ∧ (d.lane p.val l.val).retries = 0 ∧
        d.flag F.LNE_STAT_TRAIN_FAIL [p.val, l.val] = true) ∧
      SameRegs s.dev d [(F.LNE_STAT_STATE, [p.val, l.val]), (F.LNE_STAT_SYNC_OK, [p.val, l.val]), (F.LNE_STAT_TRAIN_FAIL, [p.val, l.val])] ∧
      SameMem s.dev d) := by
  have hdetect : SameRegs s.dev (s.dev.toDetect p.val l.val)
      [(F.LNE_STAT_STATE, [p.val, l.val]), (F.LNE_STAT_SYNC_OK, [p.val, l.val]), (F.LNE_STAT_TRAIN_FAIL, [p.val, l.val])] :=
    sameRegs_toDetect (sameRegs_refl _ _) (.head _) (.tail _ (.head _))
  by_cases hlast : 2 ≤ (s.dev.lane p.val l.val).retries
  · refine completes_of_eq rfl ((laneTimeout_eq ht hnow).trans (if_pos hlast))
      ⟨fun h => absurd hlast (by omega), fun _ => ⟨?state, ?retries, ?fail⟩, ?regs, fun _ => rfl⟩
    case state => exact toState_laneState _ _ _ (by decide)
    case retries =>
      rw [toState_lane]
      exact congrArg LaneSt.retries (setLane_lane _ _ _ _)
    case fail => exact (toState_flag _ _ _ _ F.LNE_STAT_TRAIN_FAIL _ (by decide)).trans (flag_raise _ _ _ rfl)
    case regs => exact sameRegs_toState (sameRegs_raise (sameRegs_setLane hdetect _ _ _) (.tail _ (.tail _ (.head _)))) (.head _) _
  · refine completes_of_eq rfl ((laneTimeout_eq ht hnow).trans (if_neg hlast))
      ⟨fun _ => ⟨toDetect_laneState _ _ _, ?_⟩, fun h => absurd h hlast, sameRegs_setLane hdetect _ _ _, fun _ => rfl⟩
    rw [setLane_lane]

/-- The peer's capability block is stored (R156). -/
def Dev.capsStored (d : Dev) (p l : Nat) (b : List Byte) : Dev :=
  (List.range 8).foldl (fun d j => d.setF F.LNE_CAPS_PEER_BYTES [p, l, j] (leAt b (4 * j) 4)) d

theorem capsStored_spec (d : Dev) (p l : Nat) {b : List Byte} (hb : b.length = 32) :
    (∀ j : Fin 8, (d.capsStored p l b).getF F.LNE_CAPS_PEER_BYTES [p, l, j.val] = leAt b (4 * j.val) 4) ∧
      Touches [F.LNE_CAPS_PEER_BYTES] d (d.capsStored p l b) ∧ (d.capsStored p l b).ln = d.ln := by
  refine ⟨fun j => ?bytes, .foldl (fun d j => (Touches.refl _ d).setF (.head _) _ _) d _, ?lanes⟩
  case lanes =>
    refine foldl_keeps (g := Dev.ln) ?_ (List.range 8) d
    exact fun _ _ => rfl
  case bytes =>
    have hstored : ∀ j ∈ List.range 8, (d.capsStored p l b).getF F.LNE_CAPS_PEER_BYTES [p, l, j] = leAt b (4 * j) 4 % 2 ^ 32 := by
      unfold Dev.capsStored
      refine foldl_brings (P := fun _ => True) (Q := fun j d => d.getF F.LNE_CAPS_PEER_BYTES [p, l, j] = leAt b (4 * j) 4 % 2 ^ 32)
        (fun _ _ h => h) (fun d j _ => getF_setF_same d _ _ _) (fun d j y hy => ?_) trivial
      by_cases h : j = y
      · exact h ▸ getF_setF_same d _ _ _
      · exact (getF_setF_idx d _ _ _ _ (by simpa using h)).trans hy
    exact (hstored j.val (List.mem_range.mpr j.isLt)).trans (Nat.mod_eq_of_lt (leAt_lt b (4 * j.val) 4 (by omega)))

theorem capsCheck_lt (w : Nat) (b : List Byte) (ok : Bool) : capsCheck w b ok < 4 := by
  unfold capsCheck
  split_ifs <;> decide

/-- A block that passes its checks is acknowledged, and after 1 ms of CAPS accepted (R155, R156). -/
def Dev.capsTaken (d : Dev) (p l : Nat) (ack : Bool) : Dev :=
  let x := d.lane p l
  let e := d.setLane p l { x with acked := x.acked || ack, accepted := x.accepted || decide (x.since + ms 1 ≤ d.clk.now) }
  if (e.lane p l).accepted && !x.accepted then e.sendCaps p l else e

theorem capsTaken_spec (d : Dev) (p l : Nat) (ack : Bool) : (d.capsTaken p l ack).regs = d.regs ∧ (d.capsTaken p l ack).contents = d.contents ∧
    ((d.capsTaken p l ack).lane p l).acked = ((d.lane p l).acked || ack) := by
  have hacked (x : LaneSt) (hx : x.acked = ((d.lane p l).acked || ack)) : ((d.setLane p l x).lane p l).acked = ((d.lane p l).acked || ack) := by
    rw [setLane_lane, hx]
  unfold Dev.capsTaken
  dsimp only
  split_ifs
  · obtain ⟨o, ho⟩ := sendCaps_emits (d.setLane p l _) p l
    rw [ho]
    exact ⟨rfl, rfl, hacked _ rfl⟩
  · exact ⟨rfl, rfl, hacked _ rfl⟩

/-- On a port that is down, a block leads to MISMATCH or is taken. -/
theorem capsReceive_eq {d : Dev} {p l : Nat} {b : List Byte} {ack ok : Bool} (hb : b.length = 32) (hst : d.laneState p l = 4)
    (ho : d.laneOwner p l = some (k, i)) (hup : d.portUp k = false) :
    d.capsReceive p l b ack ok = if capsCheck (d.portSpan k).2 b ok ≠ 0 then
      ((d.capsStored p l b).setF F.LNE_STAT_MISMATCH [p, l] (capsCheck (d.portSpan k).2 b ok)).toState p l 0xA
      else (d.capsStored p l b).capsTaken p l ack := by
  obtain ⟨-, htouch, -⟩ := capsStored_spec d p l hb
  have hspan : (d.capsStored p l b).portSpan k = d.portSpan k := (sameFormation_of_fields htouch.fields (by decide)).portSpan k
  have hdown (x y : Bool) : ¬((((d.capsStored p l b).capsTaken p l ack).portUp k && x && y) = true) := by
    have hsame : ((d.capsStored p l b).capsTaken p l ack).portUp k = d.portUp k := by
      rw [Dev.portUp, Dev.flag, Dev.getF, (capsTaken_spec _ p l ack).1]
      exact congrArg (· == 1) (htouch.fields _ _ (by decide))
    simp [hsame, hup]
  rw [Dev.capsReceive, if_pos hst, ho, ← hspan]
  exact if_congr Iff.rfl rfl (if_neg (hdown _ _) :)

theorem completes_capsReceive {b : List (BitVec 8)} {ack ok : Bool} (hb : b.length = 32) (hst : s.dev.laneState p.val l.val = 4)
    (ho : s.dev.laneOwner p.val l.val = some (k, i)) (hup : s.dev.portUp k = false) :
    Completes (.capsReceive p l b ack ok) s (fun d =>
      (∀ j : Fin 8, d.getF F.LNE_CAPS_PEER_BYTES [p.val, l.val, j.val] = leAt b (4 * j.val) 4) ∧
      (capsCheck (s.dev.portSpan k).2 b ok = 0 → d.laneState p.val l.val = 4 ∧ (d.lane p.val l.val).acked = ((s.dev.lane p.val l.val).acked || ack)) ∧
      (capsCheck (s.dev.portSpan k).2 b ok ≠ 0 → d.laneState p.val l.val = 0xA ∧
        d.getF F.LNE_STAT_MISMATCH [p.val, l.val] = capsCheck (s.dev.portSpan k).2 b ok) ∧ SameMem s.dev d) := by
  have hexec : exec (.capsReceive p l b ack ok) s = .next { s with dev := s.dev.capsReceive p.val l.val b ack ok } :=
    updIf_true _ _ _ (by simp [capsBlockOk, hb])
  obtain ⟨hbytes, htouch, hln⟩ := capsStored_spec s.dev p.val l.val hb
  have hdo := capsReceive_eq (ack := ack) (ok := ok) hb hst ho hup
  by_cases hc : capsCheck (s.dev.portSpan k).2 b ok = 0
  · obtain ⟨hregs, hmem, hacked⟩ := capsTaken_spec (s.dev.capsStored p.val l.val b) p.val l.val ack
    have hread (f : Field) (j : List Nat) : ((s.dev.capsStored p.val l.val b).capsTaken p.val l.val ack).getF f j =
        (s.dev.capsStored p.val l.val b).getF f j := by rw [Dev.getF, hregs, Dev.getF]
    refine completes_of_eq hexec (hdo.trans (if_neg (by simp [hc]))) ⟨?bytes, fun _ => ⟨?state, ?acked⟩, fun h => absurd hc h, ?mem⟩
    case bytes => exact fun j => (hread _ _).trans (hbytes j)
    case state => exact (hread _ _).trans ((htouch.fields _ _ (by decide)).trans hst)
    case acked => rw [hacked, Dev.lane, Dev.lane, hln]
    case mem => exact sameMem_trans htouch.sameMem (sameMem_of_contents hmem)
  · refine completes_of_eq hexec (hdo.trans (if_pos hc)) ⟨?bytes, fun h => absurd h hc, fun _ => ⟨?state, ?mismatch⟩, htouch.sameMem⟩
    case bytes =>
      intro j
      rw [toState_getF _ _ _ _ _ _ (by decide), getF_setF_ne _ _ _ _ _ _ (by decide)]
      exact hbytes j
    case state => exact toState_laneState _ _ _ (by decide)
    case mismatch =>
      rw [toState_getF _ _ _ _ _ _ (by decide), getF_setF_same]
      exact Nat.mod_eq_of_lt ((capsCheck_lt _ _ _).trans (by decide))

end

end Sys2Proof.Machine
end

section
/-!
The self-test of a lane (R153, R162): a circuit is spared or narrowed out, and what is narrowed out tries again.
-/
namespace Sys2Proof.Machine

section
variable {s : State} {p : Fin 8} {l : Fin 132} {k : Nat × Nat} {i q : Nat}

/-- A spare swap is counted among the choices, and moves nothing else. -/
theorem spareSwapLane_spec (d : Dev) (p : Nat) : (∀ (f : Field) (i : List Nat), tdcReg f.reg = false → (d.spareSwapLane p).getF f i = d.getF f i) ∧
    (d.spareSwapLane p).ln = d.ln ∧ SameMem d (d.spareSwapLane p) :=
  ⟨fun f i hf => tdc_getF d _ _ f i hf, tdc_ln _ _ _, sameMem_of (tdc_mem _ _ _) (congrArg _ (tdc_bank _ _ _))⟩

/-- The device after a passed self-test, its spare swap apart. -/
def Dev.narrowedOut (d : Dev) (p l : Nat) (k : Nat × Nat) (i : Nat) : Dev :=
  let e := (d.setLane p l { d.lane p l with after := none, counted := false, retries := 0 }).raise F.LNE_STAT_FAULT_CHANNEL [p, l]
  ((((e.setPortLn k { d.portLn k with narrowed := setBit (d.portLn k).narrowed i }).raise F.PRT_PORT_STAT_NARROWED [k.1, k.2]).fault
    (5 + p) .laneNoSpare).toState p l 8)

theorem narrowedOut_spec (d : Dev) (p l : Nat) (k : Nat × Nat) (i : Nat) : (d.narrowedOut p l k i).laneState p l = 8 ∧
    (d.narrowedOut p l k i).flag F.LNE_STAT_FAULT_CHANNEL [p, l] = true ∧ bit ((d.narrowedOut p l k i).portLn k).narrowed i = true ∧
    (d.narrowedOut p l k i).flag F.PRT_PORT_STAT_NARROWED [k.1, k.2] = true ∧ SameMem d (d.narrowedOut p l k i) := by
  refine ⟨toState_laneState _ _ _ (by decide), ?channel, ?bit, ?narrowed, sameMem_of ?mem ?lost⟩
  case channel =>
    rw [Dev.narrowedOut, toState_flag _ _ _ _ _ _ (by decide), fault_flag _ _ _ _ _ (by decide), Dev.flag, Dev.raise,
      getF_setF_ne _ _ _ _ _ _ (by decide), setPortLn_getF _ _ _ _ _ (by decide)]
    exact flag_raise _ _ _ rfl
  case bit =>
    have hport : (d.narrowedOut p l k i).portLn k = { d.portLn k with narrowed := setBit (d.portLn k).narrowed i } :=
      (congrArg (fun x : LnSt => nget PortLn.init x.ports [k.1, k.2]) (fault_ln _ _ _)).trans (nget_nput_same _ _ _ _)
    rw [hport, bit_setBit]
    simp
  case narrowed =>
    rw [Dev.narrowedOut, toState_flag _ _ _ _ _ _ (by decide), fault_flag _ _ _ _ _ (by decide)]
    exact flag_raise _ _ _ rfl
  case mem => exact fault_mem _ _ _
  case lost => exact congrArg _ (fault_bank _ _ _)

theorem completes_laneSelftestDone_pass (hst : s.dev.laneState p.val l.val = 0xB) (ho : s.dev.laneOwner p.val l.val = some (k, i))
    (hq : s.dev.positionOf p.val l.val = some q) :
    Completes (.laneSelftestDone p l true) s (fun d => d.laneState p.val l.val = 8 ∧ d.flag F.LNE_STAT_FAULT_CHANNEL [p.val, l.val] = true ∧
      bit (d.portLn k).narrowed i = true ∧ d.flag F.PRT_PORT_STAT_NARROWED [k.1, k.2] = true ∧ SameMem s.dev d) := by
  obtain ⟨hstate, hchannel, hbit, hnarrowed, hmem⟩ := narrowedOut_spec s.dev p.val l.val k i
  obtain ⟨hread, hln, hkeep⟩ := spareSwapLane_spec (s.dev.narrowedOut p.val l.val k i) p.val
  have hdo : s.dev.laneSelftestDone p.val l.val true = if (s.dev.lane p.val l.val).counted || bit (s.dev.portLn k).narrowed i then
      s.dev.narrowedOut p.val l.val k i else (s.dev.narrowedOut p.val l.val k i).spareSwapLane p.val := by
    rw [Dev.laneSelftestDone, if_pos hst, ho, hq]
    rfl
  by_cases hold : (s.dev.lane p.val l.val).counted || bit (s.dev.portLn k).narrowed i
  · exact completes_of_eq rfl (hdo.trans (if_pos hold)) ⟨hstate, hchannel, hbit, hnarrowed, hmem⟩
  · refine completes_of_eq rfl (hdo.trans (if_neg hold)) ⟨(hread _ _ rfl).trans hstate, ?_, ?_, ?_, sameMem_trans hmem hkeep⟩
    · rw [Dev.flag, hread _ _ rfl]
      exact hchannel
    · rw [Dev.portLn, hln]
      exact hbit
    · rw [Dev.flag, hread _ _ rfl]
      exact hnarrowed

/-- The device after a failed self-test with a free spare, the count of the swap apart. -/
def Dev.spareSteered (d : Dev) (p l q log : Nat) : Dev :=
  let e := (d.setLane p l { d.lane p l with after := none, counted := false, retries := 0 }).raise F.LNE_STAT_FAULT_CIRCUIT [p, l]
  let e := (((e.setF F.LNE_STAT_POSITION [p, l] 0xFF).toState p l 8).setF F.LNE_SPARE_POS [p, q / 32] q).raise F.LNE_SPARE_IN_USE [p, q / 32]
  ((e.setF F.LNE_STAT_POSITION [p, 33 * (q / 32) + 32] q).setF F.LNE_STAT_LOGICAL [p, 33 * (q / 32) + 32] log).toDetect p (33 * (q / 32) + 32)

theorem spareSteered_spec (d : Dev) (p l log : Nat) (hq : q < 128) (hl : l % 33 ≠ 32) : (d.spareSteered p l q log).laneState p l = 8 ∧
    (d.spareSteered p l q log).flag F.LNE_STAT_FAULT_CIRCUIT [p, l] = true ∧ (d.spareSteered p l q log).flag F.LNE_SPARE_IN_USE [p, q / 32] = true ∧
    (d.spareSteered p l q log).getF F.LNE_SPARE_POS [p, q / 32] = q ∧ (d.spareSteered p l q log).laneState p (33 * (q / 32) + 32) = 1 ∧
    SameMem d (d.spareSteered p l q log) := by
  have hne : 33 * (q / 32) + 32 ≠ l := by omega
  refine ⟨?state, ?circuit, ?used, ?pos, toDetect_laneState _ _ _, fun _ => rfl⟩
  case state =>
    rw [Dev.spareSteered, toDetect_laneState_ne _ _ _ hne, Dev.laneState]
    simp (disch := decide) only [Dev.raise, getF_setF_ne]
    exact toState_laneState _ _ _ (by decide)
  all_goals simp (disch := decide) only [Dev.spareSteered, Dev.flag, toDetect_getF, toState_getF, Dev.raise, getF_setF_ne, getF_setF_same]
  case circuit => rfl
  case used => rfl
  case pos => exact Nat.mod_eq_of_lt hq

theorem completes_laneSelftestDone_fail (hst : s.dev.laneState p.val l.val = 0xB) (ho : s.dev.laneOwner p.val l.val = some (k, i))
    (hpos : s.dev.positionOf p.val l.val = some q) (hq : q < 128) (hl : l.val % 33 ≠ 32)
    (hfree : s.dev.laneState p.val (33 * (q / 32) + 32) = 9) :
    Completes (.laneSelftestDone p l false) s (fun d => d.laneState p.val l.val = 8 ∧ d.flag F.LNE_STAT_FAULT_CIRCUIT [p.val, l.val] = true ∧
      d.flag F.LNE_SPARE_IN_USE [p.val, q / 32] = true ∧ d.getF F.LNE_SPARE_POS [p.val, q / 32] = q ∧
      d.laneState p.val (33 * (q / 32) + 32) = 1 ∧ SameMem s.dev d) := by
  obtain ⟨hstate, hcircuit, hused, hserves, hspare, hmem⟩ := spareSteered_spec s.dev p.val l.val i hq hl
  obtain ⟨hread, -, hkeep⟩ := spareSwapLane_spec (s.dev.spareSteered p.val l.val q i) p.val
  have hfree' : ((s.dev.setLane p.val l.val { s.dev.lane p.val l.val with after := none, counted := false, retries := 0 }).laneState p.val
    (33 * (q / 32) + 32) == 9) = true := beq_iff_eq.mpr hfree
  have hdo : s.dev.laneSelftestDone p.val l.val false = (s.dev.spareSteered p.val l.val q i).spareSwapLane p.val := by
    rw [Dev.laneSelftestDone, if_pos hst, ho, hpos]
    exact if_pos (by rw [hfree']; rfl)
  refine completes_of_eq rfl hdo ⟨(hread _ _ rfl).trans hstate, ?_, ?_, (hread _ _ rfl).trans hserves, (hread _ _ rfl).trans hspare,
    sameMem_trans hmem hkeep⟩
  · rw [Dev.flag, hread _ _ rfl]
    exact hcircuit
  · rw [Dev.flag, hread _ _ rfl]
    exact hused

theorem completes_narrowRetry (ho : s.dev.laneOwner p.val l.val = some (k, i)) (hst : s.dev.laneState p.val l.val = 8)
    (hbit : bit (s.dev.portLn k).narrowed i = true)
    (hnow : (s.dev.lane p.val l.val).since + sec (s.dev.getF F.PRT_PORT_CFG_RETRY_S [k.1, k.2]) ≤ s.dev.clk.now) :
    Completes (.narrowRetry p l) s (fun d => d.laneState p.val l.val = 1 ∧
      SameRegs s.dev d [(F.LNE_STAT_STATE, [p.val, l.val]), (F.LNE_STAT_SYNC_OK, [p.val, l.val])] ∧ SameMem s.dev d) := by
  have hdo : s.dev.narrowRetry p.val l.val = s.dev.toDetect p.val l.val := by
    rw [Dev.narrowRetry, ho]
    exact if_pos ⟨hst, hbit, hnow⟩
  exact completes_of_eq rfl hdo ⟨toDetect_laneState _ _ _, sameRegs_toDetect (sameRegs_refl _ _) (.head _) (.tail _ (.head _)), fun _ => rfl⟩

end

end Sys2Proof.Machine
end

section
/-!
A port comes up (R157): its lanes run, both live sets hold them, and its link starts anew.
-/
namespace Sys2Proof.Machine

/-! ## The steps -/

/-- Latency, skew and phase of the lanes as the port measured them. -/
def Dev.latShown (d : Dev) (k : Nat × Nat) (m : List (Nat × Nat × Nat × Nat)) : Dev :=
  m.foldl (fun d x =>
    let l := d.laneOf k x.1
    ((d.setF F.LNE_LAT_LATENCY [k.1, l] x.2.1).setF F.LNE_LAT_SKEW [k.1, l] x.2.2.1).setF F.LNE_LAT_PHASE [k.1, l] x.2.2.2) d

/-- The logical lanes `js` of a port run. -/
def Dev.lanesRun (d : Dev) (k : Nat × Nat) (js : List Nat) : Dev :=
  js.foldl (fun d j => (d.setLane k.1 (d.laneOf k j) { d.lane k.1 (d.laneOf k j) with retries := 0 }).toState k.1 (d.laneOf k j) 5) d

/-- The link of a port that comes up, and its time exchange, start anew. -/
def Dev.linkStarts (d : Dev) (k : Nat × Nat) : Dev :=
  let e := d.setLink k { d.link k with ackAt := d.clk.now, ackSeq := 0xFFFF, used := [0, 0, 0, 0], freed := [0, 0, 0, 0], crNext := 0, flushed := false }
  { e with clk := { e.clk with timex := ndel e.clk.timex [k.1, k.2] } }

/-- The fields of LNE_LAT. -/
def latFields : List Field := [F.LNE_LAT_LATENCY, F.LNE_LAT_SKEW, F.LNE_LAT_PHASE]

/-- The counters of a link. -/
def linkCountFields : List Field := [F.PRT_LNK_REPLAY_COUNT, F.PRT_LNK_NAK_TX_COUNT, F.PRT_LNK_BAD_COUNT, F.PRT_LNK_DUP_COUNT,
  F.PRT_LNK_ABORT_RX_COUNT, F.PRT_LNK_ABORT_TX_COUNT, F.PRT_LNK_MALFORMED_COUNT, F.PRT_LNK_TIMEX_LOST_COUNT]

theorem latShown_touches (d : Dev) (k : Nat × Nat) (m : List (Nat × Nat × Nat × Nat)) : Touches latFields d (d.latShown k m) :=
  .foldl (fun d _ => (((Touches.refl _ d).setF (by decide) _ _).setF (by decide) _ _).setF (by decide) _ _) d m

theorem latShown_ln (d : Dev) (k : Nat × Nat) (m : List (Nat × Nat × Nat × Nat)) : (d.latShown k m).ln = d.ln := by
  unfold Dev.latShown
  refine foldl_keeps (g := Dev.ln) ?_ m d
  exact fun _ _ => rfl

theorem lanesRun_touches (d : Dev) (k : Nat × Nat) (js : List Nat) : Touches [F.LNE_STAT_STATE] d (d.lanesRun k js) :=
  .foldl (fun d _ => (touches_setLane _ d _ _ _).trans (toState_touches (.head _) _ _ _ _)) d js

theorem lanesRun_ports (d : Dev) (k : Nat × Nat) (js : List Nat) : (d.lanesRun k js).ln.ports = d.ln.ports := by
  unfold Dev.lanesRun
  refine foldl_keeps (g := fun d => d.ln.ports) ?_ js d
  exact fun _ _ => rfl

theorem lanesRun_active (d : Dev) (k : Nat × Nat) (js : List Nat) : ∀ j ∈ js, (d.lanesRun k js).laneState k.1 (d.laneOf k j) = 5 := by
  have hstep (e : Dev) (j : Nat) : Touches [F.LNE_STAT_STATE] e
      ((e.setLane k.1 (e.laneOf k j) { e.lane k.1 (e.laneOf k j) with retries := 0 }).toState k.1 (e.laneOf k j) 5) :=
    (touches_setLane _ e _ _ _).trans (toState_touches (.head _) _ _ _ _)
  unfold Dev.lanesRun
  refine foldl_brings (P := SameFormation d) (Q := fun j e => e.laneState k.1 (d.laneOf k j) = 5) ?inv ?set ?keep (fun _ _ _ => rfl)
  case inv => exact fun e j he f i hf => (sameFormation_of_fields (hstep e j).fields (by decide) f i hf).trans (he f i hf)
  case set =>
    intro e j he
    rw [he.laneOf]
    exact toState_laneState _ _ _ (by decide)
  case keep => exact fun e j n hn => toState_stays _ _ _ _ (by decide) hn

theorem clearLinkCounts_touches (d : Dev) (i : List Nat) : Touches linkCountFields d (d.clearLinkCounts i) := by
  have hgo (fs : List Field) (d : Dev) (hfs : fs ⊆ linkCountFields) : Touches linkCountFields d (fs.foldl (fun d f => d.setF f i 0) d) := by
    induction fs generalizing d with
    | nil => exact .refl _ d
    | cons f t ih =>
      obtain ⟨hf, ht⟩ := List.cons_subset.mp hfs
      exact ((Touches.refl _ d).setF hf i 0).trans (ih _ ht)
  exact hgo linkCountFields d (List.Subset.refl _)

theorem linkStarts_touches (l : List Field) (d : Dev) (k : Nat × Nat) : Touches l d (d.linkStarts k) := { Touches.refl l d with }

/-! ## The port -/

/-- The lane side of a port that comes up on lanes `js`. -/
def PortLn.risen (n : PortLn) (js : List Nat) (lag : Nat) : PortLn := { n with narrowed := js.foldl clrBit n.narrowed, rxLag := lag }

/-- A port that comes up on lanes `js`. -/
def Dev.portRisen (d : Dev) (k : Nat × Nat) (js : List Nat) (lat : List (Nat × Nat × Nat)) (lag : Nat) : Dev :=
  let e := ((d.setPortLn k ((d.portLn k).risen js lag)).latShown k (js.zip lat)).lanesRun k js
  ((((e.setLive k true (ofOnes js)).setLive k false (ofOnes js)).raise F.PRT_PORT_STAT_UP [k.1, k.2]).clearLinkCounts [k.1, k.2]).linkStarts k

theorem portRisen_spec (d : Dev) (k : Nat × Nat) (js : List Nat) (lat : List (Nat × Nat × Nat)) (lag : Nat) :
    (d.portRisen k js lat lag).portUp k = true ∧ (d.portRisen k js lat lag).live16 k true = ofOnes js % 2 ^ 16 ∧
      (d.portRisen k js lat lag).live16 k false = ofOnes js % 2 ^ 16 ∧ (d.portRisen k js lat lag).portLn k = (d.portLn k).risen js lag ∧
      (∀ j ∈ js, (d.portRisen k js lat lag).laneState k.1 (d.laneOf k j) = 5) ∧ SameMem d (d.portRisen k js lat lag) := by
  generalize ha : d.setPortLn k ((d.portLn k).risen js lag) = a
  generalize hb : a.latShown k (js.zip lat) = b
  generalize hc : b.lanesRun k js = c
  generalize hlive : (c.setLive k true (ofOnes js)).setLive k false (ofOnes js) = e
  have hr : d.portRisen k js lat lag = ((e.raise F.PRT_PORT_STAT_UP [k.1, k.2]).clearLinkCounts [k.1, k.2]).linkStarts k := by
    rw [Dev.portRisen, ha, hb, hc, hlive]
  have hrise : Touches [F.PRT_PORT_STAT_CHANGE_PENDING] d a := ha ▸ setPortLn_touches (.head _) d k _
  have hlat : Touches latFields a b := hb ▸ latShown_touches a k _
  have hrun : Touches [F.LNE_STAT_STATE] b c := hc ▸ lanesRun_touches b k js
  have hset : Touches liveFields c e := hlive ▸ (setLive_touches _ _ _ _).trans (setLive_touches _ _ _ _)
  have hend : Touches linkCountFields (e.raise F.PRT_PORT_STAT_UP [k.1, k.2]) (d.portRisen k js lat lag) :=
    hr ▸ (clearLinkCounts_touches _ _).trans (linkStarts_touches _ _ _)
  have hup : Touches (F.PRT_PORT_STAT_UP :: linkCountFields) e (d.portRisen k js lat lag) :=
    ((Touches.refl _ e).setF (.head _) _ _).trans (hend.mono (List.subset_cons_self _ _))
  have hports : (d.portRisen k js lat lag).ln.ports = a.ln.ports := by
    rw [hr, ← latShown_ln a k (js.zip lat), hb, ← lanesRun_ports b k js, hc, ← hlive]
    rfl
  refine ⟨?up, ?tx, ?rx, ?port, fun j hj => ?active, ?mem⟩
  case up => exact (congrArg (· == 1) (hend.fields _ _ (by decide))).trans (flag_raise _ _ _ rfl)
  case tx =>
    refine (hup.fields _ _ (by decide)).trans ?_
    rw [← hlive]
    exact (setLive_live16_other _ k false _).trans (setLive_live16 _ k true _)
  case rx =>
    refine (hup.fields _ _ (by decide)).trans ?_
    rw [← hlive]
    exact setLive_live16 _ k false _
  case port =>
    rw [Dev.portLn, hports, ← ha]
    exact setPortLn_portLn _ _ _
  case active =>
    have hform : SameFormation d b := fun f i hf =>
      (sameFormation_of_fields hlat.fields (by decide) f i hf).trans (sameFormation_of_fields hrise.fields (by decide) f i hf)
    refine (hup.fields _ _ (by decide)).trans ((hset.fields _ _ (by decide)).trans ?_)
    rw [← hform.laneOf, ← hc]
    exact lanesRun_active b k js j hj
  case mem =>
    exact sameMem_trans (sameMem_trans hrise.sameMem hlat.sameMem) (sameMem_trans (sameMem_trans hrun.sameMem hset.sameMem) hup.sameMem)

/-- A port comes up in a period with SEQ 0 when every lane it would run on is ready (R157). -/
theorem portComesUp_eq {d : Dev} {k : Nat × Nat} {lat : List (Nat × Nat × Nat)} {lag : Nat} (hen : d.flag F.PRT_PORT_CFG_EN [k.1, k.2] = true)
    (hup : d.portUp k = false) (hset : d.upLanes k ≠ []) (hmin : d.getF F.PRT_PORT_CFG_MIN_LIVE [k.1, k.2] ≤ (d.upLanes k).length)
    (hlat : lat.length = (d.upLanes k).length) (hseq : d.seqBegins 0 0 = true) (hready : ∀ j ∈ d.upLanes k, d.laneReady k j = true) :
    d.portComesUp k lat lag = d.portRisen k (d.upLanes k) lat lag :=
  if_pos (by simpa [hen, hup, hset, hmin, hlat, hseq] using hready)

theorem completes_portUp {s : State} {p : Fin 8} {e : Fin 32} {lat : List (BitVec 16 × BitVec 8 × BitVec 8)} {lag : Fin 256}
    (hen : s.dev.flag F.PRT_PORT_CFG_EN [p.val, e.val] = true) (hup : s.dev.portUp (p.val, e.val) = false)
    (hset : s.dev.upLanes (p.val, e.val) ≠ []) (hmin : s.dev.getF F.PRT_PORT_CFG_MIN_LIVE [p.val, e.val] ≤ (s.dev.upLanes (p.val, e.val)).length)
    (hlat : lat.length = (s.dev.upLanes (p.val, e.val)).length) (hseq : s.dev.seqBegins 0 0 = true)
    (hready : ∀ j ∈ s.dev.upLanes (p.val, e.val), s.dev.laneReady (p.val, e.val) j = true) :
    Completes (.portUp p e ⟨lat, lag⟩) s (fun d => d.portUp (p.val, e.val) = true ∧
      d.live16 (p.val, e.val) true = ofOnes (s.dev.upLanes (p.val, e.val)) % 2 ^ 16 ∧
      d.live16 (p.val, e.val) false = ofOnes (s.dev.upLanes (p.val, e.val)) % 2 ^ 16 ∧ (d.portLn (p.val, e.val)).rxLag = lag.val ∧
      (∀ j ∈ s.dev.upLanes (p.val, e.val), d.laneState p.val (s.dev.laneOf (p.val, e.val) j) = 5 ∧
        bit (d.portLn (p.val, e.val)).narrowed j = false) ∧ SameMem s.dev d) := by
  obtain ⟨hrisen, htx, hrx, hport, hactive, hmem⟩ := portRisen_spec s.dev (p.val, e.val) (s.dev.upLanes (p.val, e.val))
    (lat.map (fun x => (x.1.toNat, x.2.1.toNat, x.2.2.toNat))) lag.val
  refine completes_of_eq rfl (portComesUp_eq hen hup hset hmin ((List.length_map _).trans hlat) hseq hready)
    ⟨hrisen, htx, hrx, congrArg PortLn.rxLag hport, fun j hj => ⟨hactive j hj, ?wide⟩, hmem⟩
  case wide =>
    rw [hport, PortLn.risen, bit_foldl_clrBit]
    simp [hj]

/-- Settles O17: every clause holds, each by the lemma above for its command. -/
theorem lanesComeUp : Obligations.LanesComeUp := by
  refine ⟨?detect, ?train, ?lock, ?timeout, ?caps, ?up, ?pass, ?fail, ?retry⟩
  case detect => exact fun _ _ _ _ _ hen hden ho hst => completes_laneDetect hen hden ho hst
  case train => exact fun _ _ _ _ _ _ _ _ _ hst ho => completes_laneTrainDone hst ho
  case lock => exact fun _ _ _ _ hst => completes_laneLockDone hst
  case timeout => exact fun _ _ _ _ ht hnow => completes_laneStateTimeout ht hnow
  case caps => exact fun _ _ _ _ _ _ _ _ hb hst ho hup => completes_capsReceive hb hst ho hup
  case up => exact fun _ _ _ _ _ hen hup hset hmin hlat hseq hready => completes_portUp hen hup hset hmin hlat hseq hready
  case pass => exact fun _ _ _ _ _ _ hst ho hq _ => completes_laneSelftestDone_pass hst ho hq
  case fail => exact fun _ _ _ _ _ _ hst ho hpos hq hl hfree => completes_laneSelftestDone_fail hst ho hpos hq hl hfree
  case retry => exact fun _ _ _ _ _ ho hst hbit hnow => completes_narrowRetry ho hst hbit hnow

end Sys2Proof.Machine
end

section
/-!
Reef (R164, R165, R166, R167): a port asks, enters and wakes.
-/
namespace Sys2Proof.Machine

/-! ## Leaving a reef -/

/-- The fields that the exit from a reef writes, or the release of its islands. -/
def wakeFields : List Field := F.PRT_PORT_STAT_REEFED :: F.PRT_PORT_STAT_CHANGE_PENDING :: releaseFields

/-- A circuit starts its exit: its island runs again, and it sends the burst. -/
def Dev.exitLane (d : Dev) (p l : Nat) : Dev := (if d.islandStopped (32 + 136 * p + l) then d.startIsland (32 + 136 * p + l) else d).toState p l 7

theorem exitLane_touches (d : Dev) (p l : Nat) : Touches wakeFields d (d.exitLane p l) :=
  .trans (.ite ((startIsland_touches d _).mono (by decide)) (.refl _ d)) (toState_touches (by decide) _ _ _ _)

theorem startIsland_ln (d : Dev) (g : Nat) : (d.startIsland g).ln = d.ln := by
  unfold Dev.startIsland
  split_ifs <;> rfl

theorem startIsland_laneState (d : Dev) (g p l : Nat) : (d.startIsland g).laneState p l = d.laneState p l := by
  unfold Dev.startIsland
  split_ifs
  · rfl
  · exact getF_setF_ne d F.MST_CLKON_ON F.LNE_STAT_STATE _ _ _ (by decide)

theorem toState_after (d : Dev) (p l st q m : Nat) : ((d.toState p l st).lane q m).after = (d.lane q m).after := by
  by_cases h : [p, l] = [q, m]
  · obtain ⟨rfl, rfl⟩ : p = q ∧ l = m := by simpa using h
    rw [toState_lane]
  · exact congrArg LaneSt.after (setLane_lane_ne d p l _ h)

/-- The exit moves no port's lane side, and no circuit's plans. -/
theorem exitLane_ln (d : Dev) (p l : Nat) : (d.exitLane p l).ln.ports = d.ln.ports ∧ ∀ q m, ((d.exitLane p l).lane q m).after = (d.lane q m).after := by
  have hstart : (if d.islandStopped (32 + 136 * p + l) then d.startIsland (32 + 136 * p + l) else d).ln = d.ln := by
    split_ifs
    · exact startIsland_ln d _
    · rfl
  refine ⟨(congrArg LnSt.ports hstart :), fun q m => (toState_after _ _ _ _ _ _).trans ?_⟩
  rw [Dev.lane, hstart, Dev.lane]

theorem exitLane_stays {d : Dev} {p l m : Nat} (h : d.laneState p m = 7) : (d.exitLane p l).laneState p m = 7 := by
  refine toState_stays _ _ _ _ (by decide) ?_
  split_ifs
  · exact (startIsland_laneState _ _ _ _).trans h
  · exact h

theorem reefExit_eq (d : Dev) (k : Nat × Nat) : d.reefExit k =
    ((((d.liveCircuits k).foldl (fun d l => d.exitLane k.1 l) d).clear F.PRT_PORT_STAT_REEFED [k.1, k.2]).setPortLn k
      { ((d.liveCircuits k).foldl (fun d l => d.exitLane k.1 l) d).portLn k with reef := .waking, wake := false }) := rfl

theorem reefExit_spec (d : Dev) (k : Nat × Nat) : Touches wakeFields d (d.reefExit k) ∧
    (d.reefExit k).portLn k = { d.portLn k with reef := .waking, wake := false } ∧ (d.reefExit k).flag F.PRT_PORT_STAT_REEFED [k.1, k.2] = false ∧
    (∀ l ∈ d.liveCircuits k, (d.reefExit k).laneState k.1 l = 7) ∧ ∀ q m, ((d.reefExit k).lane q m).after = (d.lane q m).after := by
  have htouch := Touches.foldl (fun d l => exitLane_touches d k.1 l) d (d.liveCircuits k)
  have hports := foldl_keeps (g := fun d => d.ln.ports) (fun d l => (exitLane_ln d k.1 l).1) (d.liveCircuits k) d
  have hafter (q m : Nat) := foldl_keeps (g := fun d => (d.lane q m).after) (fun d l => (exitLane_ln d k.1 l).2 q m) (d.liveCircuits k) d
  have hseven : ∀ l ∈ d.liveCircuits k, ((d.liveCircuits k).foldl (fun d l => d.exitLane k.1 l) d).laneState k.1 l = 7 :=
    foldl_brings (f := fun d l => d.exitLane k.1 l) (P := fun _ => True) (Q := fun l d => d.laneState k.1 l = 7) (fun _ _ h => h)
      (fun d l _ => toState_laneState _ _ _ (by decide)) (fun _ _ _ h => exitLane_stays h) trivial
  rw [reefExit_eq]
  generalize (d.liveCircuits k).foldl (fun d l => d.exitLane k.1 l) d = e at *
  have hport : e.portLn k = d.portLn k := congrArg (nget PortLn.init · [k.1, k.2]) hports
  refine ⟨(htouch.setF (by decide) _ _).trans (setPortLn_touches (by decide) _ _ _), ?port, ?flag, fun l hl => ?seven, hafter⟩
  case port => rw [setPortLn_portLn, hport]
  case flag =>
    rw [Dev.flag, setPortLn_getF _ _ _ _ _ (by decide)]
    exact flag_clear _ _ _
  case seven =>
    rw [Dev.laneState, setPortLn_getF _ _ _ _ _ (by decide)]
    exact (getF_setF_ne e F.PRT_PORT_STAT_REEFED F.LNE_STAT_STATE _ _ _ (by decide)).trans (hseven l hl)

theorem wakePort_reefed {d : Dev} {k : Nat × Nat} (h : (d.portLn k).reef = .reefed) : d.wakePort k = d.reefExit k := by rw [Dev.wakePort, h]

/-! ## Asking -/

theorem codewords_congr {d e : Dev} {k : Nat × Nat} (hform : SameFormation d e) (hlive : e.live16 k true = d.live16 k true) (c : CtrlCode)
    (arg seq : Nat) : e.codewords k c arg seq = d.codewords k c arg seq := by
  simp only [Dev.codewords, hlive, hform.laneOf]

theorem setPortLn_codewords (d : Dev) (k : Nat × Nat) (x : PortLn) (c : CtrlCode) (arg seq : Nat) :
    (d.setPortLn k x).codewords k c arg seq = d.codewords k c arg seq := by
  have htouch := setPortLn_touches (l := [F.PRT_PORT_STAT_CHANGE_PENDING]) (.head _) d k x
  exact codewords_congr (sameFormation_of_fields htouch.fields (by decide)) (htouch.fields _ _ (by decide)) c arg seq

section
variable {s : State} {p : Fin 8} {e : Fin 32}

theorem completes_reefReqSend {idle since : Nat} (hup : s.dev.portUp (p.val, e.val) = true) (hreef : (s.dev.portLn (p.val, e.val)).reef = .none)
    (hidle : s.dev.portIdle (p.val, e.val) = true) (hlong : s.dev.getF F.PRT_PORT_REEF_IDLE [p.val, e.val] ≤ idle)
    (hfree : s.dev.reefFree (p.val, e.val) since = true) (hheld : s.dev.reefHeld (p.val, e.val) = false) :
    Completes (.reefReqSend p e idle since) s (fun d => (d.portLn (p.val, e.val)).reef = .asked ∧
      d.out = s.dev.out ++ s.dev.codewords (p.val, e.val) .reefReq 0 s.dev.seqNow ∧
      SameRegs s.dev d [(F.PRT_PORT_STAT_CHANGE_PENDING, [p.val, e.val])] ∧ SameMem s.dev d) := by
  have hdo : s.dev.reefReq (p.val, e.val) idle since = (s.dev.setPortLn (p.val, e.val) { s.dev.portLn (p.val, e.val) with
      reef := .asked, wake := false, reefAt := s.dev.clk.now }).sendCtrlAll (p.val, e.val) .reefReq 0 s.dev.seqNow :=
    if_pos (by simp [hup, hreef, hidle, hlong, hfree, hheld])
  rw [sendCtrlAll_eq, setPortLn_codewords] at hdo
  exact completes_of_eq rfl hdo ⟨congrArg PortLn.reef (setPortLn_portLn _ _ _), rfl,
    sameRegs_of_regs (setPortLn_sameRegs s.dev (p.val, e.val) _) rfl, fun _ => rfl⟩

theorem reefAgreed_spec (d : Dev) (k : Nat × Nat) : ((d.reefAgreed k).portLn k).reef = .entering ∧ (d.reefAgreed k).out = d.out ∧
    SameRegs d (d.reefAgreed k) [(F.PRT_PORT_STAT_CHANGE_PENDING, [k.1, k.2])] ∧ SameMem d (d.reefAgreed k) :=
  ⟨congrArg PortLn.reef (setPortLn_portLn _ _ _), rfl, setPortLn_sameRegs d k _, fun _ => rfl⟩

theorem rxReefReq_asked {d : Dev} {k : Nat × Nat} {since : Nat} (hup : d.portUp k = true) (h : (d.portLn k).reef = .asked) :
    d.rxReefReq k since = d.reefAgreed k := by
  rw [Dev.rxReefReq, if_pos hup, h]

theorem rxReefReq_none {d : Dev} {k : Nat × Nat} {since : Nat} (hup : d.portUp k = true) (h : (d.portLn k).reef = .none) :
    d.rxReefReq k since = if d.reefFree k since then { d.reefAgreed k with out := d.out ++ d.codewords k .reefAck 0 d.seqNow }
      else { d with out := d.out ++ d.codewords k .reefNak 0 d.seqNow } := by
  rw [Dev.rxReefReq, if_pos hup, h]
  simp only [sendCtrlAll_eq]
  rw [Dev.reefAgreed, setPortLn_codewords]
  rfl

theorem rxReefReq_other {d : Dev} {k : Nat × Nat} {since : Nat} (h : (d.portLn k).reef = .entering ∨ (d.portLn k).reef = .reefed ∨
    (d.portLn k).reef = .waking) : d.rxReefReq k since = d := by
  unfold Dev.rxReefReq
  rcases h with h | h | h <;> rw [h] <;> exact ite_self d

theorem rxReefReq_spec {d : Dev} {k : Nat × Nat} (since : Nat) (hup : d.portUp k = true) :
    ((d.portLn k).reef = .asked → ((d.rxReefReq k since).portLn k).reef = .entering ∧ (d.rxReefReq k since).out = d.out) ∧
      ((d.portLn k).reef = .none → d.reefFree k since = true → ((d.rxReefReq k since).portLn k).reef = .entering ∧
        (d.rxReefReq k since).out = d.out ++ d.codewords k .reefAck 0 d.seqNow) ∧
      ((d.portLn k).reef = .none → d.reefFree k since = false → ((d.rxReefReq k since).portLn k).reef = .none ∧
        (d.rxReefReq k since).out = d.out ++ d.codewords k .reefNak 0 d.seqNow) ∧
      SameRegs d (d.rxReefReq k since) [(F.PRT_PORT_STAT_CHANGE_PENDING, [k.1, k.2])] ∧ SameMem d (d.rxReefReq k since) := by
  obtain ⟨hreef, hout, hregs, hmem⟩ := reefAgreed_spec d k
  refine ⟨fun ha => ?asked, fun hn hf => ?free, fun hn hf => ?busy, ?frame⟩
  case asked => exact rxReefReq_asked hup ha ▸ ⟨hreef, hout⟩
  case free =>
    rw [rxReefReq_none hup hn, if_pos hf]
    exact ⟨hreef, rfl⟩
  case busy =>
    rw [rxReefReq_none hup hn, if_neg (by simp [hf])]
    exact ⟨hn, rfl⟩
  case frame =>
    cases h : (d.portLn k).reef
    case asked => exact rxReefReq_asked hup h ▸ ⟨hregs, hmem⟩
    case none =>
      rw [rxReefReq_none hup h]
      split_ifs
      · exact ⟨sameRegs_of_regs hregs rfl, hmem⟩
      · exact ⟨sameRegs_refl d _, fun _ => rfl⟩
    all_goals
      rw [rxReefReq_other (d := d) (k := k) (by simp [h])]
      exact ⟨sameRegs_refl d _, fun _ => rfl⟩

theorem completes_rxReefAck (hup : s.dev.portUp (p.val, e.val) = true) (h : (s.dev.portLn (p.val, e.val)).reef = .asked) :
    Completes (.rxReefAck p e) s (fun d => (d.portLn (p.val, e.val)).reef = .entering ∧
      SameRegs s.dev d [(F.PRT_PORT_STAT_CHANGE_PENDING, [p.val, e.val])] ∧ SameMem s.dev d) := by
  obtain ⟨hreef, -, hregs, hmem⟩ := reefAgreed_spec s.dev (p.val, e.val)
  exact completes_of_eq rfl (if_pos (by simp [hup, h])) ⟨hreef, hregs, hmem⟩

/-! ## Refusal -/

theorem reefRefused_spec {d : Dev} {k : Nat × Nat} (h : (d.portLn k).reef = .asked) : ((d.reefRefused k).portLn k).reef = .none ∧
    SameRegs d (d.reefRefused k) [(F.PRT_PORT_STAT_CHANGE_PENDING, [k.1, k.2])] ∧ SameMem d (d.reefRefused k) := by
  rw [Dev.reefRefused, if_pos h]
  exact ⟨congrArg PortLn.reef (setPortLn_portLn _ _ _), setPortLn_sameRegs d k _, fun _ => rfl⟩

theorem completes_rxReefNak (h : (s.dev.portLn (p.val, e.val)).reef = .asked) :
    Completes (.rxReefNak p e) s (fun d => (d.portLn (p.val, e.val)).reef = .none ∧
      SameRegs s.dev d [(F.PRT_PORT_STAT_CHANGE_PENDING, [p.val, e.val])] ∧ SameMem s.dev d) :=
  completes_of_eq rfl rfl (reefRefused_spec h)

/-- A command that leaves the device as it is ends in the state it began in. -/
theorem exec_idle {i : Instr} {d : Dev} (h : exec i s = .next { s with dev := d }) (hd : d = s.dev) : exec i s = .next s := by rw [h, hd]

theorem exec_reefNoAnswer_early (h : s.dev.clk.now < (s.dev.portLn (p.val, e.val)).reefAt + 64 * 1024) : exec (.reefNoAnswer p e) s = .next s :=
  exec_idle rfl (if_neg (by rw [periodUnits]; omega))

theorem completes_reefNoAnswer (h : (s.dev.portLn (p.val, e.val)).reef = .asked)
    (hnow : (s.dev.portLn (p.val, e.val)).reefAt + 64 * 1024 ≤ s.dev.clk.now) :
    Completes (.reefNoAnswer p e) s (fun d => (d.portLn (p.val, e.val)).reef = .none ∧
      SameRegs s.dev d [(F.PRT_PORT_STAT_CHANGE_PENDING, [p.val, e.val])] ∧ SameMem s.dev d) :=
  completes_of_eq rfl (if_pos (by rw [periodUnits]; omega)) (reefRefused_spec h)

/-! ## Entry and exit -/

/-- The circuits `ls` of a port die enter a state. -/
def Dev.circuitsTo (d : Dev) (p st : Nat) (ls : List Nat) : Dev := ls.foldl (fun d l => d.toState p l st) d

theorem circuitsTo_spec (d : Dev) (p : Nat) {st : Nat} (ls : List Nat) (hst : st < 16) : Touches [F.LNE_STAT_STATE] d (d.circuitsTo p st ls) ∧
    (d.circuitsTo p st ls).ln.ports = d.ln.ports ∧ ∀ l ∈ ls, (d.circuitsTo p st ls).laneState p l = st := by
  refine ⟨.foldl (fun d l => toState_touches (.head _) d p l st) d ls, ?ports, ?state⟩
  all_goals unfold Dev.circuitsTo
  case ports =>
    refine foldl_keeps (g := fun d => d.ln.ports) ?_ ls d
    exact fun _ _ => rfl
  case state =>
    refine foldl_brings (P := fun _ => True) (Q := fun l d => d.laneState p l = st) (fun _ _ h => h) ?set ?keep trivial
    case set => exact fun d l _ => toState_laneState d p l hst
    case keep => exact fun d l _ h => toState_stays d p l st hst h

theorem exec_reefEntryDone_held (hheld : s.dev.reefHeld (p.val, e.val) = true) : exec (.reefEntryDone p e) s = .next s :=
  exec_idle rfl (if_neg (by simp [hheld]))

theorem completes_reefEntryDone (h : (s.dev.portLn (p.val, e.val)).reef = .entering) (hwake : (s.dev.portLn (p.val, e.val)).wake = false)
    (hheld : s.dev.reefHeld (p.val, e.val) = false) :
    Completes (.reefEntryDone p e) s (fun d => (d.portLn (p.val, e.val)).reef = .reefed ∧ d.flag F.PRT_PORT_STAT_REEFED [p.val, e.val] = true ∧
      (∀ l ∈ s.dev.liveCircuits (p.val, e.val), d.laneState p.val l = 6) ∧ SameMem s.dev d) := by
  obtain ⟨htouch, hports, hsix⟩ := circuitsTo_spec s.dev p.val (st := 6) (s.dev.liveCircuits (p.val, e.val)) (by decide)
  have hdo : s.dev.reefEntered (p.val, e.val) = (((s.dev.circuitsTo p.val 6 (s.dev.liveCircuits (p.val, e.val))).setPortLn (p.val, e.val)
      { s.dev.portLn (p.val, e.val) with reef := .reefed }).raise F.PRT_PORT_STAT_REEFED [p.val, e.val]) := by
    have hport : (s.dev.circuitsTo p.val 6 (s.dev.liveCircuits (p.val, e.val))).portLn (p.val, e.val) = s.dev.portLn (p.val, e.val) :=
      congrArg (nget PortLn.init · [p.val, e.val]) hports
    refine (if_pos ⟨h, by simp [hheld]⟩).trans ?_
    rw [← hport]
    exact if_neg (by rw [← hport] at hwake; exact ne_true_of_eq_false hwake)
  refine completes_of_eq rfl hdo ⟨?reef, flag_raise _ _ _ rfl, fun l hl => ?six, ?mem⟩
  case reef => exact congrArg PortLn.reef (setPortLn_portLn _ _ _)
  case six =>
    refine (getF_setF_ne _ F.PRT_PORT_STAT_REEFED F.LNE_STAT_STATE _ _ _ (by decide)).trans ?_
    rw [setPortLn_getF _ _ _ _ _ (by decide)]
    exact hsix l hl
  case mem => exact sameMem_trans htouch.sameMem fun _ => rfl

theorem completes_wakeBurstDetect (h : (s.dev.portLn (p.val, e.val)).reef = .reefed) :
    Completes (.wakeBurstDetect p e) s (fun d => (d.portLn (p.val, e.val)).reef = .waking ∧ d.flag F.PRT_PORT_STAT_REEFED [p.val, e.val] = false ∧
      (∀ l ∈ s.dev.liveCircuits (p.val, e.val), d.laneState p.val l = 7) ∧ SameMem s.dev d) := by
  obtain ⟨htouch, hport, hflag, hseven, -⟩ := reefExit_spec s.dev (p.val, e.val)
  exact completes_of_eq rfl (wakePort_reefed h) ⟨congrArg PortLn.reef hport, hflag, hseven, htouch.sameMem⟩

theorem exec_reefWake_idle {since : Nat} (h : (s.dev.portLn (p.val, e.val)).reef = .reefed) (hdue : s.dev.wakeDue (p.val, e.val) since = false) :
    exec (.reefWake p ⟨e, since⟩) s = .next s :=
  exec_idle rfl ((if_neg (by simp [h])).trans (if_neg (by simp [hdue])))

theorem completes_reefWake_exit {since : Nat} (h : (s.dev.portLn (p.val, e.val)).reef = .reefed)
    (hdue : s.dev.wakeDue (p.val, e.val) since = true) :
    Completes (.reefWake p ⟨e, since⟩) s (fun d => (d.portLn (p.val, e.val)).reef = .waking ∧ SameMem s.dev d) := by
  obtain ⟨htouch, hport, -⟩ := reefExit_spec s.dev (p.val, e.val)
  have hdo : s.dev.reefWake (p.val, e.val) since = s.dev.reefExit (p.val, e.val) :=
    ((if_neg (by simp [h])).trans (if_pos hdue)).trans (wakePort_reefed h)
  exact completes_of_eq rfl hdo ⟨congrArg PortLn.reef hport, htouch.sameMem⟩

/-- Data resumes on one circuit, if it sends its burst. -/
def Dev.resumeLane (d : Dev) (p l : Nat) : Dev := if d.laneState p l = 7 then d.toState p l 5 else d

theorem resumeLane_touches (d : Dev) (p l : Nat) : Touches [F.LNE_STAT_STATE] d (d.resumeLane p l) :=
  .ite (toState_touches (.head _) d p l 5) (.refl _ d)

theorem resumeLane_laneState (d : Dev) (p l m : Nat) :
    (d.resumeLane p l).laneState p m = if l = m ∧ d.laneState p m = 7 then 5 else d.laneState p m := by
  unfold Dev.resumeLane
  by_cases hl : l = m
  · subst hl
    simp only [true_and]
    split_ifs
    · exact toState_laneState d p l (by decide)
    · rfl
  · simp only [hl, false_and, if_false]
    split_ifs
    · exact toState_laneState_ne d p l 5 hl
    · rfl

/-- Of the circuits `ls`, those that send their burst run in the end. -/
theorem resumeLanes_active (d : Dev) (p : Nat) (ls : List Nat) :
    ∀ l ∈ ls, d.laneState p l = 7 → (ls.foldl (fun d l => d.resumeLane p l) d).laneState p l = 5 := by
  refine foldl_brings (P := fun e => ∀ m, d.laneState p m = 7 → e.laneState p m = 7 ∨ e.laneState p m = 5)
    (Q := fun l e => d.laneState p l = 7 → e.laneState p l = 5) ?inv ?set ?keep fun _ h => .inl h
  case inv =>
    intro e l he m hm
    rw [resumeLane_laneState]
    split_ifs
    · exact .inr rfl
    · exact he m hm
  case set =>
    intro e l he hl
    rw [resumeLane_laneState]
    rcases he l hl with h | h <;> simp [h]
  case keep =>
    intro e l m hkeep hm
    simp [resumeLane_laneState, hkeep hm]

theorem completes_reefWake_done {since : Nat} (h : (s.dev.portLn (p.val, e.val)).reef = .waking) :
    Completes (.reefWake p ⟨e, since⟩) s (fun d => (d.portLn (p.val, e.val)).reef = .none ∧
      (∀ l ∈ s.dev.liveCircuits (p.val, e.val), s.dev.laneState p.val l = 7 → d.laneState p.val l = 5) ∧ SameMem s.dev d) := by
  have htouch := Touches.foldl (fun d l => resumeLane_touches d p.val l) s.dev (s.dev.liveCircuits (p.val, e.val))
  have hactive := resumeLanes_active s.dev p.val (s.dev.liveCircuits (p.val, e.val))
  refine completes_of_eq rfl (if_pos h) ⟨congrArg PortLn.reef (setPortLn_portLn _ _ _), fun l hl h7 => ?active, ?mem⟩
  case active => exact (setPortLn_getF _ _ _ _ _ (by decide)).trans (hactive l hl h7)
  case mem => exact sameMem_trans htouch.sameMem fun _ => rfl

end

/-- Settles O20: every clause holds, each by the lemma above for its command. -/
theorem portsReefAndWake : Obligations.PortsReefAndWake := by
  refine ⟨?request, ?answer, ?ack, ?nak, ?early, ?noAnswer, ?held, ?entry, ?burst, ?wake, ?done⟩
  case request => exact fun _ _ _ _ _ hup hreef hidle hlong hfree hheld => completes_reefReqSend hup hreef hidle hlong hfree hheld
  case answer => exact fun _ _ _ since hup => completes_of_eq rfl rfl (rxReefReq_spec since hup)
  case ack => exact fun _ _ _ hup h => completes_rxReefAck hup h
  case nak => exact fun _ _ _ h => completes_rxReefNak h
  case early => exact fun _ _ _ h => exec_reefNoAnswer_early h
  case noAnswer => exact fun _ _ _ h hnow => completes_reefNoAnswer h hnow
  case held => exact fun _ _ _ _ hheld => exec_reefEntryDone_held hheld
  case entry => exact fun _ _ _ h hwake hheld => completes_reefEntryDone h hwake hheld
  case burst => exact fun _ _ _ h => completes_wakeBurstDetect h
  case wake => exact fun _ _ _ _ h => ⟨fun hdue => exec_reefWake_idle h hdue, fun hdue => completes_reefWake_exit h hdue⟩
  case done => exact fun _ _ _ _ h => completes_reefWake_done h

end Sys2Proof.Machine
end

section
/-!
Lane faults and lane-set changes (R146, R147, R148, R160, R162).
-/
namespace Sys2Proof.Machine

/-! ## Decided drops -/

/-- A wake trigger leaves the decided changes of a port and the plans for its circuits. -/
theorem wakePort_keeps (d : Dev) (k : Nat × Nat) : Touches wakeFields d (d.wakePort k) ∧ ((d.wakePort k).portLn k).queue = (d.portLn k).queue ∧
    ((d.wakePort k).portLn k).dropReqs = (d.portLn k).dropReqs ∧ ∀ q m, ((d.wakePort k).lane q m).after = (d.lane q m).after := by
  cases h : (d.portLn k).reef
  case reefed =>
    obtain ⟨htouch, hport, -, -, hafter⟩ := reefExit_spec d k
    rw [wakePort_reefed h, hport]
    exact ⟨htouch, rfl, rfl, hafter⟩
  case entering =>
    have hdo : d.wakePort k = d.setPortLn k { d.portLn k with wake := true } := by rw [Dev.wakePort, h]
    rw [hdo, setPortLn_portLn]
    exact ⟨setPortLn_touches (by decide) d k _, rfl, rfl, fun _ _ => rfl⟩
  all_goals
    have hdo : d.wakePort k = d := by rw [Dev.wakePort, h]
    rw [hdo]
    exact ⟨.refl _ d, rfl, rfl, fun _ _ => rfl⟩

/-- While a port is not reefed, a wake trigger writes CHANGE_PENDING at most. -/
theorem wakePort_awake {d : Dev} {k : Nat × Nat} (h : (d.portLn k).reef ≠ .reefed) :
    SameRegs d (d.wakePort k) [(F.PRT_PORT_STAT_CHANGE_PENDING, [k.1, k.2])] := by
  unfold Dev.wakePort
  split
  · exact setPortLn_sameRegs d k _
  · exact absurd ‹_› h
  · exact sameRegs_refl d _

/-- The lane side of a port that decides the drop of logical lane `i`, where `live` is its transmit live set. -/
def PortLn.dropping (n : PortLn) (live i : Nat) (req : Bool) : PortLn :=
  { n with
    queue := if n.queue.contains (false, i) || n.announced == some (false, i) || !bit live i then n.queue else n.queue ++ [(false, i)]
    dropReqs := if req && !n.dropReqs.contains i then n.dropReqs ++ [i] else n.dropReqs }

theorem decideDrop_eq (d : Dev) (k : Nat × Nat) (i : Nat) (req : Bool) :
    d.decideDrop k i req = (d.setPortLn k ((d.portLn k).dropping (d.live16 k true) i req)).wakePort k := rfl

theorem dropping_asks (n : PortLn) (live i : Nat) : i ∈ (n.dropping live i true).dropReqs := by
  unfold PortLn.dropping
  by_cases h : i ∈ n.dropReqs <;> simp [h]

/-- The drop of a live lane is decided, unless it is announced already. -/
theorem dropping_decides {n : PortLn} {live i : Nat} (req : Bool) (hlive : bit live i = true) (hann : n.announced ≠ some (false, i)) :
    (false, i) ∈ (n.dropping live i req).queue := by
  unfold PortLn.dropping
  by_cases h : (false, i) ∈ n.queue <;> simp [h, hlive, hann]

theorem decideDrop_keeps (d : Dev) (k : Nat × Nat) (i : Nat) (req : Bool) : Touches wakeFields d (d.decideDrop k i req) ∧
    ((d.decideDrop k i req).portLn k).queue = ((d.portLn k).dropping (d.live16 k true) i req).queue ∧
    ((d.decideDrop k i req).portLn k).dropReqs = ((d.portLn k).dropping (d.live16 k true) i req).dropReqs ∧
    ∀ q m, ((d.decideDrop k i req).lane q m).after = (d.lane q m).after := by
  obtain ⟨htouch, hqueue, hreqs, hafter⟩ := wakePort_keeps (d.setPortLn k ((d.portLn k).dropping (d.live16 k true) i req)) k
  rw [setPortLn_portLn] at hqueue hreqs
  exact ⟨(setPortLn_touches (by decide) d k _).trans htouch, hqueue, hreqs, hafter⟩

/-! ## Faults -/

/-- A lane's circuit is to go to its test, or to train again, once its drop has taken effect (R160, R162). -/
def Dev.faulted (d : Dev) (p l : Nat) (c : LaneCause) : Dev :=
  let e := if c = .refDrift then (d.fault (5 + p) .laneFault).raise F.LNE_STAT_REF_DRIFT [p, l] else d.fault (5 + p) .laneFault
  e.setLane p l { e.lane p l with after := some (if c = .islandReset then .retrain else .selftest), counted := false }

theorem faulted_spec (d : Dev) (p l : Nat) (c : LaneCause) : (d.faulted p l c).bitF F.FLT_STAT_SRC [5 + p] 8 = true ∧
    ((d.faulted p l c).lane p l).after = some (if c = .islandReset then .retrain else .selftest) ∧ SameMem d (d.faulted p l c) := by
  unfold Dev.faulted
  generalize he : (if c = .refDrift then (d.fault (5 + p) .laneFault).raise F.LNE_STAT_REF_DRIFT [p, l] else d.fault (5 + p) .laneFault) = e
  have hsrc : e.bitF F.FLT_STAT_SRC [5 + p] 8 = (d.fault (5 + p) .laneFault).bitF F.FLT_STAT_SRC [5 + p] 8 := by
    rw [← he]
    split_ifs
    · exact bitF_setF_ne _ F.LNE_STAT_REF_DRIFT F.FLT_STAT_SRC _ _ _ _ (by decide)
    · rfl
  have hmem : e.contents = d.contents := he ▸ contents_ite (fault_contents d _ _) (fault_contents d _ _)
  refine ⟨hsrc.trans ?_, congrArg LaneSt.after (setLane_lane _ _ _ _), sameMem_of_contents hmem⟩
  rw [fault_bitF _ _ _ _ (by decide)]
  exact Bool.or_true _

section
variable {s : State} {p : Fin 8}

theorem completes_laneFault {l : Fin 132} {cause : LaneCause} {k : Nat × Nat} {i : Nat} (ho : s.dev.laneOwner p.val l.val = some (k, i))
    (hup : s.dev.portUp k = true) (hst : s.dev.laneState p.val l.val = 5) (hafter : (s.dev.lane p.val l.val).after = none)
    (hcause : s.dev.causeHolds p.val l.val cause = true) :
    Completes (.laneFault p l cause) s (fun d => d.bitF F.FLT_STAT_SRC [5 + p.val] 8 = true ∧
      (d.lane p.val l.val).after = some (if cause = .islandReset then .retrain else .selftest) ∧ i ∈ (d.portLn k).dropReqs ∧ SameMem s.dev d) := by
  obtain ⟨hsrc, hplan, hmem⟩ := faulted_spec s.dev p.val l.val cause
  obtain ⟨htouch, -, hreqs, hkeep⟩ := decideDrop_keeps (s.dev.faulted p.val l.val cause) k i true
  have hdo : s.dev.laneFault p.val l.val cause = (s.dev.faulted p.val l.val cause).decideDrop k i true := by
    rw [Dev.laneFault, ho]
    exact if_pos (by simp [hup, hst, hafter, hcause])
  refine completes_of_eq rfl hdo ⟨?src, (hkeep _ _).trans hplan, hreqs ▸ dropping_asks _ _ _, sameMem_trans hmem htouch.sameMem⟩
  case src => exact (congrArg (bit · 8) (htouch.fields _ _ (by decide))).trans hsrc

/-! ## Changes of the set -/

variable {e : Fin 32} {i : Fin 16}

/-- The announcements of one lane-set change and one DROP_REQ, where there are such. -/
def Dev.announcements (d : Dev) (k : Nat × Nat) (c : Option (Bool × Nat)) (req : Option Nat) : List Out :=
  c.toList.flatMap (fun c => d.announcement k (if c.1 then .add else .drop) c.2) ++ req.toList.flatMap (fun i => d.announcement k .dropReq i)

/-- What goes out before does not change what is announced. -/
theorem announce_announce (d : Dev) (k : Nat × Nat) (c c' : CtrlCode) (arg arg' : Nat) : (d.announce k c arg).announce k c' arg' =
    { d with out := d.out ++ (d.announcement k c arg ++ d.announcement k c' arg') } := by
  have hkeep : (d.announce k c arg).announcement k c' arg' = d.announcement k c' arg' := by
    rw [announce_eq]
    rfl
  rw [announce_eq (d.announce k c arg), hkeep, announce_eq, List.append_assoc]

theorem laneSetAnnounce_eq {d : Dev} {k : Nat × Nat} (hup : d.portUp k = true) (hreef : (d.portLn k).reef = .none)
    (hann : (d.portLn k).announced = none) (hany : (d.portLn k).queue ≠ [] ∨ (d.portLn k).dropReqs ≠ []) (hseq : d.seqBegins 0 224 = true) :
    d.laneSetAnnounce k = ({ d with out := d.out ++ d.announcements k (d.portLn k).queue.head? (d.portLn k).dropReqs.head? } : Dev).setPortLn k
      { d.portLn k with queue := (d.portLn k).queue.tail, announced := (d.portLn k).queue.head?, dropReqs := (d.portLn k).dropReqs.tail } := by
  have hcond : (d.portUp k && (d.portLn k).reef == .none && (d.portLn k).announced.isNone &&
      (!(d.portLn k).queue.isEmpty || !(d.portLn k).dropReqs.isEmpty) && d.seqBegins 0 224) = true := by simpa [hup, hreef, hann, hseq] using hany
  refine (if_pos hcond).trans (congrArg (fun e : Dev => e.setPortLn k _) ?_)
  unfold Dev.announcements
  cases (d.portLn k).queue.head? with
  | none =>
    cases (d.portLn k).dropReqs.head? with
    | none => exact congrArg (fun o => { d with out := o }) (List.append_nil d.out).symm
    | some i => exact (announce_eq d k _ _).trans (congrArg (fun o => { d with out := d.out ++ o }) (List.append_nil _).symm)
  | some c =>
    cases (d.portLn k).dropReqs.head? with
    | none => exact (announce_eq d k _ _).trans (congrArg (fun o => { d with out := d.out ++ o }) (by simp))
    | some i => exact (announce_announce d k _ _ _ _).trans (congrArg (fun o => { d with out := d.out ++ o }) (by simp))

theorem completes_laneSetAnnounce (hup : s.dev.portUp (p.val, e.val) = true) (hreef : (s.dev.portLn (p.val, e.val)).reef = .none)
    (hann : (s.dev.portLn (p.val, e.val)).announced = none)
    (hany : (s.dev.portLn (p.val, e.val)).queue ≠ [] ∨ (s.dev.portLn (p.val, e.val)).dropReqs ≠ []) (hseq : s.dev.seqBegins 0 224 = true) :
    Completes (.laneSetAnnounce p e) s (fun d => (d.portLn (p.val, e.val)).announced = (s.dev.portLn (p.val, e.val)).queue.head? ∧
      (d.portLn (p.val, e.val)).queue = (s.dev.portLn (p.val, e.val)).queue.tail ∧
      (d.portLn (p.val, e.val)).dropReqs = (s.dev.portLn (p.val, e.val)).dropReqs.tail ∧
      d.out = s.dev.out ++ (s.dev.portLn (p.val, e.val)).queue.head?.toList.flatMap
          (fun c => s.dev.announcement (p.val, e.val) (if c.1 then .add else .drop) c.2)
        ++ (s.dev.portLn (p.val, e.val)).dropReqs.head?.toList.flatMap (fun i => s.dev.announcement (p.val, e.val) .dropReq i) ∧
      SameRegs s.dev d [(F.PRT_PORT_STAT_CHANGE_PENDING, [p.val, e.val])] ∧ SameMem s.dev d) := by
  refine completes_of_eq rfl (laneSetAnnounce_eq hup hreef hann hany hseq) ?_
  rw [setPortLn_portLn]
  refine ⟨rfl, rfl, rfl, (List.append_assoc _ _ _).symm, ?regs, fun _ => rfl⟩
  case regs => exact sameRegs_setPortLn (k := (p.val, e.val)) (sameRegs_of_regs (sameRegs_refl s.dev _) rfl) (.head _) _

theorem completes_switchPoint_add (hann : (s.dev.portLn (p.val, e.val)).announced = some (true, i.val)) (hseq : s.dev.seqBegins 0 0 = true)
    (hmin : s.dev.getF F.PRT_PORT_CFG_MIN_LIVE [p.val, e.val] ≤ (onesOf 16 (setBit (s.dev.live16 (p.val, e.val) true) i.val)).length) :
    Completes (.switchPoint p e true) s (fun d =>
      d.live16 (p.val, e.val) true = setBit (s.dev.live16 (p.val, e.val) true) i.val % 2 ^ 16 ∧ (d.portLn (p.val, e.val)).announced = none ∧
      SameRegs s.dev d [(F.PRT_PORT_STAT_CHANGE_PENDING, [p.val, e.val]), (F.PRT_PORT_LIVE_TX_MASK, [p.val, e.val]),
        (F.PRT_PORT_STAT_LIVE_TX, [p.val, e.val])] ∧ SameMem s.dev d) := by
  generalize hd : s.dev.setPortLn (p.val, e.val) { s.dev.portLn (p.val, e.val) with announced := none } = d
  have hport : d.portLn (p.val, e.val) = { s.dev.portLn (p.val, e.val) with announced := none } := hd ▸ setPortLn_portLn _ _ _
  have hpend : SameRegs s.dev d [(F.PRT_PORT_STAT_CHANGE_PENDING, [p.val, e.val]), (F.PRT_PORT_LIVE_TX_MASK, [p.val, e.val]),
      (F.PRT_PORT_STAT_LIVE_TX, [p.val, e.val])] := hd ▸ sameRegs_setPortLn (k := (p.val, e.val)) (sameRegs_refl s.dev _) (.head _) _
  have hlive : d.live16 (p.val, e.val) true = s.dev.live16 (p.val, e.val) true := hd ▸ setPortLn_getF _ _ _ _ _ (by decide)
  have hmin' : d.getF F.PRT_PORT_CFG_MIN_LIVE [p.val, e.val] = s.dev.getF F.PRT_PORT_CFG_MIN_LIVE [p.val, e.val] :=
    hd ▸ setPortLn_getF _ _ _ _ _ (by decide)
  have hdo : s.dev.switchPoint (p.val, e.val) true = d.setLive (p.val, e.val) true (setBit (d.live16 (p.val, e.val) true) i.val) := by
    refine (if_neg (by simp [hseq])).trans ((if_pos rfl).trans ?_)
    rw [hann]
    refine (congrArg (fun d => d.switchSet (p.val, e.val) true (true, i.val)) hd).trans (if_neg (Nat.not_lt.mpr (le_of_eq_of_le ?reads (hlive ▸ hmin))))
    exact ((setLive_touches d (p.val, e.val) true _).fields F.PRT_PORT_CFG_MIN_LIVE [p.val, e.val] (by decide)).trans hmin'
  refine completes_of_eq rfl hdo ⟨hlive ▸ setLive_live16 _ _ _ _, congrArg PortLn.announced hport, ?regs, fun _ => hd ▸ rfl⟩
  case regs => exact sameRegs_setF (.tail _ (.tail _ (.head _))) (sameRegs_setF (.tail _ (.head _)) hpend)

/-! ## What the peer asks -/

theorem completes_rxSetChange {c : Instr} {add : Bool} (hexec : exec c s = .next { s with dev := s.dev.rxSetChange (p.val, e.val) add i.val })
    (hup : s.dev.portUp (p.val, e.val) = true) (hnone : (s.dev.portLn (p.val, e.val)).rxChange = none) (hi : i.val < (s.dev.portSpan (p.val, e.val)).2) :
    Completes c s (fun d => (d.portLn (p.val, e.val)).rxChange = some (add, i.val) ∧
      SameRegs s.dev d [(F.PRT_PORT_STAT_CHANGE_PENDING, [p.val, e.val])] ∧ SameMem s.dev d) :=
  completes_of_eq hexec (if_pos (by simp [hup, hnone, hi])) ⟨congrArg PortLn.rxChange (setPortLn_portLn _ _ _),
    setPortLn_sameRegs s.dev (p.val, e.val) _, fun _ => rfl⟩

theorem rxDropReq_eq {d : Dev} {k : Nat × Nat} {i : Nat} (hup : d.portUp k = true) (hi : i < (d.portSpan k).2) :
    d.rxDropReq k i = d.decideDrop k i false := if_pos (by simp [hup, hi])

theorem completes_rxDropReq_awake (hup : s.dev.portUp (p.val, e.val) = true) (hi : i.val < (s.dev.portSpan (p.val, e.val)).2)
    (hlive : bit (s.dev.live16 (p.val, e.val) true) i.val = true) (hann : (s.dev.portLn (p.val, e.val)).announced ≠ some (false, i.val))
    (hreef : (s.dev.portLn (p.val, e.val)).reef ≠ .reefed) :
    Completes (.rxDropReq p e i) s (fun d => (false, i.val) ∈ (d.portLn (p.val, e.val)).queue ∧
      SameRegs s.dev d [(F.PRT_PORT_STAT_CHANGE_PENDING, [p.val, e.val])] ∧ SameMem s.dev d) := by
  obtain ⟨htouch, hqueue, -⟩ := decideDrop_keeps s.dev (p.val, e.val) i.val false
  have hawake := wakePort_awake (k := (p.val, e.val)) (d := s.dev.setPortLn (p.val, e.val)
    ((s.dev.portLn (p.val, e.val)).dropping (s.dev.live16 (p.val, e.val) true) i.val false)) (by rw [setPortLn_portLn]; exact hreef)
  exact completes_of_eq rfl (rxDropReq_eq hup hi) ⟨hqueue ▸ dropping_decides _ hlive hann,
    sameRegs_trans (setPortLn_sameRegs s.dev (p.val, e.val) _) hawake, htouch.sameMem⟩

theorem completes_rxDropReq_reefed (hup : s.dev.portUp (p.val, e.val) = true) (hi : i.val < (s.dev.portSpan (p.val, e.val)).2)
    (hlive : bit (s.dev.live16 (p.val, e.val) true) i.val = true) (hann : (s.dev.portLn (p.val, e.val)).announced ≠ some (false, i.val))
    (hreef : (s.dev.portLn (p.val, e.val)).reef = .reefed) :
    Completes (.rxDropReq p e i) s (fun d => (false, i.val) ∈ (d.portLn (p.val, e.val)).queue ∧ (d.portLn (p.val, e.val)).reef = .waking ∧
      SameMem s.dev d) := by
  obtain ⟨htouch, hqueue, -⟩ := decideDrop_keeps s.dev (p.val, e.val) i.val false
  refine completes_of_eq rfl (rxDropReq_eq hup hi) ⟨hqueue ▸ dropping_decides _ hlive hann, ?waking, htouch.sameMem⟩
  case waking =>
    rw [decideDrop_eq, wakePort_reefed (by rw [setPortLn_portLn]; exact hreef)]
    exact congrArg PortLn.reef (reefExit_spec _ _).2.1

theorem completes_rxReservedCtrl {l : Fin 132} (hst : s.dev.laneState p.val l.val = 4 ∨ s.dev.laneState p.val l.val = 5) :
    Completes (.rxReservedCtrl p l) s (fun d =>
      d.getF F.LNE_CTRL_RSVD_COUNT [p.val, l.val] = min (s.dev.getF F.LNE_CTRL_RSVD_COUNT [p.val, l.val] + 1) (2 ^ 32 - 1) ∧
      SameRegs s.dev d [(F.LNE_CTRL_RSVD_COUNT, [p.val, l.val])] ∧ OnlyRegs s.dev d) := by
  refine completes_of_eq rfl (if_pos hst) ⟨(getF_setF_same _ _ _ _).trans (Nat.mod_eq_of_lt ?_), sameRegs_setF (.head _) (sameRegs_refl _ _), rfl⟩
  exact (Nat.min_le_right _ _).trans_lt (by decide)

end

/-- Settles O18: every clause holds, each by the lemma above for its command. -/
theorem laneFaultsAndLaneSetChanges : Obligations.LaneFaultsAndLaneSetChanges := by
  refine ⟨?fault, ?announce, ?switch, ?drop, ?add, ?dropReq, ?wake, ?reserved⟩
  case fault => exact fun _ _ _ _ _ _ ho hup hst hafter hcause => completes_laneFault ho hup hst hafter hcause
  case announce => exact fun _ _ _ hup hreef hann hany hseq => completes_laneSetAnnounce hup hreef hann hany hseq
  case switch => exact fun _ _ _ _ hann hseq hmin => completes_switchPoint_add hann hseq hmin
  case drop => exact fun _ _ _ _ hup hnone hi => completes_rxSetChange rfl hup hnone hi
  case add => exact fun _ _ _ _ hup hnone hi => completes_rxSetChange rfl hup hnone hi
  case dropReq => exact fun _ _ _ _ hup hi hlive hann hreef => completes_rxDropReq_awake hup hi hlive hann hreef
  case wake => exact fun _ _ _ _ hup hi hlive hann hreef => completes_rxDropReq_reefed hup hi hlive hann hreef
  case reserved => exact fun _ _ _ hst => completes_rxReservedCtrl hst

end Sys2Proof.Machine
end

section
/-!
What the end of a packet leaves (R213, R235, R389, R504): the engine that waits for its answer takes note, a port die may count it, and
neither the links nor the memory change.
-/
namespace Sys2Proof.Machine

/-! ## Reports to the origin -/

/-- `g` reads nothing that the report of a packet to its origin writes: the engines, the collectives and the flows. -/
structure Deaf {β : Type} (g : Dev → β) : Prop where
  eng : ∀ d x, g { d with eng := x } = g d
  coll : ∀ d x, g { d with coll := x } = g d
  flows : ∀ d x, g { d with net := { d.net with flows := x } } = g d

section
variable {β : Type} {g : Dev → β} (h : Deaf g) (d : Dev)
include h

theorem Deaf.tagDone (flow tag : Nat) : g (d.tagDone flow tag) = g d := by
  unfold Dev.tagDone
  split
  · exact h.flows _ _
  · rfl

theorem Deaf.answerPkt (t uid k : Nat) (st : Status) : g (d.answerPkt t uid k st) = g d := by
  unfold Dev.answerPkt
  dsimp only
  split
  · exact (h.tagDone _ _ _).trans (h.eng _ _)
  · exact h.eng _ _

theorem Deaf.originDone (o : Origin) (ack : Bool) (x : Option Status) : g (d.originDone o ack x) = g d := by
  unfold Dev.originDone
  split
  · split
    · exact h.answerPkt _ _ _ _ _
    · split_ifs
      · rfl
      · exact h.answerPkt _ _ _ _ _
  · split
    · split
      · exact h.coll _ _
      · rfl
    · rfl
  · rfl

theorem Deaf.answer (flow tag : Nat) (st : Status) : g (d.answer flow tag st).1 = g d := by
  unfold Dev.answer
  dsimp only
  split_ifs
  · exact (h.tagDone _ _ _).trans (h.eng _ _)
  · rfl

theorem Deaf.answerRefused (flow : Nat) (l : List Byte) (st : Status) : g (d.answerRefused flow l st) = g d := by
  unfold Dev.answerRefused
  dsimp only
  split_ifs
  · exact h.answer _ _ _ _
  · rfl

theorem Deaf.answerDropped (p : PktHdr) (l : List Byte) (st : Status) : g (d.answerDropped p l st) = g d := by
  unfold Dev.answerDropped
  split_ifs
  · rfl
  · exact h.answer _ _ _ _
  · exact h.answerRefused _ _ _ _
  · rfl

end

/-! ## Discards -/

/-- The links, and what memory reads from. -/
def Dev.wires (d : Dev) : (List Host.Cell × List (Nat × Nat × Nat)) × NMap LinkSt := (d.contents, d.net.links)

theorem deaf_wires : Deaf Dev.wires := ⟨fun _ _ => rfl, fun _ _ => rfl, fun _ _ => rfl⟩

theorem traceRec_wires (d : Dev) (n : DieNo) (ring : Nat) (l : List Byte) (run : Option (Nat × Nat)) : (d.traceRec n ring l run).wires = d.wires := by
  unfold Dev.traceRec Dev.traceDrop Dev.rrDiscard
  split_ifs
  · rfl
  · split <;> rfl
  · rfl
  · rfl

theorem dropSample_wires (d : Dev) (p e : Nat) (hdr : List Byte) (st : Status) : (d.dropSample p e hdr st).wires = d.wires := by
  have hid (d : Dev) : (d.portId p e).2.wires = d.wires := by
    unfold Dev.portId
    split_ifs <;> rfl
  unfold Dev.dropSample
  dsimp only
  split_ifs
  · rfl
  · exact (traceRec_wires _ _ _ _ _).trans (hid _)
  · rfl

theorem discard_wires (d : Dev) (p e : Nat) (h : PktHdr) (l : List Byte) (o : Origin) (st : Status) : (d.discard p e h l o st).wires = d.wires :=
  (deaf_wires.answerDropped _ _ _ _).trans ((deaf_wires.originDone _ _ _ _).trans (dropSample_wires _ _ _ _ _))

theorem claimsEnd_wires (d : Dev) (id : Nat) (ps : List (Nat × Nat)) (sent : Bool) (st : Status) : (d.claimsEnd id ps sent st).wires = d.wires := by
  unfold Dev.claimsEnd
  split
  · rfl
  · refine (apply_ite Dev.wires _ _ _).trans (ite_eq_right_iff.mpr fun _ => ?_ : _ = Dev.wires (d.setFlight id _))
    exact deaf_wires.originDone _ _ _ _

end Sys2Proof.Machine
end

section
/-!
Ports go down (R161, R185, R219, R231): the link is cleared, its queues are flushed, and the fairlead entries lose the port.
-/
namespace Sys2Proof.Machine

/-! ## The stages of a port that goes down -/

/-- Positions of the packets that are open at the ingress. -/
def LinkSt.opens (l : LinkSt) : List Nat :=
  (List.range l.inq.length).filter (fun j => match l.inq[j]? with | some p => !p.complete && p.lost.isNone | none => false)

/-- A port leaves service: its status, its fault and its counts of flits not acknowledged and of packets aborted. -/
def Dev.leaveService (d : Dev) (k : Nat × Nat) : Dev :=
  ((((d.clear F.PRT_PORT_STAT_UP [k.1, k.2]).clear F.PRT_PORT_STAT_REEFED [k.1, k.2]).fault (5 + k.1) .portDown).addSat F.PRT_LNK_LOST_COUNT
    [k.1, k.2] (d.link k).replay.length).addSat F.PRT_LNK_ABORT_RX_COUNT [k.1, k.2] (d.link k).opens.length

/-- What a link keeps when its port goes down: its queues and the packets at its ingress, without their credits. -/
def LinkSt.cleared (l : LinkSt) (now : Nat) : LinkSt :=
  { l with
    replay := [], resend := [], lastReplay := none, replays := 0, ackSeq := 0xFFFF, nakOut := none, nakDue := false
    used := [0, 0, 0, 0], freed := [0, 0, 0, 0], crNext := 0, timex := []
    inq := l.inq.map (fun p => { p with flits := 0 }), flushing := some now, flushed := false }

/-- The link of a port is cleared and its flush begins. -/
def Dev.clearLink (d : Dev) (k : Nat × Nat) : Dev :=
  ((List.range 4).foldl (fun d v => d.setF (crField v) [k.1, k.2] 0)
    (((d.setLink k ((d.link k).cleared d.clk.now)).setF F.PRT_LNK_STAT_TX_NEXT [k.1, k.2] 0).setF F.PRT_LNK_STAT_RX_EXPECT [k.1, k.2] 0)).raise
    F.PRT_FLUSH_STAT_FLUSHING [k.1, k.2]

/-- Every port die is to clear the EN bits of a port. -/
def Dev.enDueAt (d : Dev) (id : Nat) : Dev := { d with net := { d.net with enDue := d.net.enDue ++ (List.range 8).map (fun q => (q, id)) } }

theorem portDown_eq {d : Dev} {k : Nat × Nat} (hup : d.portUp k = true) : d.portDown k =
    ((((d.link k).opens.reverse.foldl (fun d j => d.loseIn k j .unitReset) (d.leaveService k)).clearLink k).portLanesDown k).enDueAt (k.1 * 32 + k.2) := by
  refine (if_neg (by simp [hup])).trans (congrArg (fun e : Dev => e.enDueAt (k.1 * 32 + k.2)) (congrArg (fun e : Dev => e.portLanesDown k) ?_))
  exact congrArg (fun e : Dev => e.clearLink k) (rfl : _ = (d.link k).opens.reverse.foldl (fun d j => d.loseIn k j .unitReset) (d.leaveService k))

/-! ## What each stage leaves -/

/-- The fields that show the state of a link. -/
def linkFields : List Field := [F.PRT_LNK_STAT_TX_NEXT, F.PRT_LNK_STAT_RX_EXPECT, F.PRT_LNK_CR0_REQ, F.PRT_LNK_CR0_RSP, F.PRT_LNK_CR1_COL,
  F.PRT_LNK_CR1_ESC, F.PRT_FLUSH_STAT_FLUSHING]

/-- The fields that the lanes of a port going down write. -/
def lanesDownFields : List Field := F.PRT_PORT_STAT_CHANGE_PENDING :: (liveFields ++ releaseFields)

section
variable (d : Dev) (k : Nat × Nat)

theorem leaveService_net : (d.leaveService k).net = d.net := fault_net _ _ _

theorem leaveService_down : (d.leaveService k).portUp k = false := by
  unfold Dev.leaveService Dev.portUp
  simp only [Dev.flag, Dev.addSat]
  rw [getF_setF_ne _ _ _ _ _ _ (by decide), getF_setF_ne _ _ _ _ _ _ (by decide), fault_getF _ _ _ _ _ (by decide), Dev.clear,
    getF_setF_ne _ _ _ _ _ _ (by decide)]
  exact flag_clear _ _ _

theorem leaveService_lost : (d.leaveService k).getF F.PRT_LNK_LOST_COUNT [k.1, k.2] =
    min (d.getF F.PRT_LNK_LOST_COUNT [k.1, k.2] + (d.link k).replay.length) (2 ^ 32 - 1) := by
  unfold Dev.leaveService
  rw [Dev.addSat, getF_setF_ne _ _ _ _ _ _ (by decide), Dev.addSat, getF_setF_same, fault_getF _ _ _ _ _ (by decide), Dev.clear, Dev.clear,
    getF_setF_ne _ _ _ _ _ _ (by decide), getF_setF_ne _ _ _ _ _ _ (by decide)]
  exact Nat.mod_eq_of_lt ((Nat.min_le_right _ _).trans_lt (by decide))

theorem loseIn_keeps (i : Nat) (st : Status) : (d.loseIn k i st).regs = d.regs ∧ (d.loseIn k i st).net.enDue = d.net.enDue := by
  unfold Dev.loseIn
  dsimp only
  split
  · exact ⟨rfl, rfl⟩
  · split <;> exact ⟨rfl, rfl⟩

theorem clearLink_eq : d.clearLink k =
    (((((((d.setLink k ((d.link k).cleared d.clk.now)).setF F.PRT_LNK_STAT_TX_NEXT [k.1, k.2] 0).setF F.PRT_LNK_STAT_RX_EXPECT [k.1, k.2] 0).setF
      F.PRT_LNK_CR0_REQ [k.1, k.2] 0).setF F.PRT_LNK_CR0_RSP [k.1, k.2] 0).setF F.PRT_LNK_CR1_COL [k.1, k.2] 0).setF
      F.PRT_LNK_CR1_ESC [k.1, k.2] 0).raise F.PRT_FLUSH_STAT_FLUSHING [k.1, k.2] := rfl

theorem clearLink_link : (d.clearLink k).link k = (d.link k).cleared d.clk.now := nget_nput_same _ _ _ _

theorem clearLink_touches : Touches linkFields d (d.clearLink k) := by
  have hlink : Touches linkFields d (d.setLink k ((d.link k).cleared d.clk.now)) := { Touches.refl linkFields d with }
  rw [clearLink_eq]
  refine Touches.setF (.setF (.setF (.setF (.setF (.setF (.setF hlink ?_ _ _) ?_ _ _) ?_ _ _) ?_ _ _) ?_ _ _) ?_ _ _) ?_ _ _ <;> decide

/-- The sequence numbers and every credit are 0, and the flush is shown. -/
theorem clearLink_fields : (d.clearLink k).getF F.PRT_LNK_STAT_TX_NEXT [k.1, k.2] = 0 ∧ (d.clearLink k).getF F.PRT_LNK_STAT_RX_EXPECT [k.1, k.2] = 0 ∧
    (∀ vc : Fin 4, (d.clearLink k).credits k vc.val = 0) ∧ (d.clearLink k).flag F.PRT_FLUSH_STAT_FLUSHING [k.1, k.2] = true := by
  rw [clearLink_eq]
  refine ⟨?next, ?expect, fun vc => ?credit, flag_raise _ _ _ rfl⟩
  case credit => fin_cases vc <;> simp (disch := decide) only [Dev.credits, crField, Dev.raise, getF_setF_ne] <;> exact getF_setF_same _ _ _ _
  all_goals
    simp (disch := decide) only [Dev.raise, getF_setF_ne]
    exact getF_setF_same _ _ _ _

/-! ### The lanes -/

/-- The circuit of one lane returns to DETECT where it was running or training. -/
def Dev.laneDown (d : Dev) (p l : Nat) : Dev :=
  if 2 ≤ d.laneState p l ∧ d.laneState p l ≤ 7 then
    (if d.islandStopped (32 + 136 * p + l) then d.startIsland (32 + 136 * p + l) else d).toDetect p l
  else d

theorem laneDown_touches (p l : Nat) : Touches releaseFields d (d.laneDown p l) :=
  .ite (.trans (.ite (startIsland_touches d _) (.refl _ d)) ((toDetect_touches _ _ _).mono (List.subset_cons_self _ _))) (.refl _ d)

theorem laneDown_net (p l : Nat) : (d.laneDown p l).net = d.net := by
  have hstart : (d.startIsland (32 + 136 * p + l)).net = d.net := by
    unfold Dev.startIsland
    split_ifs <;> rfl
  unfold Dev.laneDown
  split_ifs
  · exact hstart
  · rfl
  · rfl

/-- The live sets of a port are empty, and no change of them is on its way. -/
def Dev.setsEmpty (d : Dev) (k : Nat × Nat) : Dev :=
  ((d.setLive k true 0).setLive k false 0).setPortLn k
    { ((d.setLive k true 0).setLive k false 0).portLn k with queue := [], announced := none, dropReqs := [], rxChange := none, reef := .none, wake := false }

theorem portLanesDown_eq : d.portLanesDown k =
    (List.range ((d.setsEmpty k).portSpan k).2).foldl (fun d i => d.laneDown k.1 (d.laneOf k i)) (d.setsEmpty k) := rfl

theorem setsEmpty_touches : Touches lanesDownFields d (d.setsEmpty k) :=
  (((setLive_touches d k true 0).trans (setLive_touches _ k false 0)).mono (by decide)).trans (setPortLn_touches (by decide) _ k _)

theorem portLanesDown_touches : Touches lanesDownFields d (d.portLanesDown k) :=
  (setsEmpty_touches d k).trans (.foldl (fun d i => (laneDown_touches d k.1 (d.laneOf k i)).mono (by decide)) _ _)

theorem portLanesDown_net : (d.portLanesDown k).net = d.net := by
  have hset (e : Dev) (tx : Bool) (m : Nat) : (e.setLive k tx m).net = e.net := by cases tx <;> rfl
  rw [portLanesDown_eq]
  refine (foldl_keeps (g := Dev.net) (fun d i => laneDown_net d k.1 (d.laneOf k i)) _ _).trans ?_
  exact (hset _ _ _).trans (hset _ _ _)

theorem portLanesDown_live (tx : Bool) : (d.portLanesDown k).live16 k tx = 0 := by
  have hlanes : Touches releaseFields (d.setsEmpty k) (d.portLanesDown k) :=
    .foldl (fun d i => laneDown_touches d k.1 (d.laneOf k i)) _ _
  have hboth : ((d.setLive k true 0).setLive k false 0).live16 k tx = 0 := by
    cases tx
    · exact setLive_live16 _ k false 0
    · exact (setLive_live16_other _ k false 0).trans (setLive_live16 d k true 0)
  have hempty : (d.setsEmpty k).live16 k tx = 0 := (setPortLn_getF _ _ _ _ _ (by cases tx <;> decide)).trans hboth
  exact (hlanes.fields _ _ (by cases tx <;> decide)).trans hempty

end

/-! ## A port that goes down -/

section
variable {s : State} {p : Fin 8} {e : Fin 32}

theorem completes_portDown {c : Instr} (hexec : exec c s = .next { s with dev := s.dev.portDown (p.val, e.val) })
    (hup : s.dev.portUp (p.val, e.val) = true) :
    Completes c s (fun d => d.portUp (p.val, e.val) = false ∧ d.flag F.PRT_FLUSH_STAT_FLUSHING [p.val, e.val] = true ∧
      (d.link (p.val, e.val)).replay = [] ∧ (d.link (p.val, e.val)).resend = [] ∧ (d.link (p.val, e.val)).used = [0, 0, 0, 0] ∧
      (d.link (p.val, e.val)).freed = [0, 0, 0, 0] ∧ d.getF F.PRT_LNK_STAT_TX_NEXT [p.val, e.val] = 0 ∧
      d.getF F.PRT_LNK_STAT_RX_EXPECT [p.val, e.val] = 0 ∧
      (∀ vc : Fin 4, d.credits (p.val, e.val) vc.val = 0) ∧ d.live16 (p.val, e.val) true = 0 ∧ d.live16 (p.val, e.val) false = 0 ∧
      d.getF F.PRT_LNK_LOST_COUNT [p.val, e.val] =
        min (s.dev.getF F.PRT_LNK_LOST_COUNT [p.val, e.val] + (s.dev.link (p.val, e.val)).replay.length) (2 ^ 32 - 1) ∧
      d.net.enDue = s.dev.net.enDue ++ (List.range 8).map (fun q => (q, p.val * 32 + e.val)) ∧ SameMem s.dev d) := by
  generalize hk : (p.val, e.val) = k at *
  have hidx : [p.val, e.val] = [k.1, k.2] := by rw [← hk]
  have hid : p.val * 32 + e.val = k.1 * 32 + k.2 := by rw [← hk]
  rw [hidx, hid]
  generalize ha : (s.dev.link k).opens.reverse.foldl (fun d j => d.loseIn k j .unitReset) (s.dev.leaveService k) = a
  generalize hb : a.clearLink k = b
  have hregs : a.regs = (s.dev.leaveService k).regs := ha ▸ foldl_keeps (fun d j => (loseIn_keeps d k j .unitReset).1) _ _
  have hdue : a.net.enDue = s.dev.net.enDue :=
    (ha ▸ foldl_keeps (g := fun d => d.net.enDue) (fun d j => (loseIn_keeps d k j .unitReset).2) _ _).trans (congrArg NetSt.enDue (leaveService_net _ _))
  have hread (f : Field) (i : List Nat) : a.getF f i = (s.dev.leaveService k).getF f i := by rw [Dev.getF, hregs, Dev.getF]
  obtain ⟨hnext, hexpect, hcredit, hflush⟩ := clearLink_fields a k
  have hlink := clearLink_link a k
  have hcleared := clearLink_touches a k
  rw [hb] at hnext hexpect hcredit hflush hlink hcleared
  have hkeep : b.net.enDue = s.dev.net.enDue := hb ▸ hdue
  have hlanes := portLanesDown_touches b k
  have hnet := portLanesDown_net b k
  have htx := portLanesDown_live b k true
  have hrx := portLanesDown_live b k false
  have hdo : s.dev.portDown k = (b.portLanesDown k).enDueAt (k.1 * 32 + k.2) := by rw [portDown_eq hup, ha, hb]
  generalize b.portLanesDown k = c at hlanes hnet htx hrx hdo
  have hport : c.link k = (a.link k).cleared a.clk.now := (congrArg (fun n : NetSt => nget LinkSt.init n.links [k.1, k.2]) hnet).trans hlink
  refine completes_of_eq hexec hdo ⟨?up, ?flush, congrArg LinkSt.replay hport, congrArg LinkSt.resend hport,
    congrArg LinkSt.used hport, congrArg LinkSt.freed hport, ?next, ?expect, fun vc => ?credit, htx, hrx, ?lost, ?due, ?mem⟩
  case up =>
    have hsame := ((hlanes.fields F.PRT_PORT_STAT_UP [k.1, k.2] (by decide)).trans (hcleared.fields _ _ (by decide))).trans (hread _ _)
    exact (congrArg (· == 1) hsame).trans (leaveService_down _ _)
  case flush => exact (congrArg (· == 1) (hlanes.fields _ _ (by decide))).trans hflush
  case next => exact (hlanes.fields _ _ (by decide)).trans hnext
  case expect => exact (hlanes.fields _ _ (by decide)).trans hexpect
  case credit => exact (hlanes.fields _ _ (by fin_cases vc <;> decide)).trans (hcredit vc)
  case lost =>
    exact (((hlanes.fields _ _ (by decide)).trans (hcleared.fields _ _ (by decide))).trans (hread _ _)).trans (leaveService_lost _ _)
  case due => exact congrArg (· ++ _) ((congrArg NetSt.enDue hnet).trans hkeep)
  case mem => exact sameMem_of_contents ((congrArg Dev.contents hdo).symm.trans (portDown_contents s.dev k))

/-! ## The flush -/

/-- What a flush leaves of a link: no packet waits or is in transmission. -/
def LinkSt.flushedOut (l : LinkSt) : LinkSt := { l with queues := [], stag := [], tx0 := none, txN := none, flushing := none, flushed := true }

theorem flushDone_spec {d : Dev} {k : Nat × Nat} {t : Nat} (h : (d.link k).flushing = some t) :
    ∃ x : Dev, x.wires = (d.setLink k (d.link k).flushedOut).wires ∧
      d.flushDone k = ((x.clear F.PRT_FLUSH_STAT_FLUSHING [k.1, k.2]).raise F.PRT_FLUSH_STAT_FLUSHED [k.1, k.2]).descSync k.1 := by
  unfold Dev.flushDone
  simp only [h]
  refine ⟨_, ?_, rfl⟩
  refine (foldl_keeps (g := Dev.wires) (fun d x => ?_) _ _)
  refine (discard_wires _ _ _ _ _ _ _).trans ?_
  split
  · split_ifs
    · exact claimsEnd_wires _ _ _ _ _
    · rfl
  · rfl

theorem completes_portFlushDone {t : Nat} (h : (s.dev.link (p.val, e.val)).flushing = some t) :
    Completes (.portFlushDone p e) s (fun d => (d.link (p.val, e.val)).queues = [] ∧ (d.link (p.val, e.val)).tx0 = none ∧
      (d.link (p.val, e.val)).txN = none ∧ (d.link (p.val, e.val)).flushing = none ∧ (d.link (p.val, e.val)).flushed = true ∧
      d.flag F.PRT_FLUSH_STAT_FLUSHING [p.val, e.val] = false ∧ d.flag F.PRT_FLUSH_STAT_FLUSHED [p.val, e.val] = true ∧ SameMem s.dev d) := by
  obtain ⟨x, hwires, hdo⟩ := flushDone_spec h
  obtain ⟨hmem, hlinks⟩ := Prod.mk.inj hwires
  have hlink : x.link (p.val, e.val) = (s.dev.link (p.val, e.val)).flushedOut :=
    (congrArg (nget LinkSt.init · [p.val, e.val]) hlinks).trans (nget_nput_same _ _ _ _)
  refine completes_of_eq rfl hdo ⟨congrArg LinkSt.queues hlink, congrArg LinkSt.tx0 hlink, congrArg LinkSt.txN hlink, congrArg LinkSt.flushing hlink,
    congrArg LinkSt.flushed hlink, ?begun, ?done, sameMem_of_contents hmem⟩
  case begun =>
    refine (congrArg (· == 1) ((getF_setF_ne _ F.PRT_DESC_FREE_FREE _ _ _ _ (by decide)).trans (getF_setF_ne _ _ _ _ _ _ (by decide)))).trans ?_
    exact flag_clear x _ _
  case done => exact (congrArg (· == 1) (getF_setF_ne _ F.PRT_DESC_FREE_FREE _ _ _ _ (by decide))).trans (flag_raise _ _ _ rfl)

/-! ## The fairlead entries -/

/-- The places of the entries of a port die: dimension, coordinate and slot. -/
def enPlaces : List (Nat × Nat × Nat) := [1, 2, 3].flatMap (fun dim => (List.range 16).flatMap (fun c => (List.range 8).map (fun i => (dim, c, i))))

/-- The EN bit of one place is cleared where its port is `id`. -/
def Dev.enClearAt (d : Dev) (q id : Nat) (x : Nat × Nat × Nat) : Dev :=
  if d.flPortId q x.1 x.2.1 x.2.2 = id then d.clrBitF F.PRT_FL_CTL_EN [q, x.1, x.2.1] x.2.2 else d

/-- Port die `q` is no longer to clear the EN bits of a port. -/
def Dev.enDone (d : Dev) (q id : Nat) : Dev := { d with net := { d.net with enDue := d.net.enDue.filter (· ≠ (q, id)) } }

theorem mem_enPlaces {x : Nat × Nat × Nat} : x ∈ enPlaces ↔ (x.1 ∈ [1, 2, 3]) ∧ x.2.1 < 16 ∧ x.2.2 < 8 := by
  obtain ⟨dim, c, i⟩ := x
  simp only [enPlaces, List.mem_flatMap, List.mem_map, List.mem_range, Prod.mk.injEq, List.mem_cons, List.not_mem_nil, or_false]
  constructor
  · rintro ⟨_, hdim, _, hc, _, hi, rfl, rfl, rfl⟩
    exact ⟨hdim, hc, hi⟩
  · exact fun ⟨hdim, hc, hi⟩ => ⟨dim, hdim, c, hc, i, hi, rfl, rfl, rfl⟩

theorem enClear_eq {d : Dev} {q id : Nat} (h : (q, id) ∈ d.net.enDue) :
    d.enClear q id = enPlaces.foldl (fun d x => d.enClearAt q id x) (d.enDone q id) := by
  refine (if_pos (List.contains_iff_mem.mpr h)).trans ?_
  simp only [enPlaces, List.foldl_flatMap, List.foldl_map]
  rfl

theorem enClearAt_keeps (d : Dev) (q id : Nat) (x : Nat × Nat × Nat) : (d.enClearAt q id x).net = d.net ∧ (d.enClearAt q id x).contents = d.contents := by
  unfold Dev.enClearAt
  split_ifs <;> exact ⟨rfl, rfl⟩

/-- An EN bit that is clear stays clear. -/
theorem enClearAt_stays {d : Dev} {q dim c i : Nat} (id : Nat) (x : Nat × Nat × Nat) (hi : i < 8) (h : d.bitF F.PRT_FL_CTL_EN [q, dim, c] i = false) :
    (d.enClearAt q id x).bitF F.PRT_FL_CTL_EN [q, dim, c] i = false := by
  unfold Dev.enClearAt
  split_ifs
  · by_cases hx : [q, x.1, x.2.1] = [q, dim, c]
    · rw [hx, bitF_clrBitF _ _ _ _ _ hi, h, Bool.false_and]
    · exact (congrArg (bit · i) (getF_setF_idx d F.PRT_FL_CTL_EN _ _ _ hx)).trans h
  · exact h

theorem enClearAt_clears {d : Dev} {q id : Nat} {x : Nat × Nat × Nat} (hi : x.2.2 < 8) (h : d.flPortId q x.1 x.2.1 x.2.2 = id) :
    (d.enClearAt q id x).bitF F.PRT_FL_CTL_EN [q, x.1, x.2.1] x.2.2 = false := by
  rw [Dev.enClearAt, if_pos h, bitF_clrBitF _ _ _ _ _ hi, decide_eq_true rfl, Bool.not_true, Bool.and_false]

/-- The EN words of a port die. -/
def enWords (q : Nat) : List (Field × List Nat) :=
  (List.range 3).flatMap (fun dim => (List.range 16).map (fun c => (F.PRT_FL_CTL_EN, [q, dim + 1, c])))

theorem sameRegs_enClearAt {c d : Dev} {q id : Nat} {x : Nat × Nat × Nat} (hx : x ∈ enPlaces) (h : SameRegs c d (enWords q)) :
    SameRegs c (d.enClearAt q id x) (enWords q) := by
  obtain ⟨hdim, hc, -⟩ := mem_enPlaces.mp hx
  have hword : (F.PRT_FL_CTL_EN, [q, x.1, x.2.1]) ∈ enWords q := by
    refine List.mem_flatMap.mpr ⟨x.1 - 1, ?_, List.mem_map.mpr ⟨x.2.1, List.mem_range.mpr hc, ?_⟩⟩
    all_goals
      simp only [List.mem_cons, List.not_mem_nil, or_false] at hdim
      rcases hdim with hdim | hdim | hdim <;> simp [hdim]
  unfold Dev.enClearAt
  split_ifs
  · exact sameRegs_setF hword h
  · exact h

theorem enClears_sameRegs {c : Dev} {q id : Nat} (xs : List (Nat × Nat × Nat)) (hxs : ∀ x ∈ xs, x ∈ enPlaces) (d : Dev) (h : SameRegs c d (enWords q)) :
    SameRegs c (xs.foldl (fun d x => d.enClearAt q id x) d) (enWords q) := by
  induction xs generalizing d with
  | nil => exact h
  | cons x t ih => exact ih (fun y hy => hxs y (.tail _ hy)) _ (sameRegs_enClearAt (hxs x (.head _)) h)

theorem enClears_clears (d : Dev) (q id : Nat) {x : Nat × Nat × Nat} (hx : x ∈ enPlaces) (h : d.flPortId q x.1 x.2.1 x.2.2 = id) :
    (enPlaces.foldl (fun d x => d.enClearAt q id x) d).bitF F.PRT_FL_CTL_EN [q, x.1, x.2.1] x.2.2 = false := by
  have hnet (e : Dev) (he : e.net = d.net) (dim c i : Nat) : e.flPortId q dim c i = d.flPortId q dim c i := by rw [Dev.flPortId, Dev.flWord, he]; rfl
  refine foldl_brings (f := fun d x => d.enClearAt q id x) (P := fun e => e.net = d.net)
    (Q := fun x e => x.2.2 < 8 → d.flPortId q x.1 x.2.1 x.2.2 = id → e.bitF F.PRT_FL_CTL_EN [q, x.1, x.2.1] x.2.2 = false)
    (fun e y he => (enClearAt_keeps e q id y).1.trans he) (fun e y he hy hp => enClearAt_clears hy ((hnet e he _ _ _).trans hp))
    (fun e y z hz hi hp => enClearAt_stays id y hi (hz hi hp)) rfl x hx (mem_enPlaces.mp hx).2.2 h

theorem completes_fairleadEnClear {q : Fin 8} {id : Fin 256} (h : (q.val, id.val) ∈ s.dev.net.enDue) :
    Completes (.fairleadEnClear q id) s (fun d => (q.val, id.val) ∉ d.net.enDue ∧
      (∀ (dim : Fin 3) (c : Fin 16) (i : Fin 8), s.dev.flPortId q.val (dim.val + 1) c.val i.val = id.val →
        d.bitF F.PRT_FL_CTL_EN [q.val, dim.val + 1, c.val] i.val = false) ∧ SameRegs s.dev d (enWords q.val) ∧ SameMem s.dev d) := by
  have hnet := foldl_keeps (g := Dev.net) (fun d x => (enClearAt_keeps d q.val id.val x).1) enPlaces (s.dev.enDone q.val id.val)
  have hmem := foldl_keeps (g := Dev.contents) (fun d x => (enClearAt_keeps d q.val id.val x).2) enPlaces (s.dev.enDone q.val id.val)
  refine completes_of_eq rfl (enClear_eq h) ⟨?gone, fun dim c i hp => ?bits, ?regs, sameMem_of_contents hmem⟩
  case gone =>
    rw [hnet]
    exact fun hin => absurd (List.of_mem_filter hin) (by simp)
  case bits => exact enClears_clears _ q.val id.val (x := (dim.val + 1, c.val, i.val)) (mem_enPlaces.mpr ⟨by fin_cases dim <;> simp, c.isLt, i.isLt⟩) hp
  case regs => exact enClears_sameRegs _ (fun _ hx => hx) _ (sameRegs_of_regs (sameRegs_refl s.dev _) rfl)

end

/-- Settles O23: loss of signal and PORT_DOWN take the port down in stages, the flush empties its queues, and the EN bits are cleared place
by place. -/
theorem portsGoDown : Obligations.PortsGoDown := by
  refine ⟨?loss, ?down, ?flush, ?entries⟩
  case loss => exact fun _ _ _ hup => completes_portDown rfl hup
  case down => exact fun _ _ _ hup => completes_portDown rfl hup
  case flush => exact fun _ _ _ _ h => completes_portFlushDone h
  case entries => exact fun _ _ _ h => completes_fairleadEnClear h

end Sys2Proof.Machine
end

section
/-!
What a flit slot of a port carries (R165, R172, R178, R183, R184, R186, R187, R253, R254).
-/
namespace Sys2Proof.Machine

/-! ## Flits -/

/-- A flit goes out, and the port turns to the next channel's credits; nothing else happens. -/
theorem sendFlit_eq (d : Dev) (k : Nat × Nat) (ty vc sop eop tc valid seq : Nat) (pay : List Byte) : ∃ b c,
    d.sendFlit k ty vc sop eop tc valid seq pay =
      { d.setLink k { d.link k with crNext := c } with out := d.out ++ [.flit k.1 k.2 ty seq b] } := ⟨_, _, rfl⟩

theorem sendFlit_keeps (d : Dev) (k : Nat × Nat) (ty vc sop eop tc valid seq : Nat) (pay : List Byte) :
    (∃ b, (d.sendFlit k ty vc sop eop tc valid seq pay).out = d.out ++ [.flit k.1 k.2 ty seq b]) ∧
    (∃ c, (d.sendFlit k ty vc sop eop tc valid seq pay).link k = { d.link k with crNext := c }) ∧
    (d.sendFlit k ty vc sop eop tc valid seq pay).regs = d.regs ∧ (d.sendFlit k ty vc sop eop tc valid seq pay).contents = d.contents := by
  obtain ⟨b, c, h⟩ := sendFlit_eq d k ty vc sop eop tc valid seq pay
  rw [h]
  exact ⟨⟨b, rfl⟩, ⟨c, nget_nput_same _ _ _ _⟩, rfl, rfl⟩

theorem setLink_link (d : Dev) (k : Nat × Nat) (l : LinkSt) : (d.setLink k l).link k = l := nget_nput_same _ _ _ _

/-! ## What a slot carries -/

section
variable {d : Dev} {k : Nat × Nat} (since sym : Nat)

theorem eligible_empty {q : Nat} (hq : (d.link k).queues = []) : d.eligible k q since sym = none := by
  have hsub (r : Nat) : (d.link k).sub q r = [] := by rw [LinkSt.sub, hq]; rfl
  have hhead : d.queueHead k q = none := List.findSome?_eq_none_iff.mpr fun r _ => by rw [hsub]; rfl
  rw [Dev.eligible, hhead]
  rfl

theorem queueHead_some {q : Nat} {x : EDesc} {f : Flight} (h : d.queueHead k q = some (x, f)) :
    d.flight x.flight = some f ∧ d.creditOk k f x.vc = true ∧ f.sendable x (5 + k.1) = true := by
  obtain ⟨r, -, hr⟩ := List.exists_of_findSome?_eq_some h
  split at hr
  · obtain ⟨g, hg, hpick⟩ := Option.bind_eq_some_iff.mp hr
    split_ifs at hpick with hcond
    obtain ⟨rfl, rfl⟩ := Prod.mk.inj (Option.some.inj hpick)
    exact ⟨hg, (Bool.and_eq_true_iff.mp hcond).1, (Bool.and_eq_true_iff.mp hcond).2⟩
  · cases hr

/-- What an eligible packet has: its flight and its credits, its bytes in the die, an open gate, its tokens, and, for TC7, its age (R253). -/
theorem eligible_some {q : Nat} {x : EDesc} {f : Flight} (h : d.eligible k q since sym = some (x, f)) :
    d.queueHead k q = some (x, f) ∧ d.gateAdmits k f since sym = true ∧ d.aged k f = false ∧ d.shaperOk k q (d.charge k f.hdr.size) = true ∧
      d.shaperOk k (16 + f.hdr.tc) (d.charge k f.hdr.size) = true := by
  obtain ⟨y, hhead, hpick⟩ := Option.bind_eq_some_iff.mp h
  dsimp only at hpick
  split_ifs at hpick with hcond
  obtain rfl := Option.some.inj hpick
  simp only [Bool.and_eq_true, Bool.not_eq_true'] at hcond
  obtain ⟨⟨⟨hgate, hage⟩, hqueue⟩, hclass⟩ := hcond
  exact ⟨hhead, hgate, hage, hqueue, hclass⟩

theorem wfqPick_empty (hq : (d.link k).queues = []) : d.wfqPick k since sym = none := by
  simp [Dev.wfqPick, eligible_empty since sym hq]

/-- In the slot of the agreement point, and in those of the port that has entered, an IDLE flit goes. -/
theorem flitSlot_entering (hup : d.portUp k = true) (hage : d.dropAged k = d) (hreef : (d.portLn k).reef = .entering)
    (hat : (d.portLn k).reefAt = d.clk.now) : d.flitSlot k since sym = d.sendIdle k := by
  simp [Dev.flitSlot, hup, hreef, hat, hage]

theorem flitSlot_silent (hreef : (d.portLn k).reef = .reefed ∨ (d.portLn k).reef = .waking) : d.flitSlot k since sym = d := by
  rcases hreef with h | h <;> exact if_pos (by simp [h])

theorem flitSlot_asked (hup : d.portUp k = true) (hage : d.dropAged k = d) (hreef : (d.portLn k).reef = .asked)
    (hnak : (d.link k).nakDue = false) (hres : (d.link k).resend = []) : d.flitSlot k since sym = d.sendIdle k := by
  cases htim : (d.link k).timex <;> simp [Dev.flitSlot, hup, hreef, hage, hnak, hres, htim]

variable (hup : d.portUp k = true) (hage : d.dropAged k = d) (hreef : (d.portLn k).reef = .none)
include hup hage hreef

theorem flitSlot_nak (hnak : (d.link k).nakDue = true) : d.flitSlot k since sym =
    ((d.setLink k { d.link k with nakDue := false, nakOut := some d.clk.now }).incSat F.PRT_LNK_NAK_TX_COUNT [k.1, k.2]).sendFlit k 3 0 0 0 0 0 0
      (leBytes 2 (d.getF F.PRT_LNK_STAT_RX_EXPECT [k.1, k.2])) := by
  simp [Dev.flitSlot, hup, hreef, hage, hnak]

variable (hnak : (d.link k).nakDue = false)
include hnak

theorem flitSlot_resend {x : SentFlit} {rest : List SentFlit} (hres : (d.link k).resend = x :: rest) : d.flitSlot k since sym =
    (d.setLink k { d.link k with resend := rest }).sendFlit k x.type x.vc x.sop x.eop x.tc x.valid x.seq x.payload := by
  simp [Dev.flitSlot, hup, hreef, hage, hnak, hres]

variable (hres : (d.link k).resend = [])
include hres

theorem flitSlot_timex {x : List Byte} {rest : List (List Byte)} (htim : (d.link k).timex = x :: rest) : d.flitSlot k since sym =
    (d.setLink k { d.link k with timex := rest }).sendTimex k x sym := by
  simp [Dev.flitSlot, hup, hreef, hage, hnak, hres, htim]

variable (htim : (d.link k).timex = []) (htx0 : (d.link k).tx0 = none)
include htim htx0

theorem flitSlot_start (hroom : (d.link k).replay.length < 2048) {x : EDesc} {f : Flight} (helig : d.eligible k 0 since sym = some (x, f)) :
    d.flitSlot k since sym = d.startPkt k 0 x f := by
  simp [Dev.flitSlot, hup, hreef, hage, hnak, hres, htim, htx0, helig, Nat.not_le.mpr hroom]

theorem flitSlot_idle (hq : (d.link k).queues = []) (htxN : (d.link k).txN = none) : d.flitSlot k since sym = d.sendIdle k := by
  simp [Dev.flitSlot, hup, hreef, hage, hnak, hres, htim, htx0, htxN, eligible_empty _ _ hq, wfqPick_empty _ _ hq]

end

/-! ## Time exchanges -/

/-- The device in which a time exchange is stamped: a REQUEST's stamp is kept as its t1. -/
def Dev.stamped (d : Dev) (k : Nat × Nat) (b : List Byte) (sym : Nat) : Dev :=
  if leAt b 0 1 = 1 then
    { d with clk := { d.clk with timex := match nget? d.clk.timex [k.1, k.2] with
        | some x => nset d.clk.timex [k.1, k.2] { x with t1 := d.stampAt 0 sym, sentAt := d.clk.now }
        | none => d.clk.timex } }
  else d

theorem sendTimex_eq (d : Dev) (k : Nat × Nat) (b : List Byte) (sym : Nat) : ∃ pay,
    d.sendTimex k b sym = (d.stamped k b sym).sendFlit k 4 0 0 0 0 0 0 pay := ⟨_, rfl⟩

theorem stamped_keeps (d : Dev) (k : Nat × Nat) (b : List Byte) (sym : Nat) : (d.stamped k b sym).out = d.out ∧
    (d.stamped k b sym).net = d.net ∧ (d.stamped k b sym).regs = d.regs ∧ (d.stamped k b sym).contents = d.contents := by
  unfold Dev.stamped
  split_ifs <;> exact ⟨rfl, rfl, rfl, rfl⟩

theorem stamped_t1 {d : Dev} {k : Nat × Nat} {b : List Byte} {y : Timex} (sym : Nat) (hopen : nget? d.clk.timex [k.1, k.2] = some y)
    (hreq : leAt b 0 1 = 1) : ((d.stamped k b sym).timexOf k).t1 = d.stampAt 0 sym := by
  rw [Dev.stamped, if_pos hreq, hopen]
  exact congrArg Timex.t1 (setTimex_timexOf d k { y with t1 := d.stampAt 0 sym, sentAt := d.clk.now })

/-! ## The start of a packet of one flit -/

/-- The fields that the start of a packet writes: tokens of its shapers, and the free descriptors. -/
def startFields : List Field := [F.PRT_SHP_QTOK_TOKENS, F.PRT_SHP_CTOK_TOKENS, F.PRT_DESC_FREE_FREE]

section
variable (d : Dev) (k : Nat × Nat)

theorem shaperTake_keeps (i len : Nat) : Touches startFields d (d.shaperTake k i len) ∧ (d.shaperTake k i len).net = d.net := by
  unfold Dev.shaperTake
  split_ifs
  · exact ⟨.refl _ d, rfl⟩
  · exact ⟨(Touches.refl _ d).setF (by decide) _ _, rfl⟩
  · exact ⟨(Touches.refl _ d).setF (by decide) _ _, rfl⟩

theorem setLink_touches (m : List Field) (l : LinkSt) : Touches m d (d.setLink k l) := { Touches.refl m d with }

theorem setTx_keeps (t : Option TxPkt) : Touches startFields d (d.setTx k true t) ∧ (d.setTx k true t).link k = { d.link k with tx0 := t } :=
  ⟨(setLink_touches d k _ _).setF (by decide) _ _, setLink_link _ _ _⟩

theorem setTx_flight (t : Option TxPkt) (id : Nat) : (d.setTx k true t).flight id = d.flight id := rfl

/-- The first packet of TC0's sub-queue leaves it, and its length its shapers. -/
def Dev.takeHead (d : Dev) (k : Nat × Nat) (x : EDesc) (len : Nat) : Dev :=
  ((d.setLink k ((d.link k).setSub 0 (vcRank x.vc) ((d.link k).sub 0 (vcRank x.vc)).tail)).shaperTake k 0 len).shaperTake k 16 len

theorem takeHead_keeps (x : EDesc) (len : Nat) : Touches startFields d (d.takeHead k x len) ∧
    (d.takeHead k x len).link k = (d.link k).setSub 0 (vcRank x.vc) ((d.link k).sub 0 (vcRank x.vc)).tail ∧
    ∀ id, (d.takeHead k x len).flight id = d.flight id := by
  obtain ⟨hqueue, hqnet⟩ := shaperTake_keeps (d.setLink k ((d.link k).setSub 0 (vcRank x.vc) ((d.link k).sub 0 (vcRank x.vc)).tail)) k 0 len
  obtain ⟨hclass, hcnet⟩ := shaperTake_keeps
    ((d.setLink k ((d.link k).setSub 0 (vcRank x.vc) ((d.link k).sub 0 (vcRank x.vc)).tail)).shaperTake k 0 len) k 16 len
  have hnet := hcnet.trans hqnet
  refine ⟨((setLink_touches d k _ _).trans hqueue).trans hclass, ?link, fun id => (congrArg (fun n : NetSt => nget? n.flights [id]) hnet :)⟩
  exact (congrArg (fun n : NetSt => nget LinkSt.init n.links [k.1, k.2]) hnet).trans (setLink_link _ _ _)

/-- The packet as it starts: nothing of it is sent. -/
def startedTc0 (x : EDesc) : TxPkt := ⟨x, 0, 0, false, 0⟩

theorem startPkt_tc0 {f : Flight} (x : EDesc) (htc : f.hdr.tc = 0) : d.startPkt k 0 x f =
    ((d.takeHead k x (d.charge k f.hdr.size)).setTx k true (some (startedTc0 x))).contFlit k true (startedTc0 x) := by
  simp [Dev.startPkt, htc, Dev.takeHead, startedTc0]

/-- A packet that fits one flit goes out whole with it, and reports that it has left. -/
theorem contFlit_whole {f : Flight} {t : TxPkt} (hf : d.flight t.desc.flight = some f) (hdrop : 5 + k.1 ∉ f.dropped) (hcut : t.desc.cut = false)
    (hsent : t.sent = 0) (hsize : f.hdr.size ≤ 240) (hmc : f.hdr.mc = 0) : ∃ pay, d.contFlit k true t =
      (((d.setFlight t.desc.flight (f.readTo f.hdr.size)).setTx k true none).sendSeq k 1 t.desc.vc 1 1 t.tc f.hdr.size pay).originDone
        f.origin f.hdr.expects none := by
  refine ⟨((f.wire t.cm).drop 0).take f.hdr.size, ?_⟩
  simp [Dev.contFlit, hf, hdrop, Flight.readable, hcut, hsent, hsize, hmc, b2n]

/-- The device in which the flit of the packet `x` is sent. -/
def Dev.readied (d : Dev) (k : Nat × Nat) (x : EDesc) (len : Nat) (f : Flight) : Dev :=
  (((d.takeHead k x len).setTx k true (some (startedTc0 x))).setFlight x.flight f).setTx k true none

theorem setFlight_touches (m : List Field) (id : Nat) (f : Flight) : Touches m d (d.setFlight id f) := { Touches.refl m d with }

theorem setFlight_link (id : Nat) (f : Flight) : (d.setFlight id f).link k = d.link k := rfl

theorem readied_keeps (x : EDesc) (len : Nat) (f : Flight) : Touches startFields d (d.readied k x len f) ∧
    (d.readied k x len f).link k = { (d.link k).setSub 0 (vcRank x.vc) ((d.link k).sub 0 (vcRank x.vc)).tail with tx0 := none } := by
  obtain ⟨htake, hlink, -⟩ := takeHead_keeps d k x len
  unfold Dev.readied
  generalize d.takeHead k x len = a at htake hlink
  obtain ⟨hopen, hopened⟩ := setTx_keeps a k (some (startedTc0 x))
  generalize a.setTx k true (some (startedTc0 x)) = b at hopen hopened
  obtain ⟨hclose, hclosed⟩ := setTx_keeps (b.setFlight x.flight f) k none
  refine ⟨((htake.trans hopen).trans (setFlight_touches b _ _ _)).trans hclose, hclosed.trans ?_⟩
  rw [setFlight_link, hopened, hlink]

theorem startPkt_whole {x : EDesc} {f : Flight} (hf : d.flight x.flight = some f) (htc : f.hdr.tc = 0) (hdrop : 5 + k.1 ∉ f.dropped)
    (hcut : x.cut = false) (hsize : f.hdr.size ≤ 240) (hmc : f.hdr.mc = 0) : ∃ pay, d.startPkt k 0 x f =
      ((d.readied k x (d.charge k f.hdr.size) (f.readTo f.hdr.size)).sendSeq k 1 x.vc 1 1 0 f.hdr.size pay).originDone f.origin f.hdr.expects none := by
  obtain ⟨-, -, hkeep⟩ := takeHead_keeps d k x (d.charge k f.hdr.size)
  have hflight : ((d.takeHead k x (d.charge k f.hdr.size)).setTx k true (some (startedTc0 x))).flight x.flight = some f :=
    (setTx_flight _ _ _ _).trans ((hkeep _).trans hf)
  obtain ⟨pay, h⟩ := contFlit_whole _ k (t := startedTc0 x) hflight hdrop hcut rfl hsize hmc
  refine ⟨pay, ?_⟩
  rw [startPkt_tc0 d k x htc, h, Dev.readied]
  rfl

theorem crField_width (vc : Nat) : (crField vc).w = 16 := by
  unfold crField
  split_ifs <;> rfl

theorem crField_apart (vc : Nat) : fieldNe F.PRT_LNK_STAT_TX_NEXT (crField vc) = true ∧ fieldNe (crField vc) F.PRT_LNK_STAT_TX_NEXT = true := by
  unfold crField
  split_ifs <;> decide

/-- A link that has sent a flit for the first time: it is kept for replay, and one credit is used. -/
def LinkSt.sentSeq (l : LinkSt) (x : SentFlit) (now : Nat) : LinkSt :=
  { l with
    replay := l.replay ++ [x], ackAt := if l.replay.isEmpty then now else l.ackAt, used := l.used.set x.vc (l.used.getD x.vc 0 + 1) }

/-- What the first transmission of a flit with a SEQ leaves. -/
theorem sendSeq_spec (ty vc sop eop tc valid : Nat) (pay : List Byte) :
    (∃ b, (d.sendSeq k ty vc sop eop tc valid pay).out = d.out ++ [.flit k.1 k.2 ty (d.getF F.PRT_LNK_STAT_TX_NEXT [k.1, k.2]) b]) ∧
    (∃ c x now, (d.sendSeq k ty vc sop eop tc valid pay).link k = ({ d.link k with crNext := c } : LinkSt).sentSeq x now) ∧
    (d.sendSeq k ty vc sop eop tc valid pay).getF F.PRT_LNK_STAT_TX_NEXT [k.1, k.2] = (d.getF F.PRT_LNK_STAT_TX_NEXT [k.1, k.2] + 1) % 2 ^ 16 ∧
    (d.sendSeq k ty vc sop eop tc valid pay).credits k vc = (d.credits k vc - 1) % 2 ^ 16 ∧
    (d.sendSeq k ty vc sop eop tc valid pay).contents = d.contents := by
  obtain ⟨⟨b, hout⟩, ⟨c, hlink⟩, hregs, hmem⟩ := sendFlit_keeps d k ty vc sop eop tc valid (d.getF F.PRT_LNK_STAT_TX_NEXT [k.1, k.2]) pay
  obtain ⟨hseq, hcredit⟩ := crField_apart vc
  have hread (f : Field) (i : List Nat) : (d.sendFlit k ty vc sop eop tc valid (d.getF F.PRT_LNK_STAT_TX_NEXT [k.1, k.2]) pay).getF f i = d.getF f i := by
    rw [Dev.getF, hregs, Dev.getF]
  unfold Dev.sendSeq
  dsimp only
  generalize d.sendFlit k ty vc sop eop tc valid (d.getF F.PRT_LNK_STAT_TX_NEXT [k.1, k.2]) pay = x at hout hlink hmem hread
  refine ⟨⟨b, hout⟩, ⟨c, ⟨d.getF F.PRT_LNK_STAT_TX_NEXT [k.1, k.2], ty, vc, sop, eop, tc, valid, pay⟩, x.clk.now, ?link⟩, ?next, ?credit, hmem⟩
  case link => exact (setLink_link x k _).trans (by rw [hlink]; rfl)
  case next =>
    rw [Dev.subF, getF_setF_ne _ _ _ _ _ _ hcredit, ← hread]
    exact getF_setF_same _ _ _ _
  case credit =>
    rw [Dev.credits, Dev.subF, getF_setF_same, crField_width, Dev.addWrap, getF_setF_ne _ _ _ _ _ _ hseq]
    exact congrArg (fun n => (n - 1) % 2 ^ 16) (hread (crField vc) [k.1, k.2])

end

theorem startFields_credits {d e : Dev} (h : Touches startFields d e) (k : Nat × Nat) (vc : Nat) : e.credits k vc = d.credits k vc := by
  refine h.fields _ _ ?_
  unfold crField
  split_ifs <;> decide

/-! ## One slot -/

/-- What the report of a sent packet leaves: the registers, the links and memory, and what went out. -/
def Dev.slotView (d : Dev) := (d.regs, d.wires, d.out)

theorem deaf_slot : Deaf Dev.slotView := ⟨fun _ _ => rfl, fun _ _ => rfl, fun _ _ => rfl⟩

section
variable {s : State} {p : Fin 8} {e : Fin 32} {since : Nat} {sym : Fin 17000}

theorem exec_flitSlot : exec (.egressFlitSlot p e ⟨since, sym⟩) s = .next { s with dev := s.dev.flitSlot (p.val, e.val) since sym.val } := rfl

/-- A slot that sends one flit, from a device whose link of the port is `l`. -/
theorem completes_flitSlot {d : Dev} {l : LinkSt} {ty vc sop eop tc valid seq : Nat} {pay : List Byte} {P : Dev → Prop}
    (hdo : s.dev.flitSlot (p.val, e.val) since sym.val = d.sendFlit (p.val, e.val) ty vc sop eop tc valid seq pay) (hl : d.link (p.val, e.val) = l)
    (hP : ∀ x b c, x.out = d.out ++ [.flit p.val e.val ty seq b] → x.link (p.val, e.val) = { l with crNext := c } → x.regs = d.regs →
      x.contents = d.contents → x.clk = d.clk → P x) : Completes (.egressFlitSlot p e ⟨since, sym⟩) s P := by
  obtain ⟨b, c, h⟩ := sendFlit_eq d (p.val, e.val) ty vc sop eop tc valid seq pay
  exact completes_of_eq exec_flitSlot (hdo.trans h) (hP _ b c rfl (hl ▸ nget_nput_same _ _ _ _) rfl rfl rfl)

theorem completes_flitSlot_idle (hdo : s.dev.flitSlot (p.val, e.val) since sym.val = s.dev.sendIdle (p.val, e.val)) :
    Completes (.egressFlitSlot p e ⟨since, sym⟩) s (fun d => (∃ b, d.out = s.dev.out ++ [.flit p.val e.val 0 0 b]) ∧
      (d.link (p.val, e.val)).timex = (s.dev.link (p.val, e.val)).timex ∧ (d.link (p.val, e.val)).queues = (s.dev.link (p.val, e.val)).queues ∧
      SameRegs s.dev d [] ∧ SameMem s.dev d) := by
  refine completes_flitSlot hdo rfl fun x b c hout hlink hregs hmem _ => ?_
  exact ⟨⟨b, hout⟩, (congrArg LinkSt.timex hlink :), (congrArg LinkSt.queues hlink :),
    sameRegs_of_regs (sameRegs_refl s.dev []) hregs, sameMem_of_contents hmem⟩

theorem exec_flitSlot_silent (hreef : (s.dev.portLn (p.val, e.val)).reef = .reefed ∨ (s.dev.portLn (p.val, e.val)).reef = .waking) :
    exec (.egressFlitSlot p e ⟨since, sym⟩) s = .next s :=
  exec_idle exec_flitSlot (flitSlot_silent _ _ hreef)

section
variable (hup : s.dev.portUp (p.val, e.val) = true) (hreef : (s.dev.portLn (p.val, e.val)).reef = .none)
  (hage : s.dev.dropAged (p.val, e.val) = s.dev)
include hup hreef hage

theorem completes_flitSlot_nak (hnak : (s.dev.link (p.val, e.val)).nakDue = true) :
    Completes (.egressFlitSlot p e ⟨since, sym⟩) s (fun d => (d.link (p.val, e.val)).nakDue = false ∧
      (d.link (p.val, e.val)).nakOut = some s.dev.clk.now ∧
      d.getF F.PRT_LNK_NAK_TX_COUNT [p.val, e.val] = min (s.dev.getF F.PRT_LNK_NAK_TX_COUNT [p.val, e.val] + 1) (2 ^ 32 - 1) ∧
      (∃ b, d.out = s.dev.out ++ [.flit p.val e.val 3 0 b]) ∧ SameRegs s.dev d [(F.PRT_LNK_NAK_TX_COUNT, [p.val, e.val])] ∧ SameMem s.dev d) := by
  refine completes_flitSlot (flitSlot_nak _ _ hup hage hreef hnak) (setLink_link _ _ _)
    fun x b c hout hlink hregs hmem _ => ?_
  refine ⟨(congrArg LinkSt.nakDue hlink :), (congrArg LinkSt.nakOut hlink :), ?count, ⟨b, hout⟩, ?regs, sameMem_of_contents hmem⟩
  case count =>
    rw [Dev.getF, hregs]
    refine (getF_setF_same _ _ _ _).trans (Nat.mod_eq_of_lt ?_)
    exact (Nat.min_le_right _ _).trans_lt (by decide)
  case regs => exact sameRegs_of_regs (sameRegs_setF (d := s.dev.setLink _ _) (.head _) (sameRegs_of_regs (sameRegs_refl s.dev _) rfl)) hregs

variable (hnak : (s.dev.link (p.val, e.val)).nakDue = false)
include hnak

theorem completes_flitSlot_resend {x : SentFlit} {rest : List SentFlit} (hres : (s.dev.link (p.val, e.val)).resend = x :: rest) :
    Completes (.egressFlitSlot p e ⟨since, sym⟩) s (fun d => (d.link (p.val, e.val)).resend = rest ∧
      (d.link (p.val, e.val)).replay = (s.dev.link (p.val, e.val)).replay ∧ (d.link (p.val, e.val)).used = (s.dev.link (p.val, e.val)).used ∧
      (∃ b, d.out = s.dev.out ++ [.flit p.val e.val x.type x.seq b]) ∧ SameRegs s.dev d [] ∧ SameMem s.dev d) := by
  refine completes_flitSlot (flitSlot_resend _ _ hup hage hreef hnak hres) (setLink_link _ _ _)
    fun y b c hout hlink hregs hmem _ => ?_
  exact ⟨(congrArg LinkSt.resend hlink :), (congrArg LinkSt.replay hlink :), (congrArg LinkSt.used hlink :), ⟨b, hout⟩,
    sameRegs_of_regs (sameRegs_refl s.dev []) hregs, sameMem_of_contents hmem⟩

variable (hres : (s.dev.link (p.val, e.val)).resend = [])
include hres

theorem completes_flitSlot_timex {x : List Byte} {rest : List (List Byte)} (htim : (s.dev.link (p.val, e.val)).timex = x :: rest) :
    Completes (.egressFlitSlot p e ⟨since, sym⟩) s (fun d => (d.link (p.val, e.val)).timex = rest ∧
      (∀ y, nget? s.dev.clk.timex [p.val, e.val] = some y → leAt x 0 1 = 1 → (d.timexOf (p.val, e.val)).t1 = s.dev.stampAt 0 sym.val) ∧
      (∃ b, d.out = s.dev.out ++ [.flit p.val e.val 4 0 b]) ∧ SameRegs s.dev d [] ∧ SameMem s.dev d) := by
  generalize hd : s.dev.setLink (p.val, e.val) { s.dev.link (p.val, e.val) with timex := rest } = d
  obtain ⟨hout, hnet, hregs, hmem⟩ := stamped_keeps d (p.val, e.val) x sym.val
  obtain ⟨pay, hsend⟩ := sendTimex_eq d (p.val, e.val) x sym.val
  have hlink : (d.stamped (p.val, e.val) x sym.val).link (p.val, e.val) = { s.dev.link (p.val, e.val) with timex := rest } :=
    (congrArg (fun n : NetSt => nget LinkSt.init n.links [p.val, e.val]) hnet).trans (hd ▸ setLink_link _ _ _)
  refine completes_flitSlot ((flitSlot_timex _ _ hup hage hreef hnak hres htim).trans (by rw [hd, hsend])) hlink
    fun z b c hz hzlink hzregs hzmem hzclk => ?_
  refine ⟨(congrArg LinkSt.timex hzlink :), fun y hopen hreq => ?t1, ⟨b, hz.trans (by rw [hout, ← hd]; rfl)⟩, ?regs, ?mem⟩
  case t1 =>
    rw [Dev.timexOf, hzclk]
    refine (stamped_t1 (d := d) (k := (p.val, e.val)) (y := y) sym.val (by rw [← hd]; exact hopen) hreq).trans ?_
    rw [← hd]
    rfl
  case regs => exact sameRegs_of_regs (sameRegs_refl s.dev []) ((hzregs.trans hregs).trans (hd ▸ rfl))
  case mem => exact sameMem_of_contents ((hzmem.trans hmem).trans (hd ▸ rfl))

theorem completes_flitSlot_empty (htim : (s.dev.link (p.val, e.val)).timex = []) (hq : (s.dev.link (p.val, e.val)).queues = [])
    (htx0 : (s.dev.link (p.val, e.val)).tx0 = none) (htxN : (s.dev.link (p.val, e.val)).txN = none) :
    Completes (.egressFlitSlot p e ⟨since, sym⟩) s (fun d => (∃ b, d.out = s.dev.out ++ [.flit p.val e.val 0 0 b]) ∧ SameRegs s.dev d [] ∧
      SameMem s.dev d) := by
  obtain ⟨t, hexec, hfuses, hpend, hout, -, -, hregs, hmem⟩ :=
    completes_flitSlot_idle (flitSlot_idle since sym.val hup hage hreef hnak hres htim htx0 hq htxN)
  exact ⟨t, hexec, hfuses, hpend, hout, hregs, hmem⟩

theorem completes_flitSlot_start {x : EDesc} {f : Flight} (htim : (s.dev.link (p.val, e.val)).timex = [])
    (hroom : (s.dev.link (p.val, e.val)).replay.length < 2048) (htx0 : (s.dev.link (p.val, e.val)).tx0 = none)
    (helig : s.dev.eligible (p.val, e.val) 0 since sym.val = some (x, f)) (htc : f.hdr.tc = 0) (hmc : f.hdr.mc = 0) (hsize : f.hdr.size ≤ 240)
    (hcut : x.cut = false) (hdrop : 5 + p.val ∉ f.dropped) :
    Completes (.egressFlitSlot p e ⟨since, sym⟩) s (fun d =>
      (d.link (p.val, e.val)).sub 0 (vcRank x.vc) = ((s.dev.link (p.val, e.val)).sub 0 (vcRank x.vc)).tail ∧ (d.link (p.val, e.val)).tx0 = none ∧
      d.getF F.PRT_LNK_STAT_TX_NEXT [p.val, e.val] = (s.dev.getF F.PRT_LNK_STAT_TX_NEXT [p.val, e.val] + 1) % 2 ^ 16 ∧
      d.credits (p.val, e.val) x.vc = (s.dev.credits (p.val, e.val) x.vc - 1) % 2 ^ 16 ∧
      (d.link (p.val, e.val)).replay.length = (s.dev.link (p.val, e.val)).replay.length + 1 ∧
      (∃ b, d.out = s.dev.out ++ [.flit p.val e.val 1 (s.dev.getF F.PRT_LNK_STAT_TX_NEXT [p.val, e.val]) b]) ∧ SameMem s.dev d) := by
  obtain ⟨pay, hstart⟩ := startPkt_whole s.dev (p.val, e.val) (queueHead_some (eligible_some _ _ helig).1).1 htc hdrop hcut hsize hmc
  obtain ⟨htouch, hready⟩ := readied_keeps s.dev (p.val, e.val) x (s.dev.charge (p.val, e.val) f.hdr.size) (f.readTo f.hdr.size)
  generalize s.dev.readied (p.val, e.val) x (s.dev.charge (p.val, e.val) f.hdr.size) (f.readTo f.hdr.size) = r at hstart htouch hready
  obtain ⟨⟨b, hout⟩, ⟨c, y, now, hlink⟩, hnext, hcredit, hmem⟩ := sendSeq_spec r (p.val, e.val) 1 x.vc 1 1 0 f.hdr.size pay
  have hdo := (flitSlot_start since sym.val hup hage hreef hnak hres htim htx0 hroom helig).trans hstart
  have hdone := deaf_slot.originDone (r.sendSeq (p.val, e.val) 1 x.vc 1 1 0 f.hdr.size pay) f.origin f.hdr.expects none
  generalize r.sendSeq (p.val, e.val) 1 x.vc 1 1 0 f.hdr.size pay = t at hdo hdone hout hlink hnext hcredit hmem
  generalize t.originDone f.origin f.hdr.expects none = u at hdo hdone
  obtain ⟨hregs, hwires, hsent⟩ : u.regs = t.regs ∧ u.wires = t.wires ∧ u.out = t.out := by simpa [Dev.slotView] using hdone
  have hread (f : Field) (i : List Nat) : u.getF f i = t.getF f i := by rw [Dev.getF, hregs, Dev.getF]
  have hlinks : u.net.links = t.net.links := congrArg Prod.snd hwires
  have hport : u.link (p.val, e.val) = t.link (p.val, e.val) := by rw [Dev.link, hlinks, Dev.link]
  rw [hlink, hready] at hport
  refine completes_of_eq exec_flitSlot hdo ⟨?sub, (congrArg LinkSt.tx0 hport :), ?next, ?credit, ?replay, ⟨b, ?out⟩, sameMem_of_contents ?mem⟩
  case sub =>
    rw [hport]
    exact nget_nput_same _ _ _ _
  case next => exact (hread _ _).trans (hnext.trans (congrArg (fun n => (n + 1) % 2 ^ 16) (htouch.fields _ _ (by decide))))
  case credit => exact (hread _ _).trans (hcredit.trans (congrArg (fun n => (n - 1) % 2 ^ 16) (startFields_credits htouch _ _)))
  case replay =>
    rw [hport]
    exact List.length_append
  case out => rw [hsent, hout, htouch.out, htouch.fields _ _ (by decide)]
  case mem => exact ((congrArg Prod.fst hwires).trans hmem).trans (Prod.ext htouch.mem htouch.lost)

end
end

/-- Settles O26: each clause is the equation of the slot for what the port has to send. -/
theorem egressFlitSlotsFollowTheirOrder : Obligations.EgressFlitSlotsFollowTheirOrder := by
  refine ⟨?nak, ?resend, ?timex, ?start, ?idle, ?reef, ?silent, ?eligible⟩
  case nak => exact fun _ _ _ _ _ hup hreef hage hnak => completes_flitSlot_nak hup hreef hage hnak
  case resend => exact fun _ _ _ _ _ _ _ hup hreef hage hnak hres => completes_flitSlot_resend hup hreef hage hnak hres
  case timex => exact fun _ _ _ _ _ _ _ hup hreef hage hnak hres htim => completes_flitSlot_timex hup hreef hage hnak hres htim
  case start =>
    exact fun _ _ _ _ _ _ _ hup hreef hage hnak hres htim hroom htx0 helig htc hmc hsize hcut hdrop _ =>
      completes_flitSlot_start hup hreef hage hnak hres htim hroom htx0 helig htc hmc hsize hcut hdrop
  case idle =>
    exact fun _ _ _ _ _ hup hreef hage hnak hres htim hq htx0 htxN => completes_flitSlot_empty hup hreef hage hnak hres htim hq htx0 htxN
  case reef =>
    intro s p e since sym hup hage hreef
    rcases hreef with ⟨hasked, hnak, hres⟩ | ⟨hentering, hat⟩
    · exact completes_flitSlot_idle (flitSlot_asked _ _ hup hage hasked hnak hres)
    · exact completes_flitSlot_idle (flitSlot_entering _ _ hup hage hentering hat)
  case silent => exact fun _ _ _ _ _ hreef => exec_flitSlot_silent hreef
  case eligible =>
    intro d k q since sym x f h
    obtain ⟨hhead, hgate, hage, hqueue, hclass⟩ := eligible_some _ _ h
    obtain ⟨-, hcredit, hsend⟩ := queueHead_some hhead
    exact ⟨hcredit, hgate, hage, hqueue, hclass, by simpa [Flight.sendable] using hsend⟩

end Sys2Proof.Machine
end

section
/-!
The CRC-16 of a flit header (R175): each byte enters the remainder bit by bit, most significant first.
-/
namespace Sys2Proof.Machine

/-- One message bit enters the remainder of the CRC-16. -/
def crc16Bit (c : Nat) (b : Bool) : Nat := if (c / 32768 % 2 == 1) != b then (c * 2 % 65536) ^^^ 0x1021 else c * 2 % 65536

/-- Doubling modulo 2^16 goes through exclusive or. -/
theorem xor_mul_two_mod (c m : Nat) : (c ^^^ m) * 2 % 65536 = (c * 2 % 65536) ^^^ (m * 2 % 65536) := by
  have hdouble : (c ^^^ m) * 2 = (c * 2) ^^^ (m * 2) := by
    simpa [Nat.shiftLeft_eq] using Nat.shiftLeft_xor_distrib (a := c) (b := m) (i := 1)
  rw [hdouble]
  exact Nat.xor_mod_two_pow (n := 16)

/-- The top bit of an exclusive or is that of one number and not of the other. -/
theorem xor_topBit (c m : Nat) : (c ^^^ m) / 32768 % 2 = 1 ↔ ((c / 32768 % 2 == 1) != bit m 15) = true := by
  have htop (n : Nat) : (n / 32768 % 2 == 1) = n.testBit 15 := bit_eq_testBit n 15
  rw [← beq_iff_eq, htop, htop, bit_eq_testBit, Nat.testBit_xor]

/-- One step on a remainder that a message is joined to takes in the message's top bit. -/
theorem crc16Step_succ_xor (k c m : Nat) : crc16Step (k + 1) (c ^^^ m) = crc16Step k (crc16Bit c (bit m 15) ^^^ (m * 2 % 65536)) := by
  rw [crc16Step, crc16Bit]
  simp only [xor_topBit, xor_mul_two_mod]
  split_ifs
  · rw [Nat.xor_right_comm]
  · rfl

theorem bit_mul_two_mod (m : Nat) {i : Nat} (h : i < 15) : bit (m * 2 % 65536) (15 - i) = bit m (15 - (i + 1)) := by
  have hlow : bit (m * 2 % 65536) (15 - i) = bit (m * 2) (15 - i) := bit_mod (w := 16) _ (by omega)
  rw [hlow, bit_eq_testBit, bit_eq_testBit, show 15 - i = (15 - (i + 1)) + 1 by omega, Nat.testBit_succ, Nat.mul_div_cancel _ (by decide)]

/-- `k` steps take in the `k` top bits of the message, and move the rest of it up. -/
theorem crc16Step_xor (k c m : Nat) (hk : k ≤ 15) :
    crc16Step k (c ^^^ m % 65536) = ((List.range k).map (fun i => bit m (15 - i))).foldl crc16Bit c ^^^ (m * 2 ^ k % 65536) := by
  induction k generalizing c m with
  | zero => simp [crc16Step]
  | succ k ih =>
    have hbits : ((List.range k).map (fun i => bit (m * 2 % 65536) (15 - i))) = ((List.range k).map (fun i => bit m (15 - (i + 1)))) :=
      List.map_congr_left fun i hi => bit_mul_two_mod m (by have := List.mem_range.mp hi; omega)
    have htop : bit (m % 65536) 15 = bit m 15 := bit_mod (w := 16) m (by decide)
    rw [crc16Step_succ_xor, htop, Nat.mod_mul_mod, ← Nat.mod_mod (m * 2), ih _ _ (by omega), hbits, List.range_succ_eq_map, List.map_cons,
      List.map_map, List.foldl_cons, Nat.mod_mul_mod, Nat.mul_assoc, ← Nat.pow_succ']
    rfl

/-- A byte joined to the top of the remainder enters it bit by bit. -/
theorem crc16Step_byte (c : Nat) (b : Byte) : crc16Step 8 (c ^^^ (b.toNat * 256)) = ((List.range 8).map (fun i => bit b.toNat (7 - i))).foldl crc16Bit c := by
  have hb := b.isLt
  have hbits : ((List.range 8).map (fun i => bit (b.toNat * 256) (15 - i))) = ((List.range 8).map (fun i => bit b.toNat (7 - i))) := by
    refine List.map_congr_left fun i hi => ?_
    have := List.mem_range.mp hi
    rw [bit_eq_testBit, bit_eq_testBit, show (256 : Nat) = 2 ^ 8 from rfl, Nat.testBit_mul_two_pow, decide_eq_true (by omega), Bool.true_and]
    exact congrArg _ (by omega)
  have hstep := crc16Step_xor 8 c (b.toNat * 256) (by decide)
  rw [hbits, Nat.mod_eq_of_lt (by omega), Nat.mul_assoc, show 256 * 2 ^ 8 = 65536 from rfl, Nat.mul_mod_left, Nat.xor_zero] at hstep
  exact hstep

/-- The CRC of bytes is the remainder of their bits. -/
theorem crc16_eq_foldl_bits (c : Nat) (l : List Byte) :
    crc16 c l = (l.flatMap (fun b => (List.range 8).map (fun i => bit b.toNat (7 - i)))).foldl crc16Bit c := by
  rw [List.foldl_flatMap, crc16]
  simp only [crc16Step_byte]

/-- A header ends with the two bytes of the CRC of its first 14. -/
theorem flitHdr_enc_crc (h : FlitHdr) : h.enc = h.enc.take 14 ++ leBytes 2 (crc16 0xFFFF (h.enc.take 14)) := by
  have hbody : h.enc.take 14 = h.body := by rw [FlitHdr.enc, List.take_left' (length_flitHdr_body h)]
  rw [hbody, FlitHdr.enc, hcrc, List.take_of_length_le (length_flitHdr_body h).le]

/-- Settles O58: the CRC goes over the bits of its bytes, and a header ends with it. -/
theorem headerCrc : Obligations.HeaderCrc := by
  refine ⟨?bits, fun h => ?header, ?check⟩
  case bits => exact crc16_eq_foldl_bits 0xFFFF
  case header =>
    have hlen : (h.enc.take 14).length = 14 := by simp [length_flitHdr_enc]
    have henc := flitHdr_enc_crc h
    refine ⟨length_flitHdr_enc h, ?_, ?_⟩
    · have hat := leAt_append (h.enc.take 14) (leBytes 2 (crc16 0xFFFF (h.enc.take 14))) 2
      rw [← henc, hlen, leAt_leBytes] at hat
      exact hat.trans (Nat.mod_eq_of_lt (crc16_lt _ _ (by decide)))
    · rw [congrArg (·.getD 14 0) henc, List.getD_append_right _ _ _ _ hlen.le, hlen]
      rfl
  case check => decide +kernel

end Sys2Proof.Machine
end

section
/-!
The ACK and credit fields that every good flit carries (R173, R184, R186, R187).
-/
namespace Sys2Proof.Machine

/-- A register that the credit field of a flit may write: the credits held, and the report of a total that cannot be. -/
def creditReg (r : RegName) : Bool := r == .PRT_LNK_CR0 || r == .PRT_LNK_CR1 || r == .PRT_LNK_ERR || faultReg r

/-- The credits held on a channel when the peer's total is `total` (R187). -/
def LinkSt.held (l : LinkSt) (vc total : Nat) : Nat := (total + 65536 - l.used.getD vc 0 % 65536) % 65536

/-- An ACK leaves what the link has received and what it has used. -/
theorem acked_keeps (l : LinkSt) (now seq : Nat) : (l.acked now seq).used = l.used ∧ (l.acked now seq).inq = l.inq ∧
    (l.acked now seq).ackSeq = l.ackSeq ∧ (l.acked now seq).nakOut = l.nakOut := by
  unfold LinkSt.acked
  split <;> exact ⟨rfl, rfl, rfl, rfl⟩

theorem crField_reg (vc : Nat) : (crField vc).reg = .PRT_LNK_CR0 ∨ (crField vc).reg = .PRT_LNK_CR1 := by
  unfold crField
  split_ifs <;> simp [F.PRT_LNK_CR0_REQ, F.PRT_LNK_CR0_RSP, F.PRT_LNK_CR1_COL, F.PRT_LNK_CR1_ESC]

theorem crField_reg_ne {g : Field} (vc : Nat) (h : creditReg g.reg = false) : (crField vc).reg ≠ g.reg := by
  rintro hreg
  rcases crField_reg vc with hcr | hcr <;> simp [← hreg, hcr, creditReg] at h

theorem incSat_getF_same (d : Dev) {f : Field} (i : List Nat) (hw : f.w = 32) : (d.incSat f i).getF f i = min (d.getF f i + 1) (2 ^ 32 - 1) := by
  rw [Dev.incSat, Dev.addSat, getF_setF_same, hw]
  exact Nat.mod_eq_of_lt ((Nat.min_le_right _ _).trans_lt (by decide))

/-! ## What an update of a counter or of a link leaves -/

@[simp] theorem incSat_link (d : Dev) (f : Field) (i : List Nat) (k : Nat × Nat) : (d.incSat f i).link k = d.link k := rfl
@[simp] theorem incSat_contents (d : Dev) (f : Field) (i : List Nat) : (d.incSat f i).contents = d.contents := rfl
@[simp] theorem setLink_getF (d : Dev) (k : Nat × Nat) (l : LinkSt) (f : Field) (i : List Nat) : (d.setLink k l).getF f i = d.getF f i := rfl

theorem link_of_net {d e : Dev} (h : e.net = d.net) (k : Nat × Nat) : e.link k = d.link k := by rw [Dev.link, h, Dev.link]

section
variable (d : Dev) (k : Nat × Nat)

/-! ## Credits -/

theorem takeCredit_held {vc total : Nat} (h : (d.link k).held vc total ≤ 32767) :
    d.takeCredit k vc total = d.setF (crField vc) [k.1, k.2] ((d.link k).held vc total) := if_neg (Nat.not_lt.mpr h)

theorem takeCredit_over {vc total : Nat} (h : 32767 < (d.link k).held vc total) :
    d.takeCredit k vc total = (d.raise F.PRT_LNK_ERR_CREDIT_ERR [k.1, k.2]).fault (5 + k.1) .linkErr := if_pos h

theorem takeCredit_keeps (vc total : Nat) : (d.takeCredit k vc total).net = d.net ∧ (d.takeCredit k vc total).contents = d.contents ∧
    ∀ (g : Field) (i : List Nat), creditReg g.reg = false → (d.takeCredit k vc total).getF g i = d.getF g i := by
  rcases Nat.lt_or_ge 32767 ((d.link k).held vc total) with h | h
  · rw [takeCredit_over d k h]
    refine ⟨(fault_net _ _ _).trans (raise_net _ _ _), (fault_contents _ _ _).trans (raise_contents _ _ _), fun g i hg => ?_⟩
    have hfault : faultReg g.reg = false := (Bool.or_eq_false_iff.mp hg).2
    exact (fault_getF _ _ _ g i hfault).trans (raise_getF_reg _ _ _ _ _ (by rintro hreg; simp [← hreg, creditReg, F.PRT_LNK_ERR_CREDIT_ERR] at hg))
  · rw [takeCredit_held d k h]
    exact ⟨setF_net _ _ _ _, setF_contents _ _ _ _, fun g i hg => getF_setF_reg _ _ _ _ _ _ (crField_reg_ne vc hg)⟩

/-! ## The fields of a flit -/

variable (f : FlitHdr)

theorem rxFields_link : (d.rxFields k f).link k = (d.link k).acked d.clk.now f.ack :=
  (link_of_net (takeCredit_keeps _ k f.crVc f.crTotal).1 k).trans (setLink_link d k _)

theorem rxFields_contents : (d.rxFields k f).contents = d.contents := by
  obtain ⟨-, hmem, -⟩ := takeCredit_keeps (d.setLink k ((d.link k).acked d.clk.now f.ack)) k f.crVc f.crTotal
  exact hmem.trans (setLink_contents _ _ _)

theorem rxFields_getF (g : Field) (i : List Nat) (h : creditReg g.reg = false) : (d.rxFields k f).getF g i = d.getF g i := by
  obtain ⟨-, -, hregs⟩ := takeCredit_keeps (d.setLink k ((d.link k).acked d.clk.now f.ack)) k f.crVc f.crTotal
  exact (hregs g i h).trans (setLink_getF _ _ _ _ _)

theorem ackedLink_held (vc total : Nat) : ((d.setLink k ((d.link k).acked d.clk.now f.ack)).link k).held vc total = (d.link k).held vc total := by
  rw [setLink_link, LinkSt.held, (acked_keeps _ _ _).1, LinkSt.held]

/-- The credits that the peer's total leaves are shown, and no other register changes. -/
theorem rxFields_held (h : (d.link k).held f.crVc f.crTotal ≤ 32767) :
    (d.rxFields k f).getF (crField f.crVc) [k.1, k.2] = (d.link k).held f.crVc f.crTotal ∧
      SameRegs d (d.rxFields k f) [(crField f.crVc, [k.1, k.2])] := by
  have hlink := ackedLink_held d k f f.crVc f.crTotal
  rw [Dev.rxFields, takeCredit_held _ k (hlink.le.trans h), hlink]
  refine ⟨?_, sameRegs_setF (.head _) (sameRegs_of_regs (sameRegs_refl d _) rfl)⟩
  rw [getF_setF_same, crField_width]
  exact Nat.mod_eq_of_lt (by omega)

/-- A total that would leave more than 32,767 is an error of the link (R187). -/
theorem rxFields_over (h : 32767 < (d.link k).held f.crVc f.crTotal) :
    (d.rxFields k f).flag F.PRT_LNK_ERR_CREDIT_ERR [k.1, k.2] = true ∧ (d.rxFields k f).bitF F.FLT_STAT_SRC [5 + k.1] 11 = true := by
  rw [Dev.rxFields, takeCredit_over _ k (h.trans_eq (ackedLink_held d k f f.crVc f.crTotal).symm)]
  exact ⟨(fault_flag _ _ _ _ _ (by decide)).trans (flag_raise _ _ _ rfl),
    (fault_bitF _ _ _ 11 (by decide)).trans ((congrArg _ (by decide)).trans (Bool.or_true _))⟩

end

/-! ## A flit reaches its port -/

section
variable {d : Dev} {k : Nat × Nat} {flit : List Byte} {ty : Nat → Bool}

/-- A good flit of the wanted type is taken by a port that is up, on which some lane receives. -/
theorem rxFlit_taken (f : Dev → FlitHdr → Dev) (hup : d.portUp k = true) (hdead : d.rxDead k = false) (hgood : flitGood flit = true)
    (hty : ty (FlitHdr.dec flit).type = true) : d.rxFlit k flit ty f = f d (FlitHdr.dec flit) := by
  simp [Dev.rxFlit, Dev.rxOn, hup, hdead, hgood, hty]

theorem rxFlit_type {n : Nat} (f : Dev → FlitHdr → Dev) (hup : d.portUp k = true) (hdead : d.rxDead k = false) (hgood : flitGood flit = true)
    (hty : (FlitHdr.dec flit).type = n) : d.rxFlit k flit (· == n) f = f d (FlitHdr.dec flit) :=
  rxFlit_taken f hup hdead hgood (beq_iff_eq.mpr hty)

/-- With every lane dead whatever arrives is a bad flit. -/
theorem rxFlit_dead (f : Dev → FlitHdr → Dev) (hup : d.portUp k = true) (hdead : d.rxDead k = true) : d.rxFlit k flit ty f = d.badFlit k := by
  simp [Dev.rxFlit, hup, hdead]

end

theorem completes_of_flit {c : Instr} {s : State} {flit : List Byte} {f : Dev → Dev} {d : Dev} {P : Dev → Prop}
    (hexec : exec c s = s.updIf (flitOk flit) f) (hok : flitOk flit = true) (hdo : f s.dev = d) (hP : P d) : Completes c s P :=
  completes_of_updIf hexec hok (hdo ▸ hP)

section
variable {s : State} {p : Fin 8} {e : Fin 32} {flit : List (BitVec 8)}

/-- A flit that carries nothing for its port but its ACK and credit fields. -/
theorem completes_rxFields {c : Instr} {ty : Nat → Bool}
    (hexec : exec c s = s.updIf (flitOk flit) (fun d => d.rxFlit (p.val, e.val) flit ty (fun d h => d.rxFields (p.val, e.val) h)))
    (hok : flitOk flit = true) (hup : s.dev.portUp (p.val, e.val) = true) (hdead : s.dev.rxDead (p.val, e.val) = false) (hgood : flitGood flit = true)
    (hty : ty (FlitHdr.dec flit).type = true) {held : Nat}
    (hheld : held = (s.dev.link (p.val, e.val)).held (FlitHdr.dec flit).crVc (FlitHdr.dec flit).crTotal) :
    Completes c s (fun d => d.link (p.val, e.val) = (s.dev.link (p.val, e.val)).acked s.dev.clk.now (FlitHdr.dec flit).ack ∧
      (held ≤ 32767 → d.getF (crField (FlitHdr.dec flit).crVc) [p.val, e.val] = held ∧
        SameRegs s.dev d [(crField (FlitHdr.dec flit).crVc, [p.val, e.val])]) ∧
      (32767 < held → d.flag F.PRT_LNK_ERR_CREDIT_ERR [p.val, e.val] = true ∧ d.bitF F.FLT_STAT_SRC [5 + p.val] 11 = true) ∧ SameMem s.dev d) := by
  subst hheld
  exact completes_of_flit hexec hok (rxFlit_taken _ hup hdead hgood hty) ⟨rxFields_link _ (p.val, e.val) _, rxFields_held _ (p.val, e.val) _,
    rxFields_over _ (p.val, e.val) _, sameMem_of_contents (rxFields_contents _ _ _)⟩

/-- A flit of reserved TYPE counts as malformed besides (R174). -/
theorem completes_rxReservedFlit (hok : flitOk flit = true) (hup : s.dev.portUp (p.val, e.val) = true)
    (hdead : s.dev.rxDead (p.val, e.val) = false) (hgood : flitGood flit = true) (hty : 5 ≤ (FlitHdr.dec flit).type) {held : Nat}
    (hheld : held = (s.dev.link (p.val, e.val)).held (FlitHdr.dec flit).crVc (FlitHdr.dec flit).crTotal) :
    Completes (.rxReservedFlit p e flit) s (fun d =>
      d.link (p.val, e.val) = (s.dev.link (p.val, e.val)).acked s.dev.clk.now (FlitHdr.dec flit).ack ∧
      (held ≤ 32767 → d.getF (crField (FlitHdr.dec flit).crVc) [p.val, e.val] = held ∧
        SameRegs s.dev d [(crField (FlitHdr.dec flit).crVc, [p.val, e.val]), (F.PRT_LNK_MALFORMED_COUNT, [p.val, e.val])]) ∧
      (32767 < held → d.flag F.PRT_LNK_ERR_CREDIT_ERR [p.val, e.val] = true ∧ d.bitF F.FLT_STAT_SRC [5 + p.val] 11 = true) ∧
      d.getF F.PRT_LNK_MALFORMED_COUNT [p.val, e.val] = min (s.dev.getF F.PRT_LNK_MALFORMED_COUNT [p.val, e.val] + 1) (2 ^ 32 - 1) ∧
      SameMem s.dev d) := by
  subst hheld
  have hlink := rxFields_link s.dev (p.val, e.val) (FlitHdr.dec flit)
  have hcredit := rxFields_held s.dev (p.val, e.val) (FlitHdr.dec flit)
  have hover := rxFields_over s.dev (p.val, e.val) (FlitHdr.dec flit)
  have hmem := rxFields_contents s.dev (p.val, e.val) (FlitHdr.dec flit)
  have hcount := rxFields_getF s.dev (p.val, e.val) (FlitHdr.dec flit) F.PRT_LNK_MALFORMED_COUNT [p.val, e.val] (by decide)
  have hdo : s.dev.rxReserved (p.val, e.val) flit =
      (s.dev.rxFields (p.val, e.val) (FlitHdr.dec flit)).incSat F.PRT_LNK_MALFORMED_COUNT [p.val, e.val] :=
    rxFlit_taken _ hup hdead hgood (decide_eq_true hty)
  generalize s.dev.rxFields (p.val, e.val) (FlitHdr.dec flit) = d at *
  refine completes_of_flit rfl hok hdo ⟨(incSat_link _ _ _ _).trans hlink, fun h => ⟨?credit, ?regs⟩, fun h => ⟨?err, ?source⟩, ?count,
    sameMem_of_contents ((incSat_contents _ _ _).trans hmem)⟩
  case credit => exact (incSat_getF_reg _ _ _ _ _ (crField_reg_ne (g := F.PRT_LNK_MALFORMED_COUNT) _ (by decide)).symm).trans (hcredit h).1
  case regs => exact sameRegs_setF (.tail _ (.head _)) ((hcredit h).2.mono (by simp))
  case err => exact (congrArg (· == 1) (incSat_getF_reg _ _ _ _ _ (by decide))).trans (hover h).1
  case source => exact (congrArg (bit · 11) (incSat_getF_reg _ _ _ _ _ (by decide))).trans (hover h).2
  case count => exact (incSat_getF_same d _ rfl).trans (by rw [hcount])

end

/-- Settles O21: an IDLE or TIMEX flit brings its fields alone, and one of reserved TYPE is counted too. -/
theorem flitsDeliverAcksAndCredits : Obligations.FlitsDeliverAcksAndCredits := by
  refine ⟨?idle, ?timex, ?reserved⟩
  case idle => exact fun _ _ _ _ _ _ hok hup hdead hgood hty ht hh => completes_rxFields (ty := (· == 0)) rfl hok hup hdead hgood (beq_iff_eq.mpr hty) (ht ▸ hh)
  case timex => exact fun _ _ _ _ _ _ hok hup hdead hgood hty ht hh => completes_rxFields (ty := (· == 4)) rfl hok hup hdead hgood (beq_iff_eq.mpr hty) (ht ▸ hh)
  case reserved => exact fun _ _ _ _ _ _ hok hup hdead hgood hty ht hh => completes_rxReservedFlit hok hup hdead hgood hty (ht ▸ hh)

end Sys2Proof.Machine
end

section
/-!
Trace records and drop samples (R501, R504): the registers that they write.
-/
namespace Sys2Proof.Machine

/-- A register that a trace record or a drop sample may write. -/
def sampleReg (r : RegName) : Bool :=
  r == .PRT_DROP_CNT || r == .TRC_DISCARD || r == .TRC_STAT || r == .TRC_RECS || r == .HST_RR_DISCARD

section
variable (d : Dev) {g : Field} (i : List Nat) (hg : sampleReg g.reg = false)
include hg

theorem reg_ne_of_sampleReg {r : RegName} (h : sampleReg r = true) : r ≠ g.reg := by
  rintro rfl
  exact absurd h (by simp [hg])

theorem traceRec_getF (n : DieNo) (ring : Nat) (l : List Byte) (run : Option (Nat × Nat)) : (d.traceRec n ring l run).getF g i = d.getF g i := by
  have hdiscard (e : Dev) : (e.rrDiscard ring).getF g i = e.getF g i := by
    unfold Dev.rrDiscard
    split
    · exact incSat_getF_reg _ _ _ _ _ (reg_ne_of_sampleReg hg (by decide))
    · rfl
  have hcount : (d.incSat F.TRC_DISCARD_COUNT [n]).getF g i = d.getF g i := incSat_getF_reg _ _ _ _ _ (reg_ne_of_sampleReg hg (by decide))
  unfold Dev.traceRec Dev.traceDrop Dev.tracePut
  split_ifs
  · exact hcount
  · exact (hdiscard _).trans hcount
  · rfl
  · exact (getF_setF_reg _ _ _ _ _ _ (reg_ne_of_sampleReg hg (by decide))).trans (getF_setF_reg _ _ _ _ _ _ (reg_ne_of_sampleReg hg (by decide)))

theorem dropSample_getF (p e : Nat) (hdr : List Byte) (st : Status) : (d.dropSample p e hdr st).getF g i = d.getF g i := by
  have hid (d : Dev) : (d.portId p e).2.getF g i = d.getF g i := by
    unfold Dev.portId
    split_ifs <;> rfl
  unfold Dev.dropSample
  dsimp only
  split_ifs
  · rfl
  · exact (traceRec_getF _ i hg _ _ _ _).trans ((incSat_getF_reg _ _ _ _ _ (reg_ne_of_sampleReg hg (by decide))).trans (hid _))
  · rfl

end

end Sys2Proof.Machine
end

section
/-!
Acceptance in order, duplicates, bad flits and malformed packets (R176, R177, R180, R181, R183).
-/
namespace Sys2Proof.Machine

section
variable (d : Dev) (k : Nat × Nat)

/-! ## Bad flits -/

/-- A bad flit is counted, and asks for a NAK unless one is outstanding (R176, R183). -/
theorem badFlit_spec : (d.badFlit k).getF F.PRT_LNK_BAD_COUNT [k.1, k.2] = min (d.getF F.PRT_LNK_BAD_COUNT [k.1, k.2] + 1) (2 ^ 32 - 1) ∧
    (d.badFlit k).link k = (if (d.link k).nakOut.isSome then d.link k else { d.link k with nakOut := some d.clk.now, nakDue := true }) ∧
    SameRegs d (d.badFlit k) [(F.PRT_LNK_BAD_COUNT, [k.1, k.2])] ∧ (d.badFlit k).contents = d.contents := by
  have hcount := incSat_getF_same d (f := F.PRT_LNK_BAD_COUNT) [k.1, k.2] rfl
  have hregs : SameRegs d (d.incSat F.PRT_LNK_BAD_COUNT [k.1, k.2]) [(F.PRT_LNK_BAD_COUNT, [k.1, k.2])] := sameRegs_setF (.head _) (sameRegs_refl d _)
  have hlink : (d.incSat F.PRT_LNK_BAD_COUNT [k.1, k.2]).link k = d.link k := rfl
  unfold Dev.badFlit Dev.askNak
  dsimp only
  rw [hlink]
  split_ifs
  · exact ⟨hcount, hlink, hregs, rfl⟩
  · exact ⟨hcount, setLink_link _ k _, sameRegs_of_regs hregs rfl, rfl⟩

/-! ## Flits in order -/

variable (f : FlitHdr)

/-- The port after a flit accepted in order: the next one is expected, the flit is acknowledged, and no NAK is outstanding (R183). -/
def Dev.inOrder : Dev :=
  ((d.setLink k { d.link k with ackSeq := f.seq, nakOut := none, nakDue := false }).addWrap F.PRT_LNK_STAT_RX_EXPECT [k.1, k.2] 1).rxFields k f

theorem rxSeq_inOrder (h : f.seq = d.getF F.PRT_LNK_STAT_RX_EXPECT [k.1, k.2]) : d.rxSeq k f = (d.inOrder k f, true) := if_pos h

/-- A flit that the port has accepted before is counted and nothing else (R183). -/
theorem rxSeq_duplicate {back : Nat} (hback : back = (d.getF F.PRT_LNK_STAT_RX_EXPECT [k.1, k.2] + 65536 - f.seq) % 65536)
    (hnak : (d.link k).nakOut = none) (h1 : 1 ≤ back) (h2 : back ≤ 32768) :
    d.rxSeq k f = (d.incSat F.PRT_LNK_DUP_COUNT [k.1, k.2], false) := by
  have hseq : f.seq ≠ d.getF F.PRT_LNK_STAT_RX_EXPECT [k.1, k.2] := fun h => by
    rw [h, Nat.add_sub_cancel_left, Nat.mod_self] at hback
    omega
  subst hback
  simp [Dev.rxSeq, hseq, hnak, h1, h2]

theorem inOrder_link : (d.inOrder k f).link k =
    ({ d.link k with ackSeq := f.seq, nakOut := none, nakDue := false } : LinkSt).acked d.clk.now f.ack :=
  (rxFields_link _ k f).trans (congrArg (LinkSt.acked · d.clk.now f.ack) (setLink_link d k _))

theorem inOrder_received : ((d.inOrder k f).link k).inq = (d.link k).inq ∧ ((d.inOrder k f).link k).ackSeq = f.seq ∧
    ((d.inOrder k f).link k).nakOut = none := by
  obtain ⟨-, hinq, hack, hnak⟩ := acked_keeps { d.link k with ackSeq := f.seq, nakOut := none, nakDue := false } d.clk.now f.ack
  rw [inOrder_link]
  exact ⟨hinq, hack, hnak⟩

theorem inOrder_contents : (d.inOrder k f).contents = d.contents := rxFields_contents _ k f

theorem inOrder_expect : (d.inOrder k f).getF F.PRT_LNK_STAT_RX_EXPECT [k.1, k.2] = (d.getF F.PRT_LNK_STAT_RX_EXPECT [k.1, k.2] + 1) % 2 ^ 16 :=
  (rxFields_getF _ k f _ _ (by decide)).trans (getF_setF_same _ _ _ _)

theorem inOrder_getF (g : Field) (i : List Nat) (hg : creditReg g.reg = false) (hne : fieldNe F.PRT_LNK_STAT_RX_EXPECT g = true) :
    (d.inOrder k f).getF g i = d.getF g i :=
  (rxFields_getF _ k f g i hg).trans (getF_setF_ne _ _ _ _ _ _ hne)

/-! ## DATA -/

/-- A packet enters the ingress. -/
def LinkSt.entered (l : LinkSt) (x : InPkt) : LinkSt := { l with inq := l.inq ++ [x] }

theorem entered_keeps (l : LinkSt) (x : InPkt) : (l.entered x).inq = l.inq ++ [x] ∧ (l.entered x).ackSeq = l.ackSeq ∧ (l.entered x).nakOut = l.nakOut :=
  ⟨rfl, rfl, rfl⟩

/-- A packet of one flit enters whole (R177). -/
theorem rxBytes_whole {pay b : List Byte} (hopen : openIdx (d.link k).inq (f.tc == 0) = none) (hsop : f.sop = 1) (heop : f.eop = 1)
    (hvalid : f.valid ≤ 240) (hb : b = pay.take f.valid) (h32 : 32 ≤ b.length) (hsize : b.length = (PktHdr.dec b).size)
    (hlen : (PktHdr.dec b).len ≤ 4096) : d.rxBytes k f pay =
      d.setLink k ((d.link k).entered ⟨f.vc, f.tc, b, true, none, none, false, .outside, 1⟩) := by
  have hpos : f.valid ≠ 0 := fun h => by simp [hb, h] at h32
  have hfits : badSoFar b 1 true = false := by simp [badSoFar, hsize.symm, Nat.not_lt.mpr hlen, Nat.not_lt.mpr h32]
  simp [Dev.rxBytes, hopen, hsop, heop, ← hb, hfits, hpos, Nat.not_lt.mpr hvalid, LinkSt.entered]

/-! ## Malformed packets -/

/-- A malformed packet is counted and reported (R181). -/
theorem malformed_spec (bytes : List Byte) :
    (d.malformed k bytes).getF F.PRT_LNK_MALFORMED_COUNT [k.1, k.2] = min (d.getF F.PRT_LNK_MALFORMED_COUNT [k.1, k.2] + 1) (2 ^ 32 - 1) ∧
    (d.malformed k bytes).flag F.PRT_LNK_ERR_MALFORMED [k.1, k.2] = true ∧
    (d.malformed k bytes).getF F.PRT_LNK_ABORT_RX_COUNT [k.1, k.2] = d.getF F.PRT_LNK_ABORT_RX_COUNT [k.1, k.2] ∧
    (d.malformed k bytes).contents = d.contents := by
  unfold Dev.malformed
  refine ⟨?count, ?flag, ?abort, congrArg Prod.fst (dropSample_wires _ _ _ _ _)⟩
  case count =>
    exact (dropSample_getF _ _ (by decide) _ _ _ _).trans ((raise_getF_reg _ _ _ _ _ (by decide)).trans (incSat_getF_same d _ rfl))
  case flag => exact (congrArg (· == 1) (dropSample_getF _ _ (by decide) _ _ _ _)).trans (flag_raise _ _ _ rfl)
  case abort =>
    exact (dropSample_getF _ _ (by decide) _ _ _ _).trans ((raise_getF_reg _ _ _ _ _ (by decide)).trans (incSat_getF_reg _ _ _ _ _ (by decide)))

/-! ## ABORT -/

/-- The credit of an ABORT flit goes back to the peer. -/
def Dev.abortTaken : Dev := d.setLink k ((d.link k).release f.vc 1)

theorem abortTaken_inq : ((d.abortTaken k f).link k).inq = (d.link k).inq := (congrArg LinkSt.inq (setLink_link d k ((d.link k).release f.vc 1)) :)

theorem abortTaken_getF (g : Field) (i : List Nat) : (d.abortTaken k f).getF g i = d.getF g i := setLink_getF _ _ _ _ _

theorem abortTaken_contents : (d.abortTaken k f).contents = d.contents := setLink_contents _ _ _

theorem rxAbort_open {i : Nat} (st : Status) (hopen : openIdx (d.link k).inq (f.tc == 0) = some i) (hsop : f.sop = 0) :
    d.rxAbort k f st = ((d.abortTaken k f).incSat F.PRT_LNK_ABORT_RX_COUNT [k.1, k.2]).loseIn k i st := by
  have hinq := abortTaken_inq d k f
  unfold Dev.abortTaken at hinq ⊢
  simp [Dev.rxAbort, hinq, hopen, hsop]

theorem rxAbort_none (st : Status) (hopen : openIdx (d.link k).inq (f.tc == 0) = none) :
    d.rxAbort k f st = (d.abortTaken k f).malformed k [] := by
  have hinq := abortTaken_inq d k f
  unfold Dev.abortTaken at hinq ⊢
  simp [Dev.rxAbort, hinq, hopen]

theorem openIdx_single {x : InPkt} {tc0 : Bool} (hcomplete : x.complete = false) (hlost : x.lost = none) (htc : (x.tc == 0) = tc0) :
    openIdx [x] tc0 = some 0 := by
  simp [openIdx, hcomplete, hlost, htc]

theorem loseIn_getF (i : Nat) (st : Status) (g : Field) (j : List Nat) : (d.loseIn k i st).getF g j = d.getF g j := by
  rw [Dev.getF, (loseIn_keeps d k i st).1, Dev.getF]

/-- The packet at position `i` of a link is lost: it holds no credit, and without a whole header it needs no parse. -/
def LinkSt.lostAt (l : LinkSt) (i : Nat) (st : Status) : LinkSt :=
  (l.releaseIn i).setIn i (fun q => { q with lost := some st, parsed := q.parsed || q.bytes.length < 32 })

theorem lostAt_single {l : LinkSt} {x : InPkt} (st : Status) (hinq : l.inq = [x]) :
    (l.lostAt 0 st).inq = [{ x with flits := 0, lost := some st, parsed := x.parsed || x.bytes.length < 32 }] := by
  simp [LinkSt.lostAt, LinkSt.releaseIn, hinq, LinkSt.setIn, LinkSt.release]

/-- The only packet of the ingress is lost with its status, and holds no credit. -/
theorem loseIn_single {x : InPkt} (st : Status) (hinq : (d.link k).inq = [x]) (hflight : x.flight = none) :
    ∀ q ∈ ((d.loseIn k 0 st).link k).inq, q.lost = some st ∧ q.flits = 0 := by
  have hlose : d.loseIn k 0 st = d.setLink k ((d.link k).lostAt 0 st).tidy := by simp [Dev.loseIn, LinkSt.lostAt, hinq, hflight]
  intro q hq
  rw [hlose, setLink_link] at hq
  obtain rfl := List.mem_singleton.mp (lostAt_single st hinq ▸ List.mem_of_mem_filter hq)
  exact ⟨rfl, rfl⟩

end

end Sys2Proof.Machine
end

section
/-!
Replay (R184): the flits from a SEQ on are sent again.
-/
namespace Sys2Proof.Machine

theorem tdc_contents (d : Dev) (c : Tdc) (u : Nat) : (d.tdc c u).contents = d.contents := by simp [Dev.contents]

section
variable {d : Dev} {k : Nat × Nat} {seq i : Nat}

/-- A first replay from a SEQ that the buffer holds. -/
theorem replayFrom_first (hi : (d.link k).replay.findIdx? (fun x => x.seq == seq) = some i) (hlast : (d.link k).lastReplay ≠ some seq)
    (hlimit : 2 ≤ d.getF F.PRT_LNK_CFG_REPLAY_LIMIT [k.1, k.2]) : d.replayFrom k seq =
      ((d.setLink k { d.link k with resend := (d.link k).replay.drop i, lastReplay := some seq, replays := 1, ackAt := d.clk.now }).incSat
        F.PRT_LNK_REPLAY_COUNT [k.1, k.2]).tdc .linkReplay (portTackle k) := by
  simp [Dev.replayFrom, hi, hlast, Nat.not_le.mpr hlimit]

theorem replayFrom_first_spec (hi : (d.link k).replay.findIdx? (fun x => x.seq == seq) = some i) (hlast : (d.link k).lastReplay ≠ some seq)
    (hlimit : 2 ≤ d.getF F.PRT_LNK_CFG_REPLAY_LIMIT [k.1, k.2]) :
    ((d.replayFrom k seq).link k).resend = (d.link k).replay.drop i ∧ ((d.replayFrom k seq).link k).replay = (d.link k).replay ∧
    ((d.replayFrom k seq).link k).replays = 1 ∧ ((d.replayFrom k seq).link k).ackAt = d.clk.now ∧
    (d.replayFrom k seq).getF F.PRT_LNK_REPLAY_COUNT [k.1, k.2] = min (d.getF F.PRT_LNK_REPLAY_COUNT [k.1, k.2] + 1) (2 ^ 32 - 1) ∧
    (d.replayFrom k seq).portUp k = d.portUp k ∧ (d.replayFrom k seq).contents = d.contents := by
  rw [replayFrom_first hi hlast hlimit, link_of_net (tdc_net _ _ _), incSat_link, setLink_link]
  refine ⟨rfl, rfl, rfl, rfl, ?count, ?up, ?mem⟩
  case count => rw [tdc_getF _ _ _ _ _ (by decide), incSat_getF_same _ _ rfl, setLink_getF]
  case up => exact congrArg (· == 1) (by rw [tdc_getF _ _ _ _ _ (by decide), incSat_getF_reg _ _ _ _ _ (by decide), setLink_getF])
  case mem => rw [tdc_contents, incSat_contents, setLink_contents]

end

end Sys2Proof.Machine
end

section
/-!
The rows of flits in order, bad flits, NAKs and replays (R176, R177, R180, R183, R184).
-/
namespace Sys2Proof.Machine

section
variable {s : State} {p : Fin 8} {e : Fin 32} {flit : List (BitVec 8)} (hok : flitOk flit = true) (hup : s.dev.portUp (p.val, e.val) = true)
include hok hup

theorem completes_rxBadFlit {marked : Bool} (hbad : marked = true ∨ flitGood flit = false) :
    Completes (.rxBadFlit p e flit marked) s (fun d =>
      d.getF F.PRT_LNK_BAD_COUNT [p.val, e.val] = min (s.dev.getF F.PRT_LNK_BAD_COUNT [p.val, e.val] + 1) (2 ^ 32 - 1) ∧
      ((s.dev.link (p.val, e.val)).nakOut = none → (d.link (p.val, e.val)).nakOut = some s.dev.clk.now ∧ (d.link (p.val, e.val)).nakDue = true) ∧
      ((s.dev.link (p.val, e.val)).nakOut ≠ none → d.link (p.val, e.val) = (s.dev.link (p.val, e.val))) ∧
      SameRegs s.dev d [(F.PRT_LNK_BAD_COUNT, [p.val, e.val])] ∧ SameMem s.dev d) := by
  obtain ⟨hcount, hlink, hregs, hmem⟩ := badFlit_spec s.dev (p.val, e.val)
  have hdo : s.dev.rxBad (p.val, e.val) flit marked = s.dev.badFlit (p.val, e.val) := if_pos (by simpa [hup] using hbad)
  refine completes_of_flit rfl hok hdo ⟨hcount, fun hnak => ?asks, fun hnak => ?stays, hregs, sameMem_of_contents hmem⟩
  case asks =>
    rw [hlink, hnak]
    exact ⟨rfl, rfl⟩
  case stays => exact hlink.trans (if_pos (Option.isSome_iff_ne_none.mpr hnak))

theorem completes_rxDataFlit_dead (hdead : s.dev.rxDead (p.val, e.val) = true) :
    Completes (.rxDataFlit p e flit) s (fun d =>
      d.getF F.PRT_LNK_BAD_COUNT [p.val, e.val] = min (s.dev.getF F.PRT_LNK_BAD_COUNT [p.val, e.val] + 1) (2 ^ 32 - 1) ∧
      (d.link (p.val, e.val)).inq = (s.dev.link (p.val, e.val)).inq ∧ SameRegs s.dev d [(F.PRT_LNK_BAD_COUNT, [p.val, e.val])] ∧ SameMem s.dev d) := by
  obtain ⟨hcount, hlink, hregs, hmem⟩ := badFlit_spec s.dev (p.val, e.val)
  refine completes_of_flit rfl hok (rxFlit_dead _ hup hdead) ⟨hcount, ?_, hregs, sameMem_of_contents hmem⟩
  rw [hlink]
  split_ifs <;> rfl

variable (hdead : s.dev.rxDead (p.val, e.val) = false) (hgood : flitGood flit = true)
include hdead hgood

/-! ## DATA -/

theorem completes_rxDataFlit_whole {b : List Byte} (hty : (FlitHdr.dec flit).type = 1)
    (hseq : (FlitHdr.dec flit).seq = s.dev.getF F.PRT_LNK_STAT_RX_EXPECT [p.val, e.val]) (hsop : (FlitHdr.dec flit).sop = 1)
    (heop : (FlitHdr.dec flit).eop = 1) (hvalid : (FlitHdr.dec flit).valid ≤ 240) (hb : b = (flit.drop 16).take (FlitHdr.dec flit).valid)
    (h32 : 32 ≤ b.length) (hsize : b.length = (PktHdr.dec b).size) (hlen : (PktHdr.dec b).len ≤ 4096)
    (hopen : openIdx (s.dev.link (p.val, e.val)).inq ((FlitHdr.dec flit).tc == 0) = none) :
    Completes (.rxDataFlit p e flit) s (fun d =>
      d.getF F.PRT_LNK_STAT_RX_EXPECT [p.val, e.val] = (s.dev.getF F.PRT_LNK_STAT_RX_EXPECT [p.val, e.val] + 1) % 2 ^ 16 ∧
      (d.link (p.val, e.val)).ackSeq = (FlitHdr.dec flit).seq ∧ (d.link (p.val, e.val)).nakOut = none ∧
      (d.link (p.val, e.val)).inq = (s.dev.link (p.val, e.val)).inq ++
        [⟨(FlitHdr.dec flit).vc, (FlitHdr.dec flit).tc, b, true, none, none, false, .outside, 1⟩] ∧ SameMem s.dev d) := by
  obtain ⟨hinq, hack, hnak⟩ := inOrder_received s.dev (p.val, e.val) (FlitHdr.dec flit)
  have hexpect := inOrder_expect s.dev (p.val, e.val) (FlitHdr.dec flit)
  have hmem := inOrder_contents s.dev (p.val, e.val) (FlitHdr.dec flit)
  have hdo : s.dev.rxData (p.val, e.val) flit =
      (s.dev.inOrder (p.val, e.val) (FlitHdr.dec flit)).rxBytes (p.val, e.val) (FlitHdr.dec flit) (flit.drop 16) := by
    simp only [Dev.rxData, rxFlit_type _ hup hdead hgood hty, rxSeq_inOrder _ (p.val, e.val) _ hseq, if_true]
  generalize s.dev.inOrder (p.val, e.val) (FlitHdr.dec flit) = d at *
  have hwhole := rxBytes_whole d (p.val, e.val) (FlitHdr.dec flit) (hinq ▸ hopen) hsop heop hvalid hb h32 hsize hlen
  obtain ⟨hkinq, hkack, hknak⟩ := entered_keeps (d.link (p.val, e.val))
    ⟨(FlitHdr.dec flit).vc, (FlitHdr.dec flit).tc, b, true, none, none, false, .outside, 1⟩
  refine completes_of_flit rfl hok (hdo.trans hwhole) ⟨?expect, ?ack, ?nak, ?inq, ?mem⟩
  case expect => exact (setLink_getF _ _ _ _ _).trans hexpect
  case ack => rw [setLink_link, hkack, hack]
  case nak => rw [setLink_link, hknak, hnak]
  case inq => rw [setLink_link, hkinq, hinq]
  case mem => exact sameMem_of_contents ((setLink_contents _ _ _).trans hmem)

theorem completes_rxDataFlit_duplicate {back : Nat} (hty : (FlitHdr.dec flit).type = 1)
    (hback : back = (s.dev.getF F.PRT_LNK_STAT_RX_EXPECT [p.val, e.val] + 65536 - (FlitHdr.dec flit).seq) % 65536)
    (hnak : (s.dev.link (p.val, e.val)).nakOut = none) (h1 : 1 ≤ back) (h2 : back ≤ 32768) :
    Completes (.rxDataFlit p e flit) s (fun d =>
      d.getF F.PRT_LNK_DUP_COUNT [p.val, e.val] = min (s.dev.getF F.PRT_LNK_DUP_COUNT [p.val, e.val] + 1) (2 ^ 32 - 1) ∧
      SameRegs s.dev d [(F.PRT_LNK_DUP_COUNT, [p.val, e.val])] ∧ OnlyRegs s.dev d) := by
  have hdo : s.dev.rxData (p.val, e.val) flit = s.dev.incSat F.PRT_LNK_DUP_COUNT [p.val, e.val] := by
    simp only [Dev.rxData, rxFlit_type _ hup hdead hgood hty, rxSeq_duplicate _ (p.val, e.val) _ hback hnak h1 h2, Bool.false_eq_true, if_false]
  exact completes_of_flit rfl hok hdo ⟨incSat_getF_same _ _ rfl, sameRegs_setF (.head _) (sameRegs_refl _ _), rfl⟩

/-! ## ABORT -/

omit hok in
theorem rxAbortFlit_inOrder (hty : (FlitHdr.dec flit).type = 2)
    (hseq : (FlitHdr.dec flit).seq = s.dev.getF F.PRT_LNK_STAT_RX_EXPECT [p.val, e.val]) : s.dev.rxAbortFlit (p.val, e.val) flit =
      (s.dev.inOrder (p.val, e.val) (FlitHdr.dec flit)).rxAbort (p.val, e.val) (FlitHdr.dec flit) (Status.ofCode (leAt flit 16 1)) := by
  simp only [Dev.rxAbortFlit, rxFlit_type _ hup hdead hgood hty, rxSeq_inOrder _ (p.val, e.val) _ hseq, if_true]

theorem completes_rxAbortFlit_open {x : InPkt} (hty : (FlitHdr.dec flit).type = 2)
    (hseq : (FlitHdr.dec flit).seq = s.dev.getF F.PRT_LNK_STAT_RX_EXPECT [p.val, e.val]) (hinq : (s.dev.link (p.val, e.val)).inq = [x])
    (hcomplete : x.complete = false) (hlost : x.lost = none) (htc : (x.tc == 0) = ((FlitHdr.dec flit).tc == 0)) (hflight : x.flight = none)
    (hsop : (FlitHdr.dec flit).sop = 0) :
    Completes (.rxAbortFlit p e flit) s (fun d =>
      d.getF F.PRT_LNK_STAT_RX_EXPECT [p.val, e.val] = (s.dev.getF F.PRT_LNK_STAT_RX_EXPECT [p.val, e.val] + 1) % 2 ^ 16 ∧
      d.getF F.PRT_LNK_ABORT_RX_COUNT [p.val, e.val] = min (s.dev.getF F.PRT_LNK_ABORT_RX_COUNT [p.val, e.val] + 1) (2 ^ 32 - 1) ∧
      (∀ q ∈ (d.link (p.val, e.val)).inq, q.lost = some (Status.ofCode (leAt flit 16 1)) ∧ q.flits = 0) ∧ SameMem s.dev d) := by
  have hdo := rxAbortFlit_inOrder hup hdead hgood hty hseq
  have hin := (inOrder_received s.dev (p.val, e.val) (FlitHdr.dec flit)).1.trans hinq
  have hexpect := inOrder_expect s.dev (p.val, e.val) (FlitHdr.dec flit)
  have hcount := inOrder_getF s.dev (p.val, e.val) (FlitHdr.dec flit) F.PRT_LNK_ABORT_RX_COUNT [p.val, e.val] (by decide) (by decide)
  have hmem := inOrder_contents s.dev (p.val, e.val) (FlitHdr.dec flit)
  generalize s.dev.inOrder (p.val, e.val) (FlitHdr.dec flit) = d at *
  have hopen : openIdx (d.link (p.val, e.val)).inq ((FlitHdr.dec flit).tc == 0) = some 0 := by rw [hin, openIdx_single hcomplete hlost htc]
  have hlose := rxAbort_open d (p.val, e.val) (FlitHdr.dec flit) (Status.ofCode (leAt flit 16 1)) hopen hsop
  have htin := (abortTaken_inq d (p.val, e.val) (FlitHdr.dec flit)).trans hin
  have htread := abortTaken_getF d (p.val, e.val) (FlitHdr.dec flit)
  have htmem := abortTaken_contents d (p.val, e.val) (FlitHdr.dec flit)
  generalize d.abortTaken (p.val, e.val) (FlitHdr.dec flit) = c at *
  refine completes_of_flit rfl hok (hdo.trans hlose) ⟨?expect, ?count, loseIn_single _ _ _ ((congrArg LinkSt.inq (incSat_link _ _ _ _)).trans htin) hflight, ?mem⟩
  case expect => rw [loseIn_getF, incSat_getF_reg _ _ _ _ _ (by decide), htread, hexpect]
  case count => rw [loseIn_getF, incSat_getF_same _ _ rfl, htread, hcount]
  case mem => exact sameMem_of_contents ((loseIn_contents _ _ 0 _).trans ((incSat_contents _ _ _).trans (htmem.trans hmem)))

theorem completes_rxAbortFlit_none (hty : (FlitHdr.dec flit).type = 2)
    (hseq : (FlitHdr.dec flit).seq = s.dev.getF F.PRT_LNK_STAT_RX_EXPECT [p.val, e.val])
    (hopen : openIdx (s.dev.link (p.val, e.val)).inq ((FlitHdr.dec flit).tc == 0) = none) :
    Completes (.rxAbortFlit p e flit) s (fun d =>
      d.getF F.PRT_LNK_MALFORMED_COUNT [p.val, e.val] = min (s.dev.getF F.PRT_LNK_MALFORMED_COUNT [p.val, e.val] + 1) (2 ^ 32 - 1) ∧
      d.flag F.PRT_LNK_ERR_MALFORMED [p.val, e.val] = true ∧
      d.getF F.PRT_LNK_ABORT_RX_COUNT [p.val, e.val] = s.dev.getF F.PRT_LNK_ABORT_RX_COUNT [p.val, e.val] ∧ SameMem s.dev d) := by
  have hdo := rxAbortFlit_inOrder hup hdead hgood hty hseq
  have hinq := (inOrder_received s.dev (p.val, e.val) (FlitHdr.dec flit)).1
  have hread (g : Field) := inOrder_getF s.dev (p.val, e.val) (FlitHdr.dec flit) g [p.val, e.val]
  have hmem := inOrder_contents s.dev (p.val, e.val) (FlitHdr.dec flit)
  generalize s.dev.inOrder (p.val, e.val) (FlitHdr.dec flit) = d at *
  have hnone := rxAbort_none d (p.val, e.val) (FlitHdr.dec flit) (Status.ofCode (leAt flit 16 1)) (hinq ▸ hopen)
  have htread := abortTaken_getF d (p.val, e.val) (FlitHdr.dec flit)
  have htmem := abortTaken_contents d (p.val, e.val) (FlitHdr.dec flit)
  generalize d.abortTaken (p.val, e.val) (FlitHdr.dec flit) = c at *
  obtain ⟨hcount, hflag, habort, hkeep⟩ := malformed_spec c (p.val, e.val) []
  refine completes_of_flit rfl hok (hdo.trans hnone) ⟨?count, hflag, ?abort, sameMem_of_contents (hkeep.trans (htmem.trans hmem))⟩
  case count => rw [hcount, htread, hread _ (by decide) (by decide)]
  case abort => rw [habort, htread, hread _ (by decide) (by decide)]

/-! ## NAK -/

theorem completes_rxNakFlit {l : LinkSt} {i : Nat} (hty : (FlitHdr.dec flit).type = 3)
    (hl : l = (s.dev.link (p.val, e.val)).acked s.dev.clk.now (FlitHdr.dec flit).ack)
    (hi : l.replay.findIdx? (fun x => x.seq == leAt flit 16 2) = some i) (hlast : l.lastReplay ≠ some (leAt flit 16 2))
    (hlimit : 2 ≤ s.dev.getF F.PRT_LNK_CFG_REPLAY_LIMIT [p.val, e.val]) :
    Completes (.rxNakFlit p e flit) s (fun d => (d.link (p.val, e.val)).resend = l.replay.drop i ∧ (d.link (p.val, e.val)).replay = l.replay ∧
      (d.link (p.val, e.val)).replays = 1 ∧
      d.getF F.PRT_LNK_REPLAY_COUNT [p.val, e.val] = min (s.dev.getF F.PRT_LNK_REPLAY_COUNT [p.val, e.val] + 1) (2 ^ 32 - 1) ∧
      d.portUp (p.val, e.val) = true ∧ SameMem s.dev d) := by
  have hdo : s.dev.rxNak (p.val, e.val) flit = (s.dev.rxFields (p.val, e.val) (FlitHdr.dec flit)).replayFrom (p.val, e.val) (leAt flit 16 2) :=
    rxFlit_type _ hup hdead hgood hty
  have hlink := (rxFields_link s.dev (p.val, e.val) (FlitHdr.dec flit)).trans hl.symm
  have hread (g : Field) := rxFields_getF s.dev (p.val, e.val) (FlitHdr.dec flit) g [p.val, e.val]
  have hkeep := rxFields_contents s.dev (p.val, e.val) (FlitHdr.dec flit)
  generalize s.dev.rxFields (p.val, e.val) (FlitHdr.dec flit) = d at *
  subst hlink
  obtain ⟨hresend, hreplay, hreplays, -, hcount, hsame, hmem⟩ :=
    replayFrom_first_spec hi hlast (hlimit.trans_eq (hread F.PRT_LNK_CFG_REPLAY_LIMIT (by decide)).symm)
  refine completes_of_flit rfl hok hdo ⟨hresend, hreplay, hreplays, ?count, ?up, sameMem_of_contents (hmem.trans hkeep)⟩
  case count => rw [hcount, hread _ (by decide)]
  case up => exact (hsame.trans (congrArg (· == 1) (hread F.PRT_PORT_STAT_UP (by decide)))).trans hup

end

theorem completes_ackTimeout {s : State} {p : Fin 8} {e : Fin 32} {x : SentFlit} {rest : List SentFlit} (hup : s.dev.portUp (p.val, e.val) = true)
    (hnak : (s.dev.link (p.val, e.val)).nakOut = none) (hreplay : (s.dev.link (p.val, e.val)).replay = x :: rest)
    (hlast : (s.dev.link (p.val, e.val)).lastReplay ≠ some x.seq)
    (hdue : (s.dev.link (p.val, e.val)).ackAt + us (s.dev.getF F.PRT_LNK_CFG_ACK_TIMEOUT [p.val, e.val]) ≤ s.dev.clk.now)
    (hlimit : 2 ≤ s.dev.getF F.PRT_LNK_CFG_REPLAY_LIMIT [p.val, e.val]) :
    Completes (.ackTimeout p e) s (fun d => (d.link (p.val, e.val)).resend = x :: rest ∧ (d.link (p.val, e.val)).ackAt = s.dev.clk.now ∧
      (d.link (p.val, e.val)).replays = 1 ∧
      d.getF F.PRT_LNK_REPLAY_COUNT [p.val, e.val] = min (s.dev.getF F.PRT_LNK_REPLAY_COUNT [p.val, e.val] + 1) (2 ^ 32 - 1) ∧
      d.portUp (p.val, e.val) = true ∧ SameMem s.dev d) := by
  have hi : (s.dev.link (p.val, e.val)).replay.findIdx? (fun y => y.seq == x.seq) = some 0 := by simp [hreplay, List.findIdx?_cons]
  have hdo : s.dev.ackTimeoutEvent (p.val, e.val) = s.dev.replayFrom (p.val, e.val) x.seq := by
    simp [Dev.ackTimeoutEvent, hup, hnak, hreplay, Dev.ackTimeout, hdue]
  obtain ⟨hresend, -, hreplays, hat, hcount, hsame, hmem⟩ := replayFrom_first_spec hi hlast hlimit
  exact completes_of_eq rfl hdo ⟨hresend.trans hreplay, hat, hreplays, hcount, hsame.trans hup, sameMem_of_contents hmem⟩

/-- Settles O22: a flit in order moves the port on and then does what its TYPE says, and a replay starts from a SEQ of the buffer. -/
theorem flitsInOrderDuplicatesAndReplay : Obligations.FlitsInOrderDuplicatesAndReplay := by
  refine ⟨?whole, ?duplicate, ?bad, ?abort, ?stray, ?dead, ?nak, ?timeout⟩
  case whole =>
    exact fun _ _ _ _ _ hok hup hdead hgood hty hseq hsop heop hvalid hb h32 hsize hlen hopen =>
      completes_rxDataFlit_whole hok hup hdead hgood hty hseq hsop heop hvalid hb h32 hsize hlen hopen
  case duplicate =>
    exact fun _ _ _ _ _ hok hup hdead hgood hty hback _ hnak h1 h2 => completes_rxDataFlit_duplicate hok hup hdead hgood hty hback hnak h1 h2
  case bad => exact fun _ _ _ _ _ hok hup hbad => completes_rxBadFlit hok hup hbad
  case abort =>
    exact fun _ _ _ _ _ hok hup hdead hgood hty hseq hinq hcomplete hlost htc hflight hsop =>
      completes_rxAbortFlit_open hok hup hdead hgood hty hseq hinq hcomplete hlost htc hflight hsop
  case stray => exact fun _ _ _ _ hok hup hdead hgood hty hseq hopen => completes_rxAbortFlit_none hok hup hdead hgood hty hseq hopen
  case dead => exact fun _ _ _ _ hok hup hdead => completes_rxDataFlit_dead hok hup hdead
  case nak => exact fun _ _ _ _ _ _ hok hup hdead hgood hty hl hi hlast hlimit => completes_rxNakFlit hok hup hdead hgood hty hl hi hlast hlimit
  case timeout => exact fun _ _ _ _ _ hup hnak hreplay hlast hdue hlimit => completes_ackTimeout hup hnak hreplay hlast hdue hlimit

end Sys2Proof.Machine
end

section
/-!
What accesses to memory and seals leave of the packets, the flows and the hosts.
-/
namespace Sys2Proof.Machine

/-- The network and the hosts: nothing that an access to memory changes. -/
def Dev.traffic (d : Dev) : NetSt × HostSt := (d.net, d.host)

theorem wake_traffic (d : Dev) (p : Place) : (d.wake p).traffic = d.traffic := by
  have hbank (sail : Bool) (die b : Nat) : (d.wakeBank sail die b).traffic = d.traffic := by
    unfold Dev.wakeBank
    split_ifs <;> rfl
  cases p with
  | stack n =>
    show (d.wakeStack n).traffic = d.traffic
    unfold Dev.wakeStack
    dsimp only
    split_ifs <;> rfl
  | sail s b => exact hbank true s b
  | base n b => exact hbank false n b
  | _ => rfl

theorem meet_traffic (d : Dev) (p : Place) : (d.meet p).traffic = d.traffic := by
  unfold Dev.meet
  split_ifs <;> rfl

theorem countRead_traffic (d : Dev) (p : Place) (a n : Nat) : (d.countRead p a n).traffic = d.traffic := by cases p <;> rfl

theorem load_traffic (d : Dev) (a n : Nat) : (d.load a n).2.traffic = d.traffic :=
  foldl_keeps (g := Dev.traffic) (fun d p => (meet_traffic _ p).trans ((countRead_traffic _ p a n).trans (wake_traffic d p))) _ d

theorem countWrite_traffic (d : Dev) (a n : Nat) : (d.countWrite a n).traffic = d.traffic := by
  unfold Dev.countWrite
  split <;> rfl

theorem storePieces_traffic (w : Writes) (f : Nat) (d : Dev) (a : Nat) (l : List Byte) :
    (Dev.storePieces w f d a l).1.traffic = d.traffic := by
  induction f generalizing d a l with
  | zero => rfl
  | succ f ih =>
    have hmeet : ((d.wake (place a)).meet (place a)).traffic = d.traffic := (meet_traffic _ _).trans (wake_traffic d _)
    rw [Dev.storePieces]
    dsimp only
    split_ifs
    · rfl
    · exact (ih _ _ _).trans ((countWrite_traffic _ _ _).trans hmeet)
    · exact (ih _ _ _).trans hmeet

theorem store_traffic (d : Dev) (w : Writes) (a : Nat) (l : List Byte) : (d.store w a l).1.traffic = d.traffic :=
  storePieces_traffic w 1024 d a l

theorem net_of_traffic {d e : Dev} (h : e.traffic = d.traffic) : e.net = d.net := congrArg Prod.fst h

end Sys2Proof.Machine
end

section
/-!
Requests at an internal endpoint (R36, R192, R194, R195, R198, R355).
-/
namespace Sys2Proof.Machine

/-- The first packet at a ready endpoint is the row's. -/
theorem receive_first {d : Dev} {x : Dest} {op : Nat} {want : Arrival → Bool} {a : Arrival} (f : Dev → Arrival → Dev) (hfirst : d.firstAt x = some a)
    (hop : a.hdr.op = op) (hwant : want a = true) (hready : d.endpointReady a.hdr = true) : d.receive x op want f = f d a := by
  simp [Dev.receive, hfirst, hop, hwant, hready]

/-- A place that an endpoint other than the Mast takes is a stack or a bank, so that a granted write of it is admitted. -/
theorem placeAdmits_of_takesPlace {x : Dest} {q : Place} (d : Dev) (hx : x ≠ .mast) (h : x.takesPlace q = true) : d.placeAdmits .granted q = true := by
  cases q with
  | stack n => rfl
  | sail s b => rfl
  | base n b => rfl
  | _ => cases x <;> simp_all [Dest.takesPlace]

theorem placesOf_zero (a : Nat) : placesOf a 0 = [] := by simp [placesOf, placesUpTo]

/-- A write of a packet that its endpoint takes, granted with its first cell, is admitted (R355). -/
theorem mayStore_of_takes {x : Dest} {a n : Nat} (d : Dev) (hx : x ≠ .mast) (htakes : x.takes a n = true) (hend : a + n ≤ placeEnd a) :
    d.mayStore .granted a n = true := by
  simp only [Dest.takes, Bool.and_eq_true, List.all_eq_true] at htakes
  obtain ⟨-, hall⟩ := htakes
  have hcan : d.canWrite .granted a n = true := by
    rcases Nat.eq_zero_or_pos n with rfl | hn
    · rw [Dev.canWrite, placesOf_zero]; rfl
    · rw [Nat.max_eq_right hn] at hall
      exact List.all_eq_true.mpr fun q hq => placeAdmits_of_takesPlace d hx (hall q hq)
  rw [Dev.mayStore, hcan, decide_eq_true hend]
  rfl

/-- A packet of the device's own enters whole at its source. -/
theorem sendPkt_link (d : Dev) (k : Nat × Nat) (h : PktHdr) (rest : List Byte) (o : Origin) :
    ((d.sendPkt k h rest o).link k).inq = (d.link k).inq ++ [⟨(opVc h.op).getD 0, h.tc, h.enc ++ rest, true, none, none, false, o, 0⟩] :=
  (congrArg LinkSt.inq (setLink_link d k _) :)

section
variable {s : State} {n : Fin 25} {a : Arrival} (hfirst : s.dev.firstAt (destOf n.val) = some a) (hready : s.dev.endpointReady a.hdr = true)
include hfirst hready

/-! ## PUT -/

theorem putReceive_granted (hop : a.hdr.op = opPUT) (htakes : (destOf n.val).takes a.hdr.raddr a.hdr.len = true) (hmast : destOf n.val ≠ .mast)
    (hstop : s.dev.memStopped a.hdr.raddr a.hdr.len = none) (hserved : s.dev.memServed a.hdr.raddr a.hdr.len = true) (hgrant : a.granted = true)
    (hack : a.hdr.ackReq = 1) (hseal : a.hdr.sealB = 0) :
    s.dev.putReceive (destOf n.val) = ((s.dev.takeArrival a).store .granted a.hdr.raddr a.payload).1.putAck a.hdr .ok := by
  rw [Dev.putReceive, receive_first _ hfirst hop rfl hready]
  simp [htakes, hmast, hstop, hserved, hgrant, hack, hseal]

theorem completes_putReceive (hop : a.hdr.op = opPUT) (htakes : (destOf n.val).takes a.hdr.raddr a.hdr.len = true) (hmast : destOf n.val ≠ .mast)
    (hstop : s.dev.memStopped a.hdr.raddr a.hdr.len = none) (hserved : s.dev.memServed a.hdr.raddr a.hdr.len = true) (hgrant : a.granted = true)
    (hlen : a.bytes.length = a.hdr.len) (hend : a.hdr.raddr + a.hdr.len ≤ placeEnd a.hdr.raddr) (hack : a.hdr.ackReq = 1) (hseal : a.hdr.sealB = 0) :
    Completes (.putReceive n) s (fun d => (∀ i : Nat, i < a.hdr.len → some (d.byte (a.hdr.raddr + i)) = a.bytes[i]?) ∧
      SameMemBut s.dev d a.hdr.raddr a.hdr.len ∧ d.net.arrivals = s.dev.net.arrivals.erase a ∧
      (∃ x ra, (d.link (answerSrc a.hdr.flow)).inq = (s.dev.link (answerSrc a.hdr.flow)).inq ++ [x] ∧
        x.bytes = (answerHdr a.hdr opPUT_ACK .ok ra 0).enc)) := by
  have hpay : a.payload = a.bytes := List.take_of_length_le hlen.le
  have hdo := putReceive_granted hfirst hready hop htakes hmast hstop hserved hgrant hack hseal
  have hmay : (s.dev.takeArrival a).mayStore .granted a.hdr.raddr a.bytes.length = true := hlen ▸ mayStore_of_takes _ hmast htakes hend
  obtain ⟨-, hstored⟩ := store_stored _ _ _ _ hmay
  have hout := store_sameMemBut (s.dev.takeArrival a) .granted a.hdr.raddr a.bytes
  have hnet := net_of_traffic (store_traffic (s.dev.takeArrival a) .granted a.hdr.raddr a.bytes)
  rw [hpay] at hdo
  generalize ((s.dev.takeArrival a).store .granted a.hdr.raddr a.bytes).1 = d at *
  refine completes_of_eq rfl hdo ⟨fun i hi => hstored i (hlen ▸ hi), fun b hb => hout b (hlen ▸ hb), congrArg NetSt.arrivals hnet, ?answer⟩
  case answer =>
    have hlink : d.link (answerSrc a.hdr.flow) = s.dev.link (answerSrc a.hdr.flow) := link_of_net hnet _
    exact ⟨_, d.freeNum.1 % 2 ^ 48, (sendPkt_link d.freeNum.2 _ _ _ _).trans (congrArg (·.inq ++ _) hlink), List.append_nil _⟩

/-! ## GET -/

theorem completes_getReceive {m : Nat} (hop : a.hdr.op = opGET) (hm : m = leAt a.bytes 8 4) (htakes : (destOf n.val).takes a.hdr.raddr m = true)
    (hmast : destOf n.val ≠ .mast) (hstop : s.dev.memStopped a.hdr.raddr m = none) (hserved : s.dev.memServed a.hdr.raddr m = true) :
    Completes (.getReceive n) s (fun d => d.net.arrivals = s.dev.net.arrivals.erase a ∧
      (∃ x, (d.link (answerSrc a.hdr.flow)).inq = (s.dev.link (answerSrc a.hdr.flow)).inq ++ [x] ∧
        x.bytes = (answerHdr a.hdr opGET_DATA .ok (leAt a.bytes 0 8 % 2 ^ 56) (s.dev.read a.hdr.raddr m).length).enc ++ s.dev.read a.hdr.raddr m) ∧
      SameMem s.dev d) := by
  subst hm
  have hdo : s.dev.getReceive (destOf n.val) = ((s.dev.takeArrival a).load a.hdr.raddr (leAt a.bytes 8 4)).2.getData a.hdr (leAt a.bytes 0 8) .ok
      ((s.dev.takeArrival a).load a.hdr.raddr (leAt a.bytes 8 4)).1 := by
    rw [Dev.getReceive, receive_first _ hfirst hop rfl hready]
    simp [htakes, hmast, hstop, hserved]
  have hread : ((s.dev.takeArrival a).load a.hdr.raddr (leAt a.bytes 8 4)).1 = s.dev.read a.hdr.raddr (leAt a.bytes 8 4) := rfl
  rw [hread] at hdo
  have hnet := net_of_traffic (load_traffic (s.dev.takeArrival a) a.hdr.raddr (leAt a.bytes 8 4))
  have hbytes := (load_keepsBytes (s.dev.takeArrival a) a.hdr.raddr (leAt a.bytes 8 4)).sameMem
  generalize ((s.dev.takeArrival a).load a.hdr.raddr (leAt a.bytes 8 4)).2 = d at *
  have hlink : d.link (answerSrc a.hdr.flow) = s.dev.link (answerSrc a.hdr.flow) := link_of_net hnet _
  refine completes_of_eq rfl hdo ⟨congrArg NetSt.arrivals hnet, ⟨_, (sendPkt_link d _ _ _ _).trans (congrArg (·.inq ++ _) hlink), rfl⟩, hbytes⟩

/-! ## NOTIFY -/

theorem completes_notifyReceive {fl : Flow} {ring : Nat} (hop : a.hdr.op = opNOTIFY) (hhead : s.dev.headless = false) (hraddr : a.hdr.raddr = 0)
    (hcm : a.hdr.cm = 0) (hflow : s.dev.flow a.hdr.flow = some fl) (hring : fl.ring = some ring) (hctr : fl.ctr = none) :
    Completes (.notifyReceive n) s (fun d => d.host.recs = s.dev.host.recs ++ [⟨ring, leBytes 4 40 ++ leBytes 1 0x40 ++ leBytes 3 0 ++
        noticeBytes kindUSER 0 (s.dev.addr (destOf n.val).endpoint) a.hdr.flow 0 (leAt a.bytes 0 8) s.dev.fabTime, none⟩] ∧
      SameRegs s.dev d [] ∧ SameMem s.dev d) := by
  have hdo : s.dev.notifyReceive (destOf n.val) = (s.dev.takeArrival a).queueRecs [⟨ring, leBytes 4 40 ++ leBytes 1 0x40 ++ leBytes 3 0 ++
      noticeBytes kindUSER 0 (s.dev.addr (destOf n.val).endpoint) a.hdr.flow 0 (leAt a.bytes 0 8) s.dev.fabTime, none⟩] := by
    have hfl : (s.dev.takeArrival a).flow a.hdr.flow = some fl := hflow
    have hland : s.dev.landing (destOf n.val) a.hdr.raddr a.granted = .record := if_pos hraddr
    have hcount : (s.dev.takeArrival a).noticeCtr a.hdr.flow = s.dev.takeArrival a := by simp [Dev.noticeCtr, hfl, hctr]
    rw [Dev.notifyReceive, receive_first _ hfirst hop rfl hready]
    simp only [hflow, Option.bind_some, hctr, Option.any_none, Bool.false_and, Bool.false_eq_true, if_false, hland, hcount]
    rw [Dev.echoMark, if_pos hcm, Dev.landNotice, if_pos hraddr, Dev.noticeRec, hfl, Option.bind_some, hring]
    exact addRec_serving ring _ none hhead
  exact completes_of_eq rfl hdo ⟨rfl, sameRegs_of_regs (sameRegs_refl _ _) rfl, fun _ => rfl⟩

end

/-- Settles O31: the first packet at a ready endpoint has the effect of its row. -/
theorem endpointsTakeRequests : Obligations.EndpointsTakeRequests := by
  refine ⟨?put, ?get, ?notify⟩
  case put =>
    exact fun _ _ _ hfirst hop hready htakes hmast hstop hserved hgrant hlen hend hack hseal =>
      completes_putReceive hfirst hready hop htakes hmast hstop hserved hgrant hlen hend hack hseal
  case get =>
    exact fun _ _ _ _ hfirst hop hready hm htakes hmast hstop hserved => completes_getReceive hfirst hready hop hm htakes hmast hstop hserved
  case notify =>
    exact fun _ _ _ _ _ hfirst hop hready hhead hraddr hcm hflow hring hctr =>
      completes_notifyReceive hfirst hready hop hhead hraddr hcm hflow hring hctr

end Sys2Proof.Machine
end

section
/-!
The end of an engine's command whose accesses were served, whatever else it changed, and what it leaves of the network.
-/
namespace Sys2Proof.Machine

theorem pumpSeals_traffic (d : Dev) (t : Nat) : (d.pumpSeals t).traffic = d.traffic := by
  unfold Dev.pumpSeals
  dsimp only
  split_ifs <;> rfl

theorem feedSeals_traffic (d : Dev) (t : Nat) (r : Run) (write : Bool) (runs : List (Nat × Nat)) :
    (d.feedSeals t r write runs).traffic = d.traffic := by
  unfold Dev.feedSeals Dev.feedSealsAs Dev.feedPieces
  exact (apply_ite Dev.traffic _ _ _).trans ((ite_congr rfl (fun _ => rfl) fun _ => pumpSeals_traffic _ t).trans (ite_self _))

section
variable {d : Dev} {t k o : Nat} {r : Run} {x : Dec} {f : Dev → Run → Dec → Sel → Dev × Run} {y : Dev × Run}

/-- An effect that met no island out of service leaves the network as it made it. -/
theorem effect_net {ok : Nat → Bool} {f : Dev → Run → Dev × Run} (hx : d.executes t k o r) (ho : ok o = true) (hf : f d r = y)
    (hmet : y.1.bank.met = 0) : (d.effect t k ok f).net = y.1.net := by
  obtain ⟨l, hl⟩ := releaseDone_board ((y.1.setRun t y.2).pumpSeals t) t y.2
  rw [effect_of_executes hx ho hf, metEnd_served hmet, hl]
  exact net_of_traffic (pumpSeals_traffic (y.1.setRun t y.2) t)

theorem engineOp_settled (hx : d.executes t k o r) (hd : r.dec t = some x) (hf : f d r x (r.sel x) = y) (hrun : y.1.runAt t k = some r)
    (hmet : y.1.bank.met = 0) (hs : y.2.slot = r.slot) :
    Settled t k y.1 y.2 (d.engineOp t k o f) ∧ (d.engineOp t k o f).net = y.1.net :=
  ⟨And.left <| effect_ends (ok := (· == o)) hx.1 (Bool.or_eq_true_iff.mpr (.inl hx.2)) (beq_self_eq_true o) (by simp only [hd, hf]) hrun hmet hs,
    effect_net hx (beq_self_eq_true o) (by simp only [hd, hf]) hmet⟩

end

/-! ## Reads of memory that is served -/

section
variable {b : Nat} {d e : Dev} {a n : Nat}

theorem Accesses.memStopped (h : Accesses b d e) (a n : Nat) : e.memStopped a n = d.memStopped a n := by
  have hstop : e.islandStopped = d.islandStopped := funext fun g => by rw [Dev.islandStopped, h.islandOn, h.clk, Dev.islandStopped]
  rw [Dev.memStopped, hstop, Dev.memStopped]

theorem Accesses.memServed (h : Accesses b d e) (a n : Nat) : e.memServed a n = d.memServed a n := by
  have hready (k : Nat) : e.stackReady k = d.stackReady k := congrArg (bit · k) (h.regs F.MST_READY_STACK_STACK [] rfl)
  refine congrArg ((placesOf a n).all ·) (funext fun p => ?_)
  rw [h.islandOn]
  cases p with
  | stack k => exact congrArg (d.islandOn _ && ·) (hready k)
  | _ => rfl

theorem placeAnswer_of_memServed (h : d.memServed a n = true) : ∀ p ∈ placesOf a n, d.placeAnswer p ≤ 0 := by
  intro p hp
  have hon := (Bool.and_eq_true_iff.mp (List.all_eq_true.mp h p hp)).1
  simp [Dev.placeAnswer, hon]

/-- A read of bytes that can be served meets no island out of service (R22). -/
theorem load_served (h : d.memServed a n = true) : Accesses 0 d (d.load a n).2 := by
  have go (l : List Place) (d : Dev) (hl : ∀ p ∈ l, d.placeAnswer p ≤ 0) :
      Accesses 0 d (l.foldl (fun d p => ((d.wake p).countRead p a n).meet p) d) := by
    induction l generalizing d with
    | nil => exact .refl 0 d
    | cons p t ih =>
      have hcount := (wake_accesses d p).trans (countRead_accesses _ p a n)
      have hone := hcount.trans (meet_accesses _ p ((hcount.placeAnswer p).le.trans (hl p List.mem_cons_self)))
      exact hone.trans (ih _ fun q hq => (hone.placeAnswer q).le.trans (hl q (List.mem_cons_of_mem _ hq)))
  exact go _ d (placeAnswer_of_memServed h)

/-- Below the capstan window a read gives the bytes of memory. -/
theorem read_of_sameMem (ha : a < 0x300000000000) (h : SameMem d e) : e.read a n = d.read a n := by
  rw [read_memory e n ha, read_memory d n ha]
  exact List.map_congr_left fun i _ => h _

end

end Sys2Proof.Machine
end

section
/-!
The packets of a fabric command (R192, R388, R439, R440, R441).
-/
namespace Sys2Proof.Machine

/-! ## Free numbers taken on the way -/

/-- The device with its counter of free numbers at `n`. -/
def Dev.drawn (d : Dev) (n : Nat) : Dev := { d with freeCtr := n }

theorem drawn_memStopped (d : Dev) (m a n : Nat) : (d.drawn m).memStopped a n = d.memStopped a n := rfl

theorem drawn_memServed (d : Dev) (m a n : Nat) : (d.drawn m).memServed a n = d.memServed a n := rfl

theorem paceAt_drawn {d : Dev} {x : Flow} {flits : Nat} (h : (d.paceAt x flits).1.isSome = true) : ∃ u n, d.paceAt x flits = (some u, d.drawn n) := by
  obtain ⟨u, hu⟩ := Option.isSome_iff_exists.mp h
  have hdev : ∃ n, (d.paceAt x flits).2 = d.drawn n := by
    unfold Dev.paceAt
    split
    · exact ⟨_, rfl⟩
    · dsimp only
      split_ifs <;> exact ⟨_, rfl⟩
  obtain ⟨n, hn⟩ := hdev
  exact ⟨u, n, Prod.ext hu hn⟩

/-- When a flow may send depends on the time and on the next free number alone. -/
theorem paceAt_congr {d e : Dev} (hclk : e.clk = d.clk) (hctr : e.freeCtr = d.freeCtr) (x : Flow) (flits : Nat) :
    (e.paceAt x flits).1 = (d.paceAt x flits).1 := by
  unfold Dev.paceAt Dev.freeNum
  rw [hclk, hctr]
  split
  · rfl
  · dsimp only
    split_ifs <;> rfl

theorem tagFor_drawn (d : Dev) (x : Flow) : ∃ tag n, d.tagFor x = (tag, d.drawn n) := ⟨_, _, rfl⟩

/-! ## One packet -/

section
variable (d : Dev) (l : List Byte) (fl : Flow) (tag p : Nat)

theorem fabPacket_device : (d.fabPacket l fl tag p).2 = if opcode l - 0x3F = opPUT then (d.load (fabSrc l p).1 (fabSrc l p).2).2 else d := by
  unfold Dev.fabPacket
  dsimp only
  split_ifs <;> rfl

/-- The header of a packet names the device's own address, and nothing else of the device. -/
theorem fabPacket_header {e : Dev} (h : e.net = d.net) : (e.fabPacket l fl tag p).1.1 = (d.fabPacket l fl tag p).1.1 := by
  have haddr : e.addr 37 = d.addr 37 := by rw [Dev.addr, h, Dev.addr]
  unfold Dev.fabPacket
  rw [haddr]
  dsimp only
  split_ifs <;> rfl

/-- The payload of a packet is of the command itself, but for a PUT, which reads it. -/
theorem fabPacket_payload {e : Dev} (h : opcode l - 0x3F = opPUT → e.read (fabSrc l p).1 (fabSrc l p).2 = d.read (fabSrc l p).1 (fabSrc l p).2) :
    (e.fabPacket l fl tag p).1.2.1 = (d.fabPacket l fl tag p).1.2.1 := by
  have hload (c : Dev) : (c.load (fabSrc l p).1 (fabSrc l p).2).1 = c.read (fabSrc l p).1 (fabSrc l p).2 := rfl
  unfold Dev.fabPacket
  by_cases hput : opcode l - 0x3F = opPUT
  · rw [if_pos hput, if_pos hput]
    simp only [hload, h hput]
  · by_cases hget : opcode l - 0x3F = opGET
    · rw [if_neg hput, if_neg hput, if_pos hget, if_pos hget]
    · rw [if_neg hput, if_neg hput, if_neg hget, if_neg hget]

end

/-- Packet `p` of command `g` leaves on flow `fl` with a TAG, at a time. -/
def Dev.launched (d : Dev) (t : Nat) (g : Cmd) (fl : Flow) (u tag p : Nat) : Dev :=
  ((d.fabPacket g.bytes fl tag p).2.setFlow (flowOf g.bytes) { fl with outstanding := fl.outstanding ++ [tag], lastAt := some u }).sendPkt
    (engineSrc t) (d.fabPacket g.bytes fl tag p).1.1 (d.fabPacket g.bytes fl tag p).1.2.1 (.engine t g.uid p)

/-- A run has one request more. -/
def Run.asked (r : Run) (q : Req) : Run := { r with sent := r.sent + 1, reqs := r.reqs ++ [q] }

/-- With room for a request, its flow's pace and, for a PUT, its source in service a run sends its next packet. -/
theorem sendNext_launches {d : Dev} {t p : Nat} {r : Run} {x : Dec} {fl : Flow} (hp : (r.packets x)[r.sent]? = some p)
    (hflow : d.flow (flowOf r.cmd.bytes) = some fl) (hroom : fl.outstanding.length < 4096) (hout : d.engineOut t < 4096)
    (hpace : (d.paceAt fl (fabFlits r.cmd.bytes p)).1.isSome = true)
    (hsrc : opcode r.cmd.bytes = 0x40 → d.memStopped (fabSrc r.cmd.bytes p).1 (fabSrc r.cmd.bytes p).2 = none ∧
      d.memServed (fabSrc r.cmd.bytes p).1 (fabSrc r.cmd.bytes p).2 = true) :
    ∃ n u tag q, d.sendNext t r x = ((d.drawn n).launched t r.cmd fl u tag p, r.asked q) := by
  obtain ⟨u, m, hpaced⟩ := paceAt_drawn hpace
  obtain ⟨tag, n, htag⟩ := tagFor_drawn (d.drawn m) fl
  refine ⟨n, u, tag, ⟨((d.drawn n).fabPacket r.cmd.bytes fl tag p).1.1.op, flowOf r.cmd.bytes, tag, p,
    ((d.drawn n).fabPacket r.cmd.bytes fl tag p).1.2.2.1, ((d.drawn n).fabPacket r.cmd.bytes fl tag p).1.2.2.2,
    (((d.drawn n).fabPacket r.cmd.bytes fl tag p).2).clk.now, none⟩, ?_⟩
  have hstop : (opcode r.cmd.bytes = 0x40 && ((d.drawn m).memStopped (fabSrc r.cmd.bytes p).1 (fabSrc r.cmd.bytes p).2).isSome) = false := by
    by_cases ho : opcode r.cmd.bytes = 0x40
    · rw [drawn_memStopped, (hsrc ho).1, Option.isSome_none, Bool.and_false]
    · rw [decide_eq_false ho, Bool.false_and]
  have hserved : (opcode r.cmd.bytes = 0x40 && !(d.drawn m).memServed (fabSrc r.cmd.bytes p).1 (fabSrc r.cmd.bytes p).2) = false := by
    by_cases ho : opcode r.cmd.bytes = 0x40
    · rw [drawn_memServed, (hsrc ho).2, Bool.not_true, Bool.and_false]
    · rw [decide_eq_false ho, Bool.false_and]
  have hfull : (decide (4096 ≤ fl.outstanding.length) || decide (4096 ≤ d.engineOut t)) = false := by
    rw [decide_eq_false (Nat.not_le.mpr hroom), decide_eq_false (Nat.not_le.mpr hout), Bool.or_false]
  unfold Dev.sendNext
  dsimp only
  rw [hp, hflow]
  dsimp only
  rw [hfull, hpaced]
  dsimp only
  rw [hstop, hserved, htag]
  rfl

/-! ## What has been sent -/

/-- Packet `p` of command `g` has entered whole at the engine's source of tackle `t`, its request is outstanding on flow `fl`, and
memory stands. -/
structure Sent (t p : Nat) (g : Cmd) (fl : Flow) (d e : Dev) : Prop where
  packet : ∃ tag z rest, (e.link (engineSrc t)).inq = (d.link (engineSrc t)).inq ++ [z] ∧ z.complete = true ∧
    z.bytes = (d.fabPacket g.bytes fl tag p).1.1.enc ++ rest ∧
    ((opcode g.bytes = 0x40 → (fabSrc g.bytes p).1 < 0x300000000000) → rest = (d.fabPacket g.bytes fl tag p).1.2.1)
  flow : ∃ u tag, e.flow (flowOf g.bytes) = some { fl with outstanding := fl.outstanding ++ [tag], lastAt := some u }
  bytes : KeepsBytes d e

theorem opPUT_iff {l : List Byte} : opcode l - 0x3F = opPUT ↔ opcode l = 0x40 := by
  unfold opPUT
  omega

section
variable {d : Dev} {t p : Nat} {g : Cmd} {fl : Flow}
  (hserved : opcode g.bytes = 0x40 → d.memServed (fabSrc g.bytes p).1 (fabSrc g.bytes p).2 = true)

/-- To build a packet is at most to read its payload. -/
theorem fabPacket_reads (l : List Byte) (tag : Nat) (h : opcode l = 0x40 → d.memServed (fabSrc l p).1 (fabSrc l p).2 = true) :
    Accesses 0 d (d.fabPacket l fl tag p).2 ∧ KeepsBytes d (d.fabPacket l fl tag p).2 ∧ (d.fabPacket l fl tag p).2.net = d.net := by
  rw [fabPacket_device]
  split_ifs with hput
  · exact ⟨load_served (h (opPUT_iff.mp hput)), load_keepsBytes d _ _, net_of_traffic (load_traffic d _ _)⟩
  · exact ⟨.refl 0 d, .refl d, rfl⟩

include hserved

theorem launched_sent (u tag : Nat) : Sent t p g fl d (d.launched t g fl u tag p) := by
  obtain ⟨-, hbytes, hnet⟩ := fabPacket_reads (fl := fl) g.bytes tag hserved
  have hlink := link_of_net hnet (engineSrc t)
  unfold Dev.launched
  generalize (d.fabPacket g.bytes fl tag p).2 = e at *
  refine ⟨⟨tag, _, _, (sendPkt_link (e.setFlow _ _) _ _ _ _).trans (congrArg (·.inq ++ _) hlink), rfl, rfl, fun _ => rfl⟩, ⟨u, tag, ?flow⟩, ?bytes⟩
  case flow => exact nget?_nset_same _ _ _
  case bytes => exact ⟨hbytes.mem, hbytes.lost, hbytes.out⟩

theorem launched_tck (u tag : Nat) : (d.launched t g fl u tag p).eng.tck = d.eng.tck := (fabPacket_reads (fl := fl) g.bytes tag hserved).1.tck

theorem launched_met (u tag : Nat) (hmet : d.bank.met = 0) : (d.launched t g fl u tag p).bank.met = 0 :=
  (fabPacket_reads (fl := fl) g.bytes tag hserved).1.met_eq_zero hmet

omit hserved

/-- What was sent after steps that left the network and memory alone. -/
theorem Sent.after {c e : Dev} (h : Sent t p g fl d e) (hnet : d.net = c.net) (hbytes : KeepsBytes c d) : Sent t p g fl c e where
  packet := by
    obtain ⟨tag, z, rest, hlink, hwhole, hz, hrest⟩ := h.packet
    refine ⟨tag, z, rest, ?_, hwhole, ?_, fun hlow => (hrest hlow).trans ?_⟩
    · rw [hlink, link_of_net hnet]
    · rw [hz, fabPacket_header c _ fl tag p hnet]
    · exact fabPacket_payload c _ fl tag p fun hput => read_of_sameMem (hlow (opPUT_iff.mp hput)) hbytes.sameMem
  flow := h.flow
  bytes := hbytes.trans h.bytes

/-- What was sent stands after steps that leave the network and memory alone. -/
theorem Sent.stands {c e : Dev} (h : Sent t p g fl d c) (hnet : e.net = c.net) (hbytes : KeepsBytes c e) : Sent t p g fl d e where
  packet := by rw [link_of_net hnet]; exact h.packet
  flow := by rw [Dev.flow, hnet]; exact h.flow
  bytes := h.bytes.trans hbytes

end

/-! ## One command -/

section
variable {d c : Dev} {t k o p : Nat} {r : Run} {x : Dec} {fl : Flow}

/-- The first packet of a run leaves after the seals of its source. -/
theorem sendNext_fed {l : List Nat} {src : List (Nat × Nat)} (hsent : r.sent = 0) (hp : (r.packets x)[0]? = some p)
    (hflow : c.flow (flowOf r.cmd.bytes) = some fl) (hroom : fl.outstanding.length < 4096) (hout : c.engineOut t < 4096)
    (hpace : (c.paceAt fl (fabFlits r.cmd.bytes p)).1.isSome = true)
    (hstop : opcode r.cmd.bytes = 0x40 → c.memStopped (fabSrc r.cmd.bytes p).1 (fabSrc r.cmd.bytes p).2 = none)
    (hserved : opcode r.cmd.bytes = 0x40 → c.memServed (fabSrc r.cmd.bytes p).1 (fabSrc r.cmd.bytes p).2 = true) :
    ∃ e q, (c.feedSeals t { r with acc := l } false src).sendNext t { r with acc := l } x = (e, ({ r with acc := l } : Run).asked q) ∧
      Sent t p r.cmd fl c e ∧ e.eng.tck = c.eng.tck ∧ (c.bank.met = 0 → e.bank.met = 0) := by
  have hmoves := feedSeals_movesSeals c t { r with acc := l } false src
  have hnet := net_of_traffic (feedSeals_traffic c t { r with acc := l } false src)
  generalize c.feedSeals t { r with acc := l } false src = d at *
  have hreach := hmoves.accesses 0
  obtain ⟨n, u, tag, q, hnext⟩ := sendNext_launches (d := d) (t := t) (p := p) (r := { r with acc := l }) (x := x) (fl := fl)
    (by rw [hsent]; exact hp) (by rw [Dev.flow, hnet]; exact hflow) hroom (by rw [Dev.engineOut, Dev.tck, hmoves.tck]; exact hout)
    ((congrArg _ (paceAt_congr hmoves.clk hmoves.freeCtr fl _)).trans hpace)
    fun ho => ⟨(hreach.memStopped _ _).trans (hstop ho), (hreach.memServed _ _).trans (hserved ho)⟩
  have hread (ho : opcode r.cmd.bytes = 0x40) : (d.drawn n).memServed (fabSrc r.cmd.bytes p).1 (fabSrc r.cmd.bytes p).2 = true :=
    (drawn_memServed d n _ _).trans ((hreach.memServed _ _).trans (hserved ho))
  exact ⟨_, q, hnext, (launched_sent hread u tag).after hnet ⟨hmoves.bytes.mem, hmoves.bytes.lost, hmoves.bytes.out⟩,
    (launched_tck hread u tag).trans hmoves.tck, fun h0 => launched_met hread u tag ((congrArg _ hmoves.bank).trans h0)⟩

/-- A fabric command that passes its checks and may send at once sends its first packet. -/
theorem fabCmd_sends (hx : d.executes t k o r) (hd : r.dec t = some x) (hacc : r.acc = []) (hsent : r.sent = 0)
    (hp : (r.packets x)[0]? = some p) (hcheck : d.flowCheck r.cmd.bytes = (c, none)) (hrun : c.runAt t k = some r) (hmet : c.bank.met = 0)
    (hflow : c.flow (flowOf r.cmd.bytes) = some fl) (hroom : fl.outstanding.length < 4096) (hout : c.engineOut t < 4096)
    (hpace : (c.paceAt fl (fabFlits r.cmd.bytes p)).1.isSome = true)
    (hstop : opcode r.cmd.bytes = 0x40 → c.memStopped (fabSrc r.cmd.bytes p).1 (fabSrc r.cmd.bytes p).2 = none)
    (hserved : opcode r.cmd.bytes = 0x40 → c.memServed (fabSrc r.cmd.bytes p).1 (fabSrc r.cmd.bytes p).2 = true) :
    Sent t p r.cmd fl c (d.fabCmd t k o) ∧
      ∃ y, (d.fabCmd t k o).runAt t k = some y ∧ y.sent = 1 ∧ y.status = none ∧ y.reqs.length = r.reqs.length + 1 := by
  obtain ⟨e, q, hnext, hsend, htck, hmet'⟩ := sendNext_fed (l := [if o = 0x42 then 1 else (r.packets x).length])
    (src := if o = 0x40 then (r.packets x).map (fabSrc r.cmd.bytes) else []) hsent hp hflow hroom hout hpace hstop hserved
  have hrun' : e.runAt t k = some r := by rw [Dev.runAt, Dev.tck, htck]; exact hrun
  have hdone : Settled t k e (({ r with acc := [if o = 0x42 then 1 else (r.packets x).length] } : Run).asked q) (d.fabCmd t k o) ∧
      (d.fabCmd t k o).net = e.net :=
    engineOp_settled hx hd (y := (e, _)) (by simp only [hacc, List.isEmpty_nil, if_true, hcheck]; exact hnext) hrun' (hmet' hmet) rfl
  obtain ⟨hsettled, hnet⟩ := hdone
  have hstatus : r.status = none := status_of_runs hx.1
  exact ⟨hsend.stands hnet hsettled.bytes, _, hsettled.run, congrArg (· + 1) hsent, hstatus, List.length_append⟩

/-- On a flow that is not open a command without FOPEN ends with NO_CONTEXT (R389). -/
theorem fabCmd_noContext (hx : d.executes t k o r) (hd : r.dec t = some x) (hacc : r.acc = [])
    (hcheck : d.flowCheck r.cmd.bytes = (d, some .noContext)) :
    (d.fabCmd t k o).hasStatus t k .noContext ∧ (d.fabCmd t k o).net = d.net ∧ SameRegs d (d.fabCmd t k o) [(F.MST_DIG_STAT_BACKLOG, [])] ∧
      SameMem d (d.fabCmd t k o) := by
  have hdone : Settled t k d { r with status := some .noContext } (d.fabCmd t k o) ∧ (d.fabCmd t k o).net = d.net :=
    engineOp_settled hx hd (y := (d, _)) (by simp only [hacc, List.isEmpty_nil, if_true, hcheck]) (runAt_of_runs hx.1) (met_of_runs hx.1) rfl
  obtain ⟨hsettled, hnet⟩ := hdone
  exact ⟨hsettled.hasStatus rfl, hnet, hsettled.regs, hsettled.bytes.sameMem⟩

end

/-! ## What the statements say of a packet sent -/

section
variable {d e : Dev} {t p : Nat} {g : Cmd} {fl : Flow}

/-- A GET's and a NOTIFY's packet is whole in the command; a PUT's is read below the capstan window. -/
theorem Sent.whole (h : Sent t p g fl d e) (ho : opcode g.bytes ≠ 0x40) :
    ∃ tag z rest, (e.link (engineSrc t)).inq = (d.link (engineSrc t)).inq ++ [z] ∧ z.complete = true ∧
      z.bytes = (d.fabPacket g.bytes fl tag p).1.1.enc ++ rest ∧ rest = (d.fabPacket g.bytes fl tag p).1.2.1 := by
  obtain ⟨tag, z, rest, hlink, hwhole, hz, hrest⟩ := h.packet
  exact ⟨tag, z, rest, hlink, hwhole, hz, hrest fun h => absurd h ho⟩

theorem packetSize_pos (l : List Byte) : 0 < packetSize l := Nat.mul_pos (by decide) (Nat.two_pow_pos _)

theorem Sent.low (h : Sent t p g fl d e) :
    ∃ tag z rest, (e.link (engineSrc t)).inq = (d.link (engineSrc t)).inq ++ [z] ∧ z.complete = true ∧
      z.bytes = (d.fabPacket g.bytes fl tag p).1.1.enc ++ rest ∧
      (leAt g.bytes 12 6 + (p + 1) * packetSize g.bytes ≤ 0x300000000000 → rest = (d.fabPacket g.bytes fl tag p).1.2.1) := by
  obtain ⟨tag, z, rest, hlink, hwhole, hz, hrest⟩ := h.packet
  refine ⟨tag, z, rest, hlink, hwhole, hz, fun hlow => hrest fun _ => ?_⟩
  have hsize := packetSize_pos g.bytes
  rw [Nat.add_mul] at hlow
  show leAt g.bytes 12 6 + p * packetSize g.bytes < 0x300000000000
  omega

theorem Sent.outstanding (h : Sent t p g fl d e) :
    ∃ z, e.flow (flowOf g.bytes) = some z ∧ z.outstanding.length = fl.outstanding.length + 1 := by
  obtain ⟨u, tag, hflow⟩ := h.flow
  exact ⟨_, hflow, List.length_append⟩

end

/-! ## The checks of a command -/

/-- The context that FOPEN opens from template `j` (R390). -/
def Dev.opening (d : Dev) (f j : Nat) : Flow :=
  { d.fromTemplate j with
    rate := d.getF F.PRT_RC_PROF_MAX [flowDie f, (d.fromTemplate j).profile], period := d.ratePeriod (flowDie f) (d.fromTemplate j).profile }

section
variable {d : Dev} {l : List Byte} (hdie : d.flowDieOk (flowOf l) = true)
include hdie

theorem flowCheck_open {fl : Flow} (hfopen : cbit l 4 1 = false) (hflow : d.flow (flowOf l) = some fl)
    (htc : tcOk (opcode l - 0x3F) fl.tc = true) : d.flowCheck l = (d, none) := by
  simp [Dev.flowCheck, hdie, hfopen, hflow, htc]

theorem flowCheck_closed (hfopen : cbit l 4 1 = false) (hflow : d.flow (flowOf l) = none) : d.flowCheck l = (d, some .noContext) := by
  simp [Dev.flowCheck, hdie, hfopen, hflow]

theorem flowCheck_fopen {j : Nat} (hfopen : cbit l 4 1 = true) (hj : j = cbits l 5 0 4) (hbroken : d.broken [8, j] = false)
    (hvalid : d.flag F.MST_FLOW_TMPL_VALID [j] = true) (htc : tcOk (opcode l - 0x3F) (d.getF F.MST_FLOW_TMPL_TC [j]) = true)
    (hflow : d.flow (flowOf l) = none) : d.flowCheck l = (d.setFlow (flowOf l) (d.opening (flowOf l) j), none) := by
  subst hj
  simp [Dev.flowCheck, hdie, hfopen, hbroken, hvalid, htc, hflow, Dev.opening]

end

/-! ## The three commands -/

section
variable {s : State} {i : Instr} {t k o p : Nat} {r : Run} {x : Dec} (hexec : exec i s = .next { s with dev := s.dev.fabCmd t k o })
  (hx : s.dev.executes t k o r) (hd : r.dec t = some x) (hacc : r.acc = []) (hdie : s.dev.flowDieOk (flowOf r.cmd.bytes) = true)

theorem opcode_of_executes {d : Dev} (hx : d.executes t k o r) : opcode r.cmd.bytes = o := by
  obtain ⟨⟨-, hop, -⟩, -⟩ := hx
  exact hop

include hx hd hacc hdie

theorem fabCmd_open {fl : Flow} (hsent : r.sent = 0) (hp : (r.packets x)[0]? = some p) (hfopen : cbit r.cmd.bytes 4 1 = false)
    (hflow : s.dev.flow (flowOf r.cmd.bytes) = some fl) (htc : tcOk (o - 0x3F) fl.tc = true) (hroom : fl.outstanding.length < 4096)
    (hout : s.dev.engineOut t < 4096) (hpace : (s.dev.paceAt fl (fabFlits r.cmd.bytes p)).1.isSome = true)
    (hsrc : o = 0x40 → s.dev.memStopped (fabSrc r.cmd.bytes p).1 (fabSrc r.cmd.bytes p).2 = none ∧
      s.dev.memServed (fabSrc r.cmd.bytes p).1 (fabSrc r.cmd.bytes p).2 = true) :
    Sent t p r.cmd fl s.dev (s.dev.fabCmd t k o) ∧
      ∃ y, (s.dev.fabCmd t k o).runAt t k = some y ∧ y.sent = 1 ∧ y.status = none ∧ y.reqs.length = r.reqs.length + 1 := by
  have hop := opcode_of_executes hx
  refine fabCmd_sends hx hd hacc hsent hp (flowCheck_open hdie hfopen hflow (hop ▸ htc)) (runAt_of_runs hx.1) (met_of_runs hx.1) hflow hroom
    hout hpace (fun ho => (hsrc (hop ▸ ho)).1) (fun ho => (hsrc (hop ▸ ho)).2)

include hexec

/-- GET and NOTIFY on an open flow. -/
theorem completes_open {fl : Flow} (hsent : r.sent = 0) (hp : (r.packets x)[0]? = some p) (hfopen : cbit r.cmd.bytes 4 1 = false)
    (hflow : s.dev.flow (flowOf r.cmd.bytes) = some fl) (htc : tcOk (o - 0x3F) fl.tc = true) (hroom : fl.outstanding.length < 4096)
    (hout : s.dev.engineOut t < 4096) (hpace : (s.dev.paceAt fl (fabFlits r.cmd.bytes p)).1.isSome = true) (hne : o ≠ 0x40) :
    Completes i s (fun d => (∃ tag z rest, (d.link (engineSrc t)).inq = (s.dev.link (engineSrc t)).inq ++ [z] ∧ z.complete = true ∧
        z.bytes = (s.dev.fabPacket r.cmd.bytes fl tag p).1.1.enc ++ rest ∧ rest = (s.dev.fabPacket r.cmd.bytes fl tag p).1.2.1) ∧
      (∃ y, d.runAt t k = some y ∧ y.sent = 1 ∧ y.status = none ∧ y.reqs.length = r.reqs.length + 1) ∧
      (∃ z, d.flow (flowOf r.cmd.bytes) = some z ∧ z.outstanding.length = fl.outstanding.length + 1) ∧ SameMem s.dev d) := by
  obtain ⟨hsend, hrun⟩ := fabCmd_open hx hd hacc hdie hsent hp hfopen hflow htc hroom hout hpace fun h => absurd h hne
  exact completes_of_exec hexec ⟨hsend.whole (opcode_of_executes hx ▸ hne), hrun, hsend.outstanding, hsend.bytes.sameMem⟩

/-- A command without FOPEN on a flow that is not open. -/
theorem completes_closed (hfopen : cbit r.cmd.bytes 4 1 = false) (hflow : s.dev.flow (flowOf r.cmd.bytes) = none) :
    Completes i s (fun d => d.hasStatus t k .noContext ∧ d.net = s.dev.net ∧ SameRegs s.dev d [(F.MST_DIG_STAT_BACKLOG, [])] ∧ SameMem s.dev d) :=
  completes_of_exec hexec (fabCmd_noContext hx hd hacc (flowCheck_closed hdie hfopen hflow))

/-- A command with FOPEN opens its flow from the template and sends on it at once. -/
theorem completes_fopen {j : Nat} (hsent : r.sent = 0) (hp : (r.packets x)[0]? = some p) (hfopen : cbit r.cmd.bytes 4 1 = true)
    (hj : j = cbits r.cmd.bytes 5 0 4) (hbroken : s.dev.broken [8, j] = false) (hvalid : s.dev.flag F.MST_FLOW_TMPL_VALID [j] = true)
    (htc : tcOk (o - 0x3F) (s.dev.getF F.MST_FLOW_TMPL_TC [j]) = true) (hflow : s.dev.flow (flowOf r.cmd.bytes) = none)
    (hout : s.dev.engineOut t < 4096)
    (hsrc : o = 0x40 → s.dev.memStopped (fabSrc r.cmd.bytes p).1 (fabSrc r.cmd.bytes p).2 = none ∧
      s.dev.memServed (fabSrc r.cmd.bytes p).1 (fabSrc r.cmd.bytes p).2 = true) :
    Completes i s (fun d => (∃ z, d.flow (flowOf r.cmd.bytes) = some z ∧ z.tc = s.dev.getF F.MST_FLOW_TMPL_TC [j] ∧
        z.pkey = s.dev.getF F.MST_FLOW_TMPL_PKEY [j] ∧ z.profile = s.dev.getF F.MST_FLOW_TMPL_PROFILE [j] ∧
        z.rate = s.dev.getF F.PRT_RC_PROF_MAX [flowDie (flowOf r.cmd.bytes), z.profile] ∧ z.outstanding.length = 1) ∧
      (∃ y, d.runAt t k = some y ∧ y.sent = 1) ∧ SameMem s.dev d) := by
  have hop := opcode_of_executes hx
  have hcheck := flowCheck_fopen hdie hfopen hj hbroken hvalid (hop ▸ htc) hflow
  obtain ⟨hsend, y, hrun, hy, -⟩ := fabCmd_sends hx hd hacc hsent hp hcheck (runAt_of_runs hx.1) (met_of_runs hx.1) (nget?_nset_same _ _ _)
    (show 0 < 4096 by decide) hout rfl (fun ho => (hsrc (hop ▸ ho)).1) (fun ho => (hsrc (hop ▸ ho)).2)
  obtain ⟨u, tag, hz⟩ := hsend.flow
  exact completes_of_exec hexec ⟨⟨_, hz, rfl, rfl, rfl, rfl, rfl⟩, ⟨y, hrun, hy⟩, fun a => hsend.bytes.sameMem a⟩

end

/-- Settles O45: a first packet leaves on an open flow and on one that FOPEN opens, and none without a context. -/
theorem fabricCommands : Obligations.FabricCommands := by
  refine ⟨?putOpen, ?getOpen, ?notifyOpen, ?putClosed, ?getClosed, ?notifyClosed, ?putFopen, ?getFopen, ?notifyFopen⟩
  case putOpen =>
    intro s t k p r x fl hx hd hacc hsent hp hdie hfopen hflow htc hroom hout hpace hstop hserved
    obtain ⟨hsend, hrun⟩ := fabCmd_open hx hd hacc hdie hsent hp hfopen hflow htc hroom hout hpace fun _ => ⟨hstop, hserved⟩
    exact completes_of_exec (d := s.dev.fabCmd t.val k 0x40) rfl ⟨hsend.low, hrun, hsend.outstanding, hsend.bytes.sameMem⟩
  case getOpen =>
    exact fun _ _ _ _ _ _ _ hx hd hacc hsent hp hdie hfopen hflow htc hroom hout hpace =>
      completes_open rfl hx hd hacc hdie hsent hp hfopen hflow htc hroom hout hpace (by decide)
  case notifyOpen =>
    exact fun _ _ _ _ _ _ _ hx hd hacc hsent hp hdie hfopen hflow htc hroom hout hpace =>
      completes_open rfl hx hd hacc hdie hsent hp hfopen hflow htc hroom hout hpace (by decide)
  case putClosed => exact fun _ _ _ _ _ hx hd hacc hdie hfopen hflow => completes_closed rfl hx hd hacc hdie hfopen hflow
  case getClosed => exact fun _ _ _ _ _ hx hd hacc hdie hfopen hflow => completes_closed rfl hx hd hacc hdie hfopen hflow
  case notifyClosed => exact fun _ _ _ _ _ hx hd hacc hdie hfopen hflow => completes_closed rfl hx hd hacc hdie hfopen hflow
  case putFopen =>
    exact fun _ _ _ _ _ _ _ hx hd hacc hsent hp hdie hfopen hj hbroken hvalid htc hflow hout hstop hserved =>
      completes_fopen rfl hx hd hacc hdie hsent hp hfopen hj hbroken hvalid htc hflow hout fun _ => ⟨hstop, hserved⟩
  case getFopen =>
    exact fun _ _ _ _ _ _ _ hx hd hacc hsent hp hdie hfopen hj hbroken hvalid htc hflow hout =>
      completes_fopen rfl hx hd hacc hdie hsent hp hfopen hj hbroken hvalid htc hflow hout fun h => absurd h (by decide)
  case notifyFopen =>
    exact fun _ _ _ _ _ _ _ hx hd hacc hsent hp hdie hfopen hj hbroken hvalid htc hflow hout =>
      completes_fopen rfl hx hd hacc hdie hsent hp hfopen hj hbroken hvalid htc hflow hout fun h => absurd h (by decide)

end Sys2Proof.Machine
end
